-- ==== Sys2Proof/Word.lean ====
section
/-!
DEFINITION. Sys2Proof/Word.lean: the plain data types the commands carry: words, the names of the
registers the spec's register tables give (files 02 and 04 to 18 of spec/), a register word as a
name with its indices, the command packet of R412, the origin of a register write, and the place
of a hardware thread.
-/

namespace Sys2Proof

/-- A 64-bit word: the width of a command word (R412), of a thread register (R300) and of one
register slot (a 32-bit register is held zero-extended, R422). -/
abbrev Word := BitVec 64

abbrev Byte := BitVec 8

/-- The name of every register of the spec's register tables, in the order of the tables. -/
inductive RegName where
  | budFrameCfg | budFrameCount | budEvFrame | budCap | budPitch
  | budUsed | budWaitLimit | budEvWait | budCredBudget | budCredGranted
  | budGroupCfg | budGroupState | budEvDenied | daleId | daleCtl
  | daleState | daleTile | daleColmap | daleRowmap | daleQueue
  | daleSide | daleRange | daleEvMisroute | daleEvLock | daleEvIntrusion
  | daleLastTag | daleTagRows | daleSymbols | daleReloads | valeId
  | valeBank | veldId | veldCfg | veldState | veldProg
  | veldImgBase | veldEvRefresh | veldEvRepair | veldEvNospare | veldEvWwin
  | veldLmap | siteId | siteAstate | siteWrites | siteGain
  | siteDrift | siteCheck | siteRepair | siteRowmap | siteColmap
  | siteRange | siteActxCfg | siteActxTable | siteActxStat | siteActxRseedLo
  | siteActxRseedHi | siteEvArray | convRot | convEvTrigmiss | convEvOvr
  | convEvInjfull | convTrig | convCtl | convDisc | convTrkClr
  | convInj | convInjAcc | convAcc | convSeq | convTrk
  | drvDaleCfg | drvDaleState | drvPair | drvEvRangestep | drvToneFcw
  | drvToneCtl | drvBank | drvXt | drvCh | drvUnitsel
  | guyCfg | guyLoad | guySeedLo | guySeedHi | guyGood
  | guyLoGood | guyEvLock | guyEvAcqfail | guyEvLine | guyEvFlank
  | guyEvStale | guyLastFall | guyTestCtl | guyTestAmp | guyTestFreq
  | guyTestDwell | guyCapBase | guyCapCtl | guyCapState | guyLine
  | guyLoop | guyLstate | guyCoef | calCfg | calProbe
  | calAdcCfg | calState | calEvDisagree | calEvImplaus | calDaleCount
  | calSelCount | calAdcCount | siteCalCount | calDaleTime | calSelTime
  | calAdcTime | siteCalTime | calMonTrim | calRx | calColstat
  | calCmpsel | calMap | siteCoreState | siteThreadCtl | siteThreadPc
  | siteTfault | siteEvFault | siteSpawnq | siteInstr | siteCoreRseedLo
  | siteCoreRseedHi | tentCtl | tentSites | tentDale | tentWin
  | tentSite | wsetCfg | wsetActive | wsetMinser | wsetEvFail
  | wsetSlot | wsetKey | fhCfg | fhSync | fhState
  | fhOffset | fhSfn | fhWin | fhSfnSet | fhEvSync
  | fhEvLate | fhEvUnderrun | fhEvDrop | fhPortMac | fhPortPeer
  | fhPortStat | fhEaxc | decState | decEvLate | decEvOvf
  | decSubmit | decHarqCfg | decHarqSel | decHarqPeek | decHarqClr
  | sysSerial | sysState | sysEvChanfault | sysEvWdog | sysChanfaultLoc
  | sysMpq | sysMsgq | sysMsgMask | sysMsgPost | azlState
  | azlStat | azlEvRetry | azlEvDown | passCfg | passPort
  | passStat | passLastTag | passEvCircuit | passEvMisroute | passEvDrop
  | passEvRemote | passTx | passRx | passRxFec | passExport
  | passBcast | passRoute | pwrIn | pwrEvStage | pwrStage
  | pwrRail | thmCfg | thmCoolant | thmPanel | thmHold
  | thmPanelParam | thmEvThrottle | thmEvSense | thmEvShutdown | thmNode
  | thmParam | thmShare | lantSec | lantSub | lantCmp
  | lantCfg | lantRecHead | lantRec | lantEvRec | cairnId
  | cairnSum | cairnState | cairnTime | cairnTotal | cairnInput
  | cairnRec | cairnEvt | cairnTent | sysBoot | sysFwVer
  | sysStart | sysDrained | sysEvImage | sysGpioDir | sysGpioOut
  | sysGpioIn | pwrHkSeq | pwrHkAcc | pwrHkTrk | pwrHkTrkClr
  | pwrHkRound | pwrHkDisc | pwrHkLoad
deriving DecidableEq, Repr

/-- One 64-bit slot of the register space: a register, its indices in the order the table writes
them (the Vale, Veld or site first), and the word of a multi-word register. -/
structure Reg where
  name : RegName
  idx  : List Nat := []
  w    : Nat := 0
deriving DecidableEq, Repr

/-- A command packet after its opcode (R412): the commanding Tent of byte 2 (R413), the flags of
byte 3, the tag, the first parameter and the words that follow it. -/
structure Cmd where
  tent  : Nat
  flags : BitVec 8 := 0
  tag   : BitVec 16 := 0
  param : Word := 0
  words : List Word := []
deriving DecidableEq, Repr

/-- A hardware thread: thread `t` of logical site `i` (R17). -/
structure Hart where
  i : Nat
  t : Nat
deriving DecidableEq, Repr

/-- Who writes a register (file 00, Registers: REG commands, or thread loads and stores). -/
inductive Writer where
  | thread (h : Hart)
  | host (tent : Nat) (tag : BitVec 16)
deriving DecidableEq, Repr

/-- How a Tent action is asked for (R344, R421): by the TENT_CTL command, or by setting the bit
of TENT_CTL[t]. -/
inductive Ask where
  | cmd (c : Cmd)
  | reg (who : Writer) (tent : Nat)
deriving DecidableEq, Repr

/-- An issue gate (R38). -/
inductive Gate where
  /-- the job queue of the Dale with this device-wide index -/
  | dale (k : Nat)
  /-- the array port of a logical site -/
  | array (i : Nat)
  /-- the issue stage of the core of a logical site -/
  | core (i : Nat)
  /-- a GDDR7 quadrant controller -/
  | quad (q : Nat)
  /-- a Saddle local-port transmitter -/
  | pass (p : Nat)
  /-- the LDPC or the polar dispatcher -/
  | coder (polar : Bool)
  /-- the MP scheduler -/
  | mp
  /-- the CAL_ sequencer of Vale `v`, or the check sequencer of Veld `v` - 12 (R173) -/
  | cal (v : Nat)
deriving DecidableEq, Repr

/-- Who asks the current arbiter for a credit step (R51, R135, R166, R440). -/
inductive Asker where
  /-- Dale `k` goes from idle to active -/
  | dale (k : Nat)
  /-- Veld `n` reads on one more group of 64 sites -/
  | reading (n : Nat)
  /-- Veld `n` starts to program physical site `s` -/
  | program (n s : Nat)
  /-- one more quarter of a GDDR7 quadrant's bandwidth -/
  | quarter (q : Nat)
  /-- an LDPC decoder core becomes active -/
  | decoder
  /-- the LDPC encoder becomes active -/
  | encoder
  /-- the boosters of Passes 2k and 2k + 1, which light the pair (R440) -/
  | booster (k : Nat)
deriving DecidableEq, Repr

/-- Who owns a random number generator (R87, R95, R255, R305). -/
inductive GenId where
  | requantDale (k : Nat)
  | requantSite (n s : Nat)
  | core (n s : Nat)
  | guyline (v : Nat)
  | monitor (v : Nat)
  | basecamp
deriving DecidableEq, Repr

/-- A colour tag as a detector decodes it (R123): the 32 symbols, symbol `s` in bit `s`. -/
abbrev Tag := BitVec 32

/-- One fit of a crossbar cell (R282): the zero-point and the code squared per π of its amplitude and its
phase element. -/
structure CellFit where
  a0  : Nat
  aPi : Nat
  p0  : Nat
  pPi : Nat
deriving DecidableEq, Repr, Inhabited

/-- One repeat of a cell's measurement (R281): the tap at the live point and at +δ and −δ, as amplitude in 2^-16 of
full scale and phase in 1/65,536 of a turn. -/
structure CellMeas where
  live  : Int × Int
  plus  : Int × Int
  minus : Int × Int
deriving DecidableEq, Repr

/-- What half of a receiver comparison measures (R284): the gain ratio in 2^-16, the phase difference in
360/65,536 of a degree, the quadrature error in 2^-16 of full scale. -/
structure RxHalf where
  gain  : Nat
  phase : Int
  quad  : Int
deriving DecidableEq, Repr

/-- What a rotation step measures (R281 to R288): the taps of repeats A and B by row, the over-ranges of the probe
receiver (R191), the 67 unit currents of DACs 2c and 2c + 1 in 2^-16 of the reference, the two halves of the receiver
comparison, and at the end of a cycle the mean phase errors of its halves in 360/65,536 of a degree. -/
structure StepMeas where
  repA  : List CellMeas
  repB  : List CellMeas
  ovr   : Nat
  units : List (List Nat)
  rxA   : RxHalf
  rxB   : RxHalf
  loA   : Int
  loB   : Int
deriving DecidableEq, Repr

/-- A Pass frame as a sink delivers it after FEC (R451): the header's fields and the payload. -/
structure PassFrame where
  dest    : Nat
  source  : Nat
  tent    : Nat
  kind    : Nat
  hop     : Nat
  length  : Nat
  addr    : Word
  tag     : Nat
  status  : Nat
  payload : List Byte
  /-- the payload CRC of bytes 24 to 27 holds -/
  crcOk   : Bool
deriving DecidableEq, Repr

/-- What a site check finds beside cells (R172, R178, R293): the offset readings (ADC, range, code), the faulty row
drivers, and whether core or store is faulty. -/
structure CheckSeen where
  offs : List (Nat × Nat × Int) := []
  rows : List Nat := []
  core : Bool := false
deriving DecidableEq, Repr

/-- One housekeeping entry's outcome in a round (R211): its input at the kept samples, in LSB; beyond the largest code
of either sign the over-range comparator fires (R189). -/
structure HkSample where
  entry   : Nat
  samples : List Int
deriving DecidableEq, Repr

/-- What the Cairn has measured when an event of its own comes: the seconds and the energy in µJ since its last
one, and input voltage in 10 mV, current in mA, power in W (R483, R492, R498). -/
structure CairnNow where
  dt    : Nat
  uj    : Nat
  volts : Nat
  amps  : Nat
  watts : Nat
deriving DecidableEq, Repr

end Sys2Proof
end

