-- ==== Sys2Proof/Syntax.lean ====
section
/-!
DEFINITION. Sys2Proof/Syntax.lean: the commands the block takes, one constructor per row of
spec/opcode_table.json, in the table's order. A host command carries its packet; a register write its
writer, the indices and the value; a thread instruction its thread and the fields of its word; an
event the units it happens at and what they measured.
-/

namespace Sys2Proof

/-- A column that still disagreed in the last cycle of the first full pass: the cells that did, and the cycles in a row
in which one has. -/
structure PassCol where
  col   : Nat
  cells : Nat
  run   : Nat
deriving DecidableEq, Repr

/-- The cycles of the first full pass on a Dale: its column steps without a disagreeing cell, and the columns that still
disagreed in the last one. -/
structure PassDale where
  good : Nat := 0
  cols : List PassCol := []
deriving DecidableEq, Repr

/-- The commands: one constructor per row of the opcode table. -/
inductive Instr where
  /-- SYS_INFO (R421): Command returning serial, device state, MP firmware slot and running firmware hash. -/
  | sysInfo (m : Cmd)
  /-- SYS_ECHO (R421): Hardware-path command that returns its parameter and words unchanged. -/
  | sysEcho (m : Cmd)
  /-- SYS_DRAIN_VALE (R520): Maintenance drain of a Vale: refuses new jobs, ends running jobs after drain_wait, clamps and
      darkens the Vale. -/
  | sysDrainVale (m : Cmd)
  /-- SYS_DRAIN_VELD (R521): Maintenance drain of a Veld: refuses array steps and spawns, stops threads after drain_wait,
      fails programming sets. -/
  | sysDrainVeld (m : Cmd)
  /-- SYS_RESUME (R522): Reverses a maintenance drain of a Vale or Veld. -/
  | sysResume (m : Cmd)
  /-- TENT_OPEN (R344): Open action by TENT_CTL command or register bit: CLOSED or QUIESCED Tent becomes OPEN. -/
  | tentOpen (a : Ask)
  /-- TENT_QUIESCE (R344): Quiesce action: an OPEN Tent becomes QUIESCING and refuses new work. -/
  | tentQuiesce (a : Ask)
  /-- TENT_CLOSE (R346): Close action: a QUIESCED Tent with both slots EMPTY becomes CLOSED, otherwise refused. -/
  | tentClose (a : Ask)
  /-- QUIESCE_DONE (R346): A QUIESCING Tent with no job queued or running and no step running becomes QUIESCED. -/
  | quiesceDone (t : Nat)
  /-- TENT_DALES (R347): Command assigning a mask of Dales to an owner; final reply when all assignments take effect. -/
  | tentDales (m : Cmd)
  /-- TENT_SITES (R348): Command assigning a range of logical sites and ranks to an owner. -/
  | tentSites (m : Cmd)
  /-- TENT_WINDOWS (R309): Command writing a Tent's whole window table. -/
  | tentWindows (m : Cmd)
  /-- TENT_BUDGET (R40): Command writing a Tent's eight pitches and wait limit, applied from the next frame. -/
  | tentBudget (m : Cmd)
  /-- WSET_LOAD (R354): Command that checks a manifest and starts loading a weight set into a slot. -/
  | wsetLoad (m : Cmd)
  /-- WSET_POINT (R366): Command writing the Tent's active-set pointer. -/
  | wsetPoint (m : Cmd)
  /-- WSET_RELEASE (R368): Command releasing a weight-set slot, immediately or pending while in use. -/
  | wsetRelease (m : Cmd)
  /-- RELEASE_COMPLETE (R368): A slot with release pending becomes EMPTY when its in_use bit clears. -/
  | releaseComplete (t slot : Nat)
  /-- IMAGE_LOAD (R338): Command loading and relocating a site program image, optionally checked against a manifest. -/
  | imageLoad (m : Cmd)
  /-- JOB_DALE (R424): Hardware-path command enqueueing a Dale job descriptor. -/
  | jobDale (m : Cmd)
  /-- JOB_CODER (R424): Hardware-path command enqueueing a coder descriptor. -/
  | jobCoder (m : Cmd)
  /-- JOB_LAUNCH (R329): Command starting a thread on a logical site through its spawn queue. -/
  | jobLaunch (m : Cmd)
  /-- CAL_EXPORT (R295): Command writing a trim image of all calibrations to a buffer. -/
  | calExport (m : Cmd)
  /-- CAL_IMPORT (R296): Command checking and applying a trim image, with spot checks. -/
  | calImport (m : Cmd) (bad : List Nat)
  /-- CAL_RUN (R421): Command running crosstalk kernel, spare direct DAC or housekeeping converter calibration. -/
  | calRun (m : Cmd) (results : List Int)
  /-- GUY_LOOP (R250): Command writing a whole Guyline loop entry. -/
  | guyLoop (m : Cmd)
  /-- GUY_COEF (R252): Command writing a loop coefficient set, optionally making it active. -/
  | guyCoef (m : Cmd)
  /-- GUY_STD (R243): Command installing the standard loop set on a Vale. -/
  | guyStd (m : Cmd)
  /-- CONV_INJECT (R206): Command queueing an injected monitor conversion and returning its output. -/
  | convInject (m : Cmd)
  /-- CONV_TABLE (R198): Command writing a run of monitor sequence-table entries, refused whole on any bad entry. -/
  | convTable (m : Cmd)
  /-- DRV_CH (R224): Command writing a direct drive channel. -/
  | drvCh (m : Cmd)
  /-- DRV_XT (R235): Command writing a Dale's 50 crosstalk coefficients whole. -/
  | drvXt (m : Cmd)
  /-- THERMAL_RELEASE (R475): Command leaving HOLD for STARTING when 60 s have passed and the coolant is not hot. -/
  | thermalRelease (m : Cmd)
  /-- THM_RECORD (R477): Command returning the Lantern record ring. -/
  | thmRecord (m : Cmd)
  /-- PWR_BUDGET (R49): Command setting the current-credit budget. -/
  | pwrBudget (m : Cmd)
  /-- PASS_OPEN (R445): Command opening a circuit source or sink. -/
  | passOpen (m : Cmd)
  /-- PASS_CLOSE (R449): Command closing a circuit source or sink. -/
  | passClose (m : Cmd)
  /-- PASS_EXPORT (R457): Command writing an export table entry. -/
  | passExport (m : Cmd)
  /-- PASS_ROUTE (R454): Command writing route or broadcast table entries. -/
  | passRoute (m : Cmd)
  /-- RADIO_SECTIONS (R425): Command delivering C-plane section records, each checked under R387. -/
  | radioSections (m : Cmd) (now : Nat)
  /-- ATTEST (R509): Command writing a signed attestation report for a Tent. -/
  | attest (m : Cmd)
  /-- KEY_INSTALL (R508): Command installing a publisher key pair in a Tent's key slot. -/
  | keyInstall (m : Cmd)
  /-- KEY_REMOVE (R508): Command emptying a publisher key slot. -/
  | keyRemove (m : Cmd)
  /-- FW_LOAD (R506): Command writing and checking an MP firmware image into the inactive slot. -/
  | fwLoad (m : Cmd)
  /-- FW_SWITCH (R507): Command restarting the MP from the other firmware slot on trial. -/
  | fwSwitch (m : Cmd)
  /-- FW_TRIAL_END (R507): After 60 s without a watchdog restart the firmware trial ends, optionally raising the rollback
      minimum. -/
  | fwTrialEnd
  /-- CAIRN_IDENT (R497): Command returning the Cairn software identification, checksum, keys and coefficients. -/
  | cairnIdent (m : Cmd)
  /-- CAIRN_RECORDS (R497): Command returning up to 4 Cairn billing records. -/
  | cairnRecords (m : Cmd)
  /-- CAIRN_EVENTS (R497): Command returning up to 64 Cairn event entries. -/
  | cairnEvents (m : Cmd)
  /-- REG_READ (R422): Command reading 1 to 16 registers. -/
  | regRead (m : Cmd)
  /-- REG_WRITE (R422): Command writing 1 to 16 registers in ascending order, stopping at the first refusal. -/
  | regWrite (m : Cmd)
  /-- MEM_READ (R423): Command reading up to 4,096 bytes of memory. -/
  | memRead (m : Cmd)
  /-- MEM_WRITE (R423): Command writing up to 4,096 bytes of memory. -/
  | memWrite (m : Cmd)
  /-- ALU (R324): Register-register integer operation selected by fn. -/
  | alu (h : Hart) (rd ra rb : BitVec 5) (fn : BitVec 11)
  /-- ADDI (R324): Add a sign-extended immediate. -/
  | addi (h : Hart) (rd ra : BitVec 5) (imm : BitVec 16)
  /-- ANDI (R324): AND with a zero-extended immediate. -/
  | andi (h : Hart) (rd ra : BitVec 5) (imm : BitVec 16)
  /-- ORI (R324): OR with a zero-extended immediate. -/
  | ori (h : Hart) (rd ra : BitVec 5) (imm : BitVec 16)
  /-- XORI (R324): XOR with a zero-extended immediate. -/
  | xori (h : Hart) (rd ra : BitVec 5) (imm : BitVec 16)
  /-- SHI (R324): Shift by an immediate amount. -/
  | shi (h : Hart) (rd ra : BitVec 5) (imm : BitVec 16)
  /-- SLTI (R324): Set if less than a signed immediate. -/
  | slti (h : Hart) (rd ra : BitVec 5) (imm : BitVec 16)
  /-- LIH (R324): Load a 16-bit immediate into one quarter of a register. -/
  | lih (h : Hart) (rd ra : BitVec 5) (imm : BitVec 16)
  /-- ADDPC (R324): Form a pc-relative address. -/
  | addpc (h : Hart) (rd ra : BitVec 5) (imm : BitVec 16)
  /-- LD8S (R324): Load a sign-extended byte. -/
  | ld8s (h : Hart) (rd ra : BitVec 5) (imm : BitVec 16)
  /-- LD8U (R324): Load a zero-extended byte. -/
  | ld8u (h : Hart) (rd ra : BitVec 5) (imm : BitVec 16)
  /-- LD16S (R324): Load a sign-extended halfword. -/
  | ld16s (h : Hart) (rd ra : BitVec 5) (imm : BitVec 16)
  /-- LD16U (R324): Load a zero-extended halfword. -/
  | ld16u (h : Hart) (rd ra : BitVec 5) (imm : BitVec 16)
  /-- LD32S (R324): Load a sign-extended word. -/
  | ld32s (h : Hart) (rd ra : BitVec 5) (imm : BitVec 16)
  /-- LD32U (R324): Load a zero-extended word. -/
  | ld32u (h : Hart) (rd ra : BitVec 5) (imm : BitVec 16)
  /-- LD64 (R324): Load a doubleword. -/
  | ld64 (h : Hart) (rd ra : BitVec 5) (imm : BitVec 16)
  /-- ST8 (R324): Store a byte. -/
  | st8 (h : Hart) (rb ra : BitVec 5) (imm : BitVec 16)
  /-- ST16 (R324): Store a halfword. -/
  | st16 (h : Hart) (rb ra : BitVec 5) (imm : BitVec 16)
  /-- ST32 (R324): Store a word. -/
  | st32 (h : Hart) (rb ra : BitVec 5) (imm : BitVec 16)
  /-- ST64 (R324): Store a doubleword. -/
  | st64 (h : Hart) (rb ra : BitVec 5) (imm : BitVec 16)
  /-- AMO (R316): Atomic operation performed at the home of its address. -/
  | amo (h : Hart) (rd ra rb : BitVec 5) (fn : BitVec 11)
  /-- FENCE (R315): Orders the thread's accesses or invalidates the instruction cache. -/
  | fence (h : Hart) (rd ra rb : BitVec 5) (fn : BitVec 11)
  /-- BEQ (R324): Branch if equal. -/
  | beq (h : Hart) (ra rb : BitVec 5) (off : BitVec 16)
  /-- BNE (R324): Branch if not equal. -/
  | bne (h : Hart) (ra rb : BitVec 5) (off : BitVec 16)
  /-- BLT (R324): Branch if less, signed. -/
  | blt (h : Hart) (ra rb : BitVec 5) (off : BitVec 16)
  /-- BGE (R324): Branch if greater or equal, signed. -/
  | bge (h : Hart) (ra rb : BitVec 5) (off : BitVec 16)
  /-- BLTU (R324): Branch if less, unsigned. -/
  | bltu (h : Hart) (ra rb : BitVec 5) (off : BitVec 16)
  /-- BGEU (R324): Branch if greater or equal, unsigned. -/
  | bgeu (h : Hart) (ra rb : BitVec 5) (off : BitVec 16)
  /-- JAL (R324): Jump and link, pc-relative. -/
  | jal (h : Hart) (rd : BitVec 5) (off : BitVec 21)
  /-- JALR (R324): Jump and link to a register plus offset. -/
  | jalr (h : Hart) (rd ra : BitVec 5) (imm : BitVec 16)
  /-- GETS (R326): Read a system value by selector. -/
  | gets (h : Hart) (rd ra : BitVec 5) (imm : BitVec 16)
  /-- HALT (R324): The thread becomes FREE. -/
  | halt (h : Hart)
  /-- SPAWN (R329): Start a thread on a target site from a spawn record. -/
  | spawn (h : Hart) (rd ra rb : BitVec 5) (fn : BitVec 11)
  /-- SPAWN_DEQUEUE (R329): A queued start takes a thread of the target site when one becomes FREE. -/
  | spawnDequeue (i : Nat)
  /-- WAITM (R330): Wait until a memory word differs from a value or a timeout passes. -/
  | waitm (h : Hart) (rd ra rb : BitVec 5) (fn : BitVec 11)
  /-- WAITM_WAKE (R330): A watched word is seen changed and the waiting thread resumes. -/
  | waitmWake (h : Hart)
  /-- WAITM_POLL (R330): Periodic re-read of a watched word outside the thread's own store. -/
  | waitmPoll (h : Hart)
  /-- WAITM_TIMEOUT (R330): A WAITM timeout expires and the thread resumes with the last value read. -/
  | waitmTimeout (h : Hart)
  /-- TICKW (R331): Wait for the next slot tick or frame boundary. -/
  | tickw (h : Hart) (rd ra rb : BitVec 5) (fn : BitVec 11)
  /-- DENQ (R332): Enqueue a Dale job descriptor with region and window checks. -/
  | denq (h : Hart) (rd ra rb : BitVec 5) (fn : BitVec 11)
  /-- ASTEP (R333): Issue one array step on a context of the site's array and wait. -/
  | astep (h : Hart) (rd ra rb : BitVec 5) (fn : BitVec 11)
  /-- ASTEP_END (R334): An array step ends and its thread resumes with its status. -/
  | astepEnd (i : Nat) (noise : List Int)
  /-- ACLOSE (R335): Close an array context and write its statistic block. -/
  | aclose (h : Hart) (rd ra rb : BitVec 5) (fn : BitVec 11)
  /-- VI (R324): Vector int16 operation. -/
  | vi (h : Hart) (vd va vb : BitVec 4) (p : BitVec 3) (fn : BitVec 11)
  /-- VB (R324): Vector BF16 operation. -/
  | vb (h : Hart) (vd va vb : BitVec 4) (p : BitVec 3) (fn : BitVec 11)
  /-- VF (R324): Vector FP32 operation. -/
  | vf (h : Hart) (vd va vb : BitVec 4) (p : BitVec 3) (fn : BitVec 11)
  /-- VCMP (R324): Vector compare into a predicate register. -/
  | vcmp (h : Hart) (vd va vb : BitVec 4) (p : BitVec 3) (fn : BitVec 11)
  /-- VRED (R324): Vector reduction into lane 0. -/
  | vred (h : Hart) (vd va vb : BitVec 4) (p : BitVec 3) (fn : BitVec 11)
  /-- VMOV (R324): Move between scalar and vector registers. -/
  | vmov (h : Hart) (vd : BitVec 4) (x : BitVec 5) (lane : BitVec 3) (fn : BitVec 11)
  /-- VPERM (R324): Vector lane permutation. -/
  | vperm (h : Hart) (vd va vb : BitVec 4) (p : BitVec 3) (fn : BitVec 11)
  /-- VCVT (R324): Vector format conversion. -/
  | vcvt (h : Hart) (vd va vb : BitVec 4) (p : BitVec 3) (fn : BitVec 11)
  /-- VLD (R324): Load 16 bytes into a vector register. -/
  | vld (h : Hart) (v : BitVec 4) (ra : BitVec 5) (off : BitVec 17)
  /-- VST (R324): Store 16 bytes from a vector register. -/
  | vst (h : Hart) (v : BitVec 4) (ra : BitVec 5) (off : BitVec 17)
  /-- VNQ (R327): Quantise BF16 lanes to narrow codes. -/
  | vnq (h : Hart) (vd va vb : BitVec 4) (p : BitVec 3) (fn : BitVec 11)
  /-- VDQ (R327): Dequantise narrow codes to BF16 lanes. -/
  | vdq (h : Hart) (vd va vb : BitVec 4) (p : BitVec 3) (fn : BitVec 11)
  /-- VU8 (R328): Encode or decode U8 second moments. -/
  | vu8 (h : Hart) (vd va vb : BitVec 4) (p : BitVec 3) (fn : BitVec 11)
  /-- VSC (R324): Convert between BF16 and SC16 scale codes. -/
  | vsc (h : Hart) (vd va vb : BitVec 4) (p : BitVec 3) (fn : BitVec 11)
  /-- VRAND (R324): Fill lanes with fresh generator draws. -/
  | vrand (h : Hart) (vd va vb : BitVec 4) (p : BitVec 3) (fn : BitVec 11)
  /-- MEM_ACCESS_RESPONSE (R306): The answer to a thread load, store or atomic arrives and the stalled thread resumes. -/
  | memAccessResponse (h : Hart) (n : Nat)
  /-- THREAD_STOP (R321): Write of stop in SITE_THREAD_CTL frees the thread at its next instruction boundary. -/
  | threadStop (w : Writer) (n p t : Nat)
  /-- TICKET_CLEAR (R13): Clear write of an event flag register, effective only if no event arrived since the read. -/
  | ticketClear (w : Writer) (addr : Nat) (x : Word)
  /-- FRAME_LEN_WRITE (R34): Write of frame_len, refused unless it divides the slot length, effective at the next slot tick. -/
  | frameLenWrite (w : Writer) (x : Word)
  /-- CRED_BUDGET_WRITE (R49): Write of BUD_CRED_BUDGET within range and above the sum of floors. -/
  | credBudgetWrite (w : Writer) (x : Word)
  /-- GROUP_CFG_WRITE (R54): Write of a group's ceiling and ramp limit, adjusting the ramp allowance. -/
  | groupCfgWrite (w : Writer) (g : Nat) (x : Word)
  /-- DALE_ROWMAP_WRITE (R147): Write of the skipped physical rows, only while the Dale is idle with no tile. -/
  | daleRowmapWrite (w : Writer) (v d : Nat) (x : Word)
  /-- PARK_COL_WRITE (R280): Write of park_col, effective at the next rotation step with entry rewrite and restaging. -/
  | parkColWrite (w : Writer) (v d : Nat) (x : Word)
  /-- DALE_SIDE_ADD (R141): Write adding to the count of rows whose side sums are ready. -/
  | daleSideAdd (w : Writer) (v d : Nat) (x : Word)
  /-- VALE_BANK_OWNER_WRITE (R146): Write of a bank's owner, taking effect when the bank is next dark. -/
  | valeBankOwnerWrite (w : Writer) (v b : Nat) (x : Word)
  /-- VELD_IMG_BASE_WRITE (R164): Write setting or clearing the protected level-image region of a Veld. -/
  | veldImgBaseWrite (w : Writer) (n : Nat) (x : Word)
  /-- ACTX_CREATE (R159): Write of SITE_ACTX_CFG creating the job of an array context. -/
  | actxCreate (w : Writer) (n p a : Nat) (x : Word)
  /-- CORE_RSEED_LOAD (R305): Write of SITE_CORE_RSEED_HI loading the core generator state. -/
  | coreRseedLoad (w : Writer) (n p : Nat) (x : Word)
  /-- GUY_SEED_LOAD (R255): Write of GUY_SEED_HI loading the Guyline generator state. -/
  | guySeedLoad (w : Writer) (v : Nat) (x : Word)
  /-- TABLE_GO (R199): Go write starting a monitor ADC's sequence table. -/
  | tableGo (w : Writer) (v l : Nat) (x : Word)
  /-- TABLE_HALT (R199): Halt write ending a monitor table after its running entry. -/
  | tableHalt (w : Writer) (v l : Nat) (x : Word)
  /-- TRACKER_CLEAR (R213): Write clearing monitor entry trackers. -/
  | trackerClear (w : Writer) (v l : Nat) (x : Word)
  /-- HK_TRACKER_CLEAR (R217): Write clearing housekeeping entry trackers. -/
  | hkTrackerClear (w : Writer) (k : Nat) (x : Word)
  /-- INJECT_REQUEST (R206): Register write queueing a host injected conversion, dropped when the queue is full. -/
  | injectRequest (w : Writer) (v l : Nat) (x : Word)
  /-- CONV_SEQ_WRITE (R205): Write of a monitor sequence-table entry, effective at its next start. -/
  | convSeqWrite (w : Writer) (v l e : Nat) (x : Word)
  /-- CONV_TRIG_WRITE (R204): Write of a common trigger's divider and phase. -/
  | convTrigWrite (w : Writer) (v k : Nat) (x : Word)
  /-- HK_SEQ_WRITE (R210): Write of a housekeeping table entry within the round-load limit. -/
  | hkSeqWrite (w : Writer) (e : Nat) (x : Word)
  /-- DRV_CH_WRITE (R224): Register write of a direct channel's code, range, slew or tone, refused while assigned. -/
  | drvChWrite (w : Writer) (v n : Nat) (x : Word)
  /-- RANGE_HOLD_RELEASE (R222): The hold path of a direct-channel range change releases after the new range settles. -/
  | rangeHoldRelease (v n : Nat)
  /-- DEGLITCH_RELEASE (R221): A DAC's major-transition hold ends and the newest code is released. -/
  | deglitchRelease (v n : Nat)
  /-- DRV_PAIR_WRITE (R230): Write linking Dale pairs for strobes, effective when both are idle. -/
  | drvPairWrite (w : Writer) (v : Nat) (x : Word)
  /-- TONE_CTL_WRITE (R240): Write enabling or disabling a tone generator. -/
  | toneCtlWrite (w : Writer) (v t : Nat) (x : Word)
  /-- GUY_LOOP_WRITE (R251): Register write of a loop entry, assigning or freeing it at its next tick. -/
  | guyLoopWrite (w : Writer) (v n : Nat) (xs : List Word)
  /-- GUY_COEF_WRITE (R252): Register write of an inactive coefficient set, normalised on write. -/
  | guyCoefWrite (w : Writer) (v n k : Nat) (xs : List Word)
  /-- TEST_GO (R272): Go write starting a loop test signal. -/
  | testGo (w : Writer) (v : Nat) (x : Word)
  /-- TEST_STOP (R272): Stop write ending a loop test signal. -/
  | testStop (w : Writer) (v : Nat) (x : Word)
  /-- TEST_END (R272): A swept-sine test ends after steps times dwell ticks. -/
  | testEnd (v : Nat)
  /-- CAPTURE_GO (R273): Go write starting a loop capture. -/
  | captureGo (w : Writer) (v : Nat) (x : Word)
  /-- CAPTURE_STOP (R273): Stop write ending a loop capture. -/
  | captureStop (w : Writer) (v : Nat) (x : Word)
  /-- TENT_DALE_WRITE (R347): Write of a Dale's owner, pending until the Dale is idle and empty. -/
  | tentDaleWrite (w : Writer) (k : Nat) (x : Word)
  /-- DALE_OWNER_CHANGE (R347): A pending Dale ownership takes effect and DALE_TILE is set to none. -/
  | daleOwnerChange (k : Nat)
  /-- TENT_SITE_WRITE (R349): Write of a logical site's owner and rank with rank distinctness check. -/
  | tentSiteWrite (w : Writer) (i : Nat) (x : Word)
  /-- SITE_OWNER_CHANGE (R348): A pending site ownership takes effect, zeroing the store and closing contexts. -/
  | siteOwnerChange (i : Nat)
  /-- WSET_ACTIVE_WRITE (R366): Register write of the active-set pointer. -/
  | wsetActiveWrite (w : Writer) (t : Nat) (x : Word)
  /-- FH_CFG_WRITE (R382): Write of timing source, numerology and PTP settings. -/
  | fhCfgWrite (w : Writer) (x : Word)
  /-- FH_OFFSET_WRITE (R552): Write of the frame offset moving the slot grid at once. -/
  | fhOffsetWrite (w : Writer) (x : Word)
  /-- FH_EAXC_WRITE (R374): Write of an eAxC-to-Tent entry, effective at the next slot tick. -/
  | fhEaxcWrite (w : Writer) (k : Nat) (x0 x1 : Word)
  /-- FH_WIN_WRITE (R389): Write of the fronthaul timing windows, effective at the next slot tick. -/
  | fhWinWrite (w : Writer) (x : Word)
  /-- FH_SFN_SET (R381): Write of the SFN applied at the next 1PPS edge. -/
  | fhSfnSet (w : Writer) (x : Word)
  /-- DEC_SUBMIT (R391): Write of a coder descriptor address queueing it for the Tent. -/
  | decSubmit (w : Writer) (t : Nat) (x : Word)
  /-- DEC_HARQ_CFG_WRITE (R397): Write of a Tent's HARQ directory range and pool, invalidating entries once none is busy. -/
  | decHarqCfgWrite (w : Writer) (t : Nat) (x0 x1 : Word)
  /-- DEC_HARQ_CLR (R398): Write invalidating one HARQ entry once it is not busy. -/
  | decHarqClr (w : Writer) (x : Word)
  /-- SYS_MSG_POST (R432): Write of a post record address queueing a user message. -/
  | sysMsgPost (w : Writer) (t : Nat) (x : Word)
  /-- MODULE_ID_WRITE (R452): Write of the module ID, refused while any circuit is open. -/
  | moduleIdWrite (w : Writer) (x : Word)
  /-- BOOST_EN_WRITE (R440): Write requesting Pass booster pairs on, after their credit step. -/
  | boostEnWrite (w : Writer) (x : Word)
  /-- PASS_ROUTE_WRITE (R454): Register write of a route entry, effective after queued frames are sent. -/
  | passRouteWrite (w : Writer) (m : Nat) (x : Word)
  /-- PASS_EXPORT_WRITE (R457): Register write of an export table entry. -/
  | passExportWrite (w : Writer) (k : Nat) (x0 x1 : Word)
  /-- LANT_SEC_WRITE (R462): Write setting the Lantern seconds counter and valid. -/
  | lantSecWrite (w : Writer) (x : Word)
  /-- REGISTER_WRITE (R11): Write of any register that has no row of its own. -/
  | registerWrite (w : Writer) (addr : Nat) (xs : List Word)
  /-- SLOT_TICK (R381): A slot tick in LOCKED starts a slot, arms its graph and releases TICKW waiters. -/
  | slotTick (t : Nat)
  /-- FREE_RUNNING_TICK (R36): A 1,000 µs free-running tick frames the device without slot ticks. -/
  | freeRunningTick
  /-- FRAME_BOUNDARY (R41): A budget frame boundary in the radio timing island returns the central counters to zero. -/
  | frameBoundary
  /-- GATE_FRAME_CHANGE (R37): A frame boundary reaches an issue gate and old leases lapse. -/
  | gateFrameChange (g : Gate)
  /-- WAIT_LIMIT_EXPIRE (R45): A waiting hardware-job grain exceeds wait_frames and its job ends BUDGET_WAIT_LIMIT. -/
  | waitLimitExpire (g : Gate) (t : Nat)
  /-- LEASE_REQUEST (R41): A gate requests a lease from the central counter, granted while below the allowance. -/
  | leaseRequest (g : Gate) (t qty : Nat)
  /-- CREDIT_REQUEST (R52): A consumer group requests a credit step from the arbiter. -/
  | creditRequest (a : Asker)
  /-- CREDIT_GRANT (R52): The arbiter grants a waiting credit step when budget, ceiling and ramp allow. -/
  | creditGrant
  /-- RAMP_REFILL (R54): A group's ramp allowance refills over time. -/
  | rampRefill (g us : Nat)
  /-- CREDIT_RELEASE (R55): After 20 µs idle a Vale or Veld releases a credit step. -/
  | creditRelease (a : Asker)
  /-- CHANNEL_FAULT (R29): A die-boundary word stays incomplete over 1 µs; the channel fails and units are drained. -/
  | channelFault (die index channel : Nat) (units : List (Nat × Nat))
  /-- JOB_START (R137): A Dale job reaches the head of its queue and starts its credit, reload, colour change and lock
      wait. -/
  | jobStart (v d : Nat)
  /-- LOCK_WAIT_EXPIRE (R131): lock_wait passes with lock-good low and the job ends LOCK_LOST. -/
  | lockWaitExpire (v d : Nat)
  /-- RELOAD_STAGED (R133): A reload's staging write completes and awaits its strobe. -/
  | reloadStaged (v d : Nat)
  /-- LOAD_STROBE (R226): At a batch boundary every hold-cell pair of a Dale exchanges roles. -/
  | loadStrobe (v d : Nat)
  /-- HEATER_SETTLED (R133): The heater settle after a strobe ends and batches on the new tile may start. -/
  | heaterSettled (v d : Nat)
  /-- COLUMN_STROBE (R229): At a batch boundary the pairs of the rotating columns exchange roles. -/
  | columnStrobe (v d : Nat)
  /-- HOLD_CELL_REFRESH (R227): A hold-cell DAC refreshes a pair from its live code, or ramps it in slew mode. -/
  | holdCellRefresh (v d p : Nat)
  /-- BATCH_START (R140): A Dale batch checks deadline, scale record and tag, sets ranges and issues its symbols. -/
  | batchStart (v d now : Nat) (bad : List (Nat × Option Tag))
  /-- BATCH_END (R120): A batch's rows are accumulated, requantised and written. -/
  | batchEnd (v d : Nat) (noise : List Int)
  /-- JOB_COMPLETE (R142): A Dale job ends, writes its statistic block and completion record. -/
  | jobComplete (v d : Nat)
  /-- TAG_DECODE (R125): Ingress tap detectors decode a colour tag. -/
  | tagDecode (v port : Nat) (tag : Tag)
  /-- BATCH_REISSUE (R128): After 32 symbols without intruder light the discarded batch is issued again. -/
  | batchReissue (v d : Nat)
  /-- TAG_LOSS_TIMEOUT (R270): No wrong-line report within 2 µs of a tag loss; the line table is invalidated and SEARCH starts. -/
  | tagLossTimeout (v b : Nat)
  /-- ROTATION_STEP (R281): A Dale's calibration column rotates, probes, fits and commits element map entries. -/
  | rotationStep (v d : Nat) (m : StepMeas)
  /-- SELECTOR_CAL (R289): An idle bank is calibrated through port 12 for its ring power ratio. -/
  | selectorCal (v b r1 p1 r2 p2 : Nat)
  /-- TRIGGER_TICK (R204): A common trigger ticks and waiting monitor entries take their first kept sample. -/
  | triggerTick (v k : Nat)
  /-- ENTRY_START (R200): A monitor table entry starts its discard and kept conversions. -/
  | entryStart (v l : Nat)
  /-- ENTRY_OUTPUT (R202): An entry ends, writes its output, updates its tracker and takes the next entry. -/
  | entryOutput (v l : Nat) (samples : List Int) (fired : List Nat)
  /-- INJECTION_RUN (R207): A queued injected conversion runs, abandoning a running table entry. -/
  | injectionRun (v l taken : Nat)
  /-- CAL_CONV_START (R208): A calibration conversion starts when no injection pends or its 800 ns bound passes. -/
  | calConvStart (v l taken : Nat) (bound : Bool)
  /-- ADC_ROTATION_STEP (R292): The monitor ADC under calibration moves one place and its calibration starts. -/
  | adcRotationStep (v : Nat)
  /-- HK_ROUND (R211): Every 1 ms the housekeeping converters run their round and feed the thermal model. -/
  | hkRound (samples : List HkSample)
  /-- COOLANT_COMPARATOR (R473): The Lantern coolant comparator fires above 55 °C. -/
  | coolantComparator (hot : Bool)
  /-- LOOP_TICK (R253): A Guyline loop ticks, runs its state's law and writes its heater code. -/
  | loopTick (v n : Nat)
  /-- LINE_STEP_EXPIRE (R256): 12 µs after entering LINE STEP a selector enters SETTLE. -/
  | lineStepExpire (v b : Nat)
  /-- ACQ_FAIL (R258): 2 ms pass in SETTLE without hand-over and the loop restarts SEARCH. -/
  | acqFail (v n : Nat)
  /-- PROGRAM_GRAIN (R169): A grain of 64 write-verify iterations programs cells after the write-window check. -/
  | programGrain (n ps : Nat) (reads : List (List Nat))
  /-- WRITE_WINDOW_TIMEOUT (R169): Weight-set programming paused longer than wwin_wait ends WRITE_WINDOW. -/
  | writeWindowTimeout (n ps : Nat)
  /-- PROGRAMMING_DONE (R165): A site's programming ends and its record and fingerprint hash are written. -/
  | programmingDone (n ps : Nat) (noise : List Int)
  /-- SITE_CHECK (R172): A Veld checks a site's cells against its level image during idle phases. -/
  | siteCheck (n phases : Nat) (off : List (Nat × Nat × Nat)) (seen : CheckSeen)
  /-- REFRESH_START (R174): A queued refresh or repair starts on a free spare site. -/
  | refreshStart (n : Nat)
  /-- MIGRATION (R175): At the end of the running step a logical site moves to its spare. -/
  | migration (n : Nat)
  /-- OLD_SITE_REWRITTEN (R174): The old physical site is rewritten and becomes a spare or is retired. -/
  | oldSiteRewritten (n : Nat) (noise : List Int)
  /-- SHARD_ARRIVAL (R362): A shard payload arrives, is hashed, decoded, quantised and placed. -/
  | shardArrival (t slot shard : Nat)
  /-- SHARD_TIMEOUT (R362): No good shard copy within shard_to; the set goes to FAILED. -/
  | shardTimeout (t slot shard : Nat)
  /-- BCAST_WAIT_EXPIRE (R363): A broadcast receiver has no copy within bcast_wait and fetches its own. -/
  | bcastWaitExpire (t slot shard : Nat)
  /-- FINGERPRINT_VERIFY (R513): All shards placed; the set is verified against its fingerprint vectors. -/
  | fingerprintVerify (t slot : Nat) (noise : List (List Int))
  /-- UPLANE_RECEIVE (R376): A received U-plane packet is parsed, decompressed and written into PRB records. -/
  | uplaneReceive (port : Nat) (bytes : List Byte) (after : Int)
  /-- CPLANE_SEND (R387): C-plane messages of a slot are sent at cp_adv before its tick. -/
  | cplaneSend (slot : Nat) (down : Bool)
  /-- DL_UPLANE_SEND (R388): Downlink U-plane of an OFDM symbol is compressed and sent at up_adv. -/
  | dlUplaneSend (slot l : Nat)
  /-- PTP_MESSAGE (R379): A PTP or ESMC message is received or answered. -/
  | ptpMessage (port : Nat) (bytes : List Byte) (te : Int)
  /-- DELAY_MEASUREMENT (R370): An eCPRI one-way delay measurement message is answered. -/
  | delayMeasurement (port : Nat) (bytes : List Byte) (ts comp : Nat)
  /-- SYNC_LOCKED (R380): The time error stays within ±100 ns for 16 s and the island enters LOCKED. -/
  | syncLocked
  /-- SYNC_LOSS_TIMEOUT (R380): No valid time for loss_to seconds and the island enters HOLDOVER. -/
  | syncLossTimeout
  /-- SYNC_SOURCE_RETURN (R380): The reference returns and the island enters ACQUIRING. -/
  | syncSourceReturn
  /-- PPS_EDGE (R381): A 1PPS edge starts a radio frame under tsrc 2. -/
  | ppsEdge (t : Nat)
  /-- CODE_BLOCK_START (R391): A coder descriptor passes the DEC gate and a code block starts. -/
  | codeBlockStart (t now : Nat)
  /-- CODE_BLOCK_END (R393): A code block ends, returning unused iterations. -/
  | codeBlockEnd (id b : Nat)
  /-- CODER_COMPLETE (R396): A coder descriptor writes its report, HARQ state and completion record. -/
  | coderComplete (id : Nat)
  /-- FLIT_RECEIVE (R407): A flit arrives, is CRC-checked, accepted or discarded, with ack and credit taken. -/
  | flitReceive (bytes : List Byte)
  /-- RETRY_REPEAT (R407): A RETRY is repeated every 1 µs until the expected flit arrives. -/
  | retryRepeat
  /-- IDLE_ACK (R407): An IDLE flit is sent so the ack is never older than 0.5 µs. -/
  | idleAck
  /-- REPLAY_TIMEOUT (R408): The ack has not advanced for 10 µs and flits are sent again from the oldest. -/
  | replayTimeout
  /-- RETRAIN (R409): Repeated resends or lost alignment start a retrain. -/
  | retrain
  /-- LINK_DOWN (R409): A retrain fails within 100 ms and the link goes DOWN. -/
  | linkDown
  /-- LINK_UP (R410): INIT flits bring the link UP and a link message is queued. -/
  | linkUp (bytes : List Byte)
  /-- HOST_READ_REQUEST (R433): The device sends a host-read request for a shard. -/
  | hostReadRequest (t slot shard off : Nat)
  /-- HOST_READ_RESPONSE (R433): The adapter answers a host read with data or a refusal. -/
  | hostReadResponse (tag : Nat) (ok : Bool) (data : List Byte)
  /-- HOST_READ_TIMEOUT (R433): No answer within 1 ms counts as a failed shard copy. -/
  | hostReadTimeout (tag : Nat)
  /-- MESSAGE_SEND (R431): A queued message leaves in a class 2 packet. -/
  | messageSend
  /-- WATCHDOG_RESTART (R419): The MP misses its watchdog and restarts from its active slot. -/
  | watchdogRestart
  /-- SINK_FRAME_RECEIVE (R451): A Pass sink receives a frame: delivered, served, forwarded or dropped. -/
  | sinkFrameReceive (n : Nat) (f : PassFrame)
  /-- SINK_DARK_TIMEOUT (R446): A sink sees no light for 1 µs and goes DOWN. -/
  | sinkDarkTimeout (n : Nat)
  /-- SINK_WAIT_EXPIRE (R445): A sink fails to reach UP within wait and PASS_OPEN ends LOCK_LOST. -/
  | sinkWaitExpire (n : Nat)
  /-- SOURCE_LOCKED (R445): A source lane locks on its colour and sends its first tag frame. -/
  | sourceLocked (n : Nat)
  /-- TAG_FRAME_SEND (R447): A source sends its periodic tag frame. -/
  | tagFrameSend (n : Nat)
  /-- REMOTE_TIMEOUT (R456): A remote access gets no answer within remote_to and faults. -/
  | remoteTimeout (tag : Nat)
  /-- WAKE_REQUEST (R463): WAKE asks or auto_wake is set with comparators clear and the device starts from LANTERN. -/
  | wakeRequest (asks ten : Bool)
  /-- WAKE_WITHDRAWN (R463): The WAKE request is withdrawn and all hardware jobs end THERMAL_HOLD. -/
  | wakeWithdrawn
  /-- WAKE_SHUTDOWN (R463): 10 ms after WAKE withdrawal the stages turn off and the device enters LANTERN. -/
  | wakeShutdown
  /-- STAGE_FAULT (R466): A power stage turns itself off; all stages go off and the device enters LANTERN. -/
  | stageFault (k cause : Nat)
  /-- STAGE_FAULT_WAIT_END (R463): 10 s after a stage fault a new start may proceed. -/
  | stageFaultWaitEnd
  /-- INPUT_UNDERVOLTAGE (R467): The undervoltage comparator fires and the device enters LANTERN. -/
  | inputUndervoltage (fired : Bool)
  /-- INPUT_OVERVOLTAGE (R467): The overvoltage comparator fires and the device enters LANTERN. -/
  | inputOvervoltage (fired : Bool)
  /-- LANTERN_POWER_UP (R461): A Lantern supply rises and the device enters LANTERN. -/
  | lanternPowerUp (backup : Bool)
  /-- LANTERN_POWER_LOSS (R462): Both Lantern supplies fail and the device enters OFF. -/
  | lanternPowerLoss
  /-- IMPORT_WAIT_EXPIRE (R514): No CAL_IMPORT within import_wait and the first full pass starts. -/
  | importWaitExpire
  /-- FIRST_FULL_PASS (R294): The first full calibration pass runs in STARTING. -/
  | firstFullPass (secs : List Byte) (n : Nat) (failed : List Nat) (steps : List PassDale)
  /-- ENTER_SERVICE (R515): Start-up ends, Tents are restored and the device enters SERVICE. -/
  | enterService (noise : List (Nat × List Int))
  /-- DRAIN_WAIT_EXPIRE (R520): drain_wait passes and jobs or threads still running are ended. -/
  | drainWaitExpire (u n : Nat)
  /-- IMAGE_CHECK_RETRY (R518): A level-image hash mismatch is retried 1 s later. -/
  | imageCheckRetry (n : Nat)
  /-- STORE_UPDATE (R500): Changed configuration items are written to the other store bank. -/
  | storeUpdate
  /-- ACTIVITY_FRAME (R485): Basecamp sends an activity frame every 10 ms and the Cairn takes it. -/
  | activityFrame (x : CairnNow) (crcOk : Bool)
  /-- INTERVAL_CLOSE (R489): The Cairn closes a billing interval, apportions energy and writes a signed record. -/
  | intervalClose (x : CairnNow)
  /-- CAIRN_INPUT_LOSS (R491): The input falls below 20 V and the Cairn closes a partial interval. -/
  | cairnInputLoss (x : CairnNow)
  /-- CAIRN_INPUT_RETURN (R491): The input returns and the Cairn opens a partial interval. -/
  | cairnInputReturn (x : CairnNow)
  /-- SEAL_OPENED (R494): The Cairn lid or mesh is broken and seal broken is latched. -/
  | sealOpened (x : CairnNow) (state : Nat)
  /-- SELF_TEST (R494): At start and every 24 h the Cairn checks its software checksum. -/
  | selfTest (x : CairnNow) (start : Bool) (sum : List Byte)
  /-- OVERLOAD_BEGIN (R493): Input current exceeds I_max and an overload event begins. -/
  | overloadBegin (x : CairnNow) (peak : Nat)
  /-- OVERLOAD_END (R493): The overload ends and its event is written. -/
  | overloadEnd (x : CairnNow) (peak : Nat)
  /-- ACTIVITY_LINK_LOST (R493): No valid activity frame for 100 ms; the Cairn records the link lost. -/
  | activityLinkLost (x : CairnNow)
  /-- ACTIVITY_LINK_RESTORED (R493): A valid activity frame returns after a loss and is recorded. -/
  | activityLinkRestored (x : CairnNow)
  /-- METROLOGY_PULSE (R496): The pulse output emits one impulse per 0.1 Wh. -/
  | metrologyPulse (x : CairnNow)
  /-- SIDEBAND_REQUEST (R538): An opcode byte on the Lantern UART is answered with state data. -/
  | sidebandRequest (op : Byte)
  /-- BYPASS (R536): JTAG BYPASS instruction. -/
  | bypass (tdi : List Bool)
  /-- IDCODE (R536): JTAG IDCODE instruction returning 0x1480_053B. -/
  | idcode (tdi : List Bool)
  /-- SAMPLE_PRELOAD (R536): JTAG SAMPLE/PRELOAD instruction. -/
  | samplePreload (tdi pins : List Bool)
  /-- EXTEST (R537): JTAG EXTEST, effective only with JTAG_TEN high at start. -/
  | extest (tdi pins : List Bool)
  /-- CLAMP (R537): JTAG CLAMP, effective only with JTAG_TEN high at start. -/
  | clamp (tdi : List Bool)
  /-- HIGHZ (R537): JTAG HIGHZ, effective only with JTAG_TEN high at start. -/
  | highz (tdi : List Bool)
  /-- ILLEGAL_INSTRUCTION (R323): A thread issues the word 0x0000_0000, an unassigned op, fn or selector, or a word with a
      reserved field set, and faults with cause illegal. -/
  | illegalInstruction (h : Hart) (w : BitVec 32)
  /-- UNASSIGNED_OPCODE (R415): A command with an unassigned group or opcode, or an opcode of the MSG group, arrives and is
      answered BAD_OPCODE. -/
  | unassignedOpcode (op : Nat) (m : Cmd)
  /-- INJECTED_OUTPUT (R206): An injected conversion ends: its output is written to CONV_INJ_ACC and delivered to the
      requesting loop or the CONV_INJECT reply, and the next injection or the abandoned table entry
      follows. -/
  | injectedOutput (v l : Nat) (samples : List Int) (fired : List Nat)
  /-- CALIBRATION_CONVERSION_END (R209): A calibration conversion ends: its outputs go to the CAL_ sequencer, the ADC's calibration
      result is judged under R291, and waiting injections run. -/
  | calibrationConversionEnd (v l : Nat) (samples : List Int)
  /-- SAMPLE_CLOCK_CYCLE (R239): At each 50 ns cycle of the Guyline sample clock the tone accumulators advance, tone-enabled
      direct channels add their tone, and slewing channels move one step. -/
  | sampleClockCycle
  /-- CODEWORD_RECEIVE (R446): A Pass sink decodes one RS(544,514) codeword and counts it towards UP after 1,024 decodable
      codewords or towards DOWN after 64 uncorrectable ones. -/
  | codewordReceive (n : Nat) (corrected : Option Nat) (frames : Nat)
  /-- HEADER_HUNT (R451): A Pass sink finds no valid frame header for 1 µs and starts hunting for frame boundaries byte by
      byte. -/
  | headerHunt (n : Nat)
  /-- LANTERN_ON_BACKUP (R462): After the input falls below 20 V and the hold-up has run out, the Lantern passes to its backup
      input, keeps only RTC and MRAM running, and its comparators read clear. -/
  | lanternOnBackup
deriving DecidableEq, Repr

end Sys2Proof
end

