-- ==== Sys2Proof/Decode.lean ====
section
/-!
DEFINITION. Sys2Proof/Decode.lean: the words of the opcode table (no row of it has bits), and the 32-bit words of the
thread instructions: the formats of R322, the codes of R324, and the words R323 makes illegal.
-/

namespace Sys2Proof

/-- The command a table word spells: the table gives no row bits, so none. -/
def decodeTableWord (_nbits _w : Nat) : Option Instr := none

/-! ### Formats (R322) -/

/-- Format R. -/
def rWord (op : BitVec 6) (rd ra rb : BitVec 5) (fn : BitVec 11) : BitVec 32 := fn ++ rb ++ ra ++ rd ++ op

/-- Formats I, S and B: two register fields and 16 bits. -/
def iWord (op : BitVec 6) (a b : BitVec 5) (imm : BitVec 16) : BitVec 32 := imm ++ b ++ a ++ op

/-- Format J. -/
def jWord (op : BitVec 6) (rd : BitVec 5) (off : BitVec 21) : BitVec 32 := off ++ rd ++ op

/-- Format V. -/
def vWord (op : BitVec 6) (vd va vb : BitVec 4) (p : BitVec 3) (fn : BitVec 11) : BitVec 32 :=
  fn ++ p ++ vb ++ va ++ vd ++ op

/-- Format VX. -/
def vxWord (op : BitVec 6) (vd : BitVec 4) (x : BitVec 5) (lane : BitVec 3) (fn : BitVec 11) : BitVec 32 :=
  fn ++ (0 : BitVec 3) ++ lane ++ x ++ vd ++ op

/-- Format VM. -/
def vmWord (op : BitVec 6) (v : BitVec 4) (ra : BitVec 5) (off : BitVec 17) : BitVec 32 :=
  off ++ ra ++ v ++ op

/-! ### Encoding and decoding (R324) -/

/-- The word of a thread instruction; none for every other command. -/
def encodeThread : Instr → Option (BitVec 32)
  | .alu _ rd ra rb fn => some (rWord 0x01 rd ra rb fn)
  | .addi _ rd ra imm => some (iWord 0x02 rd ra imm)
  | .andi _ rd ra imm => some (iWord 0x03 rd ra imm)
  | .ori _ rd ra imm => some (iWord 0x04 rd ra imm)
  | .xori _ rd ra imm => some (iWord 0x05 rd ra imm)
  | .shi _ rd ra imm => some (iWord 0x06 rd ra imm)
  | .slti _ rd ra imm => some (iWord 0x07 rd ra imm)
  | .lih _ rd ra imm => some (iWord 0x08 rd ra imm)
  | .addpc _ rd ra imm => some (iWord 0x09 rd ra imm)
  | .ld8s _ rd ra imm => some (iWord 0x10 rd ra imm)
  | .ld8u _ rd ra imm => some (iWord 0x11 rd ra imm)
  | .ld16s _ rd ra imm => some (iWord 0x12 rd ra imm)
  | .ld16u _ rd ra imm => some (iWord 0x13 rd ra imm)
  | .ld32s _ rd ra imm => some (iWord 0x14 rd ra imm)
  | .ld32u _ rd ra imm => some (iWord 0x15 rd ra imm)
  | .ld64 _ rd ra imm => some (iWord 0x16 rd ra imm)
  | .st8 _ rb ra imm => some (iWord 0x18 rb ra imm)
  | .st16 _ rb ra imm => some (iWord 0x19 rb ra imm)
  | .st32 _ rb ra imm => some (iWord 0x1a rb ra imm)
  | .st64 _ rb ra imm => some (iWord 0x1b rb ra imm)
  | .amo _ rd ra rb fn => some (rWord 0x1c rd ra rb fn)
  | .fence _ rd ra rb fn => some (rWord 0x1d rd ra rb fn)
  | .beq _ ra rb off => some (iWord 0x20 ra rb off)
  | .bne _ ra rb off => some (iWord 0x21 ra rb off)
  | .blt _ ra rb off => some (iWord 0x22 ra rb off)
  | .bge _ ra rb off => some (iWord 0x23 ra rb off)
  | .bltu _ ra rb off => some (iWord 0x24 ra rb off)
  | .bgeu _ ra rb off => some (iWord 0x25 ra rb off)
  | .jal _ rd off => some (jWord 0x26 rd off)
  | .jalr _ rd ra imm => some (iWord 0x27 rd ra imm)
  | .gets _ rd ra imm => some (iWord 0x28 rd ra imm)
  | .halt _ => some (iWord 0x29 0 0 0)
  | .spawn _ rd ra rb fn => some (rWord 0x2a rd ra rb fn)
  | .waitm _ rd ra rb fn => some (rWord 0x2b rd ra rb fn)
  | .tickw _ rd ra rb fn => some (rWord 0x2c rd ra rb fn)
  | .denq _ rd ra rb fn => some (rWord 0x2d rd ra rb fn)
  | .astep _ rd ra rb fn => some (rWord 0x2e rd ra rb fn)
  | .aclose _ rd ra rb fn => some (rWord 0x2f rd ra rb fn)
  | .vi _ vd va vb p fn => some (vWord 0x30 vd va vb p fn)
  | .vb _ vd va vb p fn => some (vWord 0x31 vd va vb p fn)
  | .vf _ vd va vb p fn => some (vWord 0x32 vd va vb p fn)
  | .vcmp _ vd va vb p fn => some (vWord 0x33 vd va vb p fn)
  | .vred _ vd va vb p fn => some (vWord 0x34 vd va vb p fn)
  | .vmov _ vd x lane fn => some (vxWord 0x35 vd x lane fn)
  | .vperm _ vd va vb p fn => some (vWord 0x36 vd va vb p fn)
  | .vcvt _ vd va vb p fn => some (vWord 0x37 vd va vb p fn)
  | .vld _ v ra off => some (vmWord 0x38 v ra off)
  | .vst _ v ra off => some (vmWord 0x39 v ra off)
  | .vnq _ vd va vb p fn => some (vWord 0x3a vd va vb p fn)
  | .vdq _ vd va vb p fn => some (vWord 0x3b vd va vb p fn)
  | .vu8 _ vd va vb p fn => some (vWord 0x3c vd va vb p fn)
  | .vsc _ vd va vb p fn => some (vWord 0x3d vd va vb p fn)
  | .vrand _ vd va vb p fn => some (vWord 0x3e vd va vb p fn)
  | _ => none

/-- R323: the instruction a thread's word is, none where the word is illegal: an op or fn the tables do not assign,
or a field a rule reserves that is not zero. -/
def decodeThread (h : Hart) (w : BitVec 32) : Option Instr :=
  let a : BitVec 5 := w.extractLsb' 6 5
  let b : BitVec 5 := w.extractLsb' 11 5
  let d : BitVec 5 := w.extractLsb' 16 5
  let imm : BitVec 16 := w.extractLsb' 16 16
  let fn : BitVec 11 := w.extractLsb' 21 11
  let vd : BitVec 4 := w.extractLsb' 6 4
  let va : BitVec 4 := w.extractLsb' 10 4
  let vb : BitVec 4 := w.extractLsb' 14 4
  let p : BitVec 3 := w.extractLsb' 18 3
  let x : BitVec 5 := w.extractLsb' 10 5
  match (w.extractLsb' 0 6).toNat with
  | 0x01 => if fn.toNat ≤ 20 then some (.alu h a b d fn) else none
  | 0x02 => some (.addi h a b imm)
  | 0x03 => some (.andi h a b imm)
  | 0x04 => some (.ori h a b imm)
  | 0x05 => some (.xori h a b imm)
  | 0x06 => if imm.toNat < 192 then some (.shi h a b imm) else none
  | 0x07 => some (.slti h a b imm)
  | 0x08 => if b.toNat < 4 then some (.lih h a b imm) else none
  | 0x09 => some (.addpc h a b imm)
  | 0x10 => some (.ld8s h a b imm)
  | 0x11 => some (.ld8u h a b imm)
  | 0x12 => some (.ld16s h a b imm)
  | 0x13 => some (.ld16u h a b imm)
  | 0x14 => some (.ld32s h a b imm)
  | 0x15 => some (.ld32u h a b imm)
  | 0x16 => some (.ld64 h a b imm)
  | 0x18 => some (.st8 h a b imm)
  | 0x19 => some (.st16 h a b imm)
  | 0x1a => some (.st32 h a b imm)
  | 0x1b => some (.st64 h a b imm)
  | 0x1c => if fn.toNat % 16 ≤ 9 ∧ fn.toNat < 128 then some (.amo h a b d fn) else none
  | 0x1d => if a = 0 ∧ b = 0 ∧ d = 0 ∧ fn.toNat < 16 then some (.fence h a b d fn) else none
  | 0x20 => some (.beq h a b imm)
  | 0x21 => some (.bne h a b imm)
  | 0x22 => some (.blt h a b imm)
  | 0x23 => some (.bge h a b imm)
  | 0x24 => some (.bltu h a b imm)
  | 0x25 => some (.bgeu h a b imm)
  | 0x26 => some (.jal h a (w.extractLsb' 11 21))
  | 0x27 => some (.jalr h a b imm)
  | 0x28 => if b = 0 ∧ imm.toNat ≤ 10 then some (.gets h a b imm) else none
  | 0x29 => if w.extractLsb' 6 26 = 0 then some (.halt h) else none
  | 0x2a => if fn = 0 then some (.spawn h a b d fn) else none
  | 0x2b => some (.waitm h a b d fn)
  | 0x2c => if b = 0 ∧ d = 0 ∧ fn.toNat ≤ 1 then some (.tickw h a b d fn) else none
  | 0x2d => if fn = 0 then some (.denq h a b d fn) else none
  | 0x2e => if fn.toNat < 128 then some (.astep h a b d fn) else none
  | 0x2f => if b = 0 ∧ d = 0 ∧ fn.toNat < 4 then some (.aclose h a b d fn) else none
  | 0x30 => if fn.toNat ≤ 14 then some (.vi h vd va vb p fn) else none
  | 0x31 => if fn.toNat ≤ 11 then some (.vb h vd va vb p fn) else none
  | 0x32 => if fn.toNat ≤ 7 then some (.vf h vd va vb p fn) else none
  | 0x33 => if fn.toNat < 8 ∧ vd.toNat < 8 then some (.vcmp h vd va vb p fn) else none
  | 0x34 => if fn.toNat ≤ 4 then some (.vred h vd va vb p fn) else none
  | 0x35 => if w.extractLsb' 18 3 = 0 ∧ fn.toNat ≤ 6 then some (.vmov h vd x (w.extractLsb' 15 3) fn) else none
  | 0x36 => if fn = 0 then some (.vperm h vd va vb p fn) else none
  | 0x37 => if fn.toNat ≤ 7 then some (.vcvt h vd va vb p fn) else none
  | 0x38 => some (.vld h vd x (w.extractLsb' 15 17))
  | 0x39 => some (.vst h vd x (w.extractLsb' 15 17))
  | 0x3a => if fn.toNat ≤ 5 then some (.vnq h vd va vb p fn) else none
  | 0x3b => if fn.toNat ≤ 5 then some (.vdq h vd va vb p fn) else none
  | 0x3c => if fn.toNat ≤ 1 then some (.vu8 h vd va vb p fn) else none
  | 0x3d => if fn.toNat ≤ 1 then some (.vsc h vd va vb p fn) else none
  | 0x3e => if va = 0 ∧ vb = 0 ∧ fn = 0 then some (.vrand h vd va vb p fn) else none
  | _ => none

end Sys2Proof
end

