-- ==== Sys2Proof/Config.lean ====
section
/-!
DEFINITION. Sys2Proof/Config.lean: what the device fixes and the spec does not give, and the values
the spec leaves open. Every constant here is opaque: no proof can see a value of it, so whatever is
proved holds for every value.
-/

namespace Sys2Proof.Config

/-- The free values (log entry 1): the n-th value the model takes where the spec states none. -/
opaque freeValue : Nat → BitVec 64

/-- Serial number of the device (SYS_SERIAL, reset per device). -/
opaque serial : BitVec 64

/-- State a generator takes at power-up `n` from the device identity and the Lantern RTC (R95). -/
opaque powerUpSeed : Nat → GenId → BitVec 64

/-- SHA3-256 of a byte string, 32 bytes (FIPS 202 is outside the spec's own text). -/
opaque sha3 : List Byte → List Byte

/-- The signature over a message verifies under a public key pair (R353). -/
opaque verifies : List Byte → List Byte → List Byte → Bool

/-- A signature the device makes with one of its keys over a message (0, 1: the identity keys of R501). -/
opaque signs : Nat → List Byte → List Byte

/-- The fields of the standard loop set that R243 leaves to the device: field `k` of loop `n`. -/
opaque stdField : Nat → Nat → BitVec 64

/-- The configuration store: the word it holds for a register at reset. -/
opaque storeWord : RegName → List Nat → BitVec 64

/-- A byte string is a well-formed public key pair (R508). -/
opaque keyPairGood : List Byte → Bool

/-- Soft values of a decode in the order of its soft buffer, from a descriptor and its LLRs (R393). -/
opaque softValues : List (BitVec 64) → List Int → List Int

/-- The bits a decode or an encode of a descriptor gives, packed, the first in bit 7 of byte 0 (R393 to
R395: TS 38.211 and TS 38.212 are outside the spec's own text). -/
opaque codedBits : List (BitVec 64) → List Int → List Byte

/-- Iterations code block `b` takes, before the limit of the descriptor (R393). -/
opaque blockIters : List (BitVec 64) → List Int → Nat → Nat

/-- The CRC of code block `b` passes. -/
opaque blockCrc : List (BitVec 64) → List Int → Nat → Bool

/-- The CRC of the transport block, or of UCI, passes. -/
opaque tbCrc : List (BitVec 64) → List Int → Bool

/-- Output voltage of power stage `k` in mV from the output of its housekeeping entry in 1/16 LSB: the sense
gains of the configuration store (R465). -/
opaque senseVolts : Nat → Int → Nat

/-- Current of rail-current channel `j` in mA from its output (R465). -/
opaque senseAmps : Nat → Int → Nat

/-- Channel minimum of rail-current channel `j` in 1/16 LSB (R470). -/
opaque senseMin : Nat → Int

/-- Input voltage in 10 mV and input current in mA from their outputs (R465). -/
opaque senseInVolts : Int → Nat
opaque senseInAmps : Int → Nat

/-- Temperature of the coolant thermistor in 1/64 °C from its output (R465, R471). -/
opaque thermistor : Int → Int

/-- The MP firmware image a slot holds on delivery, none where it holds none (R503). -/
opaque firmware : Nat → Option (List Byte)

/-- Brixmond's firmware key pair in the boot ROM: Ed25519, then ML-DSA-65 (R503). -/
opaque firmwareKeys : List Byte

/-- The device certificate of the configuration store (R501). -/
opaque certificate : List Byte

/-- The identity keys were reconstructed and match the certificate (R502). -/
opaque identityOk : Bool

/-- The Cairn: the checksum fixed at verification (R494), the ordering code (R498), its key pairs (Ed25519 then
ML-DSA-65) of R489, and its signatures over a message. -/
opaque cairnSum : List Byte
opaque cairnCertified : Bool
opaque cairnKeys : List Byte
opaque cairnSigns : Nat → List Byte → List Byte

/-- The code of a monitor ADC's reference at a gain, in 1/16 LSB (R292). -/
opaque adcReference : Nat → Int

/-- The least-squares fit of R282 to a repeat, from the powers of its live point in code squared and δ; the spec gives
the model and not the method (log entry 17). -/
opaque cellFit : CellMeas → Nat → Nat → Nat → CellFit

/-- The gain code a receiver takes from its code and the sum of the two gain ratios in 2^-16 (R284). -/
opaque rxGainCode : Nat → Nat → Int

/-- The quadrature setpoint, in 2^16 code squared, from the last one and the sum of the two quadrature errors
in 2^-16 of full scale (R284). -/
opaque rxQuad : Nat → Int → Nat

/-- The target of an LO loop from the last one and the sum of the two mean phase errors in 360/65,536 of a
degree: the conversion gain of the first pass (R288). -/
opaque loTarget : Int → Int → Int

end Sys2Proof.Config
end

