-- ==== Sys2Proof/Machine/Fields.lean ====
section
/-!
DEFINITION. Sys2Proof/Machine/Fields.lean: the fields of the registers, one definition each, named
register_field, with the word of the register and the bits [hi:lo] that the register tables of
spec/ (files 02 and 04 to 18) give it.
-/

namespace Sys2Proof

/-- A field of a register: bits [hi:lo] of word `w` (R4). -/
structure Fld where
  name : RegName
  hi   : Nat
  lo   : Nat
  w    : Nat := 0
deriving DecidableEq, Repr

def Fld.budFrameCfg_tickSource : Fld := { name := .budFrameCfg, hi := 8, lo := 8 }
def Fld.budFrameCfg_frameLen : Fld := { name := .budFrameCfg, hi := 5, lo := 0 }
def Fld.budFrameCount_frameCount : Fld := { name := .budFrameCount, hi := 31, lo := 0 }
def Fld.budCap_cap : Fld := { name := .budCap, hi := 19, lo := 0 }
def Fld.budPitch_pitch : Fld := { name := .budPitch, hi := 19, lo := 0 }
def Fld.budUsed_waiting : Fld := { name := .budUsed, hi := 31, lo := 31 }
def Fld.budUsed_used : Fld := { name := .budUsed, hi := 19, lo := 0 }
def Fld.budWaitLimit_waitFrames : Fld := { name := .budWaitLimit, hi := 7, lo := 0 }
def Fld.budCredBudget_budget : Fld := { name := .budCredBudget, hi := 10, lo := 0 }
def Fld.budCredGranted_granted : Fld := { name := .budCredGranted, hi := 10, lo := 0 }
def Fld.budGroupCfg_ramp : Fld := { name := .budGroupCfg, hi := 30, lo := 24 }
def Fld.budGroupCfg_ceiling : Fld := { name := .budGroupCfg, hi := 21, lo := 11 }
def Fld.budGroupCfg_floor : Fld := { name := .budGroupCfg, hi := 10, lo := 0 }
def Fld.budGroupState_effCeiling : Fld := { name := .budGroupState, hi := 21, lo := 11 }
def Fld.budGroupState_granted : Fld := { name := .budGroupState, hi := 10, lo := 0 }
def Fld.daleId_index : Fld := { name := .daleId, hi := 23, lo := 16 }
def Fld.daleId_vale : Fld := { name := .daleId, hi := 11, lo := 8 }
def Fld.daleId_dale : Fld := { name := .daleId, hi := 3, lo := 0 }
def Fld.daleCtl_lockWait : Fld := { name := .daleCtl, hi := 25, lo := 16 }
def Fld.daleCtl_owner : Fld := { name := .daleCtl, hi := 5, lo := 0 }
def Fld.daleState_lockGood : Fld := { name := .daleState, hi := 31, lo := 31 }
def Fld.daleState_dir : Fld := { name := .daleState, hi := 30, lo := 30 }
def Fld.daleState_wmode : Fld := { name := .daleState, hi := 29, lo := 28 }
def Fld.daleState_state : Fld := { name := .daleState, hi := 27, lo := 24 }
def Fld.daleState_bank : Fld := { name := .daleState, hi := 23, lo := 20 }
def Fld.daleTile_epoch : Fld := { name := .daleTile, hi := 31, lo := 16 }
def Fld.daleTile_tile : Fld := { name := .daleTile, hi := 15, lo := 0 }
def Fld.daleColmap_parkCol : Fld := { name := .daleColmap, hi := 14, lo := 8 }
def Fld.daleColmap_calCol : Fld := { name := .daleColmap, hi := 6, lo := 0 }
def Fld.daleRowmap_skipB : Fld := { name := .daleRowmap, hi := 14, lo := 8 }
def Fld.daleRowmap_skipA : Fld := { name := .daleRowmap, hi := 6, lo := 0 }
def Fld.daleQueue_depth : Fld := { name := .daleQueue, hi := 20, lo := 16 }
def Fld.daleQueue_done : Fld := { name := .daleQueue, hi := 15, lo := 0 }
def Fld.daleSide_ready : Fld := { name := .daleSide, hi := 31, lo := 16 }
def Fld.daleSide_add : Fld := { name := .daleSide, hi := 15, lo := 0 }
def Fld.daleRange_k : Fld := { name := .daleRange, hi := 19, lo := 16 }
def Fld.daleRange_g : Fld := { name := .daleRange, hi := 15, lo := 0 }
def Fld.daleLastTag_tag : Fld := { name := .daleLastTag, hi := 31, lo := 0 }
def Fld.daleTagRows_dark : Fld := { name := .daleTagRows, hi := 22, lo := 16 }
def Fld.daleTagRows_differ : Fld := { name := .daleTagRows, hi := 6, lo := 0 }
def Fld.daleSymbols_units : Fld := { name := .daleSymbols, hi := 31, lo := 0 }
def Fld.daleReloads_reloads : Fld := { name := .daleReloads, hi := 31, lo := 0 }
def Fld.valeId_comb : Fld := { name := .valeId, hi := 8, lo := 8 }
def Fld.valeId_vale : Fld := { name := .valeId, hi := 3, lo := 0 }
def Fld.valeBank_owner : Fld := { name := .valeBank, hi := 29, lo := 24 }
def Fld.valeBank_port : Fld := { name := .valeBank, hi := 19, lo := 16 }
def Fld.valeBank_line : Fld := { name := .valeBank, hi := 11, lo := 8 }
def Fld.valeBank_state : Fld := { name := .valeBank, hi := 6, lo := 4 }
def Fld.valeBank_lockGood : Fld := { name := .valeBank, hi := 0, lo := 0 }
def Fld.veldId_veld : Fld := { name := .veldId, hi := 5, lo := 0 }
def Fld.veldCfg_checkThr : Fld := { name := .veldCfg, hi := 27, lo := 16 }
def Fld.veldCfg_driftThr : Fld := { name := .veldCfg, hi := 15, lo := 8 }
def Fld.veldCfg_wwinWait : Fld := { name := .veldCfg, hi := 7, lo := 4 }
def Fld.veldCfg_checkEn : Fld := { name := .veldCfg, hi := 1, lo := 1 }
def Fld.veldCfg_wwinEn : Fld := { name := .veldCfg, hi := 0, lo := 0 }
def Fld.veldState_refreshSite : Fld := { name := .veldState, hi := 31, lo := 22 }
def Fld.veldState_checkSite : Fld := { name := .veldState, hi := 21, lo := 12 }
def Fld.veldState_retired : Fld := { name := .veldState, hi := 11, lo := 6 }
def Fld.veldState_sparesFree : Fld := { name := .veldState, hi := 5, lo := 0 }
def Fld.veldProg_progSites : Fld := { name := .veldProg, hi := 12, lo := 8 }
def Fld.veldProg_queued : Fld := { name := .veldProg, hi := 4, lo := 0 }
def Fld.veldImgBase_valid : Fld := { name := .veldImgBase, hi := 31, lo := 31 }
def Fld.veldImgBase_base : Fld := { name := .veldImgBase, hi := 22, lo := 0 }
def Fld.veldLmap_valid : Fld := { name := .veldLmap, hi := 31, lo := 31 }
def Fld.veldLmap_owner : Fld := { name := .veldLmap, hi := 29, lo := 24 }
def Fld.veldLmap_phys : Fld := { name := .veldLmap, hi := 9, lo := 0 }
def Fld.siteId_logical : Fld := { name := .siteId, hi := 30, lo := 16 }
def Fld.siteId_veld : Fld := { name := .siteId, hi := 15, lo := 10 }
def Fld.siteId_phys : Fld := { name := .siteId, hi := 9, lo := 0 }
def Fld.siteAstate_wwflag : Fld := { name := .siteAstate, hi := 31, lo := 31 }
def Fld.siteAstate_owner : Fld := { name := .siteAstate, hi := 29, lo := 24 }
def Fld.siteAstate_epoch : Fld := { name := .siteAstate, hi := 23, lo := 8 }
def Fld.siteAstate_state : Fld := { name := .siteAstate, hi := 3, lo := 0 }
def Fld.siteWrites_writes : Fld := { name := .siteWrites, hi := 31, lo := 0 }
def Fld.siteGain_gam0 : Fld := { name := .siteGain, hi := 31, lo := 16 }
def Fld.siteGain_gam : Fld := { name := .siteGain, hi := 15, lo := 0 }
def Fld.siteDrift_rejects : Fld := { name := .siteDrift, hi := 31, lo := 16 }
def Fld.siteDrift_drift : Fld := { name := .siteDrift, hi := 15, lo := 0 }
def Fld.siteCheck_stuck : Fld := { name := .siteCheck, hi := 27, lo := 16 }
def Fld.siteCheck_outTol : Fld := { name := .siteCheck, hi := 11, lo := 0 }
def Fld.siteRepair_adcSpare : Fld := { name := .siteRepair, hi := 31, lo := 31 }
def Fld.siteRepair_failedAdc : Fld := { name := .siteRepair, hi := 28, lo := 24 }
def Fld.siteRepair_rowsUsed : Fld := { name := .siteRepair, hi := 11, lo := 8 }
def Fld.siteRepair_colsUsed : Fld := { name := .siteRepair, hi := 3, lo := 0 }
def Fld.siteRowmap_valid : Fld := { name := .siteRowmap, hi := 31, lo := 31 }
def Fld.siteRowmap_failed : Fld := { name := .siteRowmap, hi := 9, lo := 0 }
def Fld.siteColmap_valid : Fld := { name := .siteColmap, hi := 31, lo := 31 }
def Fld.siteColmap_failed : Fld := { name := .siteColmap, hi := 9, lo := 0 }
def Fld.siteRange_k : Fld := { name := .siteRange, hi := 19, lo := 16 }
def Fld.siteRange_g : Fld := { name := .siteRange, hi := 15, lo := 0 }
def Fld.siteActxCfg_omaskEn : Fld := { name := .siteActxCfg, hi := 19, lo := 19 }
def Fld.siteActxCfg_sideWait : Fld := { name := .siteActxCfg, hi := 18, lo := 18 }
def Fld.siteActxCfg_inKind : Fld := { name := .siteActxCfg, hi := 17, lo := 16 }
def Fld.siteActxCfg_rot : Fld := { name := .siteActxCfg, hi := 15, lo := 15 }
def Fld.siteActxCfg_headroom : Fld := { name := .siteActxCfg, hi := 14, lo := 12 }
def Fld.siteActxCfg_hist : Fld := { name := .siteActxCfg, hi := 11, lo := 8 }
def Fld.siteActxCfg_rep : Fld := { name := .siteActxCfg, hi := 7, lo := 6 }
def Fld.siteActxCfg_outFmt : Fld := { name := .siteActxCfg, hi := 5, lo := 3 }
def Fld.siteActxCfg_inFmt : Fld := { name := .siteActxCfg, hi := 2, lo := 0 }
def Fld.siteActxTable_offset : Fld := { name := .siteActxTable, hi := 14, lo := 0 }
def Fld.siteActxStat_offset : Fld := { name := .siteActxStat, hi := 14, lo := 0 }
def Fld.siteActxRseedLo_seed : Fld := { name := .siteActxRseedLo, hi := 31, lo := 0 }
def Fld.siteActxRseedHi_seed : Fld := { name := .siteActxRseedHi, hi := 31, lo := 0 }
def Fld.convRot_dir : Fld := { name := .convRot, hi := 8, lo := 8 }
def Fld.convRot_calAdc : Fld := { name := .convRot, hi := 6, lo := 0 }
def Fld.convTrig_en : Fld := { name := .convTrig, hi := 31, lo := 31 }
def Fld.convTrig_phase : Fld := { name := .convTrig, hi := 26, lo := 16 }
def Fld.convTrig_div : Fld := { name := .convTrig, hi := 10, lo := 0 }
def Fld.convCtl_go : Fld := { name := .convCtl, hi := 31, lo := 31 }
def Fld.convCtl_halt : Fld := { name := .convCtl, hi := 30, lo := 30 }
def Fld.convCtl_active : Fld := { name := .convCtl, hi := 29, lo := 29 }
def Fld.convCtl_busy : Fld := { name := .convCtl, hi := 28, lo := 28 }
def Fld.convCtl_start : Fld := { name := .convCtl, hi := 27, lo := 22 }
def Fld.convCtl_cur : Fld := { name := .convCtl, hi := 21, lo := 16 }
def Fld.convCtl_injPend : Fld := { name := .convCtl, hi := 11, lo := 8 }
def Fld.convCtl_calWait : Fld := { name := .convCtl, hi := 0, lo := 0 }
def Fld.convDisc_disc : Fld := { name := .convDisc, hi := 31, lo := 0 }
def Fld.convTrkClr_clr : Fld := { name := .convTrkClr, hi := 63, lo := 0 }
def Fld.convInj_request : Fld := { name := .convInj, hi := 63, lo := 0 }
def Fld.convInjAcc_ovrCount : Fld := { name := .convInjAcc, hi := 63, lo := 48 }
def Fld.convInjAcc_seq : Fld := { name := .convInjAcc, hi := 47, lo := 32 }
def Fld.convInjAcc_valid : Fld := { name := .convInjAcc, hi := 25, lo := 25 }
def Fld.convInjAcc_ovr : Fld := { name := .convInjAcc, hi := 24, lo := 24 }
def Fld.convInjAcc_value : Fld := { name := .convInjAcc, hi := 23, lo := 0 }
def Fld.convAcc_ovrCount : Fld := { name := .convAcc, hi := 63, lo := 48 }
def Fld.convAcc_seq : Fld := { name := .convAcc, hi := 47, lo := 32 }
def Fld.convAcc_valid : Fld := { name := .convAcc, hi := 25, lo := 25 }
def Fld.convAcc_ovr : Fld := { name := .convAcc, hi := 24, lo := 24 }
def Fld.convAcc_value : Fld := { name := .convAcc, hi := 23, lo := 0 }
def Fld.convSeq_next : Fld := { name := .convSeq, hi := 39, lo := 32 }
def Fld.convSeq_valid : Fld := { name := .convSeq, hi := 31, lo := 31 }
def Fld.convSeq_stop : Fld := { name := .convSeq, hi := 30, lo := 30 }
def Fld.convSeq_conv : Fld := { name := .convSeq, hi := 27, lo := 26 }
def Fld.convSeq_tone : Fld := { name := .convSeq, hi := 25, lo := 22 }
def Fld.convSeq_demod : Fld := { name := .convSeq, hi := 21, lo := 20 }
def Fld.convSeq_trig : Fld := { name := .convSeq, hi := 18, lo := 16 }
def Fld.convSeq_avg : Fld := { name := .convSeq, hi := 15, lo := 12 }
def Fld.convSeq_delay : Fld := { name := .convSeq, hi := 11, lo := 8 }
def Fld.convSeq_gain : Fld := { name := .convSeq, hi := 7, lo := 6 }
def Fld.convSeq_input : Fld := { name := .convSeq, hi := 5, lo := 0 }
def Fld.convTrk_max : Fld := { name := .convTrk, hi := 55, lo := 32 }
def Fld.convTrk_min : Fld := { name := .convTrk, hi := 23, lo := 0 }
def Fld.drvDaleCfg_slewStep : Fld := { name := .drvDaleCfg, hi := 23, lo := 16 }
def Fld.drvDaleCfg_xtEn : Fld := { name := .drvDaleCfg, hi := 1, lo := 1 }
def Fld.drvDaleCfg_slewEn : Fld := { name := .drvDaleCfg, hi := 0, lo := 0 }
def Fld.drvDaleState_clamp : Fld := { name := .drvDaleState, hi := 31, lo := 31 }
def Fld.drvDaleState_staged : Fld := { name := .drvDaleState, hi := 30, lo := 30 }
def Fld.drvDaleState_ramping : Fld := { name := .drvDaleState, hi := 29, lo := 29 }
def Fld.drvDaleState_colStrobes : Fld := { name := .drvDaleState, hi := 15, lo := 0 }
def Fld.drvPair_link : Fld := { name := .drvPair, hi := 5, lo := 0 }
def Fld.drvToneFcw_fcw : Fld := { name := .drvToneFcw, hi := 31, lo := 0 }
def Fld.drvToneCtl_en : Fld := { name := .drvToneCtl, hi := 31, lo := 31 }
def Fld.drvToneCtl_amp : Fld := { name := .drvToneCtl, hi := 11, lo := 0 }
def Fld.drvBank_dark : Fld := { name := .drvBank, hi := 31, lo := 31 }
def Fld.drvBank_bias : Fld := { name := .drvBank, hi := 15, lo := 8 }
def Fld.drvBank_swing : Fld := { name := .drvBank, hi := 7, lo := 0 }
def Fld.drvXt_coef : Fld := { name := .drvXt, hi := 15, lo := 0 }
def Fld.drvCh_clamp : Fld := { name := .drvCh, hi := 31, lo := 31 }
def Fld.drvCh_assigned : Fld := { name := .drvCh, hi := 30, lo := 30 }
def Fld.drvCh_toneEn : Fld := { name := .drvCh, hi := 29, lo := 29 }
def Fld.drvCh_tone : Fld := { name := .drvCh, hi := 28, lo := 25 }
def Fld.drvCh_range : Fld := { name := .drvCh, hi := 24, lo := 24 }
def Fld.drvCh_slew : Fld := { name := .drvCh, hi := 23, lo := 16 }
def Fld.drvCh_code : Fld := { name := .drvCh, hi := 13, lo := 0 }
def Fld.drvUnitsel_ex3 : Fld := { name := .drvUnitsel, hi := 27, lo := 21 }
def Fld.drvUnitsel_ex2 : Fld := { name := .drvUnitsel, hi := 20, lo := 14 }
def Fld.drvUnitsel_ex1 : Fld := { name := .drvUnitsel, hi := 13, lo := 7 }
def Fld.drvUnitsel_ex0 : Fld := { name := .drvUnitsel, hi := 6, lo := 0 }
def Fld.guyCfg_ffEn : Fld := { name := .guyCfg, hi := 31, lo := 31 }
def Fld.guyCfg_markerTone : Fld := { name := .guyCfg, hi := 19, lo := 16 }
def Fld.guyLoad_load : Fld := { name := .guyLoad, hi := 10, lo := 0 }
def Fld.guySeedLo_seed : Fld := { name := .guySeedLo, hi := 31, lo := 0 }
def Fld.guySeedHi_seed : Fld := { name := .guySeedHi, hi := 31, lo := 0 }
def Fld.guyGood_daleGood : Fld := { name := .guyGood, hi := 31, lo := 20 }
def Fld.guyGood_colGood : Fld := { name := .guyGood, hi := 19, lo := 19 }
def Fld.guyGood_bankGood : Fld := { name := .guyGood, hi := 15, lo := 0 }
def Fld.guyLoGood_calLoGood : Fld := { name := .guyLoGood, hi := 12, lo := 12 }
def Fld.guyLoGood_loGood : Fld := { name := .guyLoGood, hi := 11, lo := 0 }
def Fld.guyLastFall_cause : Fld := { name := .guyLastFall, hi := 31, lo := 28 }
def Fld.guyLastFall_loop : Fld := { name := .guyLastFall, hi := 10, lo := 0 }
def Fld.guyTestCtl_go : Fld := { name := .guyTestCtl, hi := 31, lo := 31 }
def Fld.guyTestCtl_stop : Fld := { name := .guyTestCtl, hi := 30, lo := 30 }
def Fld.guyTestCtl_active : Fld := { name := .guyTestCtl, hi := 29, lo := 29 }
def Fld.guyTestCtl_sig : Fld := { name := .guyTestCtl, hi := 25, lo := 24 }
def Fld.guyTestCtl_point : Fld := { name := .guyTestCtl, hi := 23, lo := 23 }
def Fld.guyTestCtl_loop : Fld := { name := .guyTestCtl, hi := 10, lo := 0 }
def Fld.guyTestAmp_shift : Fld := { name := .guyTestAmp, hi := 28, lo := 24 }
def Fld.guyTestAmp_amp : Fld := { name := .guyTestAmp, hi := 23, lo := 0 }
def Fld.guyTestFreq_fStop : Fld := { name := .guyTestFreq, hi := 47, lo := 24 }
def Fld.guyTestFreq_fStart : Fld := { name := .guyTestFreq, hi := 23, lo := 0 }
def Fld.guyTestDwell_steps : Fld := { name := .guyTestDwell, hi := 31, lo := 16 }
def Fld.guyTestDwell_dwell : Fld := { name := .guyTestDwell, hi := 15, lo := 0 }
def Fld.guyCapBase_base : Fld := { name := .guyCapBase, hi := 31, lo := 0 }
def Fld.guyCapCtl_go : Fld := { name := .guyCapCtl, hi := 63, lo := 63 }
def Fld.guyCapCtl_stop : Fld := { name := .guyCapCtl, hi := 62, lo := 62 }
def Fld.guyCapCtl_mode : Fld := { name := .guyCapCtl, hi := 61, lo := 61 }
def Fld.guyCapCtl_post : Fld := { name := .guyCapCtl, hi := 60, lo := 44 }
def Fld.guyCapCtl_loop3 : Fld := { name := .guyCapCtl, hi := 43, lo := 33 }
def Fld.guyCapCtl_loop2 : Fld := { name := .guyCapCtl, hi := 32, lo := 22 }
def Fld.guyCapCtl_loop1 : Fld := { name := .guyCapCtl, hi := 21, lo := 11 }
def Fld.guyCapCtl_loop0 : Fld := { name := .guyCapCtl, hi := 10, lo := 0 }
def Fld.guyCapState_active : Fld := { name := .guyCapState, hi := 31, lo := 31 }
def Fld.guyCapState_triggered : Fld := { name := .guyCapState, hi := 30, lo := 30 }
def Fld.guyCapState_wrapped : Fld := { name := .guyCapState, hi := 29, lo := 29 }
def Fld.guyCapState_next : Fld := { name := .guyCapState, hi := 16, lo := 0 }
def Fld.guyLine_valid : Fld := { name := .guyLine, hi := 63, lo := 63 }
def Fld.guyLine_p1 : Fld := { name := .guyLine, hi := 55, lo := 28 }
def Fld.guyLine_p0 : Fld := { name := .guyLine, hi := 27, lo := 0 }
def Fld.guyLstate_err : Fld := { name := .guyLstate, hi := 47, lo := 24 }
def Fld.guyLstate_acqFails : Fld := { name := .guyLstate, hi := 23, lo := 16 }
def Fld.guyLstate_stale : Fld := { name := .guyLstate, hi := 15, lo := 12 }
def Fld.guyLstate_wrongFlank : Fld := { name := .guyLstate, hi := 11, lo := 11 }
def Fld.guyLstate_sat : Fld := { name := .guyLstate, hi := 10, lo := 9 }
def Fld.guyLstate_lockGood : Fld := { name := .guyLstate, hi := 8, lo := 8 }
def Fld.guyLstate_state : Fld := { name := .guyLstate, hi := 3, lo := 0 }
def Fld.guyLstate_code : Fld := { name := .guyLstate, hi := 45, lo := 32, w := 1 }
def Fld.guyLstate_p : Fld := { name := .guyLstate, hi := 27, lo := 0, w := 1 }
def Fld.guyLstate_ff : Fld := { name := .guyLstate, hi := 63, lo := 32, w := 2 }
def Fld.guyLstate_iExp : Fld := { name := .guyLstate, hi := 23, lo := 18, w := 2 }
def Fld.guyLstate_iMant : Fld := { name := .guyLstate, hi := 17, lo := 0, w := 2 }
def Fld.guyLstate_ticks : Fld := { name := .guyLstate, hi := 63, lo := 32, w := 3 }
def Fld.guyLstate_falls : Fld := { name := .guyLstate, hi := 31, lo := 16, w := 3 }
def Fld.calCfg_phTol : Fld := { name := .calCfg, hi := 31, lo := 24 }
def Fld.calCfg_ampTol : Fld := { name := .calCfg, hi := 23, lo := 16 }
def Fld.calCfg_dwell : Fld := { name := .calCfg, hi := 15, lo := 4 }
def Fld.calCfg_adcEn : Fld := { name := .calCfg, hi := 2, lo := 2 }
def Fld.calCfg_selEn : Fld := { name := .calCfg, hi := 1, lo := 1 }
def Fld.calCfg_rotEn : Fld := { name := .calCfg, hi := 0, lo := 0 }
def Fld.calProbe_delta : Fld := { name := .calProbe, hi := 27, lo := 0 }
def Fld.calAdcCfg_adcDwell : Fld := { name := .calAdcCfg, hi := 15, lo := 0 }
def Fld.calState_phase : Fld := { name := .calState, hi := 31, lo := 28 }
def Fld.calState_failed : Fld := { name := .calState, hi := 27, lo := 16 }
def Fld.calState_selBank : Fld := { name := .calState, hi := 15, lo := 11 }
def Fld.calState_adcFault : Fld := { name := .calState, hi := 10, lo := 10 }
def Fld.calDaleCount_count : Fld := { name := .calDaleCount, hi := 31, lo := 0 }
def Fld.calSelCount_count : Fld := { name := .calSelCount, hi := 31, lo := 0 }
def Fld.calAdcCount_count : Fld := { name := .calAdcCount, hi := 31, lo := 0 }
def Fld.siteCalCount_count : Fld := { name := .siteCalCount, hi := 31, lo := 0 }
def Fld.calDaleTime_sec : Fld := { name := .calDaleTime, hi := 62, lo := 15 }
def Fld.calDaleTime_sub : Fld := { name := .calDaleTime, hi := 14, lo := 0 }
def Fld.calSelTime_sec : Fld := { name := .calSelTime, hi := 62, lo := 15 }
def Fld.calSelTime_sub : Fld := { name := .calSelTime, hi := 14, lo := 0 }
def Fld.calAdcTime_sec : Fld := { name := .calAdcTime, hi := 62, lo := 15 }
def Fld.calAdcTime_sub : Fld := { name := .calAdcTime, hi := 14, lo := 0 }
def Fld.siteCalTime_sec : Fld := { name := .siteCalTime, hi := 62, lo := 15 }
def Fld.siteCalTime_sub : Fld := { name := .siteCalTime, hi := 14, lo := 0 }
def Fld.calMonTrim_gain : Fld := { name := .calMonTrim, hi := 31, lo := 16 }
def Fld.calMonTrim_offset : Fld := { name := .calMonTrim, hi := 15, lo := 0 }
def Fld.calRx_spareIn : Fld := { name := .calRx, hi := 63, lo := 63 }
def Fld.calRx_spareFor : Fld := { name := .calRx, hi := 62, lo := 62 }
def Fld.calRx_phase : Fld := { name := .calRx, hi := 57, lo := 48 }
def Fld.calRx_quad : Fld := { name := .calRx, hi := 39, lo := 28 }
def Fld.calRx_gainC : Fld := { name := .calRx, hi := 23, lo := 12 }
def Fld.calRx_gainR : Fld := { name := .calRx, hi := 11, lo := 0 }
def Fld.calColstat_run : Fld := { name := .calColstat, hi := 31, lo := 24 }
def Fld.calColstat_cells : Fld := { name := .calColstat, hi := 23, lo := 16 }
def Fld.calColstat_result : Fld := { name := .calColstat, hi := 7, lo := 0 }
def Fld.calCmpsel_ex3 : Fld := { name := .calCmpsel, hi := 27, lo := 21 }
def Fld.calCmpsel_ex2 : Fld := { name := .calCmpsel, hi := 20, lo := 14 }
def Fld.calCmpsel_ex1 : Fld := { name := .calCmpsel, hi := 13, lo := 7 }
def Fld.calCmpsel_ex0 : Fld := { name := .calCmpsel, hi := 6, lo := 0 }
def Fld.calMap_range : Fld := { name := .calMap, hi := 31, lo := 31 }
def Fld.calMap_value : Fld := { name := .calMap, hi := 27, lo := 0 }
def Fld.siteCoreState_fault : Fld := { name := .siteCoreState, hi := 31, lo := 24 }
def Fld.siteCoreState_wait : Fld := { name := .siteCoreState, hi := 23, lo := 16 }
def Fld.siteCoreState_stall : Fld := { name := .siteCoreState, hi := 15, lo := 8 }
def Fld.siteCoreState_ready : Fld := { name := .siteCoreState, hi := 7, lo := 0 }
def Fld.siteThreadCtl_stop : Fld := { name := .siteThreadCtl, hi := 31, lo := 31 }
def Fld.siteThreadCtl_state : Fld := { name := .siteThreadCtl, hi := 2, lo := 0 }
def Fld.siteThreadPc_pc : Fld := { name := .siteThreadPc, hi := 47, lo := 0 }
def Fld.siteTfault_cause : Fld := { name := .siteTfault, hi := 63, lo := 56 }
def Fld.siteTfault_pc : Fld := { name := .siteTfault, hi := 47, lo := 0 }
def Fld.siteTfault_addr : Fld := { name := .siteTfault, hi := 47, lo := 0, w := 1 }
def Fld.siteSpawnq_depth : Fld := { name := .siteSpawnq, hi := 3, lo := 0 }
def Fld.siteInstr_retired : Fld := { name := .siteInstr, hi := 63, lo := 0 }
def Fld.siteCoreRseedLo_seed : Fld := { name := .siteCoreRseedLo, hi := 31, lo := 0 }
def Fld.siteCoreRseedHi_seed : Fld := { name := .siteCoreRseedHi, hi := 31, lo := 0 }
def Fld.tentCtl_open : Fld := { name := .tentCtl, hi := 31, lo := 31 }
def Fld.tentCtl_quiesce : Fld := { name := .tentCtl, hi := 30, lo := 30 }
def Fld.tentCtl_close : Fld := { name := .tentCtl, hi := 29, lo := 29 }
def Fld.tentCtl_priv : Fld := { name := .tentCtl, hi := 8, lo := 8 }
def Fld.tentCtl_state : Fld := { name := .tentCtl, hi := 1, lo := 0 }
def Fld.tentSites_count : Fld := { name := .tentSites, hi := 14, lo := 0 }
def Fld.tentDale_pending : Fld := { name := .tentDale, hi := 31, lo := 31 }
def Fld.tentDale_owner : Fld := { name := .tentDale, hi := 5, lo := 0 }
def Fld.tentSite_pending : Fld := { name := .tentSite, hi := 31, lo := 31 }
def Fld.tentSite_owner : Fld := { name := .tentSite, hi := 29, lo := 24 }
def Fld.tentSite_rank : Fld := { name := .tentSite, hi := 14, lo := 0 }
def Fld.wsetCfg_retries : Fld := { name := .wsetCfg, hi := 19, lo := 16 }
def Fld.wsetCfg_bcastWait : Fld := { name := .wsetCfg, hi := 15, lo := 8 }
def Fld.wsetCfg_shardTo : Fld := { name := .wsetCfg, hi := 7, lo := 0 }
def Fld.wsetActive_slot : Fld := { name := .wsetActive, hi := 1, lo := 0 }
def Fld.wsetMinser_serial : Fld := { name := .wsetMinser, hi := 63, lo := 0 }
def Fld.wsetSlot_epoch : Fld := { name := .wsetSlot, hi := 63, lo := 32 }
def Fld.wsetSlot_status : Fld := { name := .wsetSlot, hi := 23, lo := 16 }
def Fld.wsetSlot_releasePend : Fld := { name := .wsetSlot, hi := 7, lo := 7 }
def Fld.wsetSlot_inUse : Fld := { name := .wsetSlot, hi := 6, lo := 6 }
def Fld.wsetSlot_state : Fld := { name := .wsetSlot, hi := 2, lo := 0 }
def Fld.wsetSlot_shardsDone : Fld := { name := .wsetSlot, hi := 63, lo := 32, w := 1 }
def Fld.wsetSlot_shardsTotal : Fld := { name := .wsetSlot, hi := 31, lo := 0, w := 1 }
def Fld.wsetSlot_nonfinite : Fld := { name := .wsetSlot, hi := 63, lo := 32, w := 2 }
def Fld.wsetSlot_sat : Fld := { name := .wsetSlot, hi := 31, lo := 0, w := 2 }
def Fld.wsetSlot_failShard : Fld := { name := .wsetSlot, hi := 47, lo := 32, w := 3 }
def Fld.wsetSlot_attempts : Fld := { name := .wsetSlot, hi := 7, lo := 0, w := 3 }
def Fld.wsetKey_installed : Fld := { name := .wsetKey, hi := 63, lo := 63 }
def Fld.fhCfg_lossTo : Fld := { name := .fhCfg, hi := 27, lo := 24 }
def Fld.fhCfg_domain : Fld := { name := .fhCfg, hi := 22, lo := 16 }
def Fld.fhCfg_ptpPort : Fld := { name := .fhCfg, hi := 10, lo := 8 }
def Fld.fhCfg_tsrc : Fld := { name := .fhCfg, hi := 5, lo := 4 }
def Fld.fhCfg_numerology : Fld := { name := .fhCfg, hi := 2, lo := 0 }
def Fld.fhSync_te : Fld := { name := .fhSync, hi := 31, lo := 16 }
def Fld.fhSync_ssm : Fld := { name := .fhSync, hi := 3, lo := 0 }
def Fld.fhState_state : Fld := { name := .fhState, hi := 1, lo := 0 }
def Fld.fhOffset_offset : Fld := { name := .fhOffset, hi := 31, lo := 0 }
def Fld.fhSfn_sfn : Fld := { name := .fhSfn, hi := 25, lo := 16 }
def Fld.fhSfn_slot : Fld := { name := .fhSfn, hi := 7, lo := 0 }
def Fld.fhWin_rxMax : Fld := { name := .fhWin, hi := 39, lo := 30 }
def Fld.fhWin_upAdv : Fld := { name := .fhWin, hi := 29, lo := 20 }
def Fld.fhWin_cpAdvUl : Fld := { name := .fhWin, hi := 19, lo := 10 }
def Fld.fhWin_cpAdvDl : Fld := { name := .fhWin, hi := 9, lo := 0 }
def Fld.fhSfnSet_sfn : Fld := { name := .fhSfnSet, hi := 9, lo := 0 }
def Fld.fhPortMac_en : Fld := { name := .fhPortMac, hi := 63, lo := 63 }
def Fld.fhPortMac_mac : Fld := { name := .fhPortMac, hi := 47, lo := 0 }
def Fld.fhPortPeer_en : Fld := { name := .fhPortPeer, hi := 63, lo := 63 }
def Fld.fhPortPeer_mac : Fld := { name := .fhPortPeer, hi := 47, lo := 0 }
def Fld.fhPortStat_dropped : Fld := { name := .fhPortStat, hi := 63, lo := 32 }
def Fld.fhPortStat_late : Fld := { name := .fhPortStat, hi := 31, lo := 0 }
def Fld.decState_queued : Fld := { name := .decState, hi := 31, lo := 16 }
def Fld.decState_polarBusy : Fld := { name := .decState, hi := 12, lo := 8 }
def Fld.decState_ldpcBusy : Fld := { name := .decState, hi := 4, lo := 0 }
def Fld.decSubmit_desc : Fld := { name := .decSubmit, hi := 47, lo := 0 }
def Fld.decHarqCfg_slotKib : Fld := { name := .decHarqCfg, hi := 55, lo := 44 }
def Fld.decHarqCfg_count : Fld := { name := .decHarqCfg, hi := 40, lo := 20 }
def Fld.decHarqCfg_first : Fld := { name := .decHarqCfg, hi := 19, lo := 0 }
def Fld.decHarqCfg_pool : Fld := { name := .decHarqCfg, hi := 47, lo := 0, w := 1 }
def Fld.decHarqSel_index : Fld := { name := .decHarqSel, hi := 19, lo := 0 }
def Fld.decHarqPeek_valid : Fld := { name := .decHarqPeek, hi := 63, lo := 63 }
def Fld.decHarqPeek_ndi : Fld := { name := .decHarqPeek, hi := 62, lo := 62 }
def Fld.decHarqPeek_tent : Fld := { name := .decHarqPeek, hi := 61, lo := 56 }
def Fld.decHarqPeek_rnti : Fld := { name := .decHarqPeek, hi := 55, lo := 40 }
def Fld.decHarqPeek_proc : Fld := { name := .decHarqPeek, hi := 39, lo := 35 }
def Fld.decHarqPeek_rv : Fld := { name := .decHarqPeek, hi := 34, lo := 33 }
def Fld.decHarqPeek_tx : Fld := { name := .decHarqPeek, hi := 32, lo := 29 }
def Fld.decHarqPeek_busy : Fld := { name := .decHarqPeek, hi := 28, lo := 28 }
def Fld.decHarqPeek_bytes : Fld := { name := .decHarqPeek, hi := 27, lo := 0 }
def Fld.decHarqClr_index : Fld := { name := .decHarqClr, hi := 19, lo := 0 }
def Fld.sysSerial_serial : Fld := { name := .sysSerial, hi := 63, lo := 0 }
def Fld.sysState_restarts : Fld := { name := .sysState, hi := 31, lo := 24 }
def Fld.sysState_mpSlot : Fld := { name := .sysState, hi := 8, lo := 8 }
def Fld.sysState_state : Fld := { name := .sysState, hi := 2, lo := 0 }
def Fld.sysChanfaultLoc_die : Fld := { name := .sysChanfaultLoc, hi := 31, lo := 24 }
def Fld.sysChanfaultLoc_index : Fld := { name := .sysChanfaultLoc, hi := 23, lo := 16 }
def Fld.sysChanfaultLoc_channel : Fld := { name := .sysChanfaultLoc, hi := 15, lo := 0 }
def Fld.sysMpq_depth : Fld := { name := .sysMpq, hi := 22, lo := 16 }
def Fld.sysMpq_served : Fld := { name := .sysMpq, hi := 15, lo := 0 }
def Fld.sysMsgq_lost : Fld := { name := .sysMsgq, hi := 31, lo := 16 }
def Fld.sysMsgq_depth : Fld := { name := .sysMsgq, hi := 8, lo := 0 }
def Fld.sysMsgMask_enable : Fld := { name := .sysMsgMask, hi := 8, lo := 1 }
def Fld.sysMsgPost_record : Fld := { name := .sysMsgPost, hi := 47, lo := 0 }
def Fld.azlState_retrains : Fld := { name := .azlState, hi := 31, lo := 16 }
def Fld.azlState_state : Fld := { name := .azlState, hi := 1, lo := 0 }
def Fld.azlStat_crcErr : Fld := { name := .azlStat, hi := 63, lo := 32 }
def Fld.azlStat_resent : Fld := { name := .azlStat, hi := 31, lo := 0 }
def Fld.passCfg_remoteTo : Fld := { name := .passCfg, hi := 23, lo := 16 }
def Fld.passCfg_moduleId : Fld := { name := .passCfg, hi := 15, lo := 0 }
def Fld.passPort_boostOn : Fld := { name := .passPort, hi := 27, lo := 16 }
def Fld.passPort_boostEn : Fld := { name := .passPort, hi := 11, lo := 0 }
def Fld.passStat_dropped : Fld := { name := .passStat, hi := 63, lo := 32 }
def Fld.passStat_regen : Fld := { name := .passStat, hi := 31, lo := 0 }
def Fld.passLastTag_sink : Fld := { name := .passLastTag, hi := 55, lo := 48 }
def Fld.passLastTag_tag : Fld := { name := .passLastTag, hi := 47, lo := 0 }
def Fld.passTx_open : Fld := { name := .passTx, hi := 31, lo := 31 }
def Fld.passTx_locked : Fld := { name := .passTx, hi := 30, lo := 30 }
def Fld.passTx_colour : Fld := { name := .passTx, hi := 28, lo := 24 }
def Fld.passTx_peer : Fld := { name := .passTx, hi := 15, lo := 0 }
def Fld.passRx_state : Fld := { name := .passRx, hi := 31, lo := 30 }
def Fld.passRx_peer : Fld := { name := .passRx, hi := 15, lo := 0 }
def Fld.passRxFec_corrected : Fld := { name := .passRxFec, hi := 63, lo := 32 }
def Fld.passRxFec_uncorr : Fld := { name := .passRxFec, hi := 31, lo := 0 }
def Fld.passBcast_valid : Fld := { name := .passBcast, hi := 31, lo := 31 }
def Fld.passBcast_deliver : Fld := { name := .passBcast, hi := 30, lo := 30 }
def Fld.passBcast_count : Fld := { name := .passBcast, hi := 29, lo := 28 }
def Fld.passBcast_c3 : Fld := { name := .passBcast, hi := 27, lo := 21 }
def Fld.passBcast_c2 : Fld := { name := .passBcast, hi := 20, lo := 14 }
def Fld.passBcast_c1 : Fld := { name := .passBcast, hi := 13, lo := 7 }
def Fld.passBcast_c0 : Fld := { name := .passBcast, hi := 6, lo := 0 }
def Fld.passRoute_valid : Fld := { name := .passRoute, hi := 63, lo := 63 }
def Fld.passRoute_count : Fld := { name := .passRoute, hi := 61, lo := 60 }
def Fld.passRoute_c3 : Fld := { name := .passRoute, hi := 55, lo := 49 }
def Fld.passRoute_c2 : Fld := { name := .passRoute, hi := 48, lo := 42 }
def Fld.passRoute_c1 : Fld := { name := .passRoute, hi := 41, lo := 35 }
def Fld.passRoute_c0 : Fld := { name := .passRoute, hi := 34, lo := 28 }
def Fld.pwrIn_power : Fld := { name := .pwrIn, hi := 47, lo := 32 }
def Fld.pwrIn_current : Fld := { name := .pwrIn, hi := 31, lo := 16 }
def Fld.pwrIn_voltage : Fld := { name := .pwrIn, hi := 15, lo := 0 }
def Fld.pwrStage_on : Fld := { name := .pwrStage, hi := 31, lo := 31 }
def Fld.pwrStage_fault : Fld := { name := .pwrStage, hi := 30, lo := 30 }
def Fld.pwrStage_cause : Fld := { name := .pwrStage, hi := 29, lo := 28 }
def Fld.pwrStage_vout : Fld := { name := .pwrStage, hi := 15, lo := 0 }
def Fld.pwrRail_fault : Fld := { name := .pwrRail, hi := 31, lo := 31 }
def Fld.pwrRail_kind : Fld := { name := .pwrRail, hi := 30, lo := 29 }
def Fld.pwrRail_power : Fld := { name := .pwrRail, hi := 15, lo := 0 }
def Fld.thmCfg_compEn : Fld := { name := .thmCfg, hi := 0, lo := 0 }
def Fld.thmCoolant_fault : Fld := { name := .thmCoolant, hi := 31, lo := 31 }
def Fld.thmCoolant_temp : Fld := { name := .thmCoolant, hi := 15, lo := 0 }
def Fld.thmPanel_tf : Fld := { name := .thmPanel, hi := 31, lo := 16 }
def Fld.thmPanel_temp : Fld := { name := .thmPanel, hi := 15, lo := 0 }
def Fld.thmHold_releaseOk : Fld := { name := .thmHold, hi := 31, lo := 31 }
def Fld.thmHold_secs : Fld := { name := .thmHold, hi := 15, lo := 0 }
def Fld.thmPanelParam_tau : Fld := { name := .thmPanelParam, hi := 63, lo := 32 }
def Fld.thmPanelParam_r : Fld := { name := .thmPanelParam, hi := 15, lo := 0 }
def Fld.thmNode_tf : Fld := { name := .thmNode, hi := 31, lo := 16 }
def Fld.thmNode_temp : Fld := { name := .thmNode, hi := 15, lo := 0 }
def Fld.thmParam_tau : Fld := { name := .thmParam, hi := 63, lo := 32 }
def Fld.thmParam_r : Fld := { name := .thmParam, hi := 15, lo := 0 }
def Fld.thmShare_share : Fld := { name := .thmShare, hi := 7, lo := 0 }
def Fld.lantSec_valid : Fld := { name := .lantSec, hi := 63, lo := 63 }
def Fld.lantSec_sec : Fld := { name := .lantSec, hi := 47, lo := 0 }
def Fld.lantSub_sub : Fld := { name := .lantSub, hi := 14, lo := 0 }
def Fld.lantCmp_wake : Fld := { name := .lantCmp, hi := 3, lo := 3 }
def Fld.lantCmp_coolantHot : Fld := { name := .lantCmp, hi := 2, lo := 2 }
def Fld.lantCmp_ov : Fld := { name := .lantCmp, hi := 1, lo := 1 }
def Fld.lantCmp_uv : Fld := { name := .lantCmp, hi := 0, lo := 0 }
def Fld.lantCfg_wakePol : Fld := { name := .lantCfg, hi := 1, lo := 1 }
def Fld.lantCfg_autoWake : Fld := { name := .lantCfg, hi := 0, lo := 0 }
def Fld.lantRecHead_total : Fld := { name := .lantRecHead, hi := 15, lo := 8 }
def Fld.lantRecHead_next : Fld := { name := .lantRecHead, hi := 4, lo := 0 }
def Fld.cairnId_major : Fld := { name := .cairnId, hi := 31, lo := 24 }
def Fld.cairnId_minor : Fld := { name := .cairnId, hi := 23, lo := 16 }
def Fld.cairnId_certified : Fld := { name := .cairnId, hi := 0, lo := 0 }
def Fld.cairnSum_sum : Fld := { name := .cairnSum, hi := 63, lo := 0 }
def Fld.cairnState_fault : Fld := { name := .cairnState, hi := 31, lo := 31 }
def Fld.cairnState_sealBroken : Fld := { name := .cairnState, hi := 30, lo := 30 }
def Fld.cairnState_clockValid : Fld := { name := .cairnState, hi := 29, lo := 29 }
def Fld.cairnState_clockDisagree : Fld := { name := .cairnState, hi := 28, lo := 28 }
def Fld.cairnState_activityOk : Fld := { name := .cairnState, hi := 27, lo := 27 }
def Fld.cairnState_overload : Fld := { name := .cairnState, hi := 26, lo := 26 }
def Fld.cairnState_interval : Fld := { name := .cairnState, hi := 5, lo := 0 }
def Fld.cairnTime_value : Fld := { name := .cairnTime, hi := 63, lo := 0 }
def Fld.cairnTotal_value : Fld := { name := .cairnTotal, hi := 63, lo := 0 }
def Fld.cairnInput_power : Fld := { name := .cairnInput, hi := 47, lo := 32 }
def Fld.cairnInput_current : Fld := { name := .cairnInput, hi := 31, lo := 16 }
def Fld.cairnInput_voltage : Fld := { name := .cairnInput, hi := 15, lo := 0 }
def Fld.cairnRec_oldest : Fld := { name := .cairnRec, hi := 63, lo := 32 }
def Fld.cairnRec_latest : Fld := { name := .cairnRec, hi := 31, lo := 0 }
def Fld.cairnEvt_oldest : Fld := { name := .cairnEvt, hi := 63, lo := 32 }
def Fld.cairnEvt_latest : Fld := { name := .cairnEvt, hi := 31, lo := 0 }
def Fld.cairnTent_energy : Fld := { name := .cairnTent, hi := 31, lo := 0 }
def Fld.sysBoot_recovery : Fld := { name := .sysBoot, hi := 31, lo := 31 }
def Fld.sysBoot_trial : Fld := { name := .sysBoot, hi := 30, lo := 30 }
def Fld.sysBoot_idOk : Fld := { name := .sysBoot, hi := 29, lo := 29 }
def Fld.sysBoot_validB : Fld := { name := .sysBoot, hi := 25, lo := 25 }
def Fld.sysBoot_validA : Fld := { name := .sysBoot, hi := 24, lo := 24 }
def Fld.sysBoot_minVersion : Fld := { name := .sysBoot, hi := 23, lo := 0 }
def Fld.sysFwVer_version : Fld := { name := .sysFwVer, hi := 31, lo := 0 }
def Fld.sysStart_importExpected : Fld := { name := .sysStart, hi := 8, lo := 8 }
def Fld.sysStart_importWait : Fld := { name := .sysStart, hi := 7, lo := 0 }
def Fld.sysDrained_veld : Fld := { name := .sysDrained, hi := 47, lo := 12 }
def Fld.sysDrained_vale : Fld := { name := .sysDrained, hi := 11, lo := 0 }
def Fld.sysGpioDir_dir : Fld := { name := .sysGpioDir, hi := 15, lo := 0 }
def Fld.sysGpioOut_out : Fld := { name := .sysGpioOut, hi := 15, lo := 0 }
def Fld.sysGpioIn_in : Fld := { name := .sysGpioIn, hi := 15, lo := 0 }
def Fld.pwrHkSeq_next : Fld := { name := .pwrHkSeq, hi := 39, lo := 32 }
def Fld.pwrHkSeq_valid : Fld := { name := .pwrHkSeq, hi := 31, lo := 31 }
def Fld.pwrHkSeq_stop : Fld := { name := .pwrHkSeq, hi := 30, lo := 30 }
def Fld.pwrHkSeq_conv : Fld := { name := .pwrHkSeq, hi := 27, lo := 26 }
def Fld.pwrHkSeq_tone : Fld := { name := .pwrHkSeq, hi := 25, lo := 22 }
def Fld.pwrHkSeq_demod : Fld := { name := .pwrHkSeq, hi := 21, lo := 20 }
def Fld.pwrHkSeq_trig : Fld := { name := .pwrHkSeq, hi := 18, lo := 16 }
def Fld.pwrHkSeq_avg : Fld := { name := .pwrHkSeq, hi := 15, lo := 12 }
def Fld.pwrHkSeq_delay : Fld := { name := .pwrHkSeq, hi := 11, lo := 8 }
def Fld.pwrHkSeq_gain : Fld := { name := .pwrHkSeq, hi := 7, lo := 6 }
def Fld.pwrHkSeq_input : Fld := { name := .pwrHkSeq, hi := 5, lo := 0 }
def Fld.pwrHkAcc_ovrCount : Fld := { name := .pwrHkAcc, hi := 63, lo := 48 }
def Fld.pwrHkAcc_seq : Fld := { name := .pwrHkAcc, hi := 47, lo := 32 }
def Fld.pwrHkAcc_valid : Fld := { name := .pwrHkAcc, hi := 25, lo := 25 }
def Fld.pwrHkAcc_ovr : Fld := { name := .pwrHkAcc, hi := 24, lo := 24 }
def Fld.pwrHkAcc_value : Fld := { name := .pwrHkAcc, hi := 23, lo := 0 }
def Fld.pwrHkTrk_max : Fld := { name := .pwrHkTrk, hi := 55, lo := 32 }
def Fld.pwrHkTrk_min : Fld := { name := .pwrHkTrk, hi := 23, lo := 0 }
def Fld.pwrHkTrkClr_clr : Fld := { name := .pwrHkTrkClr, hi := 63, lo := 0 }
def Fld.pwrHkDisc_disc : Fld := { name := .pwrHkDisc, hi := 31, lo := 0 }

end Sys2Proof
end

