-- ==== Sys2Proof/Machine/Numbers.lean ====
section
/-!
DEFINITION. Sys2Proof/Machine/Numbers.lean: file 03 of spec/ (Narrow numbers and scales): bit fields,
byte order (R4), exact dyadic and rational helpers, the random number generator (R94), stochastic
rounding (R93), activation and weight codes (R60 to R66), SC16 (R71), BFP18 (R72, R73), scale records
(R74), the running-maximum range (R80 to R83), the Walsh-Hadamard transform (R100) and the
requantiser (R89 to R91).
-/

namespace Sys2Proof

/-- Bits [hi:lo] of a word as a number (R4). -/
def bitsOf (x hi lo : Nat) : Nat := x / 2 ^ lo % 2 ^ (hi + 1 - lo)

/-- Bit `i` of a word. -/
def bitOf (x i : Nat) : Bool := x / 2 ^ i % 2 == 1

/-- A `w`-bit field read as two's complement. -/
def signedOf (w x : Nat) : Int :=
  let y := x % 2 ^ w
  if 2 * y < 2 ^ w then (y : Int) else (y : Int) - 2 ^ w

/-- An integer written into a `w`-bit two's-complement field. -/
def fieldOf (w : Nat) (x : Int) : Nat := (x % (2 ^ w : Int)).toNat

/-- Little-endian bytes as a number (R4). -/
def leNat : List Byte → Nat
  | [] => 0
  | b :: bs => b.toNat + 256 * leNat bs

/-- A number as `n` little-endian bytes (R4). -/
def leBytes : Nat → Nat → List Byte
  | 0, _ => []
  | n + 1, x => BitVec.ofNat 8 x :: leBytes n (x / 256)

/-- Clamps into [lo, hi]. -/
def clampInt (lo hi x : Int) : Int := max lo (min hi x)

/-- The population count of the low `n` bits. -/
def popCount : Nat → Nat → Nat
  | 0, _ => 0
  | n + 1, x => x % 2 + popCount n (x / 2)

/-- `a` divided by `b` and rounded up. -/
def ceilDiv (a b : Nat) : Nat := (a + b - 1) / b

/-- `x * 2 ^ e` rounded towards minus infinity. -/
def scaleFloor (x : Int) (e : Int) : Int :=
  if 0 ≤ e then x * 2 ^ e.toNat else x / 2 ^ (-e).toNat

/-- The integer square root by bisection over `n` bits: the largest `r < 2 ^ n` with `r * r ≤ x`. -/
def sqrtBits : Nat → Nat → Nat → Nat
  | 0, r, _ => r
  | n + 1, r, x =>
    let c := r + 2 ^ n
    sqrtBits n (if c * c ≤ x then c else r) x

/-- The integer square root of a number below 2 ^ 128. -/
def isqrt (x : Nat) : Nat := sqrtBits 64 0 x

/-- Terms of the series of 1 - e^-r, in units of 2^-96: `r` in the same units, `term` the last term. -/
def expSeries : Nat → Nat → Nat → Nat
  | 0, _, _ => 0
  | n + 1, r, term =>
    -- term is r^k / k! with k = 14 - n; the sum alternates
    let next := term * r / 2 ^ 96 / (14 - n + 1)
    term - expSeries n r next

/-- e^-(num/den) in units of 2^-96: the argument is divided by 256, the series of 14 terms taken, and the
result squared 8 times (log entry 3). -/
def expNeg (num den : Nat) : Nat :=
  if den = 0 ∨ 64 * den ≤ num then (if num = 0 then 2 ^ 96 else 0)
  else
    let r := num * 2 ^ 88 / den
    (List.range 8).foldl (fun y _ => y * y / 2 ^ 96) (2 ^ 96 - expSeries 14 r r)

/-- A first-order advance (R267, R469): x + (tf - x) × (1 - e^-(num/den)), rounded to nearest. -/
def advance (x tf : Int) (num den : Nat) : Int :=
  let k : Int := 2 ^ 96 - ((expNeg num den : Nat) : Int)
  x + (2 * (tf - x) * k + 2 ^ 96) / 2 ^ 97

/-- A random number generator (R94): the 64-bit state and the pending second draw of its latest
step, if it holds one. -/
structure Gen where
  s    : BitVec 64
  pend : Option Nat := none
deriving DecidableEq, Repr

/-- One step of the generator (R94). -/
def Gen.step (g : BitVec 64) : BitVec 64 × BitVec 64 :=
  let s := g ^^^ (g >>> 12)
  let s := s ^^^ (s <<< 25)
  let s := s ^^^ (s >>> 27)
  (s, s * 0x2545F4914F6CDD1D)

/-- One 16-bit draw (R94): out[63:48] of a fresh step first, then out[47:32]. -/
def Gen.draw (g : Gen) : Nat × Gen :=
  match g.pend with
  | some d => (d, { g with pend := none })
  | none =>
    let p := Gen.step g.s
    (bitsOf p.2.toNat 63 48, { s := p.1, pend := some (bitsOf p.2.toNat 47 32) })

/-- One whole 64-bit output; a pending draw is discarded (R94). -/
def Gen.whole (g : Gen) : BitVec 64 × Gen :=
  let p := Gen.step g.s
  (p.2, { s := p.1, pend := none })

/-- `n` whole outputs, first output first. -/
def Gen.wholes : Nat → Gen → List (BitVec 64) × Gen
  | 0, g => ([], { g with pend := none })
  | n + 1, g =>
    let p := g.whole
    let q := Gen.wholes n p.2
    (p.1 :: q.1, q.2)

/-- Stochastic rounding (R93) of a value given in units of 2^-16, one draw. -/
def Gen.round16 (g : Gen) (y16 : Int) : Int × Gen :=
  let p := g.draw
  ((y16 + p.1) / 65536, p.2)

/-- Stochastic rounding (R93) of the quotient `num / den`: the fraction is truncated to 16 bits. -/
def Gen.roundDiv (g : Gen) (num : Int) (den : Nat) : Int × Gen :=
  g.round16 (num * 65536 / (den : Int))

/-- `x / 2 ^ n` with stochastic rounding; a shift by zero takes no draw (R93). -/
def Gen.shift (g : Gen) (x : Int) (n : Nat) : Int × Gen :=
  if n = 0 then (x, g) else g.roundDiv x (2 ^ n)

/-- A function with draws applied along a list, left to right. -/
def Gen.mapM {α β : Type} (f : Gen → α → β × Gen) : Gen → List α → List β × Gen
  | g, [] => ([], g)
  | g, a :: as =>
    let p := f g a
    let q := Gen.mapM f p.2 as
    (p.1 :: q.1, q.2)

/-- The narrow formats of a descriptor's in_fmt and out_fmt (R138). -/
inductive Fmt where
  | a2 | a4 | a6 | a8 | g8 | m8 | raw
deriving DecidableEq, Repr

/-- The format a code of in_fmt or out_fmt names (R138); none for an unassigned code. -/
def Fmt.ofCode (n : Nat) : Option Fmt :=
  [some .a2, some .a4, some .a6, some .a8, some .g8, some .m8, none, some .raw].getD n none

/-- Width in bits, which is the number of bit-planes (R61, R68, R89). -/
def Fmt.bits : Fmt → Nat
  | .a2 => 2
  | .a4 => 4
  | .a6 => 6
  | .raw => 32
  | _ => 8

/-- Storage bits of one element (R61): A6 takes a whole byte. -/
def Fmt.store : Fmt → Nat
  | .a2 => 2
  | .a4 => 4
  | .raw => 32
  | _ => 8

/-- Bytes of a row part of `n` elements: each part starts on a byte boundary (R61, R138). -/
def Fmt.rowBytes (f : Fmt) (n : Nat) : Nat := ceilDiv (n * f.store) 8

/-- R62: the code -2^(b-1) read as an input is fed as -(2^(b-1) - 1). -/
def feedCode (b : Nat) (x : Nat) : Int :=
  let v := signedOf b x
  if v = -(2 ^ (b - 1) : Int) then v + 1 else v

/-- Element `k` of a row part held in `bs` (R61, R62). -/
def Fmt.elem (f : Fmt) (bs : List Byte) (k : Nat) : Int :=
  match f with
  | .a2 => feedCode 2 ((bs.getD (k / 4) 0).toNat / 2 ^ (2 * (k % 4)))
  | .a4 => feedCode 4 ((bs.getD (k / 2) 0).toNat / 2 ^ (4 * (k % 2)))
  | .a6 => feedCode 6 (bs.getD k 0).toNat
  | .raw => signedOf 32 (leNat ((bs.drop (4 * k)).take 4))
  | _ => feedCode 8 (bs.getD k 0).toNat

/-- One element's storage field (R61): A6 copies bit 5 into bits [7:6]. -/
def Fmt.field (f : Fmt) (x : Int) : Nat := fieldOf f.store x

/-- A row part packed as R61 lays down; the bits after the last element are zero. -/
def Fmt.pack (f : Fmt) (xs : List Int) : List Byte :=
  let n := (xs.mapIdx fun k x => f.field x * 2 ^ (k * f.store)).sum
  leBytes (f.rowBytes xs.length) n

/-- Plane `p` of a code of `b` bits: the bit the light or the current carries (R60, R63). -/
def planeBit (b p : Nat) (x : Int) : Nat := fieldOf b x / 2 ^ p % 2

/-- Weight of plane `p` of `b` (R60, R63). -/
def planeWeight (b p : Nat) : Int := if p + 1 = b then -(2 ^ p : Int) else 2 ^ p

/-- The value of a W6 byte (R64, R65). -/
def w6Of (x : Byte) : Int := feedCode 6 x.toNat

/-- The value of a W5 byte (R64, R65). -/
def w5Of (x : Byte) : Int := feedCode 5 x.toNat

/-- Mantissa (256 to 511, or 0) of an SC16 value (R71): the value is mantissa × 2^(exponent - 8). -/
def sc16Mant (x : Nat) : Nat :=
  let e := bitsOf x 15 8
  if e = 0 then 0 else if e = 255 then 511 else 256 + bitsOf x 7 0

/-- Exponent e - 127 of an SC16 value; e = 255 reads as 254 (R71). -/
def sc16Exp (x : Nat) : Int :=
  let e := bitsOf x 15 8
  (if e = 255 then 254 else e : Nat) - 127

/-- The largest SC16 value the device produces (R71). -/
def sc16Max : Nat := 0xFEFF

/-- An exact non-negative number num / den × 2 ^ exp. -/
structure Rat2 where
  num : Nat
  den : Nat := 1
  exp : Int := 0
deriving DecidableEq, Repr

/-- The value of an SC16 code, exactly. -/
def sc16Val (x : Nat) : Rat2 := { num := sc16Mant x, exp := sc16Exp x - 8 }

def Rat2.mul (a b : Rat2) : Rat2 :=
  { num := a.num * b.num, den := a.den * b.den, exp := a.exp + b.exp }

def Rat2.div (a b : Rat2) : Rat2 :=
  { num := a.num * b.den, den := a.den * b.num, exp := a.exp - b.exp }

/-- `a ≤ b`. -/
def Rat2.le (a b : Rat2) : Bool :=
  let l := a.num * b.den
  let r := b.num * a.den
  let d := a.exp - b.exp
  if 0 ≤ d then decide (l * 2 ^ d.toNat ≤ r) else decide (l ≤ r * 2 ^ (-d).toNat)

/-- The floor of log2 of a non-zero value. -/
def Rat2.log2 (a : Rat2) : Int :=
  (Nat.log2 (a.num * 2 ^ 200 / a.den) : Int) - 200 + a.exp

/-- The value times 2 ^ k rounded down. -/
def Rat2.floor2 (a : Rat2) (k : Int) : Nat :=
  let e := a.exp + k
  if 0 ≤ e then a.num * 2 ^ e.toNat / a.den else a.num / (a.den * 2 ^ (-e).toNat)

/-- The value times 2 ^ k rounded up. -/
def Rat2.ceil2 (a : Rat2) (k : Int) : Nat :=
  let e := a.exp + k
  if 0 ≤ e then ceilDiv (a.num * 2 ^ e.toNat) a.den else ceilDiv a.num (a.den * 2 ^ (-e).toNat)

/-- SC16 code of exponent `e` (unbiased) and 9-bit mantissa `m` from 256 to 512, saturating at the
largest value and, below the smallest, taking the smallest non-zero value. -/
def sc16Make (e : Int) (m : Nat) : Nat :=
  let e' := if m = 512 then e + 1 else e
  let m' := if m = 512 then 256 else m
  if e' + 127 < 1 then 0x0100
  else if 254 < e' + 127 then sc16Max
  else (e' + 127).toNat * 256 + (m' - 256)

/-- The smallest SC16 value not below `a` (R69, R89), saturating under R91. -/
def sc16Ceil (a : Rat2) : Nat :=
  if a.num = 0 then 0
  else
    let e := a.log2
    sc16Make e (a.ceil2 (8 - e))

/-- An SC16 code of `a` with its fraction rounded stochastically (R93). -/
def sc16Round (g : Gen) (a : Rat2) : Nat × Gen :=
  if a.num = 0 then (0, g.draw.2)
  else
    let e := a.log2
    if e + 127 < 1 then
      -- between zero and the smallest value
      let p := g.round16 (a.floor2 (126 + 16) : Nat)
      (if p.1 = 0 then 0 else 0x0100, p.2)
    else
      let p := g.round16 (a.floor2 (24 - e) : Nat)
      (sc16Make e p.1.toNat, p.2)

/-- A scale record (R74). -/
structure ScaleRec where
  tag      : Nat
  kind     : Nat
  outliers : Nat
  rotated  : Bool
  seeded   : Bool
  clipped  : Bool
  scale    : Nat
deriving DecidableEq, Repr

def ScaleRec.ofWord (x : Nat) : ScaleRec :=
  { tag := bitsOf x 31 26, kind := bitsOf x 25 24, outliers := bitsOf x 23 19,
    rotated := bitOf x 18, seeded := bitOf x 17, clipped := bitOf x 16, scale := bitsOf x 15 0 }

def ScaleRec.toWord (r : ScaleRec) : Nat :=
  r.tag * 2 ^ 26 + r.kind * 2 ^ 24 + r.outliers * 2 ^ 19 + r.rotated.toNat * 2 ^ 18
    + r.seeded.toNat * 2 ^ 17 + r.clipped.toNat * 2 ^ 16 + r.scale

/-- R75: the block of row `r` of a stream of the given kind. -/
def blockOf (kind r : Nat) : Nat := if kind = 0 then r else if kind = 1 then r / 16 else 0

/-- R76: block `j`'s record passes the check of tag and kind. -/
def ScaleRec.passes (r : ScaleRec) (kind j : Nat) : Bool :=
  r.kind == kind && kind != 3 && r.tag == j % 64

/-- R83: the headroom h in eighths by code; none for codes 5 to 7. -/
def headroomEighths (code : Nat) : Option Nat :=
  [some 8, some 9, some 10, some 12, some 16].getD code none

/-- A min-max tracker (R80, R213): the M of the last steps, newest first, the maximum of the running
step, each uint16 in units of 2^-16 of the largest setting, and the count of steps since creation. -/
structure Tracker where
  hist  : List Nat := []
  cur   : Nat := 0
  steps : Nat := 0
deriving DecidableEq, Repr

/-- R81, R82: the range the next step asks for, in units of 2^-19 of the largest setting (an eighth of
a tracker unit). `seed` is σ in units of 2^-16, `big` the window H, `h8` the headroom in eighths. -/
def Tracker.wanted (t : Tracker) (seed big h8 : Nat) : Nat :=
  let m := (t.hist.take big).foldl max 0
  if t.steps = 0 then 8 * seed
  else if t.steps < big then max (8 * seed) (h8 * m) else h8 * m

/-- R80: the step's maximum joins the window of H steps. -/
def Tracker.endStep (t : Tracker) (big : Nat) : Tracker :=
  { hist := (t.cur :: t.hist).take big, cur := 0, steps := t.steps + 1 }

/-- R80: a sample's magnitude, saturating at 0xFFFF (R213). -/
def Tracker.see (t : Tracker) (m : Nat) : Tracker := { t with cur := max t.cur (min m 0xFFFF) }

/-- The seed σ in units of 2^-16 of the largest setting; an SC16 value of zero means 1.0 (R82). -/
def seedUnits (sc : Nat) : Nat :=
  if sc16Mant sc = 0 then 65536 else (sc16Val sc).ceil2 16

/-- The range setting index for a wanted range (R81): the largest `k` whose setting `R k` is not
below it, 0 when none is. `settings` gives R of each k in units of 2^-19, falling. -/
def settingFor (settings : List Nat) (want : Nat) : Nat :=
  ((List.range settings.length).filter fun k => decide (want ≤ settings.getD k 0)).foldl max 0

/-- R119: R of the 16 Dale settings in units of 2^-19: 2^(-k/2), the odd ones by the SC16 fraction
181/256 of R121. -/
def daleSettings : List Nat :=
  (List.range 16).map fun k =>
    if k % 2 = 0 then 2 ^ (19 - k / 2) else 181 * 2 ^ (11 - k / 2)

/-- One stage of the Walsh-Hadamard butterflies at distance `d` (R100). -/
def whtStage (d : Nat) (xs : List Int) : List Int :=
  xs.mapIdx fun i x =>
    if i / d % 2 = 0 then x + xs.getD (i + d) 0 else xs.getD (i - d) 0 - x

/-- The 64-point transform H64 (R100). -/
def wht64 (xs : List Int) : List Int :=
  [1, 2, 4, 8, 16, 32].foldl (fun x d => whtStage d x) xs

/-- The transform of each 64-element group of a row (R100). -/
def whtRow (xs : List Int) : List Int :=
  ((List.range (xs.length / 64)).map fun k => wht64 ((xs.drop (64 * k)).take 64)).flatten
    ++ xs.drop (64 * (xs.length / 64))

/-- A float with 8 exponent bits, bias 127, and `k` fraction bits, of the value m × 2^e with stochastic rounding
(R70, R93): below 2^-126 zero of its sign without a draw. -/
def fpRound (k : Nat) (g : Gen) (neg : Bool) (m : Nat) (e : Int) : Nat × Gen :=
  let sign := neg.toNat * 2 ^ (k + 8)
  if m = 0 then (sign, g.draw.2)
  else
    let l : Int := (Nat.log2 m : Int) + e
    if l < -126 then (sign, g)
    else
      let p := g.round16 (scaleFloor (if neg then -(m : Int) else m) (e + k + 16 - l))
      let n := p.1.natAbs
      let l' := if n = 2 ^ (k + 1) then l + 1 else l
      let n' := if n = 2 ^ (k + 1) then 2 ^ k else n
      if 127 < l' then (sign + 255 * 2 ^ k, p.2) else (sign + (l' + 127).toNat * 2 ^ k + (n' - 2 ^ k), p.2)

/-- BF16 of an exact value `num × 2 ^ e`. -/
def bf16Round (g : Gen) (num : Int) (e : Int) : Nat × Gen := fpRound 7 g (decide (num < 0)) num.natAbs e

/-- What the requantiser works with for one row (R88, R89). -/
structure RowIn where
  acc    : List Int
  sIn    : Rat2
  /-- the floor factor F of R106 -/
  floorF : Rat2
  bits   : Nat
  /-- the outlier channels of the consuming tile, ascending (R96) -/
  mask   : List Nat
  rot    : Bool
deriving DecidableEq, Repr

/-- One addition of R89 to the statistics of a job: to sse, or to cnt. -/
inductive StatAdd where
  | err (e : Nat)
  | codes (n : Nat)
deriving DecidableEq, Repr

/-- The statistics of a job execution (R104): sse, cnt, and whether both have stopped. -/
structure Stats where
  sse     : Nat
  cnt     : Nat
  stopped : Bool
deriving DecidableEq, Repr

/-- R104: an addition; one that would overflow stops both where they stand. -/
def Stats.add (s : Stats) (x : StatAdd) : Stats :=
  if s.stopped then s
  else match x with
    | .err e => if 2 ^ 48 ≤ s.sse + e then { s with stopped := true } else { s with sse := s.sse + e }
    | .codes n => if 2 ^ 32 ≤ s.cnt + n then { s with stopped := true } else { s with cnt := s.cnt + n }

/-- What the requantiser makes of one row (R89): codes, scale, outlier values in BF16, its additions to the
statistics in their order and their sums, and what it adds to the over-range count. -/
structure RowOut where
  codes : List Int
  scale : Nat
  side  : List Nat
  adds  : List StatAdd
  sse   : Nat
  cnt   : Nat
  ovr   : Nat
deriving DecidableEq, Repr

/-- One element of R89's loop: the code, the square of its error, whether it saturated, and the
outlier value where it is masked. -/
structure ElemOut where
  code : Int
  err2 : Nat := 0
  ovr  : Nat := 0
  side : Option Nat := none
deriving DecidableEq, Repr

/-- R89: one element. `rm × 2^re` is the ratio r with its 24-bit mantissa. -/
def requantElem (i : RowIn) (q : Int) (rm : Nat) (re : Int) (g : Gen) (jx : Nat × Int) :
    ElemOut × Gen :=
  if i.mask.contains jx.1 then
    let num := jx.2 * i.sIn.num
    let p := bf16Round g num i.sIn.exp
    ({ code := 0, side := some p.1 }, p.2)
  else
    let y16 := scaleFloor (jx.2 * rm) (re + 16)
    let p := g.round16 y16
    let c := clampInt (-q) q p.1
    let e := Int.tdiv (c * 65536 - y16) 256
    ({ code := c, err2 := (e * e).toNat, ovr := if p.1 = c then 0 else 1 }, p.2)

/-- R89, R91: the whole row. -/
def requantiseRow (i : RowIn) (g : Gen) : RowOut × Gen :=
  let q : Nat := 2 ^ (i.bits - 1) - 1
  let x := if i.rot then whtRow i.acc else i.acc
  let sIn : Rat2 := if i.rot then { i.sIn with exp := i.sIn.exp - 3 } else i.sIn
  let ix := x.mapIdx fun j v => (j, v)
  let m1 := ((ix.filter fun p => !i.mask.contains p.1).map fun p => p.2.natAbs).foldl max 0
  let m := if m1 = 0 then (x.map Int.natAbs).foldl max 0 else m1
  let live := x.length - (i.mask.filter fun j => decide (j < x.length)).length
  if m = 0 ∨ sIn.num = 0 then
    ({ codes := x.map fun _ => 0, scale := 0,
       side := (i.mask.filter fun j => decide (j < x.length)).map fun _ => 0,
       adds := [.codes live], sse := 0, cnt := live, ovr := 0 }, g)
  else
    let sOut := sc16Ceil (Rat2.mul { num := m, den := q } sIn)
    let r := Rat2.div sIn (sc16Val sOut)
    let l := r.log2
    let rm := r.floor2 (23 - l)
    let re := l - 23
    let es := Gen.mapM (requantElem { i with sIn := sIn } q rm re) g ix
    let t : Rat2 := Rat2.mul i.floorF { num := live * rm * rm, exp := 2 * re }
    let fl := if t.num = 0 then ((0 : Int), es.2) else es.2.round16 (t.floor2 32 : Nat)
    ({ codes := es.1.map ElemOut.code, scale := sOut,
       side := es.1.filterMap ElemOut.side,
       adds := (es.1.flatMap fun e => if e.side.isSome then [] else [.err e.err2, .codes 1]) ++
         (if t.num = 0 then [] else [.err fl.1.toNat]),
       sse := (es.1.map ElemOut.err2).sum + fl.1.toNat, cnt := live,
       ovr := (es.1.map ElemOut.ovr).sum }, fl.2)

/-- A BFP18 group (R72): mantissas that share one exponent, each value m × 2^(e - 40). -/
structure Bfp where
  ms : List Int
  e  : Nat
deriving DecidableEq, Repr

/-- The value m / 2^k lies in the range of an 18-bit mantissa (R72). -/
def bfpFits (k : Nat) (m : Int) : Bool :=
  decide (-131072 ≤ m / 2 ^ k ∧ -(-m / 2 ^ k) ≤ 131071)

/-- The smallest exponent from `e` on at which every mantissa, shifted right, fits (R73), within
`n` tries. -/
def bfpShift : Nat → Nat → List Int → Nat
  | 0, k, _ => k
  | n + 1, k, ms => if ms.all (bfpFits k) then k else bfpShift n (k + 1) ms

/-- R73: exact values `ms × 2^(e - 40)` (any integer `e`) brought to the smallest exponent from 0 to 63 at
which every mantissa fits, bits shifted out rounded stochastically, saturating at exponent 63. -/
def Bfp.normalise (g : Gen) (ms : List Int) (e : Int) : Bfp × Gen :=
  let up : Nat := if 0 ≤ e then e.toNat else 0
  let ms := ms.map fun m => m * 2 ^ up
  let down : Nat := if 0 ≤ e then 0 else (-e).toNat
  let k := bfpShift 64 down ms - down
  let k := min k 63
  let p := Gen.mapM (fun g m => if down + k = 0 then (m, g) else g.shift m (down + k)) g ms
  ({ ms := p.1.map (clampInt (-131072) 131071), e := k }, p.2)

/-- A value m × 2^e, exactly. -/
structure Dy where
  m : Int
  e : Int := 0
deriving DecidableEq, Repr

def Dy.add (a b : Dy) : Dy :=
  let e := min a.e b.e
  { m := a.m * 2 ^ (a.e - e).toNat + b.m * 2 ^ (b.e - e).toNat, e := e }

def Dy.mul (a b : Dy) : Dy := { m := a.m * b.m, e := a.e + b.e }

def Dy.neg (a : Dy) : Dy := { a with m := -a.m }

def Dy.ofInt (x : Int) : Dy := { m := x }

/-- The value in units of 2^-16, rounded down. -/
def Dy.floor16 (a : Dy) : Int := scaleFloor a.m (a.e + 16)

/-- The value exceeds an integer. -/
def Dy.gt (a : Dy) (x : Int) : Bool :=
  decide (x < scaleFloor a.m a.e) || (decide (scaleFloor a.m a.e = x) &&
    decide (Dy.add a (Dy.neg (Dy.ofInt x)) ≠ { m := 0, e := min a.e 0 }))

/-- The value lies below an integer. -/
def Dy.lt (a : Dy) (x : Int) : Bool := decide (scaleFloor a.m a.e < x)

/-- Member `k` of a BFP group, exactly (R72). -/
def Bfp.val (b : Bfp) (k : Nat) : Dy := { m := b.ms.getD k 0, e := (b.e : Int) - 40 }

end Sys2Proof
end

