-- ==== Sys2Proof/Machine/State.lean ====
section
/-!
DEFINITION. Sys2Proof/Machine/State.lean: the state of the device as plain data, everything the spec
gives it: the registers (one sparse store, see RegMap.lean), the memories of R22, and beside them the
state the chapters describe that no register holds (queues, running jobs, generators, leases, the
Cairn). The faults and the refusals, and the state after reset.
-/

namespace Sys2Proof.Machine

/-- A sparse table: what it does not list is the default its reader names. -/
abbrev Tab (κ α : Type) := List (κ × α)

/-! ### Replies, messages and other things the device sends -/

/-- A reply packet (R414). -/
structure Reply where
  op     : Nat
  tent   : Nat
  tag    : BitVec 16
  status : Nat
  /-- bytes 9 to 15 -/
  detail : Nat := 0
  words  : List Word := []
  final  : Bool := true
deriving DecidableEq, Repr

/-- The data of a user message still to be read when it is sent (R432). -/
structure Post where
  addr : Nat
  len  : Nat
  done : Nat
deriving DecidableEq, Repr

/-- A queued message (R429, R430). -/
structure Msg where
  kind : Nat
  body : List Byte
  post : Option Post := none
deriving DecidableEq, Repr

/-- A Tent's message queue (R431): its messages, oldest first, the sequence number of the next one
sent, and whether a kind 6 message is due before the next. -/
structure MsgQ where
  q     : List Msg := []
  seq   : Nat := 0
deriving DecidableEq, Repr

/-- A flit as R405 lays it out, without the CRC that ends it. -/
structure Flit where
  ftype   : Nat
  cls     : Nat := 0
  seq     : Nat := 0
  ack     : Nat := 0
  credLo  : Nat := 0
  credHi  : Nat := 0
  payload : List Byte := []
deriving DecidableEq, Repr

/-- What leaves the device, in the order it leaves. Nothing in the spec takes it back, so the list
only grows (the model's own record). -/
inductive Out where
  | reply (r : Reply)
  | message (tent kind seq : Nat) (body : List Byte)
  | hostRead (tent tag : Nat) (addr len : Nat)
  | flit (f : Flit)
  /-- a Pass frame on colour `colour` from source lane `lane` -/
  | frame (lane : Nat) (f : PassFrame)
  /-- a fronthaul Ethernet frame on a port -/
  | ethernet (port : Nat) (bytes : List Byte)
  /-- bytes on the Lantern UART (R538) -/
  | uart (bytes : List Byte)
  /-- an energy impulse (R496) -/
  | pulse
  /-- bits shifted out on JTAG_TDO (R536) -/
  | tdo (bits : List Bool)
deriving DecidableEq, Repr

/-! ### Budgets and credits (file 02) -/

/-- A grain that waits at its gate (R44, R45). -/
structure Waiting where
  gate   : Gate
  tent   : Nat
  qty    : Nat
  /-- it waits for current credits and not for pitch -/
  credit : Bool
  /-- frame boundaries met while waiting (R45) -/
  met    : Nat := 0
  /-- the job it waits for, named by that job's own gate, where it waits at another gate -/
  job    : Option Gate := none
deriving DecidableEq, Repr

/-- A request at the current arbiter (R52, R53). -/
structure CreditReq where
  who    : Asker
  group  : Nat
  step   : Nat
  /-- times a later request was granted before it (R53) -/
  passed : Nat := 0
deriving DecidableEq, Repr

structure Budgets where
  /-- base quantities leased in the current frame by Tent and class (R41) -/
  used     : Tab (Nat × Nat) Nat := []
  /-- the pitches in force in the current frame (R40); unlisted: the reset pitch -/
  pitch    : Tab (Nat × Nat) Nat := []
  /-- the frame length in force (R35) -/
  frameLen : Nat := 1
  /-- frame boundaries since reset, not wrapped -/
  frame    : Nat := 0
  /-- the last boundary each gate has seen (R37) -/
  seen     : Tab Gate Nat := []
  /-- leases a gate holds for a Tent: frame they belong to and base quantity left (R41) -/
  leases   : Tab (Gate × Nat) (List (Nat × Nat)) := []
  /-- the Tent a gate served last (R43) -/
  served   : Tab Gate Nat := []
  /-- waiting grains, oldest first -/
  waiting  : List Waiting := []
  /-- waiting credit requests in order of arrival (R53) -/
  requests : List CreditReq := []
  /-- ramp allowance of a group in hundredths of a credit (R54); unlisted: full -/
  ramp     : Tab Nat Int := []
  /-- Dales, 64-site reading steps and other units a cut has chosen (R56) -/
  shed     : List Asker := []
  /-- the arbiter's last answer to a unit: OK for a grant, or CREDIT_DENIED (R52, R57) -/
  answers  : Tab Asker Nat := []
deriving DecidableEq, Repr

/-! ### Commands and the link (file 13) -/

/-- An MP-path command that waits in its Tent's queue (R418). -/
structure MpItem where
  op  : Nat
  cmd : Cmd
  /-- what the operation will measure, where it measures (the command row's operands) -/
  meas : List Int := []
deriving DecidableEq, Repr

/-- A host read that waits for its answer (R433). -/
structure HostRead where
  tag  : Nat
  tent : Nat
  addr : Nat
  len  : Nat
  /-- the slot and shard it fetches, and the offset in the payload -/
  slot : Nat
  shard : Nat
  off  : Nat
deriving DecidableEq, Repr

/-- A DATA flit in the replay buffer with how often it was sent again (R408, R409). -/
structure Held where
  flit  : Flit
  again : Nat := 0
deriving DecidableEq, Repr

/-- The device's end of the Azral link (R404 to R411). -/
structure Link where
  /-- seq of the next DATA flit it sends -/
  txSeq    : Nat := 0
  replay   : List Held := []
  /-- bytes of the streams of classes 2 and 3 not yet in a flit -/
  tx2      : List Byte := []
  tx3      : List Byte := []
  /-- stream bytes sent since the link came UP, by class 2 and 3 -/
  sent2    : Nat := 0
  sent3    : Nat := 0
  /-- the far end's limits and cumulative credits of classes 2 and 3, in units of 64 bytes -/
  limit2   : Nat := 0
  limit3   : Nat := 0
  credit2  : Nat := 0
  credit3  : Nat := 0
  /-- seq of the last DATA flit accepted -/
  rxSeq    : Nat := 4095
  /-- a discarded flit is awaited: RETRY repeats (R407) -/
  retrying : Bool := false
  /-- partial packets of classes 0 and 1, and stream bytes received since the link came UP -/
  rx0      : List Byte := []
  rx1      : List Byte := []
  got0     : Nat := 0
  got1     : Nat := 0
  /-- whole packets of classes 0 and 1 received and not yet served, oldest first -/
  packets  : List (List Byte) := []
deriving DecidableEq, Repr

/-! ### Dales (file 04) -/

/-- A queued Dale job (R136, R138, R424): the Tent and tag it runs for, whether a completion message
was asked for, where the completion record goes, and the 16 descriptor words. -/
structure DaleJob where
  tent   : Nat
  tag    : BitVec 16 := 0
  msgcpl : Bool := false
  compl  : Option Nat := none
  desc   : List Word
deriving DecidableEq, Repr

/-- A tile of weights (R114): the bytes in memory order, the mode, the weight scale (SC16), and the
epoch and index DALE_TILE shows; `addr` is the address an absolute tile came from. -/
structure Tile where
  bytes : List Byte
  wmode : Nat
  sw    : Nat
  epoch : Nat := 0
  index : Nat := 0xFFFF
  addr  : Nat := 0
deriving DecidableEq, Repr

/-- A row accumulated and aligned under R121 that has not reached the requantiser (R98, R141). -/
structure AccRow where
  row     : Nat
  vals    : List Int
  gRow    : Nat
  floorF  : Rat2
  scale   : Nat
  /-- the weight scale of the tile it ran on (R88) -/
  sw      : Nat := 0
  seeded  : Bool
  clipped : Bool
deriving DecidableEq, Repr

/-- What a running Dale job still waits for. -/
inductive DalePhase where
  /-- its credit step (R52, R135) -/
  | credit
  /-- reload, colour change or lock before its next batch (R131, R133) -/
  | prepare
  /-- a batch is on the light -/
  | batch
  /-- its end is decided and JOB_COMPLETE is to come -/
  | ended
deriving DecidableEq, Repr

/-- The running job of a Dale. -/
structure DaleRun where
  job       : DaleJob
  phase     : DalePhase
  /-- first row of the next batch; rows of the batch on the light; its prefix in symbols -/
  row       : Nat := 0
  rows      : Nat := 0
  prefixed  : Nat := 0
  /-- scale records of the rows on the light, as they were checked (R76, R141) -/
  recs      : List Nat := []
  /-- rows done with, that is written, in order (the first row not written) -/
  written   : Nat := 0
  /-- rows accumulated and waiting for their side sums -/
  acc       : List AccRow := []
  /-- the job waits for lock since it came to the head (R131) -/
  lockWait  : Bool := true
  /-- the job-start tag was accepted; the frame in which the last tag was accepted; the row after it -/
  tagged    : Bool := false
  tagFrame  : Nat := 0
  tagRow    : Nat := 0
  /-- one tracker per logical column (R213) and the seeds in units of 2^-16 (R82) -/
  trackers  : List Tracker := []
  seeds     : List Nat := []
  /-- the epoch its last batch runs on, 0 for an absolute tile (R351, R427) -/
  epoch     : Nat := 0
  slot      : Nat := 3
  sse       : Nat := 0
  cnt       : Nat := 0
  /-- sse and cnt have stopped (R104) -/
  stopped   : Bool := false
  ovr       : Nat := 0
  discards  : Nat := 0
  suspect   : Option Nat := none
  newEpoch  : Option Nat := none
  badTag    : Option Nat := none
  reloads   : Nat := 0
  /-- first row and sample-clock time of the end of every ended batch, newest first (R132) -/
  ended     : List (Nat × Nat) := []
  /-- the first row not written and the status that stopped it (R142) -/
  stop      : Option (Nat × Nat) := none
  /-- its bank is bound to it and on its way to its line (R111, R113) -/
  bound     : Bool := false
  /-- a reload it needs has not begun (R133, R361) -/
  needTile  : Bool := false
  /-- the direction was switched for this job: every receiver's range counts as changed (R122) -/
  switched  : Bool := false
  /-- rows of a batch an intrusion has discarded, to be issued again (R128) -/
  intruded  : Nat := 0
deriving DecidableEq, Repr

/-- The rotation of a Dale's calibration column (R281): what its next step is. -/
inductive RotStep where
  /-- the column in calibration is to be measured (steps 2 to 5) -/
  | measure
  /-- its columns are to be staged, or staged again (step 6, R229) -/
  | stage
  /-- staged: the column strobe is due (step 7) -/
  | strobe
  /-- strobed: the receiver comparison and the swap are due (steps 9 and 10) -/
  | compare
deriving DecidableEq, Repr

structure Rot where
  next  : RotStep := .measure
  /-- codes staged for the columns of the step (R229) -/
  codes : Tab Nat Nat := []
  /-- a written park_col that takes effect at the next step (R280) -/
  park  : Option Nat := none
  /-- a cell disagreed in this step (R298) -/
  bad   : Bool := false
  /-- the phase offset that entry 0 of a phase element is referred to: that of the receiver it was formed for, 0 as
  the probe receiver sees it (R278, R280) -/
  folded : Tab Nat Int := []
  /-- over-ranges of the probe receiver in the latest step (R191) -/
  ovr   : Nat := 0
deriving DecidableEq, Repr

/-- A receiver's trims that wait for a batch prefix of 48 symbols (R192, R284): the receiver, what its CAL_RX
word becomes, whether a slice is substituted, and the sample clock when they were decided. -/
structure Subst where
  j     : Nat
  word  : Word
  slice : Bool
  since : Nat
deriving DecidableEq, Repr

structure Dale where
  queue    : List DaleJob := []
  run      : Option DaleRun := none
  /-- Tent of the job that ended last (R137) -/
  lastTent : Nat := 0
  /-- the 4 credits of an active Dale are held (R55) -/
  active   : Bool := false
  tile     : Option Tile := none
  /-- a reload in progress: the tile being staged, and whether its staging is complete (R133) -/
  staging  : Option Tile := none
  staged   : Bool := false
  /-- the heater settle after a strobe runs (R133) -/
  settling : Bool := false
  /-- live and staging hold cells of element e: its code in [13:0] and its range in [14] (R225, R226) -/
  live     : Tab Nat Nat := []
  stage    : Tab Nat Nat := []
  /-- slew mode ramps a staged tile still to be applied (R227) -/
  ramping  : Bool := false
  /-- slew-limited mode as of its last reload (R237) -/
  slew     : Bool := false
  /-- pre-compensation as of its last reload (R237) -/
  xt       : Bool := true
  rot      : Rot := {}
  /-- the effective owner of R347 is in DALE_CTL; an ownership change waits while this holds one -/
  newOwner : Option Nat := none
  /-- drained (R520), or it feeds through a failed channel (R29) -/
  drained  : Bool := false
  /-- symbols issued since reset (DALE_SYMBOLS counts units of 4,096) -/
  symbols  : Nat := 0
  /-- trims that wait for a batch prefix of 48 symbols -/
  subst    : List Subst := []
deriving DecidableEq, Repr

/-- A feeder bank beside its VALE_BANK register (R111 to R113, R146). -/
structure Bank where
  /-- an owner written and not yet in effect -/
  newOwner : Option Nat := none
  /-- the Dale whose job it carries -/
  carries  : Option Nat := none
  /-- a tag loss waits for a report (R270) -/
  lossWait : Bool := false
  /-- swing and bias in force, in the places of DRV_BANK (R234) -/
  drive    : Nat := 0x8096
  /-- a selector calibration runs on it (R289) -/
  calRun   : Bool := false
  /-- a ratio to take effect at its next LINE STEP (R289) -/
  newRatio : Option Nat := none
deriving DecidableEq, Repr

/-! ### Monitor and housekeeping converters (file 06) -/

/-- Who asked for an injected conversion (R206). -/
inductive InjFrom where
  | host
  | cmd (c : Cmd)
  /-- the Guyline engine, for loop `n` of the same Vale -/
  | loop (n : Nat)
deriving DecidableEq, Repr

structure Inj where
  req : Word
  who : InjFrom
deriving DecidableEq, Repr

/-- What a logical monitor ADC converts (R199, R206, R208). -/
inductive AdcRun where
  | idle
  /-- a table entry with the fields it started with; `drop`: its output is discarded (R205) -/
  | entry (e : Nat) (word : Word) (drop : Bool)
  /-- the entry waits for its trigger (R203); its fields are those it has when it starts (R205) -/
  | trig (e : Nat)
  | inj (i : Inj)
  | cal (req : Word)
deriving DecidableEq, Repr

structure Adc where
  run       : AdcRun := .idle
  queue     : List Inj := []
  cal       : Option Word := none
  /-- the entry to start next -/
  next      : Nat := 0
  /-- a halt write has arrived (R199) -/
  halting   : Bool := false
  /-- entries whose averaging length changed since their last output (R205) -/
  avgNew    : List Nat := []
  /-- the move of R195 waits for the end of the running conversion -/
  moving    : Bool := false
  /-- starts of its table, which begin the sequence numbers anew -/
  goes      : Nat := 0
  /-- discard conversions of what it runs, not yet counted (R200) -/
  disc      : Nat := 0
  /-- counts of the sample clock at which what it runs, or its wait for a trigger, began and at which its last
  conversion ended (R203) -/
  began     : Nat := 0
  freed     : Nat := 0
  /-- an abandoned table entry restarts, a halt notwithstanding (R199, R207) -/
  redo      : Bool := false
  /-- Guyline requests that wait in the engine for a place in the queue (R206) -/
  held      : List Inj := []
deriving DecidableEq, Repr

/-- Device states (R461). -/
inductive DevState where
  | off | lantern | starting | service | hold
deriving DecidableEq, Repr

/-! ### Radio timing (file 12) -/

/-- The radio timing island beside its registers (R36, R380 to R384), the fronthaul and the sections to
send (R373 to R389). -/
structure Radio where
  /-- slot ticks and free-running ticks since reset (R384, GETS selector 3) -/
  slots      : Nat := 0
  /-- numerology in force (R382) -/
  numerology : Nat := 1
  /-- the SFN written, for the next 1PPS edge; time and SFN of the last edge (R381) -/
  sfnSet     : Option Nat := none
  pps        : Option (Nat × Nat) := none
  /-- eAxC entries and FH_WIN in force where written ones wait for the next tick (R374, R389) -/
  eaxcOld    : Tab Nat (Word × Word) := []
  winOld     : Option Word := none
  /-- accepted section records: slot count and the four words (R386) -/
  recs       : List (Nat × List Word) := []
  /-- eCPRI sequence of C-plane and of U-plane messages of an eAxC, PTP sequence -/
  seqC       : Tab Nat Nat := []
  seqU       : Tab Nat Nat := []
  seqPtp     : Nat := 0
deriving DecidableEq, Repr

/-! ### The coders (R391 to R401) -/

/-- An entry of the HARQ directory (R397, R398). -/
structure Harq where
  valid : Bool := false
  ndi   : Bool := false
  tent  : Nat := 0
  rnti  : Nat := 0
  proc  : Nat := 0
  rv    : Nat := 0
  tx    : Nat := 0
  bytes : Nat := 0
  tbs   : Nat := 0
  g     : Nat := 0
  busy  : Bool := false
  /-- an invalidation waits until it is not busy -/
  clear : Bool := false
deriving DecidableEq, Repr

/-- A coder descriptor queued or running (R391, R396). -/
structure CoderJob where
  id      : Nat
  tent    : Nat
  tag     : BitVec 16 := 0
  msgcpl  : Bool := false
  desc    : List Word
  /-- code blocks started; those running with the frame that admitted them; those ended -/
  started : Nat := 0
  running : List (Nat × Nat) := []
  ended   : List Nat := []
  iters   : Nat := 0
  okBlocks : Nat := 0
  failed  : Option Nat := none
  /-- what ended it early -/
  status  : Option Nat := none
  /-- report flags of byte 9 -/
  flags   : Nat := 0
  /-- the soft values it decodes, or the data it encodes -/
  soft    : List Int := []
  tx      : Nat := 1
deriving DecidableEq, Repr

/-! ### Drive and Guyline (files 07 and 08) -/

/-- A direct channel beside its DRV_CH register (R221, R222, R238, R240). -/
structure Chan where
  /-- its code without the tone: a step of the ramp where it slews -/
  base    : Nat := 0
  /-- the code the output current stands for, tone included, in LSB of the present range -/
  out     : Nat := 0
  /-- the newest code given to the DAC, tone included: the one a hold releases to (R221) -/
  given   : Nat := 0
  /-- a major-transition hold runs (R221) -/
  held    : Bool := false
  /-- a range change runs (R222): the current it started from, in units of I_FS(low) / 2^16 -/
  ranging : Option Nat := none
  /-- the range in force at the output -/
  range   : Nat := 0
  /-- what its tone adds (R240) -/
  tone    : Int := 0
deriving DecidableEq, Repr

/-- A Guyline loop beside its GUY_LOOP, GUY_COEF and GUY_LSTATE registers. -/
structure Loop where
  /-- the entry in force; a written one takes effect at the next tick (R251) -/
  entry    : List Word := []
  /-- stage 0 state (the integrator) and x1, x2, y1, y2 of stages 1 to 3 (R253) -/
  integ    : Bfp := { ms := [0], e := 0 }
  stages   : List Bfp := []
  /-- the error output taken at the last tick: its entry, the table start and the seq (R248) -/
  lastSeq  : Option (Nat × Nat × Nat) := none
  pAcq     : Nat := 0
  /-- consecutive ticks inside the lock window, and with the wrong sign (R263, R271) -/
  good     : Nat := 0
  wrong    : Nat := 0
  /-- ticks since SETTLE was entered -/
  settled  : Nat := 0
  /-- a SETTLE has been entered since the last SEARCH: the 2 ms of R258 run -/
  timing   : Bool := false
  /-- forecast of the node and its reference in 1/64 °C (R267) -/
  forecast : Int := 0
  tRef     : Int := 0
  /-- SEARCH: inside a passband, its peak level and power, the line of the next passband, lines
  recorded in this sweep; best point of a ring or LO sweep (R260 to R262) -/
  inBand   : Bool := false
  peakLvl  : Int := 0
  peakP    : Nat := 0
  nextLine : Option Nat := none
  swept    : List Nat := []
  best     : Option (Nat × Nat) := none
  /-- the latest output of a conversion it has asked for (R206) -/
  delivered : Option Int := none
  /-- reference of each recorded line of a selector's line table (R267) -/
  lineRef  : Tab Nat Int := []
  /-- the entry was written since the last tick (R251) -/
  fresh    : Bool := false
  /-- the law is to be preloaded at the next non-stale tick (R257, R258) -/
  load     : Bool := false
  /-- rings that a LINE STEP took from TRACK to HOLD (R268) -/
  parked   : Bool := false
  /-- a coefficient swap found sat set: the output stays at the clamp until the error changes sign (R266) -/
  pinned   : Bool := false
deriving DecidableEq, Repr

/-- The test signal of a Vale (R272). -/
structure LoopTest where
  lfsr  : Nat := 0x7FFF
  phase : Nat := 0
  ticks : Nat := 0
deriving DecidableEq, Repr

/-! ### Weight sets (file 11) -/

/-- A shard descriptor of a manifest (R354). -/
structure Shard where
  target : Nat
  index  : Nat
  count  : Nat
  vale   : Nat
  enc    : Nat
  wmode  : Nat
  scale  : Nat
  seeds  : List Byte
  soff   : Nat
  /-- src names the host and not device memory -/
  host   : Bool
  src    : Nat
  len    : Nat
  hash   : List Byte
  bcast  : Option Nat
deriving DecidableEq, Repr

/-- Where a shard of a load stands (R362, R363, R358). -/
inductive ShardSt where
  | idle
  | fetch
  /-- a receiver waits for the broadcast copy -/
  | bcast
  /-- its site is being programmed -/
  | placing
  | placed
deriving DecidableEq, Repr

/-- A weight-set slot beside its WSET_SLOT registers. -/
structure WSlot where
  /-- base of the tier region with the tile table (R359), and the number of tiles -/
  tier   : Nat := 0
  tiles  : Nat := 0
  /-- words 4 to 15 of the load: the Vale SRAM regions (R426) -/
  vales  : List Nat := []
  /-- name and image hashes of the manifest, and its key 7: tol and the vectors (R354, R511) -/
  name   : List Byte := []
  images : List (List Byte) := []
  fprint : Option (Nat × List (List Byte)) := none
  role   : Nat := 0
  shards : List Shard := []
  /-- shards past `idle`, fetches made, and pieces of payload that have arrived: offset and bytes -/
  st     : Tab Nat ShardSt := []
  tries  : Tab Nat Nat := []
  parts  : Tab Nat (List (Nat × List Byte)) := []
  /-- the WSET_LOAD to answer, and the WSET_RELEASE commands that wait for EMPTY -/
  cmd    : Option Cmd := none
  releases : List Cmd := []
  /-- logical sites of the set, and those whose fingerprint has passed (R513) -/
  sites  : List Nat := []
  passed : List Nat := []
deriving DecidableEq, Repr

/-! ### Tents and site program images (files 10 and 11) -/

/-- An entry of a launch table (R337). -/
structure LaunchEntry where
  rank    : Nat
  thread  : Nat
  trigger : Nat
  pc      : Nat
  arg     : Word
  index   : Nat
deriving DecidableEq, Repr

/-- A long command of a Tent that waits for assignments or for quiescence: the units it waits for. -/
structure TentWait where
  op    : Nat
  cmd   : Cmd
  units : List Nat
deriving DecidableEq, Repr

/-- What a Tent holds beside its registers. -/
structure Tent where
  /-- launch tables of its images in load order, and the SHA3-256 of every image loaded (R339, R383) -/
  launch : List LaunchEntry := []
  images : List (List Byte) := []
  /-- publisher key pairs: slot and 1,984 bytes (R353, R508) -/
  keys   : Tab Nat (List Byte) := []
  /-- the epoch counter (R351) -/
  epoch  : Nat := 0
deriving DecidableEq, Repr

/-! ### Passes (file 14) -/

/-- A transmitter lane beside its PASS_TX register. -/
structure Source where
  /-- the PASS_OPEN that waits for lock and the first tag frame (R445) -/
  cmd     : Option Cmd := none
  /-- frames that wait for a lane not locked, oldest first -/
  q       : List PassFrame := []
  /-- a close was accepted: the lane darkens when its frames are sent (R449) -/
  closing : Bool := false
deriving DecidableEq, Repr

/-- A receiver channel beside its PASS_RX register. -/
structure Sink where
  cmd    : Option Cmd := none
  /-- consecutive decodable codewords, whether one held a matching tag, consecutive uncorrectable ones -/
  good   : Nat := 0
  tagged : Bool := false
  bad    : Nat := 0
  /-- it hunts for a header byte by byte (R451) -/
  hunting : Bool := false
deriving DecidableEq, Repr

/-- Who waits for the answer to a frame this module sent (R456). -/
inductive RemoteWho where
  | thread (h : Hart)
  | mem (op : Nat) (m : Cmd)
deriving DecidableEq, Repr

/-- A remote access (R456): its frame, and whether it has been sent. -/
structure Remote where
  frame : PassFrame
  who   : RemoteWho
  sent  : Bool := false
deriving DecidableEq, Repr

/-- A frame at the PASS gate of a local port (R453). -/
structure PassWait where
  lane  : Nat
  frame : PassFrame
  /-- frame boundaries met while waiting (R45) -/
  met   : Nat := 0
deriving DecidableEq, Repr

/-- Who waits for memory to be served: a request of another module (R457), or MEM_READ or MEM_WRITE (R423). -/
inductive ServeWho where
  | frame (f : PassFrame)
  | cmd (op : Nat) (m : Cmd)
deriving DecidableEq, Repr

/-- A memory access of a request or a command that waits for MEM allowance: local address, length, and the Tent it
is served as. -/
structure Serve where
  who  : ServeWho
  addr : Nat
  len  : Nat
  tent : Nat
  /-- frame boundaries met while waiting (R45) -/
  met  : Nat := 0
deriving DecidableEq, Repr

structure Passes where
  sources : Tab Nat Source := []
  sinks   : Tab Nat Sink := []
  gate    : List PassWait := []
  remotes : List Remote := []
  nextTag : Nat := 0
  /-- route entries written while frames to their module are queued (R454) -/
  routes  : Tab Nat Word := []
  serves  : List Serve := []
deriving DecidableEq, Repr

/-! ### Configuration store, firmware, start-up, drain (file 17) -/

/-- What the store keeps of a slot (R499). -/
structure SlotItem where
  state   : Nat
  epoch   : Nat
  hash    : List Word
  sites   : Nat
  restorable : Bool
  fprint  : Bool
deriving DecidableEq, Repr

/-- The record set of one bank of the configuration store (R499, R500). -/
structure StoreBank where
  seq   : Nat := 0
  regs  : Tab Reg Word := []
  keys  : Tab (Nat × Nat) (List Byte) := []
  epochs : Tab Nat Nat := []
  slots : Tab (Nat × Nat) SlotItem := []
  minVersion : Nat := 0
  active : Nat := 0
  trial : Bool := false
deriving DecidableEq, Repr

/-- An MP firmware slot (R503): the image it holds, none where it is not valid. -/
structure Firmware where
  image : Option (List Byte) := none
deriving DecidableEq, Repr

/-- A drain in progress or done (R520, R521): its commands, and whether its end has been reached. -/
structure Drain where
  cmds : List Cmd := []
  done : Bool := false
  /-- SYS_RESUME commands that arrived while it ran (R522) -/
  resume : List Cmd := []
  /-- the drain comes from a failed channel (R29) -/
  fault : Bool := false
deriving DecidableEq, Repr

/-- Start-up and shut-down (R461, R463, R514, R515). -/
structure Boot where
  /-- the pins -/
  wake     : Bool := true
  jtagTen  : Bool := false
  /-- this start comes from THERMAL_RELEASE (R516) -/
  release  : Bool := false
  /-- Tents and sets have been restored since power-up (R517) -/
  restored : Bool := false
  /-- calibration of this start: an import has been taken, or the first full pass is done -/
  imported : Bool := false
  passed   : Bool := false
  /-- the wait for an import has ended (R294) -/
  waitOver : Bool := false
  /-- the 10 ms of R463 run -/
  shutting : Bool := false
  /-- the 10 s of R463 run after a stage fault -/
  faultWait : Bool := false
  /-- ticks of the Lantern RTC since the entry to HOLD (R475) -/
  holdTicks : Nat := 0
  /-- the Lantern runs on its backup supply (R462) -/
  backup   : Bool := false
  /-- slot stages of the firmware trial: the FW_SWITCH that runs, with its commit bit (R507) -/
  trial    : Option (Cmd × Bool) := none
  /-- the slot that ran before the trial -/
  before   : Nat := 0
  /-- the FW_SWITCH that waits until the MP has answered every command it took before (R507) -/
  switching : Option Cmd := none
  /-- JTAG_TEN was high at this start: it stopped at step 2 of R515 (R537) -/
  testStop : Bool := false
  /-- Lantern records written since LANT_EV_REC was cleared (R476, R480) -/
  recNew   : Nat := 0
  /-- the boundary latch of the test port, and whether it drives the lands or holds them (R536, R537) -/
  boundary : List Bool := []
  driven   : Nat := 0
deriving DecidableEq, Repr
/-! ### Sites and threads (files 05 and 10) -/

/-- A start that waits in a spawn queue (R329): pc, x1 and x2 of the new thread. -/
structure Start where
  pc  : Nat
  arg : Word
  src : Word
deriving DecidableEq, Repr

/-- What an access of a thread does at the home of its address (R306, R324). -/
inductive AccessKind where
  /-- a load of `n` bytes into x register `rd`, sign-extended or not -/
  | load (rd n : Nat) (sgn : Bool)
  /-- a load of 16 bytes into a vector register -/
  | vload (vd : Nat)
  | store (bytes : List Byte)
  /-- an atomic of `n` bytes with its fn, operand and, for cas, the value compared with -/
  | amo (rd fn n : Nat) (operand cmp : Word)
  /-- a read of a watched word (R330) -/
  | watch
  /-- the fill of an instruction cache line (R319) -/
  | fill
  /-- the record of a SPAWN (R329) whose status `rd` takes -/
  | spawn (rd : Nat)
  /-- the descriptor of a DENQ (R332) whose completion record lies at `compl` -/
  | denq (rd : Nat) (compl : Word)
deriving DecidableEq, Repr

/-- An access a thread has issued and whose home has not answered yet (R314, R315): the address it names, where
that lies, and the Tent it is served as (the same but for an own export window, R312). -/
structure Access where
  kind : AccessKind
  addr : Nat
  len  : Nat
  home : Nat
  tent : Nat
  /-- the tag of its Pass frame, for an export window of another module (R456) -/
  tag  : Option Nat := none
deriving DecidableEq, Repr

/-- What a thread in STALL or WAIT waits for (R302). -/
inductive ThreadWait where
  | none
  /-- CORE or MEM allowance at its next instruction (R44, R306), or a line of its instruction cache (R319) -/
  | issue
  /-- its earlier stores, before an instruction that is a release issues (R317) -/
  | drain
  /-- the answer of its load or atomic, the last access of its list -/
  | memory
  /-- its earlier stores to be performed, or only the remote ones (R315) -/
  | fence (remote : Bool)
  /-- R330: WAITM on a word: the value it must differ from, the word as last read, and whether a time limit runs -/
  | watch (rd addr : Nat) (old last : Word) (timed : Bool)
  /-- R331: TICKW on a slot tick or a frame boundary -/
  | tick (rd : Nat) (frame : Bool)
  /-- R333: its step -/
  | step (rd : Nat)
deriving DecidableEq, Repr

/-- A thread (R300, R302). Registers not listed hold zero. -/
structure Thread where
  state   : Nat := 0
  x       : Tab Nat Word := []
  v       : Tab Nat (BitVec 128) := []
  p       : Tab Nat (BitVec 8) := []
  pc      : Nat := 0
  /-- instructions retired by this thread (GETS selector 7) -/
  retired : Nat := 0
  wait    : ThreadWait := .none
  /-- issued accesses not performed, oldest first -/
  out     : List Access := []
  /-- the address of a remote store that failed after it retired (R456) -/
  late    : Option Nat := none
  /-- a stop was written and takes effect at its next instruction boundary (R321) -/
  stopping : Bool := false
deriving DecidableEq, Repr

/-- One array step in a site's queue (R160, R161), or a context operation that waits for the steps
issued before it (R336). -/
inductive StepItem where
  /-- a step of thread `t` on `vecs` vectors, its record at store offset `base` -/
  | step (t ctx vecs base : Nat)
  | create (ctx : Nat) (cfg : Word)
  | close (ctx : Nat)
deriving DecidableEq, Repr

/-- The step an array runs: the range of every group and the extra phase of R158. -/
structure StepRun where
  ks      : List Nat
  changed : Nat
  /-- the requantiser seed the context loads at its first step (R95, R159) -/
  seed    : Option Word := none
  /-- the scale records of its blocks as they were checked before its first phase, and the first that failed (R76,
  R161) -/
  recs    : List Nat := []
  skew    : Option Nat := none
deriving DecidableEq, Repr

/-- The job of an array context (R159). -/
structure Actx where
  live     : Bool := false
  cfg      : Nat := 0
  trackers : List Tracker := []
  seeds    : List Nat := []
  mask     : List Nat := []
  /-- the epoch of its last step (R161) -/
  epoch    : Nat := 0
  steps    : Nat := 0
  sse      : Nat := 0
  cnt      : Nat := 0
  stopped  : Bool := false
  ovr      : Nat := 0
  disc     : Nat := 0
deriving DecidableEq, Repr

/-- A logical site: what moves with it in a migration (R175). -/
structure Core where
  threads : Tab Nat Thread := []
  spawnq  : List Start := []
  /-- the thread that issued last (R303) -/
  last    : Nat := 7
  ctx     : Tab Nat Actx := []
  steps   : List StepItem := []
  run     : Option StepRun := none
  /-- a written owner that waits under R348 -/
  newOwner : Option Nat := none
deriving DecidableEq, Repr

/-- A physical site's array beside its registers. -/
structure Arr where
  /-- the W5 codes its cells were programmed to, input-major (R163) -/
  codes  : List Byte := []
  /-- the weight scale of its set (R358) and the set's epoch, 0 for none (R348, R364) -/
  sw     : Nat := 0
  epoch  : Nat := 0
  /-- the running means m5 and m10 and their values at the last verify, in units of 2^-32 (R153, R171) -/
  m5     : Nat := 0x55555555
  m10    : Nat := 0xAAAAAAAA
  m50    : Nat := 0x55555555
  m100   : Nat := 0xAAAAAAAA
  /-- rejected phases in a row (R154) -/
  run    : Nat := 0
  /-- the 16 reference phases of R155 are to come -/
  fresh  : Bool := true
  /-- offset of physical ADC `a` at range `k`, and, at key (33 + t, 0), of reference slot `t` (R153, R293) -/
  offs   : Tab (Nat × Nat) Int := []
  /-- cells more than 1.33 µS off at the last check (R172) -/
  far    : List (Nat × Nat) := []
  /-- cells found stuck: row, column (R165, R172) -/
  stuck  : List (Nat × Nat) := []
  /-- the instruction cache of its core: line address and bytes (R319) -/
  icache : List (Nat × List Byte) := []
  /-- its ADC fault found by calibration, to be repaired (R178): the ADC -/
  badAdc : Option Nat := none
  /-- ADC 32 is at fault while it stands by -/
  spareBad : Bool := false
  /-- accepted offset readings, newest first, and failures in a row of an ADC (R293) -/
  offHist : Tab (Nat × Nat) (List Int) := []
  fails  : Tab Nat Nat := []
  /-- the 32 SC16 seeds and 8 mask words its set was programmed with (R354, R513) -/
  seeds  : List Byte := []
  /-- bytes 0 to 31 of its fingerprint record, and the rest of it: vectors with their scale and expected
  outputs, and tol (R512) -/
  hash   : List Byte := []
  prints : List (Nat × List Int) := []
  /-- the vectors those outputs belong to (log entry 54) -/
  vecs   : List (List Byte) := []
  tol    : Nat := 0
  /-- its image has been found present, or missing, since power-up (R518) -/
  present : Bool := false
  missed  : Bool := false
deriving DecidableEq, Repr

/-- Why a site is programmed (R165, R167, R174). -/
inductive ProgFor where
  /-- a weight set: Tent, slot, weight scale, seeds and their store offset (R358) -/
  | set (t slot sw soff : Nat) (seeds : List Byte)
  /-- step 3 of R174 -/
  | refresh
  /-- R176 -/
  | inPlace
  /-- step 7 of R174 -/
  | rewrite
deriving DecidableEq, Repr

/-- A programming operation on a physical site (R165). -/
structure Prog where
  what    : ProgFor
  logical : Nat
  /-- the group in hand, 0 to 33,279: 65 groups of 8 cells in each of 512 rows -/
  group   : Nat := 0
  /-- iterations of the group done, and the pulse step of each of its cells -/
  iters   : Nat := 0
  v       : List Nat := [0, 0, 0, 0, 0, 0, 0, 0]
  pulsed  : Bool := false
  /-- a pulse came outside 10 to 85 °C (R170) -/
  outside : Bool := false
  paused  : Bool := false
  /-- its first pause is recorded (R169) -/
  noted   : Bool := false
  /-- its credit step is granted (R166) -/
  credit  : Bool := false
deriving DecidableEq, Repr

/-- Why a site waits for refresh or repair (R171, R172, R178). -/
inductive RepairFor where
  | refresh
  | stuck (row col : Nat)
  /-- a row driver fault -/
  | row (r : Nat)
  | adc (a : Nat)
  /-- no spare of the kind needed, a fault in core or store, or a worn out site (R178, R179) -/
  | site
deriving DecidableEq, Repr

/-- The refresh or repair a Veld runs (R174). -/
structure Refresh where
  logical : Nat
  why     : RepairFor
  old     : Nat
  /-- the spare being programmed, none in place (R176) -/
  spare   : Option Nat
  /-- the step of R174 it is in -/
  stage   : Nat := 1
deriving DecidableEq, Repr

/-- A check of a site that has begun (R172, R173, R293): the check phases done, and what they have found so far: cells
more than 0.8 µS off with their readings, and offset readings. -/
structure CheckRun where
  phases : Nat := 0
  off    : List (Nat × Nat × Nat) := []
  offs   : List (Nat × Nat × Int) := []
deriving DecidableEq, Repr

/-- A Veld beside its registers. -/
structure Veld where
  queue    : List (Nat × RepairFor) := []
  op       : Option Refresh := none
  progs    : Tab Nat Prog := []
  /-- reading steps of 64 sites it holds credits for (R51) -/
  reads    : Nat := 0
  /-- pairs of sites being programmed it holds credits for (R166) -/
  pairs    : Nat := 0
  drained  : Bool := false
  /-- the check of check_site that runs -/
  check    : Option CheckRun := none
deriving DecidableEq, Repr


/-! ### Calibration of a Vale (file 09) -/

/-- The calibration of a monitor ADC that runs (R292): the physical ADC, the logical ADC its conversions run
on, and the results so far: zero and reference of gain 0, then of gain 1, and so on. -/
structure AdcCal where
  phys    : Nat
  logical : Nat
  results : List Int := []
  /-- samples over range (R189) -/
  ovr     : Nat := 0
deriving DecidableEq, Repr

structure ValeCal where
  adc   : Option AdcCal := none
  /-- failures in a row of a physical ADC (R292) -/
  fails : Tab Nat Nat := []
  /-- a Dale's rotation is held (R287) -/
  held  : Bool := false
deriving DecidableEq, Repr

/-! ### Power and heat (file 15) -/

/-- Rounds in a row in which a rail-current channel read low, over range, or too much power; and plausible
rounds in a row (R470). -/
structure Rail where
  low  : Nat := 0
  short : Nat := 0
  high : Nat := 0
  good : Nat := 0
deriving DecidableEq, Repr

structure Heat where
  /-- the first round has set every node to its forecast (R469) -/
  ran    : Bool := false
  /-- credits granted to a group since the round (R468) -/
  grants : Tab Nat Nat := []
  /-- power of a unit at the latest round in 10 mW (R468) -/
  power  : Tab Nat Nat := []
  rails  : Tab Nat Rail := []
  /-- good rounds in a row of the thermistor while it is at fault (R471) -/
  cool   : Nat := 0
deriving DecidableEq, Repr

/-! ### The Cairn (file 16) -/

/-- An activity frame as the Cairn keeps it (R485): sequence number, boot count, Lantern stamp, the 512
counts, and the Cairn time of its arrival. -/
structure ActFrame where
  seq    : Nat
  boot   : Nat
  stamp  : Nat
  counts : List Nat
  time   : Nat
deriving DecidableEq, Repr

/-- A billing record up to its signatures (R489). -/
structure CairnRec where
  num     : Nat
  start   : Nat
  length  : Nat
  flags   : Nat
  total   : Nat
  energy  : Nat
  unalloc : Nat
  tents   : List Nat
  prev    : List Byte
  event   : Nat
  /-- SHA3-256 of the interval's event entries; empty where there are none -/
  events  : List Byte
deriving DecidableEq, Repr

/-- An event entry (R493). -/
structure CairnEvt where
  num    : Nat
  time   : Nat
  code   : Nat
  before : Nat
  after  : Nat
deriving DecidableEq, Repr

structure Cairn where
  /-- the input exceeds 20 V (R482) -/
  input   : Bool := true
  /-- UTC seconds, and whether they are valid (R492) -/
  time    : Nat := 0
  valid   : Bool := true
  /-- the energy accumulator in µJ, its value at the last close, and the remainder carried (R483, R486) -/
  energy  : Nat := 0
  closed  : Nat := 0
  carry   : Nat := 0
  /-- start of the running interval; it is partial (R488) -/
  start   : Nat := 0
  partly  : Bool := false
  /-- the last valid frame, a frame has come in the interval, and the counts at the previous close -/
  frame   : Option ActFrame := none
  fresh   : Bool := false
  base    : List Int := []
  /-- the counts were rebased in the interval (flag 4), the clock stepped, or set from invalid -/
  rebased : Bool := false
  stepped : Bool := false
  clockSet : Bool := false
  /-- times of the last step and of the last event 4 -/
  stepAt  : Option Nat := none
  evt4At  : Option Nat := none
  disagree : Bool := false
  /-- the activity link: no valid frame for 100 ms (R493), and the last sequence number then -/
  linkLost : Bool := false
  lostSeq : Nat := 0
  /-- an overload runs, or began or ran in the interval -/
  overload : Bool := false
  overSeen : Bool := false
  sealBroken : Bool := false
  fault   : Bool := false
  /-- records held, oldest first, and the number of the next -/
  recs    : List CairnRec := []
  nextRec : Nat := 0
  /-- events held, oldest first, the number of the next, and the entries of the running interval as bytes -/
  evts    : List CairnEvt := []
  nextEvt : Nat := 0
  intEvts : List Byte := []
  /-- impulses given (R496) -/
  pulses  : Nat := 0
  /-- voltage in 10 mV, current in mA, power in W as last measured -/
  volts   : Nat := 0
  amps    : Nat := 0
  watts   : Nat := 0
deriving DecidableEq, Repr

/-! ### The whole device -/

/-- Everything but the Cairn and the queue of commands. -/
structure Chip where
  /-- the device state of R461 -/
  device  : DevState := .starting
  /-- register words that differ from their reset value or were written; the rest read as reset -/
  regs    : Tab Reg Word := []
  /-- event flag registers an event has reached since their last read (R33) -/
  marks   : List Reg := []
  /-- GDDR7, site stores, Vale SRAM and Basecamp SRAM (R22), in canonical form -/
  mem     : List Host.Cell := []
  outs    : List Out := []
  /-- the model's own counter of free values taken (not the spec's) -/
  free    : Nat := 0
  /-- power-ups so far: the Lantern RTC a generator is seeded from differs at each (R95) -/
  boots   : Nat := 0
  gens    : Tab GenId Gen := []
  /-- cycle counter of the Guyline sample clock (R204) -/
  gclk    : Nat := 0
  bud     : Budgets := {}
  msgs    : Tab Nat MsgQ := []
  mpq     : Tab Nat (List MpItem) := []
  /-- MP-path commands taken from their queue and not finally answered (R419) -/
  longs   : List MpItem := []
  link    : Link := {}
  reads   : List HostRead := []
  dales   : Tab Nat Dale := []
  banks   : Tab (Nat × Nat) Bank := []
  adcs    : Tab (Nat × Nat) Adc := []
  /-- gain of the previous conversion on a physical monitor ADC (R200) -/
  adcGain : Tab (Nat × Nat) Nat := []
  /-- ceilings a cut has lowered, by consumer group (R470, R472); none: the configured ceiling -/
  throttle : Tab Nat (Option Nat) := []
  chans   : Tab (Nat × Nat) Chan := []
  /-- the selection of units each DAC works with, since the last change of its t; unlisted: the one of reset (R219) -/
  units   : Tab (Nat × Nat) Word := []
  /-- phase accumulators of the tone generators (R239) -/
  tones   : Tab (Nat × Nat) Nat := []
  loops   : Tab (Nat × Nat) Loop := []
  tests   : Tab Nat LoopTest := []
  /-- count and index of the loop of a Vale computed last (R247) -/
  ticked  : Tab Nat (Option (Nat × Nat)) := []
  /-- the direct DAC that a spare, 1,918 or 1,919, stands in for (R243, R276) -/
  spareFor : Tab (Nat × Nat) (Option Nat) := []
  /-- entries still to write after a capture's trigger (R273) -/
  capLeft : Tab Nat Nat := []
  /-- seed halves waiting for the next count of the sample clock (R255) -/
  guySeed : Tab Nat Word := []
  /-- monitor and housekeeping trackers that hold an output since their last clear (R213) -/
  trkLive : List Reg := []
  /-- housekeeping entries whose averaging length changed since their last output (R205) -/
  hkAvgNew : List Nat := []
  /-- tone generators to start from 0 at the next cycle (R240) -/
  toneStart : List (Nat × Nat) := []
  /-- what the phase accumulator of a tone generator did last, newest first: from a count of the sample clock on it
  went from a value by a step a cycle (R201, R239) -/
  toneLog : Tab (Nat × Nat) (List (Nat × Nat × Nat)) := []
  /-- the CONV_TRIG word in force until the next tick of the old setting (R204), unlisted: the register -/
  trigOld : Tab (Nat × Nat) Word := []
  /-- DRV_PAIR link bits in force while a Dale of the pair is not idle (R230) -/
  pairLink : Tab (Nat × Nat) Bool := []
  slots   : Tab (Nat × Nat) WSlot := []
  radio   : Radio := {}
  /-- the record stores of the Velds as they were saved last (R181), and whether STARTING has loaded them -/
  recs    : Tab Reg Word := []
  loaded  : Bool := false
  cores   : Tab Nat Core := []
  arrs    : Tab (Nat × Nat) Arr := []
  velds   : Tab Nat Veld := []
  tents   : Tab Nat Tent := []
  tentWaits : List TentWait := []
  passes  : Passes := {}
  /-- the two banks of the configuration store, and which is current (R500) -/
  bankA   : StoreBank := {}
  bankB   : StoreBank := {}
  current : Nat := 0
  fws     : Tab Nat Firmware := []
  rollback : Nat := 0
  drains  : Tab (Nat × Nat) Drain := []
  boot    : Boot := {}
  /-- coder descriptors of all Tents in order of arrival, and the id of the next -/
  coderJobs : List CoderJob := []
  coderNext : Nat := 0
  /-- DEC_SUBMIT writes whose descriptor is still to be read: Tent and address (R391, R38) -/
  submits : List (Nat × Nat) := []
  harqs   : Tab Nat Harq := []
  /-- writes of DEC_HARQ_CFG whose ranges, old and new as first and count, are still to be invalidated (R397) -/
  sweeps  : List (List (Nat × Nat)) := []
  /-- LDPC decoder cores and encoders that hold their credits (R51) -/
  decCredit : Nat := 0
  encCredit : Nat := 0
  /-- the Tent whose message was sent last (R431) -/
  msgLast : Nat := 63
  valeCals : Tab Nat ValeCal := []
  /-- offset and gain trims of a housekeeping converter at gain ×1 or ×4 (R276, R295), unlisted: 0 and 1.0,
  and the stamp of their last calibration -/
  hkTrims : Tab (Nat × Nat) (Nat × Nat) := []
  hkStamp : Word := 0
  heat    : Heat := {}
  /-- base quantities charged to a Tent and class since power-up (R485), frames sent, and the cursors of the
  next: first record and event and how many -/
  act     : Tab (Nat × Nat) Nat := []
  actSeq  : Nat := 0
  cursors : (Nat × Nat) × (Nat × Nat) := ((0, 0), (0, 0))
deriving DecidableEq, Repr

/-- The state of the block: the commands that wait, first in, first out, the device and the Cairn,
which measures and records on its own (R481). -/
structure State where
  pending : List Instr := []
  chip    : Chip := {}
  cairn   : Cairn := {}
deriving DecidableEq, Repr

/-- The machine right after reset: in STARTING (SYS_STATE reads 2), every register at its reset value,
memory with nothing listed, no command waiting. -/
def State.reset : State := {}

/-- What stops a step. -/
inductive Fault where
  /-- Raised by a command whose unit index lies outside the extents of R16 and R17 (a Vale above 11, a
  site above 27,647): no such unit exists. Safe: the model stops where no device could act. -/
  | noSuchUnit
deriving DecidableEq, Repr

/-- Why a command has no outcome. -/
inductive Refusal where
  /-- A command of the table without a meaning in this model. Safe. -/
  | notModelled (mnemonic : String)
deriving DecidableEq, Repr

end Sys2Proof.Machine
end

