-- ==== Sys2Proof/Machine/LinkOps.lean ====
section
/-!
DEFINITION. Sys2Proof/Machine/LinkOps.lean: what the device's end of the Azral link does on its own (R405 to
R412): packets as bytes, flits, their CRC, and the sending of stream bytes while credit and replay buffer
allow.
-/

namespace Sys2Proof

/-! ### CRC-32 of IEEE 802.3 (R406) -/

def crcBit (c : BitVec 32) : BitVec 32 := if c.getLsbD 0 then (c >>> 1) ^^^ 0xEDB88320 else c >>> 1

def crcByte (c : BitVec 32) (b : Byte) : BitVec 32 :=
  (List.range 8).foldl (fun c _ => crcBit c) (c ^^^ b.setWidth 32)

def crc32 (bs : List Byte) : Nat := (~~~ (bs.foldl crcByte 0xFFFFFFFF)).toNat

end Sys2Proof

namespace Sys2Proof.Machine

/-! ### Packets (R412, R414, R429, R433) -/

/-- A packet: opcode, Tent, flags, tag, first parameter, words. -/
def packetBytes (op tent flags tag param : Nat) (words : List Word) : List Byte :=
  leBytes 2 op ++ leBytes 1 tent ++ leBytes 1 flags ++ leBytes 2 tag ++ leBytes 2 words.length ++ leBytes 8 param ++
    words.flatMap fun w => leBytes 8 w.toNat

/-- Bytes padded with zeros to whole words. -/
def padWord (bs : List Byte) : List Byte := bs ++ List.replicate ((8 - bs.length % 8) % 8) 0

def messageBytes (tent kind seq : Nat) (body : List Byte) : List Byte :=
  let pad := padWord body
  leBytes 2 0x0F01 ++ leBytes 1 tent ++ leBytes 1 0 ++ leBytes 2 0 ++ leBytes 2 (pad.length / 8) ++
    leBytes 8 (kind % 256 + body.length % 2 ^ 24 * 2 ^ 8 + seq % 2 ^ 32 * 2 ^ 32) ++ pad

def replyBytes (r : Reply) : List Byte :=
  packetBytes r.op r.tent r.final.toNat r.tag.toNat (r.status + r.detail * 256) r.words

/-! ### Flits (R405) -/

/-- Bytes 0 to 251 of a flit. -/
def Flit.body (f : Flit) : List Byte :=
  leBytes 2 (f.seq % 4096 + f.cls * 4096 + f.ftype * 16384) ++ leBytes 2 (f.ack % 4096) ++ leBytes 2 f.credLo ++
    leBytes 2 f.credHi ++ leBytes 1 f.payload.length ++ f.payload ++ List.replicate (243 - f.payload.length) 0

/-- The 256 bytes of a flit. -/
def Flit.toBytes (f : Flit) : List Byte := f.body ++ leBytes 4 (crc32 f.body)

/-- A received flit, none where its CRC fails (R406). -/
def Flit.ofBytes (bs : List Byte) : Option Flit :=
  let n (k len : Nat) : Nat := leNat ((bs.drop k).take len)
  if bs.length ≠ 256 ∨ n 252 4 ≠ crc32 (bs.take 252) then none
  else some { ftype := bitsOf (n 0 2) 15 14, cls := bitsOf (n 0 2) 13 12, seq := bitsOf (n 0 2) 11 0,
              ack := bitsOf (n 2 2) 11 0, credLo := n 4 2, credHi := n 6 2, payload := (bs.drop 9).take (min (n 8 1) 243) }

/-! ### Streams and credits (R411) -/

/-- Bytes of a packet from its first 8. -/
def packetLen (bs : List Byte) : Nat := 16 + 8 * leNat ((bs.drop 6).take 2)

/-- Bytes of a partial packet that hold buffer space: what lies beyond 2,048 words is dropped as it comes
(R412). -/
def heldBytes (bs : List Byte) : Nat :=
  if 8 ≤ bs.length ∧ 16 + 8 * 2048 < packetLen bs then 0 else bs.length

/-- Units freed of a class of commands or host-read data. -/
def freedUnits (got : Nat) (part : List Byte) : Nat := (got - heldBytes part) / 64

/-- Every flit carries the current ack and credits (R407, R411). -/
def Link.stamp (l : Link) (f : Flit) : Flit :=
  { f with ack := l.rxSeq, credLo := freedUnits l.got0 l.rx0 % 65536, credHi := freedUnits l.got1 l.rx1 % 65536 }

/-- Bytes of a class that may be sent now. -/
def allowedBytes (limit credit sent : Nat) : Nat := 64 * (limit + credit) - sent

/-- R408, R411: the next DATA flit, of class 2 before class 3, while the replay buffer has room. -/
def Link.next (l : Link) : Option (Link × Flit) :=
  if 512 ≤ l.replay.length then none
  else
    let n2 := min 243 (min l.tx2.length (allowedBytes l.limit2 l.credit2 l.sent2))
    let n3 := min 243 (min l.tx3.length (allowedBytes l.limit3 l.credit3 l.sent3))
    if 0 < n2 then
      let f := l.stamp { ftype := 1, cls := 2, seq := l.txSeq, payload := l.tx2.take n2 }
      some ({ l with tx2 := l.tx2.drop n2, sent2 := l.sent2 + n2, txSeq := (l.txSeq + 1) % 4096,
                     replay := l.replay ++ [{ flit := f }] }, f)
    else if 0 < n3 then
      let f := l.stamp { ftype := 1, cls := 3, seq := l.txSeq, payload := l.tx3.take n3 }
      some ({ l with tx3 := l.tx3.drop n3, sent3 := l.sent3 + n3, txSeq := (l.txSeq + 1) % 4096,
                     replay := l.replay ++ [{ flit := f }] }, f)
    else none

/-- Flits are sent while there is something to send and room for it. -/
def Link.pump : Nat → Link → Link × List Flit
  | 0, l => (l, [])
  | n + 1, l =>
    match l.next with
    | none => (l, [])
    | some (l', f) =>
      let r := Link.pump n l'
      (r.1, f :: r.2)

/-- A packet joins its class's stream. -/
def Link.queue (l : Link) : Out → Link
  | .reply r => { l with tx2 := l.tx2 ++ replyBytes r }
  | .message t k s b => { l with tx2 := l.tx2 ++ messageBytes t k s b }
  | .hostRead t tag a n => { l with tx3 := l.tx3 ++ packetBytes 0x0F10 t 0 tag a [BitVec.ofNat 64 n] }
  | _ => l

end Sys2Proof.Machine
end

