-- ==== Sys2Proof/Machine/RegMap.lean ====
section
/-!
DEFINITION. Sys2Proof/Machine/RegMap.lean: the register map. One descriptor per register of the
register tables of spec/ (files 02 and 04 to 18): its offset from 0xF000_0000_0000 (the block bases
of R23 added), the stride and extent of each index, the number of words, the width, the bits that
a write sets (RW), the bits that act on a write (WO, W1), whether it is an event flag register
(TC, R13) and its reset value. After it, the address of a register and the register at an address.
-/

namespace Sys2Proof

/-- What the tables say of one register (R11, R12, R23). -/
structure Desc where
  /-- offset from 0xF000_0000_0000 with every index 0 -/
  base  : Nat
  /-- stride and extent of each index, the outermost first -/
  dims  : List (Nat × Nat) := []
  /-- 64-bit words of the register -/
  words : Nat := 1
  /-- the register is 64 bits wide (a 32-bit one is zero-extended, R422) -/
  wide  : Bool := false
  /-- bits of RW fields, the same in every word -/
  rw    : BitVec 64 := 0
  /-- bits of WO and W1 fields -/
  act   : BitVec 64 := 0
  /-- an event flag register (R13) -/
  tc    : Bool := false
  /-- the reset value where it does not depend on the indices -/
  reset : BitVec 64 := 0
deriving DecidableEq, Repr

/-- The register tables. -/
def RegName.desc : RegName → Desc
  | .budFrameCfg => { base := 0x100000, rw := 0x3f, reset := 1 }
  | .budFrameCount => { base := 0x100008 }
  | .budEvFrame => { base := 0x100010, tc := true }
  | .budCap => { base := 0x100100, dims := [(8, 8)] }
  | .budPitch => { base := 0x101000, dims := [(0x40, 64), (8, 8)], rw := 0xfffff, reset := 0xfffff }
  | .budUsed => { base := 0x103000, dims := [(0x40, 64), (8, 8)] }
  | .budWaitLimit => { base := 0x105000, dims := [(8, 64)], rw := 0xff, reset := 0x40 }
  | .budEvWait => { base := 0x105400, dims := [(8, 64)], tc := true }
  | .budCredBudget => { base := 0x108000, rw := 0x7ff, reset := 0x4b0 }
  | .budCredGranted => { base := 0x108008 }
  | .budGroupCfg => { base := 0x109000, dims := [(8, 58)], rw := 0x7f3ff800 }
  | .budGroupState => { base := 0x10a000, dims := [(8, 58)] }
  | .budEvDenied => { base := 0x10b000, tc := true }
  | .daleId => { base := 0x10000000, dims := [(0x1000000, 12), (0x100000, 12)] }
  | .daleCtl =>
    { base := 0x10000008, dims := [(0x1000000, 12), (0x100000, 12)], rw := 0x3ff0000, reset := 0xc80000 }
  | .daleState => { base := 0x10000010, dims := [(0x1000000, 12), (0x100000, 12)] }
  | .daleTile => { base := 0x10000018, dims := [(0x1000000, 12), (0x100000, 12)], reset := 0xffff }
  | .daleColmap =>
    { base := 0x10000020, dims := [(0x1000000, 12), (0x100000, 12)], rw := 0x7f00, reset := 0x4100 }
  | .daleRowmap =>
    { base := 0x10000028, dims := [(0x1000000, 12), (0x100000, 12)], rw := 0x7f7f, reset := 0x4140 }
  | .daleQueue => { base := 0x10000030, dims := [(0x1000000, 12), (0x100000, 12)] }
  | .daleSide => { base := 0x10000040, dims := [(0x1000000, 12), (0x100000, 12)], act := 0xffff }
  | .daleRange =>
    { base := 0x10000100, dims := [(0x1000000, 12), (0x100000, 12), (8, 64)], reset := 0x8500 }
  | .daleEvMisroute => { base := 0x10000400, dims := [(0x1000000, 12), (0x100000, 12)], tc := true }
  | .daleEvLock => { base := 0x10000408, dims := [(0x1000000, 12), (0x100000, 12)], tc := true }
  | .daleEvIntrusion =>
    { base := 0x10000410, dims := [(0x1000000, 12), (0x100000, 12)], tc := true }
  | .daleLastTag => { base := 0x10000418, dims := [(0x1000000, 12), (0x100000, 12)] }
  | .daleTagRows => { base := 0x10000420, dims := [(0x1000000, 12), (0x100000, 12)] }
  | .daleSymbols => { base := 0x10000300, dims := [(0x1000000, 12), (0x100000, 12)] }
  | .daleReloads => { base := 0x10000308, dims := [(0x1000000, 12), (0x100000, 12)] }
  | .valeId => { base := 0x100f0000, dims := [(0x1000000, 12)] }
  | .valeBank => { base := 0x100f0100, dims := [(0x1000000, 12), (8, 16)], rw := 0x3f000000 }
  | .veldId => { base := 0x20000000, dims := [(0x400000, 36)] }
  | .veldCfg => { base := 0x20000008, dims := [(0x400000, 36)], rw := 0xffffff3, reset := 0x101443 }
  | .veldState => { base := 0x20000010, dims := [(0x400000, 36)], reset := 0xffc00000 }
  | .veldProg => { base := 0x20000018, dims := [(0x400000, 36)] }
  | .veldImgBase => { base := 0x20000020, dims := [(0x400000, 36)], rw := 0x807fffff }
  | .veldEvRefresh => { base := 0x20000100, dims := [(0x400000, 36)], tc := true }
  | .veldEvRepair => { base := 0x20000108, dims := [(0x400000, 36)], tc := true }
  | .veldEvNospare => { base := 0x20000110, dims := [(0x400000, 36)], tc := true }
  | .veldEvWwin => { base := 0x20000118, dims := [(0x400000, 36)], tc := true }
  | .veldLmap => { base := 0x20001000, dims := [(0x400000, 36), (8, 768)] }
  | .siteId => { base := 0x20100000, dims := [(0x400000, 36), (0x800, 800)] }
  | .siteAstate => { base := 0x20100008, dims := [(0x400000, 36), (0x800, 800)] }
  | .siteWrites => { base := 0x20100010, dims := [(0x400000, 36), (0x800, 800)] }
  | .siteGain => { base := 0x20100018, dims := [(0x400000, 36), (0x800, 800)], reset := 0x40004000 }
  | .siteDrift => { base := 0x20100020, dims := [(0x400000, 36), (0x800, 800)] }
  | .siteCheck => { base := 0x20100028, dims := [(0x400000, 36), (0x800, 800)] }
  | .siteRepair => { base := 0x20100030, dims := [(0x400000, 36), (0x800, 800)] }
  | .siteRowmap => { base := 0x20100040, dims := [(0x400000, 36), (0x800, 800), (8, 8)] }
  | .siteColmap => { base := 0x20100080, dims := [(0x400000, 36), (0x800, 800), (8, 8)] }
  | .siteRange =>
    { base := 0x20100100, dims := [(0x400000, 36), (0x800, 800), (8, 32)], reset := 0x8500 }
  | .siteActxCfg =>
    { base := 0x20100200, dims := [(0x400000, 36), (0x800, 800), (0x40, 4)], rw := 0xfffff }
  | .siteActxTable =>
    { base := 0x20100208, dims := [(0x400000, 36), (0x800, 800), (0x40, 4)], rw := 0x7fff }
  | .siteActxStat =>
    { base := 0x20100210, dims := [(0x400000, 36), (0x800, 800), (0x40, 4)], rw := 0x7fff }
  | .siteActxRseedLo =>
    { base := 0x20100218, dims := [(0x400000, 36), (0x800, 800), (0x40, 4)], rw := 0xffffffff }
  | .siteActxRseedHi =>
    { base := 0x20100220, dims := [(0x400000, 36), (0x800, 800), (0x40, 4)], rw := 0xffffffff }
  | .siteEvArray => { base := 0x20100300, dims := [(0x400000, 36), (0x800, 800)], tc := true }
  | .convRot => { base := 0x10d00000, dims := [(0x1000000, 12)], reset := 0x147 }
  | .convEvTrigmiss => { base := 0x10d00040, dims := [(0x1000000, 12)], tc := true }
  | .convEvOvr => { base := 0x10d00048, dims := [(0x1000000, 12)], tc := true }
  | .convEvInjfull => { base := 0x10d00050, dims := [(0x1000000, 12)], tc := true }
  | .convTrig => { base := 0x10d00100, dims := [(0x1000000, 12), (8, 8)], rw := 0x87ff07ff }
  | .convCtl =>
    { base := 0x10d00800, dims := [(0x1000000, 12), (8, 71)], rw := 0xfc00000, act := 0xc0000000 }
  | .convDisc => { base := 0x10d00c00, dims := [(0x1000000, 12), (8, 71)] }
  | .convTrkClr =>
    { base := 0x10d01000, dims := [(0x1000000, 12), (8, 71)], wide := true, act := 0xffffffffffffffff }
  | .convInj =>
    { base := 0x10d01400, dims := [(0x1000000, 12), (8, 71)], wide := true, act := 0xffffffffffffffff }
  | .convInjAcc => { base := 0x10d01800, dims := [(0x1000000, 12), (8, 71)], wide := true }
  | .convAcc =>
    { base := 0x10d20000, dims := [(0x1000000, 12), (0x200, 71), (8, 64)], wide := true }
  | .convSeq =>
    { base := 0x10d10000, dims := [(0x1000000, 12), (0x200, 71), (8, 64)], wide := true, rw := 0xffcff7ffff }
  | .convTrk =>
    { base := 0x10d30000, dims := [(0x1000000, 12), (0x200, 71), (8, 64)], wide := true }
  | .drvDaleCfg =>
    { base := 0x10e00000, dims := [(0x1000000, 12), (8, 12)], rw := 0xff0003, reset := 2 }
  | .drvDaleState => { base := 0x10e00080, dims := [(0x1000000, 12), (8, 12)], reset := 0x80000000 }
  | .drvPair => { base := 0x10e000f0, dims := [(0x1000000, 12)], rw := 0x3f }
  | .drvEvRangestep => { base := 0x10e00100, dims := [(0x1000000, 12)], tc := true }
  | .drvToneFcw => { base := 0x10e00200, dims := [(0x1000000, 12), (0x10, 16)], rw := 0xffffffff }
  | .drvToneCtl => { base := 0x10e00208, dims := [(0x1000000, 12), (0x10, 16)], rw := 0x80000fff }
  | .drvBank =>
    { base := 0x10e00400, dims := [(0x1000000, 12), (8, 16)], rw := 0xffff, reset := 0x80008096 }
  | .drvXt => { base := 0x10e01000, dims := [(0x1000000, 12), (0x200, 12), (8, 50)], rw := 0xffff }
  | .drvCh =>
    { base := 0x10e10000, dims := [(0x1000000, 12), (8, 1920)], rw := 0x3fff3fff, reset := 0x80000000 }
  | .drvUnitsel => { base := 0x10e20000, dims := [(0x1000000, 12), (8, 3504)], reset := 0x850603f }
  | .guyCfg =>
    { base := 0x10c00000, dims := [(0x1000000, 12)], rw := 0x800f0000, reset := 0x800f0000 }
  | .guyLoad => { base := 0x10c00008, dims := [(0x1000000, 12)] }
  | .guySeedLo => { base := 0x10c00010, dims := [(0x1000000, 12)], rw := 0xffffffff }
  | .guySeedHi => { base := 0x10c00018, dims := [(0x1000000, 12)], rw := 0xffffffff }
  | .guyGood => { base := 0x10c00020, dims := [(0x1000000, 12)] }
  | .guyLoGood => { base := 0x10c00028, dims := [(0x1000000, 12)] }
  | .guyEvLock => { base := 0x10c00100, dims := [(0x1000000, 12)], tc := true }
  | .guyEvAcqfail => { base := 0x10c00108, dims := [(0x1000000, 12)], tc := true }
  | .guyEvLine => { base := 0x10c00110, dims := [(0x1000000, 12)], tc := true }
  | .guyEvFlank => { base := 0x10c00118, dims := [(0x1000000, 12)], tc := true }
  | .guyEvStale => { base := 0x10c00120, dims := [(0x1000000, 12)], tc := true }
  | .guyLastFall => { base := 0x10c00180, dims := [(0x1000000, 12)] }
  | .guyTestCtl =>
    { base := 0x10c00200, dims := [(0x1000000, 12)], rw := 0x38007ff, act := 0xc0000000 }
  | .guyTestAmp => { base := 0x10c00208, dims := [(0x1000000, 12)], rw := 0x1fffffff }
  | .guyTestFreq =>
    { base := 0x10c00210, dims := [(0x1000000, 12)], wide := true, rw := 0xffffffffffff }
  | .guyTestDwell => { base := 0x10c00218, dims := [(0x1000000, 12)], rw := 0xffffffff }
  | .guyCapBase => { base := 0x10c00220, dims := [(0x1000000, 12)], rw := 0xffffffff }
  | .guyCapCtl =>
    { base := 0x10c00228, dims := [(0x1000000, 12)], wide := true, rw := 0x3fffffffffffffff, act := 0xc000000000000000, reset := 0xfffffffffff }
  | .guyCapState => { base := 0x10c00230, dims := [(0x1000000, 12)] }
  | .guyLine => { base := 0x10c01000, dims := [(0x1000000, 12), (0x80, 16), (8, 16)], wide := true }
  | .guyLoop =>
    { base := 0x10c40000, dims := [(0x1000000, 12), (0x40, 2048)], words := 8, wide := true, rw := 0xffffffffffffffff }
  | .guyLstate =>
    { base := 0x10c60000, dims := [(0x1000000, 12), (0x20, 2048)], words := 4, wide := true }
  | .guyCoef =>
    { base := 0x10c80000, dims := [(0x1000000, 12), (0x80, 2048), (0x40, 2)], words := 8, wide := true, rw := 0xffffffffffffffff }
  | .calCfg =>
    { base := 0x10f00000, dims := [(0x1000000, 12)], rw := 0xfffffff7, reset := 0xa0a0c87 }
  | .calProbe =>
    { base := 0x10f00008, dims := [(0x1000000, 12)], rw := 0xfffffff, reset := 0x1e8480 }
  | .calAdcCfg => { base := 0x10f00018, dims := [(0x1000000, 12)], rw := 0xffff, reset := 0x64 }
  | .calState => { base := 0x10f00010, dims := [(0x1000000, 12)], reset := 0xf800 }
  | .calEvDisagree => { base := 0x10f00100, dims := [(0x1000000, 12)], tc := true }
  | .calEvImplaus => { base := 0x10f00108, dims := [(0x1000000, 12)], tc := true }
  | .calDaleCount => { base := 0x10f00200, dims := [(0x1000000, 12), (0x10, 12)] }
  | .calSelCount => { base := 0x10f00300, dims := [(0x1000000, 12), (0x10, 16)] }
  | .calAdcCount => { base := 0x10f00400, dims := [(0x1000000, 12), (0x10, 72)] }
  | .siteCalCount => { base := 0x201000c0, dims := [(0x400000, 36), (0x800, 800)] }
  | .calDaleTime => { base := 0x10f00208, dims := [(0x1000000, 12), (0x10, 12)], wide := true }
  | .calSelTime => { base := 0x10f00308, dims := [(0x1000000, 12), (0x10, 16)], wide := true }
  | .calAdcTime => { base := 0x10f00408, dims := [(0x1000000, 12), (0x10, 72)], wide := true }
  | .siteCalTime => { base := 0x201000c8, dims := [(0x400000, 36), (0x800, 800)], wide := true }
  | .calMonTrim =>
    { base := 0x10f00c00, dims := [(0x1000000, 12), (0x20, 72), (8, 4)], reset := 0x40000000 }
  | .calRx =>
    { base := 0x10f02000, dims := [(0x1000000, 12), (0x800, 12), (0x10, 65)], wide := true, reset := 0x800800 }
  | .calColstat =>
    { base := 0x10f08000, dims := [(0x1000000, 12), (0x800, 12), (0x10, 66)], reset := 0xff }
  | .calCmpsel =>
    { base := 0x10f10000, dims := [(0x1000000, 12), (0x1000, 12), (0x20, 65), (8, 3)], reset := 0x850603f }
  | .calMap => { base := 0x10f20000, dims := [(0x1000000, 12), (0x12000, 12), (8, 8712), (4, 2)] }
  | .siteCoreState => { base := 0x20100400, dims := [(0x400000, 36), (0x800, 800)] }
  | .siteThreadCtl =>
    { base := 0x20100440, dims := [(0x400000, 36), (0x800, 800), (8, 8)], act := 0x80000000 }
  | .siteThreadPc =>
    { base := 0x20100480, dims := [(0x400000, 36), (0x800, 800), (8, 8)], wide := true }
  | .siteTfault =>
    { base := 0x20100500, dims := [(0x400000, 36), (0x800, 800), (0x10, 8)], words := 2, wide := true }
  | .siteEvFault => { base := 0x20100600, dims := [(0x400000, 36), (0x800, 800)], tc := true }
  | .siteSpawnq => { base := 0x20100608, dims := [(0x400000, 36), (0x800, 800)] }
  | .siteInstr => { base := 0x20100610, dims := [(0x400000, 36), (0x800, 800)], wide := true }
  | .siteCoreRseedLo =>
    { base := 0x20100618, dims := [(0x400000, 36), (0x800, 800)], rw := 0xffffffff }
  | .siteCoreRseedHi =>
    { base := 0x20100620, dims := [(0x400000, 36), (0x800, 800)], rw := 0xffffffff }
  | .tentCtl => { base := 0x800000, dims := [(8, 64)], rw := 0x100, act := 0xe0000000, reset := 1 }
  | .tentSites => { base := 0x800200, dims := [(8, 64)] }
  | .tentDale => { base := 0x800400, dims := [(8, 144)], rw := 0x3f }
  | .tentWin =>
    { base := 0x810000, dims := [(0x200, 64), (8, 64)], wide := true, rw := 0xffffffffffffffff }
  | .tentSite => { base := 0x820000, dims := [(8, 27648)], rw := 0x3f007fff }
  | .wsetCfg => { base := 0x900000, rw := 0xffff, reset := 0x33214 }
  | .wsetActive => { base := 0x900100, dims := [(8, 64)], rw := 3, reset := 3 }
  | .wsetMinser => { base := 0x900400, dims := [(8, 64)], wide := true, rw := 0xffffffffffffffff }
  | .wsetEvFail => { base := 0x900800, dims := [(8, 64)], tc := true }
  | .wsetSlot =>
    { base := 0x901000, dims := [(0x80, 64), (0x40, 2)], words := 8, wide := true, reset := 0xff0000 }
  | .wsetKey => { base := 0x904000, dims := [(0x100, 64), (0x40, 4)], words := 8, wide := true }
  | .fhCfg => { base := 0x600000, rw := 0xf7f0737, reset := 0x5180001 }
  | .fhSync => { base := 0x600008 }
  | .fhState => { base := 0x600030 }
  | .fhOffset => { base := 0x600010, rw := 0xffffffff }
  | .fhSfn => { base := 0x600018 }
  | .fhWin => { base := 0x600020, wide := true, rw := 0xffffffffff, reset := 0x19190c8320 }
  | .fhSfnSet => { base := 0x600028, act := 0x3ff }
  | .fhEvSync => { base := 0x600100, tc := true }
  | .fhEvLate => { base := 0x600108, tc := true }
  | .fhEvUnderrun => { base := 0x600110, tc := true }
  | .fhEvDrop => { base := 0x600118, tc := true }
  | .fhPortMac => { base := 0x600400, dims := [(0x20, 8)], wide := true, rw := 0x8000ffffffffffff }
  | .fhPortPeer => { base := 0x600408, dims := [(0x20, 8)], wide := true, rw := 0xffffffffffff }
  | .fhPortStat => { base := 0x600410, dims := [(0x20, 8)], wide := true }
  | .fhEaxc =>
    { base := 0x610000, dims := [(0x10, 4096)], words := 2, wide := true, rw := 0xffffffffffffffff }
  | .decState => { base := 0xa00000 }
  | .decEvLate => { base := 0xa00100, tc := true }
  | .decEvOvf => { base := 0xa00108, tc := true }
  | .decSubmit => { base := 0xa01000, dims := [(8, 64)], wide := true, act := 0xffffffffffff }
  | .decHarqCfg =>
    { base := 0xa02000, dims := [(0x10, 64)], words := 2, wide := true, rw := 0xfff1ffffffffff }
  | .decHarqSel => { base := 0xa03000, rw := 0xfffff }
  | .decHarqPeek => { base := 0xa03008, wide := true }
  | .decHarqClr => { base := 0xa03010, act := 0xfffff }
  | .sysSerial => { base := 0, wide := true }
  | .sysState => { base := 8, reset := 2 }
  | .sysEvChanfault => { base := 0x100, tc := true }
  | .sysEvWdog => { base := 0x108, tc := true }
  | .sysChanfaultLoc => { base := 0x118 }
  | .sysMpq => { base := 0x1000, dims := [(8, 64)] }
  | .sysMsgq => { base := 0x1400, dims := [(8, 64)] }
  | .sysMsgMask => { base := 0x1800, dims := [(8, 64)], rw := 0x1fe, reset := 0x1fe }
  | .sysMsgPost => { base := 0x1c00, dims := [(8, 64)], wide := true, act := 0xffffffffffff }
  | .azlState => { base := 0x500000 }
  | .azlStat => { base := 0x500008, wide := true }
  | .azlEvRetry => { base := 0x500100, tc := true }
  | .azlEvDown => { base := 0x500108, tc := true }
  | .passCfg => { base := 0x700000, rw := 0xffffff, reset := 0xaffff }
  | .passPort => { base := 0x700008, rw := 0xfff }
  | .passStat => { base := 0x700010, wide := true }
  | .passLastTag => { base := 0x700018, wide := true }
  | .passEvCircuit => { base := 0x700100, tc := true }
  | .passEvMisroute => { base := 0x700108, tc := true }
  | .passEvDrop => { base := 0x700110, tc := true }
  | .passEvRemote => { base := 0x700118, tc := true }
  | .passTx => { base := 0x701000, dims := [(8, 128)] }
  | .passRx => { base := 0x702000, dims := [(8, 256)] }
  | .passRxFec => { base := 0x703000, dims := [(8, 256)], wide := true }
  | .passExport =>
    { base := 0x704000, dims := [(0x10, 64)], words := 2, wide := true, rw := 0xffffffffffffffff }
  | .passBcast => { base := 0x706000, dims := [(8, 256)], rw := 0xffffffff }
  | .passRoute => { base := 0x780000, dims := [(8, 65536)], wide := true, rw := 0xb0fffffff0000000 }
  | .pwrIn => { base := 0x200000, wide := true }
  | .pwrEvStage => { base := 0x200080, tc := true }
  | .pwrStage => { base := 0x200100, dims := [(8, 48)] }
  | .pwrRail => { base := 0x200400, dims := [(8, 72)] }
  | .thmCfg => { base := 0x300000, rw := 1 }
  | .thmCoolant => { base := 0x300008 }
  | .thmPanel => { base := 0x300010 }
  | .thmHold => { base := 0x300018 }
  | .thmPanelParam => { base := 0x300020, wide := true }
  | .thmEvThrottle => { base := 0x300100, tc := true }
  | .thmEvSense => { base := 0x300108, tc := true }
  | .thmEvShutdown => { base := 0x300110, tc := true }
  | .thmNode => { base := 0x301000, dims := [(0x20, 70), (8, 3)] }
  | .thmParam => { base := 0x302000, dims := [(0x20, 70), (8, 3)], wide := true }
  | .thmShare => { base := 0x303000, dims := [(8, 70)] }
  | .lantSec => { base := 0x400000, wide := true, rw := 0xffffffffffff }
  | .lantSub => { base := 0x400008 }
  | .lantCmp => { base := 0x400010 }
  | .lantCfg => { base := 0x400018, rw := 3 }
  | .lantRecHead => { base := 0x400020 }
  | .lantRec => { base := 0x400100, dims := [(0x10, 32)], words := 2, wide := true }
  | .lantEvRec => { base := 0x400300, tc := true }
  | .cairnId => { base := 0x30000000 }
  | .cairnSum => { base := 0x30000008, dims := [(8, 4)], wide := true }
  | .cairnState => { base := 0x30000030, reset := 0x2000000F }
  | .cairnTime => { base := 0x30000038, wide := true }
  | .cairnTotal => { base := 0x30000040, wide := true }
  | .cairnInput => { base := 0x30000048, wide := true }
  | .cairnRec => { base := 0x30000050, wide := true, reset := 0xFFFFFFFF }
  | .cairnEvt => { base := 0x30000058, wide := true, reset := 0xFFFFFFFF }
  | .cairnTent => { base := 0x30001000, dims := [(8, 64)] }
  | .sysBoot => { base := 0x2000 }
  | .sysFwVer => { base := 0x2008, dims := [(8, 2)] }
  | .sysStart => { base := 0x2100, rw := 0x1ff, reset := 0xa }
  | .sysDrained => { base := 0x2200, wide := true }
  | .sysEvImage => { base := 0x128, tc := true }
  | .sysGpioDir => { base := 0x3000, rw := 0xffff }
  | .sysGpioOut => { base := 0x3008, rw := 0xffff }
  | .sysGpioIn => { base := 0x3010 }
  | .pwrHkSeq => { base := 0x280000, dims := [(8, 256)], wide := true, rw := 0xffcff7ffff }
  | .pwrHkAcc => { base := 0x281000, dims := [(8, 256)], wide := true }
  | .pwrHkTrk => { base := 0x282000, dims := [(8, 256)], wide := true }
  | .pwrHkTrkClr => { base := 0x283000, dims := [(8, 4)], wide := true, act := 0xffffffffffffffff }
  | .pwrHkRound => { base := 0x283100 }
  | .pwrHkDisc => { base := 0x283108 }
  | .pwrHkLoad => { base := 0x283200, dims := [(8, 4)] }

/-- Every register name, in the order of the tables, in pieces. -/
def RegName.part0 : List RegName :=
  [.budFrameCfg, .budFrameCount, .budEvFrame, .budCap, .budPitch, .budUsed,
   .budWaitLimit, .budEvWait, .budCredBudget, .budCredGranted, .budGroupCfg, .budGroupState,
   .budEvDenied, .daleId, .daleCtl, .daleState, .daleTile, .daleColmap,
   .daleRowmap, .daleQueue, .daleSide, .daleRange, .daleEvMisroute, .daleEvLock]
def RegName.part1 : List RegName :=
  [.daleEvIntrusion, .daleLastTag, .daleTagRows, .daleSymbols, .daleReloads, .valeId,
   .valeBank, .veldId, .veldCfg, .veldState, .veldProg, .veldImgBase,
   .veldEvRefresh, .veldEvRepair, .veldEvNospare, .veldEvWwin, .veldLmap, .siteId,
   .siteAstate, .siteWrites, .siteGain, .siteDrift, .siteCheck, .siteRepair]
def RegName.part2 : List RegName :=
  [.siteRowmap, .siteColmap, .siteRange, .siteActxCfg, .siteActxTable, .siteActxStat,
   .siteActxRseedLo, .siteActxRseedHi, .siteEvArray, .convRot, .convEvTrigmiss, .convEvOvr,
   .convEvInjfull, .convTrig, .convCtl, .convDisc, .convTrkClr, .convInj,
   .convInjAcc, .convAcc, .convSeq, .convTrk, .drvDaleCfg, .drvDaleState]
def RegName.part3 : List RegName :=
  [.drvPair, .drvEvRangestep, .drvToneFcw, .drvToneCtl, .drvBank, .drvXt,
   .drvCh, .drvUnitsel, .guyCfg, .guyLoad, .guySeedLo, .guySeedHi,
   .guyGood, .guyLoGood, .guyEvLock, .guyEvAcqfail, .guyEvLine, .guyEvFlank,
   .guyEvStale, .guyLastFall, .guyTestCtl, .guyTestAmp, .guyTestFreq, .guyTestDwell]
def RegName.part4 : List RegName :=
  [.guyCapBase, .guyCapCtl, .guyCapState, .guyLine, .guyLoop, .guyLstate,
   .guyCoef, .calCfg, .calProbe, .calAdcCfg, .calState, .calEvDisagree,
   .calEvImplaus, .calDaleCount, .calSelCount, .calAdcCount, .siteCalCount, .calDaleTime,
   .calSelTime, .calAdcTime, .siteCalTime, .calMonTrim, .calRx, .calColstat]
def RegName.part5 : List RegName :=
  [.calCmpsel, .calMap, .siteCoreState, .siteThreadCtl, .siteThreadPc, .siteTfault,
   .siteEvFault, .siteSpawnq, .siteInstr, .siteCoreRseedLo, .siteCoreRseedHi, .tentCtl,
   .tentSites, .tentDale, .tentWin, .tentSite, .wsetCfg, .wsetActive,
   .wsetMinser, .wsetEvFail, .wsetSlot, .wsetKey, .fhCfg, .fhSync]
def RegName.part6 : List RegName :=
  [.fhState, .fhOffset, .fhSfn, .fhWin, .fhSfnSet, .fhEvSync,
   .fhEvLate, .fhEvUnderrun, .fhEvDrop, .fhPortMac, .fhPortPeer, .fhPortStat,
   .fhEaxc, .decState, .decEvLate, .decEvOvf, .decSubmit, .decHarqCfg,
   .decHarqSel, .decHarqPeek, .decHarqClr, .sysSerial, .sysState, .sysEvChanfault]
def RegName.part7 : List RegName :=
  [.sysEvWdog, .sysChanfaultLoc, .sysMpq, .sysMsgq, .sysMsgMask, .sysMsgPost,
   .azlState, .azlStat, .azlEvRetry, .azlEvDown, .passCfg, .passPort,
   .passStat, .passLastTag, .passEvCircuit, .passEvMisroute, .passEvDrop, .passEvRemote,
   .passTx, .passRx, .passRxFec, .passExport, .passBcast, .passRoute]
def RegName.part8 : List RegName :=
  [.pwrIn, .pwrEvStage, .pwrStage, .pwrRail, .thmCfg, .thmCoolant,
   .thmPanel, .thmHold, .thmPanelParam, .thmEvThrottle, .thmEvSense, .thmEvShutdown,
   .thmNode, .thmParam, .thmShare, .lantSec, .lantSub, .lantCmp,
   .lantCfg, .lantRecHead, .lantRec, .lantEvRec, .cairnId, .cairnSum]
def RegName.part9 : List RegName :=
  [.cairnState, .cairnTime, .cairnTotal, .cairnInput, .cairnRec, .cairnEvt,
   .cairnTent, .sysBoot, .sysFwVer, .sysStart, .sysDrained, .sysEvImage,
   .sysGpioDir, .sysGpioOut, .sysGpioIn, .pwrHkSeq, .pwrHkAcc, .pwrHkTrk,
   .pwrHkTrkClr, .pwrHkRound, .pwrHkDisc, .pwrHkLoad]

def RegName.all : List RegName :=
  RegName.part0 ++ RegName.part1 ++ RegName.part2 ++ RegName.part3 ++ RegName.part4 ++
    RegName.part5 ++ RegName.part6 ++ RegName.part7 ++ RegName.part8 ++ RegName.part9

/-- R48: the bound capacities BUD_CAP reports, by class. -/
def budCapBound : List Nat := [35155, 6026, 9228, 6591, 400, 517, 21, 0xFFFFF]

/-- R51: floor, ceiling and ramp limit at reset of consumer group `g`. -/
def groupReset (g : Nat) : Nat × Nat × Nat :=
  if g < 12 then (8, 60, 5)
  else if g < 48 then (2, 14, 0)
  else if g < 52 then (12, 44, 0)
  else if g < 54 then (23, 23, 0)
  else if g < 56 then (17, 17, 0)
  else if g = 56 then (44, 90, 0)
  else (3, 40, 0)

/-- The reset value of a register: the table's, or where it depends on the indices the rule named
at each arm. -/
def Reg.resetValue (r : Reg) : BitVec 64 :=
  match r.name, r.idx with
  | .budPitch, [t, _] => if t = 0 then 0xFFFFF else 0
  | .budCap, [c] => BitVec.ofNat 64 (budCapBound.getD c 0)
  | .tentCtl, [t] => if t = 0 then 1 else 0
  | .tentWin, [t, s] => if t = 0 ∧ s = 0 then 0xF830000000000000 else 0
  | .tentSite, [i] => BitVec.ofNat 64 i
  | .daleId, [v, d] => BitVec.ofNat 64 ((12 * v + d) * 2 ^ 16 + v * 2 ^ 8 + d)
  | .valeId, [v] => BitVec.ofNat 64 (v / 6 * 2 ^ 8 + v)
  | .veldId, [n] => BitVec.ofNat 64 n
  | .siteId, [n, s] =>
    BitVec.ofNat 64 ((Config.storeWord .siteId [n, s]).toNat % 2 ^ 15 * 2 ^ 16 + n * 2 ^ 10 + s)
  | .siteWrites, i => BitVec.ofNat 64 ((Config.storeWord .siteWrites i).toNat % 2 ^ 32)
  | .siteRepair, i => Config.storeWord .siteRepair i &&& 0x9F000F0F
  | .siteRowmap, i => Config.storeWord .siteRowmap i &&& 0x800003FF
  | .siteColmap, i => Config.storeWord .siteColmap i &&& 0x800003FF
  | .sysSerial, _ => Config.serial
  | .cairnId, _ => BitVec.ofNat 64 (2 ^ 24 + Config.cairnCertified.toNat)
  | .cairnSum, [k] => BitVec.ofNat 64 (leNat ((Config.cairnSum.drop (8 * k)).take 8))
  | .thmPanelParam, i => Config.storeWord .thmPanelParam i &&& 0xFFFFFFFF0000FFFF
  | .thmParam, i => Config.storeWord .thmParam i &&& 0xFFFFFFFF0000FFFF
  | .thmShare, i => Config.storeWord .thmShare i &&& 0xFF
  | .budGroupCfg, [g] =>
    let x := groupReset g
    BitVec.ofNat 64 (x.2.2 * 2 ^ 24 + x.2.1 * 2 ^ 11 + x.1)
  | n, _ => n.desc.reset

/-- The registers that STARTING loads from the record stores, with the bits they hold (R181). -/
def RegName.recordMask : RegName → Option (BitVec 64)
  | .veldLmap => some 0xBF0003FF
  | .siteAstate => some 0xBFFFFF0F
  | .siteGain => some 0xFFFFFFFF
  | _ => none

/-- What a register reads as once the record stores are loaded, where nothing has changed it since. -/
def Reg.recordValue (r : Reg) : BitVec 64 :=
  match r.name.recordMask with
  | some m => Config.storeWord r.name r.idx &&& m
  | none => r.resetValue

/-- The indices and the word lie in the register's extent. -/
def Reg.inTable (r : Reg) : Bool :=
  let d := r.name.desc
  r.idx.length == d.dims.length && (r.idx.zip d.dims).all (fun p => p.1 < p.2.2)
    && decide (r.w < d.words) && !(r.name == .convTrig && r.idx.getD 1 0 == 0)

/-- Offset of a register word from 0xF000_0000_0000 (R23). -/
def Reg.offset (r : Reg) : Nat :=
  let d := r.name.desc
  ((r.idx.zip d.dims).map (fun p => p.1 * p.2.1)).sum + d.base + 8 * r.w

/-- Splits the distance from a register's base into indices, the outermost first; the rest is the
distance into the register. -/
def splitDims : List (Nat × Nat) → Nat → Option (List Nat × Nat)
  | [], rest => some ([], rest)
  | (stride, count) :: ds, rest =>
    if rest / stride < count then
      (splitDims ds (rest % stride)).map fun p => (rest / stride :: p.1, p.2)
    else none

/-- The word of register `n` at offset `off`, if it has one there. -/
def RegName.at (n : RegName) (off : Nat) : Option Reg :=
  let d := n.desc
  if off < d.base then none
  else match splitDims d.dims (off - d.base) with
    | none => none
    | some (idx, rest) =>
      if rest % 8 = 0 && rest / 8 < d.words then
        let r : Reg := { name := n, idx := idx, w := rest / 8 }
        if r.inTable then some r else none
      else none

/-- Base of the register space (R22). -/
def regBase : Nat := 0xF00000000000

/-- R24: the register the tables place at an address, or none. -/
def regAt (addr : Nat) : Option Reg :=
  if addr < regBase then none
  else RegName.all.findSome? (fun n => n.at (addr - regBase))

/-- The register address of `r`. -/
def Reg.addr (r : Reg) : Nat := regBase + r.offset

end Sys2Proof
end

