-- ==== Sys2Proof/Machine/Ops.lean ====
section
/-!
DEFINITION. Sys2Proof/Machine/Ops.lean: the operations every meaning is written with: sparse tables,
register words and fields, event flags (R13, R31 to R33), memory (R4, R22), generators (R94, R95),
free values, replies and messages (R414, R429 to R431).
-/

namespace Sys2Proof.Machine

abbrev Outcome := Host.Outcome State Fault Refusal

/-! ### Sparse tables -/

/-- The entry of a key, or the default. -/
def Tab.get {κ α : Type} [DecidableEq κ] (t : Tab κ α) (k : κ) (dflt : α) : α :=
  match t with
  | [] => dflt
  | (k', a) :: t' => if k = k' then a else Tab.get t' k dflt

/-- The entry of a key is replaced, or put at the end. -/
def Tab.set {κ α : Type} [DecidableEq κ] (t : Tab κ α) (k : κ) (a : α) : Tab κ α :=
  match t with
  | [] => [(k, a)]
  | (k', a') :: t' => if k = k' then (k, a) :: t' else (k', a') :: Tab.set t' k a

/-! ### Outcomes -/

/-- A command acts on the device and leaves the Cairn alone. -/
def onChip (s : State) (f : Chip → Chip) : Outcome := .next { s with chip := f s.chip }

/-- A command names units; units that do not exist fault (R16, R17). -/
def onUnits (ok : Bool) (s : State) (f : Chip → Chip) : Outcome :=
  if ok then onChip s f else .fault .noSuchUnit

/-! ### Register words and fields -/

/-- The word a register holds: the stored one, else its reset value, or what STARTING has loaded from
the record stores (R181). -/
def Chip.get (c : Chip) (r : Reg) : Word :=
  Tab.get c.regs r (if c.loaded then r.recordValue else r.resetValue)

/-- A register word set whole. -/
def Chip.put (c : Chip) (r : Reg) (x : Word) : Chip := { c with regs := Tab.set c.regs r x }

/-- The register word a field lies in. -/
def fldReg (f : Fld) (idx : List Nat) : Reg := { name := f.name, idx := idx, w := f.w }

/-- A word with bits [hi:lo] replaced. -/
def setBits (x : Word) (hi lo n : Nat) : Word :=
  let y := x.toNat
  BitVec.ofNat 64 (y - bitsOf y hi lo * 2 ^ lo + n % 2 ^ (hi + 1 - lo) * 2 ^ lo)

/-- The value of a register field (R4, R11). -/
def Chip.f (c : Chip) (fl : Fld) (idx : List Nat := []) : Nat :=
  bitsOf (c.get (fldReg fl idx)).toNat fl.hi fl.lo

/-- A register field set, the rest of the word unchanged. -/
def Chip.setF (c : Chip) (fl : Fld) (idx : List Nat) (n : Nat) : Chip :=
  c.put (fldReg fl idx) (setBits (c.get (fldReg fl idx)) fl.hi fl.lo n)

/-- A one-bit field as a truth value. -/
def Chip.flag (c : Chip) (fl : Fld) (idx : List Nat := []) : Bool := c.f fl idx == 1

/-- A field read as two's complement. -/
def Chip.sf (c : Chip) (fl : Fld) (idx : List Nat := []) : Int :=
  signedOf (fl.hi + 1 - fl.lo) (c.f fl idx)

/-- A field counts up, wrapping at its width. -/
def Chip.count (c : Chip) (fl : Fld) (idx : List Nat) (n : Nat := 1) : Chip :=
  c.setF fl idx (c.f fl idx + n)

/-- A field counts up, saturating at its width. -/
def Chip.countSat (c : Chip) (fl : Fld) (idx : List Nat) (n : Nat := 1) : Chip :=
  c.setF fl idx (min (c.f fl idx + n) (2 ^ (fl.hi + 1 - fl.lo) - 1))

/-- The words of a multi-word register, word 0 first. -/
def Chip.wordsOf (c : Chip) (n : RegName) (idx : List Nat) : List Word :=
  (List.range n.desc.words).map fun w => c.get { name := n, idx := idx, w := w }

/-- The words of a multi-word register set, word 0 first. -/
def Chip.putWords (c : Chip) (n : RegName) (idx : List Nat) (xs : List Word) : Chip :=
  (xs.mapIdx fun w x => (w, x)).foldl (fun c p => c.put { name := n, idx := idx, w := p.1 } p.2) c

/-! ### Memory (R22) -/

/-- What a byte of memory that nothing has written reads as (log entry 2). -/
def memDefault : Byte := 0

/-- The byte at an address. -/
def Mem.read : List Host.Cell → Nat → Byte
  | [], _ => memDefault
  | (a, b) :: t, x => if a = x then b else Mem.read t x

/-- A byte written; a byte equal to the default is not listed, and addresses stay rising. -/
def Mem.write : List Host.Cell → Nat → Byte → List Host.Cell
  | [], x, b => if b = memDefault then [] else [(x, b)]
  | (a, b') :: t, x, b =>
    if x < a then (if b = memDefault then (a, b') :: t else (x, b) :: (a, b') :: t)
    else if x = a then (if b = memDefault then t else (x, b) :: t)
    else (a, b') :: Mem.write t x b

/-- The canonical form: addresses strictly rising from `lo` on, no entry equal to the default. -/
def Mem.wfFrom : Nat → List Host.Cell → Bool
  | _, [] => true
  | lo, (a, b) :: t => decide (lo ≤ a) && decide (b ≠ memDefault) && Mem.wfFrom (a + 1) t

def Memory.wf (m : List Host.Cell) : Bool := Mem.wfFrom 0 m

/-- The five ranges of R22 that hold memory. -/
def memRanges : List (Nat × Nat) :=
  [(0, 0x4800000000), (0x800000000000, 0x800036000000), (0x810000000000, 0x810006000000),
   (0x820000000000, 0x820004000000)]

/-- The whole range lies in one of the ranges of R22 that hold GDDR7, site stores, Vale SRAM or
Basecamp SRAM (R139, R423). -/
def inMemory (addr len : Nat) : Bool :=
  memRanges.any fun r => decide (r.1 ≤ addr ∧ addr + len ≤ r.2)

/-- The range touches GDDR7 (R22). -/
def inGddr (addr : Nat) : Bool := decide (addr < 0x4800000000)

/-- Base of a logical site's store (R17, R22). -/
def storeBase (i : Nat) : Nat := 0x800000000000 + i * 0x8000

/-- The quadrant that holds the byte at a GDDR7 address (R307). -/
def quadrantOf (addr : Nat) : Nat := addr / 256 % 96 / 24

def Chip.byte (c : Chip) (a : Nat) : Byte := Mem.read c.mem a

def Chip.setByte (c : Chip) (a : Nat) (b : Byte) : Chip := { c with mem := Mem.write c.mem a b }

/-- `n` bytes from an address on. -/
def Chip.bytes (c : Chip) (a n : Nat) : List Byte := (List.range n).map fun k => c.byte (a + k)

/-- Bytes stored from an address on. -/
def Chip.store : Chip → Nat → List Byte → Chip
  | c, _, [] => c
  | c, a, b :: bs => Chip.store (c.setByte a b) (a + 1) bs

/-- The little-endian number of `n` bytes at an address (R4). -/
def Chip.num (c : Chip) (a n : Nat) : Nat := leNat (c.bytes a n)

/-- A number stored as `n` little-endian bytes (R4). -/
def Chip.setNum (c : Chip) (a n x : Nat) : Chip := c.store a (leBytes n x)

/-! ### Free values and generators -/

/-- The next free value and the device with its counter advanced (log entry 1). -/
def Chip.takeFree (c : Chip) : Word × Chip :=
  (Config.freeValue c.free, { c with free := c.free + 1 })

/-- R94: the state is never zero; a zero seed is taken as the power-up state plus one. -/
def nonZero (x : Word) : Word := if x = 0 then 1 else x

/-- The generator of an owner; one nothing has seeded since power-up is in the state of R95. -/
def Chip.gen (c : Chip) (i : GenId) : Gen :=
  Tab.get c.gens i { s := nonZero (Config.powerUpSeed c.boots i) }

def Chip.setGen (c : Chip) (i : GenId) (g : Gen) : Chip := { c with gens := Tab.set c.gens i g }

/-! ### Messages and replies -/

/-- Stream bytes leave in flits while the link is UP (R408, R411). -/
def Chip.pump (c : Chip) : Chip :=
  if c.f Fld.azlState_state = 2 then
    let r := Link.pump 513 c.link
    { c with link := r.1, outs := c.outs ++ r.2.map Out.flit }
  else c

/-- Something leaves the device; a packet for the host also joins its stream on the link. -/
def Chip.out (c : Chip) (o : Out) : Chip :=
  let c : Chip := { c with outs := c.outs ++ [o], link := c.link.queue o }
  c.pump

def Chip.msgQ (c : Chip) (t : Nat) : MsgQ := Tab.get c.msgs t {}

/-- R431: a message joins its Tent's queue, or is counted lost when the queue holds 256. -/
def Chip.pushMsg (c : Chip) (t : Nat) (m : Msg) : Chip :=
  let q := c.msgQ t
  let lost := c.f Fld.sysMsgq_lost [t]
  if 256 ≤ q.q.length then c.countSat Fld.sysMsgq_lost [t]
  else if lost ≠ 0 ∧ bitOf (c.get { name := .sysMsgMask, idx := [t] }).toNat 6 then
    -- the message of the loss comes first and takes a place of its own
    let l : Msg := { kind := 6, body := leBytes 4 lost ++ leBytes 4 0 }
    let c := c.setF Fld.sysMsgq_lost [t] 0
    if q.q.length + 1 < 256 then { c with msgs := Tab.set c.msgs t { q with q := q.q ++ [l, m] } }
    else { c with msgs := Tab.set c.msgs t { q with q := q.q ++ [l] } }.countSat Fld.sysMsgq_lost [t]
  else { c with msgs := Tab.set c.msgs t { q with q := q.q ++ [m] } }

/-- R430: a message of a kind the Tent's SYS_MSG_MASK enables is queued; kind 1 always. -/
def Chip.message (c : Chip) (t kind : Nat) (body : List Byte) : Chip :=
  if kind = 1 ∨ bitOf (c.get { name := .sysMsgMask, idx := [t] }).toNat kind then
    c.pushMsg t { kind := kind, body := body }
  else c

/-- A reply is sent (R414): with silent set a final reply of OK is not. -/
def Chip.reply (c : Chip) (silent : Bool) (r : Reply) : Chip :=
  if silent ∧ r.final ∧ r.status = 0 then c else c.out (.reply r)

/-! ### Event flags (R13) -/

/-- The Tent whose flag an event register is, beside Tent 0 (kind 4 of R430). -/
def flagTentOf (r : Reg) : Option Nat :=
  match r.name, r.idx with
  | .budEvWait, [t] => some t
  | .wsetEvFail, [t] => some t
  | _, _ => none

/-- R13, R430: an event: the count rises, saturating at 255, the flag and the hidden marker of R33 are
set, and where the flag rose an event message is queued. -/
def Chip.event (c : Chip) (r : Reg) : Chip :=
  let old := (c.get r).toNat
  let new := 0x100 + min (bitsOf old 7 0 + 1) 255
  let c := c.put r (BitVec.ofNat 64 new)
  let c := { c with marks := if c.marks.contains r then c.marks else r :: c.marks }
  if bitOf old 8 then c
  else
    let body := leBytes 8 r.addr ++ leBytes 8 new
    let c := c.message 0 4 body
    match flagTentOf r with
    | some t => if t = 0 then c else c.message t 4 body
    | none => c

/-- An event in a register named without a word. -/
def Chip.ev (c : Chip) (n : RegName) (idx : List Nat := []) : Chip := c.event { name := n, idx := idx }

/-- R13, R33: a ticketed clear. It takes effect when bit 31 is set, the ticket equals the count, and no event has
come since the last read: a clear never erases an event that arrived after it, whatever its ticket. -/
def Chip.ticketClear (c : Chip) (r : Reg) (x : Word) : Chip :=
  let old := (c.get r).toNat
  if bitOf x.toNat 31 ∧ bitsOf x.toNat 7 0 = bitsOf old 7 0 ∧ ¬ c.marks.contains r then c.put r 0 else c

/-! ### Device units by index -/

def Chip.dale (c : Chip) (k : Nat) : Dale := Tab.get c.dales k {}

def Chip.setDale (c : Chip) (k : Nat) (d : Dale) : Chip := { c with dales := Tab.set c.dales k d }

/-- The Vale's drain has ended: its engines stand (R520). -/
def Chip.valeDrained (c : Chip) (v : Nat) : Bool :=
  match Tab.get (c.drains.map fun p => (p.1, some p.2)) (0, v) none with
  | some d => d.done
  | none => false

def Chip.bank (c : Chip) (v b : Nat) : Bank := Tab.get c.banks (v, b) {}

def Chip.setBank (c : Chip) (v b : Nat) (x : Bank) : Chip := { c with banks := Tab.set c.banks (v, b) x }

def Chip.adc (c : Chip) (v l : Nat) : Adc := Tab.get c.adcs (v, l) {}

def Chip.setAdc (c : Chip) (v l : Nat) (a : Adc) : Chip := { c with adcs := Tab.set c.adcs (v, l) a }

end Sys2Proof.Machine
end

