-- ==== Sys2Proof/Machine/Status.lean ====
section
/-!
DEFINITION. Sys2Proof/Machine/Status.lean: the status codes of R435.
-/

namespace Sys2Proof.Status

def ok : Nat := 0x00
def okClipped : Nat := 0x01
def accepted : Nat := 0x02
def scaleSkew : Nat := 0x10
def misroute : Nat := 0x11
def lockLost : Nat := 0x12
def budgetWaitLimit : Nat := 0x13
def setNotActive : Nat := 0x14
def late : Nat := 0x15
def signatureFail : Nat := 0x20
def shardHashFail : Nat := 0x21
def shardTimeout : Nat := 0x22
def queueFull : Nat := 0x30
def mpOverload : Nat := 0x31
def thermalHold : Nat := 0x40
def creditDenied : Nat := 0x41
def writeWindow : Nat := 0x42
def badOpcode : Nat := 0x50
def badParam : Nat := 0x51
def notPermitted : Nat := 0x52
def calDisagree : Nat := 0x60
def calImplausible : Nat := 0x61

/-- R142: the order of the statuses a Dale job can end with at one row. -/
def rank (s : Nat) : Nat :=
  [scaleSkew, misroute, lockLost, budgetWaitLimit, setNotActive, late, notPermitted,
   thermalHold].findIdx fun x => x == s

end Sys2Proof.Status
end

