-- ==== Sys2Proof/Machine/GateOps.lean ====
section
/-!
DEFINITION. Sys2Proof/Machine/GateOps.lean: budget frames, pitches, leases and issue gates (R34 to R46)
and the current arbiter's accounts (R49 to R57, R550): the operations the meanings of every family
share.
-/

namespace Sys2Proof.Machine

/-- Class of a gate (R38). -/
def gateClass : Gate → Nat
  | .dale _ => 0
  | .array _ => 1
  | .core _ => 2
  | .quad _ => 3
  | .pass _ => 4
  | .coder _ => 5
  | .mp => 6
  | .cal _ => 7

/-- The unit of a class in base quantities (R38): symbols, phases, instructions, bytes, bytes,
iterations, MP instructions, steps. -/
def classUnit (cl : Nat) : Nat := [4096, 1024, 65536, 65536, 65536, 16, 4096, 1].getD cl 1

/-- The gate exists (R16, R17, R38). -/
def gateExists : Gate → Bool
  | .dale k => decide (k < 144)
  | .array i => decide (i < 27648)
  | .core i => decide (i < 27648)
  | .quad q => decide (q < 4)
  | .pass p => decide (p < 8)
  | .cal v => decide (v < 48)
  | _ => true

/-! ### Current credits -/

/-- The consumer group of a request (R51). -/
def askerGroup : Asker → Nat
  | .dale k => k / 12
  | .reading n => 12 + n
  | .program n _ => 12 + n
  | .quarter q => 48 + q
  | .decoder => 56
  | .encoder => 56
  | .booster _ => 57

/-- Its credit step (R51, R166, R440). -/
def askerStep : Asker → Nat
  | .dale _ => 4
  | .reading _ => 1
  | .program _ _ => 1
  | .quarter _ => 8
  | .decoder => 2
  | .encoder => 8
  | .booster _ => 3

/-- The unit that asks exists. -/
def askerExists : Asker → Bool
  | .dale k => decide (k < 144)
  | .reading n => decide (n < 36)
  | .program n s => decide (n < 36 ∧ s < 800)
  | .quarter q => decide (q < 4)
  | .booster k => decide (k < 12)
  | _ => true

def Chip.granted (c : Chip) (g : Nat) : Nat := c.f Fld.budGroupState_granted [g]

def Chip.grantedAll (c : Chip) : Nat := ((List.range 58).map c.granted).sum

def Chip.floorOf (c : Chip) (g : Nat) : Nat := c.f Fld.budGroupCfg_floor [g]

def Chip.floorsAll (c : Chip) : Nat := ((List.range 58).map c.floorOf).sum

/-- The ceiling in force: the configured one, or the lower one throttling has set (R56, R472). -/
def Chip.effCeiling (c : Chip) (g : Nat) : Nat :=
  let cfg := c.f Fld.budGroupCfg_ceiling [g]
  match Tab.get c.throttle g none with
  | none => cfg
  | some n => min cfg n

/-- eff_ceiling of BUD_GROUP_STATE (R58): 0, its reset value, until the group is powered and holds credits (R51). -/
def Chip.ceilingView (c : Chip) (g : Nat) : Nat := if c.granted g = 0 then 0 else c.effCeiling g

/-- Credit steps a cut has chosen of a unit's kind (R56). -/
def Chip.shedCount (c : Chip) (a : Asker) : Nat := (c.bud.shed.filter fun x => x == a).length

/-- R51, R52, R56: a quadrant runs a request only while its group holds the step of a quarter of its bandwidth that no
cut has chosen: its floor carries none (log entry 88). -/
def Chip.quarterOk (c : Chip) : Gate → Bool
  | .quad q => decide (c.shedCount (.quarter q) < (c.granted (48 + q) - c.floorOf (48 + q)) / 8)
  | _ => true

/-- R57: the request could never be granted. -/
def Chip.neverGranted (c : Chip) (g step : Nat) : Bool :=
  decide (c.f Fld.budGroupCfg_ceiling [g] < c.floorOf g + step) ||
  decide (c.f Fld.budCredBudget_budget < c.floorsAll + step)

/-- R54: the ramp allowance in hundredths of a credit. -/
def Chip.rampOf (c : Chip) (g : Nat) : Int :=
  Tab.get c.bud.ramp g (100 * (c.f Fld.budGroupCfg_ramp [g] : Int))

def Chip.setRamp (c : Chip) (g : Nat) (x : Int) : Chip :=
  { c with bud := { c.bud with ramp := Tab.set c.bud.ramp g x } }

/-- R49, R52, R54: budget, ceiling and ramp allowance permit the step now. -/
def Chip.fits (c : Chip) (r : CreditReq) : Bool :=
  let lim := c.f Fld.budGroupCfg_ramp [r.group]
  decide (c.grantedAll + r.step ≤ c.f Fld.budCredBudget_budget) &&
  decide (c.granted r.group + r.step ≤ c.effCeiling r.group) &&
  (lim == 0 || decide ((100 * r.step : Int) ≤ c.rampOf r.group) ||
    (decide (lim < r.step) && decide ((100 * lim : Int) ≤ c.rampOf r.group)))

/-- R53: the first request in order of arrival that fits; a request passed 8 times that does not
fit stops the search. -/
def firstFit (fits : CreditReq → Bool) : List CreditReq → Option CreditReq
  | [] => none
  | r :: rs => if fits r then some r else if 8 ≤ r.passed then none else firstFit fits rs

/-- The requests before the granted one have been passed once more (R53), and it leaves the list. -/
def passOver (g : CreditReq) : List CreditReq → List CreditReq
  | [] => []
  | r :: rs => if r = g then rs else { r with passed := r.passed + 1 } :: passOver g rs

/-- A group's credits change by a step up (a grant) with its ramp allowance lowered (R54). -/
def Chip.addCredits (c : Chip) (g step : Nat) : Chip :=
  let c' := c.setF Fld.budGroupState_granted [g] (c.granted g + step)
  if c.f Fld.budGroupCfg_ramp [g] = 0 then c' else c'.setRamp g (c.rampOf g - 100 * step)

/-- A release returns credits, never below the floor (R51, R55). -/
def Chip.dropCredits (c : Chip) (g step : Nat) : Chip :=
  c.setF Fld.budGroupState_granted [g] (max (c.floorOf g) (c.granted g - step))

/-- The arbiter answers a unit (R52, R57). -/
def Chip.answerCredits (c : Chip) (a : Asker) (status : Nat) : Chip :=
  { c with bud := { c.bud with answers := Tab.set c.bud.answers a status } }

/-- A request joins the arbiter's list, once for each asker (R52); one that could never be granted is answered
CREDIT_DENIED (R57), and its work waits on (log entry 15). -/
def Chip.askCredits (c : Chip) (a : Asker) : Chip :=
  if c.neverGranted (askerGroup a) (askerStep a) then (c.answerCredits a Status.creditDenied).ev .budEvDenied
  else if c.bud.requests.any (fun r => r.who == a) then c
  else { c with bud := { c.bud with requests := c.bud.requests ++
    [{ who := a, group := askerGroup a, step := askerStep a }] } }

/-- R550: the waiting requests of a group are withdrawn without an answer. -/
def Chip.withdraw (c : Chip) (g : Nat) : Chip :=
  { c with bud := { c.bud with requests := c.bud.requests.filter fun r => r.group != g } }

/-- A group returned to its floor (R473, R520, R521): its requests are withdrawn (R550). -/
def Chip.toFloor (c : Chip) (g : Nat) : Chip :=
  (c.withdraw g).setF Fld.budGroupState_granted [g] (c.floorOf g)

/-! ### Pitches, leases and waiting grains -/

/-- R40: the pitch in force in the current frame. -/
def Chip.pitch (c : Chip) (t cl : Nat) : Nat :=
  Tab.get c.bud.pitch (t, cl) (({ name := .budPitch, idx := [t, cl] } : Reg).resetValue.toNat)

/-- R40: the allowance of a frame in base quantities; none where the pitch is without limit. -/
def Chip.allowance (c : Chip) (t cl : Nat) : Option Nat :=
  let p := c.pitch t cl
  if p = 0xFFFFF then none else some (p * c.bud.frameLen * classUnit cl)

def Chip.usedOf (c : Chip) (t cl : Nat) : Nat := Tab.get c.bud.used (t, cl) 0

/-- The last boundary a gate has seen (R37). -/
def Chip.seenOf (c : Chip) (g : Gate) : Nat := Tab.get c.bud.seen g 0

/-- What is left of a gate's leases for a Tent in frame `fr`. -/
def Chip.leaseIn (c : Chip) (g : Gate) (t fr : Nat) : Nat :=
  (((Tab.get c.bud.leases (g, t) []).filter fun p => p.1 == fr).map fun p => p.2).sum

/-- What a gate may count against now: its leases of the frame it has seen last (R41). -/
def Chip.leaseLeft (c : Chip) (g : Gate) (t : Nat) : Nat := c.leaseIn g t (c.seenOf g)

/-- A gate's leases for a Tent in frame `fr` set to one quantity. -/
def Chip.setLease (c : Chip) (g : Gate) (t fr n : Nat) : Chip :=
  let old := (Tab.get c.bud.leases (g, t) []).filter fun p => p.1 != fr
  { c with bud := { c.bud with leases := Tab.set c.bud.leases (g, t) ((fr, n) :: old) } }

/-- R41: the central counter issues a lease of one unit or of one grain, whichever is larger, only
while the used quantity is below the allowance. The lease belongs to the counter's frame. -/
def Chip.requestLease (c : Chip) (g : Gate) (t qty : Nat) : Option Chip :=
  let cl := gateClass g
  let ok := match c.allowance t cl with
    | none => true
    | some a => decide (c.usedOf t cl < a)
  if ok then
    let n := max (classUnit cl) qty
    let c := { c with bud := { c.bud with used := Tab.set c.bud.used (t, cl) (c.usedOf t cl + n) } }
    some (c.setLease g t c.bud.frame (c.leaseIn g t c.bud.frame + n))
  else none

/-- The grains of a Tent at a gate that wait for pitch or credits. -/
def Chip.waitingAt (c : Chip) (g : Gate) (t : Nat) : List Waiting :=
  c.bud.waiting.filter fun w => w.gate == g && w.tent == t

/-- A grain joins the waiting ones, once (R44). -/
def Chip.wait (c : Chip) (g : Gate) (t qty : Nat) (credit : Bool) (job : Option Gate := none) : Chip :=
  if (c.waitingAt g t).any (fun w => w.credit == credit && w.job == job) then c
  else { c with bud := { c.bud with
    waiting := c.bud.waiting ++ [{ gate := g, tent := t, qty := qty, credit := credit, job := job }] } }

/-- The grains of a Tent at a gate no longer wait: those of one job, or those of the gate's own. -/
def Chip.unwait (c : Chip) (g : Gate) (t : Nat) (job : Option Gate := none) : Chip :=
  { c with bud := { c.bud with
    waiting := c.bud.waiting.filter fun w => !(w.gate == g && w.tent == t && w.job == job) } }

/-- What a job waited for at a gate in credits is there. -/
def Chip.creditMet (c : Chip) (g : Gate) (job : Option Gate) : Chip :=
  { c with bud := { c.bud with
    waiting := c.bud.waiting.filter fun w => !(w.credit && w.gate == g && w.job == job) } }

/-- A job of a Tent ends: none of its grains waits any more, at its gate or at another. -/
def Chip.unwaitJob (c : Chip) (g : Gate) (t : Nat) : Chip :=
  { c with bud := { c.bud with
    waiting := c.bud.waiting.filter fun w => !(w.job.getD w.gate == g && w.tent == t) } }

/-- R485: what is charged to a Tent counts in its activity. -/
def Chip.charge (c : Chip) (t cl qty : Nat) : Chip :=
  { c with act := Tab.set c.act (t, cl) (Tab.get c.act (t, cl) 0 + qty) }

/-- R44: an older grain of the Tent, of another job, waits at the gate. -/
def Chip.behind (c : Chip) (g : Gate) (t : Nat) (job : Option Gate) : Bool :=
  match c.waitingAt g t with
  | [] => false
  | w :: _ => w.job != job

/-- A gate admits a grain against a lease it holds, asking the counter for one where it holds too
little (R41); the Tent is then the one served last (R43). None: the grain waits, for pitch, behind an older one (R44),
or for the credits of its quadrant (R52). -/
def Chip.spend (c : Chip) (g : Gate) (t qty : Nat) (job : Option Gate := none) : Option Chip :=
  let take (c : Chip) : Option Chip :=
    if qty ≤ c.leaseLeft g t then
      let c := c.setLease g t (c.seenOf g) (c.leaseLeft g t - qty)
      let c : Chip := { c with bud := { c.bud with served := Tab.set c.bud.served g t } }
      some ((c.charge t (gateClass g) qty).unwait g t job)
    else none
  if c.behind g t job ∨ ¬ c.quarterOk g then none
  else match take c with
    | some c => some c
    | none => (c.requestLease g t qty).bind take

/-- A grain that is not admitted waits at its gate, for credits where it is a quadrant that holds too few (R52). -/
def Chip.waitGrain (c : Chip) (g : Gate) (t qty : Nat) (job : Option Gate := none) : Chip :=
  match g, c.quarterOk g with
  | .quad q, false => (c.askCredits (.quarter q)).wait g t qty true job
  | _, _ => c.wait g t qty false job

/-- R43: what waits at a gate in the order it is served: round-robin by Tent after the one served last, the oldest of
each Tent first. `n` bounds the items. -/
def turnOrder {α : Type} [DecidableEq α] (tent : α → Nat) : Nat → Nat → List α → List α
  | 0, _, _ => []
  | n + 1, last, xs =>
    match (List.range 64).findSome? fun d => xs.find? fun x => tent x == (last + 1 + d) % 64 with
    | none => []
    | some x => x :: turnOrder tent n (tent x) (xs.erase x)

/-- The Tent a gate served last (R43). -/
def Chip.servedLast (c : Chip) (g : Gate) : Nat := Tab.get c.bud.served g 63

/-- R361, R38: the GDDR7 requests of at most 4 KiB that an access of `len` bytes makes, each at the
quadrant of its first byte. -/
def memGrains : Nat → Nat → Nat → List (Gate × Nat)
  | 0, _, _ => []
  | n + 1, addr, len =>
    if len = 0 then []
    else
      let k := min len 4096
      (.quad (quadrantOf addr), k) :: memGrains n (addr + k) (len - k)

/-- The MEM grains of an access, none outside GDDR7 (R38, R361). -/
def memAccess (addr len : Nat) : List (Gate × Nat) :=
  if inGddr addr then memGrains (len / 4096 + 1) addr len else []

/-- Every grain of a list is admitted, or the first that is not waits and none is charged; `job` is the gate
of the job they belong to. -/
def Chip.admitAll (c : Chip) (t : Nat) (gs : List (Gate × Nat)) (job : Option Gate := none) : Chip × Bool :=
  let own (g : Gate) : Option Gate := if job = some g then none else job
  let r := gs.foldl (fun (s : Option Chip × Option (Gate × Nat)) g =>
    match s.1, s.2 with
    | some c', none => match c'.spend g.1 t g.2 (own g.1) with
      | some c'' => (some c'', none)
      | none => (some c', some g)
    | x, y => (x, y)) (some c, none)
  match r with
  | (some c', none) => (c', true)
  | (_, some g) => (c.waitGrain g.1 t g.2 (own g.1), false)
  | _ => (c, false)

/-- R41: the boundary in the radio timing island: the central counters return to zero, every lease
issued from then on belongs to the new frame, pitches written since apply (R40). -/
def Chip.newFrame (c : Chip) : Chip :=
  let pitch := c.regs.filterMap fun p =>
    match p.1.name, p.1.idx, p.1.w with
    | .budPitch, [t, cl], 0 => some ((t, cl), bitsOf p.2.toNat 19 0)
    | _, _, _ => none
  let c := { c with bud := { c.bud with used := [], frame := c.bud.frame + 1, pitch := pitch } }
  c.count Fld.budFrameCount_frameCount []

/-- R37, R41, R45: a boundary reaches a gate: leases of older frames lapse, and each grain waiting
there is first offered the new frame's allowance; one that obtains no lease, and one that waits for
credits, has met a boundary more. -/
def Chip.gateBoundary (c : Chip) (g : Gate) : Chip :=
  if c.seenOf g = c.bud.frame then c
  else
    let kept := c.bud.leases.map fun p =>
      if p.1.1 = g then (p.1, p.2.filter fun q => q.1 == c.bud.frame) else p
    let seen := Tab.set c.bud.seen g c.bud.frame
    let c := { c with bud := { c.bud with seen := seen, leases := kept } }
    let mine := c.bud.waiting.filter fun w => w.gate == g
    mine.foldl (fun c w =>
      let step (c : Chip) : Chip :=
        let ws := c.bud.waiting.map fun x => if x = w then { x with met := x.met + 1 } else x
        { c with bud := { c.bud with waiting := ws } }
      if w.credit then step c
      else match c.requestLease g w.tent w.qty with
        | some c' =>
          { c' with bud := { c'.bud with waiting := c'.bud.waiting.filter fun x => x != w } }
        | none => step c) c

/-- R45: the grains of a Tent at a gate have met wait_frames + 1 boundaries. -/
def Chip.waitedOut (c : Chip) (g : Gate) (t : Nat) : Bool :=
  let lim := c.f Fld.budWaitLimit_waitFrames [t]
  decide (lim ≠ 0) && (c.waitingAt g t).any fun w => decide (lim + 1 ≤ w.met)

/-- The BUD_USED word of a Tent and class (R41). -/
def Chip.usedView (c : Chip) (t cl : Nat) : Nat :=
  let u := ceilDiv (c.usedOf t cl) (classUnit cl)
  let w := c.bud.waiting.any fun x => !x.credit && x.tent == t && gateClass x.gate == cl
  w.toNat * 2 ^ 31 + min u 0xFFFFF

end Sys2Proof.Machine
end

