-- ==== Sys2Proof/Machine/MemOps.lean ====
section
/-!
DEFINITION. Sys2Proof/Machine/MemOps.lean: what the windows allow (R163, R309, R310), completion records
(R427), and the active weight set of a Tent (R359, R360, R366).
-/

namespace Sys2Proof.Machine

/-- The permissions of a window segment (R309) by bit. -/
inductive Perm where
  | r | w | x | a
deriving DecidableEq, Repr

def permBit : Perm → Nat
  | .r => 62
  | .w => 61
  | .x => 60
  | .a => 59

/-- The segment word `s` of a Tent's window table (R309). -/
def Chip.segment (c : Chip) (t s : Nat) : Nat := (c.get { name := .tentWin, idx := [t, s] }).toNat

def segBase (x : Nat) : Nat := bitsOf x 47 16 * 65536

def segSize (x : Nat) : Nat := 2 ^ bitsOf x 55 48

/-- The segment is valid and contains an address. -/
def segHas (x addr : Nat) : Bool :=
  bitOf x 63 && decide (segBase x ≤ addr ∧ addr < segBase x + segSize x)

/-- R163: the range touches a protected level-image region. -/
def Chip.touchesImage (c : Chip) (addr len : Nat) : Bool :=
  (List.range 36).any fun n =>
    let b := c.f Fld.veldImgBase_base [n] * 65536
    c.flag Fld.veldImgBase_valid [n] && decide (addr < b + 0x6000000 ∧ b < addr + len)

/-- R310: the windows of a Tent allow an access: the first valid segment that contains its first byte
holds it wholly and carries the permission, and but for Tent 0 it touches no protected region. -/
def Chip.admits (c : Chip) (t : Nat) (p : Perm) (addr len : Nat) : Bool :=
  let segs := (List.range 64).map fun s => c.segment t s
  match segs.find? fun x => segHas x addr with
  | none => false
  | some x =>
    bitOf x (permBit p) && decide (addr + len ≤ segBase x + segSize x) &&
      (t == 0 || !c.touchesImage addr len)

/-- The 32 bytes of a completion record (R427). -/
structure Completion where
  tag     : Nat
  status  : Nat
  tent    : Nat
  coder   : Bool
  epoch   : Nat := 0
  ovr     : Nat := 0
  disc    : Nat := 0
  stat    : Nat
  dale    : Nat := 0xFFFF
  row     : Nat := 0
deriving DecidableEq, Repr

/-- R427: the record in memory order. -/
def Completion.toBytes (r : Completion) : List Byte :=
  leBytes 2 r.tag ++ leBytes 1 r.status ++ leBytes 1 (r.tent + r.coder.toNat * 64) ++ leBytes 4 r.epoch
    ++ leBytes 4 r.ovr ++ leBytes 4 r.disc ++ leBytes 6 r.stat ++ leBytes 2 r.dale ++ leBytes 4 r.row
    ++ leBytes 4 0x80000000

/-- R424, R427: the record is written where it has an address, and sent as a message where asked. -/
def Chip.complete (c : Chip) (r : Completion) (addr : Option Nat) (msg : Bool) : Chip :=
  let c := match addr with
    | some a => c.store a r.toBytes
    | none => c
  if msg then c.message r.tent 1 r.toBytes else c

/-! ### Weight sets in use -/

/-- R366: the slot a Tent's pointer names, if it names one that is ACTIVE. -/
def Chip.activeSlot (c : Chip) (t : Nat) : Option Nat :=
  let s := c.f Fld.wsetActive_slot [t]
  if s < 2 ∧ c.f Fld.wsetSlot_state [t, s] = 4 then some s else none

def Chip.slotInfo (c : Chip) (t s : Nat) : WSlot := Tab.get c.slots (t, s) {}

/-- R351: the epoch of a slot's set. -/
def Chip.slotEpoch (c : Chip) (t s : Nat) : Nat := c.f Fld.wsetSlot_epoch [t, s]

/-- R359: address of the tile record of a tile of a slot's set. -/
def Chip.tileRecord (c : Chip) (t s tile : Nat) : Nat := (c.slotInfo t s).tier + 160 * tile

/-- R359, R360: a tile of a slot's set as its record names it: bytes, mode and weight scale. -/
def Chip.setTile (c : Chip) (t s tile : Nat) : Tile :=
  let rec0 := c.tileRecord t s tile
  let addr := bitsOf (c.num rec0 8) 47 0
  let wmode := c.num (rec0 + 10) 1
  { bytes := c.bytes addr (if wmode = 0 then 4096 else 8192), wmode := wmode, sw := c.num (rec0 + 8) 2,
    epoch := c.slotEpoch t s, index := tile, addr := addr }

end Sys2Proof.Machine
end

