-- ==== Sys2Proof/Machine/CmdOps.lean ====
section
/-!
DEFINITION. Sys2Proof/Machine/CmdOps.lean: what every host command shares: the checks of R415 and R416
in their order, the two paths of R417, the MP queues of R418, and the replies of R414 and R420.
-/

namespace Sys2Proof

def Cmd.silent (m : Cmd) : Bool := bitOf m.flags.toNat 2

def Cmd.msgcpl (m : Cmd) : Bool := bitOf m.flags.toNat 1

/-- Word `n` of a command, words numbered from 1 (R421). -/
def Cmd.word (m : Cmd) (n : Nat) : Nat := ((m.words.getD (n - 1) 0).toNat)

/-- The first parameter of a command. -/
def Cmd.p (m : Cmd) : Nat := m.param.toNat

/-- R421: a field not named is reserved: bits of the first parameter outside `mask` are set. -/
def Cmd.stray (m : Cmd) (mask : Nat) : Bool := m.p &&& mask != m.p

end Sys2Proof

namespace Sys2Proof.Machine

/-- The group of an opcode (R412). -/
def opGroup (op : Nat) : Nat := op / 256

/-- The opcodes R421 assigns. -/
def opcodes : List Nat :=
  [0x0101, 0x0102, 0x0103, 0x0104, 0x0201, 0x0202, 0x0203, 0x0204, 0x0205, 0x0301, 0x0302, 0x0303,
   0x0304, 0x0401, 0x0402, 0x0403, 0x0501, 0x0502, 0x0503, 0x0601, 0x0602, 0x0603, 0x0701, 0x0702,
   0x0801, 0x0802, 0x0901, 0x0902, 0x0903, 0x0A01, 0x0A02, 0x0A03, 0x0A04, 0x0B01, 0x0C01, 0x0C02,
   0x0C03, 0x0C04, 0x0C05, 0x0D01, 0x0D02, 0x0D03, 0x0E01, 0x0E02, 0x0E03, 0x0E04]

/-- The opcodes R421 marks T0. -/
def opTentZero (op : Nat) : Bool :=
  [0x0103, 0x0104, 0x0201, 0x0202, 0x0203, 0x0204, 0x0205, 0x0501, 0x0502, 0x0503, 0x0601, 0x0602,
   0x0603, 0x0701, 0x0702, 0x0801, 0x0802, 0x0901, 0x0903, 0x0A01, 0x0A02, 0x0A03, 0x0A04, 0x0C02,
   0x0C03, 0x0C04, 0x0C05].contains op

/-- The opcodes R421 marks L. -/
def opLong (op : Nat) : Bool :=
  [0x0103, 0x0104, 0x0201, 0x0202, 0x0203, 0x0301, 0x0303, 0x0304, 0x0501, 0x0502, 0x0503, 0x0603,
   0x0701, 0x0A01, 0x0C01, 0x0C04, 0x0C05].contains op

/-- The hardware path of R417. -/
def opHardware (op : Nat) : Bool :=
  opGroup op == 4 || opGroup op == 0xE || op == 0x0B01 || op == 0x0102

/-- The range of lengths of an opcode in words after the header (R421, and the chapters it names). -/
def opWords (op : Nat) : Nat × Nat :=
  match op with
  | 0x0102 => (0, 16)
  | 0x0202 => (3, 3)
  | 0x0203 => (1, 1)
  | 0x0204 => (64, 64)
  | 0x0205 => (9, 9)
  | 0x0301 => (15, 15)
  | 0x0304 => (4, 4)
  | 0x0401 => (16, 16)
  | 0x0402 => (8, 8)
  | 0x0403 => (2, 2)
  | 0x0501 => (1, 1)
  | 0x0502 => (1, 1)
  | 0x0601 => (8, 8)
  | 0x0602 => (8, 8)
  | 0x0701 => (1, 1)
  | 0x0702 => (1, 64)
  | 0x0801 => (1, 1)
  | 0x0802 => (13, 13)
  | 0x0A03 => (2, 2)
  | 0x0A04 => (1, 2047)
  | 0x0B01 => (4, 1024)
  | 0x0C01 => (5, 5)
  | 0x0C02 => (1, 1)
  | 0x0C04 => (2, 2)
  | 0x0E02 => (1, 16)
  | 0x0E03 => (1, 1)
  | 0x0E04 => (2, 513)
  | _ => (0, 0)

/-- R412, R421: the flags an opcode takes. -/
def opFlags (op : Nat) : BitVec 8 := if op = 0x0401 ∨ op = 0x0402 then 6 else 4

/-- The final reply of a command (R414): it no longer runs. -/
def Chip.finish (c : Chip) (op : Nat) (m : Cmd) (status : Nat) (detail : Nat := 0)
    (words : List Word := []) : Chip :=
  let c := { c with longs := c.longs.filter fun x => !(x.op == op && x.cmd == m) }
  c.reply m.silent { op := op, tent := m.tent, tag := m.tag, status := status, detail := detail,
                     words := words }

/-- The final reply of a long command that has been accepted; none where a restart of the MP has answered it
already (R419). -/
def Chip.answer (c : Chip) (op : Nat) (m : Cmd) (status : Nat) (detail : Nat := 0) (words : List Word := []) : Chip :=
  if c.longs.any fun x => x.op == op && x.cmd == m then c.finish op m status detail words else c

/-- R420: a long command has passed its checks on receipt. -/
def Chip.accept (c : Chip) (op : Nat) (m : Cmd) : Chip :=
  let c : Chip := { c with longs := c.longs ++ [{ op := op, cmd := m }] }
  c.reply m.silent
    { op := op, tent := m.tent, tag := m.tag, status := Status.accepted, final := false }

/-- R420: a long command whose operation ends at once. -/
def Chip.acceptFinish (c : Chip) (op : Nat) (m : Cmd) (status : Nat) (detail : Nat := 0)
    (words : List Word := []) : Chip :=
  (c.accept op m).finish op m status detail words

/-- R416: what the device state answers to an opcode, none where it is served. -/
def stateRefuses (d : DevState) (op : Nat) : Option Nat :=
  let g := opGroup op
  match d with
  | .starting =>
    if [1, 5, 9, 0xC, 0xD, 0xE].contains g then none else some Status.notPermitted
  | .hold =>
    if [3, 4, 6, 7, 8, 0xA, 0xB].contains g ∨ op = 0x0502 ∨ op = 0x0503 then
      some Status.thermalHold else none
  | _ => none

/-- R345, R415: a Tent is OPEN. -/
def Chip.isOpen (c : Chip) (t : Nat) : Bool := c.f Fld.tentCtl_state [t] == 1

/-- R415, checks 1 to 4: the status of the first that fails. -/
def Chip.checks (c : Chip) (op : Nat) (m : Cmd) : Option Nat :=
  if ¬ opcodes.contains op then some Status.badOpcode
  else if m.flags &&& ~~~ opFlags op ≠ 0 ∨ m.words.length < (opWords op).1 ∨
      (opWords op).2 < m.words.length then some Status.badParam
  else if (opTentZero op ∧ m.tent ≠ 0) ∨ (opGroup op = 4 ∧ ¬ c.isOpen m.tent) then
    some Status.notPermitted
  else match stateRefuses c.device op with
    | some st => some st
    | none =>
      -- R505: in recovery the boot ROM answers three commands of the MP path
      if c.flag Fld.sysBoot_recovery ∧ ¬ opHardware op ∧ ¬ [0x0101, 0x0C04, 0x0C05].contains op then
        some Status.notPermitted
      else none

/-- The device takes commands: its link is served from STARTING on (R461). -/
def Chip.powered (c : Chip) : Bool :=
  match c.device with
  | .off => false
  | .lantern => false
  | _ => true

/-- A Tent of R413: commands come from the queue pairs of 64 Tents. -/
def tentOk (t : Nat) : Bool := decide (t < 64)

/-! ### The MP path -/

def Chip.mpQueue (c : Chip) (t : Nat) : List MpItem := Tab.get c.mpq t []

/-- A Tent's MP queue set, with its depth in SYS_MPQ. -/
def Chip.setMpQueue (c : Chip) (t : Nat) (q : List MpItem) : Chip :=
  let c : Chip := { c with mpq := Tab.set c.mpq t q }
  c.setF Fld.sysMpq_depth [t] q.length

/-- R38: one scheduling slice of the MP. -/
def mpSlice : Nat := 1024

/-- R418: the MP takes a command: the queue's front, under the MGMT gate. -/
def Chip.mpTaken (c : Chip) (t : Nat) : Chip := c.count Fld.sysMpq_served [t]

/-- R418: an MP-path command that has passed the checks joins its Tent's queue; where nothing of the
Tent waits before it and its slice is admitted, the MP serves it at once, unless it takes no further command (R507). -/
def Chip.mpReceive (c : Chip) (op : Nat) (m : Cmd) (meas : List Int) (body : Chip → Chip) : Chip :=
  match c.checks op m with
  | some st => c.finish op m st
  | none =>
    let q := c.mpQueue m.tent
    if 64 ≤ q.length then c.finish op m Status.queueFull
    else if q.isEmpty ∧ c.boot.switching.isNone then
      match c.spend .mp m.tent mpSlice with
      | some c => body (c.mpTaken m.tent)
      | none => (c.wait .mp m.tent mpSlice false).setMpQueue m.tent [{ op := op, cmd := m, meas := meas }]
    else c.setMpQueue m.tent (q ++ [{ op := op, cmd := m, meas := meas }])

/-- R417: a command of the hardware path that has passed the checks is served. -/
def Chip.hwReceive (c : Chip) (op : Nat) (m : Cmd) (body : Chip → Chip) : Chip :=
  match c.checks op m with
  | some st => c.finish op m st
  | none => body c

/-- A host command arrives at a device whose link is served, from one of the 64 Tents. -/
def onHost (m : Cmd) (s : State) (f : Chip → Chip) : Outcome :=
  onUnits (tentOk m.tent) s fun c => if c.powered then f c else c

end Sys2Proof.Machine
end

