-- ==== Sys2Proof/Machine/Tables.lean ====
section
/-!
DEFINITION. Sys2Proof/Machine/Tables.lean: number tables the spec gives by formula: the sine table of
R239, the arc sines of R115 for the amplitudes of W6 and W6C, and the cosine of W6C phases (R64).
-/

namespace Sys2Proof

/-- R239: T[i] = round(32,767 sin(π(i + 0.5)/2,048)), part 0. -/
def sineTab0 : List Nat :=
  [25, 75, 126, 176, 226, 276, 327, 377, 427, 477, 528, 578,
   628, 679, 729, 779, 829, 880, 930, 980, 1030, 1080, 1131, 1181,
   1231, 1281, 1332, 1382, 1432, 1482, 1532, 1583, 1633, 1683, 1733, 1783,
   1834, 1884, 1934, 1984, 2034, 2085, 2135, 2185, 2235, 2285, 2335, 2385,
   2436, 2486, 2536, 2586, 2636, 2686, 2736, 2786, 2836, 2886, 2936, 2987,
   3037, 3087, 3137, 3187]

/-- R239: T[i] = round(32,767 sin(π(i + 0.5)/2,048)), part 1. -/
def sineTab1 : List Nat :=
  [3237, 3287, 3337, 3387, 3437, 3487, 3537, 3587, 3637, 3687, 3737, 3786,
   3836, 3886, 3936, 3986, 4036, 4086, 4136, 4186, 4235, 4285, 4335, 4385,
   4435, 4485, 4534, 4584, 4634, 4684, 4733, 4783, 4833, 4882, 4932, 4982,
   5032, 5081, 5131, 5180, 5230, 5280, 5329, 5379, 5428, 5478, 5528, 5577,
   5627, 5676, 5726, 5775, 5825, 5874, 5924, 5973, 6022, 6072, 6121, 6171,
   6220, 6269, 6319, 6368]

/-- R239: T[i] = round(32,767 sin(π(i + 0.5)/2,048)), part 2. -/
def sineTab2 : List Nat :=
  [6417, 6466, 6516, 6565, 6614, 6663, 6713, 6762, 6811, 6860, 6909, 6958,
   7008, 7057, 7106, 7155, 7204, 7253, 7302, 7351, 7400, 7449, 7498, 7547,
   7596, 7644, 7693, 7742, 7791, 7840, 7889, 7937, 7986, 8035, 8084, 8132,
   8181, 8230, 8278, 8327, 8375, 8424, 8473, 8521, 8570, 8618, 8667, 8715,
   8764, 8812, 8860, 8909, 8957, 9006, 9054, 9102, 9150, 9199, 9247, 9295,
   9343, 9391, 9440, 9488]

/-- R239: T[i] = round(32,767 sin(π(i + 0.5)/2,048)), part 3. -/
def sineTab3 : List Nat :=
  [9536, 9584, 9632, 9680, 9728, 9776, 9824, 9872, 9920, 9968, 10016, 10063,
   10111, 10159, 10207, 10255, 10302, 10350, 10398, 10445, 10493, 10541, 10588, 10636,
   10683, 10731, 10778, 10826, 10873, 10920, 10968, 11015, 11063, 11110, 11157, 11204,
   11252, 11299, 11346, 11393, 11440, 11487, 11534, 11581, 11628, 11675, 11722, 11769,
   11816, 11863, 11910, 11957, 12003, 12050, 12097, 12144, 12190, 12237, 12284, 12330,
   12377, 12423, 12470, 12516]

/-- R239: T[i] = round(32,767 sin(π(i + 0.5)/2,048)), part 4. -/
def sineTab4 : List Nat :=
  [12563, 12609, 12655, 12702, 12748, 12794, 12841, 12887, 12933, 12979, 13025, 13071,
   13118, 13164, 13210, 13256, 13302, 13347, 13393, 13439, 13485, 13531, 13577, 13622,
   13668, 13714, 13759, 13805, 13850, 13896, 13942, 13987, 14032, 14078, 14123, 14169,
   14214, 14259, 14304, 14350, 14395, 14440, 14485, 14530, 14575, 14620, 14665, 14710,
   14755, 14800, 14845, 14889, 14934, 14979, 15024, 15068, 15113, 15157, 15202, 15246,
   15291, 15335, 15380, 15424]

/-- R239: T[i] = round(32,767 sin(π(i + 0.5)/2,048)), part 5. -/
def sineTab5 : List Nat :=
  [15468, 15513, 15557, 15601, 15645, 15690, 15734, 15778, 15822, 15866, 15910, 15954,
   15997, 16041, 16085, 16129, 16173, 16216, 16260, 16304, 16347, 16391, 16434, 16478,
   16521, 16565, 16608, 16651, 16694, 16738, 16781, 16824, 16867, 16910, 16953, 16996,
   17039, 17082, 17125, 17168, 17211, 17253, 17296, 17339, 17381, 17424, 17467, 17509,
   17551, 17594, 17636, 17679, 17721, 17763, 17805, 17848, 17890, 17932, 17974, 18016,
   18058, 18100, 18142, 18183]

/-- R239: T[i] = round(32,767 sin(π(i + 0.5)/2,048)), part 6. -/
def sineTab6 : List Nat :=
  [18225, 18267, 18309, 18350, 18392, 18434, 18475, 18517, 18558, 18599, 18641, 18682,
   18723, 18765, 18806, 18847, 18888, 18929, 18970, 19011, 19052, 19093, 19134, 19174,
   19215, 19256, 19297, 19337, 19378, 19418, 19459, 19499, 19539, 19580, 19620, 19660,
   19700, 19741, 19781, 19821, 19861, 19901, 19941, 19981, 20020, 20060, 20100, 20139,
   20179, 20219, 20258, 20298, 20337, 20377, 20416, 20455, 20494, 20534, 20573, 20612,
   20651, 20690, 20729, 20768]

/-- R239: T[i] = round(32,767 sin(π(i + 0.5)/2,048)), part 7. -/
def sineTab7 : List Nat :=
  [20807, 20845, 20884, 20923, 20962, 21000, 21039, 21077, 21116, 21154, 21192, 21231,
   21269, 21307, 21345, 21383, 21422, 21460, 21498, 21535, 21573, 21611, 21649, 21687,
   21724, 21762, 21799, 21837, 21874, 21912, 21949, 21986, 22024, 22061, 22098, 22135,
   22172, 22209, 22246, 22283, 22320, 22356, 22393, 22430, 22466, 22503, 22540, 22576,
   22612, 22649, 22685, 22721, 22757, 22794, 22830, 22866, 22902, 22938, 22973, 23009,
   23045, 23081, 23116, 23152]

/-- R239: T[i] = round(32,767 sin(π(i + 0.5)/2,048)), part 8. -/
def sineTab8 : List Nat :=
  [23188, 23223, 23258, 23294, 23329, 23364, 23400, 23435, 23470, 23505, 23540, 23575,
   23610, 23645, 23679, 23714, 23749, 23783, 23818, 23852, 23887, 23921, 23956, 23990,
   24024, 24058, 24092, 24126, 24160, 24194, 24228, 24262, 24296, 24329, 24363, 24397,
   24430, 24464, 24497, 24530, 24564, 24597, 24630, 24663, 24696, 24729, 24762, 24795,
   24828, 24861, 24893, 24926, 24959, 24991, 25024, 25056, 25088, 25121, 25153, 25185,
   25217, 25249, 25281, 25313]

/-- R239: T[i] = round(32,767 sin(π(i + 0.5)/2,048)), part 9. -/
def sineTab9 : List Nat :=
  [25345, 25377, 25409, 25440, 25472, 25504, 25535, 25567, 25598, 25629, 25661, 25692,
   25723, 25754, 25785, 25816, 25847, 25878, 25909, 25940, 25970, 26001, 26031, 26062,
   26092, 26123, 26153, 26183, 26214, 26244, 26274, 26304, 26334, 26364, 26393, 26423,
   26453, 26482, 26512, 26542, 26571, 26600, 26630, 26659, 26688, 26717, 26746, 26775,
   26804, 26833, 26862, 26891, 26919, 26948, 26977, 27005, 27034, 27062, 27090, 27118,
   27147, 27175, 27203, 27231]

/-- R239: T[i] = round(32,767 sin(π(i + 0.5)/2,048)), part 10. -/
def sineTab10 : List Nat :=
  [27259, 27287, 27314, 27342, 27370, 27397, 27425, 27452, 27480, 27507, 27534, 27562,
   27589, 27616, 27643, 27670, 27697, 27724, 27750, 27777, 27804, 27830, 27857, 27883,
   27910, 27936, 27962, 27988, 28014, 28040, 28066, 28092, 28118, 28144, 28170, 28195,
   28221, 28246, 28272, 28297, 28322, 28348, 28373, 28398, 28423, 28448, 28473, 28498,
   28523, 28547, 28572, 28596, 28621, 28645, 28670, 28694, 28718, 28742, 28767, 28791,
   28815, 28838, 28862, 28886]

/-- R239: T[i] = round(32,767 sin(π(i + 0.5)/2,048)), part 11. -/
def sineTab11 : List Nat :=
  [28910, 28933, 28957, 28980, 29004, 29027, 29050, 29074, 29097, 29120, 29143, 29166,
   29189, 29212, 29234, 29257, 29280, 29302, 29325, 29347, 29369, 29392, 29414, 29436,
   29458, 29480, 29502, 29524, 29545, 29567, 29589, 29610, 29632, 29653, 29675, 29696,
   29717, 29738, 29759, 29780, 29801, 29822, 29843, 29864, 29884, 29905, 29925, 29946,
   29966, 29986, 30007, 30027, 30047, 30067, 30087, 30107, 30126, 30146, 30166, 30185,
   30205, 30224, 30244, 30263]

/-- R239: T[i] = round(32,767 sin(π(i + 0.5)/2,048)), part 12. -/
def sineTab12 : List Nat :=
  [30282, 30302, 30321, 30340, 30359, 30377, 30396, 30415, 30434, 30452, 30471, 30489,
   30508, 30526, 30544, 30562, 30580, 30598, 30616, 30634, 30652, 30670, 30687, 30705,
   30723, 30740, 30757, 30775, 30792, 30809, 30826, 30843, 30860, 30877, 30894, 30910,
   30927, 30944, 30960, 30977, 30993, 31009, 31025, 31041, 31058, 31074, 31089, 31105,
   31121, 31137, 31152, 31168, 31183, 31199, 31214, 31229, 31245, 31260, 31275, 31290,
   31305, 31319, 31334, 31349]

/-- R239: T[i] = round(32,767 sin(π(i + 0.5)/2,048)), part 13. -/
def sineTab13 : List Nat :=
  [31363, 31378, 31392, 31407, 31421, 31435, 31449, 31463, 31477, 31491, 31505, 31519,
   31533, 31546, 31560, 31573, 31587, 31600, 31613, 31627, 31640, 31653, 31666, 31679,
   31691, 31704, 31717, 31729, 31742, 31754, 31767, 31779, 31791, 31803, 31815, 31827,
   31839, 31851, 31863, 31875, 31886, 31898, 31909, 31921, 31932, 31943, 31954, 31965,
   31976, 31987, 31998, 32009, 32020, 32030, 32041, 32051, 32062, 32072, 32082, 32092,
   32103, 32113, 32123, 32132]

/-- R239: T[i] = round(32,767 sin(π(i + 0.5)/2,048)), part 14. -/
def sineTab14 : List Nat :=
  [32142, 32152, 32162, 32171, 32181, 32190, 32200, 32209, 32218, 32227, 32236, 32245,
   32254, 32263, 32272, 32280, 32289, 32297, 32306, 32314, 32322, 32331, 32339, 32347,
   32355, 32363, 32371, 32378, 32386, 32394, 32401, 32409, 32416, 32423, 32431, 32438,
   32445, 32452, 32459, 32466, 32472, 32479, 32486, 32492, 32499, 32505, 32511, 32517,
   32524, 32530, 32536, 32542, 32547, 32553, 32559, 32565, 32570, 32576, 32581, 32586,
   32592, 32597, 32602, 32607]

/-- R239: T[i] = round(32,767 sin(π(i + 0.5)/2,048)), part 15. -/
def sineTab15 : List Nat :=
  [32612, 32617, 32621, 32626, 32631, 32635, 32640, 32644, 32648, 32653, 32657, 32661,
   32665, 32669, 32673, 32676, 32680, 32684, 32687, 32691, 32694, 32697, 32701, 32704,
   32707, 32710, 32713, 32716, 32718, 32721, 32724, 32726, 32729, 32731, 32733, 32736,
   32738, 32740, 32742, 32744, 32746, 32747, 32749, 32751, 32752, 32754, 32755, 32757,
   32758, 32759, 32760, 32761, 32762, 32763, 32764, 32764, 32765, 32765, 32766, 32766,
   32767, 32767, 32767, 32767]

/-- R239: T[i] = round(32,767 sin(π(i + 0.5)/2,048)). -/
def sineTab : List Nat :=
  sineTab0 ++ sineTab1 ++ sineTab2 ++ sineTab3 ++ sineTab4 ++ sineTab5 ++ sineTab6 ++
    sineTab7 ++ sineTab8 ++ sineTab9 ++ sineTab10 ++ sineTab11 ++ sineTab12 ++ sineTab13 ++
    sineTab14 ++ sineTab15

/-- R115: asin(n/31)/π in units of 2^-32 (log entry 3), part 0. -/
def asin310 : List Nat :=
  [0, 44108638, 88263274, 132510340, 176897147, 221472353, 266286466, 311392405, 356846125, 402707335, 449040343, 495915049,
   543408148, 591604602, 640599462, 690500168, 741429490, 793529360, 846965944, 901936509, 958678923, 1017485149, 1078721012, 1142856226,
   1210512051, 1282541161, 1360171153, 1445287343, 1541067172, 1653716521, 1799291828, 2147483648]

/-- R115: asin(n/31)/π in units of 2^-32 (log entry 3). -/
def asin31 : List Nat :=
  asin310

/-- R115: asin(n/63)/π in units of 2^-32 (log entry 3), part 0. -/
def asin630 : List Nat :=
  [0, 21701396, 43408263, 65126084, 86860366, 108616655, 130400547, 152217702, 174073857, 195974841, 217926588, 239935154,
   262006735, 284147680, 306364513, 328663949, 351052921, 373538596, 396128403, 418830062, 441651606, 464601421, 487688277, 510921365,
   534310343, 557865383, 581597221, 605517220, 629637432, 653970679, 678530629, 703331899]

/-- R115: asin(n/63)/π in units of 2^-32 (log entry 3), part 1. -/
def asin631 : List Nat :=
  [728390162, 753722272, 779346406, 805282235, 831551114, 858176307, 885183258, 912599898, 940457019, 968788727, 997632973, 1027032217,
   1057034232, 1087693104, 1119070494, 1151237226, 1184275347, 1218280805, 1253367016, 1289669691, 1327353534, 1366621744, 1407729955, 1451007398,
   1496890486, 1545979078, 1599137542, 1657693791, 1723885575, 1802081223, 1903572947, 2147483648]

/-- R115: asin(n/63)/π in units of 2^-32 (log entry 3). -/
def asin63 : List Nat :=
  asin630 ++ asin631

/-- cos(2πk/256) for k = 0 to 64 in units of 2^-32 (log entry 3), part 0. -/
def cosTab0 : List Nat :=
  [4294967296, 4293673732, 4289793820, 4283329896, 4274285855, 4262667143, 4248480760, 4231735252, 4212440704, 4190608739, 4166252509, 4139386683,
   4110027446, 4078192482, 4043900968, 4007173558, 3968032378, 3926501002, 3882604450, 3836369162, 3787822988, 3736995171, 3683916329, 3628618433,
   3571134792, 3511500034, 3449750080, 3385922125, 3320054617, 3252187232, 3182360851, 3110617535, 3037000500]

/-- cos(2πk/256) for k = 0 to 64 in units of 2^-32 (log entry 3), part 1. -/
def cosTab1 : List Nat :=
  [2961554089, 2884323748, 2805355999, 2724698408, 2642399561, 2558509031, 2473077351, 2386155981, 2297797281, 2208054473, 2116981616, 2024633568,
   1931065957, 1836335144, 1740498191, 1643612827, 1545737412, 1446930903, 1347252816, 1246763195, 1145522571, 1043591926, 941032661, 837906553,
   734275721, 630202589, 525749847, 420980412, 315957395, 210744057, 105403774, 0]

/-- cos(2πk/256) for k = 0 to 64 in units of 2^-32 (log entry 3). -/
def cosTab : List Nat :=
  cosTab0 ++ cosTab1

/-- cos(2πk/256) in units of 2^-32, any k (R64). -/
def cos256 (k : Nat) : Int :=
  let k := k % 256
  if k ≤ 64 then cosTab.getD k 0
  else if k ≤ 128 then -(cosTab.getD (128 - k) 0 : Int)
  else if k ≤ 192 then -(cosTab.getD (k - 128) 0 : Int)
  else cosTab.getD (256 - k) 0

/-- sin(2πk/256) in units of 2^-32. -/
def sin256 (k : Nat) : Int := cos256 (k + 192)

/-- R239: the value of a tone for quadrant and index. -/
def toneValue (quadrant index : Nat) : Int :=
  match quadrant with
  | 0 => sineTab.getD index 0
  | 1 => sineTab.getD (1023 - index) 0
  | 2 => -(sineTab.getD index 0 : Int)
  | _ => -(sineTab.getD (1023 - index) 0 : Int)

end Sys2Proof
end

