-- ==== Sys2Proof/Machine/DriveOps.lean ====
section
/-!
DEFINITION. Sys2Proof/Machine/DriveOps.lean: file 07 of spec/: direct channels with their deglitcher,
range change and tone (R221, R222, R238 to R240), the drive codes of a tile (R114, R115) and crosstalk
pre-compensation (R235), the shift networks (R116, R117).
-/

namespace Sys2Proof.Machine

def Chip.chan (c : Chip) (v n : Nat) : Chan := Tab.get c.chans (v, n) {}

/-- The upper part t of a code (R218). -/
def upperPart (code : Nat) : Nat := code / 256

/-- The selection of units a DAC works with: the one of the last change of its t, after reset the one DRV_UNITSEL
has then (R219). -/
def Chip.unitsIn (c : Chip) (v dac : Nat) : Word :=
  Tab.get c.units (v, dac) (Reg.resetValue { name := .drvUnitsel, idx := [v, dac] })

/-- R219: a selection in DRV_UNITSEL takes effect: t of its DAC changes. -/
def Chip.takeUnits (c : Chip) (v dac : Nat) : Chip :=
  { c with units := Tab.set c.units (v, dac) (c.get { name := .drvUnitsel, idx := [v, dac] }) }

/-- R218, R219: the physical units a selection keeps switched on at an upper part. -/
def unitsOn (sel : Word) (t : Nat) : List Nat :=
  ((List.range 67).filter fun u => !((List.range 4).any fun n => bitsOf sel.toNat (7 * n + 6) (7 * n) == u)).take t

/-- A direct channel changes; a change of its t brings a new selection of units into force (R219). -/
def Chip.setChan (c : Chip) (v n : Nat) (x : Chan) : Chip :=
  let moved := upperPart x.out != upperPart (c.chan v n).out
  let c : Chip := { c with chans := Tab.set c.chans (v, n) x }
  if moved then c.takeUnits v n else c

/-- R221: an update of the DAC reaches the output at once where t stays, and through the hold where t changes. -/
def Chan.update (ch : Chan) (code : Nat) : Chan :=
  if code = ch.given then ch
  else if upperPart code = upperPart ch.out ∧ ¬ ch.held then { ch with out := code, given := code }
  else { ch with given := code, held := true }

/-- R240: what a DAC is given: a channel's code with what its tone adds, saturating at 0 and 16,383. -/
def Chan.withTone (ch : Chan) (base : Nat) : Nat := (clampInt 0 16383 ((base : Int) + ch.tone)).toNat

/-- A channel's code without its tone changes, and its DAC is updated; during a range change it waits (R222). -/
def Chan.setBase (ch : Chan) (base : Nat) : Chan :=
  if ch.ranging.isSome then ch else { ch with base := base }.update (ch.withTone base)

/-- R221, R238: a new code of a channel updates its DAC; a slewing channel moves with the sample clock; during a range
change it waits. -/
def Chip.release (c : Chip) (v n : Nat) : Chip :=
  let ch := c.chan v n
  c.setChan v n (if c.f Fld.drvCh_slew [v, n] ≠ 0 then ch else ch.setBase (c.f Fld.drvCh_code [v, n]))

/-- R232: the outputs of a Vale stay clamped: the device is in HOLD, or the Vale is drained. -/
def Chip.valeClamped (c : Chip) (v : Nat) : Bool := c.device == .hold || c.valeDrained v

/-- A code for a direct channel, from its loop or a write: its clamp releases at the first one that follows power-up
or HOLD (R231, R232), and the output follows under R221. -/
def Chip.driveCode (c : Chip) (v n code : Nat) : Chip :=
  let c := if c.valeClamped v then c else c.setF Fld.drvCh_clamp [v, n] 0
  (c.setF Fld.drvCh_code [v, n] code).release v n

/-- LSB of a range in units of the low range's (R220). -/
def rangeLsb (range : Nat) : Nat := if range = 0 then 1 else 4

/-- R222, steps 1 and 2: the hold takes over at the present current, tone included, or at the one it holds already,
and the matched code of the new range is set, rounded to nearest (R93) and at most 16,383. -/
def Chip.changeRange (c : Chip) (v n range : Nat) : Chip :=
  let ch := c.chan v n
  let i0 := ch.ranging.getD (ch.out * rangeLsb ch.range)
  let matched := min ((2 * i0 + rangeLsb range) / (2 * rangeLsb range)) 16383
  let c := c.setF Fld.drvCh_range [v, n] range
  let c := c.setF Fld.drvCh_code [v, n] matched
  c.setChan v n { ch with
    base := matched, out := matched, given := matched, held := false, ranging := some i0, range := range }

/-- R222, steps 3 to 5: the hold path releases. A step above one LSB is recorded; a code written
meanwhile follows under R221. -/
def Chip.endRange (c : Chip) (v n : Nat) : Chip :=
  let ch := c.chan v n
  match ch.ranging with
  | none => c
  | some i0 =>
    let stepped := decide (16383 * rangeLsb ch.range + rangeLsb ch.range < i0)
    let c := if stepped then c.ev .drvEvRangestep [v] else c
    let ch := { ch with ranging := none }
    let code := c.f Fld.drvCh_code [v, n]
    if code = ch.out ∨ c.f Fld.drvCh_slew [v, n] ≠ 0 then c.setChan v n ch
    else c.setChan v n { ch with held := true, base := code, given := ch.withTone code }

/-- A DRV_CH value written whole (R224, R242): the fields, a range change under R222, the code. -/
def Chip.writeChannel (c : Chip) (v n : Nat) (x : Nat) : Chip :=
  let old := c.f Fld.drvCh_range [v, n]
  let c := c.setF Fld.drvCh_toneEn [v, n] (bitsOf x 29 29)
  let c := c.setF Fld.drvCh_tone [v, n] (bitsOf x 28 25)
  let c := c.setF Fld.drvCh_slew [v, n] (bitsOf x 23 16)
  let c := if bitsOf x 24 24 = old then c else c.changeRange v n (bitsOf x 24 24)
  c.driveCode v n (bitsOf x 13 0)

/-- What a channel's tone adds in a cycle of the sample clock (R239, R240): 0 without tone_en. -/
def Chip.channelTone (c : Chip) (v n : Nat) : Int × Chip :=
  if c.flag Fld.drvCh_toneEn [v, n] then
    let t := c.f Fld.drvCh_tone [v, n]
    let amp := c.f Fld.drvToneCtl_amp [v, t]
    let acc := Tab.get c.tones (v, t) 0
    let s := if c.flag Fld.drvToneCtl_en [v, t] then toneValue (bitsOf acc 31 30) (bitsOf acc 29 20) else 0
    let r := (c.gen (.guyline v)).roundDiv (amp * s) 32768
    (r.1, c.setGen (.guyline v) r.2)
  else (0, c)

/-- A code a slewing channel moves to in one cycle (R238): at most `by16` codes on. -/
def stepTowards (x y by16 : Nat) : Nat := if x ≤ y then min y (x + by16) else max y (x - by16)

/-- One cycle of the sample clock for one channel (R238, R240): its code, a step of the ramp where it slews, with its
tone, is an update of the DAC under R221. -/
def Chip.channelCycle (c : Chip) (v n : Nat) : Chip :=
  let code := c.f Fld.drvCh_code [v, n]
  let slew := c.f Fld.drvCh_slew [v, n]
  let r := c.channelTone v n
  let ch := { r.2.chan v n with tone := r.1 }
  r.2.setChan v n (ch.setBase (if slew = 0 then code else stepTowards ch.base code (16 * slew)))

/-! ### Crossbar cells -/

/-- The n-th of the numbers 0 to 65 that are neither `a` nor `b` (R116, R117). -/
def shiftPort (a b n : Nat) : Nat :=
  let lo := min a b
  let hi := max a b
  if n < lo then n else if n + 1 < hi then n + 1 else n + 2

/-- The physical row of a logical row port (R116). -/
def Chip.physRow (c : Chip) (k i : Nat) : Nat :=
  shiftPort (c.f Fld.daleRowmap_skipA [k / 12, k % 12]) (c.f Fld.daleRowmap_skipB [k / 12, k % 12]) i

/-- The physical column of a logical column (R117). -/
def Chip.physCol (c : Chip) (k j : Nat) : Nat :=
  shiftPort (c.f Fld.daleColmap_calCol [k / 12, k % 12]) (c.f Fld.daleColmap_parkCol [k / 12, k % 12]) j

/-- Index of the element of a cell (R277). -/
def elemIndex (r col kind : Nat) : Nat := 2 * (66 * r + col) + kind

/-- Entry `e` of the element map of Dale k: value and range of a word (R115, R277). -/
def Chip.mapWord (c : Chip) (k e w : Nat) : Nat :=
  (c.get { name := .calMap, idx := [k / 12, k % 12, e, w] }).toNat

/-- R115: amplitude angle over π and phase over π of a weight code, in units of 2^-32. -/
def cellAngles (wmode : Nat) (bytes : List Byte) (i j : Nat) : Nat × Nat :=
  if wmode = 0 then
    let w := w6Of (bytes.getD (64 * i + j) 0)
    (asin31.getD w.natAbs 0, if 0 ≤ w then 0 else 2 ^ 32)
  else
    let x := leNat ((bytes.drop (128 * i + 2 * j)).take 2)
    (asin63.getD (bitsOf x 13 8) 0, bitsOf x 7 0 * 2 ^ 25)

/-- A hold cell's word: a code and a range (R225). -/
def cellWord (code range : Nat) : Nat := code + 2 ^ 14 * range

def cellCode (w : Nat) : Nat := w % 2 ^ 14

def cellRange (w : Nat) : Nat := w / 2 ^ 14 % 2

/-- R220: the drive range of an element, bit 31 of its map entry 1. -/
def Chip.elemRange (c : Chip) (k e : Nat) : Nat := bitsOf (c.mapWord k e 1) 31 31

/-- R228, R231: the code that drives an element's heater: none while the Dale is clamped or in the parked column. -/
def Chip.cellOut (c : Chip) (k e : Nat) : Nat :=
  if c.flag Fld.drvDaleState_clamp [k / 12, k % 12] ∨ e / 2 % 66 = c.f Fld.daleColmap_parkCol [k / 12, k % 12] then 0
  else cellCode (Tab.get (c.dale k).live e 0)

/-- R115: the target code squared of one element, in units of 2^-32. -/
def Chip.targetPower (c : Chip) (k e angle : Nat) : Nat :=
  bitsOf (c.mapWord k e 0) 27 0 * 2 ^ 32 + bitsOf (c.mapWord k e 1) 27 0 * angle

/-- The targets of the cell that carries row i and logical column j of a tile in physical column `col`, by element
(R115). -/
def Chip.cellPowers (c : Chip) (k : Nat) (t : Tile) (col i j : Nat) : List (Nat × Nat) :=
  let r := c.physRow k i
  let a := cellAngles t.wmode t.bytes i j
  [(elemIndex r col 0, c.targetPower k (elemIndex r col 0) a.1),
   (elemIndex r col 1, c.targetPower k (elemIndex r col 1) a.2)]

/-- The targets of all 64 × 64 cells of a tile by element, in code squared, units of 2^-32 (R115). -/
def Chip.tilePowers (c : Chip) (k : Nat) (t : Tile) : List (Nat × Nat) :=
  (List.range 64).flatMap fun i => (List.range 64).flatMap fun j => c.cellPowers k t (c.physCol k j) i j

/-- Crosstalk coefficient at (dr, dc) of kernel `x` (0 same kind, 1 other kind), signed (R235). -/
def Chip.kernel (c : Chip) (k x dr dc : Nat) : Int :=
  c.sf Fld.drvXt_coef [k / 12, k % 12, 25 * x + 5 * dr + dc]

/-- R235: one Jacobi pass over the powers of all elements, held by element index; `cal` is the column in calibration,
whose live powers count, none where every column carries weights. -/
def Chip.precompPass (c : Chip) (k : Nat) (cal : Option Nat) (p prev : Array Nat) : Array Nat :=
  let park := c.f Fld.daleColmap_parkCol [k / 12, k % 12]
  let live := (c.dale k).live
  let power (r col e : Nat) : Nat :=
    if some col = cal then let x := cellCode (Tab.get live (elemIndex r col e) 0); x * x
    else prev.getD (elemIndex r col e) 0
  Array.ofFn fun (n : Fin 8712) =>
    let e := n.val % 2
    let col := n.val / 2 % 66
    let r := n.val / 132
    if col = park ∨ some col = cal then p.getD n.val 0
    else
      let s := ((List.range 5).map fun dr => ((List.range 5).map fun dc =>
        let r2 := r + dr
        let c2 := col + dc
        if 2 ≤ r2 ∧ r2 < 68 ∧ 2 ≤ c2 ∧ c2 < 68 ∧ c2 - 2 ≠ park then
          c.kernel k 0 dr dc * power (r2 - 2) (c2 - 2) e
            + c.kernel k 1 dr dc * power (r2 - 2) (c2 - 2) (1 - e)
        else 0).sum).sum
      (clampInt 0 (16383 * 16383) ((p.getD n.val 0 : Int) - s / 65536)).toNat

/-- R235, R237: the compensated powers where `on`, in units of 2^-32. Pre-compensation works on whole codes squared
(log entry 89). -/
def Chip.precomp (c : Chip) (k : Nat) (on : Bool) (cal : Option Nat) (ps : List (Nat × Nat)) : List (Nat × Nat) :=
  if on then
    let p := ps.foldl (fun (a : Array Nat) x => a.setIfInBounds x.1 (x.2 / 2 ^ 32)) (Array.replicate 8712 0)
    let q := c.precompPass k cal p (c.precompPass k cal p p)
    ps.map fun x => (x.1, q.getD x.1 0 * 2 ^ 32)
  else ps

/-- The square root of a power in units of 2^-32, rounded stochastically, saturating at 16,383 (R115). -/
def rootCode (g : Gen) (p : Nat) : Nat × Gen :=
  let r := g.round16 (isqrt p : Nat)
  (min r.1.toNat 16383, r.2)

/-- The drive code of a power in code squared (R115, R253). -/
def powerCode (g : Gen) (p : Nat) : Nat × Gen := rootCode g (p * 2 ^ 32)

/-- The cells of elements at their powers, each with the range of its map entry, in order of their draws (R115, R220). -/
def Chip.cellsAt (c : Chip) (k : Nat) (g : Gen) (ps : List (Nat × Nat)) : List (Nat × Nat) × Gen :=
  Gen.mapM (fun g (x : Nat × Nat) =>
    let y := rootCode g x.2
    ((x.1, cellWord y.1 (c.elemRange k x.1)), y.2)) g ps

/-- Pre-compensation of a Dale as its last reload took it (R237). -/
def Chip.xtOn (c : Chip) (k : Nat) : Bool := (c.dale k).xt && !(c.dale k).slew

/-- The cells of a tile's elements (R115, R235), with the draws of the Dale's requantiser. -/
def Chip.tileCodes (c : Chip) (k : Nat) (t : Tile) : List (Nat × Nat) × Gen :=
  c.cellsAt k (c.gen (.requantDale k))
    (c.precomp k (c.xtOn k) (some (c.f Fld.daleColmap_calCol [k / 12, k % 12])) (c.tilePowers k t))

/-- R133 steps 1 and 2, R237, R279: the cells of a tile go to staging, with the element map, pre-compensation and
slew-limited mode as they are now. -/
def Chip.stageTile (c : Chip) (k : Nat) (t : Tile) : Chip :=
  let at' := [k / 12, k % 12]
  let c := c.setDale k { c.dale k with
    slew := c.flag Fld.drvDaleCfg_slewEn at', xt := c.flag Fld.drvDaleCfg_xtEn at' }
  let cells := c.tileCodes k t
  let c := (c.setGen (.requantDale k) cells.2).setF Fld.drvDaleState_staged at' 0
  c.setDale k { c.dale k with staging := some t, staged := false, stage := cells.1 }

end Sys2Proof.Machine
end

