-- ==== Sys2Proof/Machine/GuyOps.lean ====
section
/-!
DEFINITION. Sys2Proof/Machine/GuyOps.lean: file 08 of spec/: the loop table (R249, R250), the stage law
(R252 to R254), preloads (R257), feedforward (R267), lock-good and what its fall does (R263 to R265,
R132), colour changes and wrong lines (R268, R269); and the end of a running Dale job (R142).
-/

namespace Sys2Proof.Machine

/-! ### Ending a Dale job -/

def Chip.daleState (c : Chip) (k : Nat) : Nat := c.f Fld.daleState_state [k / 12, k % 12]

def Chip.setDaleState (c : Chip) (k n : Nat) : Chip := c.setF Fld.daleState_state [k / 12, k % 12] n

/-- The running job of a Dale changed. -/
def Chip.mapRun (c : Chip) (k : Nat) (f : DaleRun → DaleRun) : Chip :=
  let d := c.dale k
  c.setDale k { d with run := d.run.map f }

/-- R142: of two stops the lower row counts, at one row the status that comes first. -/
def worseStop (a b : Nat × Nat) : Nat × Nat :=
  if a.1 < b.1 then a
  else if b.1 < a.1 then b
  else if Status.rank a.2 ≤ Status.rank b.2 then a else b

/-- DALE_STATE of a Dale that does nothing: clamped before the first strobe that follows power-up or HOLD, else
idle. -/
def Chip.setIdle (c : Chip) (k : Nat) : Chip :=
  c.setDaleState k (if c.flag Fld.drvDaleState_clamp [k / 12, k % 12] then 0 else 1)

/-- A status stops the running job at a row: nothing from that row on is written and its grains no longer wait. Rows
before it that still wait in the accumulator are written yet; JOB_COMPLETE is to come once none is left. -/
def Chip.stopRun (c : Chip) (k row status : Nat) : Chip :=
  match (c.dale k).run with
  | none => c
  | some r =>
    let stop := match r.stop with
      | some s => worseStop s (row, status)
      | none => (row, status)
    let acc := r.acc.filter fun a => decide (a.row < stop.1)
    let c := c.mapRun k fun r => { r with
      phase := if acc.isEmpty then .ended else .prepare, rows := 0, stop := some stop, acc := acc }
    (c.unwaitJob (.dale k) r.job.tent).setIdle k

/-- The running job of a Dale gives up the rows that wait in its accumulator (R45, R473, R520). -/
def Chip.dropRows (c : Chip) (k : Nat) : Chip := c.mapRun k fun r => { r with acc := [] }

/-- The row an error of the running job now names: the first of the batch in progress or to come. The rows of batches
that have ended are written. -/
def Chip.errorRow (c : Chip) (k : Nat) : Nat :=
  match (c.dale k).run with
  | none => 0
  | some r => r.row

/-! ### Loop entries -/

/-- A loop entry (R249). -/
structure LoopE where
  kind : Nat
  mode : Nat
  csel : Nat
  pol : Bool
  div : Nat
  phase : Nat
  nst : Nat
  staleLim : Nat
  lockN : Nat
  adc : Nat
  errEnt : Nat
  lvlEnt : Nat
  mkiEnt : Nat
  mkqEnt : Nat
  out : Nat
  out2 : Nat
  ratio : Nat
  setpoint : Nat
  pMin : Nat
  pMax : Nat
  hovWin : Nat
  target : Int
  lockWin : Nat
  ffGain : Int
  ffShift : Nat
  ffNode : Nat
  pStart : Nat
  sweep : Nat
  acqThr : Int
  flankStep : Int
  mkThr : Nat
deriving DecidableEq, Repr

/-- The fields of R249 in the eight words of an entry. -/
def LoopE.ofWords (ws : List Word) : LoopE :=
  let w (n : Nat) : Nat := (ws.getD n 0).toNat
  { kind := bitsOf (w 0) 3 0, mode := bitsOf (w 0) 5 4, csel := bitsOf (w 0) 6 6, pol := bitOf (w 0) 7,
    div := bitsOf (w 0) 26 16, phase := bitsOf (w 0) 37 27, nst := bitsOf (w 0) 39 38,
    staleLim := bitsOf (w 0) 43 40, lockN := bitsOf (w 0) 47 44, adc := bitsOf (w 1) 6 0,
    errEnt := bitsOf (w 1) 12 7, lvlEnt := bitsOf (w 1) 18 13, mkiEnt := bitsOf (w 1) 24 19,
    mkqEnt := bitsOf (w 1) 30 25, out := bitsOf (w 2) 10 0, out2 := bitsOf (w 2) 21 11,
    ratio := bitsOf (w 2) 31 22, setpoint := bitsOf (w 2) 59 32, pMin := bitsOf (w 3) 27 0,
    pMax := bitsOf (w 3) 55 28, hovWin := bitsOf (w 3) 63 56, target := signedOf 24 (bitsOf (w 4) 23 0),
    lockWin := bitsOf (w 4) 39 24, ffGain := signedOf 16 (bitsOf (w 5) 15 0),
    ffShift := bitsOf (w 5) 20 16, ffNode := bitsOf (w 5) 22 21, pStart := bitsOf (w 6) 27 0,
    sweep := bitsOf (w 6) 43 28, acqThr := signedOf 20 (bitsOf (w 6) 63 44),
    flankStep := signedOf 28 (bitsOf (w 7) 27 0), mkThr := bitsOf (w 7) 47 28 }

/-- No reserved field of R249 is set. -/
def loopReservedClear (ws : List Word) : Bool :=
  let w (n : Nat) : Nat := (ws.getD n 0).toNat
  bitsOf (w 0) 15 8 == 0 && bitsOf (w 0) 63 48 == 0 && bitsOf (w 1) 63 31 == 0 &&
  bitsOf (w 2) 63 60 == 0 && bitsOf (w 4) 63 40 == 0 && bitsOf (w 5) 63 23 == 0 &&
  bitsOf (w 7) 63 48 == 0 && decide (ws.length = 8)

/-- The largest power, 16,383². -/
def powerMax : Nat := 268402689

def Chip.loop (c : Chip) (v n : Nat) : Loop := Tab.get c.loops (v, n) {}

def Chip.setLoop (c : Chip) (v n : Nat) (x : Loop) : Chip :=
  { c with loops := Tab.set c.loops (v, n) x }

/-- The entry last written (GUY_LOOP). -/
def Chip.loopWords (c : Chip) (v n : Nat) : List Word := c.wordsOf .guyLoop [v, n]

def Chip.loopWritten (c : Chip) (v n : Nat) : LoopE := LoopE.ofWords (c.loopWords v n)

/-- The entry in force (R251). -/
def Chip.loopE (c : Chip) (v n : Nat) : LoopE := LoopE.ofWords (c.loop v n).entry

def Chip.loopState (c : Chip) (v n : Nat) : Nat := c.f Fld.guyLstate_state [v, n]

/-- The loops of a Vale that are assigned by their written entries. -/
def Chip.assignedLoops (c : Chip) (v : Nat) : List Nat :=
  (List.range 2048).filter fun n => (c.loopWritten v n).kind != 0

/-- R246: the stage-updates of a loop in units of 20 MHz, exactly, added to a sum given as a fraction. -/
def addLoad (s : Nat × Nat) (e : LoopE) : Nat × Nat :=
  if e.kind = 0 then s
  else
    let d := Nat.lcm s.2 e.div
    (s.1 * (d / s.2) + (e.nst + 1) * (d / e.div), d)

/-- R246: the load of a Vale as written, without loop `skip`, in units of 20 MHz. -/
def Chip.valeLoad (c : Chip) (v skip : Nat) : Nat × Nat :=
  (List.range 2048).foldl (fun s n => if n = skip then s else addLoad s (c.loopWritten v n)) (0, 1)

/-- R246: a load above 2,000 M stage-updates per second, that is 100 × 20 MHz. -/
def overLoad (s : Nat × Nat) : Bool := decide (100 * s.2 < s.1)

/-- The direct DACs an entry drives (R249). -/
def loopDacs (e : LoopE) : List Nat := if e.kind = 2 then [e.out, e.out2] else [e.out]

/-- R250: the write of a loop entry is refused. R250 excepts no kind, so an entry that frees its loop keeps to the limits
as well (log entry 24). -/
def Chip.loopRefused (c : Chip) (v n : Nat) (ws : List Word) : Bool :=
  let e := LoopE.ofWords ws
  let old := c.loopE v n
  !loopReservedClear ws || decide (7 < e.kind) || decide (e.ffNode = 3) ||
  decide (e.div < 50 ∨ 2000 < e.div) || decide (e.div ≤ e.phase) || decide (70 < e.adc) ||
  e.staleLim == 0 || e.lockN == 0 || e.hovWin == 0 || decide (1919 < e.out) ||
  (e.kind == 2 && decide (1919 < e.out2)) || (e.kind != 2 && e.out2 != 0x7FF) ||
  decide (powerMax < e.pMax) || decide (e.pMax < e.pMin) ||
  decide (e.setpoint < e.pMin ∨ e.pMax < e.setpoint) ||
  overLoad (addLoad (c.valeLoad v n) e) ||
  ((c.assignedLoops v).any fun m => m != n &&
    (loopDacs (c.loopWritten v m)).any fun x => (loopDacs e).contains x) ||
  (c.loopState v n != 0 && e.kind != 0 && (e.kind != old.kind || e.adc != old.adc || e.out != old.out ||
    e.out2 != old.out2 || e.div != old.div))

/-! ### Coefficients and the stage law -/

/-- Exact values brought into one normalised group (R73). -/
def bfpStore (g : Gen) (xs : List Dy) : Bfp × Gen :=
  let e := (xs.map fun x => x.e).foldl min 23
  Bfp.normalise g (xs.map fun x => x.m * 2 ^ (x.e - e).toNat) (e + 40)

/-- Coefficients c0 to c4 of a stage as its two words hold them (R252). -/
def stageCoef (w0 w1 : Word) : Bfp :=
  let a := w0.toNat
  let b := w1.toNat
  { ms := [signedOf 18 (bitsOf a 17 0), signedOf 18 (bitsOf a 35 18), signedOf 18 (bitsOf a 53 36),
           signedOf 18 (bitsOf b 17 0), signedOf 18 (bitsOf b 35 18)], e := bitsOf a 59 54 }

/-- The two words of a stage (R252). -/
def stageWords (b : Bfp) : List Word :=
  let m (k : Nat) : Nat := fieldOf 18 (b.ms.getD k 0)
  [BitVec.ofNat 64 (m 0 + m 1 * 2 ^ 18 + m 2 * 2 ^ 36 + b.e * 2 ^ 54),
   BitVec.ofNat 64 (m 3 + m 4 * 2 ^ 18)]

/-- A written coefficient set in the normal form of R73, stage by stage. -/
def normaliseCoefs (g : Gen) (ws : List Word) : List Word × Gen :=
  let r := Gen.mapM (fun g s =>
    let b := stageCoef (ws.getD (2 * s) 0) (ws.getD (2 * s + 1) 0)
    let p := Bfp.normalise g b.ms b.e
    (stageWords p.1, p.2)) g [0, 1, 2, 3]
  (r.1.flatten, r.2)

/-- R252: bits outside the fields are clear, and stage 0 holds only kp and ki. -/
def coefsWellFormed (ws : List Word) : Bool :=
  decide (ws.length = 8) &&
  (List.range 4).all (fun s => bitsOf (ws.getD (2 * s) 0).toNat 63 60 == 0 &&
    bitsOf (ws.getD (2 * s + 1) 0).toNat 63 36 == 0) &&
  bitsOf (ws.getD 0 0).toNat 53 36 == 0 && bitsOf (ws.getD 1 0).toNat 35 0 == 0

/-- The coefficients of a stage of a loop's set `k` (GUY_COEF). -/
def Chip.coef (c : Chip) (v n k s : Nat) : Bfp :=
  stageCoef (c.get { name := .guyCoef, idx := [v, n, k], w := 2 * s })
    (c.get { name := .guyCoef, idx := [v, n, k], w := 2 * s + 1 })

/-- What one run of the law gives (R253): the output, the exact integrator and the stage histories. -/
structure LawOut where
  v      : Dy
  integ  : Dy
  stages : List (List Dy)
deriving DecidableEq, Repr

/-- One filter stage in direct form I (R253). -/
def filterStage (co h : Bfp) (v : Dy) : Dy × List Dy :=
  let y := Dy.add (Dy.add (Dy.add (Dy.mul (co.val 0) v) (Dy.mul (co.val 1) (h.val 0)))
      (Dy.mul (co.val 2) (h.val 1)))
    (Dy.neg (Dy.add (Dy.mul (co.val 3) (h.val 2)) (Dy.mul (co.val 4) (h.val 3))))
  (y, [v, h.val 0, y, h.val 2])

/-- Stages `s` on. -/
def filterStages (coef : Nat → Bfp) : Nat → Nat → List Bfp → Dy → Dy × List (List Dy)
  | 0, _, _, v => (v, [])
  | n + 1, s, hs, v =>
    let r := filterStage (coef s) (hs.headD { ms := [0, 0, 0, 0], e := 0 }) v
    let q := filterStages coef n (s + 1) hs.tail r.1
    (q.1, r.2 :: q.2)

/-- The law of R253 for an error. `sat` is 0 none, 1 at p_max, 2 at p_min. -/
def stageLaw (coef : Nat → Bfp) (nst sat : Nat) (lp : Loop) (e : Int) : LawOut :=
  let hold := (sat == 1 && decide (0 < e)) || (sat == 2 && decide (e < 0))
  let c0 := coef 0
  let i0 := lp.integ.val 0
  let i := if hold then i0 else Dy.add i0 (Dy.mul (c0.val 1) (Dy.ofInt e))
  let v := Dy.add (Dy.mul (c0.val 0) (Dy.ofInt e)) i
  let r := filterStages coef nst 1 lp.stages v
  { v := r.1, integ := i, stages := r.2 }

/-- R257: the preload at a power last driven. -/
def preload (g : Gen) (kp : Dy) (nst : Nat) (lp : Loop) (v0 : Int) (e : Int) : Loop × Gen :=
  let r := Gen.mapM (fun g (_ : Nat) =>
    bfpStore g [Dy.ofInt v0, Dy.ofInt v0, Dy.ofInt v0, Dy.ofInt v0]) g (List.range nst)
  let i := bfpStore r.2 [Dy.add (Dy.ofInt v0) (Dy.neg (Dy.mul kp (Dy.ofInt e)))]
  ({ lp with stages := r.1, integ := i.1 }, i.2)

/-! ### Loop state words -/

def Chip.loopGood (c : Chip) (v n : Nat) : Bool := c.flag Fld.guyLstate_lockGood [v, n]

/-- R264: a loop enters a lock-good signal: it is not free and of the kind of its place. -/
def Chip.enters (c : Chip) (v n kind : Nat) : Bool :=
  (c.loopE v n).kind == kind && c.loopState v n != 0

/-- The AND over the loops that enter a signal; a signal no loop enters reads 0 (log entry 25). -/
def Chip.allGood (c : Chip) (v : Nat) (ls : List (Nat × Nat)) : Bool :=
  let ins := ls.filter fun p => c.enters v p.1 p.2
  !ins.isEmpty && ins.all fun p => c.loopGood v p.1

/-- The loops of a bank in the standard set (R243): its selector and its 65 rings. -/
def bankLoops (b : Nat) : List (Nat × Nat) :=
  (1040 + 2 * b, 2) :: (List.range 65).map fun l => (65 * b + l, 1)

def Chip.bankGoodNow (c : Chip) (v b : Nat) : Bool := c.allGood v (bankLoops b)

def Chip.colGoodNow (c : Chip) (v : Nat) : Bool :=
  c.allGood v ((List.range 65).map fun i => (1072 + i, 3))

def Chip.loGoodNow (c : Chip) (v d : Nat) : Bool := c.allGood v [(1137 + d, 4)]

/-- The bank a Dale is bound to. -/
def Chip.boundBank (c : Chip) (k : Nat) : Nat := c.f Fld.daleState_bank [k / 12, k % 12]

/-- A list of truth values as bits, first at bit 0. -/
def bitsFrom (bs : List Bool) : Nat := (bs.mapIdx fun i b => b.toNat * 2 ^ i).sum

/-- R234: a bank is forced dark: written swing, bias and owner take effect. -/
def Chip.goDark (c : Chip) (v b : Nat) : Chip :=
  let c := c.setF Fld.drvBank_dark [v, b] 1
  let inForce := bitsOf (c.get { name := .drvBank, idx := [v, b] }).toNat 15 0
  let x := { c.bank v b with drive := inForce }
  match x.newOwner with
  | some o => (c.setF Fld.valeBank_owner [v, b] o).setBank v b { x with newOwner := none }
  | none => c.setBank v b x

/-- R128, R234: a bank goes dark at once and releases its port. -/
def Chip.darken (c : Chip) (v b : Nat) : Chip :=
  let c := (c.setF Fld.valeBank_state [v, b] 0).setF Fld.valeBank_port [v, b] 0
  let c := c.goDark v b
  c.setBank v b { c.bank v b with carries := none }

/-- R111: a bank holds the claim of a port: it is lit or tuning, or reacquires for a job. -/
def Chip.claims (c : Chip) (v b q : Nat) : Bool :=
  let st := c.f Fld.valeBank_state [v, b]
  st != 0 && c.f Fld.valeBank_port [v, b] == q && (decide (2 ≤ st) || (c.bank v b).carries.isSome)

/-- Another bank of the Vale claims a port. -/
def Chip.portTaken (c : Chip) (v b q : Nat) : Bool :=
  (List.range 16).any fun x => x != b && c.claims v x q

/-- The parking line of a bank (R113). -/
def parkingLine (b : Nat) : Nat := (29 - b) % 16

/-- R112: a bank goes to locked-tagging, where it sends its re-lock tag. -/
def Chip.startTagging (c : Chip) (v b : Nat) : Chip :=
  (c.setF Fld.valeBank_state [v, b] 2).setF Fld.drvBank_dark [v, b] 0

/-- R265: what a bank does when bank_good falls or rises. A fall takes it to acquiring, forced dark, but for the fall
that its own colour change brings; a bank without a job releases its port. A rise takes it to locked-tagging; a
parked bank stays dark, and so does one whose port another bank has claimed meanwhile (R111, R113, log entry 26). -/
def Chip.bankEdge (c : Chip) (v b : Nat) (rose : Bool) : Chip :=
  if rose then
    let line := c.f Fld.valeBank_line [v, b]
    let q := (b + line) % 16
    if (c.bank v b).carries.isSome ∨ (c.bank v b).calRun then c.startTagging v b
    else if line = parkingLine b ∨ c.portTaken v b q then c.setF Fld.valeBank_state [v, b] 0
    else (c.setF Fld.valeBank_port [v, b] q).startTagging v b
  else
    let c := c.goDark v b
    let c := if (c.bank v b).carries.isNone then c.setF Fld.valeBank_port [v, b] 0 else c
    if c.f Fld.valeBank_state [v, b] = 4 then c else c.setF Fld.valeBank_state [v, b] 1

/-- R132: lock-good of a Dale falls: the batch in progress is not written and the job ends LOCK_LOST;
the rows of batches that ended within one sample period `div` of the loop are suspect. A job that
still waits at the head of its queue is judged when its lock wait ends (R131). -/
def Chip.daleFall (c : Chip) (k div : Nat) : Chip :=
  match (c.dale k).run with
  | none => c
  | some r =>
    if r.lockWait ∨ r.phase = .ended ∨ (r.stop.isSome ∧ r.phase ≠ .batch) then c
    else
      let late := r.ended.filter fun p => decide (0 < div ∧ c.gclk ≤ p.2 + div)
      let sus := (late.map fun p => p.1).foldl min 0xFFFFFFFF
      let c := c.mapRun k fun r => { r with
        suspect := if late.isEmpty then r.suspect else some (min sus (r.suspect.getD 0xFFFFFFFF)) }
      (c.stopRun k r.row Status.lockLost).ev .daleEvLock [k / 12, k % 12]

/-- R264, R265: the engine's lock-good signals after a change, and what their edges do. `div` is the
sample period of the loop that changed. -/
def Chip.syncGood (c : Chip) (v div : Nat) : Chip :=
  let oldBank := c.f Fld.guyGood_bankGood [v]
  let oldDale := c.f Fld.guyGood_daleGood [v]
  let banks := (List.range 16).map fun b => c.bankGoodNow v b
  let lo := (List.range 12).map fun d => c.loGoodNow v d
  let col := c.colGoodNow v
  let dales := (List.range 12).map fun d =>
    banks.getD (c.boundBank (12 * v + d)) false && lo.getD d false && col
  let c := c.setF Fld.guyGood_bankGood [v] (bitsFrom banks)
  let c := c.setF Fld.guyGood_colGood [v] col.toNat
  let c := c.setF Fld.guyGood_daleGood [v] (bitsFrom dales)
  let c := c.setF Fld.guyLoGood_loGood [v] (bitsFrom lo)
  let c := c.setF Fld.guyLoGood_calLoGood [v] (c.allGood v [(1149, 5)]).toNat
  let c := (List.range 16).foldl (fun c b =>
    let c := c.setF Fld.valeBank_lockGood [v, b] (c.allGood v [(1040 + 2 * b, 2)]).toNat
    if bitOf oldBank b = banks.getD b false then c else c.bankEdge v b (banks.getD b false)) c
  (List.range 12).foldl (fun c d =>
    let good := dales.getD d false
    let c := c.setF Fld.daleState_lockGood [v, d] good.toNat
    if bitOf oldDale d ∧ ¬ good then c.daleFall (12 * v + d) div else c) c

/-- The loops a capture names (GUY_CAP_CTL). -/
def Chip.capLoops (c : Chip) (v : Nat) : List Nat :=
  [c.f Fld.guyCapCtl_loop0 [v], c.f Fld.guyCapCtl_loop1 [v], c.f Fld.guyCapCtl_loop2 [v],
   c.f Fld.guyCapCtl_loop3 [v]].filter fun n => n != 0x7FF

/-- R273: the first lock-good fall of a named loop triggers a capture of mode 1; with no entries to
follow it stops. -/
def Chip.capTrigger (c : Chip) (v n : Nat) : Chip :=
  if c.flag Fld.guyCapState_active [v] ∧ c.f Fld.guyCapCtl_mode [v] = 1 ∧
      ¬ c.flag Fld.guyCapState_triggered [v] ∧ (c.capLoops v).contains n then
    let post := c.f Fld.guyCapCtl_post [v]
    let c := c.setF Fld.guyCapState_triggered [v] 1
    let c := { c with capLeft := Tab.set c.capLeft v post }
    if post = 0 then c.setF Fld.guyCapState_active [v] 0 else c
  else c

/-- R263: lock-good of a loop falls with a cause of GUY_LAST_FALL. -/
def Chip.loopFall (c : Chip) (v n cause : Nat) : Chip :=
  let c := c.setLoop v n { c.loop v n with good := 0 }
  if c.loopGood v n then
    let e := c.loopE v n
    let c := c.setF Fld.guyLstate_lockGood [v, n] 0
    let c := (c.count Fld.guyLstate_falls [v, n]).capTrigger v n
    let c := if 1 ≤ e.kind ∧ e.kind ≤ 5 then
        let c := c.ev .guyEvLock [v]
        let c := c.setF Fld.guyLastFall_cause [v] cause
        c.setF Fld.guyLastFall_loop [v] n
      else c
    c.syncGood v e.div
  else c

/-- A bank whose selector a loop is (R243). -/
def selectorBank (n : Nat) : Option Nat :=
  if 1040 ≤ n ∧ n < 1072 ∧ n % 2 = 0 then some ((n - 1040) / 2) else none

/-- R268: LINE STEP is over: the rings it took to HOLD return to TRACK under R257. -/
def Chip.unparkRings (c : Chip) (v b : Nat) : Chip :=
  (List.range 65).foldl (fun c l =>
    let m := 65 * b + l
    let lp := c.loop v m
    if ¬ lp.parked then c
    else if c.loopState v m = 4 then
      (c.setLoop v m { lp with parked := false, load := true, good := 0, wrong := 0 }).setF Fld.guyLstate_state [v, m] 3
    else c.setLoop v m { lp with parked := false }) c

/-- A loop changes state; to SEARCH, LINE STEP, SETTLE or FROZEN its lock-good falls (R263). -/
def Chip.loopTo (c : Chip) (v n st cause : Nat) : Chip :=
  let c := if c.loopState v n = 6 ∧ st ≠ 6 then match selectorBank n with
      | some b => c.unparkRings v b
      | none => c
    else c
  let c := c.setF Fld.guyLstate_state [v, n] st
  if st = 1 ∨ st = 2 ∨ st = 6 ∨ st = 7 then c.loopFall v n cause else c

/-- The direct DAC that stands in for one: the spare that calibration has substituted for it, or itself (R243, R276). -/
def Chip.routedDac (c : Chip) (v out : Nat) : Nat :=
  match [1918, 1919].find? fun s => Tab.get c.spareFor (v, s) none == some out with
  | some s => s
  | none => out

/-- A loop's code reaches its DAC, or the spare in its place (R224, R243, R247). -/
def Chip.driveDac (c : Chip) (v out code : Nat) : Chip := c.driveCode v (c.routedDac v out) code

/-- R253: the code of ring 1: at its own power where one is given, else at p × ratio / 256. -/
def Chip.ringCode (c : Chip) (v p ratio : Nat) (p2 : Option Nat) : Nat × Chip :=
  let r := match p2 with
    | some q => powerCode (c.gen (.guyline v)) q
    | none => rootCode (c.gen (.guyline v)) (min (p * ratio * 2 ^ 24) (powerMax * 2 ^ 32))
  (r.1, c.setGen (.guyline v) r.2)

/-- The output of a tick: its power and code stand in GUY_LSTATE and its codes reach the DACs (R247, R253). -/
def Chip.driveCodes (c : Chip) (v n : Nat) (e : LoopE) (p code : Nat) (p2 : Option Nat) : Chip :=
  let c := (c.driveDac v e.out code).setF Fld.guyLstate_p [v, n] p
  let c := c.setF Fld.guyLstate_code [v, n] code
  if e.kind = 2 then
    let r := c.ringCode v p e.ratio p2
    r.2.driveDac v e.out2 r.1
  else c

/-- An output power of a loop is driven: its code is drawn (R253); `p2` is the power of ring 1 where it is not
p × ratio / 256. -/
def Chip.driveBoth (c : Chip) (v n : Nat) (e : LoopE) (p : Nat) (p2 : Option Nat) : Chip :=
  let r := powerCode (c.gen (.guyline v)) p
  (c.setGen (.guyline v) r.2).driveCodes v n e p r.1 p2

def Chip.drivePower (c : Chip) (v n : Nat) (e : LoopE) (p : Nat) : Chip := c.driveBoth v n e p none

/-- The feedforward of a loop from its forecast and a reference (R267), 0 unless ff_en. -/
def Chip.ffAt (c : Chip) (v n : Nat) (ref : Int) : Int :=
  if c.flag Fld.guyCfg_ffEn [v] then
    let e := c.loopE v n
    clampInt (-(2 ^ 31)) (2 ^ 31 - 1) (e.ffGain * 2 ^ e.ffShift * ((c.loop v n).forecast - ref))
  else 0

def Chip.feedforward (c : Chip) (v n : Nat) : Int := c.ffAt v n (c.loop v n).tRef

/-- SETTLE is entered with an acquired power: p_acq plus ff is driven, and the law is to be preloaded
(R256, R258). -/
def Chip.enterSettle (c : Chip) (v n pAcq cause : Nat) : Chip :=
  let e := c.loopE v n
  let c := c.loopTo v n 2 cause
  let c := c.setLoop v n { c.loop v n with
    pAcq := pAcq, settled := 0, timing := true, load := true, good := 0, wrong := 0 }
  let c := c.setF Fld.guyLstate_sat [v, n] 0
  c.drivePower v n e (clampInt e.pMin e.pMax (pAcq + c.feedforward v n)).toNat

/-- SEARCH begins at p_start; kinds 3, 6 and 7 take their setpoint and settle at once (R256, R260 to
R262). -/
def Chip.startSearch (c : Chip) (v n cause : Nat) : Chip :=
  let e := c.loopE v n
  if e.kind = 0 then c
  else
    let c := c.loopTo v n 1 cause
    let c := c.setLoop v n { c.loop v n with
      timing := false, inBand := false, nextLine := none, swept := [], best := none, settled := 0,
      good := 0, wrong := 0 }
    if e.kind = 3 ∨ e.kind = 6 ∨ e.kind = 7 then c.enterSettle v n e.setpoint cause
    else c.drivePower v n e e.pStart

/-- The line a bank is to reach: its bound Dale's under R110, or its parking line under R113. -/
def Chip.targetLine (c : Chip) (v b : Nat) : Nat :=
  match (c.bank v b).carries with
  | some k => (k % 12 + 16 - b) % 16
  | none => if (c.bank v b).calRun then (28 - b) % 16 else parkingLine b

/-- R289: a ratio waiting for the bank's next LINE STEP takes effect in its selector loop's entry. -/
def Chip.applyRatio (c : Chip) (v b : Nat) : Chip :=
  match (c.bank v b).newRatio with
  | none => c
  | some r =>
    let n := 1040 + 2 * b
    let lp := c.loop v n
    let c := c.setBank v b { c.bank v b with newRatio := none }
    let reg : Reg := { name := .guyLoop, idx := [v, n], w := 2 }
    let c := c.put reg (setBits (c.get reg) 31 22 r)
    c.setLoop v n { lp with entry := lp.entry.modify 2 (fun w => setBits w 31 22 r) }

/-- R256: LINE STEP's output: the line-table powers of the line the bank is on its way to, plus ff. -/
def Chip.driveLine (c : Chip) (v b : Nat) : Chip :=
  let n := 1040 + 2 * b
  let L := c.f Fld.valeBank_line [v, b]
  let ff := c.feedforward v n
  let at' (p : Nat) : Nat := (clampInt 0 powerMax ((p : Int) + ff)).toNat
  c.driveBoth v n (c.loopE v n) (at' (c.f Fld.guyLine_p0 [v, b, L])) (some (at' (c.f Fld.guyLine_p1 [v, b, L])))

/-- R256: LINE STEP to a line: outputs at the line-table powers plus ff, held; the bank's rings in
TRACK go to HOLD (R268). -/
def Chip.lineStep (c : Chip) (v b L : Nat) : Chip :=
  let n := 1040 + 2 * b
  let c := (c.applyRatio v b).setF Fld.valeBank_line [v, b] L
  if (c.loopE v n).kind ≠ 2 then c
  else
    let ref := Tab.get (c.loop v n).lineRef L 0
    let c := c.loopTo v n 6 5
    let c := c.setLoop v n { c.loop v n with settled := 0, tRef := ref, inBand := false }
    let c := (List.range 65).foldl (fun c l =>
      if c.loopState v (65 * b + l) = 3 then
        (c.setF Fld.guyLstate_state [v, 65 * b + l] 4).setLoop v (65 * b + l)
          { c.loop v (65 * b + l) with parked := true }
      else c) c
    c.driveLine v b

/-- R268: a colour change the launcher asks for. -/
def Chip.colourChange (c : Chip) (v b L : Nat) : Chip :=
  ((c.setF Fld.valeBank_state [v, b] 4).goDark v b).lineStep v b L

/-- R113: a bank darkened for any reason but another job's line is parked on (13 − b) mod 16. -/
def Chip.park (c : Chip) (v b : Nat) : Chip :=
  let c := c.darken v b
  if c.f Fld.valeBank_line [v, b] = parkingLine b then c
  else (c.lineStep v b (parkingLine b)).setF Fld.valeBank_state [v, b] 0

/-- R113: a bank that stays dark with its selector locked off its parking line is parked. -/
def Chip.parkStray (c : Chip) (v b : Nat) : Chip :=
  if c.f Fld.valeBank_state [v, b] = 0 ∧ c.f Fld.valeBank_line [v, b] ≠ parkingLine b ∧
      (c.bank v b).carries.isNone ∧ ¬ (c.bank v b).calRun ∧ c.bankGoodNow v b then c.park v b
  else c

/-- R269: a wrong-line report for a bank is taken: its selector is not in SEARCH, LINE STEP or SETTLE. -/
def Chip.reportTaken (c : Chip) (v b : Nat) : Bool :=
  let st := c.loopState v (1040 + 2 * b)
  !(st == 1 || st == 6 || st == 2)

/-- R269: a wrong-line report for bank b: relabel its line table and step to the intended line. It is
ignored in SEARCH, LINE STEP and SETTLE. -/
def Chip.wrongLine (c : Chip) (v b port reached : Nat) : Chip :=
  let n := 1040 + 2 * b
  if ¬ c.reportTaken v b then c
  else
    let li := (port + 16 - b) % 16
    let delta := (reached + 16 - li) % 16
    let old := (List.range 16).map fun x => c.get { name := .guyLine, idx := [v, b, x] }
    let c := (List.range 16).foldl (fun c x =>
      c.put { name := .guyLine, idx := [v, b, x] } (old.getD ((x + 16 - delta) % 16) 0)) c
    let refs := (c.loop v n).lineRef
    let c := c.setLoop v n { c.loop v n with lineRef := (List.range 16).map fun x =>
      (x, Tab.get refs ((x + 16 - delta) % 16) 0) }
    let c := c.setBank v b { c.bank v b with lossWait := false }
    (c.lineStep v b li).ev .guyEvLine [v]

/-- R270: the line table of a bank is invalidated and its selector searches. -/
def Chip.tagLossSearch (c : Chip) (v b : Nat) : Chip :=
  let c := (List.range 16).foldl (fun c x => c.setF Fld.guyLine_valid [v, b, x] 0) c
  let c := c.setBank v b { c.bank v b with lossWait := false }
  c.startSearch v (1040 + 2 * b) 5

end Sys2Proof.Machine
end

