-- ==== Sys2Proof/Machine/DaleOps.lean ====
section
/-!
DEFINITION. Sys2Proof/Machine/DaleOps.lean: file 04 of spec/: job descriptors and the checks at enqueue
(R136 to R139, R332), colour tags (R123 to R127), reloads (R133, R134, R360), deadlines (R384, R385),
ranges and prefixes (R119, R140), accumulation (R120, R121) and the delivery of rows (R97, R98, R141).
-/

namespace Sys2Proof.Machine

/-- A job descriptor's fields (R138). Counts are as the fields mean them: n_in, n_out and hist are one
more than the field. -/
structure Desc where
  vale : Nat
  dale : Nat
  bank : Nat
  dir : Nat
  wmode : Nat
  conj : Bool
  inFmt : Option Fmt
  outFmt : Option Fmt
  rep : Nat
  hist : Nat
  headroom : Nat
  rot : Bool
  omaskEn : Bool
  wref : Bool
  sideWait : Bool
  inKind : Nat
  reuse : Bool
  nIn : Nat
  nOut : Nat
  inBase : Nat
  inStride : Nat
  inScale : Nat
  outBase : Nat
  outStride : Nat
  outScale : Nat
  weight : Nat
  sw : Nat
  batch : Nat
  nVec : Nat
  seeds : Nat
  seed : Word
  omask : Nat
  sideOut : Nat
  sideOutStride : Nat
  sideIn : Nat
  sideInStride : Nat
  stat : Nat
  deadline : Nat
deriving DecidableEq, Repr

/-- The fields of R138 in the 16 words. -/
def Desc.ofWords (ws : List Word) : Desc :=
  let w (n : Nat) : Nat := (ws.getD n 0).toNat
  { vale := bitsOf (w 0) 3 0, dale := bitsOf (w 0) 7 4, bank := bitsOf (w 0) 11 8,
    dir := bitsOf (w 0) 12 12, wmode := bitsOf (w 0) 14 13, conj := bitOf (w 0) 15,
    inFmt := Fmt.ofCode (bitsOf (w 0) 18 16), outFmt := Fmt.ofCode (bitsOf (w 0) 21 19),
    rep := bitsOf (w 0) 24 22, hist := bitsOf (w 0) 28 25 + 1, headroom := bitsOf (w 0) 31 29,
    rot := bitOf (w 0) 32, omaskEn := bitOf (w 0) 33, wref := bitOf (w 0) 34, sideWait := bitOf (w 0) 35,
    inKind := bitsOf (w 0) 37 36, reuse := bitOf (w 0) 38, nIn := bitsOf (w 0) 45 40 + 1,
    nOut := bitsOf (w 0) 51 46 + 1, inBase := bitsOf (w 1) 47 0, inStride := 8 * bitsOf (w 1) 63 48,
    inScale := bitsOf (w 2) 47 0, outBase := bitsOf (w 3) 47 0, outStride := 8 * bitsOf (w 3) 63 48,
    outScale := bitsOf (w 4) 47 0, weight := bitsOf (w 5) 47 0, sw := bitsOf (w 6) 15 0,
    batch := bitsOf (w 6) 31 16, nVec := bitsOf (w 6) 63 32, seeds := bitsOf (w 7) 47 0,
    seed := ws.getD 8 0, omask := w 9, sideOut := bitsOf (w 10) 47 0,
    sideOutStride := 8 * bitsOf (w 10) 63 48, sideIn := bitsOf (w 11) 47 0,
    sideInStride := 8 * bitsOf (w 11) 63 48, stat := bitsOf (w 12) 47 0, deadline := bitsOf (w 13) 31 0 }

/-- A reserved bit of R138 is set. -/
def descReserved (ws : List Word) : Bool :=
  let w (n : Nat) : Nat := (ws.getD n 0).toNat
  bitOf (w 0) 39 || bitsOf (w 0) 63 52 != 0 || bitsOf (w 2) 63 48 != 0 || bitsOf (w 4) 63 48 != 0 ||
  bitsOf (w 5) 63 48 != 0 || bitsOf (w 7) 63 48 != 0 || bitsOf (w 12) 63 48 != 0 ||
  bitsOf (w 13) 63 32 != 0 || w 14 != 0 || w 15 != 0

/-- Device-wide index of the Dale a descriptor names (R17). -/
def Desc.index (d : Desc) : Nat := 12 * d.vale + d.dale

/-- A complex input has two parts (R138). -/
def Desc.parts (d : Desc) : Nat := if d.wmode = 2 then 2 else 1

/-- The complex modes deliver I and Q (R118, R138). -/
def Desc.outParts (d : Desc) : Nat := if d.wmode = 0 then 1 else 2

def Desc.planes (d : Desc) : Nat := (d.inFmt.getD .a2).bits

/-- Symbols of one vector: b × 2^rep × P (R139). -/
def Desc.vecSymbols (d : Desc) : Nat := d.planes * 2 ^ d.rep * d.parts

def Desc.inRowBytes (d : Desc) : Nat := d.parts * (d.inFmt.getD .a2).rowBytes d.nIn

def Desc.outRowBytes (d : Desc) : Nat := d.outParts * (d.outFmt.getD .a2).rowBytes d.nOut

/-- The masked output channels, ascending (R96); in the complex modes both parts of a channel. -/
def Desc.mask (d : Desc) : List Nat :=
  if d.omaskEn then (List.range (d.outParts * d.nOut)).filter fun j => bitOf d.omask (j % d.nOut) else []

/-- Extent of a row region (R332): from its base to the end of its last row. -/
def rowExtent (n stride bytes : Nat) : Nat := (n - 1) * stride + bytes

/-- Blocks of a scale stream (R75). -/
def streamBlocks (kind n : Nat) : Nat := blockOf kind (n - 1) + 1

/-- The regions a job uses with the permission each needs (R332); `compl` is the completion record. -/
def Desc.regions (d : Desc) (compl : Option Nat) : List (Perm × Nat × Nat) :=
  [(.r, d.inBase, rowExtent d.nVec d.inStride d.inRowBytes),
   (.r, d.inScale, 4 * streamBlocks d.inKind d.nVec),
   (.w, d.outBase, rowExtent d.nVec d.outStride d.outRowBytes),
   (.w, d.outScale, 4 * d.nVec), (.w, d.stat, 32)]
  ++ (match compl with
      | some a => [(.w, a, 32)]
      | none => [])
  ++ (if d.sideWait then [(.r, d.sideIn, rowExtent d.nVec d.sideInStride (4 * d.outParts * d.nOut))] else [])
  ++ (if d.omaskEn then [(.w, d.sideOut, rowExtent d.nVec d.sideOutStride (2 * d.mask.length))] else [])
  ++ (if ¬ d.wref ∧ d.seeds ≠ 0 then [(.r, d.seeds, 128)] else [])
  ++ (if ¬ d.wref then [(.r, d.weight, if d.wmode = 0 then 4096 else 8192)] else [])

/-- R139 with R83, R96 and R100: the descriptor is refused with BAD_PARAM. -/
def Desc.bad (d : Desc) (ws : List Word) (compl : Option Nat) : Bool :=
  descReserved ws || d.wmode == 3 || d.inFmt.isNone || d.inFmt == some .raw || d.outFmt.isNone ||
  decide (4 < d.rep) || (headroomEighths d.headroom).isNone || d.inKind == 3 ||
  (d.omaskEn && (decide (16 < popCount 64 d.omask) || d.rot)) ||
  (d.rot && d.outParts * d.nOut % 64 != 0) || decide (11 < d.vale ∨ 11 < d.dale) ||
  d.seeds % 8 != 0 || d.batch == 0 || d.nVec == 0 || (d.wref && bitsOf d.weight 47 16 != 0) ||
  decide (65536 < 48 + d.batch * d.vecSymbols) ||
  (d.regions compl).any fun r => !inMemory r.2.1 r.2.2

/-- The effective owner of a Dale (DALE_CTL, R347). -/
def Chip.daleOwner (c : Chip) (k : Nat) : Nat := c.f Fld.daleCtl_owner [k / 12, k % 12]

def Chip.tentOpen (c : Chip) (t : Nat) : Bool := c.f Fld.tentCtl_state [t] == 1

/-- DALE_QUEUE shows the queued jobs, the running one among them (R136, log entry 27). -/
def Chip.syncDepth (c : Chip) (k : Nat) : Chip :=
  let d := c.dale k
  c.setF Fld.daleQueue_depth [k / 12, k % 12] (d.queue.length + d.run.isSome.toNat)

/-- R136 to R139, R332, R345: a job is enqueued, or refused with a status. A drained Dale takes none
(R520). -/
def Chip.enqueueDale (c : Chip) (j : DaleJob) : Nat × Chip :=
  let d := Desc.ofWords j.desc
  let k := d.index
  if ¬ c.tentOpen j.tent then (Status.notPermitted, c)
  else if 11 < d.vale ∨ 11 < d.dale then (Status.badParam, c)
  else if 16 ≤ (c.dale k).queue.length + (c.dale k).run.isSome.toNat then (Status.queueFull, c)
  else if d.bad j.desc j.compl then (Status.badParam, c)
  else if j.tent ≠ 0 ∧ j.tent ≠ c.daleOwner k then (Status.notPermitted, c)
  else if j.tent ≠ 0 ∧ j.tent ≠ c.f Fld.valeBank_owner [d.vale, d.bank] then (Status.notPermitted, c)
  else if (c.dale k).drained then (Status.notPermitted, c)
  else if ¬ (d.regions j.compl).all fun r => c.admits j.tent r.1 r.2.1 r.2.2 then
    (Status.notPermitted, c)
  else
    let dl := c.dale k
    (Status.ok, (c.setDale k { dl with queue := dl.queue ++ [j] }).syncDepth k)

/-! ### Colour tags -/

/-- One step of the tag's CRC-8 (x^8 + x^2 + x + 1, initial value 0), one bit in (R123). -/
def crc8Step (r : Nat) (b : Nat) : Nat :=
  let top := (r / 128 + b) % 2
  let s := r * 2 % 256
  if top = 1 then Nat.xor s 7 else s

/-- CRC-8 over bits, the first given entering first. -/
def crc8 (bits : List Nat) : Nat := bits.foldl crc8Step 0

/-- Bits lo .. lo + n − 1 of a word, lowest first. -/
def bitList (x lo n : Nat) : List Nat := (List.range n).map fun i => x / 2 ^ (lo + i) % 2

/-- The fields a colour tag names (R123). -/
structure TagFields where
  vale : Nat
  port : Nat
  bank : Nat
  tent : Nat
  kind : Nat
deriving DecidableEq, Repr

/-- R123: the 32 symbols of a tag, symbol s in bit s. -/
def tagOf (f : TagFields) : Tag :=
  let body := 11 + f.vale * 2 ^ 4 + f.port * 2 ^ 8 + f.bank * 2 ^ 12 + f.tent * 2 ^ 16 + f.kind * 2 ^ 22
  let crc := crc8 (bitList body 4 20)
  let rev := ((bitList crc 0 8).reverse.mapIdx fun i b => b * 2 ^ i).sum
  BitVec.ofNat 32 (body + rev * 2 ^ 24)

/-- R123: the fields of a decoded tag whose preamble and CRC hold. -/
def tagFields (t : Tag) : Option TagFields :=
  let x := t.toNat
  if bitsOf x 3 0 = 11 ∧ crc8 (bitList x 4 28) = 0 then
    some { vale := bitsOf x 7 4, port := bitsOf x 11 8, bank := bitsOf x 15 12, tent := bitsOf x 21 16,
           kind := bitsOf x 23 22 }
  else none

/-- What detector `n` decodes (0 to 63 the rows, 64 the LO) when `sent` is on the light and the
detectors of `bad` see something else. -/
def detected (sent : Tag) (bad : List (Nat × Option Tag)) (n : Nat) : Option Tag :=
  match bad.find? fun p => p.1 == n with
  | some p => p.2.bind fun t => (tagFields t).map fun _ => t
  | none => some sent

/-- R125: the tag is accepted: all 65 detectors decode the tag sent. -/
def tagAccepted (sent : Tag) (bad : List (Nat × Option Tag)) : Bool :=
  (List.range 65).all fun n => detected sent bad n == some sent

/-- R126: what the Dale records of a tag not accepted. Where the LO detector decodes none, the tag reads 0 and every row
with a tag differs (log entry 92). -/
def Chip.recordTag (c : Chip) (k : Nat) (sent : Tag) (bad : List (Nat × Option Tag)) : Chip :=
  let v := k / 12
  let d := k % 12
  let lo := detected sent bad 64
  let rows := (List.range 64).map fun n => detected sent bad n
  let c := c.setF Fld.daleLastTag_tag [v, d] ((lo.map BitVec.toNat).getD 0)
  let c := c.setF Fld.daleTagRows_dark [v, d] (rows.filter fun r => r.isNone).length
  let c := c.setF Fld.daleTagRows_differ [v, d] (rows.filter fun r => r.isSome && r != lo).length
  c.mapRun k fun r => { r with badTag := some ((lo.map BitVec.toNat).getD 0) }

/-! ### Deadlines -/

/-- Slot length in cycles of the radio timing clock, 122.88 MHz (R382). -/
def slotCycles (numerology : Nat) : Nat := 122880 / 2 ^ numerology

/-- R384, R385: the deadline is reached `now` cycles after the current slot's tick. -/
def Chip.deadlineReached (c : Chip) (deadline now : Nat) : Bool :=
  if deadline = 0 then false
  else
    let low := bitsOf deadline 31 14
    let off := 16 * bitsOf deadline 13 0
    let ahead := (low + 2 ^ 18 - c.radio.slots % 2 ^ 18) % 2 ^ 18
    if ahead = 0 then decide (off ≤ now)
    else if ahead ≤ 2 ^ 17 then false
    else decide (off ≤ now + (2 ^ 18 - ahead) * slotCycles c.radio.numerology)

/-! ### Reload -/

/-- The tile a job needs now: of its Tent's active set, or at its address; none where the Tent has no
active set, the index lies outside it or the record's mode differs (R135, R360). -/
def Chip.wantedTile (c : Chip) (j : DaleJob) : Option Tile :=
  let d := Desc.ofWords j.desc
  if d.wref then
    match c.activeSlot j.tent with
    | none => none
    | some s =>
      let n := bitsOf d.weight 15 0
      if n < (c.slotInfo j.tent s).tiles then
        let t := c.setTile j.tent s n
        if t.wmode = (if d.wmode = 0 then 0 else 1) then some t else none
      else none
  else
    some { bytes := c.bytes d.weight (if d.wmode = 0 then 4096 else 8192), addr := d.weight,
           wmode := if d.wmode = 0 then 0 else 1, sw := d.sw }

/-- R134: the resident tile is the one wanted: same epoch and index, or same absolute address, and
same mode. -/
def sameTile (a b : Tile) : Bool :=
  a.epoch == b.epoch && a.index == b.index && a.wmode == b.wmode && (a.index != 0xFFFF || a.addr == b.addr)

/-- Seeds of a job in units of 2^-16 (R82): of the set's tile record, of the table of word 7, or 1.0. -/
def Chip.jobSeeds (c : Chip) (j : DaleJob) : List Nat :=
  let d := Desc.ofWords j.desc
  let base :=
    if d.wref then (c.activeSlot j.tent).map fun s => c.tileRecord j.tent s (bitsOf d.weight 15 0) + 16
    else if d.seeds = 0 then none else some d.seeds
  match base with
  | none => List.replicate 64 65536
  | some a => (List.range 64).map fun n => seedUnits (c.num (a + 2 * n) 2)

/-- R133 steps 1 and 2, R361: a reload begins: its fetch is charged as MEM grains, the codes come from the element map
as it is now (R279). A job of the active set takes the seeds of the tile it gets (R82). -/
def Chip.beginReload (c : Chip) (k t : Nat) (tile : Tile) : Chip :=
  let p := c.admitAll t (memAccess tile.addr tile.bytes.length) (some (.dale k))
  if p.2 then
    let c := p.1.stageTile k tile
    let c := c.mapRun k fun r => { r with
      needTile := false, seeds := if (Desc.ofWords r.job.desc).wref then c.jobSeeds r.job else r.seeds }
    c.setDaleState k 2
  else p.1

/-- R290: the selector calibration of a bank is abandoned without a result. -/
def Chip.abandonSel (c : Chip) (v b : Nat) : Chip :=
  if (c.bank v b).calRun then
    (c.setBank v b { c.bank v b with calRun := false }).setF Fld.calState_selBank [v] 0x1F
  else c

/-- R111 to R113: the bank of the running job is bound: the port is freed of another bank, the bank claims it and, on
another line, changes colour; dark with its selector locked on its line it goes to locked-tagging, and else acquires. -/
def Chip.bindBank (c : Chip) (k b : Nat) : Chip :=
  let v := k / 12
  let d := k % 12
  let carried := (c.bank v b).carries
  if carried.isSome ∧ carried ≠ some k then c
  else
    let c := (List.range 16).foldl (fun c x => if x ≠ b ∧ c.claims v x d then c.park v x else c) c
    let c := c.abandonSel v b
    let c := c.setBank v b { c.bank v b with carries := some k }
    let c := c.setF Fld.valeBank_port [v, b] d
    let c := c.setF Fld.daleState_bank [v, d] b
    let c := c.mapRun k fun r => { r with bound := true }
    let L := (d + 16 - b) % 16
    let c := if c.f Fld.valeBank_line [v, b] ≠ L then (c.setDaleState k 7).colourChange v b L
      else if 2 ≤ c.f Fld.valeBank_state [v, b] then c
      else if c.bankGoodNow v b then c.startTagging v b
      else c.setF Fld.valeBank_state [v, b] 1
    c.syncGood v 0

/-- What follows once the Dale holds its credits (R133, R111, R122): direction, bank, reload. The ranges of a job that
keeps the resident tile start from that tile's seeds (R82). -/
def Chip.prepareRun (c : Chip) (k : Nat) : Chip :=
  match (c.dale k).run with
  | none => c
  | some r =>
    let d := Desc.ofWords r.job.desc
    let c := c.mapRun k fun r => { r with phase := .prepare, seeds := c.jobSeeds r.job }
    let dirOld := c.f Fld.daleState_dir [k / 12, k % 12]
    let c := if d.dir = dirOld then c
      else ((c.setF Fld.daleState_dir [k / 12, k % 12] d.dir).setDaleState k 6).mapRun k fun r =>
        { r with switched := true }
    let c := c.bindBank k d.bank
    match c.wantedTile r.job with
    | none => c.stopRun k 0 Status.setNotActive
    | some t =>
      if d.reuse ∧ ((c.dale k).tile.map fun x => sameTile x t).getD false then c
      else (c.mapRun k fun r => { r with needTile := true }).beginReload k r.job.tent t

/-! ### Ranges -/

/-- R119: range settings for a job's trackers: the range index each delivered column takes. -/
def wantedRanges (d : Desc) (r : DaleRun) : List Nat :=
  (List.range d.nOut).map fun j =>
    settingFor daleSettings
      ((r.trackers.getD j {}).wanted (r.seeds.getD j 65536) d.hist ((headroomEighths d.headroom).getD 8))

/-- R119: the conversion scale g of a range index, SC16. -/
def daleG (wmode k : Nat) : Nat :=
  0x8500 - k / 2 * 0x100 - (if k % 2 = 1 then 0x100 - 0x6A else 0) + (if wmode = 0 then 0 else 0x100)

/-- R140: range changes of a batch: how many, with the registers set. -/
def Chip.setRanges (c : Chip) (k : Nat) (d : Desc) (ks : List Nat) : Chip :=
  (ks.mapIdx fun j x => (j, x)).foldl (fun c p =>
    (c.setF Fld.daleRange_k [k / 12, k % 12, p.1] p.2).setF Fld.daleRange_g [k / 12, k % 12, p.1]
      (daleG d.wmode p.2)) c

/-- The range indices in force of the delivered columns. -/
def Chip.rangesNow (c : Chip) (k n : Nat) : List Nat :=
  (List.range n).map fun j => c.f Fld.daleRange_k [k / 12, k % 12, j]

/-! ### Accumulation -/

/-- Weight of row i, column j of a tile: real and imaginary part in units of 2^-32 code (R66). -/
def tileWeight (t : Tile) (i j : Nat) : Int × Int :=
  if t.wmode = 0 then (w6Of (t.bytes.getD (64 * i + j) 0) * 2 ^ 32, 0)
  else
    let x := leNat ((t.bytes.drop (128 * i + 2 * j)).take 2)
    let a : Int := bitsOf x 13 8
    (a * cos256 (bitsOf x 7 0), a * sin256 (bitsOf x 7 0))

/-- The codes of one part of an input row (R61, R138). -/
def Chip.inputRow (c : Chip) (d : Desc) (row part : Nat) : List Int :=
  let f := d.inFmt.getD .a2
  let bs := c.bytes (d.inBase + row * d.inStride + part * f.rowBytes d.nIn) (f.rowBytes d.nIn)
  (List.range d.nIn).map fun i => f.elem bs i

/-- One receiver slice: the light in code units (2^-32), the range setting, and the noise in 1/65,536
LSB give the sample and whether the comparator fired (R118, R189, log entry 4). -/
def receive (wmode k : Nat) (light : Int) (noise : Int) : Int × Bool :=
  let g := daleSettings.getD k 1 * (if wmode = 0 then 1 else 2)
  let x := light * 2 ^ 13 / (2 ^ 16 * g) + noise
  let lim : Int := 31 * 65536 + 32768
  if lim < x then (31, true)
  else if x < -lim then (-31, true)
  else (clampInt (-31) 31 ((x + 32768) / 65536), false)

/-- Noise values taken from the command in order, zero beyond its list. -/
def takeNoise (ns : List Int) : Int × List Int := (ns.headD 0, ns.tail)

/-- What one column has accumulated in a row, and what its tracker and counts saw. -/
structure ColAcc where
  ai  : Int := 0
  aq  : Int := 0
  m   : Nat := 0
  ovr : Nat := 0
deriving DecidableEq, Repr

/-- R80: the magnitude of a sample as a fraction of the largest setting, units of 2^-16, rounded up. -/
def sampleMag (k : Nat) (s : Int) : Nat := ceilDiv (s.natAbs * daleSettings.getD k 0) (31 * 8)

/-- One symbol in one column (R118, R120, R191): `w` the plane's weight, `im` the second part. -/
def columnSymbol (d : Desc) (k : Nat) (w : Int) (im : Bool) (light : Int × Int)
    (s : ColAcc × List Int) : ColAcc × List Int :=
  let n1 := takeNoise s.2
  let i := receive d.wmode k light.1 n1.1
  let n2 := if d.wmode = 0 then ((0 : Int), n1.2) else takeNoise n1.2
  let q := if d.wmode = 0 then ((0 : Int), false) else receive d.wmode k light.2 n2.1
  let a := s.1
  ({ ai := if im then a.ai - w * q.1 else a.ai + w * i.1
     aq := if im then a.aq + w * i.1 else a.aq + w * q.1
     m := max a.m (max (sampleMag k i.1) (sampleMag k q.1))
     ovr := a.ovr + (i.2 || q.2).toNat }, n2.2)

/-- The light of one plane in column j: Σ w_ij over the rows whose bit is set, forward or transpose
(R114, R122). -/
def planeLight (t : Tile) (dir b p : Nat) (xs : List Int) (j : Nat) : Int × Int :=
  (xs.mapIdx fun i x => (i, x)).foldl (fun s ix =>
    if planeBit b p ix.2 = 1 then
      let w := if dir = 0 then tileWeight t ix.1 j else tileWeight t j ix.1
      (s.1 + w.1, s.2 + w.2)
    else s) (0, 0)

/-- R120: the columns of one row before the division by the repeat count. -/
def accumulateRow (t : Tile) (d : Desc) (ks : List Nat) (parts : List (List Int)) (noise : List Int) :
    List ColAcc × List Int :=
  let b := d.planes
  let symbols := ((List.range (2 ^ d.rep)).map fun _ =>
    ((List.range d.parts).map fun part => (List.range b).map fun p => (part, p)).flatten).flatten
  symbols.foldl (fun s sy =>
    let im := decide (sy.1 = 1)
    let w := (if im ∧ d.conj then -1 else 1) * planeWeight b sy.2
    let xs := parts.getD sy.1 []
    let r := (List.range d.nOut).foldl (fun (a : List ColAcc × List Int) j =>
      let o := columnSymbol d (ks.getD j 0) w im (planeLight t d.dir b sy.2 xs j) (s.1.getD j {}, a.2)
      (a.1 ++ [o.1], o.2)) ([], s.2)
    r) (List.replicate d.nOut {}, noise)

/-- R120: the division by the repeat count and the sign of conj: for each of the 64 columns, delivered or not, one
draw for I and one for Q. The draws are the requantiser's (R95 names one generator for it and none for the
accumulator: log entry 90). -/
def divideRow (d : Desc) (g : Gen) (cs : List ColAcc) : List (Int × Int) × Gen :=
  let r := Gen.mapM (fun g j =>
    let a := cs.getD j {}
    let i := g.shift a.ai d.rep
    let q := i.2.shift a.aq d.rep
    ((i.1, if d.conj then -q.1 else q.1), q.2)) g (List.range 64)
  (r.1.take cs.length, r.2)

/-- R121: ρ of a column against the base index. -/
def rho (kb k : Nat) : Nat :=
  if k % 2 = 0 then 128 * 2 ^ ((kb - k) / 2) else 181 * 2 ^ ((kb - k - 1) / 2)

/-- R121: the base index of a row: the largest range index rounded up to even. -/
def baseIndex (ks : List Nat) : Nat := let m := ks.foldl max 0; m + m % 2

/-- R121, R106: the aligned values, g_row and the floor factor. The factor is the exact fraction: R89 calls it fixed
point 16.16, and no rule rounds it to that or bounds it (log entry 89). -/
def alignRow (d : Desc) (ks : List Nat) (vals : List (Int × Int)) : List Int × Nat × Rat2 :=
  let kb := baseIndex ks
  let rs := ks.map (rho kb)
  let is := vals.mapIdx fun j v => v.1 * ((rs.getD j 0 : Nat) : Int)
  let qs := vals.mapIdx fun j v => v.2 * ((rs.getD j 0 : Nat) : Int)
  let e := (if d.wmode = 0 then 126 else 127) - kb / 2
  let sq := (rs.map fun r => r * r).sum
  (if d.wmode = 0 then is else is ++ qs, e * 256,
   { num := (4 ^ d.planes - 1) * d.parts * sq, den := 36 * 2 ^ d.rep * rs.length })

/-! ### Delivery -/

/-- R104: a row's additions to sse and cnt of the job, one after the other. -/
def addStats (r : DaleRun) (adds : List StatAdd) : DaleRun :=
  let s := adds.foldl Stats.add { sse := r.sse, cnt := r.cnt, stopped := r.stopped }
  { r with sse := s.sse, cnt := s.cnt, stopped := s.stopped }

/-- A 32-bit saturating count (R105). -/
def sat32 (n : Nat) : Nat := min n 0xFFFFFFFF

/-- The side sums of a row (R98, R138): int32 per column, I before Q. -/
def Chip.sideSums (c : Chip) (d : Desc) (row n : Nat) : List Int :=
  (List.range n).map fun j => signedOf 32 (c.num (d.sideIn + row * d.sideInStride + 4 * j) 4)

/-- A row leaves for memory (R89, R90, R97, R138): codes or int32 values, its scale record and its outlier values. The
model's choices (log entry 91): the sum of a value and its side sum is taken as it is, without a limit of 32 bits
(R98); a raw row is neither transformed nor masked, its scale is not divided and it writes no outlier values, while
its record counts the mask's bits and carries the rotated flag (R97, R100, R138). -/
def Chip.deliverRow (c : Chip) (k : Nat) (d : Desc) (a : AccRow) : Chip :=
  let vals := if d.sideWait then
      (List.zip a.vals (c.sideSums d a.row a.vals.length)).map fun p => p.1 + p.2
    else a.vals
  let sIn := Rat2.mul (Rat2.mul (sc16Val a.scale) (sc16Val a.sw)) (sc16Val a.gRow)
  let g := c.gen (.requantDale k)
  let f := d.outFmt.getD .a2
  let rec0 (scale : Nat) : Nat := ScaleRec.toWord
    { tag := a.row % 64, kind := 0, outliers := min 31 (popCount 64 (if d.omaskEn then d.omask else 0)),
      rotated := d.rot, seeded := a.seeded, clipped := a.clipped, scale := scale }
  let put (c : Chip) (xs : List Int) : Chip :=
    c.store (d.outBase + a.row * d.outStride)
      (f.pack (xs.take d.nOut) ++ (if d.wmode = 0 then [] else f.pack (xs.drop d.nOut)))
  let c := if f = .raw then
      let s := sc16Round g sIn
      let c := (c.setGen (.requantDale k) s.2).setNum (d.outScale + 4 * a.row) 4 (rec0 s.1)
      put c vals
    else
      let o := requantiseRow { acc := vals, sIn := sIn, floorF := a.floorF, bits := f.bits,
                               mask := d.mask, rot := d.rot } g
      let c := (c.setGen (.requantDale k) o.2).setNum (d.outScale + 4 * a.row) 4 (rec0 o.1.scale)
      let c := c.store (d.sideOut + a.row * d.sideOutStride)
        ((if d.omaskEn then o.1.side else []).flatMap fun x => leBytes 2 x)
      let c := c.mapRun k fun r => addStats { r with ovr := sat32 (r.ovr + o.1.ovr) } o.1.adds
      put c o.1.codes
  c.mapRun k fun r => { r with written := a.row + 1 }

/-- R98, R141, R361: rows wait in the accumulator until their side sums are ready and the grains that read them are
admitted; others are delivered at once, in order. `n` bounds the rows. -/
def Chip.deliverReady : Nat → Chip → Nat → Chip
  | 0, c, _ => c
  | n + 1, c, k =>
    match (c.dale k).run with
    | none => c
    | some r =>
      match r.acc with
      | [] => c
      | a :: rest =>
        let d := Desc.ofWords r.job.desc
        let ready := c.f Fld.daleSide_ready [k / 12, k % 12]
        let m := c.admitAll r.job.tent
          (if d.sideWait then memAccess (d.sideIn + a.row * d.sideInStride) (4 * a.vals.length) else []) (some (.dale k))
        if d.sideWait ∧ ready = 0 then c
        else if ¬ m.2 then m.1
        else
          let c := m.1
          let c := if d.sideWait then c.setF Fld.daleSide_ready [k / 12, k % 12] (ready - 1) else c
          let c := c.mapRun k fun r => { r with acc := rest }
          Chip.deliverReady n (c.deliverRow k d a) k

/-- The job's last row is done with, or a stop has come: its end is decided (R142). -/
def Chip.settleRun (c : Chip) (k : Nat) : Chip :=
  match (c.dale k).run with
  | none => c
  | some r =>
    let d := Desc.ofWords r.job.desc
    if (r.stop.isSome ∧ r.acc.isEmpty ∨ d.nVec ≤ r.written) ∧ r.phase ≠ .batch then
      (c.mapRun k fun r => { r with phase := .ended }).setIdle k
    else c

/-- R143: the Dale statistic block. Bytes 24 to 27 hold 0 where no tag was refused (log entry 92: only unused row
fields have a stated value). -/
def statBlock (r : DaleRun) : List Byte :=
  let row (x : Option Nat) : List Byte := leBytes 4 (x.getD 0xFFFFFFFF)
  leBytes 8 r.sse ++ leBytes 4 r.cnt ++ row (r.stop.map fun s => s.1) ++ row r.suspect ++ row r.newEpoch
    ++ leBytes 4 (r.badTag.getD 0) ++ leBytes 2 r.reloads ++ leBytes 2 0

/-- R142: the status a job ends with. -/
def runStatus (r : DaleRun) : Nat :=
  match r.stop with
  | some s => s.2
  | none => if r.ovr = 0 then Status.ok else Status.okClipped

/-- R427: bytes 24 to 27 of its completion record. -/
def runRow (r : DaleRun) : Nat :=
  match r.stop with
  | none => 0
  | some s => if s.2 = Status.scaleSkew then blockOf (Desc.ofWords r.job.desc).inKind s.1 else s.1

/-- R113: the bank of a job that ends: lit it stays so and keeps its claim; one that was still tuning for the job is
parked; one that had lost its lock releases its port while it acquires. A written owner waits for it to go dark
(R146). -/
def Chip.releaseBank (c : Chip) (k b : Nat) : Chip :=
  let v := k / 12
  if (c.bank v b).carries ≠ some k then c
  else
    let c := c.setBank v b { c.bank v b with carries := none }
    let st := c.f Fld.valeBank_state [v, b]
    if (c.bank v b).newOwner.isSome ∨ st = 4 then c.park v b
    else if st = 1 then c.setF Fld.valeBank_port [v, b] 0
    else c

/-- R142, R143, R427: the job ends: statistic block, then completion record, then its bank is free for
another job while it stays lit on its line (R113). -/
def Chip.finishRun (c : Chip) (k : Nat) : Chip :=
  match (c.dale k).run with
  | none => c
  | some r =>
    let d := Desc.ofWords r.job.desc
    let c := c.store d.stat (statBlock r)
    let c := c.complete
      { tag := r.job.tag.toNat, status := runStatus r, tent := r.job.tent, coder := false,
        epoch := r.epoch, ovr := r.ovr, disc := r.discards, stat := d.stat, dale := k, row := runRow r }
      r.job.compl r.job.msgcpl
    let c := c.unwaitJob (.dale k) r.job.tent
    let dl := c.dale k
    let c := c.setDale k { dl with run := none, lastTent := r.job.tent }
    let v := k / 12
    let c := (c.releaseBank k d.bank).setF Fld.daleSide_ready [v, k % 12] 0
    let c := c.count Fld.daleQueue_done [v, k % 12]
    let c := c.syncDepth k
    -- another Dale's job may wait for this bank (R111)
    (List.range 12).foldl (fun c d2 =>
      match (c.dale (12 * v + d2)).run with
      | some r2 =>
        let b2 := (Desc.ofWords r2.job.desc).bank
        if ¬ r2.bound ∧ r2.phase = .prepare ∧ b2 = d.bank then c.bindBank (12 * v + d2) b2 else c
      | none => c) c

/-- Rows that wait in a Dale's accumulator are offered again. -/
def Chip.retryRows (c : Chip) (k : Nat) : Chip :=
  match (c.dale k).run with
  | some r => if r.acc.isEmpty ∨ r.phase = .ended then c
      else (Chip.deliverReady (r.acc.length + 1) c k).settleRun k
  | none => c

/-- R137: the job that comes next: the oldest of the Tent that follows the last one in round-robin
order. -/
def nextJob (last : Nat) (q : List DaleJob) : Option DaleJob :=
  let tents := (List.range 64).map fun i => (last + 1 + i) % 64
  tents.findSome? fun t => q.find? fun j => j.tent == t

end Sys2Proof.Machine
end

