-- ==== Sys2Proof/Machine/SiteOps.lean ====
section
/-!
DEFINITION. Sys2Proof/Machine/SiteOps.lean: files 05 and 10 of spec/: sites and their threads (R300 to
R303, R320, R321, R329), array contexts (R159, R335, R336) and array steps (R151 to R161, R333, R334).
-/

namespace Sys2Proof

/-- The thread exists (R17). -/
def Hart.ok (h : Hart) : Bool := decide (h.i < 27648 ∧ h.t < 8)

/-- The Veld of the thread's site (R17). -/
def Hart.veld (h : Hart) : Nat := h.i / 768

end Sys2Proof

namespace Sys2Proof.Machine

/-! ### Units -/

def Chip.core (c : Chip) (i : Nat) : Core := Tab.get c.cores i {}

def Chip.setCore (c : Chip) (i : Nat) (x : Core) : Chip := { c with cores := Tab.set c.cores i x }

def Chip.arr (c : Chip) (n s : Nat) : Arr := Tab.get c.arrs (n, s) {}

def Chip.setArr (c : Chip) (n s : Nat) (x : Arr) : Chip := { c with arrs := Tab.set c.arrs (n, s) x }

def Chip.veld (c : Chip) (n : Nat) : Veld := Tab.get c.velds n {}

def Chip.setVeld (c : Chip) (n : Nat) (x : Veld) : Chip := { c with velds := Tab.set c.velds n x }

/-- VELD_LMAP of a logical site. -/
def Chip.physOf (c : Chip) (i : Nat) : Nat := c.f Fld.veldLmap_phys [i / 768, i % 768]

def Chip.lmapValid (c : Chip) (i : Nat) : Bool := c.flag Fld.veldLmap_valid [i / 768, i % 768]

/-- R301: the Tent a site's threads run as. -/
def Chip.siteTent (c : Chip) (i : Nat) : Nat := c.f Fld.veldLmap_owner [i / 768, i % 768]

/-- The logical site a physical site serves, none for 0x7FFF (SITE_ID). -/
def Chip.logicalOf (c : Chip) (n s : Nat) : Option Nat :=
  let i := c.f Fld.siteId_logical [n, s]
  if i = 0x7FFF then none else some i

/-- State of the physical site behind a logical one (SITE_ASTATE). -/
def Chip.siteState (c : Chip) (i : Nat) : Nat := c.f Fld.siteAstate_state [i / 768, c.physOf i]

def Chip.siteArr (c : Chip) (i : Nat) : Arr := c.arr (i / 768) (c.physOf i)

def Chip.thread (c : Chip) (h : Hart) : Thread := Tab.get (c.core h.i).threads h.t {}

def Chip.setThread (c : Chip) (h : Hart) (t : Thread) : Chip :=
  let k := c.core h.i
  c.setCore h.i { k with threads := Tab.set k.threads h.t t }

def Chip.mapThread (c : Chip) (h : Hart) (f : Thread → Thread) : Chip := c.setThread h (f (c.thread h))

/-! ### Thread registers (R300) -/

/-- x0 reads zero. -/
def Thread.getX (t : Thread) (n : Nat) : Word := if n = 0 then 0 else Tab.get t.x n 0

/-- A write of x0 is ignored. -/
def Thread.setX (t : Thread) (n : Nat) (w : Word) : Thread :=
  if n = 0 then t else { t with x := Tab.set t.x n w }

def Thread.getV (t : Thread) (n : Nat) : BitVec 128 := Tab.get t.v n 0

def Thread.setV (t : Thread) (n : Nat) (w : BitVec 128) : Thread := { t with v := Tab.set t.v n w }

/-- p0 reads all ones. -/
def Thread.getP (t : Thread) (n : Nat) : BitVec 8 := if n = 0 then 0xFF else Tab.get t.p n 0

/-- A write of p0 is ignored. -/
def Thread.setP (t : Thread) (n : Nat) (w : BitVec 8) : Thread :=
  if n = 0 then t else { t with p := Tab.set t.p n w }

/-! ### Life of a thread -/

/-- The thread becomes FREE. Stores it has issued in this module are still performed; those sent to others are
theirs. -/
def Thread.freed (t : Thread) : Thread :=
  { state := 0, out := t.out.filter fun a => a.tag.isNone && match a.kind with
      | .store _ => true
      | _ => false }

def Chip.freeThread (c : Chip) (h : Hart) : Chip :=
  (c.mapThread h Thread.freed).unwaitJob (.core h.i) (c.siteTent h.i)

/-- SITE_INSTR of the core counts (R303). -/
def Chip.countInstr (c : Chip) (i : Nat) : Chip :=
  c.put { name := .siteInstr, idx := [i / 768, c.physOf i] }
    (c.get { name := .siteInstr, idx := [i / 768, c.physOf i] } + 1)

/-- The thread's instruction retires and the thread goes on at `pc`: READY, or FREE where a stop waits
for this boundary (R321). -/
def Chip.retireTo (c : Chip) (h : Hart) (pc : Nat) : Chip :=
  let c := c.countInstr h.i
  let t := c.thread h
  if t.stopping then c.freeThread h
  else c.setThread h { t with state := 1, pc := pc % 2 ^ 48, retired := t.retired + 1, wait := .none }

def Chip.retire (c : Chip) (h : Hart) : Chip := c.retireTo h ((c.thread h).pc + 4)

/-- The causes of R320. -/
inductive Cause where
  | illegal | misaligned | unmapped | window | array | atomic | remote | fetch
deriving DecidableEq, Repr

def Cause.code : Cause → Nat
  | .illegal => 1
  | .misaligned => 2
  | .unmapped => 3
  | .window => 4
  | .array => 5
  | .atomic => 6
  | .remote => 7
  | .fetch => 8

/-- THREAD_FAULT (R320, R430): the thread stops before the instruction takes effect. -/
def Chip.threadFault (c : Chip) (h : Hart) (w : Cause) (addr : Nat) : Chip :=
  let n := h.i / 768
  let s := c.physOf h.i
  let t := c.thread h
  let c := c.put { name := .siteTfault, idx := [n, s, h.t] }
    (BitVec.ofNat 64 (w.code * 2 ^ 56 + t.pc))
  let c := c.put { name := .siteTfault, idx := [n, s, h.t], w := 1 } (BitVec.ofNat 64 (addr % 2 ^ 48))
  let c := c.setThread h { t with state := 4, wait := .none, out := t.freed.out }
  let c := c.ev .siteEvFault [n, s]
  let c := c.message (c.siteTent h.i) 2
    (leBytes 4 h.i ++ leBytes 1 h.t ++ leBytes 1 w.code ++ leBytes 2 0 ++ leBytes 8 t.pc
      ++ leBytes 8 (addr % 2 ^ 48))
  if t.stopping then c.freeThread h else c

/-- R321: a stop frees the thread at its next instruction boundary; a WAITM or TICKW ends at once, a
step or a memory access runs to its end. -/
def Chip.stopThread (c : Chip) (h : Hart) : Chip :=
  let t := c.thread h
  match t.state, t.wait with
  | 0, _ => c
  | _, .step _ => c.setThread h { t with stopping := true }
  | _, .memory => c.setThread h { t with stopping := true }
  | _, .fence _ => c.setThread h { t with stopping := true }
  | _, _ => c.freeThread h

/-- Threads of a site. -/
def siteHarts (i : Nat) : List Hart := (List.range 8).map fun t => { i := i, t := t }

/-- The lowest FREE thread of a site (R329). -/
def Chip.freeHart (c : Chip) (i : Nat) : Option Hart :=
  (siteHarts i).find? fun h => (c.thread h).state == 0

/-- R329: a new thread starts with every register zero but x1 and x2. -/
def Chip.startThread (c : Chip) (h : Hart) (s : Start) : Chip :=
  let t : Thread := { state := 1, pc := s.pc, out := (c.thread h).out }
  c.setThread h ((t.setX 1 s.arg).setX 2 s.src)

/-- R329: a start on a site: at once, queued, or refused. -/
def Chip.spawn (c : Chip) (i : Nat) (s : Start) : Nat × Chip :=
  let k := c.core i
  match c.freeHart i, k.spawnq with
  | some h, [] => (Status.ok, c.startThread h s)
  | _, q =>
    if 8 ≤ q.length then (Status.queueFull, c)
    else (Status.ok, c.setCore i { k with spawnq := q ++ [s] })

/-- R310: an instruction of a Tent's thread may be fetched at an address: its own site store always
executes. -/
def Chip.fetchOk (c : Chip) (i pc : Nat) : Bool :=
  decide (storeBase i ≤ pc ∧ pc + 4 ≤ storeBase i + 0x8000) || c.admits (c.siteTent i) .x pc 4

/-- R329, R521: a start asked for by a Tent. -/
def Chip.requestStart (c : Chip) (tent i : Nat) (s : Start) : Nat × Chip :=
  if 27648 ≤ i ∨ s.pc % 4 ≠ 0 then (Status.badParam, c)
  else if c.siteTent i ≠ tent ∨ 2 ^ 48 ≤ s.pc ∨ ¬ c.fetchOk i s.pc ∨ (c.veld (i / 768)).drained then
    (Status.notPermitted, c)
  else c.spawn i s

/-! ### Array contexts -/

/-- A number in a site's store, zero from its end on (log entry 40). -/
def Chip.storeNum (c : Chip) (i off n : Nat) : Nat :=
  if off + n ≤ 0x8000 then c.num (storeBase i + off) n else 0

/-- Fields of SITE_ACTX_CFG. -/
structure ActxCfg where
  inFmt    : Option Fmt
  outFmt   : Option Fmt
  rep      : Nat
  hist     : Nat
  headroom : Nat
  rot      : Bool
  inKind   : Nat
  sideWait : Bool
  omaskEn  : Bool
deriving DecidableEq, Repr

def ActxCfg.ofWord (x : Nat) : ActxCfg :=
  { inFmt := Fmt.ofCode (bitsOf x 2 0), outFmt := Fmt.ofCode (bitsOf x 5 3), rep := bitsOf x 7 6,
    hist := bitsOf x 11 8 + 1, headroom := bitsOf x 14 12, rot := bitOf x 15, inKind := bitsOf x 17 16,
    sideWait := bitOf x 18, omaskEn := bitOf x 19 }

def ActxCfg.planes (a : ActxCfg) : Nat := (a.inFmt.getD .a2).bits

def ActxCfg.inBytes (a : ActxCfg) : Nat := (a.inFmt.getD .a2).rowBytes 512

def ActxCfg.outBytes (a : ActxCfg) : Nat := (a.outFmt.getD .a2).rowBytes 256

/-- The outlier mask of a seed table: words 0 to 3 cover the 256 outputs (log entry 41). -/
def Chip.actxMask (c : Chip) (i off : Nat) : List Nat :=
  (List.range 256).filter fun j => bitOf (c.storeNum i (off + 64 + 8 * (j / 64)) 8) (j % 64)

/-- R159: the fields break R83, R96 or R100, name an unassigned format or set rep to 3. -/
def Chip.actxRefused (c : Chip) (i off cfg : Nat) : Bool :=
  let a := ActxCfg.ofWord cfg
  (headroomEighths a.headroom).isNone || a.inFmt.isNone || a.inFmt == some .raw || a.outFmt.isNone ||
  a.rep == 3 ||
  (a.omaskEn && (a.rot || (List.range 8).any fun w =>
    decide (16 < ((List.range 64).filter fun j => bitOf (c.storeNum i (off + 64 + 8 * w) 8) j).length)))

/-- The register of a context of the physical site behind a logical one. -/
def Chip.actxReg (c : Chip) (n : RegName) (i a : Nat) : Nat :=
  (c.get { name := n, idx := [i / 768, c.physOf i, a] }).toNat

def Chip.actx (c : Chip) (i a : Nat) : Actx := Tab.get (c.core i).ctx a {}

def Chip.setActx (c : Chip) (i a : Nat) (x : Actx) : Chip :=
  let k := c.core i
  c.setCore i { k with ctx := Tab.set k.ctx a x }

/-- The 32 bytes of a context's statistic block. -/
def Actx.statBlock (x : Actx) : List Byte :=
  leBytes 8 x.sse ++ leBytes 4 x.cnt ++ leBytes 4 x.ovr ++ leBytes 4 x.disc ++ leBytes 4 x.steps
    ++ leBytes 8 0

/-- The block is written where SITE_ACTX_STAT says, as far as the site store reaches. -/
def Chip.writeStat (c : Chip) (i a : Nat) : Chip :=
  let off := bitsOf (c.actxReg .siteActxStat i a) 14 0
  c.store (storeBase i + off) ((c.actx i a).statBlock.take (0x8000 - off))

/-- The 32 seeds of a context's table (R82). -/
def Chip.actxSeeds (c : Chip) (i a : Nat) : List Nat :=
  let off := bitsOf (c.actxReg .siteActxTable i a) 14 0
  (List.range 32).map fun k => seedUnits (c.storeNum i (off + 2 * k) 2)

/-- R159: the job of a context is created; the one before it writes its block. -/
def Chip.actxCreate (c : Chip) (i a cfg : Nat) : Chip :=
  let c := if (c.actx i a).live then c.writeStat i a else c
  let off := bitsOf (c.actxReg .siteActxTable i a) 14 0
  let x : Actx := { live := true, cfg := cfg, trackers := List.replicate 32 {}, seeds := c.actxSeeds i a }
  let mask := if (ActxCfg.ofWord cfg).omaskEn then c.actxMask i off else []
  c.setActx i a { x with mask := mask, epoch := (c.siteArr i).epoch }

/-- R335: the context is closed and its block written. -/
def Chip.actxClose (c : Chip) (i a : Nat) : Chip :=
  let c := if (c.actx i a).live then c.writeStat i a else c
  c.setActx i a { c.actx i a with live := false }

/-- What a context's job is once the operations queued before now are done: none where it is closed. -/
def Chip.actxNext (c : Chip) (i a : Nat) : Option Nat :=
  let now := if (c.actx i a).live then some (c.actx i a).cfg else none
  (c.core i).steps.foldl (fun o x => match x with
    | .create b w => if b = a then some w.toNat else o
    | .close b => if b = a then none else o
    | .step .. => o) now

/-- A context operation after the steps issued before it (R336). -/
def Chip.queueCtx (c : Chip) (i : Nat) (x : StepItem) (a : Nat) (now : Chip → Chip) : Chip :=
  let k := c.core i
  let busy := k.steps.any fun y => match y with
    | .step _ b _ _ => b == a
    | .create b _ => b == a
    | .close b => b == a
  if busy then c.setCore i { k with steps := k.steps ++ [x] } else now c

/-! ### Array steps -/

/-- A step record (R333). -/
structure StepRec where
  inp      : Nat
  inScale  : Nat
  out      : Nat
  outScale : Nat
  sideOut  : Nat
  sideIn   : Nat
  spare    : Nat
deriving DecidableEq, Repr

def Chip.stepRec (c : Chip) (i base : Nat) : StepRec :=
  let h (k : Nat) : Nat := c.storeNum i (base + 2 * k) 2
  { inp := h 0, inScale := h 1, out := h 2, outScale := h 3, sideOut := h 4, sideIn := h 5,
    spare := c.storeNum i (base + 12) 4 }

/-- Regions of a step: offset and length (R333). -/
def stepRegions (a : ActxCfg) (mask : Bool) (r : StepRec) (vecs : Nat) : List (Nat × Nat) :=
  [(r.inp, vecs * a.inBytes), (r.inScale, 4 * streamBlocks a.inKind vecs), (r.out, vecs * a.outBytes),
   (r.outScale, 4 * vecs)]
  ++ (if mask then [(r.sideOut, vecs * 128)] else [])
  ++ (if a.sideWait then [(r.sideIn, vecs * 1024)] else [])

/-- R334: the step is refused with BAD_PARAM; `base` is the record's offset in the site store. -/
def Chip.stepBad (c : Chip) (i a vecs base : Nat) : Bool :=
  match c.actxNext i a with
  | none => true
  | some w =>
    let cfg := ActxCfg.ofWord w
    let r := c.stepRec i base
    decide (r.spare ≠ 0) ||
    (stepRegions cfg cfg.omaskEn r vecs).any (fun p => decide (0x8000 < p.1 + p.2)) ||
    decide (63 < vecs * cfg.planes * 2 ^ cfg.rep)

/-- The slot that holds the set a site was programmed for (R351, R367): its owner's slot of that
epoch. -/
def Chip.siteSlot (c : Chip) (i : Nat) : Option (Nat × Nat) :=
  let a := c.siteArr i
  let t := c.f Fld.siteAstate_owner [i / 768, c.physOf i]
  if a.epoch = 0 then none
  else ((List.range 2).find? fun s => c.slotEpoch t s == a.epoch).map fun s => (t, s)

/-- R367: the site's set may run. -/
def Chip.siteSetRuns (c : Chip) (i : Nat) : Bool :=
  c.f Fld.siteAstate_owner [i / 768, c.physOf i] == c.siteTent i &&
  (match c.siteSlot i with
   | none => false
   | some p =>
     let st := c.f Fld.wsetSlot_state [p.1, p.2]
     (st == 3 || st == 4) && !c.flag Fld.wsetSlot_releasePend [p.1, p.2])

/-- R334, R345, R367, R521: what an ASTEP answers without running, none where the step is queued. -/
def Chip.stepRefused (c : Chip) (i a vecs base : Nat) : Option Nat :=
  if c.siteState i ≠ 2 ∨ ¬ c.tentOpen (c.siteTent i) then some Status.setNotActive
  else if c.stepBad i a vecs base then some Status.badParam
  else if ¬ c.siteSetRuns i then some Status.setNotActive
  else none

/-- R156: the 8 range settings in units of 2^-19. -/
def siteSettings : List Nat := (List.range 8).map fun k => 2 ^ (19 - k)

/-- R157, R161: the ranges a step takes. -/
def Actx.ranges (x : Actx) : List Nat :=
  let a := ActxCfg.ofWord x.cfg
  (List.range 32).map fun g => settingFor siteSettings
    ((x.trackers.getD g {}).wanted (x.seeds.getD g 65536) a.hist ((headroomEighths a.headroom).getD 8))

/-- R76: the first block of a step whose scale record fails. -/
def Chip.stepSkew (c : Chip) (i : Nat) (a : ActxCfg) (r : StepRec) (vecs : Nat) : Option Nat :=
  (List.range (streamBlocks a.inKind vecs)).find? fun j =>
    !(ScaleRec.ofWord (c.storeNum i (r.inScale + 4 * j) 4)).passes a.inKind j

/-- The rows of a step that come before a block that fails. -/
def rowsBefore (a : ActxCfg) (vecs : Nat) : Option Nat → Nat
  | none => vecs
  | some j => ((List.range vecs).filter fun v => decide (blockOf a.inKind v < j)).length

/-- Sites of a Veld that read now (R51). -/
def Chip.reading (c : Chip) (n : Nat) : Nat :=
  (c.cores.filter fun p => p.1 / 768 == n && p.2.run.isSome).length

/-- Reading steps the Veld may use: those it holds less those a cut has chosen (R56). -/
def Chip.readSteps (c : Chip) (n : Nat) : Nat :=
  (c.veld n).reads - (c.bud.shed.filter fun a => a == .reading n).length

/-- The array port admits no step: a refresh in place programs the site (R176), or a migration waits for
the port (R174). -/
def Chip.portHeld (c : Chip) (i : Nat) : Bool :=
  (c.veld (i / 768)).drained || match (c.veld (i / 768)).op with
  | none => false
  | some o => o.logical == i && ((o.spare.isNone && decide (3 ≤ o.stage ∧ o.stage < 6)) || o.stage == 5)

/-- The scale records of a step's blocks as they stand. -/
def Chip.stepRecs (c : Chip) (i : Nat) (a : ActxCfg) (r : StepRec) (vecs : Nat) : List Nat :=
  (List.range (streamBlocks a.inKind vecs)).map fun j => c.storeNum i (r.inScale + 4 * j) 4

/-- The step at the head of a site's queue starts, where its port, its pitch and its Veld's credits let it
(R38, R52, R160, R161); its scale records are checked (R76) and kept, and context operations before it take effect
(R336). The extra phase of R158 is charged and counted; its discarded result passes no update_gain and draws nothing,
which the spec does not settle (log entry 93). `n` bounds the queue. -/
def Chip.startStep : Nat → Chip → Nat → Chip
  | 0, c, _ => c
  | n + 1, c, i =>
    let k := c.core i
    match k.run, k.steps with
    | some _, _ => c
    | none, [] => c
    | none, .create a w :: rest =>
      let c := c.setCore i { k with steps := rest }
      Chip.startStep n (c.actxCreate i a w.toNat) i
    | none, .close a :: rest =>
      let c := c.setCore i { k with steps := rest }
      Chip.startStep n (c.actxClose i a) i
    | none, .step _ a vecs base :: _ =>
      if c.portHeld i then c
      else
        let x := c.actx i a
        let epoch := (c.siteArr i).epoch
        -- R161: the first step on a new epoch starts from the seeds again
        let x := if x.epoch = epoch then x
          else { x with epoch := epoch, trackers := List.replicate 32 {}, seeds := c.actxSeeds i a }
        let cfg := ActxCfg.ofWord x.cfg
        let ks := x.ranges
        let old := (List.range 32).map fun g => c.f Fld.siteRange_k [i / 768, c.physOf i, g]
        let changed := ((List.zip ks old).filter fun p => p.1 != p.2).length
        let skew := c.stepSkew i cfg (c.stepRec i base) vecs
        let rows := rowsBefore cfg vecs skew
        let phases := rows * cfg.planes * 2 ^ cfg.rep + (if changed = 0 ∨ rows = 0 then 0 else 1)
        let t := c.siteTent i
        if 64 * c.readSteps (i / 768) < c.reading (i / 768) + 1 then
          (c.askCredits (.reading (i / 768))).wait (.array i) t phases true
        else match c.spend (.array i) t phases with
          | none => c.wait (.array i) t phases false
          | some c =>
            let c := c.setActx i a x
            let seed := c.actxReg .siteActxRseedHi i a % 2 ^ 32 * 2 ^ 32 + c.actxReg .siteActxRseedLo i a % 2 ^ 32
            let c := (ks.mapIdx fun g y => (g, y)).foldl (fun c p =>
              (c.setF Fld.siteRange_k [i / 768, c.physOf i, p.1] p.2).setF Fld.siteRange_g
                [i / 768, c.physOf i, p.1] (0x8500 - p.2 * 0x100)) c
            let k := c.core i
            c.setCore i { k with run := some {
              ks := ks, changed := if rows = 0 then 0 else changed
              seed := if x.steps = 0 ∧ seed ≠ 0 then some (BitVec.ofNat 64 seed) else none
              recs := c.stepRecs i cfg (c.stepRec i base) vecs, skew := skew } }

/-- The queue of a site goes on. -/
def Chip.nextStep (c : Chip) (i : Nat) : Chip := Chip.startStep ((c.core i).steps.length + 1) c i

/-- The step at the head ends with a status; its thread resumes (R334). -/
def Chip.endStep (c : Chip) (i status rows : Nat) : Chip :=
  let k := c.core i
  match k.steps with
  | .step t _ _ _ :: rest =>
    let c := c.setCore i { k with steps := rest, run := none }
    let h : Hart := { i := i, t := t }
    let c := match (c.thread h).wait with
      | .step rd => (c.mapThread h fun x => x.setX rd (BitVec.ofNat 64 (status + rows * 2 ^ 16))).retire h
      | _ => c
    c.nextStep i
  | _ => c

/-! ### Read phases -/

/-- What the phases of a site change as they go (R153): gain in 2.14, the ratio means in 2^-32, rejected
estimates and their run, the generator, and the noise still to come. -/
structure PhaseSt where
  gam   : Nat
  m5    : Nat
  m10   : Nat
  rej   : Nat
  run   : Nat
  hit   : Bool
  gen   : Gen
  noise : List Int
deriving DecidableEq, Repr

/-- An 8-bit conversion: the ideal reading in 1/65,536 LSB with its noise, rounded and clipped, and
whether it clipped (R152, log entry 4). -/
def siteAdc (ideal noise : Int) : Int × Bool :=
  let x := ideal + noise
  let lim : Int := 127 * 65536 + 32768
  if lim < x then (127, true)
  else if x < -lim then (-127, true)
  else (clampInt (-127) 127 ((x + 32768) / 65536), false)

/-- The physical ADC that converts an ADC's slots (R152). -/
def Chip.adcOf (c : Chip) (n s a : Nat) : Nat :=
  if c.flag Fld.siteRepair_adcSpare [n, s] ∧ c.f Fld.siteRepair_failedAdc [n, s] = a then 32 else a

/-- Offset o[a][k] (R153). -/
def Chip.adcOffset (c : Chip) (n s a k : Nat) : Int := Tab.get (c.arr n s).offs (c.adcOf n s a, k) 0

/-- The 8 reference readings of a phase with `np` driven rows, offsets taken off (R150, R153): a column
at level l collects l + 3/4 level steps a row, 64 of them an LSB. The truth value says that the comparator
fired on a reference slot (R194). -/
def Chip.refReads (c : Chip) (n s np : Nat) (p : PhaseSt) : List Int × Bool × PhaseSt :=
  (List.range 8).foldl (fun (r : List Int × Bool × PhaseSt) t =>
    let z := takeNoise r.2.2.noise
    let lvl := 5 * (t / 2)
    let x := siteAdc (((4 * lvl + 3) * np * 256 : Nat) : Int) z.1
    -- ADC 32 takes over the reference slot of the ADC it replaces, with its own offset at range 0 (R152)
    let o := Tab.get (c.arr n s).offs (if c.adcOf n s t = 32 then (32, 0) else (33 + t, 0)) 0
    (r.1 ++ [x.1 - o], r.2.1 || x.2, { r.2.2 with noise := z.2 })) ([], false, p)

/-- A ratio in units of 2^-32 moved by 1/1024 of its distance from a sample. -/
def ratioMean (m : Nat) (sample : Int) : Nat := ((m : Int) + (sample - m) / 1024).toNat

/-- R153: the gain estimate in 2.22, truncated and saturating at 24 bits; none where it is rejected.
`sp2` is twice the span. -/
def gainEstimate (sp2 : Int) (np : Nat) : Option Nat :=
  if sp2 ≤ 0 then none
  else
    let e := min (15 * np * 16384 * 256 * 2 / (64 * sp2.toNat)) (2 ^ 24 - 1)
    if e < 13107 * 256 ∨ 20480 * 256 < e then none else some e

/-- A reference span and the two ratio samples in 2^-32 (R153). -/
def refSamples (ref : List Int) : Int × Int × Int :=
  let r (k : Nat) : Int := ref.getD k 0
  let sp2 := r 6 + r 7 - r 0 - r 1
  (sp2, (r 2 + r 3 - r 0 - r 1) * 2 ^ 32 / sp2, (r 4 + r 5 - r 0 - r 1) * 2 ^ 32 / sp2)

/-- R154: a rejected estimate. -/
def PhaseSt.reject (p : PhaseSt) : PhaseSt :=
  { p with rej := p.rej + 1, run := p.run + 1, hit := p.hit || p.run + 1 == 256 }

/-- R153: update_gain; a fired reference slot rejects the estimate (R194). -/
def updateGain (ref : List Int) (fired : Bool) (np : Nat) (p : PhaseSt) : PhaseSt :=
  if np < 128 then p
  else if fired then p.reject
  else
    let x := refSamples ref
    match gainEstimate x.1 np with
    | none => p.reject
    | some est =>
      let y := p.gen.round16 ((p.gam * 65536 : Int) + ((est * 256 : Int) - p.gam * 65536) / 4)
      { p with gam := y.1.toNat, gen := y.2, run := 0, m5 := ratioMean p.m5 x.2.1,
               m10 := ratioMean p.m10 x.2.2 }

/-- What a site's gain registers and array hold, as the phases start. -/
def Chip.phaseSt (c : Chip) (n s : Nat) (noise : List Int) : PhaseSt :=
  let a := c.arr n s
  { gam := c.f Fld.siteGain_gam [n, s], m5 := a.m5, m10 := a.m10, rej := 0, run := a.run, hit := false,
    gen := c.gen (.requantSite n s), noise := noise }

/-- |x/y - 1| in 0.01 % for SITE_DRIFT, rounded down: R171 names no rounding (log entry 93). -/
def driftOf (x y : Nat) : Nat := if y = 0 then 0 else ((x : Int) - y).natAbs * 10000 / y

/-- R171: |x/y - 1| exceeds a threshold in 0.1 %. -/
def driftOver (thr x y : Nat) : Bool := decide (thr * y < ((x : Int) - y).natAbs * 1000)

/-- A site is queued for refresh or repair, once (R171, R172, R178). -/
def Chip.queueRepair (c : Chip) (i : Nat) (why : RepairFor) : Chip :=
  let v := c.veld (i / 768)
  if v.queue.any (fun p => p.1 == i && p.2 == why) then c
  else c.setVeld (i / 768) { v with queue := v.queue ++ [(i, why)] }

/-- R154, R171: what the phases have changed is kept, and the drift reference judged. -/
def Chip.keepPhases (c : Chip) (n s : Nat) (p : PhaseSt) : Chip :=
  let c := c.setGen (.requantSite n s) p.gen
  let c := c.setF Fld.siteGain_gam [n, s] p.gam
  let c := c.countSat Fld.siteDrift_rejects [n, s] p.rej
  let a := c.arr n s
  let c := c.setArr n s { a with m5 := p.m5, m10 := p.m10, run := p.run }
  let d := max (driftOf p.m5 a.m50) (driftOf p.m10 a.m100)
  let c := c.setF Fld.siteDrift_drift [n, s] (min d 0xFFFF)
  match c.logicalOf n s with
  | none => c
  | some i =>
    let c := if p.hit then (c.ev .siteEvArray [n, s]).queueRepair i
        (match a.badAdc with
         | some x => .adc x
         | none => .site) else c
    let thr := c.f Fld.veldCfg_driftThr [n]
    if (driftOver thr p.m5 a.m50 ∨ driftOver thr p.m10 a.m100) ∧ c.f Fld.siteAstate_state [n, s] = 2 ∧
        ¬ ((c.veld n).queue.any fun q => q == (i, .refresh)) then
      (c.ev .veldEvRefresh [n]).queueRepair i .refresh
    else c

/-- R155: 16 reference phases with all rows driven. -/
def Chip.referencePhases (c : Chip) (n s : Nat) (noise : List Int) : Chip × List Int :=
  let p0 := c.phaseSt n s noise
  let r := (List.range 16).foldl (fun (r : PhaseSt × List (Nat × Int × Int)) _ =>
    let x := c.refReads n s 512 r.1
    let y := refSamples x.1
    match gainEstimate y.1 512, x.2.1 with
    | some e, false => ({ x.2.2 with run := 0 }, r.2 ++ [(e, y.2.1, y.2.2)])
    | _, _ => (x.2.2.reject, r.2)) (p0, [])
  let k := r.2.length
  let p := if k = 0 then r.1
    else
      let g := r.1.gen.round16 ((((r.2.map fun x => x.1).sum * 256 / k : Nat) : Int))
      { r.1 with gam := g.1.toNat, gen := g.2, m5 := ((r.2.map fun x => x.2.1).sum / k).toNat,
                 m10 := ((r.2.map fun x => x.2.2).sum / k).toNat }
  let c := c.keepPhases n s p
  (c.setArr n s { c.arr n s with fresh := false }, p.noise)

/-- A row of a step as it accumulates: 256 values, the maxima of the groups in 2^-16 of the largest
setting, clipped conversions, and the gain as its last phase left it. -/
structure SiteAcc where
  acc  : List Int
  maxs : List Nat
  ovr  : Nat
  gam  : Nat := 16384
deriving DecidableEq, Repr

/-- R80, R157: a normalised sample's magnitude, rounded up. -/
def siteMag (k : Nat) (s : Int) : Nat := ceilDiv (s.natAbs * 16384) (8128 * 2 ^ k)

/-- The dot product of a plane with the weights of output j in code units (R149). -/
def planeSum (codes : List Byte) (bits : List Nat) (j : Nat) : Int :=
  (bits.mapIdx fun i b => if b = 1 then w5Of (codes.getD (256 * i + j) 0) else 0).sum

/-- R153: one phase: references, gain, and the 256 outputs weighted by the plane. -/
def Chip.readPhase (c : Chip) (n s : Nat) (ks : List Nat) (b pl : Nat) (xs : List Int)
    (st : SiteAcc × PhaseSt) : SiteAcc × PhaseSt :=
  let bits := xs.map fun x => planeBit b pl x
  let np := (bits.filter fun x => x == 1).length
  let ref := c.refReads n s np st.2
  let p := updateGain ref.1 ref.2.1 np ref.2.2
  let codes := (c.arr n s).codes
  let w := planeWeight b pl
  let r := (List.range 256).foldl (fun (r : List Int × List Nat × Nat × PhaseSt) j =>
    let k := ks.getD (j / 8) 0
    let z := takeNoise r.2.2.2.noise
    let raw := siteAdc (planeSum codes bits j * 1024 * 2 ^ k) z.1
    let x := raw.1 - c.adcOffset n s (j / 8) k
    let y := r.2.2.2.gen.roundDiv (x * (p.gam : Int)) 64
    let m := if raw.2 then 65536 / 2 ^ k else siteMag k y.1
    (r.1 ++ [st.1.acc.getD j 0 + w * y.1], r.2.1.set (j / 8) (max (r.2.1.getD (j / 8) 0) m),
     r.2.2.1 + raw.2.toNat, { r.2.2.2 with gen := y.2, noise := z.2 })) ([], st.1.maxs, st.1.ovr, p)
  ({ acc := r.1, maxs := r.2.1, ovr := r.2.2.1 }, r.2.2.2)

/-- R153: one vector: its planes and repeats, the division by the repeat count and the alignment. -/
def Chip.siteVector (c : Chip) (n s : Nat) (a : ActxCfg) (ks : List Nat) (xs : List Int) (maxs : List Nat)
    (p : PhaseSt) : SiteAcc × PhaseSt :=
  let b := a.planes
  let order := ((List.range (2 ^ a.rep)).map fun _ => List.range b).flatten
  let r := order.foldl (fun st pl => c.readPhase n s ks b pl xs st)
    (({ acc := List.replicate 256 0, maxs := maxs, ovr := 0 } : SiteAcc), p)
  let d := Gen.mapM (fun g x => g.shift x a.rep) r.2.gen r.1.acc
  let km := ks.foldl max 0
  ({ r.1 with acc := d.1.mapIdx (fun j x => x * 2 ^ (km - ks.getD (j / 8) 0)), gam := r.2.gam },
   { r.2 with gen := d.2 })

/-- R153: the floor factor F of a row, the exact fraction (log entry 89). -/
def siteFloor (a : ActxCfg) (ks : List Nat) (gam : Nat) : Rat2 :=
  let km := ks.foldl max 0
  let sq := (ks.map fun k => (256 * 2 ^ (km - k)) ^ 2).sum
  { num := (4 ^ a.planes - 1) * gam * gam * sq, den := 36 * 2 ^ a.rep * ks.length, exp := -28 }

/-- R104: a row's additions to sse and cnt of a context, one after the other. -/
def Actx.addStats (x : Actx) (adds : List StatAdd) : Actx :=
  let s := adds.foldl Stats.add { sse := x.sse, cnt := x.cnt, stopped := x.stopped }
  { x with sse := s.sse, cnt := s.cnt, stopped := s.stopped }

/-- R88 to R90, R97, R98, R153: one row of a step of context `ci` to the site store, under its scale record `word`.
`row` counts from 0 in the step. The model's choices are those of a Dale's row (log entry 91): a sum with the side sum
is not limited to 32 bits, and a raw row is neither transformed nor masked, writes no side buffer and carries the
record's rotated flag and outlier count all the same. -/
def Chip.siteRow (c : Chip) (i ci : Nat) (r : StepRec) (ks : List Nat) (clipped : Bool) (row word : Nat)
    (y : SiteAcc) : Chip :=
  let n := i / 768
  let s := c.physOf i
  let x := c.actx i ci
  let a := ActxCfg.ofWord x.cfg
  let base := storeBase i
  let vals := if a.sideWait then
      y.acc.mapIdx fun j v => v + signedOf 32 (c.num (base + r.sideIn + 1024 * row + 4 * j) 4)
    else y.acc
  let sIn := Rat2.mul (Rat2.mul (sc16Val (ScaleRec.ofWord word).scale) (sc16Val (c.arr n s).sw))
    { num := 1, exp := -2 - ((ks.foldl max 0 : Nat) : Int) }
  let g := c.gen (.requantSite n s)
  let f := a.outFmt.getD .a2
  let seeded := decide ((x.trackers.headD {}).steps < a.hist)
  let rec0 (scale : Nat) : Nat := ScaleRec.toWord
    { tag := row % 64, kind := 0, outliers := min 31 x.mask.length, rotated := a.rot, seeded := seeded,
      clipped := clipped, scale := scale }
  if f = .raw then
    let z := sc16Round g sIn
    let c := (c.setGen (.requantSite n s) z.2).setNum (base + r.outScale + 4 * row) 4 (rec0 z.1)
    c.store (base + r.out + row * a.outBytes) (f.pack vals)
  else
    let z := requantiseRow { acc := vals, sIn := sIn, floorF := siteFloor a ks y.gam,
                             bits := f.bits, mask := x.mask, rot := a.rot } g
    let c := (c.setGen (.requantSite n s) z.2).setNum (base + r.outScale + 4 * row) 4 (rec0 z.1.scale)
    let c := c.store (base + r.sideOut + 128 * row) (z.1.side.flatMap fun w => leBytes 2 w)
    let x : Actx := { x with ovr := sat32 (x.ovr + z.1.ovr) }
    let c := c.setActx i ci (x.addStats z.1.adds)
    c.store (base + r.out + row * a.outBytes) (f.pack z.1.codes)

/-- The codes of an input row of a step (R333). -/
def Chip.siteInput (c : Chip) (i : Nat) (a : ActxCfg) (r : StepRec) (row : Nat) : List Int :=
  let f := a.inFmt.getD .a2
  let bs := c.bytes (storeBase i + r.inp + row * a.inBytes) a.inBytes
  (List.range 512).map fun k => f.elem bs k

/-- ASTEP_END (R153, R157, R158, R160, R334): the running step of a site ends. `noise` is what its conversions read
beside the ideal, in 1/65,536 LSB and in their order, first those of the reference phases where R155 asks for them;
these come before the context's seed is loaded. The phases of all vectors draw before any row is requantised, which the
spec does not settle (log entry 93). -/
def Chip.stepEnd (c : Chip) (i : Nat) (noise : List Int) : Chip :=
  match (c.core i).run, (c.core i).steps with
  | some run, .step _ ci vecs base :: _ =>
    let n := i / 768
    let s := c.physOf i
    let q := if (c.arr n s).fresh then c.referencePhases n s noise else (c, noise)
    let c := match run.seed with
      | some w => q.1.setGen (.requantSite n s) { s := w }
      | none => q.1
    let a := ActxCfg.ofWord (c.actx i ci).cfg
    let r := c.stepRec i base
    let rows := rowsBefore a vecs run.skew
    let o := (List.range rows).foldl (fun (o : List SiteAcc × List Nat × PhaseSt) row =>
      let y := c.siteVector n s a run.ks (c.siteInput i a r row) o.2.1 o.2.2
      (o.1 ++ [y.1], y.1.maxs, y.2)) ([], List.replicate 32 0, c.phaseSt n s q.2)
    let c := c.keepPhases n s o.2.2
    let ovr := (o.1.map fun y => y.ovr).sum
    let before := (c.actx i ci).ovr
    let c := (o.1.mapIdx fun row y => (row, y)).foldl (fun (c : Chip) (p : Nat × SiteAcc) =>
      c.siteRow i ci r run.ks (decide (ovr ≠ 0)) p.1 (run.recs.getD (blockOf a.inKind p.1) 0) p.2) c
    let x := c.actx i ci
    let trackers := x.trackers.mapIdx fun g t => (t.see (o.2.1.getD g 0)).endStep a.hist
    let c := c.setActx i ci { x with
      ovr := sat32 (x.ovr + ovr), disc := sat32 (x.disc + run.changed), steps := x.steps + 1
      trackers := if rows = 0 then x.trackers else trackers }
    let clip := decide (ovr ≠ 0 ∨ before ≠ (c.actx i ci).ovr)
    match run.skew with
    | some j => c.endStep i Status.scaleSkew j
    | none => c.endStep i (if clip then Status.okClipped else Status.ok) rows
  | _, _ => c

end Sys2Proof.Machine
end

