-- ==== Sys2Proof/Machine/Access.lean ====
section
/-!
DEFINITION. Sys2Proof/Machine/Access.lean: who may read and write which register (R24, R58, R146, R185, R215,
R242, R275, R299, R340, R369, R403, R437, R460, R480, R498, R524, R542), and how a refused write is answered
(R422).
-/

namespace Sys2Proof

/-- The blocks whose access rules differ. -/
inductive Block where
  | bud | dale | vale | veld | site | conv | drv | guy | cal | tents | radio | system | pass | power | cairn | trust | gpio
deriving DecidableEq, Repr

/-- The block a register belongs to. -/
def RegName.block : RegName → Block
  | .budFrameCfg | .budFrameCount | .budEvFrame | .budCap | .budPitch | .budUsed |
    .budWaitLimit | .budEvWait | .budCredBudget | .budCredGranted | .budGroupCfg |
    .budGroupState | .budEvDenied => .bud
  | .daleId | .daleCtl | .daleState | .daleTile | .daleColmap | .daleRowmap | .daleQueue |
    .daleSide | .daleRange | .daleEvMisroute | .daleEvLock | .daleEvIntrusion |
    .daleLastTag | .daleTagRows | .daleSymbols | .daleReloads => .dale
  | .valeId | .valeBank => .vale
  | .veldId | .veldCfg | .veldState | .veldProg | .veldImgBase | .veldEvRefresh |
    .veldEvRepair | .veldEvNospare | .veldEvWwin | .veldLmap => .veld
  | .siteId | .siteAstate | .siteWrites | .siteGain | .siteDrift | .siteCheck |
    .siteRepair | .siteRowmap | .siteColmap | .siteRange | .siteActxCfg | .siteActxTable |
    .siteActxStat | .siteActxRseedLo | .siteActxRseedHi | .siteEvArray | .siteCalCount |
    .siteCalTime | .siteCoreState | .siteThreadCtl | .siteThreadPc | .siteTfault |
    .siteEvFault | .siteSpawnq | .siteInstr | .siteCoreRseedLo | .siteCoreRseedHi => .site
  | .convRot | .convEvTrigmiss | .convEvOvr | .convEvInjfull | .convTrig | .convCtl |
    .convDisc | .convTrkClr | .convInj | .convInjAcc | .convAcc | .convSeq | .convTrk |
    .pwrHkSeq | .pwrHkAcc | .pwrHkTrk | .pwrHkTrkClr | .pwrHkRound | .pwrHkDisc |
    .pwrHkLoad => .conv
  | .drvDaleCfg | .drvDaleState | .drvPair | .drvEvRangestep | .drvToneFcw | .drvToneCtl |
    .drvBank | .drvXt | .drvCh | .drvUnitsel => .drv
  | .guyCfg | .guyLoad | .guySeedLo | .guySeedHi | .guyGood | .guyLoGood | .guyEvLock |
    .guyEvAcqfail | .guyEvLine | .guyEvFlank | .guyEvStale | .guyLastFall | .guyTestCtl |
    .guyTestAmp | .guyTestFreq | .guyTestDwell | .guyCapBase | .guyCapCtl | .guyCapState |
    .guyLine | .guyLoop | .guyLstate | .guyCoef => .guy
  | .calCfg | .calProbe | .calAdcCfg | .calState | .calEvDisagree | .calEvImplaus |
    .calDaleCount | .calSelCount | .calAdcCount | .calDaleTime | .calSelTime | .calAdcTime
    | .calMonTrim | .calRx | .calColstat | .calCmpsel | .calMap => .cal
  | .tentCtl | .tentSites | .tentDale | .tentWin | .tentSite | .wsetCfg | .wsetActive |
    .wsetMinser | .wsetEvFail | .wsetSlot | .wsetKey => .tents
  | .fhCfg | .fhSync | .fhState | .fhOffset | .fhSfn | .fhWin | .fhSfnSet | .fhEvSync |
    .fhEvLate | .fhEvUnderrun | .fhEvDrop | .fhPortMac | .fhPortPeer | .fhPortStat |
    .fhEaxc | .decState | .decEvLate | .decEvOvf | .decSubmit | .decHarqCfg | .decHarqSel
    | .decHarqPeek | .decHarqClr => .radio
  | .sysSerial | .sysState | .sysEvChanfault | .sysEvWdog | .sysChanfaultLoc | .sysMpq |
    .sysMsgq | .sysMsgMask | .sysMsgPost | .azlState | .azlStat | .azlEvRetry | .azlEvDown => .system
  | .passCfg | .passPort | .passStat | .passLastTag | .passEvCircuit | .passEvMisroute |
    .passEvDrop | .passEvRemote | .passTx | .passRx | .passRxFec | .passExport |
    .passBcast | .passRoute => .pass
  | .pwrIn | .pwrEvStage | .pwrStage | .pwrRail | .thmCfg | .thmCoolant | .thmPanel |
    .thmHold | .thmPanelParam | .thmEvThrottle | .thmEvSense | .thmEvShutdown | .thmNode |
    .thmParam | .thmShare | .lantSec | .lantSub | .lantCmp | .lantCfg | .lantRecHead |
    .lantRec | .lantEvRec => .power
  | .cairnId | .cairnSum | .cairnState | .cairnTime | .cairnTotal | .cairnInput |
    .cairnRec | .cairnEvt | .cairnTent => .cairn
  | .sysBoot | .sysFwVer | .sysStart | .sysDrained | .sysEvImage => .trust
  | .sysGpioDir | .sysGpioOut | .sysGpioIn => .gpio

/-- The Tent a writer writes as (R301). -/
def Writer.tentIn (w : Writer) (siteTent : Nat → Nat) : Nat :=
  match w with
  | .thread h => siteTent h.i
  | .host t _ => t

end Sys2Proof

namespace Sys2Proof.Machine

/-- The writer exists: a thread of R17 or a Tent. -/
def writerOk : Writer → Bool
  | .thread h => h.ok
  | .host t _ => decide (t < 64)

def Chip.writerTent (c : Chip) (w : Writer) : Nat := w.tentIn c.siteTent

/-- A Tent's own entry: the first index is the Tent. -/
def ownEntry (t : Nat) (r : Reg) : Bool := r.idx.headD 64 == t

/-- The Tent owns the logical site a physical site serves (R185, R340). -/
def Chip.ownsSite (c : Chip) (t : Nat) (r : Reg) : Bool :=
  match r.idx with
  | n :: s :: _ => match c.logicalOf n s with
    | some i => c.siteTent i == t
    | none => false
  | _ => false

/-- The Tent owns the Dale of a DALE_ register. -/
def Chip.ownsDale (c : Chip) (t : Nat) (r : Reg) : Bool := c.f Fld.daleCtl_owner (r.idx.take 2) == t

/-- A Tent may read a register. -/
def Chip.mayRead (c : Chip) (t : Nat) (r : Reg) : Bool :=
  t == 0 || match r.name.block with
  | .bud => [RegName.budCap, .budFrameCfg, .budFrameCount].contains r.name ||
      (ownEntry t r && [RegName.budPitch, .budUsed, .budWaitLimit, .budEvWait].contains r.name)
  | .dale => c.ownsDale t r
  | .vale => r.name == .valeId
  | .veld => r.name == .veldId
  | .site => c.ownsSite t r
  | .tents => (ownEntry t r && [RegName.tentCtl, .tentSites, .tentWin, .wsetActive, .wsetMinser, .wsetEvFail,
        .wsetSlot, .wsetKey].contains r.name) || r.name == .wsetCfg ||
      (r.name == .tentDale && c.f Fld.tentDale_owner r.idx == t) ||
      (r.name == .tentSite && c.f Fld.tentSite_owner r.idx == t)
  | .radio => [RegName.fhSync, .fhState, .fhSfn].contains r.name ||
      (ownEntry t r && r.name == .decHarqCfg)
  | .system => [RegName.sysSerial, .sysState].contains r.name ||
      (ownEntry t r && [RegName.sysMpq, .sysMsgq, .sysMsgMask, .sysMsgPost].contains r.name)
  | .pass => r.name == .passCfg
  | .power => [RegName.thmCoolant, .lantSec].contains r.name
  | .cairn => true
  | .trust => r.name == .sysBoot
  | _ => false

/-- R403: a HARQ index lies in the range of a Tent. -/
def Chip.harqOwn (c : Chip) (t idx : Nat) : Bool :=
  let base := c.f Fld.decHarqCfg_first [t]
  decide (base ≤ idx ∧ idx < base + c.f Fld.decHarqCfg_count [t])

/-- A Tent may write a register with a value. In the blocks whose rule names what may be written, that and
the clear of an event flag (R13, log entry 60); elsewhere a write of what is read only has no effect (R11). -/
def Chip.mayWrite (c : Chip) (t : Nat) (r : Reg) (x : Word) : Bool :=
  let d := r.name.desc
  let acts : Bool := d.tc || d.rw != 0 || d.act != 0
  match r.name.block with
  | .cairn => false
  | .site => match r.name with
    | .siteActxCfg => c.ownsSite t r
    | .siteActxTable => c.ownsSite t r
    | .siteActxStat => c.ownsSite t r
    | .siteActxRseedLo => c.ownsSite t r
    | .siteActxRseedHi => c.ownsSite t r
    | .siteThreadCtl => t == 0 || c.ownsSite t r
    | .siteCoreRseedLo => t == 0 || c.ownsSite t r
    | .siteCoreRseedHi => t == 0 || c.ownsSite t r
    | .siteCoreState => t == 0
    | .siteThreadPc => t == 0
    | .siteTfault => t == 0
    | .siteSpawnq => t == 0
    | .siteInstr => t == 0
    | _ => t == 0 && d.tc
  | .cal => t == 0 && acts
  | .trust => t == 0 && acts
  | .power => t == 0 && acts
  | .vale => t == 0 && acts
  | .veld => t == 0 && r.name != .veldId
  | .dale => t == 0 || (r.name == .daleSide && c.ownsDale t r)
  | .tents => t == 0 || (ownEntry t r && [RegName.wsetActive, .wsetEvFail].contains r.name)
  | .radio => t == 0 || (ownEntry t r && r.name == .decSubmit) ||
      [RegName.decEvLate, .decEvOvf].contains r.name ||
      (r.name == .decHarqClr && c.harqOwn t (bitsOf x.toNat 19 0))
  | .system => t == 0 || (ownEntry t r && [RegName.sysMsgMask, .sysMsgPost].contains r.name)
  | _ => t == 0

/-- R422: the reply to a write of one register of `n` words, where a host made it; a thread gets none. -/
def Chip.wReply (c : Chip) (w : Writer) (status n : Nat) : Chip :=
  match w with
  | .thread _ => c
  | .host t tag => c.out (.reply { op := 0x0E02, tent := t, tag := tag, status := status,
                                   detail := if status = 0 then n else 0 })

/-- A register write: refused by the block's access rule, else the register's own write, and the answer. -/
def Chip.regWrite (c : Chip) (w : Writer) (r : Reg) (x : Word) (body : Chip → Nat × Chip) : Chip :=
  if c.mayWrite (c.writerTent w) r x then
    let p := body c
    p.2.wReply w p.1 r.name.desc.words
  else c.wReply w Status.notPermitted 0

/-- A register-write command: its writer and its register exist, and the device is powered. -/
def onReg (w : Writer) (r : Reg) (x : Word) (s : State) (body : Chip → Nat × Chip) : Outcome :=
  onUnits (writerOk w && r.inTable) s fun c => if c.powered then c.regWrite w r x body else c

end Sys2Proof.Machine
end

