-- ==== Sys2Proof/Machine/Cbor.lean ====
section
/-!
DEFINITION. Sys2Proof/Machine/Cbor.lean: the part of CBOR that manifests, firmware images and attestation
reports use (R353, R354, R503, R510): unsigned integers, byte and text strings, arrays and maps of definite
length, read and written.
-/

namespace Sys2Proof.Machine

/-- A CBOR item. -/
inductive Cbor where
  | uint (n : Nat)
  | bytes (b : List Byte)
  | text (b : List Byte)
  | array (xs : List Cbor)
  /-- keys and values in turn -/
  | map (kvs : List Cbor)

/-- The big-endian number of a byte string. -/
def beNat (bs : List Byte) : Nat := bs.foldl (fun n b => n * 256 + b.toNat) 0

/-- `n` big-endian bytes of a number. -/
def beBytes (n x : Nat) : List Byte :=
  (List.range n).map fun k => BitVec.ofNat 8 (x / 256 ^ (n - 1 - k))

/-- The head of an item: major type, argument, rest; none for a reserved or an indefinite length. -/
def Cbor.head : List Byte → Option (Nat × Nat × List Byte)
  | [] => none
  | b :: bs =>
    let mt := b.toNat / 32
    let a := b.toNat % 32
    if a < 24 then some (mt, a, bs)
    else if 27 < a then none
    else
      let n := 2 ^ (a - 24)
      if bs.length < n then none else some (mt, beNat (bs.take n), bs.drop n)

/-- `n` items from a byte string, and the rest of it; `fuel` bounds the items read. -/
def Cbor.items : Nat → Nat → List Byte → Option (List Cbor × List Byte)
  | 0, _, _ => none
  | _ + 1, 0, bs => some ([], bs)
  | fuel + 1, n + 1, bs =>
    let more (x : Cbor) (rest : List Byte) : Option (List Cbor × List Byte) :=
      (Cbor.items fuel n rest).map fun r => (x :: r.1, r.2)
    match Cbor.head bs with
    | none => none
    | some (0, a, rest) => more (.uint a) rest
    | some (2, a, rest) => if rest.length < a then none else more (.bytes (rest.take a)) (rest.drop a)
    | some (3, a, rest) => if rest.length < a then none else more (.text (rest.take a)) (rest.drop a)
    | some (4, a, rest) => match Cbor.items fuel a rest with
      | none => none
      | some r => more (.array r.1) r.2
    | some (5, a, rest) => match Cbor.items fuel (2 * a) rest with
      | none => none
      | some r => more (.map r.1) r.2
    | some _ => none

/-- One whole item and nothing after it. -/
def Cbor.parse (bs : List Byte) : Option Cbor :=
  match Cbor.items (2 * bs.length + 2) 1 bs with
  | some ([x], []) => some x
  | _ => none

/-- A map as pairs with unsigned keys; none where a key is of another type or comes twice. -/
def Cbor.fields : Cbor → Option (List (Nat × Cbor))
  | .map kvs =>
    let rec go : List Cbor → Option (List (Nat × Cbor))
      | [] => some []
      | .uint k :: v :: rest => (go rest).bind fun r =>
          if r.any (fun p => p.1 == k) then none else some ((k, v) :: r)
      | _ => none
    go kvs
  | _ => none

/-- The value of a key. -/
def Cbor.key (fs : List (Nat × Cbor)) (k : Nat) : Option Cbor := (fs.find? fun p => p.1 == k).map fun p => p.2

def Cbor.asUint : Cbor → Option Nat
  | .uint n => some n
  | _ => none

def Cbor.asBytes : Cbor → Option (List Byte)
  | .bytes b => some b
  | _ => none

def Cbor.asText : Cbor → Option (List Byte)
  | .text b => some b
  | _ => none

def Cbor.asArray : Cbor → Option (List Cbor)
  | .array xs => some xs
  | _ => none

/-- An unsigned key with an upper bound. -/
def Cbor.uintKey (fs : List (Nat × Cbor)) (k hi : Nat) : Option Nat :=
  ((Cbor.key fs k).bind Cbor.asUint).bind fun n => if n ≤ hi then some n else none

/-- A byte-string key. -/
def Cbor.bytesKey (fs : List (Nat × Cbor)) (k : Nat) : Option (List Byte) :=
  (Cbor.key fs k).bind Cbor.asBytes

/-- A text key of at most 64 bytes. -/
def Cbor.textKey (fs : List (Nat × Cbor)) (k : Nat) : Option (List Byte) :=
  ((Cbor.key fs k).bind Cbor.asText).bind fun b => if b.length ≤ 64 then some b else none

/-- A signed envelope: [1, body, Ed25519 signature, ML-DSA-65 signature] (R353, R503, R510). -/
structure Envelope where
  body : List Byte
  sig1 : List Byte
  sig2 : List Byte
deriving DecidableEq, Repr

def Envelope.parse (bs : List Byte) : Option Envelope :=
  match Cbor.parse bs with
  | some (.array [.uint 1, .bytes body, .bytes s1, .bytes s2]) =>
    if s1.length = 64 ∧ s2.length = 3309 then some { body := body, sig1 := s1, sig2 := s2 } else none
  | _ => none

/-! ### Writing, in the shortest form of every head -/

def Cbor.putHead (mt n : Nat) : List Byte :=
  let b (a : Nat) : Byte := BitVec.ofNat 8 (mt * 32 + a)
  if n < 24 then [b n]
  else if n < 256 then b 24 :: beBytes 1 n
  else if n < 65536 then b 25 :: beBytes 2 n
  else if n < 2 ^ 32 then b 26 :: beBytes 4 n
  else b 27 :: beBytes 8 n

def Cbor.putUint (n : Nat) : List Byte := Cbor.putHead 0 n

def Cbor.putBytes (b : List Byte) : List Byte := Cbor.putHead 2 b.length ++ b

def Cbor.putText (b : List Byte) : List Byte := Cbor.putHead 3 b.length ++ b

def Cbor.putArray (xs : List (List Byte)) : List Byte := Cbor.putHead 4 xs.length ++ xs.flatten

def Cbor.putMap (kvs : List (Nat × List Byte)) : List Byte :=
  Cbor.putHead 5 kvs.length ++ kvs.flatMap fun p => Cbor.putUint p.1 ++ p.2

def Cbor.putBool (b : Bool) : List Byte := [BitVec.ofNat 8 (0xF4 + b.toNat)]

def Cbor.putNull : List Byte := [0xF6]

/-- The ASCII bytes of a text. -/
def ascii (s : String) : List Byte := s.toList.map fun ch => BitVec.ofNat 8 ch.toNat

end Sys2Proof.Machine
end

