-- ==== Sys2Proof/Machine/VeldOps.lean ====
section
/-!
DEFINITION. Sys2Proof/Machine/VeldOps.lean: file 05 of spec/: level images (R163, R164), write-verify
programming (R165 to R170), drift and checks (R171 to R173), refresh, migration, repair and retirement
(R174 to R180), and the record stores (R181).
-/

namespace Sys2Proof.Machine

/-- Address of a logical site's level image (R163). -/
def Chip.imageAddr (c : Chip) (i : Nat) : Nat :=
  c.f Fld.veldImgBase_base [i / 768] * 65536 + i % 768 * 0x20000

/-- The 128 KiB level image of a logical site. -/
def Chip.image (c : Chip) (i : Nat) : List Byte := c.bytes (c.imageAddr i) 0x20000

/-! ### The record stores (R181) -/

/-- The registers of a physical site that its record holds. -/
def recordRegs (n s : Nat) : List Reg :=
  [{ name := .siteId, idx := [n, s] }, { name := .siteAstate, idx := [n, s] },
   { name := .siteWrites, idx := [n, s] }, { name := .siteGain, idx := [n, s] },
   { name := .siteRepair, idx := [n, s] }]
  ++ ((List.range 8).map fun k => { name := .siteRowmap, idx := [n, s, k] })
  ++ ((List.range 8).map fun k => { name := .siteColmap, idx := [n, s, k] })

/-- The record of a physical site is written as the registers are now, with the map entry of the
logical site it serves. -/
def Chip.saveRecord (c : Chip) (n s : Nat) : Chip :=
  let map : List Reg := match c.logicalOf n s with
    | some i => [{ name := .veldLmap, idx := [n, i % 768] }]
    | none => []
  { c with recs := (recordRegs n s ++ map).foldl (fun t r => Tab.set t r (c.get r)) c.recs }

/-! ### Temperatures and credits -/

/-- The hottest node of a Veld in 1/64 °C (R169, R469). -/
def Chip.veldHot (c : Chip) (n : Nat) : Int :=
  ((List.range 3).map fun j => c.sf Fld.thmNode_temp [25 + n, j]).foldl max (-32768)

/-- R169: the hottest node lies within 10 °C to 85 °C. -/
def Chip.inWindow (c : Chip) (n : Nat) : Bool :=
  decide (640 ≤ c.veldHot n ∧ c.veldHot n ≤ 5440)

def Chip.prog (c : Chip) (n s : Nat) : Option Prog := Tab.get ((c.veld n).progs.map fun p => (p.1, some p.2)) s none

def Chip.setProg (c : Chip) (n s : Nat) (p : Prog) : Chip :=
  let v := c.veld n
  c.setVeld n { v with progs := Tab.set v.progs s p }

def Chip.dropProg (c : Chip) (n s : Nat) : Chip :=
  let v := c.veld n
  c.setVeld n { v with progs := v.progs.filter fun p => p.1 != s }

/-- The gate of a programming operation's grains and the job they belong to there: the Veld's programming (R167). -/
def Prog.gate (p : Prog) : Gate := .array p.logical

def progJob (n : Nat) : Gate := .cal (12 + n)

/-- Sites of a Veld that are being programmed under a granted credit (R166). -/
def Chip.programming (c : Chip) (n : Nat) : Nat := ((c.veld n).progs.filter fun p => p.2.credit).length

/-! ### Write-verify (R165) -/

/-- R165: the target of a level in 0.01 µS, rounded to nearest. -/
def levelTarget (l : Nat) : Nat := 200 + (1600 * l + 3) / 6

/-- R66, R149: the level of a cell of a W5 code: the even column holds the positive cell. -/
def pairLevel (w : Int) (col : Nat) : Nat :=
  if col % 2 = 0 then (max w 0).toNat else (max (-w) 0).toNat

/-- R150: the level of reference column 512 + t. -/
def refLevel (t : Nat) : Nat := 5 * (t / 2)

/-- The target of a cell of a site whose codes are `codes`, as its maps place it: data row 0 to 511, data or reference
column 0 to 519. -/
def cellTarget (codes : List Byte) (row col : Nat) : Nat :=
  levelTarget (if col < 512 then pairLevel (w5Of (codes.getD (256 * row + col / 2) 0)) col
    else refLevel (col - 512))

/-! ### Spare rows and columns (R150, R178) -/

/-- The spare element, of the 8 a map register holds from `first` on, that replaces row or column `x`. -/
def Chip.replacedBy (c : Chip) (r : RegName) (first n s x : Nat) : Option Nat :=
  ((List.range 8).find? fun k =>
    let w := (c.get { name := r, idx := [n, s, k] }).toNat
    bitOf w 31 && bitsOf w 9 0 == x).map fun k => first + k

/-- The physical row or column in the place of `x`: the last of those that replace one another. `m` bounds them. -/
def Chip.inPlaceOf (c : Chip) (r : RegName) (first n s : Nat) : Nat → Nat → Nat
  | 0, x => x
  | m + 1, x => match c.replacedBy r first n s x with
    | some y => c.inPlaceOf r first n s m y
    | none => x

/-- Row or column that physical one `x` stands for, none for a spare not in use. -/
def Chip.standsFor (c : Chip) (r : RegName) (first n s : Nat) : Nat → Nat → Option Nat
  | 0, _ => none
  | m + 1, x =>
    if x < first then some x
    else
      let w := (c.get { name := r, idx := [n, s, x - first] }).toNat
      if bitOf w 31 then c.standsFor r first n s m (bitsOf w 9 0) else none

/-- A data row or column of a site as its maps place it: the physical one. -/
def Chip.physCell (c : Chip) (n s : Nat) (x : Nat × Nat) : Nat × Nat :=
  (c.inPlaceOf .siteRowmap 512 n s 8 x.1, c.inPlaceOf .siteColmap 520 n s 8 x.2)

/-- The target of a physical cell (R150, R165): level 0 in a spare row or column not in use; none for a cell that a
spare has replaced. -/
def Chip.physTarget (c : Chip) (n s : Nat) (codes : List Byte) (row col : Nat) : Option Nat :=
  if (c.replacedBy .siteRowmap 512 n s row).isSome ∨ (c.replacedBy .siteColmap 520 n s col).isSome then none
  else match c.standsFor .siteRowmap 512 n s 9 row, c.standsFor .siteColmap 520 n s 9 col with
    | some r, some k => some (cellTarget codes r k)
    | _, _ => some (levelTarget 0)

/-- The groups of a site: 65 in each of the 512 data rows. -/
def progGroups : Nat := 65 * 512

/-- Targets of the 8 cells of a group. -/
def groupTargets (codes : List Byte) (group : Nat) : List Nat :=
  (List.range 8).map fun k => cellTarget codes (group / 65) (8 * (group % 65) + k)

/-- What an iteration adds: stuck cells by row and column, and the cells of ended groups that read their target. -/
structure ProgStep where
  prog  : Prog
  stuck : List (Nat × Nat) := []
  good  : List (Nat × Nat) := []
deriving DecidableEq, Repr

/-- One verify iteration of a group (R165): readings in 0.01 µS against the targets; open cells are pulsed,
and after 32 iterations those still open are stuck. -/
def progIterate (codes : List Byte) (hot : Bool) (g : List Nat) (st : ProgStep) : ProgStep :=
  let p := st.prog
  if progGroups ≤ p.group then st
  else
    let tgt := groupTargets codes p.group
    let isOpen (k : Nat) : Bool := decide (40 < ((g.getD k 0 : Int) - (tgt.getD k 0 : Nat)).natAbs)
    let opens := (List.range 8).filter isOpen
    let cell (k : Nat) : Nat × Nat := (p.group / 65, 8 * (p.group % 65) + k)
    let good := st.good ++ ((List.range 8).filter fun k => !isOpen k).map cell
    let next : Prog := { p with group := p.group + 1, iters := 0, v := List.replicate 8 0 }
    if opens.isEmpty then { st with prog := next, good := good }
    else
      let v := p.v.mapIdx fun k x => if isOpen k then min (x + 1) 16 else x
      let p' : Prog := { p with v := v, iters := p.iters + 1, pulsed := true, outside := p.outside || hot }
      if p'.iters = 32 then
        { prog := { next with pulsed := true, outside := p'.outside },
          stuck := st.stuck ++ opens.map cell, good := good }
      else { st with prog := p' }

/-- The Tent whose VELD pitch the iterations count against (R167). -/
def Prog.tent (p : Prog) : Nat :=
  match p.what with
  | .set t _ _ _ _ => t
  | _ => 0

/-- R56, R166: the Veld holds a credit step for the pair the site is in that no cut has chosen: the first sites to get
their credit keep it. -/
def Chip.mayProgram (c : Chip) (n s : Nat) (p : Prog) : Bool :=
  let pairs := (c.veld n).pairs - c.shedCount (.program n 0)
  let ahead := if p.credit then (((c.veld n).progs.filter fun q => q.2.credit).takeWhile fun q => q.1 != s).length
    else c.programming n
  decide (ahead < 2 * pairs)

/-- R178: cells that read the target of their own level are not stuck (R165); those found open after 32 iterations are,
and wait for repair. -/
def Chip.noteStuck (c : Chip) (n s i : Nat) (good stuck : List (Nat × Nat)) : Chip :=
  let good := good.map (c.physCell n s)
  let stuck := stuck.map (c.physCell n s)
  let a := c.arr n s
  let kept := a.stuck.filter fun x => !good.contains x
  let c := c.setArr n s { a with stuck := kept ++ stuck.filter fun x => !kept.contains x }
  if stuck.isEmpty then c
  else stuck.foldl (fun c x => c.queueRepair i (.stuck x.1 x.2)) (c.ev .siteEvArray [n, s])

/-- PROGRAM_GRAIN (R165 to R170): a grain of up to 64 verify iterations with their readings. It waits for
the window, for the credit of its pair of sites (R52, R56) and for the pitch, as a grain of the VELD class (R45); it
needs a level image and a site that endurance lets be pulsed (R184). -/
def Chip.programGrain (c : Chip) (n s : Nat) (reads : List (List Nat)) : Chip :=
  match c.prog n s with
  | none => c
  | some p =>
    if progGroups ≤ p.group ∨ reads.isEmpty ∨ 64 < reads.length ∨ ¬ c.flag Fld.veldImgBase_valid [n] ∨
        100000 ≤ c.f Fld.siteWrites_writes [n, s] ∨ c.device ≠ .service then c
    else if c.flag Fld.veldCfg_wwinEn [n] ∧ ¬ c.inWindow n then
      let c := if p.noted then c else c.ev .veldEvWwin [n]
      c.setProg n s { p with paused := true, noted := true }
    else if ¬ c.mayProgram n s p then
      ((c.setProg n s { p with credit := false }).askCredits (.program n s)).wait p.gate p.tent reads.length true
        (some (progJob n))
    else
      let p : Prog := { p with credit := true, paused := false }
      let c := c.creditMet p.gate (some (progJob n))
      match c.spend p.gate p.tent reads.length (some (progJob n)) with
      | none => (c.setProg n s p).wait p.gate p.tent reads.length false (some (progJob n))
      | some c =>
        let hot := !c.inWindow n
        let codes := c.image p.logical
        let r := reads.foldl (fun st g => progIterate codes hot g st) { prog := p }
        let c := c.setProg n s r.prog
        let c := if r.prog.outside then c.setF Fld.siteAstate_wwflag [n, s] 1 else c
        c.noteStuck n s p.logical r.good r.stuck

/-- The end of a programming operation on a physical site (R155, R165, R170, R171, R181, R184, R513): cells,
reference phases, records, write count and the hash of its image. -/
def Chip.programEnd (c : Chip) (n s : Nat) (p : Prog) (noise : List Int) : Chip :=
  let codes := c.image p.logical
  let a := c.arr n s
  let c := c.setArr n s { a with codes := codes }
  let c := (c.referencePhases n s noise).1
  let a := c.arr n s
  let c := c.setArr n s { a with m50 := a.m5, m100 := a.m10, hash := Config.sha3 codes }
  let c := c.setF Fld.siteDrift_drift [n, s] 0
  let c := c.setF Fld.siteGain_gam0 [n, s] (c.f Fld.siteGain_gam [n, s])
  let c := if p.pulsed then c.count Fld.siteWrites_writes [n, s] else c
  let c := c.setF Fld.siteAstate_wwflag [n, s]
    (if p.outside then 1 else if p.pulsed then 0 else c.f Fld.siteAstate_wwflag [n, s])
  c.dropProg n s

/-! ### Checks (R172, R173) -/

/-- R518: the image of a site is present: its hash is the one its record keeps. -/
def Chip.imagePresent (c : Chip) (i : Nat) : Bool :=
  c.flag Fld.veldImgBase_valid [i / 768] &&
  ((c.siteArr i).present || Config.sha3 (c.image i) == (c.siteArr i).hash)

/-- R518: the image is looked at before its first use; a mismatch is recorded once. -/
def Chip.useImage (c : Chip) (i : Nat) : Chip × Bool :=
  let n := i / 768
  let s := c.physOf i
  let a := c.arr n s
  if c.imagePresent i then (c.setArr n s { a with present := true }, true)
  else if a.missed ∨ ¬ c.flag Fld.veldImgBase_valid [n] then (c, false)
  else ((c.setArr n s { a with missed := true }).ev .sysEvImage, false)

/-- The next in-service site in ascending physical order after `s` (R172). -/
def Chip.nextChecked (c : Chip) (n s : Nat) : Nat :=
  (((List.range 800).map fun k => (s + 1 + k) % 800).find? fun x =>
    c.f Fld.siteAstate_state [n, x] == 2).getD s

/-- R298: the RTC stamp of the Lantern's counters. -/
def Chip.stamp (c : Chip) : Word :=
  BitVec.ofNat 64 (c.f Fld.lantSec_sec % 2 ^ 48 * 2 ^ 15 + c.f Fld.lantSub_sub % 2 ^ 15)

/-- R291, R293: an offset reading of an ADC at a range: accepted ones enter the mean of the last four, rounded
stochastically (R93). -/
def offsetReading (a : Arr) (x : Nat × Nat × Int) (g : Gen) : Arr × Bool × Gen :=
  let old := Tab.get a.offHist (x.1, x.2.1) []
  let fits := decide (-12 ≤ x.2.2 ∧ x.2.2 ≤ 12) &&
    (match old with
     | [] => true
     | y :: _ => decide (-3 ≤ x.2.2 - y ∧ x.2.2 - y ≤ 3))
  if fits then
    let h := (x.2.2 :: old).take 4
    let m := g.roundDiv h.sum h.length
    ({ a with offHist := Tab.set a.offHist (x.1, x.2.1) h, fails := Tab.set a.fails x.1 0,
              offs := Tab.set a.offs (x.1, x.2.1) m.1 }, true, m.2)
  else ({ a with fails := Tab.set a.fails x.1 (Tab.get a.fails x.1 0 + 1) }, false, g)

/-- R178, R293: an ADC has failed three times in a row. ADC 32 at fault while it stands by stands by no more, one that
it has replaced stays replaced; another fault waits for repair. -/
def Chip.adcFault (c : Chip) (n s i a : Nat) : Chip :=
  let spare := c.flag Fld.siteRepair_adcSpare [n, s]
  if a = 32 ∧ ¬ spare then c.setArr n s { c.arr n s with spareBad := true }
  else if spare ∧ c.f Fld.siteRepair_failedAdc [n, s] = a then c
  else (c.setArr n s { c.arr n s with badAdc := some a }).queueRepair i (.adc a)

/-- R293: the offset readings of a check, those of an ADC with three failures in a row made a fault. Keys from 33 on are
the reference slots of ADCs 0 to 7. -/
def Chip.siteOffsets (c : Chip) (n s i : Nat) (offs : List (Nat × Nat × Int)) : Chip :=
  let r := offs.foldl (fun (r : (Arr × Gen) × Bool × List Nat) x =>
    let y := offsetReading r.1.1 x r.1.2
    ((y.1, y.2.2), r.2.1 && y.2.1, if Tab.get y.1.fails x.1 0 = 3 then x.1 % 33 :: r.2.2 else r.2.2))
    ((c.arr n s, c.gen (.requantSite n s)), true, [])
  let c := (c.setArr n s r.1.1).setGen (.requantSite n s) r.1.2
  let c := r.2.2.foldl (fun c a => c.adcFault n s i a) c
  if r.2.1 then
    (c.count Fld.siteCalCount_count [n, s]).put { name := .siteCalTime, idx := [n, s] } c.stamp
  else c

/-- The check phases of a site: 520 rows, two polarities, 8 reads (R173). -/
def checkPhases : Nat := 520 * 2 * 8

/-- R172, R178, R293: a check is complete: what its readings say. -/
def Chip.checkDone (c : Chip) (n s i : Nat) (k : CheckRun) : Chip :=
  let codes := c.image i
  let devs := k.off.filterMap fun x =>
    (c.physTarget n s codes x.1 x.2.1).map fun (t : Nat) => ((x.1, x.2.1), ((x.2.2 : Int) - t).natAbs)
  let tol := (devs.filter fun x => decide (80 < x.2)).length
  let far := (devs.filter fun x => decide (133 < x.2)).map fun x => x.1
  let a := c.arr n s
  let stuck := far.filter fun x => a.far.contains x
  let c := c.setF Fld.siteCheck_outTol [n, s] (min tol 0xFFF)
  let c := c.setF Fld.siteCheck_stuck [n, s] (min stuck.length 0xFFF)
  let c := c.setArr n s { a with far := far, stuck := a.stuck ++ stuck.filter fun x => !a.stuck.contains x }
  let c := c.siteOffsets n s i k.offs
  let c := if c.f Fld.veldCfg_checkThr [n] < tol ∧
      ¬ ((c.veld n).queue.any fun q => q == (i, .refresh)) then
      (c.ev .veldEvRefresh [n]).queueRepair i .refresh else c
  if stuck.isEmpty then c
  else stuck.foldl (fun c x => c.queueRepair i (.stuck x.1 x.2)) (c.ev .siteEvArray [n, s])

/-- The Veld's check goes to the next site; one that had begun is dropped (R177). -/
def Chip.nextCheck (c : Chip) (n : Nat) : Chip :=
  let s := c.nextChecked n (c.f Fld.veldState_checkSite [n])
  (c.setVeld n { c.veld n with check := none }).setF Fld.veldState_checkSite [n] s

/-- R178: faults a check has found besides: row drivers, and one in core or store (log entry 98). -/
def Chip.noteFaults (c : Chip) (i : Nat) (x : CheckSeen) : Chip :=
  let c := x.rows.foldl (fun c r => c.queueRepair i (.row r)) c
  if x.core then c.queueRepair i .site else c

/-- SITE_CHECK (R172, R173, R293): a Veld reads its site under check through `phases` check phases more. `off` lists the
cells found more than 0.8 µS from their target: physical row, column and reading in 0.01 µS; `seen` what else is found.
Each check phase counts as a CAL step of Tent 0. The check stands still while it is disabled, while the Veld's region is
not valid (R164) and while the array port has a step in hand (R173); when its phases are complete it is judged and the
next site follows. -/
def Chip.siteCheck (c : Chip) (n phases : Nat) (off : List (Nat × Nat × Nat)) (seen : CheckSeen) : Chip :=
  let s := c.f Fld.veldState_checkSite [n]
  if ¬ c.flag Fld.veldCfg_checkEn [n] ∨ ¬ c.flag Fld.veldImgBase_valid [n] ∨ (c.veld n).drained ∨
      c.device ≠ .service then c
  else match c.logicalOf n s with
    | none => c.nextCheck n
    | some i =>
      if c.f Fld.siteAstate_state [n, s] ≠ 2 ∨ (c.prog n s).isSome then c.nextCheck n
      else if (c.core i).run.isSome ∨ (c.core i).steps ≠ [] then c
      else
        let u := c.useImage i
        if ¬ u.2 then u.1.nextCheck n
        else match u.1.spend (.cal (12 + n)) 0 (max 1 phases) with
          | none => u.1.wait (.cal (12 + n)) 0 (max 1 phases) false
          | some c =>
            let c := c.noteFaults i seen
            let k0 : CheckRun := (c.veld n).check.getD {}
            let k : CheckRun := { phases := k0.phases + phases, off := k0.off ++ off, offs := k0.offs ++ seen.offs }
            if k.phases < checkPhases then c.setVeld n { c.veld n with check := some k }
            else (c.checkDone n s i k).nextCheck n

/-! ### Refresh, repair, migration (R174 to R180) -/

/-- Free spares of a Veld, lowest physical index first (R174). -/
def Chip.freeSpares (c : Chip) (n : Nat) : List Nat :=
  (List.range 800).filter fun s =>
    c.f Fld.siteAstate_state [n, s] == 0 && (c.logicalOf n s).isNone && (c.prog n s).isNone &&
    decide (c.f Fld.siteWrites_writes [n, s] < 100000)

/-- R179: a physical site is retired. -/
def Chip.retireSite (c : Chip) (n s : Nat) : Chip :=
  ((c.setF Fld.siteAstate_state [n, s] 5).setF Fld.siteId_logical [n, s] 0x7FFF).saveRecord n s

/-- Retired sites of a Veld (VELD_STATE). -/
def Chip.retiredSites (c : Chip) (n : Nat) : Nat :=
  ((List.range 800).filter fun s => c.f Fld.siteAstate_state [n, s] == 5).length

/-- R179: a site whose write count has reached 100,000 is retired: one that serves a logical site once that has moved to
a spare for good (R178, log entry 97). -/
def Chip.wornOut (c : Chip) (n s : Nat) : Chip :=
  if c.f Fld.siteWrites_writes [n, s] < 100000 ∨ c.f Fld.siteAstate_state [n, s] = 5 then c
  else match c.logicalOf n s with
    | some i => c.queueRepair i .site
    | none => c.retireSite n s

/-- A programming operation ends before its last group: the pulses it gave count (R170, R184), and nothing of it waits
any more. -/
def Chip.abortProg (c : Chip) (n s : Nat) : Chip :=
  match c.prog n s with
  | none => c
  | some p =>
    let c := if p.pulsed then c.count Fld.siteWrites_writes [n, s] else c
    let c := if p.outside then c.setF Fld.siteAstate_wwflag [n, s] 1 else c
    let c : Chip := { c with bud := { c.bud with requests := c.bud.requests.filter fun r => r.who != .program n s } }
    (((c.dropProg n s).unwait p.gate p.tent (some (progJob n))).saveRecord n s).wornOut n s

/-- Power goes while sites are being programmed: their records keep that they have been pulsed, and where that was
outside the window (R170, R181, R184). -/
def Chip.cutProgs (c : Chip) : Chip :=
  c.velds.foldl (fun c v => v.2.progs.foldl (fun (c : Chip) p =>
    let at' := [v.1, p.1]
    let c := if p.2.pulsed then c.count Fld.siteWrites_writes at' else c
    let writes : Reg := { name := .siteWrites, idx := at' }
    let astate : Reg := { name := .siteAstate, idx := at' }
    let old := Tab.get c.recs astate (c.get astate)
    let new := if p.2.outside then setBits old 31 31 1 else old
    { c with recs := Tab.set (Tab.set c.recs writes (c.get writes)) astate new }) c) c

/-- The refresh or repair a Veld runs goes back to the head of its queue (R474). -/
def Chip.requeueOp (c : Chip) (n : Nat) (o : Refresh) (why : RepairFor) : Chip :=
  let v := c.veld n
  (c.setVeld n { v with op := none, queue := (o.logical, why) :: v.queue }).setF Fld.veldState_refreshSite [n] 0x3FF

/-- R178: the lowest free spare row or column of a site, of the 8 a map register holds. -/
def Chip.freeElement (c : Chip) (r : RegName) (n s : Nat) : Option Nat :=
  (List.range 8).find? fun k => !bitOf (c.get { name := r, idx := [n, s, k] }).toNat 31

/-- R178: an element of the site's maps replaces a failed one. -/
def Chip.mapElement (c : Chip) (r : RegName) (cnt : Fld) (n s k failed : Nat) : Chip :=
  let c := c.put { name := r, idx := [n, s, k] } (BitVec.ofNat 64 (2 ^ 31 + failed % 1024))
  c.count cnt [n, s]

/-- The cells a spare row or column has taken the place of are stuck cells of the site no more. -/
def Chip.cellsReplaced (c : Chip) (n s : Nat) (gone : Nat × Nat → Bool) : Chip :=
  let a := c.arr n s
  c.setArr n s { a with stuck := a.stuck.filter fun x => !gone x, far := a.far.filter fun x => !gone x }

/-- R178: the stuck cells of a site, one after the other: a cell's column is replaced, or its row where the row has 4
of them; none where a spare of the kind needed is missing. `m` bounds the cells. -/
def Chip.repairCells : Nat → Chip → Nat → Nat → Option Chip
  | 0, c, _, _ => some c
  | m + 1, c, n, s =>
    match (c.arr n s).stuck with
    | [] => some c
    | (row, col) :: _ =>
      let inRow := ((c.arr n s).stuck.filter fun x => x.1 == row).length
      if inRow < 4 then
        (c.freeElement .siteColmap n s).bind fun k =>
          Chip.repairCells m (((c.mapElement .siteColmap Fld.siteRepair_colsUsed n s k col).cellsReplaced n s
            fun x => x.2 == col).ev .veldEvRepair [n]) n s
      else
        (c.freeElement .siteRowmap n s).bind fun k =>
          Chip.repairCells m (((c.mapElement .siteRowmap Fld.siteRepair_rowsUsed n s k row).cellsReplaced n s
            fun x => x.1 == row).ev .veldEvRepair [n]) n s

/-- R178: the repair of a site's fault by its own spare elements; none where none is free. -/
def Chip.repairMap (c : Chip) (n s : Nat) : RepairFor → Option Chip
  | .refresh => some c
  | .stuck _ _ => Chip.repairCells (c.arr n s).stuck.length c n s
  | .row r =>
    (c.freeElement .siteRowmap n s).map fun k =>
      ((c.mapElement .siteRowmap Fld.siteRepair_rowsUsed n s k r).cellsReplaced n s fun x => x.1 == r).ev
        .veldEvRepair [n]
  | .adc a =>
    if c.flag Fld.siteRepair_adcSpare [n, s] ∨ (c.arr n s).spareBad then none
    else
      let c := c.setArr n s { c.arr n s with badAdc := none }
      some (((c.setF Fld.siteRepair_adcSpare [n, s] 1).setF Fld.siteRepair_failedAdc [n, s] a).ev
        .veldEvRepair [n])
  | .site => none

/-- A queued repair is of a fault that the physical site has no more, since an earlier one mended it or the logical
site has moved (log entry 46). -/
def Chip.repairMoot (c : Chip) (n s : Nat) : RepairFor → Bool
  | .stuck row col => !(c.arr n s).stuck.contains (row, col)
  | .row r => (c.replacedBy .siteRowmap 512 n s r).isSome
  | .adc a => (c.arr n s).badAdc != some a
  | _ => false

/-- R180: a logical site with no spare left is marked invalid. -/
def Chip.invalidate (c : Chip) (i : Nat) : Chip :=
  let n := i / 768
  let s := c.physOf i
  let c := c.setF Fld.veldLmap_valid [n, i % 768] 0
  let c := (c.setF Fld.siteAstate_state [n, s] 7).ev .veldEvRepair [n]
  c.saveRecord n s

/-- A Veld's programming of a physical site begins. -/
def Chip.beginProg (c : Chip) (n s : Nat) (p : Prog) : Chip :=
  let c := c.setProg n s p
  c.setF Fld.siteAstate_state [n, s]
    (match p.what with
     | .set .. => 1
     | .refresh => 1
     | .inPlace => 4
     | .rewrite => c.f Fld.siteAstate_state [n, s])

/-- REFRESH_START (R174 steps 1 to 3, R176, R178, R180): the refresh or repair at the head of a Veld's queue
starts. One whose image is missing, or whose site is being programmed for a set, is set aside to the end of the queue
(R177, R518). -/
def Chip.refreshStart (c : Chip) (n : Nat) : Chip :=
  let v := c.veld n
  match v.op, v.queue with
  | none, (i, why) :: rest =>
    if ¬ c.flag Fld.veldImgBase_valid [n] ∨ v.drained ∨ c.device ≠ .service then c
    else
      let s := c.physOf i
      let c := c.setVeld n { v with queue := rest }
      if (c.prog n s).isSome then c.setVeld n { c.veld n with queue := rest ++ [(i, why)] }
      else if ¬ c.lmapValid i ∨ c.repairMoot n s why then c
      else
        let u := c.useImage i
        if ¬ u.2 then u.1.setVeld n { u.1.veld n with queue := rest ++ [(i, why)] }
        else
          let c := u.1
          match c.freeSpares n, c.repairMap n s why with
          | sp :: _, some c =>
            let c := c.setVeld n { c.veld n with op := some { logical := i, why := why, old := s,
                                                              spare := some sp, stage := 3 } }
            let c := c.setF Fld.veldState_refreshSite [n] s
            (c.beginProg n sp { what := .refresh, logical := i })
          | sp :: _, none =>
            -- no repair of the kind needed: it moves for good and the old site is retired (R178)
            let c := c.setVeld n { c.veld n with op := some { logical := i, why := .site, old := s,
                                                              spare := some sp, stage := 3 } }
            let c := (c.setF Fld.veldState_refreshSite [n] s).ev .veldEvRepair [n]
            (c.beginProg n sp { what := .refresh, logical := i })
          | [], some c =>
            let c := c.setVeld n { c.veld n with op := some { logical := i, why := why, old := s,
                                                              spare := none, stage := 3 } }
            let c := (c.setF Fld.veldState_refreshSite [n] s).ev .veldEvNospare [n]
            c.beginProg n s { what := .inPlace, logical := i }
          | [], none => c.invalidate i
  | _, _ => c

/-- Registers of a physical site that belong to what a migration moves (R175). -/
def movedRegs (n s : Nat) : List Reg :=
  ((List.range 4).flatMap fun a =>
    [{ name := .siteActxCfg, idx := [n, s, a] }, { name := .siteActxTable, idx := [n, s, a] },
     { name := .siteActxStat, idx := [n, s, a] }, { name := .siteActxRseedLo, idx := [n, s, a] },
     { name := .siteActxRseedHi, idx := [n, s, a] }])
  ++ ((List.range 32).map fun g => { name := .siteRange, idx := [n, s, g] })
  ++ ((List.range 8).flatMap fun t =>
    [{ name := .siteTfault, idx := [n, s, t] }, { name := .siteTfault, idx := [n, s, t], w := 1 }])

/-- A register moved to the same place of another physical site. -/
def onSite (r : Reg) (s : Nat) : Reg :=
  { r with idx := match r.idx with
      | n :: _ :: rest => n :: s :: rest
      | x => x }

/-- MIGRATION (R174 steps 4 to 6, R175): the spare is programmed and the logical site's running step has
ended: store, threads and contexts go on on the spare. The store is addressed by the logical site (R17), and
threads and contexts are kept by it, so what moves are the registers of the physical site. -/
def Chip.migrate (c : Chip) (n : Nat) : Chip :=
  let v := c.veld n
  match v.op with
  | some o =>
    match o.spare with
    | none => c
    | some sp =>
      if o.stage ≠ 5 ∨ (c.core o.logical).run.isSome then c
      else
        let i := o.logical
        let a := c.arr n o.old
        let b := c.arr n sp
        let c := (movedRegs n o.old).foldl (fun c r => c.put (onSite r sp) (c.get r)) c
        let b' : Arr := { b with
          sw := a.sw, epoch := a.epoch, seeds := a.seeds, prints := a.prints, vecs := a.vecs, tol := a.tol }
        let c := c.setArr n sp b'
        let c := ((c.setF Fld.siteAstate_owner [n, sp] (c.f Fld.siteAstate_owner [n, o.old])).setF
          Fld.siteAstate_epoch [n, sp] (c.f Fld.siteAstate_epoch [n, o.old])).setF
          Fld.siteAstate_state [n, sp] 2
        let c := (c.setF Fld.siteId_logical [n, sp] i).setF Fld.siteId_logical [n, o.old] 0x7FFF
        let c := (c.setF Fld.veldLmap_phys [n, i % 768] sp).setF Fld.veldLmap_valid [n, i % 768] 1
        let c := c.setF Fld.siteAstate_state [n, o.old] 3
        let c := (c.saveRecord n sp).saveRecord n o.old
        let c := c.setVeld n { c.veld n with op := some { o with stage := 7 } }
        let c := if o.why = .site ∨ 100000 ≤ c.f Fld.siteWrites_writes [n, o.old] then c
          else c.setProg n o.old { what := .rewrite, logical := i }
        c.nextStep i
  | none => c

/-- OLD_SITE_REWRITTEN (R174 step 8, R178, R179): the old physical site becomes a spare, or is retired. -/
def Chip.oldRewritten (c : Chip) (n : Nat) (noise : List Int) : Chip :=
  let v := c.veld n
  match v.op with
  | some o =>
    if o.stage ≠ 7 then c
    else
      let fin (c : Chip) : Chip :=
        (c.setVeld n { c.veld n with op := none }).setF Fld.veldState_refreshSite [n] 0x3FF
      match c.prog n o.old with
      | some p =>
        if p.group < progGroups then c
        else
          let c := c.programEnd n o.old p noise
          let c := if 100000 ≤ c.f Fld.siteWrites_writes [n, o.old] then c.retireSite n o.old
            else
              let c := c.setF Fld.siteAstate_state [n, o.old] 0
              let c := c.setArr n o.old { c.arr n o.old with epoch := 0 }
              c.saveRecord n o.old
          (fin c)
      | none => fin (c.retireSite n o.old)
  | none => c

/-! ### The image region (R163, R164) -/

/-- The Veld programs, refreshes, repairs or checks. -/
def Chip.veldBusy (c : Chip) (n : Nat) : Bool :=
  !(c.veld n).progs.isEmpty || (c.veld n).op.isSome ||
    ((c.veld n).check.isSome && c.flag Fld.veldCfg_checkEn [n])

/-- R164, R515: a write of VELD_IMG_BASE. -/
def Chip.wVeldImgBase (c : Chip) (n : Nat) (x : Word) : Nat × Chip :=
  let y := x.toNat
  let base := bitsOf y 22 0
  let was := c.flag Fld.veldImgBase_valid [n]
  let sets := bitOf y 31
  let clash := (List.range 36).any fun m =>
    m != n && c.flag Fld.veldImgBase_valid [m] &&
      decide (base < c.f Fld.veldImgBase_base [m] + 0x600 ∧ c.f Fld.veldImgBase_base [m] < base + 0x600)
  if sets ∧ (0x4800000000 < base * 65536 + 0x6000000 ∨ clash) then (Status.badParam, c)
  else if was ∧ base ≠ c.f Fld.veldImgBase_base [n] then (Status.badParam, c)
  else if was ∧ ¬ sets ∧ c.veldBusy n then (Status.badParam, c)
  else (Status.ok, c.put { name := .veldImgBase, idx := [n] } (x &&& 0x807FFFFF))

end Sys2Proof.Machine
end

