-- ==== Sys2Proof/Machine/Manifest.lean ====
section
/-!
DEFINITION. Sys2Proof/Machine/Manifest.lean: manifests and their checks (R353, R354, R511), and the payloads
of shards: decoding (R355, R356) and quantisation on arrival (R67, R357).
-/

namespace Sys2Proof.Machine

/-! ### Manifests -/

/-- The body of a manifest (R354). -/
structure Manifest where
  key    : Nat
  serial : Nat
  name   : List Byte
  tiles  : Nat
  shards : List Shard
  images : List (List Byte)
  fprint : Option (Nat × List (List Byte))
deriving DecidableEq, Repr

/-- All of a list of optional values, or none. -/
def allSome {α : Type} : List (Option α) → Option (List α)
  | [] => some []
  | none :: _ => none
  | some x :: xs => (allSome xs).map fun r => x :: r

/-- Key 10 of a shard: whether it names the host, and the address. -/
def srcOf : Cbor → Option (Bool × Nat)
  | .array [.uint 0, .uint a] => some (true, a)
  | .array [.uint 1, .uint a] => if a < 2 ^ 48 then some (false, a) else none
  | _ => none

/-- A shard map: its keys and types (R354). Keys 4, 9 and 13 are needed for some shards only. -/
def Shard.parse (x : Cbor) : Option Shard := do
  let fs ← Cbor.fields x
  if fs.any (fun p => p.1 == 0 || 13 < p.1) then none
  let target ← Cbor.uintKey fs 1 2
  let index ← Cbor.uintKey fs 2 65535
  let count ← Cbor.uintKey fs 3 4096
  let enc ← Cbor.uintKey fs 5 2
  let wmode ← Cbor.uintKey fs 6 1
  let scale ← Cbor.uintKey fs 7 65535
  let seeds ← Cbor.bytesKey fs 8
  let src ← (Cbor.key fs 10).bind srcOf
  let len ← Cbor.uintKey fs 11 (2 ^ 64 - 1)
  let hash ← Cbor.bytesKey fs 12
  let vale ← match Cbor.key fs 4 with
    | none => if target = 1 then none else some 0
    | some _ => Cbor.uintKey fs 4 11
  let soff ← match Cbor.key fs 9 with
    | none => if target = 0 then none else some 0
    | some _ => Cbor.uintKey fs 9 (2 ^ 64 - 1)
  let bcast ← match Cbor.key fs 13 with
    | none => some none
    | some _ => (Cbor.uintKey fs 13 255).map some
  if count = 0 ∨ hash.length ≠ 32 ∨ seeds.length ≠ 128 * count ∨ (target = 0 ∧ (count ≠ 1 ∨ wmode ≠ 0)) then none
  some { target := target, index := index, count := count, vale := vale, enc := enc, wmode := wmode,
         scale := scale, seeds := seeds, soff := soff, host := src.1, src := src.2, len := len, hash := hash,
         bcast := bcast }

/-- Key 7 of a body (R511): tol and one to three vectors of 512 A8 codes. -/
def fprintOf : Cbor → Option (Nat × List (List Byte))
  | .array (.uint tol :: vs) =>
    if tol = 0 ∨ 1000 < tol ∨ vs.isEmpty ∨ 3 < vs.length then none
    else (allSome (vs.map Cbor.asBytes)).bind fun bs =>
      if bs.all fun b => b.length == 512 then some (tol, bs) else none
  | _ => none

/-- The body as a map of the keys and types of R354: check 4. -/
def Manifest.parse (body : List Byte) : Option Manifest := do
  let x ← Cbor.parse body
  let fs ← Cbor.fields x
  if fs.any (fun p => p.1 == 0 || 7 < p.1) then none
  let key ← Cbor.uintKey fs 1 3
  let serial ← Cbor.uintKey fs 2 (2 ^ 64 - 1)
  let name ← match Cbor.key fs 3 with
    | none => some []
    | some _ => Cbor.textKey fs 3
  let tiles ← Cbor.uintKey fs 4 65535
  let xs ← (Cbor.key fs 5).bind Cbor.asArray
  let shards ← allSome (xs.map Shard.parse)
  let images ← match Cbor.key fs 6 with
    | none => some []
    | some y => (Cbor.asArray y).bind fun ys => allSome (ys.map Cbor.asBytes)
  let fprint ← match Cbor.key fs 7 with
    | none => some none
    | some y => (fprintOf y).map some
  if shards.isEmpty ∨ 65536 < shards.length ∨ images.any (fun b => b.length != 32) then none
  some { key := key, serial := serial, name := name, tiles := tiles, shards := shards, images := images,
         fprint := fprint }

/-- The key slot a body names, where one can be read: for checks 2 and 3, which come before check 4. -/
def manifestKey (body : List Byte) : Option Nat := do
  let x ← Cbor.parse body
  let fs ← Cbor.fields x
  Cbor.uintKey fs 1 3

/-- R354: every tile index lies in exactly one shard, every rank in at most one, and no shard is a complex
level stream. -/
def Manifest.covers (m : Manifest) : Bool :=
  let tiles := m.shards.filter fun s => s.target != 0
  let ranks := (m.shards.filter fun s => s.target == 0).map fun s => s.index
  (tiles.all fun s => decide (s.index + s.count ≤ m.tiles)) &&
  ((tiles.map fun s => s.count).sum == m.tiles) &&
  ((tiles.flatMap fun s => (List.range s.count).map fun k => s.index + k).Nodup) &&
  decide ranks.Nodup &&
  m.shards.all fun s => !(s.wmode == 1 && s.enc == 2)

/-- Indices of the tiles that lie in the SRAM of Vale `v` (`some v`) or in the tier (none), ascending. -/
def tilesIn (shards : List Shard) (tiles : Nat) (v : Option Nat) : List Nat :=
  (List.range tiles).filter fun k => shards.any fun s =>
    decide (s.index ≤ k ∧ k < s.index + s.count) &&
    (match v with
     | some v => s.target == 1 && s.vale == v
     | none => s.target == 2)

/-- R359: the first tier tile lies on the 8 KiB boundary after the tile table. -/
def tierTiles (base tiles : Nat) : Nat := (base + 160 * tiles + 8191) / 8192 * 8192

/-- R359: the regions are large enough and lie where they must. -/
def Manifest.regionsFit (m : Manifest) (tier len : Nat) (vales : List Nat) : Bool :=
  let tierNeed := tierTiles tier m.tiles + 8192 * (tilesIn m.shards m.tiles none).length
  (m.tiles == 0 || (decide (tierNeed ≤ tier + len) && inGddr (tier + len - 1))) &&
  (List.range 12).all fun v =>
    let w := vales.getD v 0
    let base := bitsOf w 47 0
    let size := bitsOf w 63 48 * 65536
    let n := (tilesIn m.shards m.tiles (some v)).length
    let sram := 0x810000000000 + v * 0x800000
    n == 0 || decide (8192 * n ≤ size ∧ sram ≤ base ∧ base + size ≤ sram + 0x800000)

/-! ### Level streams (R355) -/

/-- Bit `k` of a byte string, byte 0 first, least significant bit first. -/
def streamBit (bs : List Byte) (k : Nat) : Option Nat := (bs[k / 8]?).map fun b => b.toNat / 2 ^ (k % 8) % 2

/-- Code lengths of the 64 symbols. -/
def lengthTable (bs : List Byte) : List Nat :=
  (List.range 64).map fun s => bitsOf (bs.getD (s / 2) 0).toNat (4 * (s % 2) + 3) (4 * (s % 2))

/-- The table is oversubscribed, or gives a length to a symbol outside the code range (R356). -/
def tableBad (lens : List Nat) (symbols : Nat) : Bool :=
  decide (2 ^ 15 < (lens.map fun l => if l = 0 then 0 else 2 ^ (15 - l)).sum) ||
  (lens.drop symbols).any fun l => l != 0

/-- Symbols in the order of their codes: by length, then by symbol (RFC 1951, 3.2.2). -/
def codeOrder (lens : List Nat) : List Nat :=
  (List.range 15).flatMap fun k => (List.range 64).filter fun s => lens.getD s 0 == k + 1

/-- One symbol: `len` lengths tried so far, the code read, the first code and the place of this length. -/
def readSymbol (bs : List Byte) (lens order : List Nat) : Nat → Nat → Nat → Nat → Nat → Nat →
    Option (Nat × Nat)
  | 0, _, _, _, _, _ => none
  | fuel + 1, len, pos, code, first, index =>
    match streamBit bs pos with
    | none => none
    | some b =>
      let code := code + b
      let count := (lens.filter fun l => l == len).length
      if code < first + count then (order[index + (code - first)]?).map fun s => (s, pos + 1)
      else readSymbol bs lens order fuel (len + 1) (pos + 1) (2 * code) (2 * (first + count)) (index + count)

/-- `n` symbols from bit `pos` on. -/
def readSymbols (bs : List Byte) (lens order : List Nat) : Nat → Nat → Option (List Nat × Nat)
  | 0, pos => some ([], pos)
  | n + 1, pos => match readSymbol bs lens order 15 1 pos 0 0 0 with
    | none => none
    | some (s, pos) => (readSymbols bs lens order n pos).map fun r => (s :: r.1, r.2)

/-! ### Quantisation (R67, R357) -/

/-- A finite value `m × 2 ^ e`, an infinity or a NaN. -/
inductive Wt where
  | fin (m : Int) (e : Int)
  | inf (neg : Bool)
  | nan
deriving DecidableEq, Repr

/-- A BF16 value (R70). -/
def bf16Wt (x : Nat) : Wt :=
  let e := bitsOf x 14 7
  let f := bitsOf x 6 0
  let neg := bitOf x 15
  if e = 255 then (if f = 0 then .inf neg else .nan)
  else if e = 0 then .fin 0 0
  else
    let m : Int := ((128 + f : Nat) : Int)
    .fin (if neg then -m else m) ((e : Int) - 134)

/-- An int8 value times a BF16 row scale (R355). -/
def int8Wt (x : Int) (r : Wt) : Wt :=
  match r with
  | .fin m e => .fin (x * m) e
  | .inf neg => if x = 0 then .nan else .inf (decide (x < 0) != neg)
  | .nan => .nan

/-- What quantisation keeps: the generator, saturated and non-finite weights, and the device's free values
for what no rule states. -/
structure Quant where
  gen  : Gen
  sat  : Nat := 0
  nonf : Nat := 0
  free : Nat
deriving DecidableEq, Repr

/-- `m × 2 ^ e / s` in units of 2^-16, rounded down; `s` is not 0. -/
def quot16 (m e : Int) (s : Rat2) : Int :=
  let d := e - s.exp + 16
  if 0 ≤ d then m * 2 ^ d.toNat / (s.num : Int) else m / ((s.num * 2 ^ (-d).toNat : Nat) : Int)

/-- A number in a range from -lim to lim that no rule states (log entry 42). -/
def Quant.open_ (q : Quant) (lim : Nat) : Int × Quant :=
  (((Config.freeValue q.free).toNat % (2 * lim + 1) : Nat) - (lim : Int), { q with free := q.free + 1 })

/-- R67, R357: a real weight to a code of range -lim to lim under the scale `sw`. -/
def Quant.real (q : Quant) (sw lim : Nat) (x : Wt) : Int × Quant :=
  match x with
  | .nan => (0, { q with nonf := q.nonf + 1 })
  | .inf neg => (if neg then -(lim : Int) else lim, { q with nonf := q.nonf + 1 })
  | .fin m e =>
    let s := sc16Val sw
    if s.num = 0 then q.open_ lim
    else
      let r := q.gen.round16 (quot16 m e s)
      if r.1 < -(lim : Int) ∨ (lim : Int) < r.1 then
        (if r.1 < 0 then -(lim : Int) else lim, { q with gen := r.2, sat := q.sat + 1 })
      else (r.1, { q with gen := r.2 })

/-- The first `n` bits of arg(z) / 2π in [0, 1): the angle is doubled by squaring (log entry 3). -/
def turnBits : Nat → Int → Int → Nat
  | 0, _, _ => 0
  | n + 1, re, im =>
    let b : Nat := if im < 0 ∨ (im = 0 ∧ re < 0) then 1 else 0
    let re' := re * re - im * im
    let im' := 2 * re * im
    let k := Nat.log2 (max re'.natAbs im'.natAbs) - 160
    b * 2 ^ n + turnBits n (re' / 2 ^ k) (im' / 2 ^ k)

/-- R67, R357: a complex weight to an amplitude and a phase code; the amplitude's draw comes first. -/
def Quant.complex (q : Quant) (sw : Nat) (x y : Wt) : Nat × Nat × Quant :=
  let phase (g : Gen) (re im : Int) : Nat × Gen :=
    let big (z : Int) : Int := z * 2 ^ 200
    let r := g.round16 ((turnBits 24 (big re) (big im) : Nat) : Int)
    (r.1.toNat % 256, r.2)
  let isNan (z : Wt) : Bool := z == .nan
  let isInf (z : Wt) : Bool := match z with
    | .inf _ => true
    | _ => false
  if isNan x ∨ isNan y then (0, 0, { q with nonf := q.nonf + 1 })
  else if isInf x ∨ isInf y then
    let dir (z : Wt) : Int := match z with
      | .inf true => -1
      | .inf false => 1
      | _ => 0
    let p := phase q.gen (dir x) (dir y)
    (63, p.1, { q with gen := p.2, nonf := q.nonf + 1 })
  else match x, y with
    | .fin m e, .fin m' e' =>
      let s := sc16Val sw
      let lo := min e e'
      let re := m * 2 ^ (e - lo).toNat
      let im := m' * 2 ^ (e' - lo).toNat
      if s.num = 0 then
        let r := q.open_ 31
        let p := phase r.2.gen re im
        ((r.1 + 31).toNat, p.1, { r.2 with gen := p.2 })
      else
        let sq := (re * re + im * im).toNat
        let d := 2 * (lo - s.exp + 16)
        let y2 := if 0 ≤ d then sq * 2 ^ d.toNat / (s.num * s.num) else sq / (s.num * s.num * 2 ^ (-d).toNat)
        let amp := if 2 ^ 48 ≤ y2 then 2 ^ 24 else isqrt y2
        let r := q.gen.round16 (amp : Int)
        let p := phase r.2 re im
        if 63 < r.1 then (63, p.1, { q with gen := p.2, sat := q.sat + 1 })
        else (r.1.toNat, p.1, { q with gen := p.2 })
    | _, _ => (0, 0, q)

/-! ### Payloads -/

/-- Weights of one tile or site in output-major order: real, or real and imaginary parts in turn. None
where the bytes do not fill the layout. -/
def payloadWeights (enc nOut nIn parts : Nat) (bs : List Byte) : List Wt :=
  match enc with
  | 0 => (List.range (nOut * nIn * parts)).map fun k => bf16Wt (leNat ((bs.drop (2 * k)).take 2))
  | _ => (List.range nOut).flatMap fun j =>
      let row := bs.drop (j * (2 + nIn * parts))
      let r := bf16Wt (leNat (row.take 2))
      (List.range (nIn * parts)).map fun k => int8Wt (signedOf 8 (row.getD (2 + k) 0).toNat) r

/-- Bytes of one tile or site in encodings 0 and 1 (R355). -/
def payloadUnit (enc nOut nIn parts : Nat) : Nat :=
  if enc = 0 then 2 * nOut * nIn * parts else nOut * (2 + nIn * parts)

/-- An output-major list of pieces put input-major. -/
def transposed (nOut nIn : Nat) (xs : List (List Byte)) : List Byte :=
  (List.range nIn).flatMap fun i => (List.range nOut).flatMap fun j => xs.getD (j * nIn + i) []

def byteOf (x : Int) : Byte := BitVec.ofInt 8 x

/-- The code bytes of one tile or site decoded from encodings 0 and 1, in memory order (R114, R163). -/
def quantUnit (enc wmode scale nOut nIn : Nat) (bs : List Byte) (q : Quant) : List Byte × Quant :=
  let ws := payloadWeights enc nOut nIn (wmode + 1) bs
  let lim := if nOut = 64 then 31 else 15
  if wmode = 0 then
    let r := ws.foldl (fun (r : List (List Byte) × Quant) x =>
      let y := r.2.real scale lim x
      ([byteOf y.1] :: r.1, y.2)) ([], q)
    (transposed nOut nIn r.1.reverse, r.2)
  else
    let r := (List.range (nOut * nIn)).foldl (fun (r : List (List Byte) × Quant) k =>
      let y := r.2.complex scale (ws.getD (2 * k) .nan) (ws.getD (2 * k + 1) .nan)
      ([BitVec.ofNat 8 y.2.1, BitVec.ofNat 8 y.1] :: r.1, y.2.2)) ([], q)
    (transposed nOut nIn r.1.reverse, r.2)

/-- One tile or site of a level stream: its code bytes in memory order and the bytes used. -/
def levelUnit (nOut nIn : Nat) (bs : List Byte) : Option (List Byte × Nat) :=
  let lens := lengthTable bs
  let mid : Int := if nOut = 64 then 31 else 15
  if bs.length < 32 ∨ tableBad lens (if nOut = 64 then 63 else 31) then none
  else match readSymbols (bs.drop 32) lens (codeOrder lens) (nOut * nIn) 0 with
    | none => none
    | some (ss, pos) =>
      some (transposed nOut nIn (ss.map fun s => [byteOf ((s : Int) - mid)]), 32 + (pos + 7) / 8)

/-- Tiles of a level-stream shard one after the other; none where it cannot be decoded or bytes are left. -/
def levelUnits (nOut nIn : Nat) : Nat → List Byte → Option (List (List Byte))
  | 0, bs => if bs.isEmpty then some [] else none
  | n + 1, bs => match levelUnit nOut nIn bs with
    | none => none
    | some (u, k) => (levelUnits nOut nIn n (bs.drop k)).map fun r => u :: r

/-- R355 to R357: the code bytes of each tile of a shard, or of its site; none where the payload cannot be
decoded (R356). -/
def decodeShard (s : Shard) (bs : List Byte) (q : Quant) : Option (List (List Byte) × Quant) :=
  let nOut := if s.target = 0 then 256 else 64
  let nIn := if s.target = 0 then 512 else 64
  if s.enc = 2 then (levelUnits nOut nIn s.count bs).map fun us => (us, q)
  else
    let unit := payloadUnit s.enc nOut nIn (s.wmode + 1)
    if bs.length ≠ unit * s.count then none
    else some ((List.range s.count).foldl (fun (r : List (List Byte) × Quant) k =>
      let y := quantUnit s.enc s.wmode s.scale nOut nIn ((bs.drop (unit * k)).take unit) r.2
      (r.1 ++ [y.1], y.2)) ([], q))

end Sys2Proof.Machine
end

