-- ==== Sys2Proof/Machine/PassOps.lean ====
section
/-!
DEFINITION. Sys2Proof/Machine/PassOps.lean: file 14 of spec/: the Saddle's local ports, their lanes and
sinks (R438 to R449), routes (R454), originated frames at the PASS gate (R453), remote requests (R456),
broadcast (R458), and the writes of the PASS_ registers (R460).
-/

namespace Sys2Proof.Machine

def Chip.source (c : Chip) (n : Nat) : Source := Tab.get c.passes.sources n {}

def Chip.setSource (c : Chip) (n : Nat) (x : Source) : Chip :=
  { c with passes := { c.passes with sources := Tab.set c.passes.sources n x } }

def Chip.sink (c : Chip) (n : Nat) : Sink := Tab.get c.passes.sinks n {}

def Chip.setSink (c : Chip) (n : Nat) (x : Sink) : Chip :=
  { c with passes := { c.passes with sinks := Tab.set c.passes.sinks n x } }

/-- The module's own ID; 0xFFFF: unset (R452). -/
def Chip.moduleId (c : Chip) : Nat := c.f Fld.passCfg_moduleId

/-- A circuit is open at either end (R452). -/
def Chip.anyCircuit (c : Chip) : Bool :=
  ((List.range 128).any fun n => c.flag Fld.passTx_open [n]) ||
  (List.range 256).any fun n => c.f Fld.passRx_state [n] != 0

/-! ### Circuits of an entry -/

/-- The circuits of a route or broadcast entry whose count field is `cnt` and whose first circuit field
lies at `lo`. -/
def circuitsOf (x cnt lo : Nat) : List Nat :=
  (List.range (cnt + 1)).map fun k => bitsOf x (lo + 7 * k + 6) (lo + 7 * k)

/-- The circuits of a route entry (PASS_ROUTE). -/
def routeCircuits (x : Nat) : List Nat := circuitsOf x (bitsOf x 61 60) 28

/-- The circuits of a broadcast entry (PASS_BCAST). -/
def bcastCircuits (x : Nat) : List Nat := circuitsOf x (bitsOf x 29 28) 0

/-- R454: the circuit of a frame to module `m` with window offset `off`; none where its entry is not
valid. -/
def Chip.routeLane (c : Chip) (m off : Nat) : Option Nat :=
  let x := (c.get { name := .passRoute, idx := [m] }).toNat
  if bitOf x 63 then
    let ls := routeCircuits x
    ls[off / 4096 % ls.length]?
  else none

/-- The window offset a frame is routed by: responses use 0 (R454). -/
def frameOffset (f : PassFrame) : Nat :=
  if f.kind = 0 ∨ f.kind = 1 ∨ f.kind = 3 then bitsOf f.addr.toNat 27 0 else 0

/-! ### Sending -/

/-- R453: frames that pass without charge, and those sent on for other modules, go ahead of originated ones. -/
def goesAhead (f : PassFrame) : Bool := [2, 4, 5, 7].contains f.kind || decide (0 < f.hop)

/-- A frame joins a lane's queue: one that goes ahead, behind the others that do. -/
def joinLane (q : List PassFrame) (f : PassFrame) : List PassFrame :=
  if goesAhead f then q.takeWhile goesAhead ++ f :: q.dropWhile goesAhead else q ++ [f]

/-- A frame leaves on a lane, or waits until the lane is locked. -/
def Chip.sendOn (c : Chip) (lane : Nat) (f : PassFrame) : Chip :=
  if c.flag Fld.passTx_locked [lane] then
    c.out (.frame lane f)
  else if c.flag Fld.passTx_open [lane] then
    let s := c.source lane
    c.setSource lane { s with q := joinLane s.q f }
  else c

/-- Frames still to be sent on a lane. -/
def Chip.laneBusy (c : Chip) (lane : Nat) : Bool :=
  !(c.source lane).q.isEmpty || c.passes.gate.any fun w => w.lane == lane

/-- R449: a closing source whose frames are sent goes dark. -/
def Chip.settleLane (c : Chip) (lane : Nat) : Chip :=
  if (c.source lane).closing ∧ ¬ c.laneBusy lane then
    (c.put { name := .passTx, idx := [lane] } 0).setSource lane {}
  else c

/-- Frames for a module are queued. -/
def Chip.framesFor (c : Chip) (m : Nat) : Bool :=
  (c.passes.gate.any fun w => w.frame.dest == m) ||
  c.passes.sources.any fun p => p.2.q.any fun f => f.dest == m

/-- R454: written route entries take effect once the frames queued for their module are sent. -/
def Chip.settleRoutes (c : Chip) : Chip :=
  let ready := c.passes.routes.filter fun p => !c.framesFor p.1
  let c := ready.foldl (fun c p => c.put { name := .passRoute, idx := [p.1] } p.2) c
  { c with passes := { c.passes with routes := c.passes.routes.filter fun p => !ready.contains p } }

/-- R447: a tag frame of a lane: module ID, colour, local port and source index. -/
def Chip.tagFrame (c : Chip) (lane : Nat) : PassFrame :=
  { dest := 0, source := c.moduleId, tent := 0, kind := 7, hop := 0, length := 0,
    addr := BitVec.ofNat 64 (c.f Fld.passTx_colour [lane] + (24 + lane / 16) * 256 + lane * 65536),
    tag := 0, status := 0, payload := [], crcOk := true }

/-- R453: what a frame is charged; none where it passes without charge. -/
def frameCharge (f : PassFrame) : Option Nat :=
  match f.kind with
  | 0 => some f.payload.length
  | 1 => some f.length
  | 3 => some f.payload.length
  | 6 => some f.payload.length
  | _ => none

/-- The transaction of a frame has been transmitted: remote_to runs from here (R456). -/
def Chip.markSent (c : Chip) (f : PassFrame) : Chip :=
  let rs := c.passes.remotes.map fun r => if r.frame = f then { r with sent := true } else r
  { c with passes := { c.passes with remotes := rs } }

/-- R453: an originated frame passes its port's gate, or waits there behind its Tent's others; `met`, the boundaries
it has met before. -/
def Chip.originate (c : Chip) (lane : Nat) (f : PassFrame) (met : Nat := 0) : Chip :=
  let wait (c : Chip) : Chip :=
    { c with passes := { c.passes with gate := c.passes.gate ++ [{ lane := lane, frame := f, met := met }] } }
  match frameCharge f with
  | none => c.sendOn lane f
  | some n =>
    if c.passes.gate.any fun w => w.lane / 16 == lane / 16 && w.frame.tent == f.tent then wait c
    else match c.spend (.pass (lane / 16)) f.tent n with
      | some c => (c.sendOn lane f).markSent f
      | none => wait (c.wait (.pass (lane / 16)) f.tent n false)

/-- The frames that wait at a local port's gate are offered again, round-robin by Tent (R43); a frame that still waits
holds back those of its Tent (R44). -/
def Chip.passRetry (c : Chip) (p : Nat) : Chip :=
  let mine := c.passes.gate.filter fun w => w.lane / 16 == p
  let c := { c with passes := { c.passes with gate := c.passes.gate.filter fun w => w.lane / 16 != p } }
  let turns := turnOrder (fun w : PassWait => w.frame.tent) mine.length (c.servedLast (.pass p)) mine
  let c := turns.foldl (fun c w => c.originate w.lane w.frame w.met) c
  ((mine.map fun w => w.lane).foldl Chip.settleLane c).settleRoutes

/-- R45: the grain that waits for a Tent at a gate shows the boundaries the oldest of its requests has met; none of
them is left: none waits. -/
def Chip.syncWait (c : Chip) (g : Gate) (t : Nat) (mets : List Nat) : Chip :=
  if mets.isEmpty then c.unwait g t
  else
    let ws := c.bud.waiting.map fun w =>
      if w.gate = g ∧ w.tent = t ∧ w.job = none then { w with met := mets.foldl max 0 } else w
    { c with bud := { c.bud with waiting := ws } }

/-- The boundaries the frames of a Tent that wait at a local port have met. -/
def Chip.syncPass (c : Chip) (p t : Nat) : Chip :=
  c.syncWait (.pass p) t ((c.passes.gate.filter fun w => w.lane / 16 == p && w.frame.tent == t).map fun w => w.met)

/-- The gate of the one grain an access of at most 4,096 bytes makes in GDDR7. -/
def serveGate (s : Serve) : Option Gate := (memAccess s.addr s.len).head?.map fun g => g.1

/-- The same of the accesses served for a Tent that wait at a quadrant. -/
def Chip.syncServes (c : Chip) (q t : Nat) : Chip :=
  c.syncWait (.quad q) t
    ((c.passes.serves.filter fun s => serveGate s == some (.quad q) && s.tent == t).map fun s => s.met)

/-- R45: what waits at a gate has met a boundary more. -/
def Chip.meetBoundary (c : Chip) (g : Gate) : Chip :=
  match g with
  | .pass p =>
    let ws := c.passes.gate.map fun w => if w.lane / 16 = p then { w with met := w.met + 1 } else w
    (ws.map fun w => w.frame.tent).eraseDups.foldl (fun c t => c.syncPass p t)
      { c with passes := { c.passes with gate := ws } }
  | .quad q =>
    let ss := c.passes.serves.map fun s => if serveGate s = some (.quad q) then { s with met := s.met + 1 } else s
    (ss.map fun s => s.tent).eraseDups.foldl (fun c t => c.syncServes q t)
      { c with passes := { c.passes with serves := ss } }
  | _ => c

/-- A new transaction tag. -/
def Chip.takeTag (c : Chip) : Nat × Chip :=
  (c.passes.nextTag,
   { c with passes := { c.passes with nextTag := (c.passes.nextTag + 1) % 2 ^ 32 } })

/-- R456: a request goes out to an export window; none where no route to its module is valid. -/
def Chip.remoteRequest (c : Chip) (who : RemoteWho) (tent addr kind len fn : Nat) (payload : List Byte) :
    Option (Nat × Chip) :=
  let m := addr / 2 ^ 28 % 65536
  let off := addr % 2 ^ 28
  match c.routeLane m off with
  | none => none
  | some lane =>
    let t := c.takeTag
    let f : PassFrame := { dest := m, source := c.moduleId, tent := tent, kind := kind, hop := 0,
                           length := len, addr := BitVec.ofNat 64 off, tag := t.1, status := fn,
                           payload := payload, crcOk := true }
    let c := t.2
    let c : Chip := { c with passes := { c.passes with remotes := c.passes.remotes ++ [{ frame := f, who := who }] } }
    some (t.1, c.originate lane f)

/-! ### Sinks -/

/-- R446: a sink goes from UP to DOWN, and returns to WAIT at once. -/
def Chip.sinkDown (c : Chip) (n : Nat) : Chip :=
  if c.f Fld.passRx_state [n] = 2 then
    let s := c.sink n
    let c := c.setSink n { s with good := 0, tagged := false, bad := 0, hunting := false }
    (c.setF Fld.passRx_state [n] 1).ev .passEvCircuit
  else c

/-- R446: a sink in WAIT that has met its 1,024 codewords with a matching tag goes UP. -/
def Chip.sinkUp (c : Chip) (n : Nat) : Chip :=
  let s := c.sink n
  if c.f Fld.passRx_state [n] = 1 ∧ 1024 ≤ s.good ∧ s.tagged then
    let c := (c.setF Fld.passRx_state [n] 2).setSink n { s with cmd := none, bad := 0 }
    match s.cmd with
    | some m => c.answer 0x0A01 m Status.ok
    | none => c
  else c

/-- R447: a tag frame at a sink. -/
def Chip.sinkTag (c : Chip) (n : Nat) (f : PassFrame) : Chip :=
  if f.source = c.f Fld.passRx_peer [n] ∧ bitsOf f.addr.toNat 7 0 = n % 32 then
    (c.setSink n { c.sink n with tagged := true }).sinkUp n
  else
    let c := c.ev .passEvMisroute
    let c := c.put { name := .passLastTag }
      (BitVec.ofNat 64 (n * 2 ^ 48 + bitsOf f.addr.toNat 31 0 * 2 ^ 16 + f.source % 2 ^ 16))
    let c := c.sinkDown n
    match (c.sink n).cmd with
    | some m => (c.setSink n { c.sink n with cmd := none }).answer 0x0A01 m Status.misroute
    | none => c

/-- A frame dropped (R446, R450, R455). -/
def Chip.dropFrame (c : Chip) : Chip := c.count Fld.passStat_dropped []

/-- R448: on entry to HOLD lanes go dark and sinks enter DOWN, every record kept. -/
def Chip.passesHold (c : Chip) : Chip :=
  let c := (List.range 128).foldl (fun c n =>
    if c.flag Fld.passTx_locked [n] then c.setF Fld.passTx_locked [n] 0 else c) c
  let c := (List.range 256).foldl (fun c n =>
    let st := c.f Fld.passRx_state [n]
    if st = 0 ∨ st = 3 then c
    else
      let c := if st = 2 then c.ev .passEvCircuit else c
      (c.setF Fld.passRx_state [n] 3).setSink n { c.sink n with good := 0, tagged := false, bad := 0 }) c
  c.setF Fld.passPort_boostOn [] 0

/-- R440: the booster pairs that are enabled and not on ask for their credit step. -/
def Chip.askBoosters (c : Chip) : Chip :=
  (List.range 12).foldl (fun c k =>
    let en := bitOf (c.f Fld.passPort_boostEn) k
    let on := bitOf (c.f Fld.passPort_boostOn) k
    if en ∧ ¬ on then
      c.askCredits (.booster k)
    else c) c

/-- R448: on leaving HOLD each sink returns through WAIT; the sources lock again by SOURCE_LOCKED. -/
def Chip.passesResume (c : Chip) : Chip :=
  let c := (List.range 256).foldl (fun c n =>
    if c.f Fld.passRx_state [n] = 3 then c.setF Fld.passRx_state [n] 1 else c) c
  c.askBoosters

/-! ### Register and record writes (R460) -/

/-- PASS_CFG (R452, R456). -/
def Chip.wPassCfg (c : Chip) (x : Word) : Nat × Chip :=
  let y := x.toNat
  if bitsOf y 23 16 = 0 ∨ (bitsOf y 15 0 ≠ c.moduleId ∧ c.anyCircuit) then (Status.badParam, c)
  else (Status.ok, c.put { name := .passCfg } (BitVec.ofNat 64 (bitsOf y 23 0)))

/-- PASS_PORT (R440): a pair newly requested asks for its credits; one no longer requested goes off. -/
def Chip.wPassPort (c : Chip) (x : Word) : Nat × Chip :=
  let en := bitsOf x.toNat 11 0
  let c := c.setF Fld.passPort_boostEn [] en
  let c := (List.range 12).foldl (fun c k =>
    if bitOf en k then c
    else
      let c : Chip := { c with bud := { c.bud with
        requests := c.bud.requests.filter fun r => r.who != .booster k } }
      let on := c.f Fld.passPort_boostOn
      if bitOf on k then (c.setF Fld.passPort_boostOn [] (on - 2 ^ k)).dropCredits 57 3 else c) c
  (Status.ok, if c.device = .service ∨ c.device = .starting then c.askBoosters else c)

/-- R454: a route entry that names a circuit that is not an open source, or one that closes (R449). -/
def Chip.routeRefused (c : Chip) (x : Nat) : Bool :=
  bitOf x 63 && (routeCircuits x).any fun n => !c.flag Fld.passTx_open [n] || (c.source n).closing

/-- PASS_ROUTE (R454): bits that are not reserved; in effect once the frames queued are sent. -/
def Chip.wPassRoute (c : Chip) (m : Nat) (x : Word) : Nat × Chip :=
  if c.routeRefused x.toNat then (Status.notPermitted, c)
  else
    let x := x &&& 0xB0FFFFFFF0000000
    (Status.ok, { c with passes := { c.passes with routes := Tab.set c.passes.routes m x } }.settleRoutes)

/-- PASS_BCAST. -/
def Chip.wPassBcast (c : Chip) (g : Nat) (x : Word) : Nat × Chip :=
  (Status.ok, c.put { name := .passBcast, idx := [g] } (BitVec.ofNat 64 (bitsOf x.toNat 31 0)))

/-- An export entry (R457). -/
structure Export where
  valid  : Bool
  r      : Bool
  w      : Bool
  a      : Bool
  tent   : Nat
  size   : Nat
  base   : Nat
  peer   : Nat
  peerTent : Nat
  anyTent : Bool
  off    : Nat
deriving DecidableEq, Repr

def Export.ofWords (x0 x1 : Nat) : Export :=
  { valid := bitOf x0 63, r := bitOf x0 62, w := bitOf x0 61, a := bitOf x0 60, tent := bitsOf x0 59 54,
    size := bitsOf x0 53 48, base := bitsOf x0 47 0, peer := bitsOf x1 63 48, peerTent := bitsOf x1 47 42,
    anyTent := bitOf x1 41, off := bitsOf x1 27 0 }

def Chip.export (c : Chip) (k : Nat) : Export :=
  Export.ofWords (c.get { name := .passExport, idx := [k] }).toNat
    (c.get { name := .passExport, idx := [k], w := 1 }).toNat

/-- PASS_EXPORT (R457), written whole. -/
def Chip.wPassExport (c : Chip) (k : Nat) (x0 x1 : Word) : Nat × Chip :=
  let e := Export.ofWords x0.toNat x1.toNat
  let n := 2 ^ e.size
  if e.size < 12 ∨ 28 < e.size ∨ e.base % n ≠ 0 ∨ e.off % n ≠ 0 then (Status.badParam, c)
  else if e.valid ∧ ((e.r ∧ ¬ c.admits e.tent .r e.base n) ∨ (e.w ∧ ¬ c.admits e.tent .w e.base n) ∨
      (e.a ∧ ¬ c.admits e.tent .a e.base n)) then (Status.notPermitted, c)
  else (Status.ok, c.putWords .passExport [k] [x0, x1 &&& 0xFFFFFE000FFFFFFF])

/-! ### Broadcast (R458) -/

/-- A broadcast frame goes out on the circuits of its group's entry, originated or regenerated. -/
def Chip.bcastOn (c : Chip) (g : Nat) (f : PassFrame) (own : Bool) : Chip :=
  let x := (c.get { name := .passBcast, idx := [g] }).toNat
  if bitOf x 31 then
    (bcastCircuits x).foldl (fun c lane =>
      if own then c.originate lane f
      else (c.sendOn lane { f with hop := f.hop + 1 }).count Fld.passStat_regen []) c
  else c

/-- R458: a source module sends a shard of a group: frames of up to 4,096 bytes in offset order. -/
def Chip.bcastShard (c : Chip) (t g shard : Nat) (hash4 : Nat) (payload : List Byte) : Chip :=
  (List.range ((payload.length + 4095) / 4096)).foldl (fun c k =>
    let bs := (payload.drop (4096 * k)).take 4096
    c.bcastOn g { dest := 0xFFFF, source := c.moduleId, tent := t, kind := 6, hop := 0, length := bs.length,
                  addr := BitVec.ofNat 64 (4096 * k + shard * 2 ^ 32 + g * 2 ^ 48), tag := hash4, status := 0,
                  payload := bs, crcOk := true } true) c

end Sys2Proof.Machine
end

