-- ==== Sys2Proof/Machine/Weights.lean ====
section
/-!
DEFINITION. Sys2Proof/Machine/Weights.lean: weight-set slots (R350 to R352), the checks of a load (R354),
fetching, placement and failure of shards (R358, R362 to R365), fingerprints (R511 to R513), the active-set
pointer (R366) and release (R368).
-/

namespace Sys2Proof.Machine

def Chip.setSlot (c : Chip) (t k : Nat) (x : WSlot) : Chip := { c with slots := Tab.set c.slots (t, k) x }

def Chip.tent (c : Chip) (t : Nat) : Tent := Tab.get c.tents t {}

def Chip.setTent (c : Chip) (t : Nat) (x : Tent) : Chip := { c with tents := Tab.set c.tents t x }

def Chip.slotState (c : Chip) (t k : Nat) : Nat := c.f Fld.wsetSlot_state [t, k]

/-- R368: a Dale batch, a site step or a fingerprint check runs on the slot's set. -/
def Chip.inUse (c : Chip) (t k : Nat) : Bool :=
  (c.dales.any fun p => match p.2.run with
    | some r => r.job.tent == t && r.slot == k && r.phase == .batch
    | none => false) ||
  (c.cores.any fun p => p.2.run.isSome && c.siteSlot p.1 == some (t, k)) ||
  c.slotState t k == 2

/-- R349: the logical site that holds a rank of a Tent. -/
def Chip.rankSite (c : Chip) (t rank : Nat) : Option Nat :=
  (List.range 27648).find? fun i =>
    c.f Fld.tentSite_rank [i] == rank && c.f Fld.tentSite_owner [i] == t && c.siteTent i == t

/-! ### The end of a load -/

/-- A site holds no set any more (R364, R368). -/
def Chip.clearSite (c : Chip) (i : Nat) : Chip :=
  let n := i / 768
  let s := c.physOf i
  let c := match c.prog n s with
    | some p => match p.what with
      | .set .. => c.abortProg n s
      | _ => c
    | none => c
  let c := c.setArr n s { c.arr n s with epoch := 0 }
  let c := c.setF Fld.siteAstate_epoch [n, s] 0
  let c := if c.f Fld.siteAstate_state [n, s] = 1 then c.setF Fld.siteAstate_state [n, s] 2 else c
  c.saveRecord n s

/-- The sites that hold, or are programmed for, the set of a slot. -/
def Chip.slotSites (c : Chip) (t k : Nat) : List Nat :=
  (c.slotInfo t k).sites.filter fun i =>
    let n := i / 768
    let s := c.physOf i
    ((c.siteArr i).epoch == c.slotEpoch t k && c.f Fld.siteAstate_owner [n, s] == t) ||
    (match c.prog n s with
     | some p => match p.what with
       | .set t' k' _ _ _ => t' == t && k' == k
       | _ => false
     | none => false)

/-- The final reply of a load (R421): the epoch in its detail, saturations, non-finite weights, shards. -/
def Chip.loadReply (c : Chip) (t k status : Nat) : Chip :=
  let w := c.slotInfo t k
  match w.cmd with
  | none => c
  | some m =>
    let c := c.setSlot t k { w with cmd := none }
    c.answer 0x0301 m status (c.slotEpoch t k)
      [BitVec.ofNat 64 (c.f Fld.wsetSlot_sat [t, k]), BitVec.ofNat 64 (c.f Fld.wsetSlot_nonfinite [t, k]),
       BitVec.ofNat 64 (c.f Fld.wsetSlot_shardsDone [t, k])]

/-- What a load was fetching is dropped. -/
def Chip.dropFetches (c : Chip) (t k : Nat) : Chip :=
  let c : Chip := { c with reads := c.reads.filter fun r => !(r.tent == t && r.slot == k) }
  c.setSlot t k { c.slotInfo t k with st := [], parts := [] }

/-- SET_FAILED (R364, R435): the set of a slot goes to FAILED; `shard` ended it, if one did. -/
def Chip.failSet (c : Chip) (t k status : Nat) (shard : Option Nat) : Chip :=
  let c := match shard with
    | some j =>
      (c.setF Fld.wsetSlot_failShard [t, k] j).setF Fld.wsetSlot_attempts [t, k]
        (Tab.get (c.slotInfo t k).tries j 0)
    | none => c
  let c := (c.slotSites t k).foldl Chip.clearSite c
  let c := c.dropFetches t k
  let c := (c.setF Fld.wsetSlot_state [t, k] 5).setF Fld.wsetSlot_status [t, k] status
  let c := (c.setSlot t k { c.slotInfo t k with sites := [], passed := [], tiles := 0 }).ev .wsetEvFail [t]
  c.loadReply t k status

/-- A slot becomes EMPTY (R350, R368); the releases that waited for it are answered. A load released in
LOADING ends SET_NOT_ACTIVE (log entry 43). -/
def Chip.emptySlot (c : Chip) (t k : Nat) : Chip :=
  let c := (c.slotSites t k).foldl Chip.clearSite c
  let c := c.dropFetches t k
  let c := c.loadReply t k Status.setNotActive
  let rel := (c.slotInfo t k).releases
  let status := c.f Fld.wsetSlot_status [t, k]
  let c := c.setSlot t k {}
  let c := c.putWords .wsetSlot [t, k] [BitVec.ofNat 64 (status * 2 ^ 16), 0, 0, 0, 0, 0, 0, 0]
  rel.foldl (fun c m => c.answer 0x0303 m Status.ok) c

/-- R350, R352: a slot whose set has passed VERIFYING: READY, ACTIVE where the pointer names it, EMPTY where
a release waits (R368). -/
def Chip.slotReady (c : Chip) (t k : Nat) : Chip :=
  let c := (c.setF Fld.wsetSlot_state [t, k] (if c.f Fld.wsetActive_slot [t] = k then 4 else 3)).setF
    Fld.wsetSlot_status [t, k] Status.ok
  let c := c.loadReply t k Status.ok
  if c.flag Fld.wsetSlot_releasePend [t, k] then c.emptySlot t k else c

/-- R513: every shard is placed: VERIFYING, which a set without key 7 or without sites passes at once. -/
def Chip.slotPlaced (c : Chip) (t k : Nat) : Chip :=
  let w := c.slotInfo t k
  let c := c.setF Fld.wsetSlot_state [t, k] 2
  if w.fprint.isNone ∨ w.sites.isEmpty then c.slotReady t k else c

/-! ### Shards -/

def WSlot.shardSt (w : WSlot) (j : Nat) : ShardSt := Tab.get w.st j .idle

/-- R362: shards in manifest order go from idle to fetching while fewer than 16 are fetched; a receiver
waits for its broadcast copy first (R363). -/
def Chip.nextShards (c : Chip) (t k : Nat) : Chip :=
  let w := c.slotInfo t k
  let busy := (w.st.filter fun p => p.2 == .fetch || p.2 == .bcast).length
  let idle := (List.range w.shards.length).filter fun j => w.shardSt j == .idle
  let w := (idle.take (16 - busy)).foldl (fun (w : WSlot) j =>
    let wait := w.role == 2 && (match w.shards[j]? with
      | some s => s.bcast.isSome
      | none => false)
    let x : ShardSt := if wait then .bcast else .fetch
    let w' : WSlot := { w with st := Tab.set w.st j x, tries := Tab.set w.tries j (if wait then 0 else 1) }
    w') w
  c.setSlot t k w

/-- A shard is placed; after the last, VERIFYING. -/
def Chip.shardPlaced (c : Chip) (t k j : Nat) : Chip :=
  let w := c.slotInfo t k
  let c := c.setSlot t k { w with st := Tab.set w.st j .placed, parts := w.parts.filter fun p => p.1 != j }
  let c := c.count Fld.wsetSlot_shardsDone [t, k]
  if c.f Fld.wsetSlot_shardsDone [t, k] = w.shards.length then c.slotPlaced t k else c.nextShards t k

/-- R362: a copy of a shard has failed: it is fetched again, up to 3 more times. -/
def Chip.failCopy (c : Chip) (t k j : Nat) : Chip :=
  let w := c.slotInfo t k
  let c : Chip := { c with reads := c.reads.filter fun r => !(r.tent == t && r.slot == k && r.shard == j) }
  let n := Tab.get w.tries j 0
  if c.f Fld.wsetCfg_retries < n then c.failSet t k Status.shardHashFail (some j)
  else c.setSlot t k { w with st := Tab.set w.st j .fetch, tries := Tab.set w.tries j (n + 1),
                              parts := w.parts.filter fun p => p.1 != j }

/-- The pieces of a payload put together, where they fill it. -/
def assemble (len : Nat) (ps : List (Nat × List Byte)) : Option (List Byte) :=
  let bs := (List.range (len / 4096 + 1)).flatMap fun k =>
    match ps.find? fun p => p.1 == 4096 * k with
    | some p => p.2
    | none => []
  if bs.length = len then some bs else none

/-- The payload of a shard as it has arrived: the device reads device memory itself. -/
def Chip.payload (c : Chip) (t k j : Nat) (s : Shard) : Option (List Byte) :=
  let w := c.slotInfo t k
  match w.shardSt j with
  | .bcast => assemble s.len (Tab.get w.parts j [])
  | .fetch => if s.host then assemble s.len (Tab.get w.parts j []) else some (c.bytes s.src s.len)
  | _ => none

/-- Where a tile of a set lies (R359). -/
def WSlot.tileAddr (w : WSlot) (s : Shard) (tile : Nat) : Nat :=
  let v := if s.target = 1 then some s.vale else none
  let place := (tilesIn w.shards w.tiles v).findIdx fun x => x == tile
  if s.target = 1 then bitsOf (w.vales.getD s.vale 0) 47 0 + 8192 * place
  else tierTiles w.tier w.tiles + 8192 * place

/-- R359: a tile record. -/
def tileRecordBytes (addr sw wmode : Nat) (seeds : List Byte) : List Byte :=
  leBytes 8 addr ++ leBytes 2 sw ++ leBytes 1 wmode ++ leBytes 5 0 ++ seeds.take 128 ++ leBytes 16 0

/-- R358: the tiles of a shard with their records are written. -/
def Chip.placeTiles (c : Chip) (t k : Nat) (s : Shard) (us : List (List Byte)) : Chip :=
  let w := c.slotInfo t k
  (us.mapIdx fun q u => (q, u)).foldl (fun c p =>
    let tile := s.index + p.1
    let addr := w.tileAddr s tile
    (c.store addr p.2).store (w.tier + 160 * tile)
      (tileRecordBytes addr s.scale s.wmode ((s.seeds.drop (128 * p.1)).take 128))) c

/-- GDDR7 bytes of a placement (R352, R361): tiles with their records, or a level image. -/
def Chip.placeGrains (c : Chip) (t k : Nat) (s : Shard) (us : List (List Byte)) : List (Gate × Nat) :=
  let w := c.slotInfo t k
  if s.target = 0 then
    match c.rankSite t s.index with
    | some i => memAccess (c.imageAddr i) 0x20000
    | none => []
  else (us.mapIdx fun q u => (q, u)).flatMap fun p =>
    memAccess (w.tileAddr s (s.index + p.1)) p.2.length ++ memAccess (w.tier + 160 * (s.index + p.1)) 160

/-- R177: a refresh queued for a site, or under way, is dropped when its programming starts; a queued repair waits, and
the rewrite of a physical site it has left goes on. -/
def Chip.dropRepairs (c : Chip) (i : Nat) : Chip :=
  let n := i / 768
  let v := c.veld n
  let c := match v.op with
    | some o =>
      if o.logical = i ∧ o.stage ≠ 7 then
        let c := match o.spare with
          | some sp => (c.abortProg n sp).setF Fld.siteAstate_state [n, sp] 0
          | none => c
        let c := (c.abortProg n o.old).setF Fld.veldState_refreshSite [n] 0x3FF
        -- a move for good is still to come (R178)
        let q := (c.veld n).queue
        c.setVeld n { c.veld n with op := none, queue := if o.why = RepairFor.site then (i, RepairFor.site) :: q else q }
      else c
    | none => c
  let v := c.veld n
  c.setVeld n { v with queue := v.queue.filter fun p => p != (i, RepairFor.refresh) }

/-- R358, R365: a site's level image is written and its programming begins. -/
def Chip.placeSite (c : Chip) (t k j : Nat) (s : Shard) (i : Nat) (codes : List Byte) : Chip :=
  let n := i / 768
  let c := (c.store (c.imageAddr i) codes).dropRepairs i
  let ps := c.physOf i
  let c := c.setArr n ps { c.arr n ps with epoch := 0, present := true }
  let c := c.setF Fld.siteAstate_epoch [n, ps] 0
  let c := c.beginProg n ps { what := .set t k s.scale s.soff s.seeds, logical := i }
  let w := c.slotInfo t k
  c.setSlot t k { w with st := Tab.set w.st j .placing, parts := w.parts.filter fun p => p.1 != j }

/-- A counter of a slot rises, saturating at 32 bits. -/
def Chip.slotCount (c : Chip) (fl : Fld) (t k n : Nat) : Chip := c.countSat fl [t, k] n

/-- SHARD_ARRIVAL (R355 to R358, R362, R363): a whole payload is hashed, decoded, quantised and placed. -/
def Chip.shardArrival (c : Chip) (t k j : Nat) : Chip :=
  let w := c.slotInfo t k
  match w.shards[j]?, decide (c.slotState t k = 1) with
  | some s, true =>
    match c.payload t k j s with
    | none => c
    | some bs =>
      if Config.sha3 bs ≠ s.hash then c.failCopy t k j
      else match decodeShard s bs { gen := c.gen .basecamp, free := c.free } with
        | none => c.failSet t k Status.badParam (some j)
        | some (us, q) =>
          let site := c.rankSite t s.index
          let gone := s.target == 0 && (match site with
            | some i => !c.lmapValid i
            | none => true)
          if gone then c.failSet t k Status.setNotActive (some j)
          else
            let r := c.admitAll t (c.placeGrains t k s us)
            if ¬ r.2 then r.1
            else
              let c : Chip := { r.1 with free := q.free }
              let c := c.setGen .basecamp q.gen
              let c := c.slotCount Fld.wsetSlot_sat t k q.sat
              let c := c.slotCount Fld.wsetSlot_nonfinite t k q.nonf
              let c := match w.role, s.bcast with
                | 1, some g => c.bcastShard t g j (bitsOf (c.get { name := .wsetSlot, idx := [t, k], w := 4 }).toNat 31 0) bs
                | _, _ => c
              match s.target, site with
              | 0, some i => (c.placeSite t k j s i (us.headD [])).nextShards t k
              | _, _ => (c.placeTiles t k s us).shardPlaced t k j
  | _, _ => c

/-- SHARD_TIMEOUT (R362). -/
def Chip.shardTimeout (c : Chip) (t k j : Nat) : Chip :=
  let x := (c.slotInfo t k).shardSt j
  if c.slotState t k = 1 ∧ (x = .fetch ∨ x = .bcast) then c.failSet t k Status.shardTimeout (some j) else c

/-- BCAST_WAIT_EXPIRE (R363): a receiver fetches its own copy. -/
def Chip.bcastExpire (c : Chip) (t k j : Nat) : Chip :=
  let w := c.slotInfo t k
  if c.slotState t k = 1 ∧ w.shardSt j = .bcast then
    c.setSlot t k { w with st := Tab.set w.st j .fetch, tries := Tab.set w.tries j 1,
                           parts := w.parts.filter fun p => p.1 != j }
  else c

/-- R458: a broadcast piece is offered to every load in LOADING with role receiver whose manifest hash
begins so. -/
def Chip.offerPiece (c : Chip) (hash4 j off : Nat) (bs : List Byte) : Chip :=
  (List.range 128).foldl (fun c q =>
    let t := q / 2
    let k := q % 2
    let w := c.slotInfo t k
    if c.slotState t k = 1 ∧ w.role = 2 ∧ w.shardSt j = .bcast ∧
        bitsOf (c.get { name := .wsetSlot, idx := [t, k], w := 4 }).toNat 31 0 = hash4 then
      let old := Tab.get w.parts j []
      if old.any fun p => p.1 == off then c
      else c.setSlot t k { w with parts := Tab.set w.parts j ((off, bs) :: old) }
    else c) c

/-! ### Host reads (R433) -/

/-- HOST_READ_REQUEST: the device asks for up to 4,096 bytes of a shard at `off`. -/
def Chip.hostReadRequest (c : Chip) (t k j off : Nat) : Chip :=
  let w := c.slotInfo t k
  match w.shards[j]? with
  | none => c
  | some s =>
    let have_ := (Tab.get w.parts j []).any fun p => p.1 == off
    let asked := c.reads.any fun r => r.tent == t && r.slot == k && r.shard == j && r.off == off
    if c.slotState t k ≠ 1 ∨ w.shardSt j ≠ .fetch ∨ ¬ s.host ∨ s.len ≤ off ∨ off % 4096 ≠ 0 ∨ have_ ∨ asked ∨
        64 ≤ c.reads.length then c
    else
      let tag := ((List.range 65).find? fun x => !c.reads.any fun r => r.tag == x).getD 0
      let len := min 4096 (s.len - off)
      let c : Chip := { c with reads := c.reads ++
        [{ tag := tag, tent := t, addr := s.src + off, len := len, slot := k, shard := j, off := off }] }
      c.out (.hostRead t tag (s.src + off) len)

/-- HOST_READ_RESPONSE: the adapter's answer; a refusal is a failed copy. -/
def Chip.hostReadResponse (c : Chip) (tag : Nat) (ok : Bool) (data : List Byte) : Chip :=
  match c.reads.find? fun r => r.tag == tag with
  | none => c
  | some r =>
    let c : Chip := { c with reads := c.reads.filter fun x => x.tag != tag }
    if ¬ ok ∨ data.length ≠ r.len then c.failCopy r.tent r.slot r.shard
    else
      let w := c.slotInfo r.tent r.slot
      c.setSlot r.tent r.slot
        { w with parts := Tab.set w.parts r.shard ((r.off, data) :: Tab.get w.parts r.shard []) }

/-- HOST_READ_TIMEOUT. -/
def Chip.hostReadTimeout (c : Chip) (tag : Nat) : Chip :=
  match c.reads.find? fun r => r.tag == tag with
  | none => c
  | some r => c.failCopy r.tent r.slot r.shard

/-! ### Loads -/

/-- R352: what of a slot's state lets a load into it, or the status that refuses it. -/
def Chip.slotTakes (c : Chip) (t k : Nat) : Bool :=
  match c.slotState t k with
  | 0 => true
  | 5 => true
  | 3 => !c.inUse t k
  | 4 => c.f Fld.tentCtl_state [t] == 3
  | _ => false

/-- R353, R354: the manifest at an address, or the status of the first check that fails. -/
def Chip.checkManifest (c : Chip) (t addr len tier tierLen : Nat) (vales : List Nat) :
    Except Nat (Manifest × List Byte) :=
  if 0x400000 < len then .error Status.badParam
  else match Envelope.parse (c.bytes addr len) with
    | none => .error Status.badParam
    | some e =>
      let key := manifestKey e.body
      let pair := key.map fun q => Tab.get (c.tent t).keys q []
      let msg := ascii "GXWS" ++ e.body
      let signed : Bool := match pair with
        | some p => !p.isEmpty && Config.verifies (p.take 32) msg e.sig1 && Config.verifies (p.drop 32) msg e.sig2
        | none => true
      if ¬ signed then .error Status.signatureFail
      else match Manifest.parse e.body with
        | none => .error Status.badParam
        | some mf =>
          let sites := mf.shards.filter fun s => s.target == 0
          let fits := sites.all fun s =>
            (c.rankSite t s.index).isSome && s.soff % 8 == 0 && decide (s.soff + 128 ≤ 0x8000)
          if mf.serial < (c.get { name := .wsetMinser, idx := [t] }).toNat then .error Status.notPermitted
          else if ¬ fits ∨ ¬ mf.regionsFit tier tierLen vales ∨ ¬ mf.covers then .error Status.badParam
          else if sites.any fun s => match c.rankSite t s.index with
              | some i => !c.flag Fld.veldImgBase_valid [i / 768]
              | none => true then .error Status.notPermitted
          else if mf.shards.any fun s => !s.host && !c.admits t .r s.src s.len then
            .error Status.notPermitted
          else .ok (mf, Config.sha3 e.body)

/-- R351: the next epoch of a Tent, 0 skipped. -/
def nextEpoch (e : Nat) : Nat := if (e + 1) % 2 ^ 32 = 0 then 1 else (e + 1) % 2 ^ 32

/-- WSET_LOAD (R352, R354, R363, R426). -/
def Chip.mpWsetLoad (c : Chip) (m : Cmd) : Chip :=
  let t := m.tent
  let k := bitsOf (m.word 1) 32 32
  let role := bitsOf (m.word 1) 34 33
  let len := bitsOf (m.word 1) 31 0
  let tier := bitsOf (m.word 2) 47 0
  let tierLen := bitsOf (m.word 3) 47 0
  let vales := (List.range 12).map fun v => m.word (v + 4)
  let used := vales.filter fun w => bitsOf w 63 48 != 0
  let rw (a n : Nat) : Bool := c.admits t .r a n && c.admits t .w a n
  if m.stray (2 ^ 48 - 1) ∨ bitsOf (m.word 1) 63 35 ≠ 0 ∨ role = 3 ∨ bitsOf (m.word 2) 63 48 ≠ 0 ∨
      bitsOf (m.word 3) 63 48 ≠ 0 then c.finish 0x0301 m Status.badParam
  else if (role ≠ 0 ∧ ¬ c.flag Fld.tentCtl_priv [t]) ∨ ¬ c.slotTakes t k ∨ ¬ c.admits t .r m.p len ∨
      (tierLen ≠ 0 ∧ ¬ rw tier tierLen) ∨
      ¬ (used.all fun w => rw (bitsOf w 47 0) (bitsOf w 63 48 * 65536)) then
    c.finish 0x0301 m Status.notPermitted
  else match c.checkManifest t m.p len tier tierLen vales with
    | .error st => c.finish 0x0301 m st
    | .ok (mf, hash) =>
      let c := if c.slotState t k = 3 ∨ c.slotState t k = 4 then c.emptySlot t k else c
      let e := nextEpoch (c.tent t).epoch
      let c := c.setTent t { c.tent t with epoch := e }
      let sites := (mf.shards.filter fun s => s.target == 0).filterMap fun s => c.rankSite t s.index
      let c := c.setSlot t k
        { tier := tier, tiles := mf.tiles, vales := vales, name := mf.name, images := mf.images,
          fprint := mf.fprint, role := role, shards := mf.shards, cmd := some m, sites := sites }
      let hw (q : Nat) : Word := BitVec.ofNat 64 (leNat ((hash.drop (8 * q)).take 8))
      let c := c.putWords .wsetSlot [t, k]
        [BitVec.ofNat 64 (e * 2 ^ 32 + 0xFF0001), BitVec.ofNat 64 mf.shards.length, 0, 0, hw 0, hw 1, hw 2, hw 3]
      (c.accept 0x0301 m).nextShards t k

def execWsetLoad (m : Cmd) (s : State) : Outcome :=
  onHost m s fun c => c.mpReceive 0x0301 m [] fun c => c.mpWsetLoad m

/-! ### Pointer and release -/

/-- WSET_ACTIVE (R366). -/
def Chip.wWsetActive (c : Chip) (t : Nat) (x : Word) : Nat × Chip :=
  let k := bitsOf x.toNat 1 0
  let other (c : Chip) (q : Nat) : Chip :=
    if c.slotState t q = 4 then c.setF Fld.wsetSlot_state [t, q] 3 else c
  if k = 2 then (Status.badParam, c)
  else if k = 3 then
    (Status.ok, (other (other c 0) 1).put { name := .wsetActive, idx := [t] } 3)
  else if (c.slotState t k ≠ 3 ∧ c.slotState t k ≠ 4) ∨
      (c.slotState t k = 3 ∧ c.flag Fld.wsetSlot_releasePend [t, k]) then (Status.notPermitted, c)
  else
    let c := (other c (1 - k)).setF Fld.wsetSlot_state [t, k] 4
    (Status.ok, c.put { name := .wsetActive, idx := [t] } (BitVec.ofNat 64 k))

/-- WSET_POINT (R366). -/
def Chip.mpWsetPoint (c : Chip) (m : Cmd) : Chip :=
  if m.stray 3 then c.finish 0x0302 m Status.badParam
  else
    let r := c.wWsetActive m.tent m.param
    r.2.finish 0x0302 m r.1

def execWsetPoint (m : Cmd) (s : State) : Outcome :=
  onHost m s fun c => c.mpReceive 0x0302 m [] fun c => c.mpWsetPoint m

/-- WSET_RELEASE (R368). -/
def Chip.mpWsetRelease (c : Chip) (m : Cmd) : Chip :=
  let t := m.tent
  let k := m.p
  if m.stray 1 then c.finish 0x0303 m Status.badParam
  else if c.f Fld.wsetActive_slot [t] = k then c.finish 0x0303 m Status.notPermitted
  else if c.slotState t k = 0 then c.acceptFinish 0x0303 m Status.ok
  else
    let c := c.accept 0x0303 m
    let w := c.slotInfo t k
    let c := c.setSlot t k { w with releases := w.releases ++ [m] }
    if c.inUse t k then c.setF Fld.wsetSlot_releasePend [t, k] 1 else c.emptySlot t k

def execWsetRelease (m : Cmd) (s : State) : Outcome :=
  onHost m s fun c => c.mpReceive 0x0303 m [] fun c => c.mpWsetRelease m

/-- RELEASE_COMPLETE (R368). -/
def Chip.releaseComplete (c : Chip) (t k : Nat) : Chip :=
  if c.flag Fld.wsetSlot_releasePend [t, k] ∧ ¬ c.inUse t k then c.emptySlot t k else c

/-- A slot of a Tent exists (R350). -/
def slotOk (t k : Nat) : Bool := decide (t < 64 ∧ k < 2)

def execReleaseComplete (t k : Nat) (s : State) : Outcome :=
  onUnits (slotOk t k) s fun c => c.releaseComplete t k

/-! ### Events of loads -/

def execShardArrival (t slot shard : Nat) (s : State) : Outcome :=
  onUnits (slotOk t slot) s fun c => c.shardArrival t slot shard

def execShardTimeout (t slot shard : Nat) (s : State) : Outcome :=
  onUnits (slotOk t slot) s fun c => c.shardTimeout t slot shard

def execBcastWaitExpire (t slot shard : Nat) (s : State) : Outcome :=
  onUnits (slotOk t slot) s fun c => c.bcastExpire t slot shard

def execHostReadRequest (t slot shard off : Nat) (s : State) : Outcome :=
  onUnits (slotOk t slot) s fun c => c.hostReadRequest t slot shard off

def execHostReadResponse (tag : Nat) (ok : Bool) (data : List Byte) (s : State) : Outcome :=
  onChip s fun c => c.hostReadResponse tag ok data

def execHostReadTimeout (tag : Nat) (s : State) : Outcome := onChip s fun c => c.hostReadTimeout tag

/-! ### Fingerprints (R511 to R513) -/

/-- The exact products of a vector with a site's codes. -/
def fingerProducts (codes : List Byte) (v : List Int) : List Int :=
  (List.range 256).map fun j => (v.mapIdx fun i x => x * w5Of (codes.getD (256 * i + j) 0)).sum

/-- The stored form of products: the scale and the outputs rounded to nearest. -/
def fingerStore (ys : List Int) : Nat × List Int :=
  let m := (ys.map fun y => y.natAbs).foldl max 0
  let sk := sc16Ceil { num := m, den := 127 }
  let s := sc16Val sk
  let near (y : Int) : Int :=
    if s.num = 0 then 0
    else
      let d := -s.exp
      let num : Int := if 0 ≤ d then y * 2 ^ d.toNat else y
      let den : Int := if 0 ≤ d then s.num else ((s.num * 2 ^ (-d).toNat : Nat) : Int)
      (2 * num + den) / (2 * den)
  (sk, ys.map near)

/-- R513: the measured outputs, in units of 2^-(2 + km), lie within tol of the stored ones. -/
def fingerPasses (tol km sk : Nat) (stored measured : List Int) : Bool :=
  let s := sc16Val sk
  let e := max ((2 + km : Nat) : Int) (-s.exp)
  let u : Int := ((s.num * 2 ^ (e + s.exp).toNat : Nat) : Int)
  let up : Int := ((2 ^ (e - ((2 + km : Nat) : Int)).toNat : Nat) : Int)
  let sq : Int := ((List.zip measured stored).map fun (p : Int × Int) => (p.1 * up - p.2 * u) * (p.1 * up - p.2 * u)).sum
  let lim : Int := (tol : Int) * 127 * u
  decide (sq * 100000000 ≤ 256 * (lim * lim))

/-- The context a fingerprint step runs as: A8 input, 4 repeats, headroom 1. -/
def fingerCfg : ActxCfg :=
  { inFmt := some .a8, outFmt := some .raw, rep := 2, hist := 1, headroom := 0, rot := false, inKind := 0,
    sideWait := false, omaskEn := false }

/-- R513: one vector run on a site as one step; whether it passes against the stored output. -/
def Chip.fingerRun (c : Chip) (i : Nat) (v : List Int) (sk tol : Nat) (stored : List Int)
    (noise : List Int) : Bool × List Int × Chip :=
  let n := i / 768
  let s := c.physOf i
  let seeds := (List.range 32).map fun g => seedUnits (leNat (((c.siteArr i).seeds.drop (2 * g)).take 2))
  let ks := (List.range 32).map fun g => settingFor siteSettings
    (({} : Tracker).wanted (seeds.getD g 65536) 1 ((headroomEighths 0).getD 8))
  let r := c.siteVector n s fingerCfg ks v (List.replicate 32 0) (c.phaseSt n s noise)
  let c := c.keepPhases n s r.2
  (fingerPasses tol (ks.foldl max 0) sk stored r.1.acc, r.2.noise, c)

/-- The A8 codes of a vector. -/
def fingerVector (b : List Byte) : List Int := (List.range 512).map fun k => Fmt.a8.elem b k

/-- R513 for one site: the stored outputs are formed from its level image, and every vector is run. -/
def Chip.fingerSite (c : Chip) (i tol : Nat) (vs : List (List Byte)) (noise : List Int) : Bool × Chip :=
  let n := i / 768
  let s := c.physOf i
  let codes := c.image i
  let prints := vs.map fun v => fingerStore (fingerProducts codes (fingerVector v))
  let c := c.setArr n s { c.arr n s with prints := prints, vecs := vs, tol := tol }
  let r := (List.zip vs prints).foldl (fun (r : Bool × List Int × Chip) p =>
    let q := r.2.2.fingerRun i (fingerVector p.1) p.2.1 tol p.2.2 r.2.1
    (r.1 && q.1, q.2)) (true, noise, c)
  (r.1, r.2.2)

/-- FINGERPRINT_VERIFY (R513): each step is one VELD grain of the loading Tent; the sites are checked in the
order of the set, `noise` giving the conversions of each. A site whose grain waits is checked again later. -/
def Chip.fingerVerify (c : Chip) (t k : Nat) (noise : List (List Int)) : Chip :=
  let w := c.slotInfo t k
  match w.fprint, decide (c.slotState t k = 2) with
  | some (tol, vs), true =>
    let todo := w.sites.filter fun i => !w.passed.contains i
    let r := (List.zip todo noise).foldl (fun (r : Option (Bool × Chip)) p =>
      match r with
      | none => none
      | some (false, c) => some (false, c)
      | some (true, c) =>
        let q := c.admitAll t (vs.map fun _ => (.array p.1, 32))
        if ¬ q.2 then some (true, q.1)
        else
          let x := q.1.fingerSite p.1 tol vs p.2
          if x.1 then
            let w := x.2.slotInfo t k
            some (true, x.2.setSlot t k { w with passed := w.passed ++ [p.1] })
          else some (false, x.2)) (some (true, c))
    match r with
    | some (true, c) =>
      if (c.slotInfo t k).passed.length = w.sites.length then c.slotReady t k else c
    | some (false, c) => c.failSet t k Status.setNotActive none
    | none => c
  | _, _ => c

def execFingerprintVerify (t slot : Nat) (noise : List (List Int)) (s : State) : Outcome :=
  onUnits (slotOk t slot) s fun c => c.fingerVerify t slot noise

end Sys2Proof.Machine
end

