-- ==== Sys2Proof/Machine/Tents.lean ====
section
/-!
DEFINITION. Sys2Proof/Machine/Tents.lean: file 11 of spec/: Tent states (R344 to R346), assignment of Dales,
banks and sites (R146, R347 to R349), window tables (R309), budgets of a Tent (R40), site program images
(R337 to R339) and the JOB commands (R424, R329).
-/

namespace Sys2Proof.Machine

/-! ### Tent states -/

/-- R346: the Tent has a hardware job queued or running, or a site that runs a step. -/
def Chip.tentBusy (c : Chip) (t : Nat) : Bool :=
  (c.dales.any fun p => (p.2.queue.any fun j => j.tent == t) ||
    (match p.2.run with
     | some r => r.job.tent == t
     | none => false)) ||
  (c.coderJobs.any fun j => j.tent == t) || (c.submits.any fun p => p.1 == t) ||
  c.cores.any fun p => p.2.run.isSome && c.siteTent p.1 == t

/-- R346: a QUIESCING Tent without work is QUIESCED; the commands that wait for it are answered. -/
def Chip.settleQuiesce (c : Chip) (t : Nat) : Chip :=
  if c.f Fld.tentCtl_state [t] = 2 ∧ ¬ c.tentBusy t then
    let c := c.setF Fld.tentCtl_state [t] 3
    let mine := c.tentWaits.filter fun w => w.op == 0x0201 && w.units == [t]
    let c : Chip := { c with tentWaits := c.tentWaits.filter fun w => !(w.op == 0x0201 && w.units == [t]) }
    mine.foldl (fun c w => c.answer 0x0201 w.cmd Status.ok) c
  else c

/-- R344: the open action; ignored for Tent 0 and in any other state. -/
def Chip.openTent (c : Chip) (t : Nat) : Nat × Chip :=
  let st := c.f Fld.tentCtl_state [t]
  (Status.ok, if t ≠ 0 ∧ (st = 0 ∨ st = 3) then c.setF Fld.tentCtl_state [t] 1 else c)

/-- R344: the quiesce action. -/
def Chip.quiesceTent (c : Chip) (t : Nat) : Nat × Chip :=
  (Status.ok, if t ≠ 0 ∧ c.f Fld.tentCtl_state [t] = 1 then (c.setF Fld.tentCtl_state [t] 2).settleQuiesce t else c)

/-- R346: the close action, refused unless both slots are EMPTY. -/
def Chip.closeTent (c : Chip) (t : Nat) : Nat × Chip :=
  if c.slotState t 0 ≠ 0 ∨ c.slotState t 1 ≠ 0 then (Status.notPermitted, c)
  else (Status.ok, if c.f Fld.tentCtl_state [t] = 3 then c.setF Fld.tentCtl_state [t] 0 else c)

/-- TENT_CTL written whole (R344, R346): at most one action, and priv. -/
def Chip.wTentCtl (c : Chip) (t : Nat) (x : Word) : Nat × Chip :=
  let y := x.toNat
  if 1 < bitsOf y 31 31 + bitsOf y 30 30 + bitsOf y 29 29 then (Status.badParam, c)
  else
    let r := if bitOf y 31 then c.openTent t
      else if bitOf y 30 then c.quiesceTent t
      else if bitOf y 29 then c.closeTent t
      else (Status.ok, c)
    if r.1 ≠ Status.ok then r else (Status.ok, r.2.setF Fld.tentCtl_priv [t] (bitsOf y 8 8))

/-- The TENT_CTL command with an action of its own (R421). -/
def Chip.mpTentCtl (c : Chip) (m : Cmd) (act : Nat) (f : Chip → Nat → Nat × Chip) : Chip :=
  let t := bitsOf m.p 5 0
  if m.stray 0x33F ∨ bitsOf m.p 9 8 ≠ act then c.finish 0x0201 m Status.badParam
  else
    let r := f c t
    if r.1 ≠ Status.ok then c.finish 0x0201 m r.1
    else if act = 2 ∧ r.2.f Fld.tentCtl_state [t] = 2 then
      let c := r.2.accept 0x0201 m
      { c with tentWaits := c.tentWaits ++ [{ op := 0x0201, cmd := m, units := [t] }] }
    else r.2.acceptFinish 0x0201 m Status.ok

/-- A Tent action, by the command or by its register bit (R344). -/
def tentAction (a : Ask) (act bit : Nat) (f : Chip → Nat → Nat × Chip) (s : State) : Outcome :=
  match a with
  | .cmd m => onHost m s fun c => c.mpReceive 0x0201 m [] fun c => c.mpTentCtl m act f
  | .reg w t =>
    onReg w { name := .tentCtl, idx := [t] } (BitVec.ofNat 64 (2 ^ bit)) s fun c => f c t

def execTentOpen (a : Ask) (s : State) : Outcome := tentAction a 1 31 Chip.openTent s

def execTentQuiesce (a : Ask) (s : State) : Outcome := tentAction a 2 30 Chip.quiesceTent s

def execTentClose (a : Ask) (s : State) : Outcome := tentAction a 3 29 Chip.closeTent s

/-- QUIESCE_DONE (R346). -/
def execQuiesceDone (t : Nat) (s : State) : Outcome :=
  onUnits (tentOk t) s fun c => c.settleQuiesce t

/-! ### Assignments -/

/-- Assignments of a command are all in effect: its final reply (R421). `op` and the units still pending. -/
def Chip.settleAssign (c : Chip) (op : Nat) (pending : Chip → Nat → Bool) : Chip :=
  let done := c.tentWaits.filter fun w => w.op == op && !w.units.any fun u => pending c u
  let c : Chip := { c with tentWaits := c.tentWaits.filter fun w => !done.contains w }
  done.foldl (fun c w => c.answer op w.cmd Status.ok) c

def Chip.dalePending (c : Chip) (k : Nat) : Bool := (c.dale k).newOwner.isSome

def Chip.sitePending (c : Chip) (i : Nat) : Bool := (c.core i).newOwner.isSome

/-- R347: the Dale is idle, its queue empty and no bank lit into its port. -/
def Chip.daleFree (c : Chip) (k : Nat) : Bool :=
  let v := k / 12
  (c.dale k).run.isNone && (c.dale k).queue.isEmpty &&
  !(List.range 16).any fun b => c.f Fld.valeBank_port [v, b] == k % 12 && decide (2 ≤ c.f Fld.valeBank_state [v, b])

/-- DALE_OWNER_CHANGE (R347): a pending owner takes effect, with no tile held and none staged. -/
def Chip.settleDale (c : Chip) (k : Nat) : Chip :=
  match (c.dale k).newOwner with
  | none => c
  | some o =>
    if ¬ c.daleFree k then c
    else
      let v := k / 12
      let d := k % 12
      let c := c.setDale k { c.dale k with newOwner := none, tile := none, staging := none, staged := false }
      let c := ((c.setF Fld.daleCtl_owner [v, d] o).setF Fld.tentDale_pending [k] 0).setF Fld.drvDaleState_staged [v, d] 0
      let c := (c.setF Fld.daleTile_tile [v, d] 0xFFFF).setF Fld.daleTile_epoch [v, d] 0
      c.settleAssign 0x0202 Chip.dalePending

/-- TENT_DALE (R347). -/
def Chip.wTentDale (c : Chip) (k : Nat) (x : Word) : Nat × Chip :=
  let o := bitsOf x.toNat 5 0
  let c := c.setF Fld.tentDale_owner [k] o
  if o = c.daleOwner k then
    let c := (c.setDale k { c.dale k with newOwner := none }).setF Fld.tentDale_pending [k] 0
    (Status.ok, c.settleAssign 0x0202 Chip.dalePending)
  else
    let c := (c.setDale k { c.dale k with newOwner := some o }).setF Fld.tentDale_pending [k] 1
    (Status.ok, c.settleDale k)

def execDaleOwnerChange (k : Nat) (s : State) : Outcome :=
  onUnits (decide (k < 144)) s fun c => c.settleDale k

/-- TENT_DALES: a mask of Dales for one owner (R347, R421). -/
def Chip.mpTentDales (c : Chip) (m : Cmd) : Chip :=
  if m.stray 0x3F ∨ bitsOf (m.word 3) 63 16 ≠ 0 then c.finish 0x0202 m Status.badParam
  else
    let mask := m.word 1 + m.word 2 * 2 ^ 64 + m.word 3 * 2 ^ 128
    let ks := (List.range 144).filter fun k => bitOf mask k
    let c := c.accept 0x0202 m
    let c := ks.foldl (fun c k => (c.wTentDale k m.param).2) c
    let c : Chip := { c with tentWaits := c.tentWaits ++ [{ op := 0x0202, cmd := m, units := ks }] }
    c.settleAssign 0x0202 Chip.dalePending

def execTentDales (m : Cmd) (s : State) : Outcome :=
  onHost m s fun c => c.mpReceive 0x0202 m [] fun c => c.mpTentDales m

/-- VALE_BANK (R113, R146): a changed owner darkens a bank that carries no job, and takes effect when the
bank is dark. -/
def Chip.wValeBank (c : Chip) (v b : Nat) (x : Word) : Nat × Chip :=
  let o := bitsOf x.toNat 29 24
  let k := c.bank v b
  if o = c.f Fld.valeBank_owner [v, b] then (Status.ok, c.setBank v b { k with newOwner := none })
  else if c.f Fld.valeBank_state [v, b] = 0 then
    (Status.ok, (c.setF Fld.valeBank_owner [v, b] o).setBank v b { k with newOwner := none })
  else
    let c := c.setBank v b { k with newOwner := some o }
    (Status.ok, if k.carries.isNone then c.park v b else c)

/-- R348: threads FREE, spawn queue empty, no step running. -/
def Chip.siteFree (c : Chip) (i : Nat) : Bool :=
  let k := c.core i
  (siteHarts i).all (fun h => (c.thread h).state == 0) && k.spawnq.isEmpty && k.run.isNone

/-- A site's store is zeroed. -/
def Chip.zeroStore (c : Chip) (i : Nat) : Chip :=
  { c with mem := c.mem.filter fun p => !(decide (storeBase i ≤ p.1 ∧ p.1 < storeBase i + 0x8000)) }

/-- SITE_OWNER_CHANGE (R348). -/
def Chip.settleSite (c : Chip) (i : Nat) : Chip :=
  match (c.core i).newOwner with
  | none => c
  | some o =>
    if ¬ c.siteFree i then c
    else
      let n := i / 768
      let s := c.physOf i
      let old := c.siteTent i
      let k := c.core i
      let c := (c.zeroStore i).setCore i { k with newOwner := none, steps := [],
                                                  ctx := k.ctx.map fun p => (p.1, { p.2 with live := false }) }
      let c := c.setArr n s { c.arr n s with epoch := 0 }
      let c := (c.setF Fld.siteAstate_epoch [n, s] 0).setF Fld.veldLmap_owner [n, i % 768] o
      let c := (c.setF Fld.tentSite_pending [i] 0).saveRecord n s
      let c := (c.setF Fld.tentSites_count [old] (c.f Fld.tentSites_count [old] - 1)).count
        Fld.tentSites_count [o]
      c.settleAssign 0x0203 Chip.sitePending

def execSiteOwnerChange (i : Nat) (s : State) : Outcome :=
  onUnits (decide (i < 27648)) s fun c => c.settleSite i

/-- R349: another site written to a Tent, outside a range being written, has the rank. -/
def Chip.rankTaken (c : Chip) (o rank first count : Nat) : Bool :=
  (List.range 27648).any fun j =>
    !(decide (first ≤ j ∧ j < first + count)) && c.f Fld.tentSite_owner [j] == o &&
    c.f Fld.tentSite_rank [j] == rank

/-- The owner and rank of a site as written; the owner may have to wait (R348). -/
def Chip.assignSite (c : Chip) (i o rank : Nat) : Chip :=
  let c := (c.setF Fld.tentSite_owner [i] o).setF Fld.tentSite_rank [i] rank
  if o = c.siteTent i then
    let c := (c.setCore i { c.core i with newOwner := none }).setF Fld.tentSite_pending [i] 0
    c.settleAssign 0x0203 Chip.sitePending
  else
    ((c.setCore i { c.core i with newOwner := some o }).setF Fld.tentSite_pending [i] 1).settleSite i

/-- TENT_SITE (R348, R349). -/
def Chip.wTentSite (c : Chip) (i : Nat) (x : Word) : Nat × Chip :=
  let o := bitsOf x.toNat 29 24
  let rank := bitsOf x.toNat 14 0
  if 27647 < rank ∨ c.rankTaken o rank i 1 then (Status.badParam, c)
  else (Status.ok, c.assignSite i o rank)

/-- TENT_SITES (R348, R349, R421). -/
def Chip.mpTentSites (c : Chip) (m : Cmd) : Chip :=
  let first := bitsOf m.p 14 0
  let n := bitsOf m.p 30 16 + 1
  let o := bitsOf m.p 37 32
  let r0 := m.word 1
  if m.stray 0x3F7FFF7FFF ∨ 27648 < first + n ∨ 27648 < r0 + n ∨
      (List.range n).any (fun k => c.rankTaken o (r0 + k) first n) then c.finish 0x0203 m Status.badParam
  else
    let is := (List.range n).map fun k => first + k
    let c := c.accept 0x0203 m
    let c := is.foldl (fun c i => c.assignSite i o (r0 + (i - first))) c
    let c : Chip := { c with tentWaits := c.tentWaits ++ [{ op := 0x0203, cmd := m, units := is }] }
    c.settleAssign 0x0203 Chip.sitePending

def execTentSites (m : Cmd) (s : State) : Outcome :=
  onHost m s fun c => c.mpReceive 0x0203 m [] fun c => c.mpTentSites m

/-! ### Windows and budgets -/

/-- R309: a valid segment has size 16 to 48 and a base aligned to it. -/
def segmentBad (x : Nat) : Bool :=
  bitOf x 63 && (decide (bitsOf x 55 48 < 16 ∨ 48 < bitsOf x 55 48) || segBase x % segSize x != 0)

/-- TENT_WIN (R309); bits [58:56] and [15:0] are reserved. -/
def Chip.wTentWin (c : Chip) (t s : Nat) (x : Word) : Nat × Chip :=
  if segmentBad x.toNat then (Status.badParam, c)
  else (Status.ok, c.put { name := .tentWin, idx := [t, s] } (x &&& 0xF8FFFFFFFFFF0000))

/-- TENT_WINDOWS: the whole table. -/
def Chip.mpTentWindows (c : Chip) (m : Cmd) : Chip :=
  if m.stray 0x3F ∨ m.words.any (fun x => segmentBad x.toNat) then c.finish 0x0204 m Status.badParam
  else
    let c := (m.words.mapIdx fun s x => (s, x)).foldl (fun c p => (c.wTentWin m.p p.1 p.2).2) c
    c.finish 0x0204 m Status.ok

def execTentWindows (m : Cmd) (s : State) : Outcome :=
  onHost m s fun c => c.mpReceive 0x0204 m [] fun c => c.mpTentWindows m

/-- TENT_BUDGET (R40, R421): pitches of classes 0 to 7, which apply from the next frame, and wait_frames; the CAL
class is Tent 0's alone (R46). -/
def Chip.mpTentBudget (c : Chip) (m : Cmd) : Chip :=
  let t := m.p
  if m.stray 0x3F ∨ (m.words.take 8).any (fun x => decide (0xFFFFF < x.toNat)) ∨ 0xFF < m.word 9 then
    c.finish 0x0205 m Status.badParam
  else
    let c := ((m.words.take 8).mapIdx fun k x => (k, x)).foldl
      (fun c p => if p.1 = 7 ∧ t ≠ 0 then c else c.setF Fld.budPitch_pitch [t, p.1] p.2.toNat) c
    (c.setF Fld.budWaitLimit_waitFrames [t] (m.word 9)).finish 0x0205 m Status.ok

def execTentBudget (m : Cmd) (s : State) : Outcome :=
  onHost m s fun c => c.mpReceive 0x0205 m [] fun c => c.mpTentBudget m

/-! ### Site program images (R337 to R339) -/

/-- A section: type, rank, load offset and payload. -/
structure Section where
  typ  : Nat
  rank : Nat
  off  : Nat
  pay  : List Byte
deriving DecidableEq, Repr

/-- The sections after the header, one after the other to the end. -/
def sectionsOf : Nat → List Byte → Option (List Section)
  | 0, bs => if bs.isEmpty then some [] else none
  | n + 1, bs =>
    let h (a k : Nat) : Nat := leNat ((bs.drop a).take k)
    let len := h 4 4
    if bs.length < 16 + len then none
    else (sectionsOf n (bs.drop (16 + len))).map fun r =>
      { typ := h 0 2, rank := h 2 2, off := h 8 8, pay := (bs.drop 16).take len } :: r

/-- R337: the header holds: magic, version, length and hash. -/
def imageHeader (bs : List Byte) : Bool :=
  let h (a k : Nat) : Nat := leNat ((bs.drop a).take k)
  decide (64 ≤ bs.length) && bs.take 4 == ascii "GXSP" && h 4 2 == 1 && h 8 4 == bs.length &&
  Config.sha3 (bs.drop 64) == (bs.drop 32).take 32

/-- Bytes of a list replaced from an offset on. -/
def patch (bs : List Byte) (off : Nat) (w : List Byte) : List Byte :=
  bs.take off ++ w ++ bs.drop (off + w.length)

/-- R338: one relocation of section `k` at byte `off`; none where it names a rank, kind or place outside its
range. -/
def Chip.relocate (c : Chip) (t code data : Nat) (ss : List Section) (off k kind : Nat) :
    Option (List Section) :=
  match ss[k]? with
  | none => none
  | some x =>
    if x.pay.length < off + 8 then none
    else
      let w := leNat ((x.pay.drop off).take 8)
      let new : Option Nat := match kind with
        | 0 => some (w + code)
        | 1 => some (w + data)
        | 2 => (c.rankSite t (bitsOf w 63 48)).map fun i => storeBase i + bitsOf w 14 0
        | _ => none
      new.map fun y => ss.set k { x with pay := patch x.pay off (leBytes 8 y) }

/-- All relocations of an image, in order. -/
def Chip.relocateAll (c : Chip) (t code data : Nat) (ss : List Section) : Option (List Section) :=
  let rels := (ss.filter fun x => x.typ == 4).flatMap fun x =>
    (List.range (x.pay.length / 8)).map fun q => leNat ((x.pay.drop (8 * q)).take 8)
  rels.foldl (fun o r => o.bind fun ss => c.relocate t code data ss (bitsOf r 31 0) (bitsOf r 47 32) (bitsOf r 55 48))
    (some ss)

/-- R337: a section is well formed and its rank is held by a site of the Tent (R349). -/
def Chip.sectionOk (c : Chip) (t : Nat) (x : Section) : Bool :=
  let ranked := (c.rankSite t x.rank).isSome
  match x.typ with
  | 1 => x.rank == 0
  | 2 => ranked && decide (x.off + x.pay.length ≤ 0x8000)
  | 3 => x.rank == 0 && x.off == 0 && x.pay.length % 32 == 0 &&
      (List.range (x.pay.length / 32)).all fun q =>
        (c.rankSite t (leNat ((x.pay.drop (32 * q)).take 4))).isSome
  | 4 => x.rank == 0 && x.off == 0 && x.pay.length % 8 == 0
  | 5 => ranked && x.off == 0 && x.pay.length == 64
  | _ => false

/-- The entries of a launch-table section. -/
def launchEntries (code : Nat) (pay : List Byte) : List LaunchEntry :=
  (List.range (pay.length / 32)).map fun q =>
    let h (a k : Nat) : Nat := leNat ((pay.drop (32 * q + a)).take k)
    { rank := h 0 4, thread := h 4 1, trigger := h 5 1, pc := (code + h 8 8) % 2 ^ 64,
      arg := BitVec.ofNat 64 (h 16 8), index := q }

/-- SITE_ACTX_CFG as it is written (R159, R336): the job of a context is created, in its turn. -/
def Chip.wActxCfg (c : Chip) (n s a : Nat) (x : Word) : Nat × Chip :=
  match c.logicalOf n s with
  | none => (Status.ok, c)
  | some i =>
    let w := bitsOf x.toNat 31 0
    let off := bitsOf (c.actxReg .siteActxTable i a) 14 0
    if c.actxRefused i off w then (Status.badParam, c)
    else
      let c := c.put { name := .siteActxCfg, idx := [n, s, a] } (BitVec.ofNat 64 w)
      (Status.ok, c.queueCtx i (.create a (BitVec.ofNat 64 w)) a fun c => c.actxCreate i a w)

/-- What a section does when it is loaded. -/
def Chip.loadSection (c : Chip) (t code : Nat) (x : Section) : Chip :=
  match x.typ, c.rankSite t x.rank with
  | 1, _ => c.store (code + x.off) x.pay
  | 2, some i => c.store (storeBase i + x.off) x.pay
  | 3, _ => c.setTent t { c.tent t with launch := launchEntries code x.pay }
  | 5, some i =>
    let n := i / 768
    let s := c.physOf i
    (List.range 4).foldl (fun c a =>
      let h (q : Nat) : Word := BitVec.ofNat 64 (leNat ((x.pay.drop (16 * a + 4 * q)).take 4))
      let c := c.put { name := .siteActxTable, idx := [n, s, a] } (h 1)
      let c := c.put { name := .siteActxRseedLo, idx := [n, s, a] } (h 2)
      let c := c.put { name := .siteActxRseedHi, idx := [n, s, a] } (h 3)
      (c.wActxCfg n s a (h 0)).2) c
  | _, _ => c

/-- IMAGE_LOAD (R337 to R339, R421). -/
def Chip.mpImageLoad (c : Chip) (m : Cmd) : Chip :=
  let t := m.tent
  let len := m.word 1
  let code := m.word 2
  let data := m.word 3
  let slot := bitsOf (m.word 4) 1 1
  if m.stray (2 ^ 48 - 1) ∨ 2 ^ 32 ≤ len ∨ bitsOf (m.word 4) 63 2 ≠ 0 then c.finish 0x0304 m Status.badParam
  else if ¬ c.admits t .r m.p len then c.finish 0x0304 m Status.notPermitted
  else
    let bs := c.bytes m.p len
    if ¬ imageHeader bs then c.finish 0x0304 m Status.badParam
    else match sectionsOf (leNat ((bs.drop 6).take 2)) (bs.drop 64) with
      | none => c.finish 0x0304 m Status.badParam
      | some ss =>
        if ¬ ss.all (fun x => c.sectionOk t x) then c.finish 0x0304 m Status.badParam
        else match c.relocateAll t code data ss with
          | none => c.finish 0x0304 m Status.badParam
          | some ss =>
            let hash := Config.sha3 bs
            let codes := ss.filter fun x => x.typ == 1
            if bitOf (m.word 4) 0 ∧ ¬ (c.slotInfo t slot).images.contains hash then
              c.finish 0x0304 m Status.signatureFail
            else if ¬ codes.all fun x => inMemory (code + x.off) x.pay.length ∧
                c.admits t .w (code + x.off) x.pay.length then c.finish 0x0304 m Status.notPermitted
            else
              let c := c.setTent t { c.tent t with images := (c.tent t).images ++ [hash] }
              (ss.foldl (fun c x => c.loadSection t code x) c).acceptFinish 0x0304 m Status.ok

def execImageLoad (m : Cmd) (s : State) : Outcome :=
  onHost m s fun c => c.mpReceive 0x0304 m [] fun c => c.mpImageLoad m

/-! ### JOB commands of Dales and sites -/

/-- JOB_DALE (R424). -/
def Chip.hwJobDale (c : Chip) (m : Cmd) : Chip :=
  if m.p % 32 ≠ 0 ∨ (m.p = 0 ∧ ¬ m.msgcpl) then c.finish 0x0401 m Status.badParam
  else
    let compl := if m.p = 0 then none else some m.p
    let r := c.enqueueDale { tent := m.tent, tag := m.tag, msgcpl := m.msgcpl, compl := compl, desc := m.words }
    r.2.finish 0x0401 m r.1

def execJobDale (m : Cmd) (s : State) : Outcome :=
  onHost m s fun c => c.hwReceive 0x0401 m fun c => c.hwJobDale m

/-- JOB_LAUNCH (R329): a start by command carries no spawning thread. -/
def Chip.hwJobLaunch (c : Chip) (m : Cmd) : Chip :=
  let r := c.requestStart m.tent m.p { pc := m.word 1, arg := BitVec.ofNat 64 (m.word 2), src := 0 }
  r.2.finish 0x0403 m r.1

def execJobLaunch (m : Cmd) (s : State) : Outcome :=
  onHost m s fun c => c.hwReceive 0x0403 m fun c => c.hwJobLaunch m

end Sys2Proof.Machine
end

