-- ==== Sys2Proof/Machine/Coders.lean ====
section
/-!
DEFINITION. Sys2Proof/Machine/Coders.lean: the LDPC and polar coders and the HARQ directory (R391 to R401),
JOB_CODER (R424), and the writes of the DEC_ registers (R403).
-/

namespace Sys2Proof.Machine

/-! ### Descriptors (R392) -/

structure CoderDesc where
  kind  : Nat
  bg    : Nat
  rv    : Nat
  ndi   : Bool
  iter  : Nat
  hidx  : Nat
  tbs   : Nat
  g     : Nat
  rnti  : Nat
  proc  : Nat
  inp   : Nat
  out   : Nat
  report : Nat
  deadline : Nat
  done  : Nat
deriving DecidableEq, Repr

def CoderDesc.ofWords (ws : List Word) : CoderDesc :=
  let w (k : Nat) : Nat := (ws.getD k 0).toNat
  let polar := bitsOf (w 0) 1 0 == 2
  { kind := bitsOf (w 0) 1 0, bg := bitsOf (w 0) 2 2, rv := bitsOf (w 0) 7 6, ndi := bitOf (w 0) 10,
    iter := bitsOf (w 0) 15 11 + 1, hidx := bitsOf (w 0) 39 20,
    tbs := if polar then bitsOf (w 1) 10 0 else bitsOf (w 1) 20 0, g := bitsOf (w 1) 63 32,
    rnti := bitsOf (w 2) 47 32, proc := bitsOf (w 2) 52 48, inp := bitsOf (w 3) 47 0, out := bitsOf (w 4) 47 0,
    report := bitsOf (w 5) 47 0, deadline := bitsOf (w 6) 31 0, done := bitsOf (w 7) 47 0 }

/-- Reserved fields of a descriptor that are not zero. -/
def coderReserved (ws : List Word) : Bool :=
  let w (k : Nat) : Nat := (ws.getD k 0).toNat
  w 0 &&& 0xFFFFFF00000C0000 != 0 || w 1 &&& 0xFFE00000 != 0 || w 2 &&& 0xFFE0000080000000 != 0 ||
  (bitsOf (w 0) 1 0 == 2 && bitsOf (w 1) 20 11 != 0) ||
  [3, 4, 5, 7].any (fun k => bitsOf (w k) 63 48 != 0) || w 6 &&& 0xFFFF800000000000 != 0

/-- Code blocks of TS 38.212, clause 5.2.2 for LDPC and 6.3.1.2 for UCI (R392, R395). -/
def CoderDesc.blocks (d : CoderDesc) : Nat :=
  if d.kind = 2 then (if 1013 ≤ d.tbs ∨ (360 ≤ d.tbs ∧ 1088 ≤ d.g) then 2 else 1)
  else
    let b := d.tbs + (if 3824 < d.tbs then 24 else 16)
    let k := if d.bg = 0 then 8448 else 3840
    if b ≤ k then 1 else ceilDiv b (k - 24)

/-- Bits the work reads and bits it writes. -/
def CoderDesc.inBytes (d : CoderDesc) : Nat := if d.kind = 1 then ceilDiv d.tbs 8 else d.g

def CoderDesc.outBits (d : CoderDesc) : Nat := if d.kind = 1 then d.g else d.tbs

def CoderDesc.outBytes (d : CoderDesc) : Nat := ceilDiv d.outBits 8

/-- The regions of a descriptor with the permission each needs (R392). -/
def CoderDesc.regions (d : CoderDesc) : List (Perm × Nat × Nat) :=
  [(.r, d.inp, d.inBytes), (.w, d.out, d.outBytes), (.w, d.report, 32), (.w, d.done, 32)]

/-- R392: the descriptor breaks a rule of its own. -/
def CoderDesc.bad (d : CoderDesc) (ws : List Word) : Bool :=
  coderReserved ws || d.kind == 3 || d.report % 32 != 0 || d.done % 32 != 0 ||
  (if d.kind = 2 then decide (d.tbs < 12 ∨ 1706 < d.tbs)
   else decide (d.tbs = 0 ∨ d.g < d.tbs ∨ 256 < d.blocks)) ||
  d.regions.any fun r => !inMemory r.2.1 r.2.2

/-- R397: a decode's hidx lies outside its Tent's range. -/
def Chip.harqOutside (c : Chip) (t : Nat) (d : CoderDesc) : Bool := d.kind == 0 && !c.harqOwn t d.hidx

/-- R391, R424: what enqueueing a descriptor answers, OK where it is queued. A region that touches a
protected level image is NOT_PERMITTED (R163); any other breach of R392 is BAD_PARAM. -/
def Chip.enqueueCoder (c : Chip) (j : CoderJob) : Nat × Chip :=
  let d := CoderDesc.ofWords j.desc
  let mine := (c.coderJobs.filter fun x => x.tent == j.tent && x.started == 0).length
  if 64 ≤ mine then (Status.queueFull, c)
  else if ¬ c.tentOpen j.tent then (Status.notPermitted, c)
  else if d.bad j.desc ∨ c.harqOutside j.tent d then (Status.badParam, c)
  else if j.tent ≠ 0 ∧ d.regions.any (fun r => c.touchesImage r.2.1 r.2.2) then (Status.notPermitted, c)
  else if ¬ d.regions.all (fun r => c.admits j.tent r.1 r.2.1 r.2.2) then (Status.badParam, c)
  else
    let job : CoderJob := { j with id := c.coderNext }
    let c : Chip := { c with coderJobs := c.coderJobs ++ [job], coderNext := c.coderNext + 1 }
    (Status.ok, c)

/-- JOB_CODER (R424). -/
def Chip.hwJobCoder (c : Chip) (m : Cmd) : Chip :=
  if m.stray 0 then c.finish 0x0402 m Status.badParam
  else
    let r := c.enqueueCoder { id := 0, tent := m.tent, tag := m.tag, msgcpl := m.msgcpl, desc := m.words }
    r.2.finish 0x0402 m r.1

def execJobCoder (m : Cmd) (s : State) : Outcome :=
  onHost m s fun c => c.hwReceive 0x0402 m fun c => c.hwJobCoder m

/-- The completion record of a coder job (R427). -/
def coderRecord (t : Nat) (tag : BitVec 16) (status : Nat) (d : CoderDesc) : Completion :=
  { tag := tag.toNat, status := status, tent := t, coder := true, stat := d.report }

/-- The descriptor at an address is read: it is queued, or ends at once in its completion record (R391). -/
def Chip.submitCoder (c : Chip) (t a : Nat) : Chip :=
  let ws := (List.range 8).map fun k => BitVec.ofNat 64 (c.num (a + 8 * k) 8)
  let r := c.enqueueCoder { id := 0, tent := t, desc := ws }
  if r.1 = Status.ok then r.2
  else
    let d := CoderDesc.ofWords ws
    let addr := if inMemory d.done 32 ∧ d.done % 32 = 0 ∧ c.admits t .w d.done 32 then some d.done else none
    r.2.complete (coderRecord t 0 r.1 d) addr false

/-- The first descriptor address a Tent has written is taken once the read of it is admitted (R38). -/
def Chip.takeSubmit (c : Chip) (t : Nat) : Chip :=
  match c.submits.find? fun p => p.1 == t with
  | none => c
  | some p =>
    let r := c.admitAll t (memAccess p.2 64)
    if r.2 then ({ r.1 with submits := r.1.submits.erase p } : Chip).submitCoder t p.2 else r.1

/-- DEC_SUBMIT (R391): the descriptor at the address is read in turn. -/
def Chip.wDecSubmit (c : Chip) (t : Nat) (x : Word) : Nat × Chip :=
  let a := bitsOf x.toNat 47 0
  if a % 64 ≠ 0 ∨ ¬ inMemory a 64 then (Status.badParam, c)
  else if ¬ c.admits t .r a 64 then (Status.notPermitted, c)
  else (Status.ok, ({ c with submits := c.submits ++ [(t, a)] } : Chip).takeSubmit t)

/-! ### The HARQ directory (R397 to R401) -/

def Chip.harq (c : Chip) (h : Nat) : Harq := Tab.get c.harqs h {}

def Chip.setHarq (c : Chip) (h : Nat) (e : Harq) : Chip := { c with harqs := Tab.set c.harqs h e }

/-- R397: address of the soft buffer of an index of a Tent. -/
def Chip.harqAddr (c : Chip) (t h : Nat) : Nat :=
  c.f Fld.decHarqCfg_pool [t] + (h - c.f Fld.decHarqCfg_first [t]) * c.f Fld.decHarqCfg_slotKib [t] * 1024

/-- An entry is invalidated, once it is not busy (R398). -/
def Chip.invalidateHarq (c : Chip) (h : Nat) : Chip :=
  let e := c.harq h
  if e.busy then c.setHarq h { e with clear := true }
  else if e.valid then c.setHarq h { busy := false } else c

/-- R401: every entry is invalid. -/
def Chip.clearHarqs (c : Chip) : Chip :=
  let keep : List (Nat × Harq) := c.harqs.filterMap fun p =>
    if p.2.busy then some (p.1, { busy := true, clear := true }) else none
  { c with harqs := keep }

/-- An entry lies in one of some ranges of indices, each its first and its count. -/
def inRanges (rs : List (Nat × Nat)) (h : Nat) : Bool := rs.any fun r => decide (r.1 ≤ h ∧ h < r.1 + r.2)

/-- R397: a sweep of ranges invalidates every entry of them once none of them is busy. -/
def Chip.settleSweeps (c : Chip) : Chip :=
  let due := c.sweeps.filter fun rs => !c.harqs.any fun p => p.2.busy && inRanges rs p.1
  { c with sweeps := c.sweeps.filter fun rs => !due.contains rs
           harqs := c.harqs.filter fun p => !due.any fun rs => inRanges rs p.1 }

/-- Two ranges have an index in common; a range of no index overlaps none. -/
def rangesMeet (a b : Nat × Nat) : Bool := decide (max a.1 b.1 < min (a.1 + a.2) (b.1 + b.2))

/-- DEC_HARQ_CFG (R397). -/
def Chip.wHarqCfg (c : Chip) (t : Nat) (x0 x1 : Word) : Nat × Chip :=
  let kib := bitsOf x0.toNat 55 44
  let count := bitsOf x0.toNat 40 20
  let first := bitsOf x0.toNat 19 0
  let pool := bitsOf x1.toNat 47 0
  let size := count * kib * 1024
  let clash := (List.range 64).any fun u =>
    u != t && rangesMeet (first, count) (c.f Fld.decHarqCfg_first [u], c.f Fld.decHarqCfg_count [u])
  if kib = 0 ∨ 1048576 < first + count ∨ clash ∨ pool % 256 ≠ 0 ∨
      (size ≠ 0 ∧ (¬ inGddr (pool + size - 1) ∨ ¬ c.admits t .r pool size ∨ ¬ c.admits t .w pool size)) then
    (Status.badParam, c)
  else
    let old := (c.f Fld.decHarqCfg_first [t], c.f Fld.decHarqCfg_count [t])
    let c := c.putWords .decHarqCfg [t]
      [BitVec.ofNat 64 (kib * 2 ^ 44 + count * 2 ^ 20 + first), BitVec.ofNat 64 pool]
    (Status.ok, ({ c with sweeps := c.sweeps ++ [[old, (first, count)]] } : Chip).settleSweeps)

/-- DEC_HARQ_CLR (R398). -/
def Chip.wHarqClr (c : Chip) (x : Word) : Nat × Chip :=
  (Status.ok, c.invalidateHarq (bitsOf x.toNat 19 0))

/-- The DEC_HARQ_PEEK word of the entry DEC_HARQ_SEL names. -/
def Chip.harqPeek (c : Chip) : Word :=
  let e := c.harq (c.f Fld.decHarqSel_index)
  BitVec.ofNat 64 (e.valid.toNat * 2 ^ 63 + e.ndi.toNat * 2 ^ 62 + e.tent * 2 ^ 56 + e.rnti * 2 ^ 40 +
    e.proc * 2 ^ 35 + e.rv * 2 ^ 33 + min e.tx 15 * 2 ^ 29 + e.busy.toNat * 2 ^ 28 + e.bytes)

/-! ### Running -/

def Chip.coderJob (c : Chip) (id : Nat) : Option CoderJob := c.coderJobs.find? fun j => j.id == id

def Chip.setCoderJob (c : Chip) (j : CoderJob) : Chip :=
  { c with coderJobs := c.coderJobs.map fun x => if x.id = j.id then j else x }

/-- Units of a kind at work: code blocks that run. -/
def Chip.coderBusy (c : Chip) (kind : Nat) : Nat :=
  ((c.coderJobs.filter fun j => (CoderDesc.ofWords j.desc).kind == kind).map fun j => j.running.length).sum

/-- Units of a kind: 16 decoder cores, one encoder, 8 polar decoders (R16). -/
def coderUnits : Nat → Nat
  | 0 => 16
  | 1 => 1
  | _ => 8

/-- R398: what the directory says of a decode: the soft values decoded from, the flags, and the number of
transmissions. -/
def Chip.harqDecode (c : Chip) (t : Nat) (d : CoderDesc) (new : List Int) : List Int × Nat × Nat :=
  let e := c.harq d.hidx
  if ¬ e.valid then (new, if d.rv = 0 then 1 else 5, 1)
  else if e.rnti ≠ d.rnti ∨ e.proc ≠ d.proc ∨ e.tbs ≠ d.tbs ∨ e.g ≠ d.g then (new, 9, 1)
  else if e.ndi ≠ d.ndi then (new, 1, 1)
  else
    let bs := c.bytes (c.harqAddr t d.hidx) e.bytes
    let comb := new.mapIdx fun k x => clampInt (-127) 127 (4 * Fmt.a4.elem bs k + x)
    (comb, 2, e.tx + 1)

/-- R38: what a decode that combines reads of its soft buffer, and what one that stores writes. -/
def Chip.harqReads (c : Chip) (t : Nat) (d : CoderDesc) : List (Gate × Nat) :=
  if d.kind = 0 ∧ (c.harqDecode t d []).2.1 = 2 then memAccess (c.harqAddr t d.hidx) (c.harq d.hidx).bytes else []

def Chip.harqWrites (c : Chip) (j : CoderJob) : List (Gate × Nat) :=
  let d := CoderDesc.ofWords j.desc
  let bytes := ceilDiv j.soft.length 2
  if d.kind = 0 ∧ bytes ≤ c.f Fld.decHarqCfg_slotKib [j.tent] * 1024 ∧ ¬ Config.tbCrc j.desc j.soft ∧
      ¬ (c.harq d.hidx).clear then memAccess (c.harqAddr j.tent d.hidx) bytes
  else []

/-- The first start of a descriptor: its input is read, and a decode looks at its entry (R393, R398). -/
def Chip.coderBegin (c : Chip) (j : CoderJob) : Chip × CoderJob :=
  let d := CoderDesc.ofWords j.desc
  let bs := c.bytes d.inp d.inBytes
  match d.kind with
  | 1 => (c, { j with soft := bs.map fun b => (b.toNat : Int) })
  | 0 =>
    let llr := bs.map fun b => max (-127) (signedOf 8 b.toNat)
    let r := c.harqDecode j.tent d (Config.softValues j.desc llr)
    let e : Harq := { c.harq d.hidx with busy := true }
    (c.setHarq d.hidx e, { j with soft := r.1, flags := r.2.1, tx := r.2.2 })
  | _ => (c, { j with soft := bs.map fun b => max (-127) (signedOf 8 b.toNat) })

/-- The entry a decode needs is busy with another descriptor (R400). -/
def Chip.harqWaits (c : Chip) (j : CoderJob) : Bool :=
  let d := CoderDesc.ofWords j.desc
  d.kind == 0 && j.started == 0 && (c.harq d.hidx).busy

/-- Iterations a code block is charged (R38, R391). -/
def CoderDesc.charge (d : CoderDesc) : Nat := if d.kind = 0 then d.iter else 1

/-- R51: the credits of the unit that starts, none where it holds them and no cut has chosen it. -/
def Chip.coderCredit (c : Chip) (kind : Nat) : Option Asker :=
  match kind with
  | 0 => if c.decCredit - c.shedCount .decoder ≤ c.coderBusy 0 then some .decoder else none
  | 1 => if c.encCredit - c.shedCount .encoder ≤ c.coderBusy 1 then some .encoder else none
  | _ => none

/-- CODE_BLOCK_START (R385, R391): the next code block of a Tent's first descriptor with blocks left passes
the DEC gate, `now` cycles of the radio clock after the current tick. -/
def Chip.codeBlockStart (c : Chip) (t now : Nat) : Chip :=
  let c := c.takeSubmit t
  let next := c.coderJobs.find? fun j =>
    j.tent == t && j.status.isNone && decide (j.started < (CoderDesc.ofWords j.desc).blocks)
  match next with
  | none => c
  | some j =>
    let d := CoderDesc.ofWords j.desc
    let gate : Gate := .coder (d.kind == 2)
    if c.harqWaits j ∨ coderUnits d.kind ≤ c.coderBusy d.kind ∨ c.device ≠ .service then c
    else if c.deadlineReached d.deadline now then
      let j : CoderJob := { j with status := some Status.late, flags := j.flags ||| 32 }
      (c.setCoderJob j).ev .decEvLate
    else match c.coderCredit d.kind with
      | some a => (c.askCredits a).wait gate t d.charge true
      | none =>
        let mem := if j.started = 0 then
            memAccess d.inp d.inBytes ++ memAccess d.out d.outBytes ++ memAccess d.report 32 ++ memAccess d.done 32 ++
              c.harqReads t d
          else []
        let r := c.admitAll t ((gate, d.charge) :: mem) (some gate)
        if ¬ r.2 then r.1
        else
          let b := if j.started = 0 then r.1.coderBegin j else (r.1, j)
          let job : CoderJob := { b.2 with started := j.started + 1, running := b.2.running ++ [(j.started, c.seenOf gate)] }
          b.1.setCoderJob job

def execCodeBlockStart (t now : Nat) (s : State) : Outcome :=
  onUnits (tentOk t) s fun c => c.codeBlockStart t now

/-- R42: iterations not used return to the counter of the frame that admitted them, if it still runs. -/
def Chip.returnIters (c : Chip) (t frame n : Nat) : Chip :=
  if frame = c.bud.frame then
    let c : Chip := { c with bud := { c.bud with used := Tab.set c.bud.used (t, 5) (c.usedOf t 5 - n) } }
    { c with act := Tab.set c.act (t, 5) (Tab.get c.act (t, 5) 0 - n) }
  else c

/-- The bytes of the output that code block `b` of `n` gives. -/
def blockSpan (bits n b : Nat) : Nat × Nat := (b * bits / n / 8, ceilDiv ((b + 1) * bits / n) 8)

/-- CODE_BLOCK_END (R393): block `b` of a descriptor ends: its output is written, its unused iterations go
back (R42). -/
def Chip.codeBlockEnd (c : Chip) (id b : Nat) : Chip :=
  match c.coderJob id with
  | none => c
  | some j =>
    match j.running.find? fun p => p.1 == b with
    | none => c
    | some p =>
      let d := CoderDesc.ofWords j.desc
      let iters := if d.kind = 0 then min d.iter (max 1 (Config.blockIters j.desc j.soft b)) else 1
      let crc := d.kind == 1 || Config.blockCrc j.desc j.soft b
      let span := blockSpan d.outBits d.blocks b
      let out := ((Config.codedBits j.desc j.soft ++ List.replicate d.outBytes 0).drop span.1).take (span.2 - span.1)
      let c := (c.store (d.out + span.1) out).returnIters j.tent p.2 (d.charge - iters)
      let failed : Option Nat := if crc then j.failed else some (min (j.failed.getD b) b)
      let job : CoderJob :=
        { j with running := j.running.filter (fun q => q.1 != b), ended := j.ended ++ [b],
                 iters := j.iters + iters, okBlocks := j.okBlocks + crc.toNat, failed := failed }
      c.setCoderJob job

def execCodeBlockEnd (id b : Nat) (s : State) : Outcome := onChip s fun c => c.codeBlockEnd id b

/-- R398, R399: what a decode leaves in its entry. -/
def Chip.harqStore (c : Chip) (j : CoderJob) (pass : Bool) : Chip × Nat :=
  let d := CoderDesc.ofWords j.desc
  let e := c.harq d.hidx
  let bytes := ceilDiv j.soft.length 2
  let room := c.f Fld.decHarqCfg_slotKib [j.tent] * 1024
  if room < bytes then ((c.setHarq d.hidx {}).ev .decEvOvf, 16)
  else if pass ∨ e.clear then (c.setHarq d.hidx {}, 0)
  else
    let r := Gen.mapM (fun g x => let y := g.roundDiv x 4
      (clampInt (-7) 7 y.1, y.2)) (c.gen .basecamp) j.soft
    let c := (c.setGen .basecamp r.2).store (c.harqAddr j.tent d.hidx) (Fmt.a4.pack r.1)
    (c.setHarq d.hidx { valid := true, ndi := d.ndi, tent := j.tent, rnti := d.rnti, proc := d.proc,
                        rv := d.rv, tx := j.tx, bytes := bytes, tbs := d.tbs, g := d.g }, 0)

/-- The coder report (R396). -/
def coderReport (j : CoderJob) (d : CoderDesc) (crc flags : Nat) : List Byte :=
  leBytes 4 j.iters ++ leBytes 2 d.blocks ++ leBytes 2 j.okBlocks ++ leBytes 1 crc ++ leBytes 1 flags ++
  leBytes 2 j.tx ++ leBytes 4 (j.failed.getD 0xFFFFFFFF) ++ leBytes 16 0

/-- CODER_COMPLETE (R396, R398): a descriptor whose blocks have ended writes its HARQ state, once the MEM grains of it are
admitted (R38; one that ends otherwise than OK does not wait for them), its report and its completion record. -/
def Chip.coderComplete (c : Chip) (id : Nat) : Chip :=
  match c.coderJob id with
  | none => c
  | some j =>
    let d := CoderDesc.ofWords j.desc
    let whole := j.ended.length == d.blocks
    let m := if whole ∧ j.status.isNone then c.admitAll j.tent (c.harqWrites j) (some (.coder (d.kind == 2))) else (c, true)
    if ¬ j.running.isEmpty ∨ (j.status.isNone ∧ j.ended.length < d.blocks) then c
    else if ¬ m.2 then m.1
    else
      let c := m.1
      let pass := whole && Config.tbCrc j.desc j.soft
      let crc := if d.kind = 1 ∨ ¬ whole then 0xFF else pass.toNat
      let h := if d.kind ≠ 0 ∨ j.started = 0 then (c, 0)
        else if whole then c.harqStore j pass
        else
          let e := c.harq d.hidx
          (c.setHarq d.hidx (if e.clear then {} else { e with busy := false }), 0)
      let c := h.1.store d.report (coderReport j d crc (j.flags ||| h.2))
      let c := c.complete (coderRecord j.tent j.tag (j.status.getD Status.ok) d) (some d.done) j.msgcpl
      let c := c.unwaitJob (.coder (d.kind == 2)) j.tent
      ({ c with coderJobs := c.coderJobs.filter (fun x => x.id != id) } : Chip).settleSweeps

def execCoderComplete (id : Nat) (s : State) : Outcome := onChip s fun c => c.coderComplete id

/-- Every descriptor, queued or running, is to end with a status (R396, R463, R473). -/
def Chip.endCoders (c : Chip) (status : Nat) : Chip :=
  let subs := c.submits
  let c := subs.foldl (fun c p => c.submitCoder p.1 p.2) { c with submits := [] }
  let stop (j : CoderJob) : CoderJob := if j.status.isNone then { j with status := some status } else j
  { c with coderJobs := c.coderJobs.map stop }

/-- The DEC_STATE word. -/
def Chip.decState (c : Chip) : Word :=
  let queued := (c.coderJobs.filter fun j => j.started == 0).length
  BitVec.ofNat 64 (queued % 2 ^ 16 * 2 ^ 16 + c.coderBusy 2 * 2 ^ 8 + c.coderBusy 0)

end Sys2Proof.Machine
end

