-- ==== Sys2Proof/Machine/Dale.lean ====
section
/-!
DEFINITION. Sys2Proof/Machine/Dale.lean: the events of the Dales (file 04 of spec/, and R226, R227 of
file 07): job start, lock wait, reload, strobes, batches, colour tags, job completion.
-/

namespace Sys2Proof.Machine

def daleOk (v d : Nat) : Bool := decide (v < 12 ∧ d < 12)

/-- Work may run on the Dale: SERVICE, and neither drained nor behind a failed channel. -/
def Chip.daleServes (c : Chip) (k : Nat) : Bool := c.device == .service && !(c.dale k).drained

/-- A new job: its trackers hold nothing (R82, R213). -/
def newRun (j : DaleJob) (seeds : List Nat) : DaleRun :=
  { job := j, phase := .credit, trackers := List.replicate 64 {}, seeds := seeds }

/-- The other Dale of a pair 2k, 2k + 1 (R230). -/
def pairMate (k : Nat) : Nat := if k % 2 = 0 then k + 1 else k - 1

/-- R230: the link of a Dale's pair in force: the written one while both are idle. -/
def Chip.linkOn (c : Chip) (k : Nat) : Bool :=
  let v := k / 12
  let b := k % 12 / 2
  if (c.dale k).run.isNone ∧ (c.dale (pairMate k)).run.isNone then bitOf (c.f Fld.drvPair_link [v]) b
  else Tab.get c.pairLink (v, b) false

/-- R230: the other Dale of a linked pair. -/
def Chip.linked (c : Chip) (k : Nat) : Option Nat := if c.linkOn k then some (pairMate k) else none

/-- R230: a Dale stops being idle: the link of its pair stays as it is until both are idle. -/
def Chip.latchPair (c : Chip) (k : Nat) : Chip :=
  { c with pairLink := Tab.set c.pairLink (k / 12, k % 12 / 2) (c.linkOn k) }

/-- R137: a job comes to the head: its credit step is asked for where the Dale is idle, else reload and
colour change begin; a bank that changed owner ends it (R111); with lock_wait 0 a low lock-good ends it
at once (R131). -/
def Chip.jobStart (c : Chip) (k : Nat) : Chip :=
  let dl := c.dale k
  if dl.run.isSome ∨ ¬ c.daleServes k then c
  else match nextJob dl.lastTent dl.queue with
    | none => c
    | some j =>
      let d := Desc.ofWords j.desc
      let run := newRun j (c.jobSeeds j)
      let c := (c.latchPair k).setDale k { dl with run := some run, queue := dl.queue.erase j }
      -- DALE_SIDE counts rows of the running job
      let c := c.setF Fld.daleSide_ready [k / 12, k % 12] 0
      if j.tent ≠ 0 ∧ j.tent ≠ c.f Fld.valeBank_owner [k / 12, d.bank] then
        c.stopRun k 0 Status.notPermitted
      else if c.f Fld.daleCtl_lockWait [k / 12, k % 12] = 0 ∧
          ¬ c.flag Fld.daleState_lockGood [k / 12, k % 12] then
        (c.stopRun k 0 Status.lockLost).ev .daleEvLock [k / 12, k % 12]
      else if dl.active then c.prepareRun k
      else ((c.askCredits (.dale k)).wait (.dale k) j.tent 0 true)

/-- JOB_START (R137). -/
def execJobStart (v d : Nat) (s : State) : Outcome :=
  onUnits (daleOk v d) s fun c => c.jobStart (12 * v + d)

/-- LOCK_WAIT_EXPIRE (R131): lock_wait has passed since the job came to the head. -/
def Chip.lockWaitExpire (c : Chip) (k : Nat) : Chip :=
  match (c.dale k).run with
  | none => c
  | some r =>
    if r.lockWait ∧ r.phase ≠ .ended ∧ r.stop.isNone then
      if c.flag Fld.daleState_lockGood [k / 12, k % 12] then
        c.mapRun k fun r => { r with lockWait := false }
      else (c.stopRun k 0 Status.lockLost).ev .daleEvLock [k / 12, k % 12]
    else c

def execLockWaitExpire (v d : Nat) (s : State) : Outcome :=
  onUnits (daleOk v d) s fun c => c.lockWaitExpire (12 * v + d)

/-- RELOAD_STAGED (R133 step 3): the staging write is complete and awaits its strobe. -/
def Chip.reloadStaged (c : Chip) (k : Nat) : Chip :=
  let dl := c.dale k
  if dl.staging.isSome ∧ ¬ dl.staged then
    (c.setDale k { dl with staged := true }).setF Fld.drvDaleState_staged [k / 12, k % 12] 1
  else c

def execReloadStaged (v d : Nat) (s : State) : Outcome :=
  onUnits (daleOk v d) s fun c => c.reloadStaged (12 * v + d)

/-- The Dale is at a batch boundary. -/
def Chip.atBoundary (c : Chip) (k : Nat) : Bool :=
  match (c.dale k).run with
  | none => true
  | some r => r.phase != .batch

/-- R226: a strobe may fall: at a batch boundary, with a complete staging write or none. -/
def Chip.strobeReady (c : Chip) (k : Nat) : Bool :=
  c.atBoundary k && ((c.dale k).staging.isNone || (c.dale k).staged)

/-- R117, R229: a load strobe that falls between the column writes and the swap cancels the column strobe; the columns
are written again. -/
def Rot.restage (r : Rot) : Rot :=
  if r.next = .strobe ∨ r.next = .compare then { r with next := .stage, codes := [] } else r

/-- Cells of a table over those of another. -/
def cellsOver (a b : Tab Nat Nat) : Tab Nat Nat := a ++ b.filter fun x => !(a.any fun y => y.1 == x.1)

/-- R226, R133 step 4, R231, R237: one Dale's strobe: every pair exchanges its roles and the staged tile is the
resident one, while the calibration column keeps its live cells (R228); in slew mode the ramp begins instead. With
nothing staged no output changes (R227). -/
def Chip.strobe (c : Chip) (k : Nat) : Chip :=
  let v := k / 12
  let d := k % 12
  let c := c.count Fld.daleReloads_reloads [v, d]
  let c := c.setDale k { c.dale k with rot := (c.dale k).rot.restage }
  match (c.dale k).staging with
  | none => c
  | some t =>
    let c := c.setF Fld.drvDaleState_staged [v, d] 0
    let c := c.setF Fld.drvDaleState_clamp [v, d] 0
    let c := c.setF Fld.daleState_wmode [v, d]
      (match (c.dale k).run with
       | some r => (Desc.ofWords r.job.desc).wmode
       | none => t.wmode)
    let c := c.setF Fld.daleTile_tile [v, d] t.index
    let c := c.setF Fld.daleTile_epoch [v, d] t.epoch
    let c := c.mapRun k fun r => { r with reloads := r.reloads + 1 }
    let dl := c.dale k
    let c := if dl.slew then
        (c.setDale k { dl with tile := some t, staging := none, staged := false, ramping := true }).setF
          Fld.drvDaleState_ramping [v, d] 1
      else c.setDale k { dl with tile := some t, staging := none, staged := false, settling := true,
                                 live := cellsOver dl.stage dl.live, stage := dl.live }
    c.setDaleState k 3

/-- LOAD_STROBE (R226, R230): both Dales of a linked pair strobe together. -/
def Chip.loadStrobe (c : Chip) (k : Nat) : Chip :=
  if ¬ c.strobeReady k then c
  else match c.linked k with
    | none => c.strobe k
    | some k2 => if c.strobeReady k2 then (c.strobe k).strobe k2 else c

def execLoadStrobe (v d : Nat) (s : State) : Outcome :=
  onUnits (daleOk v d) s fun c => c.loadStrobe (12 * v + d)

/-- HEATER_SETTLED (R133 steps 5 and 6). -/
def Chip.heaterSettled (c : Chip) (k : Nat) : Chip :=
  let dl := c.dale k
  if dl.settling then
    (c.setDale k { dl with settling := false }).setDaleState k 1
  else c

def execHeaterSettled (v d : Nat) (s : State) : Outcome :=
  onUnits (daleOk v d) s fun c => c.heaterSettled (12 * v + d)

/-- R237: a live cell after one pass of a ramp: its code moves towards the staging cell's by at most `by16` codes, and
its range changes at the pass that reaches the code. -/
def rampCell (by16 live target : Nat) : Nat :=
  let n := stepTowards (cellCode live) (cellCode target) by16
  if n = cellCode target then target else cellWord n (cellRange live)

/-- HOLD_CELL_REFRESH (R227, R237): DAC p of a Dale passes over its 66 pairs. Outside a staging write both cells of a
pair are refreshed from the live one; in a ramp each live cell moves towards its staging cell, and when every cell
has reached it the settle begins. A pass over codes of unlike upper parts brings a new selection of units into force
(R219). -/
def Chip.holdRefresh (c : Chip) (k p : Nat) : Chip :=
  let v := k / 12
  let d := k % 12
  let mine := (List.range 66).map fun r => elemIndex r (p / 2) (p % 2)
  let parts := mine.map fun e => upperPart (cellCode (Tab.get (c.dale k).live e 0))
  let c := if parts.any fun t => t != parts.headD 0 then c.takeUnits v (1920 + 132 * d + p) else c
  let dl := c.dale k
  if dl.ramping then
    let step := 16 * c.f Fld.drvDaleCfg_slewStep [v, d]
    let live := dl.stage.filterMap fun x =>
      if mine.contains x.1 then some (x.1, rampCell step (Tab.get dl.live x.1 0) x.2) else none
    let live' := cellsOver live dl.live
    let done := dl.stage.all fun x => Tab.get live' x.1 0 == x.2
    let c := c.setDale k { dl with live := live', ramping := !done, settling := done || dl.settling }
    if done then c.setF Fld.drvDaleState_ramping [v, d] 0 else c
  else if dl.staging.isSome then c
  else
    c.setDale k { dl with stage := (dl.live.filter fun x => mine.contains x.1) ++ dl.stage.filter fun x => !mine.contains x.1 }

def execHoldCellRefresh (v d p : Nat) (s : State) : Outcome :=
  onUnits (daleOk v d && decide (p < 132)) s fun c => c.holdRefresh (12 * v + d) p

/-! ### Batches -/

/-- Everything a batch needs but its allowance: the job prepared and not stopped, its bank lit on its line, the
resident tile strobed and settled, lock-good high. A drain that waits lets a running job go on (R29, R520). -/
def Chip.batchReady (c : Chip) (k : Nat) (r : DaleRun) : Bool :=
  let v := k / 12
  let d := Desc.ofWords r.job.desc
  let dl := c.dale k
  c.device == .service && r.phase == .prepare && r.stop.isNone && r.bound && r.intruded == 0 && !r.needTile &&
  dl.staging.isNone && !dl.settling && !dl.ramping && dl.tile.isSome &&
  c.f Fld.valeBank_state [v, d.bank] == 3 &&
  c.flag Fld.daleState_lockGood [v, k % 12] && decide (r.row < d.nVec)

/-- R135: the set the pointer names at this boundary differs from the resident tile's: reload. -/
def Chip.needsReload (c : Chip) (k : Nat) (j : DaleJob) (t : Tile) : Bool :=
  (Desc.ofWords j.desc).wref && !(((c.dale k).tile.map fun x => sameTile x t).getD false)

/-- The first row of the batch whose scale record fails the check (R76, R141). -/
def Chip.skewRow (c : Chip) (d : Desc) (row rows : Nat) : Option Nat :=
  (List.range rows).findSome? fun n =>
    let j := blockOf d.inKind (row + n)
    if (ScaleRec.ofWord (c.num (d.inScale + 4 * j) 4)).passes d.inKind j then none else some (row + n)

/-- A job stops at the batch that would come next. The record of its first block is checked first, and SCALE_SKEW comes
before every other status of the block (R76, R77). -/
def Chip.stopAtBlock (c : Chip) (k : Nat) (r : DaleRun) (status : Nat) : Chip :=
  let d := Desc.ofWords r.job.desc
  let m := c.admitAll r.job.tent (memAccess (d.inScale + 4 * blockOf d.inKind r.row) 4) (some (.dale k))
  if ¬ m.2 then m.1
  else
    let skew := (m.1.skewRow d r.row 1).isSome
    (m.1.stopRun k r.row (if skew then Status.scaleSkew else status)).settleRun k

/-- The GDDR7 requests of a batch: its scale records and input rows, and with the first one the seed table of word 7
(R361). -/
def batchReads (d : Desc) (row rows : Nat) : List (Gate × Nat) :=
  let b0 := blockOf d.inKind row
  let b1 := blockOf d.inKind (row + rows - 1)
  (if row = 0 ∧ ¬ d.wref ∧ d.seeds ≠ 0 then memAccess d.seeds 128 else []) ++
    memAccess (d.inScale + 4 * b0) (4 * (b1 + 1 - b0)) ++
    ((List.range rows).map fun n => memAccess (d.inBase + (row + n) * d.inStride) d.inRowBytes).flatten

/-- The tag a bank sends for a job (R123, R124): kind 0 job start, 1 frame check. -/
def jobTag (d : Desc) (tent kind : Nat) : Tag :=
  tagOf { vale := d.vale, port := d.dale, bank := d.bank, tent := tent, kind := kind }

/-- R126, R127, R270: a tag due for the batch is not accepted. -/
def Chip.tagRefused (c : Chip) (k : Nat) (r : DaleRun) (sent : Tag) (bad : List (Nat × Option Tag)) :
    Chip :=
  let d := Desc.ofWords r.job.desc
  let c := (c.recordTag k sent bad).ev .daleEvMisroute [k / 12, k % 12]
  let c := if r.tagged then
      c.mapRun k fun r => { r with suspect := if r.tagRow < r.row then some (min r.tagRow (r.suspect.getD r.tagRow)) else r.suspect }
    else if (detected sent bad 64).isNone then
      c.setBank d.vale d.bank { c.bank d.vale d.bank with lossWait := true }
    else c
  (c.stopRun k r.row Status.misroute).settleRun k

/-- R284: the setpoint of a receiver's kind 6 loop takes the quadrature of its trims. -/
def Chip.setQuad (c : Chip) (v d j q : Nat) : Chip :=
  let n := 1150 + 64 * d + j
  if j < 64 ∧ (c.loopWritten v n).kind = 6 then
    let c := c.setF { name := .guyLoop, hi := 59, lo := 32, w := 2 } [v, n] (q * 65536)
    c.setLoop v n { c.loop v n with fresh := true }
  else c

/-- R192, R284: receivers whose waiting trims force a prefix: slice substitutions, and trims 1 ms old, that is
20,000 cycles of the sample clock. -/
def Chip.dueSubsts (c : Chip) (k : Nat) : List Nat :=
  ((c.dale k).subst.filter fun x => x.slice || decide (x.since + 20000 ≤ c.gclk)).map fun x => x.j

/-- R140, R192: the receivers a batch changes: those whose range changes and those whose trims are due. -/
def changedReceivers (old new due : List Nat) : List Nat :=
  (List.range 65).filter fun j => old.getD j 0 != new.getD j 0 || due.contains j

/-- The light of a batch goes out: ranges, prefix, symbols, the scale records as they were checked, the job's seed at
its first batch (R95, R140, R141, R192). -/
def Chip.issueBatch (c : Chip) (k : Nat) (r : DaleRun) (d : Desc) (ks : List Nat) (rows pre changed : Nat) :
    Chip :=
  let v := k / 12
  let dl := c.dale k
  let c := if pre = 48 then dl.subst.foldl (fun c p =>
      (c.put { name := .calRx, idx := [v, k % 12, p.j] } p.word).setQuad v (k % 12) p.j (bitsOf p.word.toNat 39 28)) c
    else c
  let c := c.setRanges k d ks
  let c := if r.row = 0 ∧ d.seed ≠ 0 then c.setGen (.requantDale k) { s := d.seed } else c
  let sym := dl.symbols + pre + rows * d.vecSymbols
  let dl := c.dale k
  let c := c.setDale k { dl with symbols := sym, subst := if pre = 48 then [] else dl.subst }
  let c := c.setF Fld.daleSymbols_units [v, k % 12] (sym / 4096)
  let c := c.mapRun k fun r => { r with
    phase := .batch, rows := rows, prefixed := pre, lockWait := false, switched := false
    recs := (List.range rows).map fun n =>
      (ScaleRec.ofWord (c.num (d.inScale + 4 * blockOf d.inKind (r.row + n)) 4)).scale
    discards := sat32 (r.discards + 48 * changed)
    epoch := ((c.dale k).tile.map fun t => t.epoch).getD 0 }
  c.setDaleState k 4

/-- R140: a batch begins. `now` is the radio time since the current slot's tick in cycles of the radio
timing clock, `bad` what detectors decode in place of a tag that is due. -/
def Chip.batchStart (c : Chip) (k now : Nat) (bad : List (Nat × Option Tag)) : Chip :=
  match (c.dale k).run with
  | none => c
  | some r =>
    let d := Desc.ofWords r.job.desc
    if r.phase = .prepare ∧ r.stop.isNone ∧ r.needTile ∧ (c.dale k).staging.isNone then
      match c.wantedTile r.job with
      | none => c.stopAtBlock k r Status.setNotActive
      | some t => c.beginReload k r.job.tent t
    else if ¬ c.batchReady k r then c
    else match c.wantedTile r.job with
      | none => c.stopAtBlock k r Status.setNotActive
      | some t =>
        if c.needsReload k r.job t then
          -- R135: from this batch on the job runs on the new epoch, its ranges restart from its seeds
          let c := c.mapRun k fun r => { r with
            newEpoch := some (r.newEpoch.getD r.row), needTile := true, trackers := List.replicate 64 {} }
          c.beginReload k r.job.tent t
        else if c.deadlineReached d.deadline now then
          c.stopAtBlock k r Status.late
        else
          let rows := min d.batch (d.nVec - r.row)
          let ks := wantedRanges d r
          -- a change of direction changes every receiver (R122)
          let changed := if r.switched then 64
            else (changedReceivers (c.rangesNow k d.nOut) ks (c.dueSubsts k)).length
          let frame := c.seenOf (.dale k)
          let due := !r.tagged || r.tagFrame != frame
          let pre := if changed ≠ 0 then 48 else if due then 32 else 0
          if c.bud.shed.contains (.dale k) then c.wait (.dale k) r.job.tent 0 true
          else if ¬ (c.dale k).active then (c.askCredits (.dale k)).wait (.dale k) r.job.tent 0 true
          else
            let m := c.admitAll r.job.tent
              ((.dale k, pre + rows * d.vecSymbols) :: batchReads d r.row rows) (some (.dale k))
            if ¬ m.2 then m.1
            else
              let c := m.1
              let skew := c.skewRow d r.row rows
              let n : Nat := match skew with
                | some x => x - r.row
                | none => rows
              let sent := jobTag d r.job.tent (if r.tagged then 1 else 0)
              if n = 0 then (c.stopRun k r.row Status.scaleSkew).settleRun k
              else if due ∧ ¬ tagAccepted sent bad then c.tagRefused k r sent bad
              else
                let c := if due then c.mapRun k fun r => { r with
                    tagged := true, tagFrame := frame, tagRow := r.row } else c
                let c := match skew with
                  | some x => c.mapRun k fun r => { r with stop := some (x, Status.scaleSkew) }
                  | none => c
                c.issueBatch k r d ks n pre changed

def execBatchStart (v d now : Nat) (bad : List (Nat × Option Tag)) (s : State) : Outcome :=
  onUnits (daleOk v d) s fun c => c.batchStart (12 * v + d) now bad

/-- The GDDR7 requests of the rows a batch writes (R361). -/
def batchWrites (d : Desc) (row rows : Nat) : List (Gate × Nat) :=
  ((List.range rows).map fun n => memAccess (d.outBase + (row + n) * d.outStride) d.outRowBytes
    ++ memAccess (d.outScale + 4 * (row + n)) 4
    ++ (if d.omaskEn then memAccess (d.sideOut + (row + n) * d.sideOutStride) (2 * d.mask.length) else [])).flatten

/-- The rows of a batch accumulated one after the other: each row's columns, aligned values and draws, all of the
requantiser's generator (log entry 90). -/
def Chip.accumulateBatch (c : Chip) (k : Nat) (d : Desc) (t : Tile) (ks : List Nat) (r : DaleRun)
    (noise : List Int) : List (List ColAcc × AccRow) × Gen :=
  let g := c.gen (.requantDale k)
  let out := (List.range r.rows).foldl
    (fun (s : List (List ColAcc × AccRow) × List Int × Gen) n =>
      let row := r.row + n
      let parts := (List.range d.parts).map fun p => c.inputRow d row p
      let a := accumulateRow t d ks parts s.2.1
      let v := divideRow d s.2.2 a.1
      let al := alignRow d ks v.1
      (s.1 ++ [(a.1, { row := row, vals := al.1, gRow := al.2.1, floorF := al.2.2, scale := r.recs.getD n 0
                       sw := if d.wref then t.sw else d.sw
                       seeded := false, clipped := false })], a.2, v.2)) ([], noise, g)
  (out.1, out.2.2)

/-- R120: a batch ends: its rows are accumulated, its trackers close the step, and the rows whose side
sums are ready are written. The writes wait where GDDR7 gives them no allowance. -/
def Chip.batchEnd (c : Chip) (k : Nat) (noise : List Int) : Chip :=
  match (c.dale k).run, (c.dale k).tile with
  | some r, some t =>
    if r.phase ≠ .batch then c
    else
      let d := Desc.ofWords r.job.desc
      let m := c.admitAll r.job.tent (batchWrites d r.row r.rows) (some (.dale k))
      if ¬ m.2 then m.1
      else
        let c := m.1
        let ks := c.rangesNow k d.nOut
        let a := c.accumulateBatch k d t ks r noise
        let c := c.setGen (.requantDale k) a.2
        let ovr := ((a.1.map fun x => (x.1.map fun y => y.ovr).sum)).sum
        let trackers := r.trackers.mapIdx fun j tr =>
          if j < d.nOut then
            let mx := (a.1.map fun x => (x.1.getD j {}).m).foldl max 0
            (tr.see mx).endStep d.hist
          else tr
        let seeded := (r.trackers.headD {}).steps < d.hist
        let rows := a.1.map fun x => { x.2 with seeded := decide seeded, clipped := ovr != 0 }
        let c := c.mapRun k fun r => { r with
          phase := .prepare, row := r.row + r.rows, rows := 0, acc := r.acc ++ rows, trackers := trackers
          ovr := sat32 (r.ovr + ovr), ended := (r.row, c.gclk) :: r.ended }
        let c := c.setDaleState k 1
        (Chip.deliverReady (r.acc.length + r.rows + 1) c k).settleRun k
  | _, _ => c

def execBatchEnd (v d : Nat) (noise : List Int) (s : State) : Outcome :=
  onUnits (daleOk v d) s fun c => c.batchEnd (12 * v + d) noise

/-- JOB_COMPLETE (R142, R143, R361, R427): the statistic block and the completion record are charged first, but not
to a job the limit of R45 has ended. -/
def Chip.jobComplete (c : Chip) (k : Nat) : Chip :=
  match (c.dale k).run with
  | some r =>
    if r.phase ≠ .ended then c
    else if runStatus r = Status.budgetWaitLimit then c.finishRun k
    else
      let d := Desc.ofWords r.job.desc
      let m := c.admitAll r.job.tent (memAccess d.stat 32 ++ (match r.job.compl with
        | some a => memAccess a 32
        | none => [])) (some (.dale k))
      if m.2 then m.1.finishRun k else m.1
  | none => c

/-! ### Tags that arrive -/

/-- R128: an intrusion into Dale k by a bank of its Vale: the intruder goes dark and its job ends MISROUTE, the running
batch is discarded. The intruder is parked (R113), but where a report takes its selector to the intended line
(R129). -/
def Chip.intrude (c : Chip) (k b : Nat) (reported : Bool) : Chip :=
  let v := k / 12
  match (c.dale k).run with
  | some r =>
    if r.phase ≠ .batch then c
    else
      let d := Desc.ofWords r.job.desc
      let c := c.ev .daleEvIntrusion [v, k % 12]
      let c := match (c.bank v b).carries with
        | some k2 => if k2 = k then c else
            ((c.stopRun k2 (c.errorRow k2) Status.misroute).ev .daleEvMisroute [v, k2 % 12]).settleRun k2
        | none => c
      let c := if reported then c.darken v b else c.park v b
      (c.mapRun k fun r => { r with
        phase := .prepare, intruded := r.rows, rows := 0
        discards := sat32 (r.discards + r.prefixed + r.rows * d.vecSymbols) }).setDaleState k 1
  | none => c

/-- R112, R123: the tag of kind re-lock that a bank sends in locked-tagging. -/
def Chip.relockTag (c : Chip) (v b : Nat) : Tag :=
  tagOf { vale := v, port := c.f Fld.valeBank_port [v, b], bank := b, tent := c.f Fld.valeBank_owner [v, b], kind := 2 }

/-- TAG_DECODE (R125, R128, R129): the detectors of port `port` decode a tag. One with a bad CRC names
nothing. A tag that names another port is an intrusion into a running Dale, and a Dale or the
calibration receiver reports it; the re-lock tag of a bank in locked-tagging at its own port lights it (R112). -/
def Chip.tagDecode (c : Chip) (v port : Nat) (tag : Tag) : Chip :=
  match tagFields tag with
  | none => c
  | some f =>
    let ours := f.vale = v ∧ f.port = port
    if ours then
      if c.f Fld.valeBank_state [v, f.bank] = 2 ∧ tag = c.relockTag v f.bank then
        c.setF Fld.valeBank_state [v, f.bank] 3
      else c
    else
      let reported := decide (port ≤ 12 ∧ f.vale = v) && c.reportTaken v f.bank
      let c := if port < 12 then c.intrude (12 * v + port) f.bank reported else c
      if reported then c.wrongLine v f.bank f.port ((port + 16 - f.bank) % 16) else c

def execTagDecode (v port : Nat) (tag : Tag) (s : State) : Outcome :=
  onUnits (decide (v < 12 ∧ port < 16)) s fun c => c.tagDecode v port tag

/-- BATCH_REISSUE (R128): the ingress taps have seen no light from the intruder for 32 symbols, and the discarded batch
is issued again, as a grain of its own. Where a new budget frame asks for a frame-check tag (R124), the detectors
judge it first, and BATCH_START issues the batch (log entry 28). -/
def Chip.batchReissue (c : Chip) (k : Nat) : Chip :=
  match (c.dale k).run with
  | none => c
  | some r =>
    if r.intruded = 0 ∨ r.phase ≠ .prepare ∨ (r.stop.any fun x => decide (x.1 ≤ r.row)) then c
    else if r.tagFrame ≠ c.seenOf (.dale k) then c.mapRun k fun r => { r with intruded := 0, stop := none }
    else if c.bud.shed.contains (.dale k) then c.wait (.dale k) r.job.tent 0 true
    else if ¬ (c.dale k).active then (c.askCredits (.dale k)).wait (.dale k) r.job.tent 0 true
    else
      let d := Desc.ofWords r.job.desc
      let n := r.intruded * d.vecSymbols
      match c.spend (.dale k) r.job.tent n with
      | none => c.wait (.dale k) r.job.tent n false
      | some c =>
        let dl := c.dale k
        let c := c.setDale k { dl with symbols := dl.symbols + n }
        let c := c.setF Fld.daleSymbols_units [k / 12, k % 12] ((dl.symbols + n) / 4096)
        (c.mapRun k fun r => { r with
          phase := .batch, rows := r.intruded, intruded := 0, prefixed := 0 }).setDaleState k 4

def execBatchReissue (v d : Nat) (s : State) : Outcome :=
  onUnits (daleOk v d) s fun c => c.batchReissue (12 * v + d)

/-- TAG_LOSS_TIMEOUT (R270): no report within 2 µs of a tag loss. -/
def execTagLossTimeout (v b : Nat) (s : State) : Outcome :=
  onUnits (decide (v < 12 ∧ b < 16)) s fun c =>
    if (c.bank v b).lossWait then c.tagLossSearch v b else c

end Sys2Proof.Machine
end

