-- ==== Sys2Proof/Machine/ConvOps.lean ====
section
/-!
DEFINITION. Sys2Proof/Machine/ConvOps.lean: the monitor and housekeeping converters of file 06 of spec/:
sequence-table entries (R197, R198, R210), starts and abandonments (R200, R205 to R209), outputs (R202)
and trackers (R213), and the writes of their registers.
-/

namespace Sys2Proof.Machine

/-! ### Entries (R197) -/

def seqInput (x : Nat) : Nat := bitsOf x 5 0
def seqGain (x : Nat) : Nat := bitsOf x 7 6
def seqDelay (x : Nat) : Nat := bitsOf x 11 8
def seqAvg (x : Nat) : Nat := bitsOf x 15 12
def seqTrig (x : Nat) : Nat := bitsOf x 18 16
def seqDemod (x : Nat) : Nat := bitsOf x 21 20
def seqTone (x : Nat) : Nat := bitsOf x 25 22
def seqConv (x : Nat) : Nat := bitsOf x 27 26
def seqStop (x : Nat) : Bool := bitOf x 30
def seqValid (x : Nat) : Bool := bitOf x 31
def seqNext (x : Nat) : Nat := bitsOf x 39 32

/-- A reserved field of an entry is set. -/
def seqReserved (x : Nat) : Bool := bitOf x 19 || bitsOf x 29 28 != 0 || bitsOf x 63 40 != 0

/-- R198: a monitor entry is refused. -/
def seqRefused (x : Nat) : Bool :=
  decide (seqDelay x < 2) || decide (8 < seqAvg x) || decide (seqDemod x = 3) || seqConv x != 0 ||
  decide (63 < seqNext x) || decide (31 < seqInput x) || seqReserved x

/-- A request for an injected or calibration conversion is refused: trig, stop and next are zero. -/
def injRefused (x : Nat) : Bool := seqRefused x || seqTrig x != 0 || seqStop x || seqNext x != 0

/-- R210: a housekeeping entry is refused for its own fields. -/
def hkRefused (x : Nat) : Bool :=
  decide (seqDelay x < 2) || decide (8 < seqAvg x) || seqDemod x != 0 || decide (1 < seqGain x) ||
  seqTrig x != 0 || seqTone x != 0 || seqStop x || seqNext x != 0 || seqReserved x

/-- R200: discard conversions at a start: `old` is the gain of the previous conversion. -/
def startDiscards (x old : Nat) : Nat := if seqGain x = old then seqDelay x else max (seqDelay x) 3

/-! ### The monitor ADCs of a Vale -/

/-- R195: the physical ADC a logical one converts on; until a move takes place, the old one. -/
def Chip.physAdc (c : Chip) (v l : Nat) : Nat :=
  let low := decide (l < c.f Fld.convRot_calAdc [v])
  if low != (c.adc v l).moving then l else l + 1

/-- The gain of the previous conversion on a physical ADC (R200). -/
def Chip.lastGain (c : Chip) (v p : Nat) : Nat := Tab.get c.adcGain (v, p) 0

/-- CONV_CTL shows what a logical ADC does: busy, inj_pend and cal_wait. -/
def Chip.showAdc (c : Chip) (v l : Nat) : Chip :=
  let a := c.adc v l
  let busy : Bool := match a.run with
    | .idle => false
    | .trig _ => false
    | _ => true
  let running := match a.run with
    | .inj _ => 1
    | _ => 0
  let c := c.setF Fld.convCtl_busy [v, l] busy.toNat
  let c := c.setF Fld.convCtl_injPend [v, l] (a.queue.length + running)
  c.setF Fld.convCtl_calWait [v, l] a.cal.isSome.toNat

/-- A conversion runs: of a table entry, an injection or a calibration. -/
def AdcRun.converts : AdcRun → Bool
  | .idle => false
  | .trig _ => false
  | _ => true

/-- The next thing an ADC runs replaces what it ran; at that boundary a pending move takes place
(R195). -/
def Chip.setRun (c : Chip) (v l : Nat) (r : AdcRun) : Chip :=
  let a := c.adc v l
  (c.setAdc v l { a with run := r, moving := false, began := c.gclk,
                         freed := if a.run.converts then c.gclk else a.freed }).showAdc v l

/-- R200: a conversion starts: its discards are to come, and its gain is the physical ADC's last. -/
def Chip.startConv (c : Chip) (v l x : Nat) : Chip :=
  let p := c.physAdc v l
  let c := c.setAdc v l { c.adc v l with disc := startDiscards x (c.lastGain v p) }
  { c with adcGain := Tab.set c.adcGain (v, p) (seqGain x) }

/-- R200: the discards of what an ADC runs have been taken, and count. -/
def Chip.discsDone (c : Chip) (v l : Nat) : Chip :=
  (c.count Fld.convDisc_disc [v, l] (c.adc v l).disc).setAdc v l { c.adc v l with disc := 0 }

/-- The fields of entry `e` of a table as they are now. -/
def Chip.seqWord (c : Chip) (v l e : Nat) : Word := c.get { name := .convSeq, idx := [v, l, e] }

/-- R204: the setting of a common trigger in force. -/
def Chip.trigWord (c : Chip) (v k : Nat) : Nat :=
  (Tab.get c.trigOld (v, k) (c.get { name := .convTrig, idx := [v, k] })).toNat

/-- R203: the discards that an entry waiting for its trigger has taken by now: it begins them so as to end on the
trigger's next tick, if it waited when that had to be. -/
def Chip.earlyDiscards (c : Chip) (v l e : Nat) : Nat :=
  let w := (c.seqWord v l e).toNat
  let k := seqTrig w
  let div := bitsOf (c.trigWord v k) 10 0
  let phase := bitsOf (c.trigWord v k) 26 16
  let disc := startDiscards w (c.lastGain v (c.physAdc v l))
  let tick := c.gclk + (phase + div - c.gclk % div) % div
  if k ≠ 0 ∧ c.flag Fld.convTrig_en [v, k] ∧ (c.adc v l).began + disc ≤ tick then c.gclk + disc - tick else 0

/-- R207, R208: what runs is abandoned after `taken` conversions, discarded and kept, which count as discards. A table
entry is to start again, an injection goes back to the head of its queue. -/
def Chip.abandon (c : Chip) (v l taken : Nat) : Chip :=
  let a := c.adc v l
  match a.run with
  | .entry e w _ =>
    (c.setAdc v l { a with next := e, redo := true }).count Fld.convDisc_disc [v, l]
      (min taken (a.disc + 2 ^ seqAvg w.toNat))
  | .trig e =>
    let n := c.earlyDiscards v l e
    let c := (c.setAdc v l { a with next := e }).count Fld.convDisc_disc [v, l] n
    if n = 0 then c
    else { c with adcGain := Tab.set c.adcGain (v, c.physAdc v l) (seqGain (c.seqWord v l e).toNat) }
  | .inj i =>
    (c.setAdc v l { a with queue := i :: a.queue }).count Fld.convDisc_disc [v, l]
      (min taken (a.disc + 2 ^ seqAvg i.req.toNat))
  | _ => c

/-- The table ends (R199). -/
def Chip.endTable (c : Chip) (v l : Nat) : Chip :=
  (c.setAdc v l { c.adc v l with halting := false }).setF Fld.convCtl_active [v, l] 0

/-- R205: an entry that waited for a trigger it no longer names waits no more. -/
def Chip.waitOver (c : Chip) (v l : Nat) : Chip :=
  match (c.adc v l).run with
  | .trig e => if seqTrig (c.seqWord v l e).toNat = 0 then c.setAdc v l { c.adc v l with run := .idle, next := e } else c
  | _ => c

/-- R199: the table's next entry starts, waits for its trigger, or ends the table. An abandoned entry restarts before a
halt ends the table (R207). -/
def Chip.entryStart (c : Chip) (v l : Nat) : Chip :=
  let c := c.waitOver v l
  let a := c.adc v l
  if a.run ≠ .idle ∨ ¬ c.flag Fld.convCtl_active [v, l] ∨ a.queue ≠ [] ∨ a.cal.isSome then c
  else
    let w := c.seqWord v l a.next
    if (a.halting ∧ ¬ a.redo) ∨ ¬ seqValid w.toNat then c.endTable v l
    else
      let c := (c.setAdc v l { a with redo := false }).setF Fld.convCtl_cur [v, l] a.next
      if seqTrig w.toNat ≠ 0 then c.setRun v l (.trig a.next)
      else (c.setRun v l (.entry a.next w (a.avgNew.contains a.next))).startConv v l w.toNat

/-- R203, R204: a tick of a common trigger at one logical ADC. The entry that waits for it, with the fields it has now
(R205), takes its first kept sample if it waited when its discards had to begin. If a conversion ran then, the entry
misses the tick. -/
def Chip.tickAdc (c : Chip) (v k l : Nat) : Chip :=
  let a := c.adc v l
  let e := match a.run with
    | .trig e => e
    | _ => a.next
  let w := c.seqWord v l e
  let disc := startDiscards w.toNat (c.lastGain v (c.physAdc v l))
  let stood := decide (a.began + disc ≤ c.gclk)
  let ran := a.freed != 0 && decide (c.gclk < a.freed + disc)
  if ¬ c.flag Fld.convCtl_active [v, l] ∨ seqTrig w.toNat ≠ k then c
  else match a.run with
    | .trig _ =>
      if ¬ seqValid w.toNat then (c.setRun v l .idle).endTable v l
      else if stood then
        ((c.setRun v l (.entry e w (a.avgNew.contains e))).startConv v l w.toNat).discsDone v l
      else if ran then c.ev .convEvTrigmiss [v] else c
    | .inj _ => if seqValid w.toNat ∧ (stood ∨ ran) then c.ev .convEvTrigmiss [v] else c
    | .cal _ => if seqValid w.toNat ∧ (stood ∨ ran) then c.ev .convEvTrigmiss [v] else c
    | _ => c

/-! ### Outputs (R201, R202) -/

/-- R260: entry `e` of a logical ADC is a marker entry of a selector loop in force. -/
def Chip.markerEntry (c : Chip) (v l e : Nat) : Bool :=
  c.loops.any fun p =>
    let x := LoopE.ofWords p.2.entry
    p.1.1 == v && x.kind == 2 && x.adc == l && (x.mkiEnt == e || x.mkqEnt == e)

/-- The tone generator an entry demodulates against (R201): for a marker entry the one GUY_CFG names (R260). -/
def Chip.toneOf (c : Chip) (v l e w : Nat) : Nat :=
  if c.markerEntry v l e then c.f Fld.guyCfg_markerTone [v] else seqTone w

/-- The phase of a tone generator at a count of the sample clock, from what it did last (R239). -/
def tonePhase (log : List (Nat × Nat × Nat)) (at' : Nat) : Nat :=
  match log.find? fun x => decide (x.1 ≤ at') with
  | some x => (x.2.1 + (at' - x.1) * x.2.2) % 2 ^ 32
  | none => 0

/-- R201: the sign of kept sample `i` of `n`: bit 31 of the phase accumulator of tone generator `t` at the sample
instant, XOR bit 30 for the quadrature. The last sample is taken at the present count. -/
def Chip.demodSign (c : Chip) (v t w i n : Nat) : Int :=
  let acc := tonePhase (Tab.get c.toneLog (v, t) []) (c.gclk - (n - 1 - i))
  let b := if seqDemod w = 1 then bitOf acc 31 else bitOf acc 31 != bitOf acc 30
  if b then -1 else 1

/-- R189: how many of the first `n` samples have fired the over-range comparator: those beyond the code range. -/
def overRange (lo hi : Int) (n : Nat) (xs : List Int) : Nat :=
  ((xs.take n).filter fun x => decide (x < lo ∨ hi < x)).length

/-- R196, R276: samples under an offset in 1/16 LSB and a gain in 2.14, in whole LSB (R202), each rounded with one draw
(R93). One over range enters at the full-scale code of its sign (R189). -/
def trimSamples (lo hi offset : Int) (gain n : Nat) (xs : List Int) (g : Gen) : List Int × Gen :=
  Gen.mapM (fun g i => g.roundDiv ((16 * clampInt lo hi (xs.getD i 0) - offset) * gain) (2 ^ 18)) g (List.range n)

/-- The code range of a monitor ADC (R187). -/
def monitorLow : Int := -2048

def monitorHigh : Int := 2047

/-- R189: a sample whose comparator fires lies beyond the code range on the side of its sign, whatever code it reads. -/
def firedSamples (fired : List Nat) (xs : List Int) : List Int :=
  xs.mapIdx fun k x =>
    if ¬ fired.contains k then x else if x < 0 then min x (monitorLow - 1) else max x (monitorHigh + 1)

/-- The samples of a monitor ADC under the trim of a physical ADC at a gain (R196). -/
def Chip.trimMonitor (c : Chip) (v p gain n : Nat) (xs : List Int) : List Int × Chip :=
  let at' := [v, p, gain]
  let r := trimSamples monitorLow monitorHigh (c.sf Fld.calMonTrim_offset at') (c.f Fld.calMonTrim_gain at') n xs
    (c.gen (.monitor v))
  (r.1, c.setGen (.monitor v) r.2)

/-- The kept samples, trimmed as the physical ADC's gain asks (R196) and demodulated against tone `t` (R201). -/
def Chip.keptSamples (c : Chip) (v l t w : Nat) (xs : List Int) : List Int × Chip :=
  let n := 2 ^ seqAvg w
  let r := c.trimMonitor v (c.physAdc v l) (seqGain w) n xs
  (if seqDemod w = 0 then r.1 else r.1.mapIdx fun i y => c.demodSign v t w i n * y, r.2)

/-- A housekeeping trim as held: offset field and gain (R276, R295). -/
def Chip.hkTrim (c : Chip) (conv gain : Nat) : Nat × Nat := Tab.get c.hkTrims (conv, gain) (0, 16384)

/-- R202: total × 16 / 2^avg with stochastic rounding. -/
def outputValue (g : Gen) (avg : Nat) (xs : List Int) : Int × Gen := g.roundDiv (xs.sum * 16) (2 ^ avg)

/-- R201, R202: the output of a pass with fields `w` on a logical ADC, tone `t`, and its samples over range. -/
def Chip.monitorOutput (c : Chip) (v l t w : Nat) (xs : List Int) : (Int × Nat) × Chip :=
  let s := c.keptSamples v l t w xs
  let o := outputValue (s.2.gen (.monitor v)) (seqAvg w) s.1
  ((o.1, overRange monitorLow monitorHigh (2 ^ seqAvg w) xs), s.2.setGen (.monitor v) o.2)

/-- An accumulator word with one more output (R202): value, ovr, valid, seq and ovr_count. -/
def accWord (old : Nat) (value : Int) (fired : Nat) : Word :=
  BitVec.ofNat 64 (fieldOf 24 value + (decide (0 < fired)).toNat * 2 ^ 24 + 2 ^ 25 +
    (bitsOf old 47 32 + 1) % 65536 * 2 ^ 32 + min (bitsOf old 63 48 + fired) 65535 * 2 ^ 48)

/-- A tracker word takes an output (R213): a cleared one takes it as both extremes. -/
def Chip.track (c : Chip) (r : Reg) (value : Int) : Chip :=
  let old := (c.get r).toNat
  let live := c.trkLive.contains r
  let lo := if live then min (signedOf 24 (bitsOf old 23 0)) value else value
  let hi := if live then max (signedOf 24 (bitsOf old 55 32)) value else value
  let c := c.put r (BitVec.ofNat 64 (fieldOf 24 lo + fieldOf 24 hi * 2 ^ 32))
  if live then c else { c with trkLive := r :: c.trkLive }

/-- A tracker is cleared (R213). -/
def Chip.clearTracker (c : Chip) (r : Reg) : Chip :=
  let c := c.put r 0
  { c with trkLive := c.trkLive.filter fun x => x != r }

/-- R202, R205: the running table entry ends: output, tracker and count in one step, unless the output
is discarded; then the next entry, or the end of the table (R199). -/
def Chip.entryOutput (c : Chip) (v l : Nat) (xs : List Int) : Chip :=
  match (c.adc v l).run with
  | .entry e word drop =>
    let w := word.toNat
    let c := c.discsDone v l
    let c := if drop then
        let a := c.adc v l
        let c := if seqAvg (c.seqWord v l e).toNat = seqAvg w then
            c.setAdc v l { a with avgNew := a.avgNew.filter fun x => x != e } else c
        c.count Fld.convDisc_disc [v, l] (2 ^ seqAvg w)
      else
        let o := c.monitorOutput v l (c.toneOf v l e w) w xs
        let r : Reg := { name := .convAcc, idx := [v, l, e] }
        let c := o.2.put r (accWord (c.get r).toNat o.1.1 o.1.2)
        let c := c.track { name := .convTrk, idx := [v, l, e] } o.1.1
        if 0 < o.1.2 then c.ev .convEvOvr [v] else c
    let a := c.adc v l
    let c := (c.setAdc v l { a with next := seqNext w % 64 }).setRun v l .idle
    if seqStop w ∨ a.halting then c.endTable v l else c
  | _ => c

/-- R206, R207: a queued injection runs, abandoning a table entry that runs. -/
def Chip.injectionRun (c : Chip) (v l taken : Nat) : Chip :=
  let a := c.adc v l
  match a.queue, a.run with
  | [], _ => c
  | _, .inj _ => c
  | _, .cal _ => c
  | i :: _, _ =>
    let c := c.abandon v l taken
    let a := c.adc v l
    let c := c.setAdc v l { a with queue := a.queue.tail }
    (c.setRun v l (.inj i)).startConv v l i.req.toNat

/-- R208: a calibration conversion starts: no injection is pending or running, or its bound has passed,
which abandons a running injection. -/
def Chip.calConvStart (c : Chip) (v l taken : Nat) (bound : Bool) : Chip :=
  let a := c.adc v l
  let injecting : Bool := match a.run with
    | .inj _ => true
    | _ => false
  match a.cal, a.run with
  | none, _ => c
  | _, .cal _ => c
  | some req, _ =>
    if ¬ bound ∧ (a.queue ≠ [] ∨ injecting) then c
    else
      let c := c.abandon v l taken
      let c := c.setAdc v l { c.adc v l with cal := none }
      (c.setRun v l (.cal req)).startConv v l req.toNat

/-- R206: an injection joins the queue of its ADC, up to 8 queued or running. -/
def Chip.inject (c : Chip) (v l : Nat) (i : Inj) : Option Chip :=
  if 8 ≤ c.f Fld.convCtl_injPend [v, l] then none
  else
    let a := c.adc v l
    some ((c.setAdc v l { a with queue := a.queue ++ [i] }).showAdc v l)

/-- R206: a Guyline request joins the queue of an ADC, or waits in the engine for a place. -/
def Chip.engineInject (c : Chip) (v l : Nat) (i : Inj) : Chip :=
  match c.inject v l i with
  | some c => c
  | none => let a := c.adc v l; c.setAdc v l { a with held := a.held ++ [i] }

/-- R206: a place is free: the Guyline request that has waited longest takes it. -/
def Chip.takeHeld (c : Chip) (v l : Nat) : Chip :=
  let a := c.adc v l
  match a.held with
  | [] => c
  | i :: rest => ((c.setAdc v l { a with held := rest }).inject v l i).getD c

/-- R206: the running injection ends: CONV_INJ_ACC holds the output. What it answers, and to whom. -/
def Chip.injectedValue (c : Chip) (v l : Nat) (xs : List Int) : Option (Inj × Chip) :=
  match (c.adc v l).run with
  | .inj i =>
    let w := i.req.toNat
    let o := (c.discsDone v l).monitorOutput v l (seqTone w) w xs
    let r : Reg := { name := .convInjAcc, idx := [v, l] }
    let c := o.2.put r (accWord (o.2.get r).toNat o.1.1 o.1.2)
    let c := if 0 < o.1.2 then c.ev .convEvOvr [v] else c
    some (i, (c.setRun v l .idle).takeHeld v l)
  | _ => none

/-! ### Register writes: the status a REG command gets, and the device -/

/-- CONV_SEQ (R198, R205). -/
def Chip.wConvSeq (c : Chip) (v l e : Nat) (x : Word) : Nat × Chip :=
  let r : Reg := { name := .convSeq, idx := [v, l, e] }
  if seqRefused x.toNat then (Status.badParam, c)
  else
    let old := (c.get r).toNat
    let a := c.adc v l
    let c := if seqAvg old = seqAvg x.toNat ∨ a.avgNew.contains e then c
      else c.setAdc v l { a with avgNew := e :: a.avgNew }
    (Status.ok, c.put r x)

/-- CONV_TRIG (R204, R216): while the trigger stays enabled, the setting in force stays so until its next tick; a
disabled trigger never ticks, so what follows it is in force at once. -/
def Chip.wConvTrig (c : Chip) (v k : Nat) (x : Word) : Nat × Chip :=
  let n := x.toNat
  let div := bitsOf n 10 0
  let phase := bitsOf n 26 16
  if bitOf n 31 ∧ (div < 50 ∨ 2000 < div ∨ div ≤ phase) then (Status.badParam, c)
  else
    let stays := c.flag Fld.convTrig_en [v, k] && bitOf n 31
    let rest := c.trigOld.filter fun p => p.1 != (v, k)
    let old := if stays then ((v, k), BitVec.ofNat 64 (c.trigWord v k)) :: rest else rest
    (Status.ok, ({ c with trigOld := old } : Chip).put { name := .convTrig, idx := [v, k] }
      (BitVec.ofNat 64 (div + phase * 65536 + bitsOf n 31 31 * 2 ^ 31)))

/-- A go write (R199, R213): the table runs from `start`; CONV_ACC's valid and counts restart. -/
def Chip.goTable (c : Chip) (v l : Nat) : Chip :=
  if c.flag Fld.convCtl_active [v, l] then c
  else
    let c := (List.range 64).foldl (fun c e =>
      let r : Reg := { name := .convAcc, idx := [v, l, e] }
      let x := (c.get r).toNat
      if x = 0 then c else c.put r (BitVec.ofNat 64 (x % 2 ^ 25))) c
    let a := c.adc v l
    let start := c.f Fld.convCtl_start [v, l]
    (c.setAdc v l { a with next := start, halting := false, redo := false, goes := a.goes + 1 }).setF
      Fld.convCtl_active [v, l] 1

/-- A halt write (R199): the table ends after the running entry; where none runs it ends now. -/
def Chip.haltTable (c : Chip) (v l : Nat) : Chip :=
  if ¬ c.flag Fld.convCtl_active [v, l] then c
  else
    let a := c.adc v l
    match a.run with
    | .entry _ _ _ => c.setAdc v l { a with halting := true }
    | .trig _ => (c.setRun v l .idle).endTable v l
    | _ => if a.redo then c.setAdc v l { a with halting := true } else c.endTable v l

/-- CONV_CTL: start is stored, then go and halt act. -/
def Chip.wConvCtl (c : Chip) (v l : Nat) (x : Word) : Nat × Chip :=
  let c := c.setF Fld.convCtl_start [v, l] (bitsOf x.toNat 27 22)
  let c := if bitOf x.toNat 31 then c.goTable v l else c
  (Status.ok, if bitOf x.toNat 30 then c.haltTable v l else c)

/-- CONV_TRK_CLR (R213). -/
def Chip.wTrkClr (c : Chip) (v l : Nat) (x : Word) : Nat × Chip :=
  (Status.ok, (List.range 64).foldl (fun c e =>
    if bitOf x.toNat e then c.clearTracker { name := .convTrk, idx := [v, l, e] } else c) c)

/-- PWR_HK_TRK_CLR (R217). -/
def Chip.wHkTrkClr (c : Chip) (k : Nat) (x : Word) : Nat × Chip :=
  (Status.ok, (List.range 64).foldl (fun c e =>
    if bitOf x.toNat e then c.clearTracker { name := .pwrHkTrk, idx := [64 * k + e] } else c) c)

/-- CONV_INJ (R206): a full queue drops the request, recorded in CONV_EV_INJFULL. -/
def Chip.wConvInj (c : Chip) (v l : Nat) (x : Word) : Nat × Chip :=
  if injRefused x.toNat then (Status.badParam, c)
  else match c.inject v l { req := x, who := .host } with
    | some c => (Status.ok, c)
    | none => (Status.ok, c.ev .convEvInjfull [v])

/-! ### Housekeeping (R210, R211) -/

def Chip.hkWord (c : Chip) (e : Nat) : Nat := (c.get { name := .pwrHkSeq, idx := [e] }).toNat

/-- R210: the load of a list of entries in order of run, `prev` the gain before the first. -/
def loadFrom : Nat → List Nat → Nat
  | _, [] => 0
  | prev, x :: xs => 2 ^ seqAvg x + startDiscards x prev + loadFrom (seqGain x) xs

/-- R210: the round load of the valid entries of one converter, ascending. -/
def roundLoad (xs : List Nat) : Nat :=
  match xs.getLast? with
  | none => 0
  | some z => loadFrom (seqGain z) xs

/-- The valid entries of a converter with entry `e` taken as `x`. -/
def Chip.hkEntries (c : Chip) (conv e x : Nat) : List Nat :=
  ((List.range 256).map fun k => if k = e then x else c.hkWord k).filter fun w =>
    seqValid w && seqConv w == conv

/-- PWR_HK_SEQ (R210, R205). -/
def Chip.wHkSeq (c : Chip) (e : Nat) (x : Word) : Nat × Chip :=
  let loads := (List.range 4).map fun k => roundLoad (c.hkEntries k e x.toNat)
  if hkRefused x.toNat ∨ loads.any (fun n => decide (1000 < n)) then (Status.badParam, c)
  else
    let c := if seqAvg (c.hkWord e) = seqAvg x.toNat ∨ c.hkAvgNew.contains e then c
      else { c with hkAvgNew := e :: c.hkAvgNew }
    let c := c.put { name := .pwrHkSeq, idx := [e] } x
    (Status.ok, (loads.mapIdx fun k n => (k, n)).foldl (fun c p =>
      c.put { name := .pwrHkLoad, idx := [p.1] } (BitVec.ofNat 64 p.2)) c)

/-- R202, R211: one housekeeping entry of a round: its discards, and its output unless it is discarded
(R205). -/
def Chip.hkOutput (c : Chip) (e prev : Nat) (s : Option HkSample) : Chip :=
  let w := c.hkWord e
  let n := 2 ^ seqAvg w
  let c := c.count Fld.pwrHkDisc_disc [] (startDiscards w prev)
  if c.hkAvgNew.contains e then
    let c := c.count Fld.pwrHkDisc_disc [] n
    { c with hkAvgNew := c.hkAvgNew.filter fun x => x != e }
  else match s with
    | none => c
    | some s =>
      let k := c.hkTrim (seqConv w) (seqGain w)
      let xs := trimSamples (-8192) 8191 (signedOf 16 k.1) k.2 n s.samples (c.gen .basecamp)
      let o := outputValue xs.2 (seqAvg w) xs.1
      let c := c.setGen .basecamp o.2
      let r : Reg := { name := .pwrHkAcc, idx := [e] }
      let c := c.put r (accWord (c.get r).toNat o.1 (overRange (-8192) 8191 n s.samples))
      c.track { name := .pwrHkTrk, idx := [e] } o.1

/-- R211: the entries of one converter in a round. -/
def Chip.hkConverter (c : Chip) (conv : Nat) (ss : List HkSample) : Chip :=
  let es := (List.range 256).filter fun e => seqValid (c.hkWord e) && seqConv (c.hkWord e) == conv
  let prev := match es.getLast? with
    | some e => seqGain (c.hkWord e)
    | none => 0
  (es.foldl (fun (p : Chip × Nat) e =>
    (p.1.hkOutput e p.2 (ss.find? fun s => s.entry == e), seqGain (p.1.hkWord e))) (c, prev)).1

/-- R211: a round: every converter runs its valid entries, and the round is counted. -/
def Chip.hkRound (c : Chip) (ss : List HkSample) : Chip :=
  let c := (List.range 4).foldl (fun c k => c.hkConverter k ss) c
  c.put { name := .pwrHkRound } (BitVec.ofNat 64 (((c.get { name := .pwrHkRound }).toNat + 1) % 2 ^ 32))

/-- The output of a housekeeping entry in 1/16 LSB, none where it has none yet. -/
def Chip.hkValue (c : Chip) (e : Nat) : Option Int :=
  if c.flag Fld.pwrHkAcc_valid [e] then some (c.sf Fld.pwrHkAcc_value [e]) else none

end Sys2Proof.Machine
end

