-- ==== Sys2Proof/Machine/HeatOps.lean ====
section
/-!
DEFINITION. Sys2Proof/Machine/HeatOps.lean: the thermal model (R468 to R471), its cuts of effective ceilings
(R472, R56), and the Lantern's records (R476).
-/

namespace Sys2Proof.Machine

/-! ### Units, channels and groups (R464, R468) -/

/-- The power stage that feeds a rail-current channel (R464). -/
def stageOf (j : Nat) : Nat :=
  if j < 24 then j
  else if j < 60 then 24 + (j - 24) / 3
  else if j < 64 then 36 + (j - 60)
  else if j < 66 then 40 + (j - 64)
  else if j < 70 then 42 + (j - 66)
  else if j = 70 then 46 else 47

/-- The consumer group of a rail-current channel, none of the auxiliary rail (R464). -/
def chanGroup (j : Nat) : Option Nat :=
  if j < 12 then some j
  else if j < 24 then some (j - 12)
  else if j < 60 then some (12 + (j - 24))
  else if j < 64 then some (48 + (j - 60))
  else if j < 66 then some 56
  else if j < 70 then some (52 + (j - 66))
  else if j = 70 then some 57 else none

/-- The unit of the thermal model a rail-current channel feeds (R464, R468). -/
def chanUnit (j : Nat) : Option Nat :=
  if j < 12 then some (13 + j)
  else if j < 24 then some (1 + (j - 12))
  else if j < 60 then some (25 + (j - 24))
  else if j < 64 then some (66 + (j - 60))
  else if j < 66 then some 0
  else if j < 70 then some (62 + (j - 66))
  else if j = 70 then some 61 else none

def groupChans (g : Nat) : List Nat := (List.range 72).filter fun j => chanGroup j == some g

def unitChans (u : Nat) : List Nat := (List.range 72).filter fun j => chanUnit j == some u

/-- The units of a consumer group (R464, R468). -/
def groupUnits (g : Nat) : List Nat :=
  if g < 12 then [1 + g, 13 + g]
  else if g < 48 then [25 + (g - 12)]
  else if g < 52 then [66 + (g - 48)]
  else if g < 56 then [62 + (g - 52)]
  else if g = 56 then [0] else [61]

/-- The consumer group of a unit. -/
def unitGroup (u : Nat) : Nat := ((List.range 58).find? fun g => (groupUnits g).contains u).getD 57

/-! ### Readings (R465) -/

/-- The latest output of a housekeeping input and whether a sample of it was over range: the lowest valid
entry of the converter that reads the input; none where the table has no such entry or it has no output
yet. -/
def Chip.hkRead (c : Chip) (conv inp : Nat) : Option (Int × Bool) :=
  match (List.range 256).find? fun e =>
    seqValid (c.hkWord e) && seqConv (c.hkWord e) == conv && seqInput (c.hkWord e) == inp with
  | none => none
  | some e => (c.hkValue e).map fun x => (x, c.flag Fld.pwrHkAcc_ovr [e])

/-- The output of a rail-current channel (R465). -/
def Chip.ampsRead (c : Chip) (j : Nat) : Option (Int × Bool) := c.hkRead (j % 4) (16 + j / 4)

/-- Output voltage of a power stage in mV; none read: zero. -/
def Chip.stageVolts (c : Chip) (k : Nat) : Nat :=
  match c.hkRead (k / 12) (k % 12) with
  | some r => Config.senseVolts k r.1
  | none => 0

/-- Measured power of a channel in 10 mW, as PWR_RAIL reports it. -/
def Chip.railPower (c : Chip) (j : Nat) : Nat :=
  match c.ampsRead j with
  | some r => min 0xFFFF (Config.senseAmps j r.1 * c.stageVolts (stageOf j) / 10000)
  | none => 0

/-- PWR_IN of a round (R465). -/
def Chip.measureInput (c : Chip) : Chip :=
  let v := match c.hkRead 0 48 with
    | some r => min 0xFFFF (Config.senseInVolts r.1)
    | none => 0
  let a := match c.hkRead 1 48 with
    | some r => min 0xFFFF (Config.senseInAmps r.1)
    | none => 0
  c.put { name := .pwrIn } (BitVec.ofNat 64 (min 0xFFFF (v * a / 100000) * 2 ^ 32 + a * 2 ^ 16 + v))

/-- R465, R515: the standard housekeeping table: entry 64c + n of converter c reads the n-th of its 31
inputs (log entry 51). -/
def hkInputs : List Nat := List.range 12 ++ ((List.range 18).map fun i => 16 + i) ++ [48]

def Chip.installHk (c : Chip) : Chip :=
  let c := (List.range 256).foldl (fun c e => c.put { name := .pwrHkSeq, idx := [e] } 0) c
  let c := (List.range 4).foldl (fun c k =>
    (hkInputs.mapIdx fun n i => (n, i)).foldl (fun c p =>
      c.put { name := .pwrHkSeq, idx := [64 * k + p.1] }
        (BitVec.ofNat 64 (2 ^ 31 + k * 2 ^ 26 + 4 * 2 ^ 12 + 2 * 2 ^ 8 + p.2))) c) c
  (List.range 4).foldl (fun c k => c.put { name := .pwrHkLoad, idx := [k] } 558) c

/-! ### Sensing faults (R470, R471) -/

def Chip.rail (c : Chip) (j : Nat) : Rail := Tab.get c.heat.rails j {}

/-- R470: the measured power of a group exceeds what its credits allow, in 10 mW. -/
def Chip.tooMuch (c : Chip) (g : Nat) : Bool :=
  decide (225 * c.granted g + 500 < ((groupChans g).map c.railPower).sum)

/-- R470: a rail-current channel at a round. -/
def Chip.senseRail (c : Chip) (j : Nat) : Chip :=
  let r := c.rail j
  let read := c.ampsRead j
  let low : Bool := match read with
    | some x => decide (x.1 < Config.senseMin j)
    | none => true
  let short : Bool := match read with
    | some x => x.2
    | none => false
  let high : Bool := match chanGroup j with
    | some g => c.tooMuch g
    | none => false
  let n (b : Bool) (k : Nat) : Nat := if b then k + 1 else 0
  let r' : Rail := { low := n low r.low, short := n short r.short, high := n high r.high,
                     good := if low ∨ short ∨ high then 0 else r.good + 1 }
  let c := c.setF Fld.pwrRail_power [j] (c.railPower j)
  let c : Chip := { c with heat := { c.heat with rails := Tab.set c.heat.rails j r' } }
  if c.flag Fld.pwrRail_fault [j] then
    if 16 ≤ r'.good then (c.setF Fld.pwrRail_fault [j] 0).setF Fld.pwrRail_kind [j] 0 else c
  else
    let kind := if 3 ≤ r'.low then 1 else if 3 ≤ r'.short then 2 else if 3 ≤ r'.high then 3 else 0
    if kind = 0 then c
    else
      let c : Chip := { c with heat := { c.heat with rails := Tab.set c.heat.rails j { r' with good := 0 } } }
      ((c.setF Fld.pwrRail_fault [j] 1).setF Fld.pwrRail_kind [j] kind).ev .thmEvSense

/-- R471: the coolant thermistor at a round. -/
def Chip.senseCoolant (c : Chip) : Chip :=
  let read := c.hkRead 2 48
  let t := match read with
    | some x => Config.thermistor x.1
    | none => 0
  let bad : Bool := match read with
    | some x => x.2 || decide (t < -1280 ∨ 5760 < t)
    | none => true
  let good := if bad then 0 else c.heat.cool + 1
  let fault := bad || (c.flag Fld.thmCoolant_fault && decide (good < 16))
  let rose := fault && !c.flag Fld.thmCoolant_fault
  let c : Chip := { c with heat := { c.heat with cool := good } }
  let c := c.setF Fld.thmCoolant_fault [] fault.toNat
  let c := c.setF Fld.thmCoolant_temp [] (fieldOf 16 (if fault then 3200 else t))
  if rose then c.ev .thmEvSense else c

/-! ### Powers, forecasts, nodes (R468, R469) -/

/-- Power of a unit at a round in 10 mW: its channels, or its share of 1.8 W for every credit of its group
while one of them is faulty (R470). -/
def Chip.unitPower (c : Chip) (u : Nat) : Nat :=
  if (unitChans u).any fun j => c.flag Fld.pwrRail_fault [j] then
    180 * c.granted (unitGroup u) * c.f Fld.thmShare_share [u] / 256
  else ((unitChans u).map c.railPower).sum

/-- Power of a unit with its share of the steps granted since the round, in 10 mW / 256. -/
def Chip.loadOf (c : Chip) (u : Nat) : Nat :=
  256 * Tab.get c.heat.power u 0 + 180 * Tab.get c.heat.grants (unitGroup u) 0 * c.f Fld.thmShare_share [u]

/-- Rounded to nearest. -/
def nearest (num : Int) (den : Nat) : Int := (2 * num + (den : Int)) / (2 * (den : Int))

/-- A temperature as a field. -/
def tempField (x : Int) : Nat := fieldOf 16 (clampInt (-32768) 32767 x)

/-- R468: every T_f is recomputed, each rounded once from the exact sum (log entry 52). -/
def Chip.forecast (c : Chip) : Chip :=
  let den : Nat := 65536 * 25600
  let all : Nat := ((List.range 70).map c.loadOf).sum
  let panel : Int := c.sf Fld.thmCoolant_temp * (den : Int) + ((c.f Fld.thmPanelParam_r * all * 64 : Nat) : Int)
  let c := c.setF Fld.thmPanel_tf [] (tempField (nearest panel den))
  (List.range 70).foldl (fun c u =>
    let p := c.loadOf u * 4096
    let t2 := panel + ((c.f Fld.thmParam_r [u, 2] * p : Nat) : Int)
    let t1 := t2 + ((c.f Fld.thmParam_r [u, 1] * p : Nat) : Int)
    let t0 := t1 + ((c.f Fld.thmParam_r [u, 0] * p : Nat) : Int)
    ((c.setF Fld.thmNode_tf [u, 0] (tempField (nearest t0 den))).setF Fld.thmNode_tf [u, 1]
      (tempField (nearest t1 den))).setF Fld.thmNode_tf [u, 2] (tempField (nearest t2 den))) c

/-- THERMAL_FORECAST at a grant (R469): the step joins the group's powers and every T_f is recomputed; no node
advances. -/
def Chip.grantForecast (c : Chip) (g step : Nat) : Chip :=
  let h := c.heat
  let c : Chip := { c with heat := { h with grants := Tab.set h.grants g (Tab.get h.grants g 0 + step) } }
  c.forecast

/-- One node moves to or towards its T_f over 1 ms (R469). -/
def moveNode (ran : Bool) (t tf : Int) (tau : Nat) : Int := if ran then advance t tf 1000 tau else tf

/-- R469: every node advances; the first round of a start sets it to its T_f. -/
def Chip.advanceNodes (c : Chip) : Chip :=
  let ran := c.heat.ran
  let c := c.setF Fld.thmPanel_temp []
    (tempField (moveNode ran (c.sf Fld.thmPanel_temp) (c.sf Fld.thmPanel_tf) (c.f Fld.thmPanelParam_tau)))
  let c := (List.range 70).foldl (fun c u => (List.range 3).foldl (fun c n =>
    c.setF Fld.thmNode_temp [u, n] (tempField (moveNode ran (c.sf Fld.thmNode_temp [u, n])
      (c.sf Fld.thmNode_tf [u, n]) (c.f Fld.thmParam_tau [u, n])))) c) c
  { c with heat := { c.heat with ran := true } }

/-- The hottest node of a unit in 1/64 °C. -/
def Chip.unitHot (c : Chip) (u : Nat) : Int :=
  ((List.range 3).map fun n => c.sf Fld.thmNode_temp [u, n]).foldl max (-32768)

/-- The hottest node of a group's units. -/
def Chip.groupHot (c : Chip) (g : Nat) : Int := ((groupUnits g).map c.unitHot).foldl max (-32768)

/-! ### Cuts (R472, R56) -/

/-- The active units of a group whose steps it can release, highest index first (R56). -/
def Chip.activeUnits (c : Chip) (g : Nat) : List Asker :=
  if g < 12 then
    (((List.range 12).map fun d => 12 * g + (11 - d)).filter fun k => (c.dale k).active).map Asker.dale
  else if g < 48 then List.replicate (c.veld (g - 12)).reads (.reading (g - 12)) ++
    List.replicate (c.veld (g - 12)).pairs (.program (g - 12) 0)
  else if g < 52 then List.replicate ((c.granted g - c.floorOf g) / 8) (.quarter (g - 48))
  else if g = 56 then List.replicate c.encCredit .encoder ++ List.replicate c.decCredit .decoder
  else if g = 57 then
    (((List.range 12).map fun k => 11 - k).filter fun k => bitOf (c.f Fld.passPort_boostOn) k).map Asker.booster
  else []

/-- The fewest of them whose steps make up an excess. -/
def takeSteps : Nat → List Asker → List Asker
  | 0, _ => []
  | _, [] => []
  | n + 1, a :: as => a :: takeSteps (n + 1 - askerStep a) as

/-- R56: what a group sheds follows what it holds and its effective ceiling. -/
def Chip.settleShed (c : Chip) (g : Nat) : Chip :=
  let rest := c.bud.shed.filter fun a => askerGroup a != g
  let mine := takeSteps (c.granted g - c.effCeiling g) (c.activeUnits g)
  { c with bud := { c.bud with shed := rest ++ mine } }

/-- The threshold of a group in 1/64 °C (R472). -/
def throttleFrom (g : Nat) : Int := if g < 12 then 5440 else 6080

/-- R470 to R472: the effective ceiling of a group after a round; none: the configured one. -/
def Chip.ceilingAfter (c : Chip) (g : Nat) : Option Nat :=
  let cfg := c.f Fld.budGroupCfg_ceiling [g]
  let low := max (c.floorOf g) (cfg / 5)
  if c.flag Fld.thmCoolant_fault ∨ ((groupChans g).any fun j => c.flag Fld.pwrRail_fault [j]) then some low
  else
    let over_ := c.groupHot g - throttleFrom g
    if 0 < over_ then some (max (c.floorOf g) (cfg * max 320 (1600 - over_.toNat) / 1600)) else none

/-- R472: the throttling of a round: ceilings and what the groups shed; a fall is recorded once a round. -/
def Chip.throttleRound (c : Chip) : Chip :=
  let old := (List.range 58).map c.effCeiling
  let new : List (Nat × Option Nat) := (List.range 58).map fun g => (g, c.ceilingAfter g)
  let c : Chip := { c with throttle := new.filter fun p => p.2.isSome }
  let fell := (List.range 58).any fun g => decide (c.effCeiling g < old.getD g 0)
  let c := (List.range 58).foldl Chip.settleShed c
  if fell then c.ev .thmEvThrottle else c

/-! ### The Lantern's records (R476) -/

/-- The hottest node of the model: its temperature, node and unit (node 3 of unit 0: the panel). -/
def Chip.hottest (c : Chip) : Int × Nat × Nat :=
  ((List.range 70).flatMap fun u => (List.range 3).map fun n => (u, n)).foldl (fun h p =>
    let t := c.sf Fld.thmNode_temp [p.1, p.2]
    if h.1 < t then (t, p.2, p.1) else h) (c.sf Fld.thmPanel_temp, 3, 0)

/-- A record joins the ring; LANT_EV_REC records it while the MP runs (R476, R480). -/
def Chip.lantRecord (c : Chip) (cause : Nat) (running : Bool) : Chip :=
  let k := c.f Fld.lantRecHead_next
  let h := c.hottest
  let c := c.putWords .lantRec [k] [c.stamp,
    BitVec.ofNat 64 (tempField h.1 * 2 ^ 32 + cause * 2 ^ 16 + h.2.2 * 2 ^ 8 + h.2.1)]
  let c := c.setF Fld.lantRecHead_next [] ((k + 1) % 32)
  let c := c.countSat Fld.lantRecHead_total []
  let c : Chip := { c with boot := { c.boot with recNew := c.boot.recNew + 1 } }
  if running then c.ev .lantEvRec else c

/-- The records of the ring, oldest first. -/
def Chip.lantRecords (c : Chip) : List (List Word) :=
  let total := min 32 (c.f Fld.lantRecHead_total)
  (List.range total).map fun i => c.wordsOf .lantRec [(c.f Fld.lantRecHead_next + 32 - total + i) % 32]

end Sys2Proof.Machine
end

