-- ==== Sys2Proof/Machine/RadioOps.lean ====
section
/-!
DEFINITION. Sys2Proof/Machine/RadioOps.lean: radio time and framing (R34 to R36, R379 to R383, R551, R552):
ticks, frame boundaries, the launcher, the states of the timing island, and the writes of the FH_ registers
(R374, R380, R382, R389, R403).
-/

namespace Sys2Proof.Machine

/-! ### Slots -/

/-- Length of a slot in ns (R382). -/
def slotNs (numerology : Nat) : Nat := 1000000 / 2 ^ numerology

/-- Slots of a radio frame. -/
def frameSlots (numerology : Nat) : Nat := 10 * 2 ^ numerology

/-- The island is in LOCKED (R380). -/
def Chip.locked (c : Chip) : Bool := c.f Fld.fhState_state == 2

/-- The FH_WIN word in force (R389). -/
def Chip.fhWin (c : Chip) : Nat := (c.radio.winOld.getD (c.get { name := .fhWin })).toNat

/-- The two words of an eAxC entry in force (R374). -/
def Chip.eaxc (c : Chip) (k : Nat) : Nat × Nat :=
  let w := Tab.get c.radio.eaxcOld k (c.get { name := .fhEaxc, idx := [k] }, c.get { name := .fhEaxc, idx := [k], w := 1 })
  (w.1.toNat, w.2.toNat)

/-- Indices of the eAxC entries something has been written to. -/
def Chip.eaxcWritten (c : Chip) : List Nat :=
  c.regs.filterMap fun p => match p.1.name, p.1.idx, p.1.w with
    | .fhEaxc, [k], 0 => some k
    | _, _, _ => none

/-- R382: some eAxC entry is valid, as written or in force. -/
def Chip.anyEaxc (c : Chip) : Bool :=
  c.eaxcWritten.any fun k =>
    bitOf (c.get { name := .fhEaxc, idx := [k] }).toNat 63 || bitOf (c.eaxc k).1 63

/-- Fields of an entry (R373). -/
structure Eaxc where
  valid : Bool
  port  : Nat
  idHi  : Nat
  tent  : Nat
  wDl   : Nat
  wUl   : Nat
  mDl   : Nat
  mUl   : Nat
  udhdr : Bool
  depth : Nat
  nPrb  : Nat
  tci   : Nat
  base  : Nat
deriving DecidableEq, Repr

def Eaxc.ofWords (w : Nat × Nat) : Eaxc :=
  let width (x : Nat) : Nat := if x = 0 then 16 else x
  { valid := bitOf w.1 63, port := bitsOf w.1 62 60, idHi := bitsOf w.1 59 56, tent := bitsOf w.1 55 50,
    wDl := width (bitsOf w.1 49 46), wUl := width (bitsOf w.1 45 42), mDl := bitsOf w.1 41 41,
    mUl := bitsOf w.1 40 40, udhdr := bitOf w.1 39, depth := bitsOf w.1 38 36 + 1, nPrb := bitsOf w.1 35 27,
    tci := bitsOf w.1 15 0, base := bitsOf w.2 47 0 }

/-- Bytes of the buffer of an entry (R375). -/
def Eaxc.bufBytes (e : Eaxc) : Nat := 2 * e.depth * 14 * e.nPrb * 64

/-- Address of a PRB record (R375). -/
def Eaxc.prbAddr (e : Eaxc) (down : Bool) (n l k : Nat) : Nat :=
  e.base + (if down then e.depth * 14 * e.nPrb * 64 else 0) + ((n % e.depth * 14 + l) * e.nPrb + k) * 64

/-- The present bit of a record is cleared (R377, R388). -/
def Chip.clearPresent (c : Chip) (addr : Nat) : Chip := c.setByte (addr + 49) (c.byte (addr + 49) &&& 0xFE)

/-- R377: the uplink records of a slot have present clear from its tick on. -/
def Chip.clearUplink (c : Chip) (e : Eaxc) (n : Nat) : Chip :=
  (List.range (14 * e.nPrb)).foldl (fun c j => c.clearPresent (e.prbAddr false n 0 0 + 64 * j)) c

/-! ### The launcher -/

/-- R383: the start of one launch-table entry; one refused with QUEUE_FULL is reported. -/
def Chip.launch (c : Chip) (t : Nat) (e : LaunchEntry) : Chip :=
  match c.rankSite t e.rank with
  | none => c
  | some i =>
    let r := c.requestStart t i { pc := e.pc, arg := e.arg, src := 0 }
    if r.1 = Status.queueFull then
      c.message t 3 (leBytes 4 e.rank ++ leBytes 2 e.index ++ leBytes 1 e.trigger ++ leBytes 1 0 ++
        leBytes 8 c.radio.slots)
    else r.2

/-- R383: the launch-table entries of every OPEN Tent with a trigger. -/
def Chip.launchAll (c : Chip) (trigger : Nat) : Chip :=
  c.tents.foldl (fun c p =>
    if c.isOpen p.1 then (p.2.launch.filter fun e => e.trigger == trigger).foldl (fun c e => c.launch p.1 e) c
    else c) c

/-- R331: threads that wait for a slot tick, or for a frame boundary, go on with the slot count. -/
def Chip.wakeTicks (c : Chip) (frame : Bool) : Chip :=
  c.cores.foldl (fun c p => (siteHarts p.1).foldl (fun c h =>
    let t := c.thread h
    match t.state, t.wait with
    | 0, _ => c
    | _, .tick rd f =>
      if f = frame then
        (c.setThread h (t.setX rd (BitVec.ofNat 64 c.radio.slots))).retire h
      else c
    | _, _ => c) c) c

/-! ### Ticks and boundaries -/

/-- R41, R331, R383: a budget frame boundary. -/
def Chip.frameBoundary (c : Chip) : Chip := (c.newFrame.launchAll 2).wakeTicks true

/-- R35: at a tick the frame length written takes effect, or 1 where the tick changes the numerology from `old` and it
does not divide the new slot length. -/
def Chip.applyFrameLen (c : Chip) (old : Nat) : Chip :=
  let n := c.f Fld.budFrameCfg_frameLen
  if c.radio.numerology ≠ old ∧ 32 / 2 ^ c.radio.numerology % n ≠ 0 then
    let c := (c.setF Fld.budFrameCfg_frameLen [] 1).ev .budEvFrame
    { c with bud := { c.bud with frameLen := 1 } }
  else { c with bud := { c.bud with frameLen := n } }

def Chip.setNumerology (c : Chip) (n : Nat) : Chip := { c with radio := { c.radio with numerology := n } }

/-- The slot count goes on (R551), and what waits for the tick starts: launches (R383), TICKW (R331) and
the frame boundary that falls on every tick (R34). -/
def Chip.startSlot (c : Chip) : Chip :=
  let c : Chip := { c with radio := { c.radio with slots := c.radio.slots + 1 } }
  ((c.launchAll 1).wakeTicks false).frameBoundary

/-- R381: ns from the start of a radio frame whose SFN is the second number, at time `t` ns from the
GPS epoch; with tsrc 2 frames count from the last 1PPS edge. -/
def Chip.frameTime (c : Chip) (t : Nat) : Int × Int :=
  let off := c.sf Fld.fhOffset_offset
  if c.f Fld.fhCfg_tsrc = 2 then
    match c.radio.pps with
    | some (edge, sfn) => ((t : Int) - edge - off, sfn)
    | none => ((t : Int) - off, 0)
  else ((t : Int) - off, 0)

/-- R35, R377, R381, R552: the slot that starts on air at time `t` is named, what was written takes effect, and its
uplink records are clear. -/
def Chip.slotOpens (c : Chip) (t : Nat) : Chip :=
  let ft := c.frameTime t
  let want := c.f Fld.fhCfg_numerology
  let old := c.radio.numerology
  let c := (if ft.1 % slotNs (min want old) = 0 then c.setNumerology want else c).applyFrameLen old
  let sfn := (ft.2 + ft.1 / 10000000) % 1024
  let slot := ft.1 % 10000000 / slotNs c.radio.numerology
  let c := c.put { name := .fhSfn } (BitVec.ofNat 64 (sfn.toNat * 65536 + slot.toNat))
  let c := c.setF Fld.budFrameCfg_tickSource [] 0
  let radio : Radio := { c.radio with eaxcOld := [], winOld := none }
  let c : Chip := { c with radio := radio }
  c.eaxcWritten.foldl (fun c k =>
    let e := Eaxc.ofWords (c.eaxc k)
    if e.valid then c.clearUplink e (c.radio.slots + 1) else c) c

/-- SLOT_TICK (R381): a slot starts on air at time `t`. -/
def Chip.slotTick (c : Chip) (t : Nat) : Chip := if ¬ c.locked then c else (c.slotOpens t).startSlot

def execSlotTick (t : Nat) (s : State) : Outcome := onChip s fun c => c.slotTick t

/-- FREE_RUNNING_TICK (R36, R382). -/
def Chip.freeTick (c : Chip) : Chip :=
  if c.locked then c
  else
    let c := (c.setNumerology (c.f Fld.fhCfg_numerology)).applyFrameLen c.radio.numerology
    (c.setF Fld.budFrameCfg_tickSource [] 1).startSlot

def execFreeRunningTick (s : State) : Outcome := onChip s Chip.freeTick

/-- FRAME_BOUNDARY (R34, R41): a boundary between two ticks. -/
def execFrameBoundary (s : State) : Outcome := onChip s Chip.frameBoundary

/-- PPS_EDGE (R381): at time `t`, with tsrc 2: the SFN written applies, else it is counted on. -/
def Chip.ppsEdge (c : Chip) (t : Nat) : Chip :=
  if c.f Fld.fhCfg_tsrc ≠ 2 then c
  else
    let counted : Nat := match c.radio.pps with
      | some (edge, sfn) => (sfn + (t - edge + 5000000) / 10000000) % 1024
      | none => 0
    { c with radio := { c.radio with pps := some (t, c.radio.sfnSet.getD counted), sfnSet := none } }

def execPpsEdge (t : Nat) (s : State) : Outcome := onChip s fun c => c.ppsEdge t

/-! ### The states of the island (R380) -/

/-- A change of state; outside LOCKED there is no slot tick, and tick_source says so (R36, R381). -/
def Chip.setSync (c : Chip) (st : Nat) : Chip :=
  if c.f Fld.fhState_state = st then c
  else
    let c := if st = 2 then c else c.setF Fld.budFrameCfg_tickSource [] 1
    (c.setF Fld.fhState_state [] st).ev .fhEvSync

/-- The island passes from one state to another. -/
def Chip.passSync (c : Chip) (old new : Nat) : Chip := if c.f Fld.fhState_state = old then c.setSync new else c

def execSyncLocked (s : State) : Outcome := onChip s fun c => c.passSync 1 2

def execSyncLossTimeout (s : State) : Outcome := onChip s fun c => c.passSync 2 3

def execSyncSourceReturn (s : State) : Outcome := onChip s fun c => c.passSync 3 1

/-! ### Register writes -/

/-- FH_CFG (R380, R382). -/
def Chip.wFhCfg (c : Chip) (x : Word) : Nat × Chip :=
  let y := x.toNat
  if bitsOf y 27 24 = 0 ∨ bitsOf y 22 16 < 24 ∨ 43 < bitsOf y 22 16 ∨ bitsOf y 5 4 = 3 ∨ 4 < bitsOf y 2 0 ∨
      (bitsOf y 2 0 ≠ c.f Fld.fhCfg_numerology ∧ c.anyEaxc) then (Status.badParam, c)
  else
    let old := c.f Fld.fhCfg_tsrc
    let c := c.put { name := .fhCfg } (x &&& 0x0F7F0737)
    (Status.ok, if bitsOf y 5 4 = old then c else c.setSync (if bitsOf y 5 4 = 0 then 0 else 1))

/-- FH_OFFSET (R403, R552). -/
def Chip.wFhOffset (c : Chip) (x : Word) : Nat × Chip :=
  let v := signedOf 32 (bitsOf x.toNat 31 0)
  if v < -10000000 ∨ 10000000 < v then (Status.badParam, c)
  else (Status.ok, c.put { name := .fhOffset } (x &&& 0xFFFFFFFF))

/-- FH_WIN (R389). -/
def Chip.wFhWin (c : Chip) (x : Word) : Nat × Chip :=
  let y := x.toNat
  if bitsOf y 9 0 ≤ bitsOf y 29 20 ∨ bitsOf y 39 30 = 0 ∨ bitsOf y 29 20 = 0 ∨ bitsOf y 19 10 = 0 ∨
      bitsOf y 9 0 = 0 then (Status.badParam, c)
  else
    let radio : Radio := { c.radio with winOld := some (BitVec.ofNat 64 c.fhWin) }
    let c : Chip := { c with radio := radio }
    (Status.ok, c.put { name := .fhWin } (x &&& 0xFFFFFFFFFF))

/-- FH_SFN_SET (R381): ignored unless tsrc is 2. -/
def Chip.wFhSfnSet (c : Chip) (x : Word) : Nat × Chip :=
  if c.f Fld.fhCfg_tsrc ≠ 2 then (Status.ok, c)
  else (Status.ok, { c with radio := { c.radio with sfnSet := some (bitsOf x.toNat 9 0) } })

/-- FH_EAXC (R374): an entry written whole. -/
def Chip.wFhEaxc (c : Chip) (k : Nat) (x0 x1 : Word) : Nat × Chip :=
  let e := Eaxc.ofWords (x0.toNat, x1.toNat)
  let none16 (m w : Nat) : Bool := m == 0 && w != 16
  if bitsOf x0.toNat 26 16 ≠ 0 ∨ bitsOf x1.toNat 63 48 ≠ 0 ∨ e.nPrb = 0 ∨ 275 < e.nPrb ∨
      none16 e.mDl e.wDl ∨ none16 e.mUl e.wUl ∨ e.base % 64 ≠ 0 then (Status.badParam, c)
  else if ¬ c.admits e.tent .r e.base e.bufBytes ∨ ¬ c.admits e.tent .w e.base e.bufBytes then
    (Status.notPermitted, c)
  else
    let w := c.eaxc k
    let old := (BitVec.ofNat 64 w.1, BitVec.ofNat 64 w.2)
    let radio : Radio := { c.radio with eaxcOld := Tab.set c.radio.eaxcOld k old }
    let c : Chip := { c with radio := radio }
    (Status.ok, c.putWords .fhEaxc [k] [x0, x1])

def execFhCfgWrite (w : Writer) (x : Word) (s : State) : Outcome :=
  onReg w { name := .fhCfg } x s fun c => c.wFhCfg x

def execFhOffsetWrite (w : Writer) (x : Word) (s : State) : Outcome :=
  onReg w { name := .fhOffset } x s fun c => c.wFhOffset x

def execFhWinWrite (w : Writer) (x : Word) (s : State) : Outcome :=
  onReg w { name := .fhWin } x s fun c => c.wFhWin x

def execFhSfnSet (w : Writer) (x : Word) (s : State) : Outcome :=
  onReg w { name := .fhSfnSet } x s fun c => c.wFhSfnSet x

end Sys2Proof.Machine
end

