-- ==== Sys2Proof/Machine/Budget.lean ====
section
/-!
DEFINITION. Sys2Proof/Machine/Budget.lean: file 02 of spec/ beside the gates: writes of the BUD_ registers
(R34, R46, R49, R54, R59), leases and waiting grains as events (R41, R45), and the current arbiter (R49 to
R57).
-/

namespace Sys2Proof.Machine

/-! ### Register writes -/

/-- R34: BUD_FRAME_CFG: a frame length that divides the configured slot length is taken at the next slot
tick (R35); the frame length 31.25 µs × n divides 1,000 µs / 2^numerology where n divides 32 / 2^numerology. -/
def Chip.wFrameCfg (c : Chip) (x : Word) : Nat × Chip :=
  let n := bitsOf x.toNat 5 0
  let slot := 32 / 2 ^ c.f Fld.fhCfg_numerology
  if n = 0 ∨ slot % n ≠ 0 then (Status.badParam, c)
  else (Status.ok, c.setF Fld.budFrameCfg_frameLen [] n)

/-- BUD_PITCH (R40, R46): in force from the next frame on; the CAL class is Tent 0's alone. -/
def Chip.wPitch (c : Chip) (t cl : Nat) (x : Word) : Nat × Chip :=
  if cl = 7 ∧ t ≠ 0 then (Status.ok, c) else (Status.ok, c.setF Fld.budPitch_pitch [t, cl] x.toNat)

/-- BUD_CRED_BUDGET and PWR_BUDGET (R49). -/
def Chip.setBudget (c : Chip) (n : Nat) : Nat × Chip :=
  if n < 400 ∨ 1500 < n ∨ n < c.floorsAll then (Status.badParam, c)
  else (Status.ok, c.setF Fld.budCredBudget_budget [] n)

/-- BUD_GROUP_CFG (R54, R59, R56): ceiling and ramp limit; the floor is read-only. -/
def Chip.wGroupCfg (c : Chip) (g : Nat) (x : Word) : Nat × Chip :=
  let ceiling := bitsOf x.toNat 21 11
  let ramp := bitsOf x.toNat 30 24
  if ceiling < c.floorOf g ∨ 1500 < ceiling then (Status.badParam, c)
  else
    let was := c.f Fld.budGroupCfg_ramp [g]
    let old := c.rampOf g
    let c := (c.setF Fld.budGroupCfg_ceiling [g] ceiling).setF Fld.budGroupCfg_ramp [g] ramp
    let c := if ramp = 0 then c.setRamp g 0
      else if was = 0 then c.setRamp g (100 * (ramp : Int))
      else c.setRamp g (min old (100 * (ramp : Int)))
    (Status.ok, c.settleShed g)

def execFrameLenWrite (w : Writer) (x : Word) (s : State) : Outcome :=
  onReg w { name := .budFrameCfg } x s fun c => c.wFrameCfg x

def execCredBudgetWrite (w : Writer) (x : Word) (s : State) : Outcome :=
  onReg w { name := .budCredBudget } x s fun c => c.setBudget (bitsOf x.toNat 10 0)

/-- The consumer group exists (R51). -/
def groupOk (g : Nat) : Bool := decide (g < 58)

def execGroupCfgWrite (w : Writer) (g : Nat) (x : Word) (s : State) : Outcome :=
  if groupOk g then onReg w { name := .budGroupCfg, idx := [g] } x s fun c => c.wGroupCfg g x
  else .fault .noSuchUnit

/-- PWR_BUDGET (R49, R421): the credits in [10:0] of the first parameter. -/
def Chip.mpPwrBudget (c : Chip) (m : Cmd) : Chip :=
  if m.stray 0x7FF then c.finish 0x0903 m Status.badParam
  else
    let r := c.setBudget (bitsOf m.p 10 0)
    r.2.finish 0x0903 m r.1

def execPwrBudget (m : Cmd) (s : State) : Outcome :=
  onHost m s fun c => c.mpReceive 0x0903 m [] fun c => c.mpPwrBudget m

/-! ### Leases and waiting grains -/

/-- LEASE_REQUEST (R41): a gate asks the central counter for a lease for a grain of `qty`; nothing is issued
once the allowance is used. -/
def Chip.leaseRequest (c : Chip) (g : Gate) (t qty : Nat) : Chip := (c.requestLease g t qty).getD c

def execLeaseRequest (g : Gate) (t qty : Nat) (s : State) : Outcome :=
  onUnits (gateExists g && tentOk t) s fun c => c.leaseRequest g t qty

/-- The oldest MEM command of a Tent that has waited out its limit at a quadrant (R45). -/
def Chip.memDue (c : Chip) (q t : Nat) : Option (Serve × Nat × Cmd) :=
  c.passes.serves.findSome? fun s =>
    match s.who with
    | .cmd op m => if s.tent = t ∧ serveGate s = some (.quad q) ∧ c.f Fld.budWaitLimit_waitFrames [t] < s.met
        then some (s, op, m) else none
    | .frame _ => none

/-- The oldest frame of a Tent's MEM command that has waited out its limit at a local port. -/
def Chip.passDue (c : Chip) (p t : Nat) : Option (PassWait × Remote × Nat × Cmd) :=
  c.passes.gate.findSome? fun w =>
    if w.lane / 16 = p ∧ w.frame.tent = t ∧ c.f Fld.budWaitLimit_waitFrames [t] < w.met then
      c.passes.remotes.findSome? fun r =>
        match r.who with
        | .mem op m => if r.frame = w.frame then some (w, r, op, m) else none
        | .thread _ => none
    else none

/-- R45: the job of a Tent that a waiting grain belongs to, named by the job's own gate, ends
BUDGET_WAIT_LIMIT. At a quadrant and at a local port these are the MEM commands; what threads and other modules
ask for, site instructions and MP commands wait on (log entry 53). -/
def Chip.endWaiting (c : Chip) (owner : Gate) (t : Nat) : Chip × Bool :=
  match owner with
  | .quad q =>
    match c.memDue q t with
    | some (s, op, m) =>
      let c : Chip := { c with passes := { c.passes with serves := c.passes.serves.erase s } }
      ((c.syncServes q t).finish op m Status.budgetWaitLimit, true)
    | none => (c, false)
  | .pass p =>
    match c.passDue p t with
    | some (w, r, op, m) =>
      let c : Chip := { c with passes := { c.passes with gate := c.passes.gate.erase w,
                                                         remotes := c.passes.remotes.erase r } }
      (((c.syncPass p t).settleLane w.lane).settleRoutes.finish op m Status.budgetWaitLimit, true)
    | none => (c, false)
  | .dale k =>
    match (c.dale k).run with
    | some r =>
      if r.job.tent = t ∧ r.phase ≠ .ended then
        let c : Chip := { c with bud := { c.bud with requests := c.bud.requests.filter fun q => q.who != .dale k } }
        -- a row whose side sums are ready waits for their MEM grains: it and the rows after it are not written
        let c := if r.acc ≠ [] ∧ c.f Fld.daleSide_ready [k / 12, k % 12] ≠ 0 then
            (c.dropRows k).stopRun k r.written Status.budgetWaitLimit
          else c.stopRun k r.row Status.budgetWaitLimit
        (c.settleRun k, true)
      else if r.job.tent = t ∧ r.stop.isNone then
        -- all its rows are written, and its last records wait: they are written without a charge
        ((c.mapRun k fun r => { r with stop := some (r.written, Status.budgetWaitLimit) }).unwaitJob (.dale k) t, true)
      else if r.job.tent = t then (c.finishRun k, true)
      else (c, false)
    | none => (c, false)
  | .array i =>
    match (c.core i).run, (c.core i).steps with
    | none, .step _ _ _ _ :: _ => ((c.unwaitJob owner t).endStep i Status.budgetWaitLimit 0, true)
    | _, _ => (c, false)
  | .coder polar =>
    match c.coderJobs.find? fun j => j.tent == t && j.status.isNone &&
        ((CoderDesc.ofWords j.desc).kind == 2) == polar &&
        decide (j.started < (CoderDesc.ofWords j.desc).blocks) with
    | some j => ((c.setCoderJob { j with status := some Status.budgetWaitLimit }).unwaitJob owner t, true)
    | none => (c, false)
  | .cal q =>
    -- the programming of a Veld for a weight set of the Tent (R167, R365)
    match ((c.veld (q - 12)).progs.findSome? fun p => match p.2.what with
      | .set t' k _ _ _ => if t' = t then some k else none
      | _ => none) with
    | some k => (c.failSet t k Status.budgetWaitLimit none, true)
    | none => (c, false)
  | _ => (c, false)

/-- WAIT_LIMIT_EXPIRE (R45). -/
def Chip.waitLimit (c : Chip) (g : Gate) (t : Nat) : Chip :=
  let lim := c.f Fld.budWaitLimit_waitFrames [t]
  let due := (c.waitingAt g t).filter fun w => decide (lim ≠ 0 ∧ lim + 1 ≤ w.met)
  due.foldl (fun c w =>
    let r := c.endWaiting (w.job.getD g) t
    if r.2 then r.1.ev .budEvWait [t] else c) c

def execWaitLimitExpire (g : Gate) (t : Nat) (s : State) : Outcome :=
  onUnits (gateExists g && tentOk t) s fun c => c.waitLimit g t

/-! ### The current arbiter -/

/-- CREDIT_REQUEST (R52, R57). -/
def execCreditRequest (a : Asker) (s : State) : Outcome :=
  onUnits (askerExists a) s fun c => c.askCredits a

/-- RAMP_REFILL (R54): `us` microseconds refill `us` hundredths of the limit, to its depth. -/
def Chip.rampRefill (c : Chip) (g us : Nat) : Chip :=
  let r := c.f Fld.budGroupCfg_ramp [g]
  if r = 0 then c else c.setRamp g (min (100 * (r : Int)) (c.rampOf g + ((r * us : Nat) : Int)))

def execRampRefill (g us : Nat) (s : State) : Outcome := onUnits (groupOk g) s fun c => c.rampRefill g us

/-- CREDIT_RELEASE (R55, R56): an idle unit releases its step; a group within its effective ceiling sheds
nothing any more. -/
def Chip.creditRelease (c : Chip) (a : Asker) : Chip :=
  let g := askerGroup a
  let done (c : Chip) : Chip := (c.dropCredits g (askerStep a)).settleShed g
  match a with
  | .dale k =>
    let busy : Bool := match (c.dale k).run with
      | some r => r.phase == .batch || (r.phase != .credit && r.phase != .ended && !c.bud.shed.contains a)
      | none => false
    if (c.dale k).active ∧ ¬ busy then done (c.setDale k { c.dale k with active := false }) else c
  | .reading n =>
    let v := c.veld n
    if 0 < v.reads ∧ c.reading n ≤ 64 * (v.reads - 1) then done (c.setVeld n { v with reads := v.reads - 1 })
    else c
  | .program n _ =>
    let v := c.veld n
    if 0 < v.pairs ∧ c.programming n ≤ 2 * (v.pairs - 1) then done (c.setVeld n { v with pairs := v.pairs - 1 })
    else c
  | .quarter _ => if c.floorOf g < c.granted g then done c else c
  | .decoder => if c.coderBusy 0 < c.decCredit then done { c with decCredit := c.decCredit - 1 } else c
  | .encoder => if c.coderBusy 1 < c.encCredit then done { c with encCredit := c.encCredit - 1 } else c
  | .booster k =>
    let on := c.f Fld.passPort_boostOn
    if bitOf on k ∧ c.bud.shed.contains a then done (c.setF Fld.passPort_boostOn [] (on - 2 ^ k)) else c

def execCreditRelease (a : Asker) (s : State) : Outcome :=
  onUnits (askerExists a) s fun c => c.creditRelease a

end Sys2Proof.Machine
end

