-- ==== Sys2Proof/Machine/Drive.lean ====
section
/-!
DEFINITION. Sys2Proof/Machine/Drive.lean: the events of the direct channels and tone generators (R221,
R222, R238 to R240), the writes of the DRV_ registers (R242) and the DRV commands (R421).
-/

namespace Sys2Proof.Machine

/-- Vale and direct channel exist (R223). -/
def chanOk (v n : Nat) : Bool := decide (v < 12 ∧ n < 1920)

/-- DEGLITCH_RELEASE (R221): the hold ends and the newest code is released. -/
def Chip.deglitchRelease (c : Chip) (v n : Nat) : Chip :=
  let ch := c.chan v n
  if ch.held ∧ ch.ranging.isNone then
    c.setChan v n { ch with out := ch.given, held := false }
  else c

def execDeglitchRelease (v n : Nat) (s : State) : Outcome :=
  onUnits (chanOk v n) s fun c => c.deglitchRelease v n

/-- RANGE_HOLD_RELEASE (R222). -/
def execRangeHoldRelease (v n : Nat) (s : State) : Outcome :=
  onUnits (chanOk v n) s fun c => c.endRange v n

/-- What the log of a tone generator still needs: all that reaches into the last 256 cycles, the longest pass
(R200). -/
def keepLog (now : Nat) : List (Nat × Nat × Nat) → List (Nat × Nat × Nat)
  | [] => []
  | x :: xs => if x.1 + 256 ≤ now then [x] else x :: keepLog now xs

/-- R239, R240: one cycle of a tone generator. -/
def Chip.toneCycle (c : Chip) (v t : Nat) : Chip :=
  let starts := c.toneStart.contains (v, t)
  let step := if c.flag Fld.drvToneCtl_en [v, t] then c.f Fld.drvToneFcw_fcw [v, t] else 0
  let log := Tab.get c.toneLog (v, t) []
  let was := (log.head?.map fun x => x.2.2).getD 0
  let acc := if starts then 0 else (Tab.get c.tones (v, t) 0 + step) % 2 ^ 32
  let c : Chip := if starts ∨ step ≠ was then
      { c with toneStart := c.toneStart.filter fun x => x != (v, t)
               toneLog := Tab.set c.toneLog (v, t) ((c.gclk, acc, step) :: keepLog c.gclk log) }
    else c
  if starts ∨ step ≠ 0 then { c with tones := Tab.set c.tones (v, t) acc } else c

/-- R255: a Guyline seed loads at the next count; zero leaves the state running. -/
def Chip.loadGuySeeds (c : Chip) : Chip :=
  let c := c.guySeed.foldl (fun (c : Chip) p =>
    if p.2 = 0 then c else c.setGen (.guyline p.1) { s := p.2 }) c
  { c with guySeed := [] }

/-- SAMPLE_CLOCK_CYCLE (R204, R238 to R240): the cycle counter counts, common to all Vales; tones advance;
every direct channel that has been driven slews and adds its tone. -/
def Chip.sampleCycle (c : Chip) : Chip :=
  let c := { c with gclk := c.gclk + 1 }
  let c := c.loadGuySeeds
  let c := (List.range 12).foldl (fun c v => (List.range 16).foldl (fun c t => c.toneCycle v t) c) c
  (c.chans.map fun p => p.1).foldl (fun c p => c.channelCycle p.1 p.2) c

def execSampleClockCycle (s : State) : Outcome := onChip s fun c => c.sampleCycle

/-! ### Register writes (R242) -/

/-- DRV_CH (R224, R242): refused whole while a loop drives the channel. -/
def Chip.wDrvCh (c : Chip) (v n : Nat) (x : Word) : Nat × Chip :=
  if c.flag Fld.drvCh_assigned [v, n] then (Status.badParam, c)
  else (Status.ok, c.writeChannel v n x.toNat)

/-- DRV_DALE_CFG: slew_step must not be 0 while slew_en is 1. -/
def Chip.wDrvDaleCfg (c : Chip) (v d : Nat) (x : Word) : Nat × Chip :=
  let n := x.toNat
  if bitOf n 0 ∧ bitsOf n 23 16 = 0 then (Status.badParam, c)
  else (Status.ok, c.put { name := .drvDaleCfg, idx := [v, d] }
    (BitVec.ofNat 64 (bitsOf n 23 16 * 65536 + bitsOf n 1 0)))

/-- DRV_PAIR (R230): in force when both Dales of a pair are idle (`Chip.linkOn`). -/
def Chip.wDrvPair (c : Chip) (v : Nat) (x : Word) : Nat × Chip :=
  (Status.ok, c.put { name := .drvPair, idx := [v] } (BitVec.ofNat 64 (bitsOf x.toNat 5 0)))

/-- DRV_TONE_FCW: at most 0x1999_9999 (R239). -/
def Chip.wToneFcw (c : Chip) (v t : Nat) (x : Word) : Nat × Chip :=
  let n := bitsOf x.toNat 31 0
  if 0x19999999 < n then (Status.badParam, c)
  else (Status.ok, c.put { name := .drvToneFcw, idx := [v, t] } (BitVec.ofNat 64 n))

/-- DRV_TONE_CTL (R240): setting en starts the accumulator from 0 at the next cycle. -/
def Chip.wToneCtl (c : Chip) (v t : Nat) (x : Word) : Nat × Chip :=
  let n := x.toNat
  let starts := bitOf n 31 && !c.flag Fld.drvToneCtl_en [v, t]
  let c := c.put { name := .drvToneCtl, idx := [v, t] }
    (BitVec.ofNat 64 (bitsOf n 31 31 * 2 ^ 31 + bitsOf n 11 0))
  (Status.ok, if starts then { c with toneStart := (v, t) :: c.toneStart } else c)

/-- DRV_BANK (R234): in force when the bank is next dark; one dark now takes it at once. -/
def Chip.wDrvBank (c : Chip) (v b : Nat) (x : Word) : Nat × Chip :=
  let n := x.toNat
  if 240 < bitsOf n 15 8 ∨ 200 < bitsOf n 7 0 then (Status.badParam, c)
  else
    let dark := c.f Fld.drvBank_dark [v, b]
    let c := c.put { name := .drvBank, idx := [v, b] } (BitVec.ofNat 64 (dark * 2 ^ 31 + bitsOf n 15 0))
    (Status.ok, if dark = 1 then c.setBank v b { c.bank v b with drive := bitsOf n 15 0 } else c)

/-- DRV_XT: a non-zero write to k = 12 is refused. -/
def Chip.wDrvXt (c : Chip) (v d k : Nat) (x : Word) : Nat × Chip :=
  let n := bitsOf x.toNat 15 0
  if k = 12 ∧ n ≠ 0 then (Status.badParam, c)
  else (Status.ok, c.put { name := .drvXt, idx := [v, d, k] } (BitVec.ofNat 64 n))

/-- R232: every heater output clamps and every bank is forced dark. -/
def Chip.clampAll (c : Chip) : Chip :=
  let regs := c.regs.map fun p =>
    if p.1.name = .drvCh ∨ p.1.name = .drvDaleState ∨ p.1.name = .drvBank then
      (p.1, setBits p.2 31 31 1) else p
  { c with regs := regs }

/-! ### Commands -/

/-- DRV_CH (R224, R242). -/
def Chip.mpDrvCh (c : Chip) (m : Cmd) : Chip :=
  let v := bitsOf m.p 3 0
  let n := bitsOf m.p 26 16
  if m.stray 0x7FF000F ∨ ¬ chanOk v n then c.finish 0x0801 m Status.badParam
  else
    let r := c.wDrvCh v n (m.words.headD 0)
    r.2.finish 0x0801 m r.1

def execDrvCh (m : Cmd) (s : State) : Outcome :=
  onHost m s fun c => c.mpReceive 0x0801 m [] fun c => c.mpDrvCh m

/-- DRV_XT: the 50 coefficients, 4 per word, k ascending, written whole. -/
def Chip.mpDrvXt (c : Chip) (m : Cmd) : Chip :=
  let v := bitsOf m.p 3 0
  let d := bitsOf m.p 11 8
  let coef (k : Nat) : Nat := bitsOf (m.word (k / 4 + 1)) (k % 4 * 16 + 15) (k % 4 * 16)
  if m.stray 0xF0F ∨ 11 < v ∨ 11 < d ∨ coef 12 ≠ 0 ∨ coef 50 ≠ 0 ∨ coef 51 ≠ 0 then
    c.finish 0x0802 m Status.badParam
  else
    let c := (List.range 50).foldl (fun c k => (c.wDrvXt v d k (BitVec.ofNat 64 (coef k))).2) c
    c.finish 0x0802 m Status.ok

def execDrvXt (m : Cmd) (s : State) : Outcome :=
  onHost m s fun c => c.mpReceive 0x0802 m [] fun c => c.mpDrvXt m

end Sys2Proof.Machine
end

