-- ==== Sys2Proof/Machine/LoopOps.lean ====
section
/-!
DEFINITION. Sys2Proof/Machine/LoopOps.lean: the tick of a Guyline loop (R244 to R271), its test signal and
captures (R272, R273), the modes' entries and exits (R251, R256 to R259), and the writes of the GUY_
registers (R275).
-/

namespace Sys2Proof.Machine

/-! ### Test signals and captures -/

def Chip.loopTest (c : Chip) (v : Nat) : LoopTest := Tab.get c.tests v {}

/-- The test of the Vale is on loop `n`. -/
def Chip.testOn (c : Chip) (v n : Nat) : Bool :=
  c.flag Fld.guyTestCtl_active [v] && c.f Fld.guyTestCtl_loop [v] == n

/-- R272: the frequency of a swept sine in step `k`; each step's quotient is cut to whole units (log
entry 30). -/
def sweepFreq (f0 f1 : Nat) (steps k : Nat) : Nat :=
  if steps ≤ 1 then f0 else ((f0 : Int) + ((f1 : Int) - (f0 : Int)) * ((k : Nat) : Int) / ((steps - 1 : Nat) : Int)).toNat

/-- R272: the injection at a non-stale tick of the loop under test: at the output and at the target, and
the test one tick on. -/
def Chip.injection (c : Chip) (v n : Nat) : Int × Int × Chip :=
  if ¬ c.testOn v n then (0, 0, c)
  else
    let t := c.loopTest v
    let a : Nat := c.f Fld.guyTestAmp_amp [v] * 2 ^ c.f Fld.guyTestAmp_shift [v]
    let sig := c.f Fld.guyTestCtl_sig [v]
    let bit := t.lfsr / 2 ^ 14 % 2
    let fb := (bit + t.lfsr / 2 ^ 13) % 2
    let steps := c.f Fld.guyTestDwell_steps [v]
    let dwell := c.f Fld.guyTestDwell_dwell [v]
    let ended := sig = 2 ∧ steps * dwell ≤ t.ticks
    let s := toneValue (bitsOf t.phase 23 22) (bitsOf t.phase 21 12)
    let r := (c.gen (.guyline v)).roundDiv (a * s) 32768
    let x : Int :=
      if ended then 0
      else if sig = 0 then a
      else if sig = 1 then (if bit = 1 then (a : Int) else -(a : Int))
      else r.1
    let c := if sig = 2 ∧ ¬ ended then c.setGen (.guyline v) r.2 else c
    let f := sweepFreq (c.f Fld.guyTestFreq_fStart [v]) (c.f Fld.guyTestFreq_fStop [v]) steps
      (t.ticks / max dwell 1)
    let t' : LoopTest :=
      { lfsr := (2 * t.lfsr + fb) % 2 ^ 15, phase := (t.phase + f) % 2 ^ 24, ticks := t.ticks + 1 }
    let c : Chip := { c with tests := Tab.set c.tests v t' }
    let st := c.loopState v n
    if c.f Fld.guyTestCtl_point [v] = 1 then
      (0, if st = 3 ∨ st = 2 ∨ st = 5 then x else 0, c)
    else (if st = 3 ∨ st = 5 then x else 0, 0, c)

/-- R273: one entry of a capture for a tick of a named loop. -/
def Chip.capture (c : Chip) (v n : Nat) (e : Int) : Chip :=
  if ¬ c.flag Fld.guyCapState_active [v] ∨ ¬ (c.capLoops v).contains n then c
  else
    let i := c.f Fld.guyCapState_next [v]
    let word := fieldOf 24 (clampInt (-(2 ^ 23)) (2 ^ 23 - 1) e) + c.f Fld.guyLstate_p [v, n] * 2 ^ 24 +
      n * 2 ^ 52 + (c.loopGood v n).toNat * 2 ^ 63
    let c := c.setNum (c.f Fld.guyCapBase_base [v] * 65536 + 8 * (i % 65536)) 8 word
    if c.f Fld.guyCapCtl_mode [v] = 0 then
      let c := c.setF Fld.guyCapState_next [v] (i + 1)
      if i + 1 = 65536 then c.setF Fld.guyCapState_active [v] 0 else c
    else
      let c := c.setF Fld.guyCapState_next [v] ((i + 1) % 65536)
      let c := if i + 1 = 65536 then c.setF Fld.guyCapState_wrapped [v] 1 else c
      if c.flag Fld.guyCapState_triggered [v] then
        let left := Tab.get c.capLeft v 0 - 1
        let c : Chip := { c with capLeft := Tab.set c.capLeft v left }
        if left = 0 then c.setF Fld.guyCapState_active [v] 0 else c
      else c

/-! ### What a tick reads -/

/-- The latest output of a loop's entry `ent` and its count, none before the first (R245). -/
def Chip.latest (c : Chip) (v adc ent : Nat) : Option (Nat × Int) :=
  if c.flag Fld.convAcc_valid [v, adc, ent] then
    some (c.f Fld.convAcc_seq [v, adc, ent], c.sf Fld.convAcc_value [v, adc, ent])
  else none

/-- The thermal unit of a Vale's photonic die (file 15, the units of the thermal model). -/
def photonicUnit (v : Nat) : Nat := v + 1

/-- R267: while ff_en is 1, the forecast of a loop moves towards T_f of its node over the tick's length. -/
def Chip.advanceForecast (c : Chip) (v n : Nat) (e : LoopE) : Chip :=
  if c.flag Fld.guyCfg_ffEn [v] then
    let lp := c.loop v n
    let tf := c.sf Fld.thmNode_tf [photonicUnit v, e.ffNode]
    let tau := c.f Fld.thmParam_tau [photonicUnit v, e.ffNode]
    c.setLoop v n { lp with forecast := advance lp.forecast tf e.div (20 * tau) }
  else c

/-- R249: the error of an output, by the entry's polarity. -/
def errorOf (e : LoopE) (m tgt : Int) : Int := if e.pol then tgt - m else m - tgt

/-! ### Acquisition failures -/

/-- R258: ACQ_FAIL: recorded and counted; SEARCH starts again from p_start. -/
def Chip.acqFail (c : Chip) (v n : Nat) : Chip :=
  ((c.ev .guyEvAcqfail [v]).countSat Fld.guyLstate_acqFails [v, n]).startSearch v n 5

/-- R260: a sweep that reaches p_max fails; the lines a selector recorded in it are invalidated. -/
def Chip.sweepFail (c : Chip) (v n : Nat) : Chip :=
  let c := match selectorBank n with
    | some b => (c.loop v n).swept.foldl (fun (c : Chip) x => c.setF Fld.guyLine_valid [v, b, x] 0) c
    | none => c
  c.acqFail v n

/-- All 16 entries of a bank's line table are valid. -/
def Chip.linesValid (c : Chip) (v b : Nat) : Bool :=
  (List.range 16).all fun x => c.flag Fld.guyLine_valid [v, b, x]

/-! ### SEARCH -/

/-- R260 step 5: a line's peak power is recorded, less the feedforward of the tick. -/
def Chip.recordLine (c : Chip) (v n b line p : Nat) : Chip :=
  let e := c.loopE v n
  let ff := c.feedforward v n
  let clampP (x : Int) : Nat := (clampInt 0 powerMax x).toNat
  -- ring 1's power p × ratio / 256 is rounded to a whole power with one draw (R93)
  let r := (c.gen (.guyline v)).roundDiv ((p * e.ratio : Nat) : Int) 256
  let c := (c.setGen (.guyline v) r.2).setF Fld.guyLine_p0 [v, b, line] (clampP ((p : Int) - ff))
  let c := c.setF Fld.guyLine_p1 [v, b, line] (clampP (clampInt 0 powerMax r.1 - ff))
  let c := c.setF Fld.guyLine_valid [v, b, line] 1
  let lp := c.loop v n
  c.setLoop v n { lp with swept := line :: lp.swept, lineRef := Tab.set lp.lineRef line lp.forecast,
                          nextLine := some ((line + 15) % 16) }

/-- R260 steps 2 to 5: the level output at the present power: a passband begins, grows or ends. -/
def Chip.passband (c : Chip) (v n b p : Nat) (level : Int) : Chip :=
  let e := c.loopE v n
  let lp := c.loop v n
  if ¬ lp.inBand then
    if e.acqThr < level then c.setLoop v n { lp with inBand := true, peakLvl := level, peakP := p } else c
  else if 2 * level < e.acqThr then
    let c := c.setLoop v n { lp with inBand := false }
    match lp.nextLine with
    | some line => c.recordLine v n b line lp.peakP
    | none =>
      let i := ((c.latest v e.adc e.mkiEnt).map fun x => x.2).getD 0
      let q := ((c.latest v e.adc e.mkqEnt).map fun x => x.2).getD 0
      if ((e.mkThr * e.mkThr : Nat) : Int) ≤ i * i + q * q then c.recordLine v n b 0 lp.peakP else c
  else if lp.peakLvl < level then c.setLoop v n { lp with peakLvl := level, peakP := p }
  else c

/-- The sweep rises by one step, or fails at p_max. -/
def Chip.sweepUp (c : Chip) (v n p : Nat) : Chip :=
  let e := c.loopE v n
  if e.pMax ≤ p then c.sweepFail v n else c.drivePower v n e (min e.pMax (p + 16 * e.sweep))

/-- R206: in SEARCH the engine may ask for conversions of a loop's level input besides its table, one at a time. When it
does the spec leaves open: a free value says (log entry 96). -/
def Chip.askConversion (c : Chip) (v n : Nat) (e : LoopE) : Chip :=
  let a := c.adc v e.adc
  let running := match a.run with
    | .inj i => [i]
    | _ => []
  let x := (c.get { name := .convSeq, idx := [v, e.adc, e.lvlEnt] }).toNat
  let req := setBits (setBits (setBits (BitVec.ofNat 64 x) 18 16 0) 30 30 0) 39 32 0
  if (running ++ a.queue ++ a.held).any (fun i => i.who == .loop n) ∨ injRefused req.toNat then c
  else
    let r := c.takeFree
    if r.1.toNat % 2 = 0 then r.2 else r.2.engineInject v e.adc { req := req, who := .loop n }

/-- The level of a loop's acquisition: the output of its conversion, or the latest of its entry. -/
def Chip.levelNow (c : Chip) (v n : Nat) (e : LoopE) : Option Int :=
  match (c.loop v n).delivered with
  | some x => some x
  | none => (c.latest v e.adc e.lvlEnt).map fun x => x.2

/-- SEARCH of a selector (R260), a ring (R261), or an LO loop (R262) at a tick with error output `m`. -/
def Chip.searchTick (c : Chip) (v n : Nat) (m : Int) : Chip :=
  let e := c.loopE v n
  let p := c.f Fld.guyLstate_p [v, n]
  let level := c.levelNow v n e
  let c := if e.kind = 1 ∨ e.kind = 2 then
      (c.setLoop v n { c.loop v n with delivered := none }).askConversion v n e else c
  if e.kind = 2 then
    match selectorBank n, level with
    | some b, some lv =>
      let c := c.passband v n b p lv
      if c.linesValid v b then c.lineStep v b (c.targetLine v b) else c.sweepUp v n p
    | _, _ => c.sweepUp v n p
  else if e.kind = 1 then
    let lp := c.loop v n
    let d := (m - e.target).natAbs
    let better := decide (0 ≤ m * e.target) && (match lp.best with
      | none => true
      | some x => decide (d < x.1))
    let best := if better then some (d, p) else lp.best
    let c := c.setLoop v n { lp with best := best }
    if (level.map fun x => decide (x < e.acqThr)).getD false then
      c.enterSettle v n ((best.map fun x => x.2).getD p) 5
    else c.sweepUp v n p
  else
    let lp := c.loop v n
    let better := match lp.best with
      | none => true
      | some x => decide ((x.1 : Int) < m + 2 ^ 23)
    let best := if better then some ((m + 2 ^ 23).toNat, p) else lp.best
    let c := c.setLoop v n { lp with best := best }
    if e.pMax ≤ p then c.enterSettle v n ((best.map fun x => x.2).getD p) 5
    else c.drivePower v n e (min e.pMax (p + 16 * e.sweep))

/-! ### The law -/

/-- GUY_LSTATE shows the integrator. -/
def Chip.showInteg (c : Chip) (v n : Nat) : Chip :=
  let i := (c.loop v n).integ
  let c := c.setF Fld.guyLstate_iExp [v, n] i.e
  c.setF Fld.guyLstate_iMant [v, n] (fieldOf 18 (i.ms.getD 0 0))

/-- R253: one run of the law; the states are brought back to normal form, stage 0 first. At the tick
after a preload the law gives the preloaded value itself (log entry 29). -/
def Chip.runLaw (c : Chip) (v n : Nat) (err ff pLast : Int) : Dy × Chip :=
  let e := c.loopE v n
  let lp := c.loop v n
  let coef := c.coef v n e.csel
  if lp.load then
    let v0 := pLast - ff
    let r := preload (c.gen (.guyline v)) ((coef 0).val 0) e.nst lp v0 err
    let c := (c.setGen (.guyline v) r.2).setLoop v n { r.1 with load := false }
    (Dy.ofInt v0, c.showInteg v n)
  else
    let o := stageLaw coef e.nst (c.f Fld.guyLstate_sat [v, n]) lp err
    let i := bfpStore (c.gen (.guyline v)) [o.integ]
    let hs := Gen.mapM (fun g xs => bfpStore g xs) i.2 o.stages
    let c := (c.setGen (.guyline v) hs.2).setLoop v n { lp with integ := i.1, stages := hs.1 }
    (o.v, c.showInteg v n)

/-- R254: sat returns to 0 at an error of the opposite sign, and is set by the unclamped power. -/
def satAfter (sat : Nat) (err : Int) (u : Dy) (lo hi : Nat) : Nat :=
  if u.gt hi then 1
  else if u.lt lo then 2
  else if (sat = 1 ∧ err < 0) ∨ (sat = 2 ∧ 0 < err) then 0
  else sat

/-- R254: the clamped power; a power between grid points is rounded with one draw (R93). After a swap at the clamp the
output stays there until the error changes sign (R266). -/
def Chip.clampSat (c : Chip) (v n : Nat) (u : Dy) (err : Int) : Nat × Chip :=
  let e := c.loopE v n
  let sat := c.f Fld.guyLstate_sat [v, n]
  if (c.loop v n).pinned ∧ ((sat = 1 ∧ 0 ≤ err) ∨ (sat = 2 ∧ err ≤ 0)) then (if sat = 1 then e.pMax else e.pMin, c)
  else
  let c := c.setLoop v n { c.loop v n with pinned := false }
  let c := c.setF Fld.guyLstate_sat [v, n] (satAfter sat err u e.pMin e.pMax)
  if u.gt e.pMax then (e.pMax, c)
  else if u.lt e.pMin then (e.pMin, c)
  else
    let r := (c.gen (.guyline v)).round16 u.floor16
    ((clampInt e.pMin e.pMax r.1).toNat, c.setGen (.guyline v) r.2)

/-! ### Lock-good and flanks -/

/-- R263: the lock decision of a tick with error `err` against the target. -/
def Chip.lockTick (c : Chip) (v n st : Nat) (err : Int) : Chip :=
  let e := c.loopE v n
  let lp := c.loop v n
  if e.lockWin < err.natAbs then c.loopFall v n 1
  else if st ≠ 3 then c
  else
    let c := c.setLoop v n { lp with good := lp.good + 1 }
    if e.lockN ≤ lp.good + 1 ∧ ¬ c.loopGood v n then
      let c := c.setF Fld.guyLstate_lockGood [v, n] 1
      let c := c.setF Fld.guyLstate_wrongFlank [v, n] 0
      c.syncGood v e.div
    else c

/-- R271: the flank check of a ring loop in TRACK or SETTLE. -/
def Chip.flankTick (c : Chip) (v n : Nat) (m : Int) : Chip :=
  let e := c.loopE v n
  let st := c.loopState v n
  if e.kind ≠ 1 ∨ (st ≠ 2 ∧ st ≠ 3) then c
  else
    let lp := c.loop v n
    if m * e.target < 0 then
      if e.lockN ≤ lp.wrong + 1 then
        let c := c.setF Fld.guyLstate_wrongFlank [v, n] 1
        let c := c.loopFall v n 3
        let c := c.ev .guyEvFlank [v]
        let p := (clampInt e.pMin e.pMax (c.f Fld.guyLstate_p [v, n] + e.flankStep)).toNat
        let c := c.setLoop v n { c.loop v n with wrong := 0, timing := lp.timing }
        c.enterSettle v n p 3
      else c.setLoop v n { lp with wrong := lp.wrong + 1 }
    else c.setLoop v n { lp with wrong := 0 }

/-! ### Entries written, and modes -/

/-- Bits [hi:lo] of word 0 of an entry replaced. -/
def withBits (ws : List Word) (hi lo x : Nat) : List Word :=
  ws.mapIdx fun i w => if i = 0 then setBits w hi lo x else w

/-- R256: hand-over, and other entries to TRACK: mode 1 stands in the entry. -/
def Chip.modeOne (c : Chip) (v n : Nat) : Chip :=
  let r : Reg := { name := .guyLoop, idx := [v, n] }
  let c := c.put r (setBits (c.get r) 5 4 1)
  let lp := c.loop v n
  c.setLoop v n { lp with entry := withBits lp.entry 5 4 1 }

/-- R256: the state a requested mode leads to when an entry is written. -/
def Chip.requestMode (c : Chip) (v n : Nat) : Chip :=
  let e := c.loopE v n
  let st := c.loopState v n
  let parked := (c.loop v n).parked
  let c := if e.mode ≠ 1 ∧ parked then c.setLoop v n { c.loop v n with parked := false } else c
  if st = 7 then c
  else if e.mode = 0 then c.startSearch v n 4
  else if e.mode = 1 then
    if parked then c
    else if st = 4 ∨ st = 5 then
      (c.loopTo v n 3 4).setLoop v n { c.loop v n with load := true, good := 0, wrong := 0 }
    else if st = 0 then c.startSearch v n 4
    else c
  else if e.mode = 2 then c.loopTo v n 4 4
  else
    (c.loopTo v n 5 4).setLoop v n { c.loop v n with tRef := (c.loop v n).forecast }

/-- The assigned bits of the DACs an entry drives (R224, R251). -/
def Chip.assignDacs (c : Chip) (v : Nat) (e : LoopE) (on : Bool) : Chip :=
  (loopDacs e).foldl (fun c x => c.setF Fld.drvCh_assigned [v, x] on.toNat) c

/-- R251: a loop is freed: its DACs keep their codes and are assigned no more. -/
def Chip.freeLoop (c : Chip) (v n : Nat) : Chip :=
  let e := c.loopE v n
  let c := ((c.assignDacs v e false).loopFall v n 4).setF Fld.guyLstate_state [v, n] 0
  (c.setLoop v n {}).syncGood v e.div

/-- R251: a free loop is assigned by an entry and starts in the state its mode requests. HOLD freezes the output its DAC
has (log entry 24). -/
def Chip.startLoop (c : Chip) (v n : Nat) (ws : List Word) : Chip :=
  let e := LoopE.ofWords ws
  let c := (c.assignDacs v e true).putWords .guyLstate [v, n] [0, 0, 0, 0]
  let c := c.setLoop v n { entry := ws }
  let c := if e.mode = 2 then
      let code := c.f Fld.drvCh_code [v, c.routedDac v e.out]
      ((c.setF Fld.guyLstate_code [v, n] code).setF Fld.guyLstate_p [v, n] (code * code)).setF Fld.guyLstate_state [v, n] 4
    else if e.mode = 3 then c.setF Fld.guyLstate_state [v, n] 5
    else c.startSearch v n 4
  c.syncGood v e.div

/-- R251: the written entry comes into force. -/
def Chip.takeEntry (c : Chip) (v n : Nat) : Chip :=
  let lp := c.loop v n
  let e := c.loopWritten v n
  if ¬ lp.fresh then c
  else if c.loopState v n = 0 then
    if e.kind = 0 then c.setLoop v n { lp with fresh := false } else c.startLoop v n (c.loopWords v n)
  else if e.kind = 0 then c.freeLoop v n
  else
    -- csel changes at the end of the tick (R266)
    let ws := withBits (c.loopWords v n) 6 6 (c.loopE v n).csel
    (c.setLoop v n { lp with fresh := false, entry := ws }).requestMode v n

/-- R266: a coefficient swap at the end of a tick with error `err`. -/
def Chip.swapCoefs (c : Chip) (v n : Nat) (err : Int) : Chip :=
  let cur := c.loopE v n
  let want := (c.loopWritten v n).csel
  if cur.csel = want ∨ cur.kind = 0 then c
  else
    let lp := c.loop v n
    let kpOld := (c.coef v n cur.csel 0).val 0
    let kpNew := (c.coef v n want 0).val 0
    let i := Dy.add (lp.integ.val 0) (Dy.mul (Dy.add kpOld (Dy.neg kpNew)) (Dy.ofInt err))
    let s := bfpStore (c.gen (.guyline v)) [i]
    let hs := Gen.mapM (fun g (b : Bfp) => Bfp.normalise g b.ms b.e) s.2 lp.stages
    let lp' := { lp with integ := s.1, stages := hs.1, entry := withBits lp.entry 6 6 want,
                          pinned := c.f Fld.guyLstate_sat [v, n] != 0 }
    let c := (c.setGen (.guyline v) hs.2).setLoop v n lp'
    c.showInteg v n

/-! ### The tick -/

/-- R253: the output of a non-stale tick by the loop's state, with error `err`, output `m`. -/
def Chip.stateTick (c : Chip) (v n : Nat) (m err inj : Int) : Chip :=
  let e := c.loopE v n
  let ff := c.feedforward v n
  let st := c.loopState v n
  let c := c.setF Fld.guyLstate_ff [v, n] (fieldOf 32 ff)
  if st = 1 then c.searchTick v n m
  else if st = 2 then
    let lp := c.loop v n
    let pHeld := clampInt e.pMin e.pMax (lp.pAcq + ff)
    let o := c.runLaw v n err ff (lp.pAcq + ff)
    let r := o.2.clampSat v n (Dy.add o.1 (Dy.ofInt ff)) err
    let c := r.2
    let c := c.setLoop v n { c.loop v n with settled := lp.settled + 1 }
    let sh := powerCode (c.gen (.guyline v)) r.1
    let c := c.setGen (.guyline v) sh.2
    let code := c.f Fld.guyLstate_code [v, n]
    if 2 ≤ lp.settled + 1 ∧ ((sh.1 : Int) - code).natAbs ≤ e.hovWin then
      let c := c.setF Fld.guyLstate_state [v, n] 3
      let c := c.modeOne v n
      let c := c.setLoop v n { c.loop v n with timing := false, tRef := (c.loop v n).forecast, good := 0 }
      -- the output is the shadow's, at the code compared
      c.driveCodes v n e r.1 sh.1 none
    else c.drivePower v n e pHeld.toNat
  else if st = 3 then
    let o := c.runLaw v n err ff (c.f Fld.guyLstate_p [v, n])
    let r := o.2.clampSat v n (Dy.add o.1 (Dy.ofInt (ff + inj))) err
    r.2.drivePower v n e r.1
  else if st = 5 then
    c.drivePower v n e (clampInt e.pMin e.pMax (e.setpoint + ff + inj)).toNat
  else match selectorBank n with
    | some b => if st = 6 then c.driveLine v b else c.drivePower v n e (c.f Fld.guyLstate_p [v, n])
    | none => c.drivePower v n e (c.f Fld.guyLstate_p [v, n])

/-- R248: a stale tick. -/
def Chip.staleTick (c : Chip) (v n : Nat) : Chip :=
  let e := c.loopE v n
  let k := min (c.f Fld.guyLstate_stale [v, n] + 1) 15
  let c := c.setF Fld.guyLstate_stale [v, n] k
  if e.staleLim ≤ k ∧ c.loopGood v n then (c.loopFall v n 2).ev .guyEvStale [v] else c

/-- The entry whose div and phase time a loop's next tick: the one in force, of a free loop the written one. -/
def Chip.tickEntry (c : Chip) (v n : Nat) : LoopE :=
  if c.loopState v n = 0 then c.loopWritten v n else c.loopE v n

/-- R244, R247: loop n ticks at the present count of the sample clock: the count is one of its own, and at this count no
loop of its index or above has been computed. -/
def Chip.ticksNow (c : Chip) (v n : Nat) : Bool :=
  let e := c.tickEntry v n
  c.gclk % e.div == e.phase && (match Tab.get c.ticked v none with
    | some x => x.1 != c.gclk || decide (x.2 < n)
    | none => true)

/-- R253: what a tick computes from an output `seq`, `m` of its error entry. -/
def Chip.freshTick (c : Chip) (v n : Nat) (seq : Nat × Nat × Nat) (m : Int) : Chip :=
  let e := c.loopE v n
  let c := c.setLoop v n { c.loop v n with lastSeq := some seq }
  let c := (c.setF Fld.guyLstate_stale [v, n] 0).advanceForecast v n e
  let i := c.injection v n
  let err := errorOf e m (e.target + i.2.1)
  let c := i.2.2.setF Fld.guyLstate_err [v, n] (fieldOf 24 (clampInt (-(2 ^ 23)) (2 ^ 23 - 1) err))
  let st := c.loopState v n
  let c := c.stateTick v n m err i.1
  let c := if st = 3 ∨ st = 4 ∨ st = 5 then c.lockTick v n st (errorOf e m e.target) else c
  let c := if st = 2 ∨ st = 3 then c.flankTick v n m else c
  (c.swapCoefs v n err).capture v n err

/-- R253: a loop that is not free computes. Loops of kind 6 take no error output and are never stale (log entry 31). An
output is known by its entry, the start of the table that wrote it, and its sequence number (R248). -/
def Chip.computeTick (c : Chip) (v n : Nat) : Chip :=
  let e := c.loopE v n
  let c := c.count Fld.guyLstate_ticks [v, n]
  let seen := if e.kind = 6 then some (0, e.target) else c.latest v e.adc e.errEnt
  match seen with
  | none => (c.staleTick v n).capture v n (c.sf Fld.guyLstate_err [v, n])
  | some (seq, m) =>
    let id := (e.errEnt, (c.adc v e.adc).goes, seq)
    if e.kind ≠ 6 ∧ (c.loop v n).lastSeq = some id then
      (c.staleTick v n).capture v n (c.sf Fld.guyLstate_err [v, n])
    else c.freshTick v n id m

/-- LOOP_TICK: a tick of a loop (R244, R247): a written entry takes effect (R251), and a loop that was not free computes.
Banks whose bank_good has changed and that stay dark off their parking line are parked (R113). -/
def Chip.loopTick (c : Chip) (v n : Nat) : Chip :=
  let was := c.loopState v n
  if ¬ c.ticksNow v n ∨ (was = 0 ∧ ¬ (c.loop v n).fresh) then c
  else
    let good := c.f Fld.guyGood_bankGood [v]
    let c : Chip := { c with ticked := Tab.set c.ticked v (some (c.gclk, n)) }
    let c := c.takeEntry v n
    let c := if was = 0 ∨ c.loopState v n = 0 then c else c.computeTick v n
    if c.f Fld.guyGood_bankGood [v] = good then c else (List.range 16).foldl (fun c b => c.parkStray v b) c

/-- R256, R268: LINE STEP ends: the selector settles at its line's power, and its rings return to
TRACK. -/
def Chip.lineStepEnd (c : Chip) (v b : Nat) : Chip :=
  let n := 1040 + 2 * b
  if c.loopState v n ≠ 6 then c
  else c.enterSettle v n (c.f Fld.guyLine_p0 [v, b, c.f Fld.valeBank_line [v, b]]) 5

/-! ### Entry to and exit from the device state HOLD, imports (R259) -/

/-- Every loop of a Vale goes to FROZEN. -/
def Chip.freezeVale (c : Chip) (v : Nat) : Chip :=
  (c.assignedLoops v).foldl (fun c n =>
    let st := c.loopState v n
    if st = 0 ∨ st = 7 then c
    else c.loopTo v n 7 6) c

/-- The device leaves HOLD. -/
def Chip.thawVale (c : Chip) (v : Nat) : Chip :=
  (c.assignedLoops v).foldl (fun c n =>
    let e := c.loopE v n
    if c.loopState v n ≠ 7 then c
    else if e.mode = 2 ∨ e.mode = 3 then
      let c := c.setF Fld.guyLstate_state [v, n] (if e.mode = 2 then 4 else 5)
      -- an entry to OPEN takes its reference anew (R267)
      if e.mode = 2 then c else c.setLoop v n { c.loop v n with tRef := (c.loop v n).forecast }
    else match selectorBank n with
      | some b => if e.kind = 2 ∧ c.linesValid v b then c.lineStep v b (c.f Fld.valeBank_line [v, b])
                  else c.startSearch v n 6
      | none => c.startSearch v n 6) c

/-- R259: line tables applied by an import: selectors in SEARCH whose bank now has all 16 lines. -/
def Chip.importLines (c : Chip) (v : Nat) : Chip :=
  (List.range 16).foldl (fun c b =>
    let n := 1040 + 2 * b
    let lp := c.loop v n
    if c.loopState v n = 1 ∧ c.linesValid v b then
      (c.setLoop v n { lp with lineRef := (List.range 16).map fun x => (x, lp.forecast) }).lineStep v b (c.targetLine v b)
    else c) c

/-! ### Register writes (R250 to R252, R272, R273, R275) -/

/-- GUY_LOAD shows the load in M stage-updates per second (R246), cut to a whole number. -/
def Chip.showLoad (c : Chip) (v : Nat) : Chip :=
  let s := c.valeLoad v 2048
  c.setF Fld.guyLoad_load [v] (20 * s.1 / s.2)

/-- R250, R251: a loop entry written whole; it takes effect at the loop's next tick. -/
def Chip.wGuyLoop (c : Chip) (v n : Nat) (ws : List Word) : Nat × Chip :=
  if c.loopRefused v n ws then (Status.badParam, c)
  else
    let c := c.putWords .guyLoop [v, n] ws
    (Status.ok, (c.setLoop v n { c.loop v n with fresh := true }).showLoad v)

/-- R252: a coefficient set written whole, in normal form; the active set of a loop that is not free is
refused. -/
def Chip.wGuyCoef (c : Chip) (v n k : Nat) (ws : List Word) : Nat × Chip :=
  let busy := c.loopState v n != 0 && (k == (c.loopE v n).csel || k == (c.loopWritten v n).csel)
  if ¬ coefsWellFormed ws ∨ busy then (Status.badParam, c)
  else
    let r := normaliseCoefs (c.gen (.guyline v)) ws
    (Status.ok, (c.setGen (.guyline v) r.2).putWords .guyCoef [v, n, k] r.1)

/-- R255: GUY_SEED_HI: the value formed with GUY_SEED_LO waits for the next count of the clock. -/
def Chip.wSeedHi (c : Chip) (v : Nat) (x : Word) : Nat × Chip :=
  let hi := bitsOf x.toNat 31 0
  let c := c.put { name := .guySeedHi, idx := [v] } (BitVec.ofNat 64 hi)
  let s := BitVec.ofNat 64 (c.f Fld.guySeedLo_seed [v] + hi * 2 ^ 32)
  (Status.ok, { c with guySeed := Tab.set c.guySeed v s })

/-- GUY_TEST_AMP: for point 1, A is at most 2^23. -/
def Chip.wTestAmp (c : Chip) (v : Nat) (x : Word) : Nat × Chip :=
  let n := x.toNat
  if c.f Fld.guyTestCtl_point [v] = 1 ∧ 2 ^ 23 < bitsOf n 23 0 * 2 ^ bitsOf n 28 24 then
    (Status.badParam, c)
  else (Status.ok, c.put { name := .guyTestAmp, idx := [v] } (BitVec.ofNat 64 (bitsOf n 28 24 * 2 ^ 24 + bitsOf n 23 0)))

/-- GUY_TEST_FREQ: each step at most 0x80_0000. -/
def Chip.wTestFreq (c : Chip) (v : Nat) (x : Word) : Nat × Chip :=
  let n := x.toNat
  if 0x800000 < bitsOf n 47 24 ∨ 0x800000 < bitsOf n 23 0 then (Status.badParam, c)
  else (Status.ok, c.put { name := .guyTestFreq, idx := [v] } (BitVec.ofNat 64 (bitsOf n 47 0)))

/-- R272: a go write: refused for a free loop, ignored while active. -/
def Chip.testGo (c : Chip) (v : Nat) : Nat × Chip :=
  if c.flag Fld.guyTestCtl_active [v] then (Status.ok, c)
  else if c.loopState v (c.f Fld.guyTestCtl_loop [v]) = 0 ∨
      (c.f Fld.guyTestCtl_sig [v] = 2 ∧
        (c.f Fld.guyTestDwell_steps [v] = 0 ∨ c.f Fld.guyTestDwell_dwell [v] = 0)) then
    (Status.badParam, c)
  else
    let c : Chip := { c with tests := Tab.set c.tests v {} }
    (Status.ok, c.setF Fld.guyTestCtl_active [v] 1)

/-- GUY_TEST_CTL: the loop is fixed while active, sig 3 is reserved, A is at most 2^23 for point 1. -/
def Chip.wTestCtl (c : Chip) (v : Nat) (x : Word) : Nat × Chip :=
  let n := x.toNat
  let amp := c.f Fld.guyTestAmp_amp [v] * 2 ^ c.f Fld.guyTestAmp_shift [v]
  if bitsOf n 25 24 = 3 ∨ (bitOf n 23 ∧ 2 ^ 23 < amp) ∨
      (c.flag Fld.guyTestCtl_active [v] ∧ bitsOf n 10 0 ≠ c.f Fld.guyTestCtl_loop [v]) then
    (Status.badParam, c)
  else
    let c1 := c.setF Fld.guyTestCtl_sig [v] (bitsOf n 25 24)
    let c1 := c1.setF Fld.guyTestCtl_point [v] (bitsOf n 23 23)
    let c1 := c1.setF Fld.guyTestCtl_loop [v] (bitsOf n 10 0)
    let r := if bitOf n 31 then c1.testGo v else (Status.ok, c1)
    if r.1 ≠ Status.ok then (r.1, c)
    else if bitOf n 30 then (Status.ok, r.2.setF Fld.guyTestCtl_active [v] 0) else r

/-- The capture region of GUY_CAP_BASE: 512 KiB aligned within the Vale's SRAM. -/
def capBaseOk (v base : Nat) : Bool :=
  let a := base * 65536
  a % 0x80000 == 0 && decide (0x810000000000 + v * 0x800000 ≤ a) &&
    decide (a + 0x80000 ≤ 0x810000000000 + (v + 1) * 0x800000)

/-- R273: a go write starts a capture from index 0. -/
def Chip.captureGo (c : Chip) (v : Nat) : Nat × Chip :=
  if c.flag Fld.guyCapState_active [v] then (Status.ok, c)
  else if ¬ capBaseOk v (c.f Fld.guyCapBase_base [v]) then (Status.badParam, c)
  else (Status.ok, (c.put { name := .guyCapState, idx := [v] } 0).setF Fld.guyCapState_active [v] 1)

/-- GUY_CAP_CTL. -/
def Chip.wCapCtl (c : Chip) (v : Nat) (x : Word) : Nat × Chip :=
  let n := x.toNat
  if 65536 < bitsOf n 60 44 then (Status.badParam, c)
  else
    let c1 := c.put { name := .guyCapCtl, idx := [v] } (BitVec.ofNat 64 (bitsOf n 61 0))
    let r := if bitOf n 63 then c1.captureGo v else (Status.ok, c1)
    if r.1 ≠ Status.ok then (r.1, c)
    else if bitOf n 62 then (Status.ok, r.2.setF Fld.guyCapState_active [v] 0) else r

/-! ### The standard set (R243) -/

/-- The words of a loop of the standard set: what R243 and the limits of R256 and R274 give, and for the
rest of the fields the device's own (log entry 32). -/
def stdEntry (n : Nat) : List Word :=
  let own (k : Nat) : Nat := (Config.stdField n k).toNat
  let kind := if n < 1040 then 1 else if n < 1072 then 2 else if n < 1137 then 3 else if n < 1149 then 4
    else if n = 1149 then 5 else 6
  let div := if kind = 2 then 50 else if kind = 4 ∨ kind = 5 then 200 else 2000
  let mode := if kind = 6 then 3 else 0
  let lockN := if kind = 2 then 3 else own 0 % 15 + 1
  let pMax := own 1 % (powerMax + 1)
  let pMin := own 2 % (pMax + 1)
  let setp := pMin + own 3 % (pMax - pMin + 1)
  [BitVec.ofNat 64 (kind + mode * 16 + own 4 % 2 * 128 + div * 65536 + own 5 % div * 2 ^ 27 +
      own 6 % 4 * 2 ^ 38 + (own 7 % 15 + 1) * 2 ^ 40 + lockN * 2 ^ 44),
   BitVec.ofNat 64 (own 8 % 71 + own 9 % 2 ^ 24 * 128),
   BitVec.ofNat 64 (n + (if kind = 2 then n + 1 else 0x7FF) * 2 ^ 11 + own 10 % 1024 * 2 ^ 22 + setp * 2 ^ 32),
   BitVec.ofNat 64 (pMin + pMax * 2 ^ 28 + 8 * 2 ^ 56),
   BitVec.ofNat 64 (own 11 % 2 ^ 40),
   BitVec.ofNat 64 (own 12 % 2 ^ 21 + own 13 % 3 * 2 ^ 21),
   BitVec.ofNat 64 (own 14 % 2 ^ 28 + own 15 % 2 ^ 36 * 2 ^ 28),
   BitVec.ofNat 64 (own 16 % 2 ^ 48)]

/-- The loops of the standard set (R243). -/
def stdLoops : List Nat :=
  List.range 1040 ++ (List.range 16).map (fun b => 1040 + 2 * b) ++ (List.range 846).map fun i => 1072 + i

/-- R243: the standard set is installed on a Vale: every loop entry is written, the other indices are
free. -/
def Chip.installStd (c : Chip) (v : Nat) : Chip :=
  let c := ((List.range 2048).filter fun n => c.loopState v n != 0).foldl (fun c n => c.freeLoop v n) c
  let c := (c.assignedLoops v).foldl (fun c n => c.putWords .guyLoop [v, n] (List.replicate 8 0)) c
  (stdLoops.foldl (fun c n =>
    let ws := stdEntry n
    let e := LoopE.ofWords ws
    let c := (c.putWords .guyLoop [v, n] ws).assignDacs v e true
    let c := c.putWords .guyLstate [v, n] [0, 0, 0, 0]
    let c := c.setLoop v n { entry := ws }
    if e.mode = 3 then c.setF Fld.guyLstate_state [v, n] 5
    else c.startSearch v n 4) c).showLoad v

end Sys2Proof.Machine
end

