-- ==== Sys2Proof/Machine/Guyline.lean ====
section
/-!
DEFINITION. Sys2Proof/Machine/Guyline.lean: the events of the Guyline engines (file 08 of spec/) and the
GUY commands (R421).
-/

namespace Sys2Proof.Machine

/-- Vale and loop exist (R243). -/
def loopOk (v n : Nat) : Bool := decide (v < 12 ∧ n < 2048)

/-- LOOP_TICK (R244 to R254). -/
def execLoopTick (v n : Nat) (s : State) : Outcome := 
  onUnits (loopOk v n) s fun c => if c.valeDrained v then c else c.loopTick v n

/-- LINE_STEP_EXPIRE (R256): bank b's selector, 12 µs after it entered LINE STEP. -/
def execLineStepExpire (v b : Nat) (s : State) : Outcome :=
  onUnits (decide (v < 12 ∧ b < 16)) s fun c => c.lineStepEnd v b

/-- ACQ_FAIL (R258): 2 ms have passed since the first SETTLE entry without a hand-over. -/
def Chip.acqTimeout (c : Chip) (v n : Nat) : Chip :=
  if c.loopState v n = 2 ∧ (c.loop v n).timing then c.acqFail v n else c

def execAcqFail (v n : Nat) (s : State) : Outcome := onUnits (loopOk v n) s fun c => c.acqTimeout v n

/-- TEST_END (R272): a swept sine ends after steps × dwell ticks. -/
def Chip.testEnd (c : Chip) (v : Nat) : Chip :=
  if c.flag Fld.guyTestCtl_active [v] ∧ c.f Fld.guyTestCtl_sig [v] = 2 ∧
      c.f Fld.guyTestDwell_steps [v] * c.f Fld.guyTestDwell_dwell [v] ≤ (c.loopTest v).ticks then
    c.setF Fld.guyTestCtl_active [v] 0
  else c

def execTestEnd (v : Nat) (s : State) : Outcome := onUnits (decide (v < 12)) s fun c => c.testEnd v

/-! ### Commands -/

/-- GUY_LOOP (R250). -/
def Chip.mpGuyLoop (c : Chip) (m : Cmd) : Chip :=
  let v := bitsOf m.p 3 0
  if m.stray 0x7FF000F ∨ 11 < v then c.finish 0x0601 m Status.badParam
  else
    let r := c.wGuyLoop v (bitsOf m.p 26 16) m.words
    r.2.finish 0x0601 m r.1

def execGuyLoop (m : Cmd) (s : State) : Outcome :=
  onHost m s fun c => c.mpReceive 0x0601 m [] fun c => c.mpGuyLoop m

/-- GUY_COEF (R252, R266): writes a set, and where asked makes it active by a write of csel. -/
def Chip.mpGuyCoef (c : Chip) (m : Cmd) : Chip :=
  let v := bitsOf m.p 3 0
  let n := bitsOf m.p 26 16
  let k := bitsOf m.p 32 32
  if m.stray 0x307FF000F ∨ 11 < v then c.finish 0x0602 m Status.badParam
  else
    let r := c.wGuyCoef v n k m.words
    if r.1 ≠ Status.ok then r.2.finish 0x0602 m r.1
    else
      let w0 : Reg := { name := .guyLoop, idx := [v, n] }
      let c := r.2
      let c := if bitOf m.p 33 then c.put w0 (setBits (c.get w0) 6 6 k) else c
      c.finish 0x0602 m Status.ok

def execGuyCoef (m : Cmd) (s : State) : Outcome :=
  onHost m s fun c => c.mpReceive 0x0602 m [] fun c => c.mpGuyCoef m

/-- GUY_STD (R243). -/
def Chip.mpGuyStd (c : Chip) (m : Cmd) : Chip :=
  let v := bitsOf m.p 3 0
  if m.stray 0xF ∨ 11 < v then c.finish 0x0603 m Status.badParam
  else ((c.accept 0x0603 m).installStd v).finish 0x0603 m Status.ok

def execGuyStd (m : Cmd) (s : State) : Outcome :=
  onHost m s fun c => c.mpReceive 0x0603 m [] fun c => c.mpGuyStd m

end Sys2Proof.Machine
end

