-- ==== Sys2Proof/Machine/Heat.lean ====
section
/-!
DEFINITION. Sys2Proof/Machine/Heat.lean: file 15 of spec/ beside the thermal model: the end of all hardware work
(R463, R473), entry to HOLD (R473, R474), the housekeeping round (R211, R465 to R472), THERMAL_RELEASE and
THM_RECORD (R475, R477), and the Lantern's clock (R462).
-/

namespace Sys2Proof.Machine

/-! ### The end of work -/

/-- A Dale's running job ends at its first unwritten row, every queued one at row 0, each with its completion
record (R463, R473, R520). -/
def Chip.endDale (c : Chip) (k status : Nat) : Chip :=
  let c : Chip := match (c.dale k).run with
    | some r => if r.phase = DalePhase.ended then c else (c.dropRows k).stopRun k r.written status
    | none => c
  let c := c.finishRun k
  let c := (c.dale k).queue.foldl (fun c j =>
    let dl := c.dale k
    let c := c.setDale k { dl with run := some (newRun j []), queue := dl.queue.erase j }
    (c.stopRun k 0 status).finishRun k) c
  let c := c.setDale k { c.dale k with staging := none, staged := false, settling := false }
  ((c.setF Fld.drvDaleState_staged [k / 12, k % 12] 0).setDaleState k 0).syncDepth k

/-- Every hardware job, running or queued, ends with a status (R463, R473). A code block that runs ends with its
descriptor, whose report is written once no block of it runs (R396). -/
def Chip.endJobs (c : Chip) (status : Nat) : Chip :=
  let ds := (c.dales.filter fun p => p.2.run.isSome || !p.2.queue.isEmpty).map fun p => p.1
  let c := ds.foldl (fun c k => c.endDale k status) c
  let c := c.endCoders status
  (c.coderJobs.map fun j => j.id).foldl (fun c id =>
    match c.coderJob id with
    | some j => (c.setCoderJob { j with running := [] }).coderComplete id
    | none => c) c

/-- R321, R473: every thread is freed as by a stop write; starts still queued are dropped with them (log
entry 55). -/
def Chip.stopThreads (c : Chip) (which : Nat → Bool) : Chip :=
  let is := (c.cores.map fun p => p.1).filter which
  is.foldl (fun c i =>
    let c := c.setCore i { c.core i with spawnq := [] }
    (siteHarts i).foldl Chip.stopThread c) c

/-- Slots in LOADING or VERIFYING go to FAILED (R474, R521). -/
def Chip.failLoads (c : Chip) (status : Nat) (which : Nat × Nat → Bool) : Chip :=
  (c.slots.map fun p => p.1).foldl (fun c tk =>
    let st := c.slotState tk.1 tk.2
    if (st = 1 ∨ st = 2) ∧ which tk then c.failSet tk.1 tk.2 status none else c) c

/-- R474: the refresh or repair a Veld runs stops and goes back to the head of its queue: the spare is free
again, an old site under rewrite stays out of service. -/
def Chip.stopRefresh (c : Chip) (n : Nat) : Chip :=
  match (c.veld n).op with
  | none => c
  | some o =>
    let c : Chip := match o.spare with
      | some sp => if o.stage < 6 then (c.abortProg n sp).setF Fld.siteAstate_state [n, sp] 0 else c
      | none => c
    let c := c.abortProg n o.old
    -- the spare elements of a repair are mapped by now, so what is left of it is the rewrite
    c.requeueOp n o (if o.why = .site then .site else .refresh)

/-- A consumer group returns to its floor: its units hold no step any more (R473, R520, R521, R550). -/
def Chip.groupToFloor (c : Chip) (g : Nat) : Chip :=
  let c := c.toFloor g
  let c : Chip := { c with bud := { c.bud with
    shed := c.bud.shed.filter fun a => askerGroup a != g
    waiting := c.bud.waiting.filter fun w => !(w.credit && (match w.gate with
      | .dale k => k / 12 == g
      | .array i => 12 + i / 768 == g
      | .coder _ => g == 56
      | _ => false)) } }
  if g < 12 then
    (List.range 12).foldl (fun c d =>
      if (c.dale (12 * g + d)).active then
        c.setDale (12 * g + d) { c.dale (12 * g + d) with active := false } else c) c
  else if g < 48 then c.setVeld (g - 12) { c.veld (g - 12) with reads := 0, pairs := 0 }
  else if g = 56 then { c with decCredit := 0, encCredit := 0 }
  else c

/-- Every bank of a Vale goes dark at once (R128, R232, R473, R520). A bank whose selector has acquired is parked: its
line is the parking line, to which the selector is tuned when its loop runs again (R113, R259). -/
def Chip.darkenVale (c : Chip) (v : Nat) : Chip :=
  (List.range 16).foldl (fun c b =>
    let c := c.darken v b
    if c.flag Fld.guyLine_valid [v, b, parkingLine b] then c.setF Fld.valeBank_line [v, b] (parkingLine b) else c) c

/-- Tiles do not outlast their clamps: every Dale's next job reloads (R134, R232, R519). The element map with what
its entries were referred to, and the codes of the cells, stay (R297). -/
def Chip.dropTile (c : Chip) (k : Nat) : Chip :=
  let at' := [k / 12, k % 12]
  let dl := c.dale k
  let c := c.setDale k { dl with
    tile := none, staging := none, staged := false, settling := false, ramping := false
    rot := { dl.rot with next := .measure, codes := [], bad := false } }
  let c := (c.setF Fld.drvDaleState_staged at' 0).setF Fld.drvDaleState_ramping at' 0
  let c := (c.setF Fld.daleTile_tile at' 0xFFFF).setF Fld.daleTile_epoch at' 0
  c.setDaleState k 0

/-! ### HOLD (R473, R474) -/

/-- The device enters HOLD with a record of its cause: 1 the model, 2 the coolant comparator. -/
def Chip.enterHold (c : Chip) (cause : Nat) : Chip :=
  if c.device = .starting ∨ c.device = .service then
    let c : Chip := { c with device := .hold, boot := { c.boot with holdTicks := 0 } }
    let c := (c.endJobs Status.thermalHold).stopThreads fun _ => true
    let c := c.failLoads Status.thermalHold fun _ => true
    let c := (List.range 36).foldl Chip.stopRefresh c
    let c := (c.dales.map fun p => p.1).foldl Chip.dropTile c
    let c := (List.range 12).foldl (fun c v => (c.darkenVale v).freezeVale v) c.clampAll
    let c := (List.range 58).foldl Chip.groupToFloor c
    let c := c.passesHold.clearHarqs
    (c.lantRecord cause true).ev .thmEvShutdown
  else c

/-! ### The housekeeping round -/

/-- HK_ROUND (R211, R465, R468 to R473): the converters run, rails and coolant are judged, the model advances,
ceilings follow, and a node at 112 °C takes the device to HOLD. -/
def Chip.hkTick (c : Chip) (ss : List HkSample) : Chip :=
  let c := (c.hkRound ss).measureInput
  let c := (List.range 48).foldl (fun c k => c.setF Fld.pwrStage_vout [k] (min 0xFFFF (c.stageVolts k))) c
  let c := ((List.range 72).foldl Chip.senseRail c).senseCoolant
  let power : Tab Nat Nat := (List.range 70).map fun u => (u, c.unitPower u)
  let c : Chip := { c with heat := { c.heat with power := power, grants := [] } }
  let c := c.forecast.advanceNodes.throttleRound
  if 7168 ≤ c.hottest.1 then c.enterHold 1 else c

/-! ### Commands -/

/-- R475: what THERMAL_RELEASE would be answered. -/
def Chip.releaseStatus (c : Chip) : Nat :=
  if c.device ≠ .hold then Status.notPermitted
  else if c.boot.holdTicks < 60 * 32768 ∨ c.flag Fld.lantCmp_coolantHot then Status.thermalHold
  else Status.ok

/-- THM_HOLD. -/
def Chip.thmHold (c : Chip) : Word :=
  let secs := if c.device = .hold then min 0xFFFF (c.boot.holdTicks / 32768) else 0
  BitVec.ofNat 64 ((decide (c.releaseStatus = Status.ok)).toNat * 2 ^ 31 + secs)

/-- THERMAL_RELEASE (R475, R516): HOLD is left for STARTING: loops restart as R259 lays down, the sinks return
through WAIT and the boosters ask for their credits again (R440, R448). -/
def Chip.mpThermalRelease (c : Chip) (m : Cmd) : Chip :=
  if m.stray 0 then c.finish 0x0901 m Status.badParam
  else
    let st := c.releaseStatus
    if st ≠ Status.ok then c.finish 0x0901 m st
    else
      let c : Chip := { c with device := .starting, boot := { c.boot with release := true } }
      let c := (List.range 12).foldl Chip.thawVale c
      c.passesResume.finish 0x0901 m Status.ok

def execThermalRelease (m : Cmd) (s : State) : Outcome :=
  onHost m s fun c => c.mpReceive 0x0901 m [] fun c => c.mpThermalRelease m

/-- THM_RECORD (R477). -/
def Chip.mpThmRecord (c : Chip) (m : Cmd) : Chip :=
  if m.stray 0 then c.finish 0x0902 m Status.badParam
  else c.finish 0x0902 m Status.ok c.lantRecords.length (c.lantRecords.flatten)

def execThmRecord (m : Cmd) (s : State) : Outcome :=
  onHost m s fun c => c.mpReceive 0x0902 m [] fun c => c.mpThmRecord m

/-! ### The Lantern's clock -/

/-- One count of the Lantern RTC, 1/32,768 s (R298, R462): it runs while the Lantern has a supply. -/
def Chip.lantTick (c : Chip) : Chip :=
  if c.device = .off then c
  else
    let c : Chip := { c with boot := { c.boot with holdTicks := c.boot.holdTicks + 1 } }
    let sub := c.f Fld.lantSub_sub
    if sub < 32767 then c.setF Fld.lantSub_sub [] (sub + 1)
    else (c.setF Fld.lantSub_sub [] 0).count Fld.lantSec_sec []

/-- LANT_SEC (R462): a write sets the counter, clears the sub-second count and sets valid. -/
def Chip.wLantSec (c : Chip) (x : Word) : Nat × Chip :=
  (Status.ok, c.setF Fld.lantSub_sub [] 0 |>.put { name := .lantSec }
    (BitVec.ofNat 64 (2 ^ 63 + bitsOf x.toNat 47 0)))

def execLantSecWrite (w : Writer) (x : Word) (s : State) : Outcome :=
  onReg w { name := .lantSec } x s fun c => c.wLantSec x

end Sys2Proof.Machine
end

