-- ==== Sys2Proof/Machine/Link.lean ====
section
/-!
DEFINITION. Sys2Proof/Machine/Link.lean: the device's end of the Azral link (R404 to R411) and the message queues
that leave over it (R429 to R432).
-/

namespace Sys2Proof.Machine

def Chip.setLink (c : Chip) (l : Link) : Chip := { c with link := l }

/-- A flit leaves with the current ack and credits. -/
def Chip.sendFlit (c : Chip) (f : Flit) : Chip := { c with outs := c.outs ++ [.flit (c.link.stamp f)] }

def Chip.sendRetry (c : Chip) : Chip := (c.setLink { c.link with retrying := true }).sendFlit { ftype := 2 }

/-- R409: the link retrains, keeping its replay buffer. -/
def Chip.retrain (c : Chip) : Chip :=
  if c.f Fld.azlState_state = 2 then
    ((c.setF Fld.azlState_state [] 1).count Fld.azlState_retrains []).ev .azlEvRetry
  else c

/-- R409, R411: the link goes DOWN: replay buffer, stream buffers and partial packets are discarded; packets
wholly received stay (R410). -/
def Chip.linkDown (c : Chip) : Chip :=
  ((c.setF Fld.azlState_state [] 0).setLink { packets := c.link.packets }).ev .azlEvDown

/-- R408, R409: every flit of the replay buffer is sent again, in order; one sent again 8 times brings a
retrain. -/
def Chip.resend (c : Chip) : Chip :=
  let l := c.link
  let c := c.setLink { l with replay := l.replay.map fun h => { h with again := h.again + 1 } }
  let c : Chip := { c with outs := c.outs ++ l.replay.map fun h => .flit (l.stamp h.flit) }
  let c := c.count Fld.azlStat_resent [] l.replay.length
  if c.link.replay.any fun h => decide (8 ≤ h.again) then c.retrain else c

/-- R408: the flits an ack passes leave the replay buffer. -/
def takeAck (ack : Nat) (hs : List Held) : List Held :=
  match hs.findIdx? fun h => h.flit.seq == ack with
  | some i => hs.drop (i + 1)
  | none => hs

/-- R411: a cumulative counter taken from its low 16 bits. -/
def unwrap (old low : Nat) : Nat := old + (low + 65536 - old % 65536) % 65536

/-- R412: the whole packets at the front of a stream, and what is left. -/
def cutPackets : Nat → List Byte → List (List Byte) × List Byte
  | 0, bs => ([], bs)
  | n + 1, bs =>
    if 8 ≤ bs.length ∧ packetLen bs ≤ bs.length then
      let r := cutPackets n (bs.drop (packetLen bs))
      (bs.take (packetLen bs) :: r.1, r.2)
    else ([], bs)

/-- R412: a command longer than 2,048 words is answered BAD_PARAM. -/
def Chip.refuseLong (c : Chip) (p : List Byte) : Chip :=
  if 16 + 8 * 2048 < packetLen p then
    c.out (.reply { op := leNat (p.take 2), tent := leNat ((p.drop 2).take 1), status := Status.badParam,
                    tag := BitVec.ofNat 16 (leNat ((p.drop 4).take 2)) })
  else { c with link := { c.link with packets := c.link.packets ++ [p] } }

/-- R411: the payload of an accepted DATA flit joins its class's stream; bytes beyond the limit of 1,024 units
take the link DOWN. -/
def Chip.takePayload (c : Chip) (f : Flit) : Chip :=
  let l := c.link
  if f.cls = 0 then
    let bs := l.rx0 ++ f.payload
    if 65536 < heldBytes bs then c.linkDown
    else
      let r := cutPackets (bs.length + 1) bs
      let c := c.setLink { l with rx0 := r.2, got0 := l.got0 + f.payload.length }
      r.1.foldl Chip.refuseLong c
  else if f.cls = 1 then
    let bs := l.rx1 ++ f.payload
    if 65536 < heldBytes bs then c.linkDown
    else
      let r := cutPackets (bs.length + 1) bs
      let c := c.setLink { l with rx1 := r.2, got1 := l.got1 + f.payload.length }
      { c with link := { c.link with packets := c.link.packets ++ r.1 } }
  else c

/-- FLIT_RECEIVE (R406 to R408, R411). -/
def Chip.flit (c : Chip) (bytes : List Byte) : Chip :=
  if ¬ c.powered ∨ c.f Fld.azlState_state ≠ 2 then c
  else match Flit.ofBytes bytes with
    | none => (c.count Fld.azlStat_crcErr []).sendRetry
    | some f =>
      let l := c.link
      let c := c.setLink { l with
        replay := takeAck f.ack l.replay
        credit2 := unwrap l.credit2 f.credLo
        credit3 := unwrap l.credit3 f.credHi }
      if f.ftype = 2 then c.resend.pump
      else if f.ftype = 1 then
        if f.seq = (c.link.rxSeq + 1) % 4096 then
          ((c.setLink { c.link with rxSeq := f.seq, retrying := false }).takePayload f).pump
        else c.sendRetry.pump
      else c.pump

def execFlitReceive (bytes : List Byte) (s : State) : Outcome := onChip s fun c => c.flit bytes

/-- What the link does on its own while it is UP. -/
def Chip.whenUp (c : Chip) (f : Chip → Chip) : Chip :=
  if c.powered ∧ c.f Fld.azlState_state = 2 then f c else c

/-- RETRY_REPEAT (R407). -/
def execRetryRepeat (s : State) : Outcome :=
  onChip s fun c => c.whenUp fun c => if c.link.retrying then c.sendRetry else c

/-- IDLE_ACK (R407). -/
def execIdleAck (s : State) : Outcome := onChip s fun c => c.whenUp fun c => c.sendFlit { ftype := 0 }

/-- REPLAY_TIMEOUT (R408). -/
def execReplayTimeout (s : State) : Outcome :=
  onChip s fun c => c.whenUp fun c => if c.link.replay.isEmpty then c else c.resend

/-- RETRAIN (R409). -/
def execRetrain (s : State) : Outcome := onChip s fun c => c.whenUp Chip.retrain

/-- LINK_DOWN (R409): a retrain has not succeeded. -/
def execLinkDown (s : State) : Outcome :=
  onChip s fun c => if c.powered ∧ c.f Fld.azlState_state = 1 then c.linkDown else c

/-- The device's INIT flit (R410, R411). -/
def initFlit : Flit := { ftype := 3, payload := leBytes 2 1 ++ leBytes 2 1024 ++ leBytes 2 1024 }

/-- LINK_UP (R409, R410): out of a retrain the replay buffer is sent again; out of DOWN the INIT of the far end
sets the limits, seq restarts at 0, and a link message is queued. -/
def Chip.linkUp (c : Chip) (bytes : List Byte) : Chip :=
  if ¬ c.powered then c
  else if c.f Fld.azlState_state = 1 then
    let c := c.setF Fld.azlState_state [] 2
    let l := c.link
    let c : Chip := { c with outs := c.outs ++ l.replay.map fun h => .flit (l.stamp h.flit) }
    let c := c.setLink { l with replay := l.replay.map fun h => { h with again := 0 } }
    (c.count Fld.azlStat_resent [] l.replay.length).pump
  else if c.f Fld.azlState_state = 0 then
    match Flit.ofBytes bytes with
    | none => c
    | some f =>
      if f.ftype ≠ 3 ∨ leNat (f.payload.take 2) ≠ 1 then c
      else
        let l := c.link
        let c := c.setLink { tx2 := l.tx2, tx3 := l.tx3, packets := l.packets
                             limit2 := leNat ((f.payload.drop 2).take 2), limit3 := leNat ((f.payload.drop 4).take 2) }
        let c := (c.setF Fld.azlState_state [] 2).sendFlit initFlit
        (c.message 0 8 (leBytes 4 (c.f Fld.azlState_retrains) ++ leBytes 4 0)).pump
  else c

/-! ### Messages -/

/-- The done word of a post (R432). -/
def Chip.postDone (c : Chip) (p : Post) (status : Nat) : Chip :=
  if p.done = 0 then c else c.setNum p.done 8 (2 ^ 63 + status)

/-- R432: SYS_MSG_POST: a post record is taken, or dropped. -/
def Chip.wMsgPost (c : Chip) (t : Nat) (x : Word) : Nat × Chip :=
  let a := bitsOf x.toNat 47 0
  if a % 32 ≠ 0 then (Status.badParam, c)
  else if ¬ c.admits t .r a 32 then (Status.ok, c.countSat Fld.sysMsgq_lost [t])
  else
    let p : Post := { addr := c.num a 8, len := c.num (a + 8) 4, done := c.num (a + 16) 8 }
    if p.done ≠ 0 ∧ (p.done % 8 ≠ 0 ∨ ¬ c.admits t .w p.done 8) then
      (Status.ok, c.countSat Fld.sysMsgq_lost [t])
    else if p.len = 0 ∨ 65536 < p.len ∨ c.num (a + 24) 8 ≠ 0 then (Status.ok, c.postDone p Status.badParam)
    else if ¬ c.admits t .r p.addr p.len then (Status.ok, c.postDone p Status.notPermitted)
    else if ¬ bitOf (c.get { name := .sysMsgMask, idx := [t] }).toNat 5 then (Status.ok, c)
    else if 256 ≤ (c.msgQ t).q.length then
      (Status.ok, (c.countSat Fld.sysMsgq_lost [t]).postDone p Status.queueFull)
    else (Status.ok, c.pushMsg t { kind := 5, body := c.bytes (a + 12) 4 ++ leBytes 4 0, post := some p })

/-- The message at the head of a Tent's queue leaves, once its data is admitted (R431, R432); none: it
waits. -/
def Chip.sendFirst (c : Chip) (t : Nat) : Chip × Bool :=
  let q := c.msgQ t
  match q.q with
  | [] => (c, false)
  | m :: rest =>
    let go (c : Chip) (data : List Byte) : Chip :=
      let c : Chip := { c with msgs := Tab.set c.msgs t { q := rest, seq := (q.seq + 1) % 2 ^ 32 }, msgLast := t }
      c.out (.message t m.kind q.seq (m.body ++ data))
    match m.post with
    | none => (go c [], true)
    | some p =>
      let r := c.admitAll t (memAccess p.addr p.len)
      if r.2 then ((go r.1 (r.1.bytes p.addr p.len)).postDone p Status.ok, true) else (r.1, false)

/-- R431: the first Tent of a list whose message can leave. -/
def Chip.sendAny (c : Chip) : List Nat → Chip
  | [] => c
  | t :: ts =>
    let r := c.sendFirst t
    if r.2 then r.1 else Chip.sendAny r.1 ts

/-- MESSAGE_SEND (R431, R432): the queues are served round-robin by Tent while the link is UP. -/
def Chip.messageSend (c : Chip) : Chip :=
  c.whenUp fun c => c.sendAny ((List.range 64).map fun k => (c.msgLast + 1 + k) % 64)

def execMessageSend (s : State) : Outcome := onChip s Chip.messageSend

end Sys2Proof.Machine
end

