-- ==== Sys2Proof/Machine/Sys.lean ====
section
/-!
DEFINITION. Sys2Proof/Machine/Sys.lean: SYS_INFO and SYS_ECHO (R421), opcodes that are not assigned (R415), the MP's
watchdog (R419), firmware images and slots (R503 to R507), publisher keys (R508) and attestation (R509, R510).
-/

namespace Sys2Proof.Machine

/-! ### Firmware images (R503) -/

structure FwBody where
  version  : Nat
  rollback : Nat
  code     : List Byte
  name     : List Byte
deriving DecidableEq, Repr

/-- The image a firmware slot holds: what FW_LOAD wrote, else what it was delivered with. -/
def Chip.fwImage (c : Chip) (k : Nat) : Option (List Byte) :=
  (Tab.get c.fws k { image := Config.firmware k }).image

/-- The body of an image: a map of keys 1 to 4. -/
def fwBody (body : List Byte) : Option FwBody :=
  (Cbor.parse body).bind fun x => (Cbor.fields x).bind fun fs =>
    match Cbor.uintKey fs 1 0xFFFFFFFF, Cbor.uintKey fs 2 0xFFFFFFFF, Cbor.bytesKey fs 3, Cbor.textKey fs 4 with
    | some v, some r, some code, some name =>
      if r ≤ v ∧ code.length ≤ 0x800000 ∧ fs.length = 4 then
        some { version := v, rollback := r, code := code, name := name } else none
    | _, _, _, _ => none

/-- The envelope and the body of an image of at most 8.5 MiB. -/
def fwParse (img : List Byte) : Option (Envelope × FwBody) :=
  if 0x880000 < img.length then none
  else (Envelope.parse img).bind fun e => (fwBody e.body).map fun b => (e, b)

/-- Both signatures hold under the boot ROM's key pair. -/
def fwSigned (e : Envelope) : Bool :=
  let msg := ascii "GXFW" ++ e.body
  Config.verifies (Config.firmwareKeys.take 32) msg e.sig1 && Config.verifies (Config.firmwareKeys.drop 32) msg e.sig2

/-- The body of a slot's image, none where the slot is not valid. -/
def Chip.fwValid (c : Chip) (k : Nat) : Option FwBody :=
  (c.fwImage k).bind fun img => (fwParse img).bind fun p => if fwSigned p.1 then some p.2 else none

/-- SHA3-256 of a slot's image, empty where it is not valid. -/
def Chip.fwHash (c : Chip) (k : Nat) : List Byte :=
  match c.fwImage k, c.fwValid k with
  | some img, some _ => Config.sha3 img
  | _, _ => []

/-- SYS_BOOT and SYS_FW_VER show the slots. -/
def Chip.showFw (c : Chip) : Chip :=
  let ver (k : Nat) : Nat := ((c.fwValid k).map fun b => b.version).getD 0
  let c := (c.setF Fld.sysBoot_validA [] (c.fwValid 0).isSome.toNat).setF Fld.sysBoot_validB [] (c.fwValid 1).isSome.toNat
  let c := c.setF Fld.sysBoot_minVersion [] (c.rollback % 2 ^ 24)
  (c.setF Fld.sysFwVer_version [0] (ver 0)).setF Fld.sysFwVer_version [1] (ver 1)

/-- Bytes as little-endian words. -/
def wordsOfBytes : Nat → List Byte → List Word
  | 0, _ => []
  | n + 1, bs => BitVec.ofNat 64 (leNat (bs.take 8)) :: wordsOfBytes n (bs.drop 8)

/-- FW_LOAD (R506). -/
def Chip.mpFwLoad (c : Chip) (m : Cmd) : Chip :=
  let len := m.word 1
  let k := bitsOf (m.word 2) 0 0
  let op := 0x0C04
  if m.stray (2 ^ 48 - 1) ∨ 2 ^ 32 ≤ len ∨ 2 ≤ m.word 2 then c.finish op m Status.badParam
  else if k = c.f Fld.sysState_mpSlot ∨ c.boot.trial.isSome ∨ ¬ c.admits m.tent .r m.p len then
    c.finish op m Status.notPermitted
  else
    let img := c.bytes m.p len
    match fwParse img with
    | none => c.finish op m Status.badParam
    | some (e, b) =>
      if ¬ fwSigned e then c.finish op m Status.signatureFail
      else if b.version < c.rollback then c.finish op m Status.notPermitted
      else
        let c : Chip := { c with fws := Tab.set c.fws k { image := some img } }
        c.showFw.acceptFinish op m Status.ok b.version

def execFwLoad (m : Cmd) (s : State) : Outcome :=
  onHost m s fun c => c.mpReceive 0x0C04 m [] fun c => c.mpFwLoad m

/-- R507, steps 1 to 3: once the MP has answered every command it took before the FW_SWITCH, it restarts from the target
on trial. In recovery the start-up goes on from it (R505). -/
def Chip.settleSwitch (c : Chip) : Chip :=
  match c.boot.switching with
  | none => c
  | some m =>
    if c.boot.trial.isSome ∨ c.longs.any fun x => !(x.op == 0x0C05 && x.cmd == m) then c
    else
      let old := c.f Fld.sysState_mpSlot
      let c : Chip := { c with boot := { c.boot with switching := none, trial := some (m, bitOf m.p 1), before := old } }
      let c := (c.setF Fld.sysState_mpSlot [] (bitsOf m.p 0 0)).setF Fld.sysBoot_trial [] 1
      c.setF Fld.sysBoot_recovery [] 0

/-- FW_SWITCH (R507): the MP takes no further command. -/
def Chip.mpFwSwitch (c : Chip) (m : Cmd) : Chip :=
  let k := bitsOf m.p 0 0
  let op := 0x0C05
  if m.stray 3 then c.finish op m Status.badParam
  else if k = c.f Fld.sysState_mpSlot ∨ (c.fwValid k).isNone ∨ c.boot.trial.isSome then
    c.finish op m Status.notPermitted
  else
    let c := c.accept op m
    ({ c with boot := { c.boot with switching := some m } } : Chip).settleSwitch

def execFwSwitch (m : Cmd) (s : State) : Outcome :=
  onHost m s fun c => c.mpReceive 0x0C05 m [] fun c => c.mpFwSwitch m

/-- FW_TRIAL_END (R507): 60 s have passed without a watchdog restart. -/
def Chip.trialEnd (c : Chip) : Chip :=
  match c.boot.trial with
  | none => c
  | some (m, commit) =>
    let roll := ((c.fwValid (c.f Fld.sysState_mpSlot)).map fun b => b.rollback).getD 0
    let c : Chip := { c with boot := { c.boot with trial := none }
                             rollback := if commit then max c.rollback roll else c.rollback }
    ((c.setF Fld.sysBoot_trial [] 0).showFw).answer 0x0C05 m Status.ok

def execFwTrialEnd (s : State) : Outcome := onChip s fun c => if c.powered then c.settleSwitch.trialEnd else c

/-! ### The watchdog (R419, R507) -/

/-- R419: a command taken and not finally answered is answered MP_OVERLOAD; a load's slot goes to FAILED. -/
def Chip.overload (c : Chip) (x : MpItem) : Chip :=
  let slot := c.slots.find? fun p => p.2.cmd == some x.cmd
  match decide (x.op = 0x0301), slot with
  | true, some p => c.failSet p.1.1 p.1.2 Status.mpOverload none
  | _, _ => c.answer x.op x.cmd Status.mpOverload

/-- WATCHDOG_RESTART (R419): a trial is taken back to the slot that ran before (R507). -/
def Chip.watchdog (c : Chip) : Chip :=
  if ¬ c.powered ∨ c.flag Fld.sysBoot_recovery then c
  else
    let c := c.countSat Fld.sysState_restarts []
    let c := match c.boot.trial with
      | some _ => ((c.setF Fld.sysState_mpSlot [] c.boot.before).setF Fld.sysBoot_trial [] 0)
      | none => c
    let c : Chip := { c with boot := { c.boot with trial := none, switching := none } }
    let c := c.longs.foldl Chip.overload c
    let c : Chip := { c with longs := [], tentWaits := [] }
    let c := c.ev .sysEvWdog
    c.message 0 7 (leBytes 4 (c.f Fld.sysState_restarts) ++ leBytes 4 0)

def execWatchdogRestart (s : State) : Outcome := onChip s Chip.watchdog

/-! ### SYS commands -/

/-- The device state's code (R461). -/
def stateCode : DevState → Nat
  | .off => 0
  | .lantern => 1
  | .starting => 2
  | .service => 3
  | .hold => 4

/-- SYS_INFO (R421). -/
def Chip.mpSysInfo (c : Chip) (m : Cmd) : Chip :=
  if m.stray 0 then c.finish 0x0101 m Status.badParam
  else
    let slot := c.f Fld.sysState_mpSlot
    c.finish 0x0101 m Status.ok 0
      ([Config.serial, BitVec.ofNat 64 (stateCode c.device + slot * 256)] ++ wordsOfBytes 4 (c.fwHash slot))

def execSysInfo (m : Cmd) (s : State) : Outcome :=
  onHost m s fun c => c.mpReceive 0x0101 m [] fun c => c.mpSysInfo m

/-- SYS_ECHO (R421): the parameter's low byte gives way to the status (R412, R414). -/
def Chip.hwSysEcho (c : Chip) (m : Cmd) : Chip := c.finish 0x0102 m Status.ok (m.p / 256) m.words

def execSysEcho (m : Cmd) (s : State) : Outcome :=
  onHost m s fun c => c.hwReceive 0x0102 m fun c => c.hwSysEcho m

/-- UNASSIGNED_OPCODE (R415): an opcode R421 does not assign, or one of the MSG group. -/
def Chip.unassigned (c : Chip) (op : Nat) (m : Cmd) : Chip :=
  if opcodes.contains (op % 65536) then c else c.finish (op % 65536) m Status.badOpcode

def execUnassignedOpcode (op : Nat) (m : Cmd) (s : State) : Outcome := onHost m s fun c => c.unassigned op m

/-! ### Publisher keys (R508) -/

/-- WSET_KEY shows a key slot. -/
def Chip.showKey (c : Chip) (t k : Nat) : Chip :=
  let pair := Tab.get (c.tent t).keys k []
  if pair.isEmpty then c.putWords .wsetKey [t, k] (List.replicate 8 0)
  else c.putWords .wsetKey [t, k] ([BitVec.ofNat 64 (2 ^ 63), 0, 0, 0] ++ wordsOfBytes 4 (Config.sha3 pair))

/-- KEY_INSTALL (R508). -/
def Chip.mpKeyInstall (c : Chip) (m : Cmd) : Chip :=
  let t := bitsOf m.p 5 0
  let k := bitsOf m.p 9 8
  let a := m.word 1
  let op := 0x0C02
  if m.stray 0x33F ∨ 2 ^ 48 ≤ a then c.finish op m Status.badParam
  else if ¬ (Tab.get (c.tent t).keys k []).isEmpty ∨ ¬ c.admits m.tent .r a 1984 then
    c.finish op m Status.notPermitted
  else
    let pair := c.bytes a 1984
    if ¬ Config.keyPairGood pair then c.finish op m Status.badParam
    else
      let x := c.tent t
      ((c.setTent t { x with keys := Tab.set x.keys k pair }).showKey t k).finish op m Status.ok

def execKeyInstall (m : Cmd) (s : State) : Outcome :=
  onHost m s fun c => c.mpReceive 0x0C02 m [] fun c => c.mpKeyInstall m

/-- KEY_REMOVE (R508). -/
def Chip.mpKeyRemove (c : Chip) (m : Cmd) : Chip :=
  let t := bitsOf m.p 5 0
  let k := bitsOf m.p 9 8
  if m.stray 0x33F then c.finish 0x0C03 m Status.badParam
  else
    let x := c.tent t
    ((c.setTent t { x with keys := x.keys.filter fun p => p.1 != k }).showKey t k).finish 0x0C03 m Status.ok

def execKeyRemove (m : Cmd) (s : State) : Outcome :=
  onHost m s fun c => c.mpReceive 0x0C03 m [] fun c => c.mpKeyRemove m

/-! ### Attestation (R509, R510) -/

/-- The manifest hash a slot shows, 32 bytes. -/
def Chip.slotHash (c : Chip) (t k : Nat) : List Byte :=
  (List.range 4).flatMap fun w => leBytes 8 (c.get { name := .wsetSlot, idx := [t, k], w := w + 4 }).toNat

/-- The body of a report (R510); items of more than one value are arrays (log entry 56). -/
def Chip.attestBody (c : Chip) (t : Nat) (nonce : List Byte) : List Byte :=
  let u := Cbor.putUint
  let b := Cbor.putBytes
  let slot := c.f Fld.sysState_mpSlot
  let ver (k : Nat) : Nat := c.f Fld.sysFwVer_version [k]
  let dales := ((List.range 144).map fun k => if c.daleOwner k = t then 2 ^ k else 0).sum
  let sites := ((List.range 27648).filter fun i => c.siteTent i == t).length
  let win := (List.range 64).flatMap fun x => leBytes 8 (c.segment t x)
  let slotItem (k : Nat) : List Byte :=
    let w := c.slotInfo t k
    Cbor.putArray [u k, u (c.slotState t k), u (c.slotEpoch t k),
      b (if c.slotState t k = 0 then [] else c.slotHash t k), Cbor.putText w.name]
  let keyItem (k : Nat) : List Byte :=
    let pair := Tab.get (c.tent t).keys k []
    if pair.isEmpty then Cbor.putNull else b (Config.sha3 pair)
  Cbor.putMap
    [(1, b nonce), (2, u Config.serial.toNat), (3, b Config.certificate),
     (4, Cbor.putArray [u c.stamp.toNat, u (stateCode c.device)]),
     (5, Cbor.putArray [u slot, Cbor.putBool (c.flag Fld.sysBoot_trial), u c.rollback, u (ver 0), u (ver 1),
        b (c.fwHash 0), b (c.fwHash 1)]),
     (6, u t),
     (7, Cbor.putArray [u (c.f Fld.tentCtl_state [t]), Cbor.putBool (c.flag Fld.tentCtl_priv [t]),
        b (leBytes 18 dales), u sites, b (Config.sha3 win),
        Cbor.putArray ((List.range 8).map fun cl => u (c.f Fld.budPitch_pitch [t, cl]))]),
     (8, Cbor.putArray ((List.range 2).map slotItem)),
     (9, Cbor.putArray ((c.tent t).images.map b)),
     (10, Cbor.putArray ((List.range 4).map keyItem)),
     (11, Cbor.putArray [Cbor.putBool (c.flag Fld.cairnId_certified), Cbor.putBool (c.flag Fld.cairnState_sealBroken),
        Cbor.putBool (c.flag Fld.cairnState_fault),
        b ((List.range 4).flatMap fun w => leBytes 8 (c.get { name := .cairnSum, idx := [w] }).toNat),
        b (Config.sha3 Config.cairnKeys)])]

/-- ATTEST (R502, R509). -/
def Chip.mpAttest (c : Chip) (m : Cmd) : Chip :=
  let len := bitsOf (m.word 1) 31 0
  let t := bitsOf (m.word 1) 37 32
  let op := 0x0C01
  if m.stray (2 ^ 48 - 1) ∨ bitsOf (m.word 1) 63 38 ≠ 0 then c.finish op m Status.badParam
  else if ¬ c.flag Fld.sysBoot_idOk ∨ (m.tent ≠ 0 ∧ t ≠ m.tent) ∨ ¬ c.admits m.tent .w m.p len then
    c.finish op m Status.notPermitted
  else
    let body := c.attestBody t ((List.range 4).flatMap fun w => leBytes 8 (m.word (w + 2)))
    let msg := ascii "GXAT" ++ body
    let rep := Cbor.putArray
      [Cbor.putUint 1, Cbor.putBytes body, Cbor.putBytes (Config.signs 0 msg), Cbor.putBytes (Config.signs 1 msg)]
    if len < rep.length then c.finish op m Status.badParam
    else (c.store m.p rep).acceptFinish op m Status.ok rep.length

def execAttest (m : Cmd) (s : State) : Outcome :=
  onHost m s fun c => c.mpReceive 0x0C01 m [] fun c => c.mpAttest m

end Sys2Proof.Machine
end

