-- ==== Sys2Proof/Machine/Startup.lean ====
section
/-!
DEFINITION. Sys2Proof/Machine/Startup.lean: the device states (R461 to R467), start-up and the restoration of Tents
and sets (R499, R500, R504, R505, R514 to R519, R537), and the supplies of the Lantern (R462).
-/

namespace Sys2Proof.Machine

/-! ### The configuration store (R499, R500) -/

/-- The registers whose values the store keeps. -/
def storedName : RegName → Bool
  | .tentCtl | .tentDale | .tentSite | .tentWin | .budPitch | .budWaitLimit | .wsetMinser | .wsetActive
  | .veldImgBase | .sysStart => true
  | _ => false

def Chip.bankNow (c : Chip) : StoreBank := if c.current = 0 then c.bankA else c.bankB

/-- What the store keeps of a slot. -/
def Chip.slotItem (c : Chip) (t k : Nat) : SlotItem :=
  let w := c.slotInfo t k
  let dales := w.shards.any fun s => s.target != 0
  { state := c.slotState t k, epoch := c.slotEpoch t k,
    hash := (List.range 4).map fun q => c.get { name := .wsetSlot, idx := [t, k], w := q + 4 },
    sites := w.sites.length, restorable := w.fprint.isSome && !w.sites.isEmpty && !dales, fprint := w.fprint.isSome }

/-- The record set as it is now; what it records of slots stays until they are restored (R517). -/
def Chip.snapshot (c : Chip) : StoreBank :=
  let keys := c.tents.flatMap fun p => p.2.keys.map fun q => ((p.1, q.1), q.2)
  { seq := c.bankNow.seq + 1
    regs := c.regs.filter fun p => storedName p.1.name
    keys := keys
    epochs := c.tents.map fun p => (p.1, p.2.epoch)
    slots := if c.boot.restored then c.slots.map fun p => (p.1, c.slotItem p.1.1 p.1.2) else c.bankNow.slots
    minVersion := c.rollback
    active := c.f Fld.sysState_mpSlot
    trial := c.boot.trial.isSome }

/-- STORE_UPDATE (R500): the record set goes into the bank that is not current, which then becomes current. -/
def Chip.storeUpdate (c : Chip) : Chip :=
  if ¬ c.powered ∨ ¬ c.loaded then c
  else
    let b := c.snapshot
    if c.current = 0 then { c with bankB := b, current := 1 } else { c with bankA := b, current := 0 }

def execStoreUpdate (s : State) : Outcome := onChip s Chip.storeUpdate

/-! ### Power (R461 to R467) -/

/-- Registers the Lantern keeps, and those that show the Cairn or a stage fault. -/
def keptName : RegName → Bool
  | .lantSec | .lantSub | .lantCmp | .lantCfg | .lantRecHead | .lantRec | .pwrStage | .pwrEvStage
  | .cairnId | .cairnSum | .cairnState | .cairnTime | .cairnTotal | .cairnInput | .cairnRec | .cairnEvt
  | .cairnTent => true
  | _ => false

/-- What a site's array keeps without power: its cells and their record (R181, R512). The running ratio means are then
those of the last verify (R155). -/
def Arr.cold (a : Arr) : Arr :=
  { codes := a.codes, sw := a.sw, epoch := a.epoch, m50 := a.m50, m100 := a.m100, m5 := a.m50, m10 := a.m100,
    seeds := a.seeds, hash := a.hash, prints := a.prints, vecs := a.vecs, tol := a.tol }

/-- Every stage turns off and the device enters LANTERN: what neither the Lantern, the configuration store nor
resistive memory keeps is lost (R461, R499, R550). -/
def Chip.powerOff (c : Chip) : Chip :=
  let c := c.cutProgs
  let stages := c.regs.map fun p =>
    if p.1.name = .pwrStage then (p.1, setBits p.2 31 31 0) else p
  { device := .lantern
    regs := stages.filter fun p => keptName p.1.name
    marks := c.marks.filter fun r => r.name == .pwrEvStage
    outs := c.outs
    free := c.free
    boots := c.boots
    recs := c.recs
    arrs := c.arrs.map fun p => (p.1, p.2.cold)
    bankA := c.bankA
    bankB := c.bankB
    current := c.current
    fws := c.fws
    rollback := c.rollback
    actSeq := c.actSeq
    cursors := c.cursors
    boot := { wake := c.boot.wake, jtagTen := c.boot.jtagTen, faultWait := c.boot.faultWait, backup := c.boot.backup,
              recNew := c.boot.recNew, boundary := c.boot.boundary } }

/-- A trip of a powered device: off, with a Lantern record of the cause, whose hottest node is the one of the
moment (R466, R467, R476). -/
def Chip.trip (c : Chip) (cause : Nat) : Chip :=
  if c.powered then (c.lantRecord cause false).powerOff else c

/-- The comparators of the Lantern are clear (R463). -/
def Chip.cmpClear (c : Chip) : Bool :=
  !c.flag Fld.lantCmp_uv && !c.flag Fld.lantCmp_ov && !c.flag Fld.lantCmp_coolantHot

/-- A start from LANTERN (R515 steps 1 and 2, R537): stage faults clear, the stages turn on, Basecamp first; with
JTAG_TEN high the start stops here. -/
def Chip.startUp (c : Chip) : Chip :=
  let c := (List.range 48).foldl (fun c k => c.put { name := .pwrStage, idx := [k] } (BitVec.ofNat 64 (2 ^ 31))) c
  { c with device := .starting, boots := c.boots + 1, boot := { c.boot with testStop := c.boot.jtagTen } }

/-- In LANTERN the device starts when WAKE asks or auto_wake is set and nothing stands against it (R463). -/
def Chip.tryStart (c : Chip) : Chip :=
  if c.device = .lantern ∧ (c.boot.wake ∨ c.flag Fld.lantCfg_autoWake) ∧ c.cmpClear ∧ ¬ c.boot.faultWait ∧
      ¬ c.boot.backup then c.startUp
  else c

/-- The WAKE line and JTAG_TEN as they stand now. -/
def Chip.pins (c : Chip) (wake ten : Bool) : Chip :=
  ({ c with boot := { c.boot with wake := wake, jtagTen := ten } }).setF Fld.lantCmp_wake [] wake.toNat

/-- WAKE_REQUEST (R463): `asks`: the WAKE line asks; `ten`: JTAG_TEN. -/
def Chip.wakeRequest (c : Chip) (asks ten : Bool) : Chip :=
  if c.device = .off then c else (c.pins asks ten).tryStart

def execWakeRequest (asks ten : Bool) (s : State) : Outcome := onChip s fun c => c.wakeRequest asks ten

/-- WAKE_WITHDRAWN (R463): every hardware job ends THERMAL_HOLD and the 10 ms run. -/
def Chip.wakeWithdrawn (c : Chip) : Chip :=
  if c.device = .off then c
  else
    let c := c.pins false c.boot.jtagTen
    if c.powered then
      let c := c.endJobs Status.thermalHold
      { c with boot := { c.boot with shutting := true } }
    else c

def execWakeWithdrawn (s : State) : Outcome := onChip s Chip.wakeWithdrawn

/-- WAKE_SHUTDOWN (R463): record and LANTERN, and a new start where the line asks again. -/
def execWakeShutdown (s : State) : Outcome := onChip s fun c => if c.boot.shutting then (c.trip 6).tryStart else c

/-- STAGE_FAULT (R466): stage `k` turns itself off with a cause, and every stage with it. -/
def Chip.stageFault (c : Chip) (k cause : Nat) : Chip :=
  if ¬ c.powered then c
  else
    let c := c.put { name := .pwrStage, idx := [k] }
      (BitVec.ofNat 64 (2 ^ 30 + cause % 4 * 2 ^ 28 + c.f Fld.pwrStage_vout [k]))
    let c := (c.ev .pwrEvStage).trip 5
    { c with boot := { c.boot with faultWait := true } }

def execStageFault (k cause : Nat) (s : State) : Outcome :=
  onUnits (decide (k < 48 ∧ 1 ≤ cause ∧ cause ≤ 3)) s fun c => c.stageFault k cause

/-- STAGE_FAULT_WAIT_END (R463): 10 s of the Lantern RTC have passed. -/
def execStageFaultWaitEnd (s : State) : Outcome :=
  onChip s fun c => ({ c with boot := { c.boot with faultWait := false } }).tryStart

/-- A comparator of the input fires, or clears again (R467); on backup both read as clear (R462). -/
def Chip.inputTrip (c : Chip) (f : Fld) (fired : Bool) (cause : Nat) : Chip :=
  if c.device = .off ∨ c.boot.backup then c
  else
    let c := c.setF f [] fired.toNat
    if fired then c.trip cause else c.tryStart

/-- INPUT_UNDERVOLTAGE (R467): below 52 V, or with `fired` false above 54 V again. -/
def execInputUndervoltage (fired : Bool) (s : State) : Outcome :=
  onChip s fun c => c.inputTrip Fld.lantCmp_uv fired 3

/-- INPUT_OVERVOLTAGE (R467): above 76 V, or with `fired` false below 74 V again. -/
def execInputOvervoltage (fired : Bool) (s : State) : Outcome :=
  onChip s fun c => c.inputTrip Fld.lantCmp_ov fired 4

/-- COOLANT_COMPARATOR (R473): the inlet passes 55 °C, or, with `hot` false, falls to its release at 52 °C
(R479) and a start is tried again (R463). On backup the Lantern's comparators read as clear (R462). -/
def Chip.coolantComparator (c : Chip) (hot : Bool) : Chip :=
  if c.device = .off ∨ c.boot.backup then c
  else
    let c := c.setF Fld.lantCmp_coolantHot [] hot.toNat
    if hot then c.enterHold 2 else c.tryStart

def execCoolantComparator (hot : Bool) (s : State) : Outcome := onChip s fun c => c.coolantComparator hot

/-- LANTERN_POWER_UP (R461, R462): a supply rises, the input or the backup one. -/
def Chip.lanternUp (c : Chip) (backup : Bool) : Chip :=
  if c.device = .off then
    let c : Chip := { c with device := .lantern, boot := { c.boot with backup := backup } }
    c.setF Fld.lantSec_valid [] 0
  else if c.boot.backup ∧ ¬ backup then { c with boot := { c.boot with backup := false } }
  else c

def execLanternPowerUp (backup : Bool) (s : State) : Outcome := onChip s fun c => c.lanternUp backup

/-- LANTERN_ON_BACKUP (R462, R467): the trip at 52 V has come first; the comparators read as clear. -/
def Chip.onBackup (c : Chip) : Chip :=
  if c.device = .off then c
  else
    let c := c.trip 3
    let c : Chip := { c with boot := { c.boot with backup := true } }
    ((c.setF Fld.lantCmp_uv [] 0).setF Fld.lantCmp_ov [] 0).setF Fld.lantCmp_coolantHot [] 0

def execLanternOnBackup (s : State) : Outcome := onChip s Chip.onBackup

/-- LANTERN_POWER_LOSS (R461, R462): both supplies fail and the RTC stops. -/
def Chip.lanternLoss (c : Chip) : Chip := { c.trip 3 with device := .off }

def execLanternPowerLoss (s : State) : Outcome := onChip s Chip.lanternLoss

/-! ### Start-up (R504, R505, R515) -/

/-- R504: the slots in the order the boot ROM tries them. -/
def bootOrder (b : StoreBank) : List Nat :=
  let first := if b.trial then 1 - b.active else b.active
  [first, 1 - first]

/-- R504: a slot's image passes. -/
def Chip.fwBoots (c : Chip) (k : Nat) : Bool :=
  match c.fwValid k with
  | some b => decide (c.rollback ≤ b.version)
  | none => false

/-- R505: the groups that are powered in recovery: GDDR7, Basecamp and the Pass optics. -/
def recoveryGroup (g : Nat) : Bool := decide (48 ≤ g ∧ g < 52 ∨ 56 ≤ g)

/-- Every powered group holds its floor (R51). -/
def Chip.giveFloors (c : Chip) (which : Nat → Bool) : Chip :=
  ((List.range 58).filter which).foldl (fun c g =>
    c.setF Fld.budGroupState_granted [g] (max (c.granted g) (c.floorOf g))) c

/-- R517: the recorded state of a Tent. -/
def tentRestored (x : Word) : Word :=
  let keep := x &&& 0x103
  if bitsOf keep.toNat 1 0 = 2 then setBits keep 1 0 3 else keep

/-- R499, R517: registers, keys and epoch counters as the current bank holds them. -/
def Chip.loadStore (c : Chip) : Chip :=
  let b := c.bankNow
  let c := b.regs.foldl (fun c p => match p.1.name with
    | .tentCtl => c.put p.1 (tentRestored p.2)
    | .tentDale => c.put p.1 (p.2 &&& 0x3F)
    | .tentSite => c.put p.1 (p.2 &&& 0x3F007FFF)
    | _ => c.put p.1 p.2) c
  let c := b.regs.foldl (fun c p => match p.1.name, p.1.idx with
    | .tentDale, [k] => c.setF Fld.daleCtl_owner [k / 12, k % 12] (bitsOf p.2.toNat 5 0)
    | _, _ => c) c
  let c := b.epochs.foldl (fun c p => c.setTent p.1 { c.tent p.1 with epoch := p.2 }) c
  b.keys.foldl (fun c p =>
    (c.setTent p.1.1 { c.tent p.1.1 with keys := Tab.set (c.tent p.1.1).keys p.1.2 p.2 }).showKey p.1.1 p.1.2) c

/-- A register as STARTING loads it from a record: the gain in force is the one of the last verify (R155, R181). -/
def recordWord (r : Reg) (w : Word) : Word := if r.name = .siteGain then setBits w 15 0 (bitsOf w.toNat 31 16) else w

/-- Steps 3 and 4 of R515, done once in a start: store, identity and firmware, the record stores (R181), the
housekeeping table (R465), the standard loops (R243), the groups' floors (R51). Without firmware the device is in
recovery (R505). -/
def Chip.bootUp (c : Chip) : Chip :=
  if c.device ≠ .starting ∨ c.loaded ∨ c.boot.testStop ∨ c.flag Fld.sysBoot_recovery then c
  else
    let b := c.bankNow
    let c : Chip := { c with rollback := max c.rollback b.minVersion }
    let c := (c.setF Fld.sysBoot_idOk [] Config.identityOk.toNat).showFw
    let c := if c.boot.recNew = 0 then c else c.ev .lantEvRec
    let slot := if c.boot.trial.isSome then some (c.f Fld.sysState_mpSlot) else (bootOrder b).find? c.fwBoots
    match slot with
    | none => (c.setF Fld.sysBoot_recovery [] 1).giveFloors recoveryGroup
    | some k =>
      let c := c.setF Fld.sysState_mpSlot [] k
      let c : Chip := { c with loaded := true }
      let c := c.recs.foldl (fun c p => c.put p.1 (recordWord p.1 p.2)) c
      let c := (c.loadStore.installHk).giveFloors fun _ => true
      (List.range 12).foldl Chip.installStd c

/-- HK_ROUND (R211, R515): rounds start when the table is installed. -/
def Chip.hkEvent (c : Chip) (ss : List HkSample) : Chip :=
  let c := c.bootUp
  if c.powered ∧ c.loaded then c.hkTick ss else c

def execHkRound (samples : List HkSample) (s : State) : Outcome := onChip s fun c => c.hkEvent samples

/-- LINK_UP (R410, R515 step 6). -/
def execLinkUp (bytes : List Byte) (s : State) : Outcome := onChip s fun c => c.bootUp.linkUp bytes

/-! ### Restoring sets (R517) -/

/-- The sites that hold the set of a Tent with an epoch. -/
def Chip.sitesWith (c : Chip) (t epoch : Nat) : List Nat :=
  c.arrs.filterMap fun p =>
    if p.2.epoch = epoch ∧ c.f Fld.siteAstate_owner [p.1.1, p.1.2] = t then c.logicalOf p.1.1 p.1.2 else none

/-- R513 against the stored outputs, `noise` the conversions of the site. -/
def Chip.fingerAgain (c : Chip) (i : Nat) (noise : List Int) : Bool × Chip :=
  let a := c.siteArr i
  let r := (List.zip a.vecs a.prints).foldl (fun (r : Bool × List Int × Chip) p =>
    let q := r.2.2.fingerRun i (fingerVector p.1) p.2.1 a.tol p.2.2 r.2.1
    (r.1 && q.1, q.2)) (true, noise, c)
  (r.1 && !a.prints.isEmpty, r.2.2)

/-- WSET_SLOT of a slot as the store records it, in a state and with the status of its last load. -/
def Chip.showSlot (c : Chip) (t k : Nat) (x : SlotItem) (state status : Nat) : Chip :=
  c.putWords .wsetSlot [t, k] ([BitVec.ofNat 64 (x.epoch * 2 ^ 32 + status * 2 ^ 16 + state), 0, 0, 0] ++ x.hash)

/-- The sites of a set that is not restored are released, and a pointer that names its slot reads none (R364, R517). -/
def Chip.loseSet (c : Chip) (t k : Nat) (x : SlotItem) : Chip :=
  let c := (c.sitesWith t x.epoch).foldl Chip.clearSite c
  if c.f Fld.wsetActive_slot [t] = k then c.setF Fld.wsetActive_slot [t] 3 else c

/-- R517: one recorded slot. -/
def Chip.restoreSlot (c : Chip) (t k : Nat) (x : SlotItem) (noise : List (Nat × List Int)) : Chip :=
  if x.state = 0 then c
  else if x.state = 1 ∨ x.state = 2 then (c.loseSet t k x).showSlot t k x 5 Status.setNotActive
  -- the store keeps no status of a load that failed (R499)
  else if x.state = 5 then (c.loseSet t k x).showSlot t k x 5 0xFF
  else if ¬ x.restorable then c.loseSet t k x
  else
    let is := c.sitesWith t x.epoch
    let r := is.foldl (fun (r : Bool × Chip) i =>
      let q := r.2.fingerAgain i (Tab.get noise i [])
      (r.1 && q.1, q.2)) (true, c)
    let c := r.2
    if r.1 ∧ is.length = x.sites then
      let c := c.showSlot t k x x.state 0xFF
      c.setSlot t k { c.slotInfo t k with sites := is, passed := is, fprint := some ((c.siteArr (is.headD 0)).tol, []) }
    else ((c.loseSet t k x).showSlot t k x 5 Status.setNotActive).ev .wsetEvFail [t]

/-- The calibration of this start is done (R294, R296, R516). -/
def Chip.calDone (c : Chip) : Bool := c.boot.release || c.boot.imported || c.boot.passed

/-- ENTER_SERVICE (R515 to R518): a start from LANTERN restores the sets the store records, `noise` the
conversions of its fingerprint checks by site; what a start from HOLD finds restored was kept (R473, R516). -/
def Chip.enterService (c : Chip) (noise : List (Nat × List Int)) : Chip :=
  if c.device ≠ .starting ∨ ¬ c.loaded ∨ ¬ c.calDone then c
  else
    let c : Chip := if c.boot.restored then (List.range 64).foldl Chip.settleQuiesce c
      else c.bankNow.slots.foldl (fun c p => c.restoreSlot p.1.1 p.1.2 p.2 noise) c
    let c := c.clearHarqs
    let c : Chip := { c with device := .service, boot := { c.boot with release := false, restored := true } }
    (c.giveFloors fun _ => true).askBoosters

def execEnterService (noise : List (Nat × List Int)) (s : State) : Outcome := onChip s fun c => c.enterService noise

end Sys2Proof.Machine
end

