-- ==== Sys2Proof/Machine/Drain.lean ====
section
/-!
DEFINITION. Sys2Proof/Machine/Drain.lean: the maintenance drain (R520 to R522), failed die-boundary channels
(R29), and the end of a Dale job, which may end a drain.
-/

namespace Sys2Proof.Machine

/-- The drain of a unit: kind 0 a Vale, 1 a Veld. -/
def Chip.drainOf (c : Chip) (u n : Nat) : Option Drain :=
  Tab.get (c.drains.map fun p => (p.1, some p.2)) (u, n) none

def Chip.setDrain (c : Chip) (u n : Nat) (d : Drain) : Chip := { c with drains := Tab.set c.drains (u, n) d }

/-- The unit exists (R16, R522). -/
def drainUnit (u n : Nat) : Bool := decide (u = 0 ∧ n < 12 ∨ u = 1 ∧ n < 36)

/-! ### Velds -/

/-- Steps queued at a site end SET_NOT_ACTIVE, but for the one that runs; context operations between them take
effect (R334, R336, R521). The first one ends NOT_PERMITTED where it waits for a credit step, whose request the drain
withdraws (R550). -/
def Chip.flushSteps (c : Chip) (i : Nat) : Chip :=
  let k := c.core i
  let keep := if k.run.isSome then k.steps.take 1 else []
  let rest := if k.run.isSome then k.steps.drop 1 else k.steps
  let credit := k.run.isNone && c.bud.waiting.any fun w => w.gate == .array i && w.credit && w.job.isNone
  let c := c.setCore i { k with steps := keep }
  (rest.foldl (fun (r : Chip × Bool) x => match x with
    | .create a w => (r.1.actxCreate i a w.toNat, r.2)
    | .close a => (r.1.actxClose i a, r.2)
    | .step t _ _ _ =>
      let h : Hart := { i := i, t := t }
      let st := if r.2 then Status.notPermitted else Status.setNotActive
      match (r.1.thread h).wait with
      | .step rd => ((r.1.mapThread h fun y => y.setX rd (BitVec.ofNat 64 st)).retire h, false)
      | _ => (r.1, false)) (c, credit)).1

/-- Logical sites of a Veld that have something in hand. -/
def Chip.veldCores (c : Chip) (n : Nat) : List Nat := (c.cores.map fun p => p.1).filter fun i => i / 768 == n

/-- Physical sites of a Veld in a state move to another. -/
def Chip.moveSites (c : Chip) (n old new : Nat) : Chip :=
  (List.range 800).foldl (fun c s =>
    if c.f Fld.siteAstate_state [n, s] = old then c.setF Fld.siteAstate_state [n, s] new else c) c

/-- A slot's load targets a site of the Veld (R521). -/
def Chip.loadsOn (c : Chip) (n t k : Nat) : Bool :=
  (c.slotInfo t k).sites.any (fun i => i / 768 == n) ||
  (c.veld n).progs.any fun p => match p.2.what with
    | .set t' k' _ _ _ => t' == t && k' == k
    | _ => false

/-- A thread of the Veld is not FREE. -/
def Chip.veldRuns (c : Chip) (n : Nat) : Bool :=
  c.cores.any fun p => p.1 / 768 == n && (p.2.threads.any (fun q => q.2.state != 0) || p.2.run.isSome)

/-! ### The two halves of a drain -/

/-- A Dale of the Vale has a job in hand. -/
def Chip.valeRuns (c : Chip) (v : Nat) : Bool :=
  (List.range 12).any fun d => (c.dale (12 * v + d)).run.isSome

/-- R520 step 3, R521 steps 2 to 4: what still runs ends, the unit stands, its group is at its floor. -/
def Chip.drainUnitEnd (c : Chip) (u n : Nat) (fault : Bool) : Chip :=
  if u = 0 then
    let c := (List.range 12).foldl (fun c d => c.endDale (12 * n + d) Status.notPermitted) c
    let c := c.darkenVale n
    let regs := c.regs.map fun p =>
      if (p.1.name = .drvCh ∨ p.1.name = .drvDaleState) ∧ p.1.idx.headD 12 = n then (p.1, setBits p.2 31 31 1)
      else p
    let c : Chip := { c with regs := regs }
    let c := (List.range 12).foldl (fun c d =>
      (c.dropTile (12 * n + d)).setDaleState (12 * n + d) (if fault then 9 else 8)) c
    c.groupToFloor n
  else
    let c := (c.veldCores n).foldl Chip.flushSteps c
    let c := c.stopThreads fun i => i / 768 == n
    let c := c.failLoads Status.setNotActive fun tk => c.loadsOn n tk.1 tk.2
    -- sites whose programming has stopped join those of step 1
    ((c.stopRefresh n).moveSites n 2 6).groupToFloor (12 + n)

/-- R520 step 1, R521 step 1: the unit takes no more work. -/
def Chip.drainUnitBegin (c : Chip) (u n : Nat) : Chip :=
  if u = 0 then
    (List.range 12).foldl (fun c d => c.setDale (12 * n + d) { c.dale (12 * n + d) with drained := true }) c
  else
    let c := (c.setVeld n { c.veld n with drained := true }).moveSites n 2 6
    (c.veldCores n).foldl Chip.flushSteps c

/-- R522: what a resume restores. -/
def Chip.resumeUnit (c : Chip) (u n : Nat) : Chip :=
  let c : Chip := { c with drains := c.drains.filter fun p => p.1 != (u, n) }
  if u = 0 then
    let c := (c.freezeVale n).thawVale n
    (List.range 12).foldl (fun c d =>
      (c.setDale (12 * n + d) { c.dale (12 * n + d) with drained := false }).setDaleState (12 * n + d) 0) c
  else
    let c := c.setVeld n { c.veld n with drained := false }
    (List.range 800).foldl (fun c s =>
      if c.f Fld.siteAstate_state [n, s] = 6 then
        (c.setF Fld.siteAstate_state [n, s] 2).setArr n s { c.arr n s with fresh := true }
      else c) c

/-- The drain ends: its commands get their final replies, then a resume that came meanwhile takes effect. -/
def Chip.drainEnd (c : Chip) (u n : Nat) : Chip :=
  match c.drainOf u n with
  | none => c
  | some d =>
    if d.done then c
    else
      let c := c.setDrain u n { d with done := true }
      let c := c.drainUnitEnd u n d.fault
      let c := d.cmds.foldl (fun c m => c.answer 0x0103 m Status.ok) c
      if d.resume.isEmpty then c
      else if d.fault then d.resume.foldl (fun c m => c.answer 0x0104 m Status.notPermitted) c
      else d.resume.foldl (fun c m => c.answer 0x0104 m Status.ok) (c.resumeUnit u n)

/-- Drains whose unit has nothing left to run end now. -/
def Chip.settleDrain (c : Chip) (u n : Nat) : Chip :=
  if (if u = 0 then c.valeRuns n else c.veldRuns n) then c else c.drainEnd u n

/-- SYS_DRAIN (R520, R521). A unit that is drained already answers OK. -/
def Chip.mpDrain (c : Chip) (m : Cmd) : Chip :=
  let u := bitsOf m.p 7 0
  let n := bitsOf m.p 15 8
  if m.stray 0xFFFF ∨ ¬ drainUnit u n then c.finish 0x0103 m Status.badParam
  else match c.drainOf u n with
    | some d =>
      if d.done then c.acceptFinish 0x0103 m Status.ok
      else (c.accept 0x0103 m).setDrain u n { d with cmds := d.cmds ++ [m] }
    | none =>
      let c := (c.accept 0x0103 m).setDrain u n { cmds := [m] }
      (c.drainUnitBegin u n).settleDrain u n

def execSysDrainVale (m : Cmd) (s : State) : Outcome :=
  onHost m s fun c => c.mpReceive 0x0103 m [] fun c => c.mpDrain m

def execSysDrainVeld (m : Cmd) (s : State) : Outcome :=
  onHost m s fun c => c.mpReceive 0x0103 m [] fun c => c.mpDrain m

/-- SYS_RESUME (R522). A unit that is not drained answers OK. -/
def Chip.mpResume (c : Chip) (m : Cmd) : Chip :=
  let u := bitsOf m.p 7 0
  let n := bitsOf m.p 15 8
  if m.stray 0xFFFF ∨ ¬ drainUnit u n then c.finish 0x0104 m Status.badParam
  else match c.drainOf u n with
    | none => c.acceptFinish 0x0104 m Status.ok
    | some d =>
      if d.fault then c.finish 0x0104 m Status.notPermitted
      else if d.done then (c.accept 0x0104 m).resumeUnit u n |>.finish 0x0104 m Status.ok
      else (c.accept 0x0104 m).setDrain u n { d with resume := d.resume ++ [m] }

def execSysResume (m : Cmd) (s : State) : Outcome :=
  onHost m s fun c => c.mpReceive 0x0104 m [] fun c => c.mpResume m

/-- DRAIN_WAIT_EXPIRE (R520, R521): drain_wait has passed. -/
def execDrainWaitExpire (u n : Nat) (s : State) : Outcome :=
  onUnits (drainUnit u n) s fun c => c.drainEnd u n

/-- JOB_COMPLETE (R142, R143, R427); the last job of a Vale that drains ends the drain (R520). -/
def execJobComplete (v d : Nat) (s : State) : Outcome :=
  onUnits (daleOk v d) s fun c => (c.jobComplete (12 * v + d)).settleDrain 0 v

/-- CHANNEL_FAULT (R29): channel `channel` of a die (class 0 Basecamp, 1 Vale, 2 Veld, 3 Saddle) fails, and the
units reached only through it are drained. -/
def Chip.channelFault (c : Chip) (die index channel : Nat) (units : List (Nat × Nat)) : Chip :=
  if ¬ c.powered then c
  else
    let c := c.put { name := .sysChanfaultLoc }
      (BitVec.ofNat 64 (die % 256 * 2 ^ 24 + index % 256 * 2 ^ 16 + channel % 65536))
    let c := c.ev .sysEvChanfault
    units.foldl (fun c p =>
      match c.drainOf p.1 p.2 with
      | some d => c.setDrain p.1 p.2 { d with fault := true }
      | none => ((c.setDrain p.1 p.2 { fault := true }).drainUnitBegin p.1 p.2).settleDrain p.1 p.2) c

def execChannelFault (die index channel : Nat) (units : List (Nat × Nat)) (s : State) : Outcome :=
  onUnits (decide (die < 4) && units.all fun p => drainUnit p.1 p.2) s fun c => c.channelFault die index channel units

end Sys2Proof.Machine
end

