-- ==== Sys2Proof/Machine/CalOps.lean ====
section
/-!
DEFINITION. Sys2Proof/Machine/CalOps.lean: the rotation of a Dale's calibration column (R228, R229, R277 to R288),
the plausibility limits of R291 and the counts of R298.
-/

namespace Sys2Proof.Machine

def Chip.valeCal (c : Chip) (v : Nat) : ValeCal := Tab.get c.valeCals v {}

def Chip.setValeCal (c : Chip) (v : Nat) (x : ValeCal) : Chip := { c with valeCals := Tab.set c.valeCals v x }

/-- The generator of a Vale's sequencer: the one of its monitor converters (R95). -/
def Chip.calRound (c : Chip) (v : Nat) (num : Int) (den : Nat) : Int × Chip :=
  let r := (c.gen (.monitor v)).roundDiv num den
  (r.1, c.setGen (.monitor v) r.2)

/-! ### Plausibility (R291) -/

/-- The four of 67 values farthest from their mean, ascending; of equal distances the lower index goes first. -/
def farthestFour (xs : List Nat) : List Nat :=
  let n := xs.length
  let s := xs.sum
  let dist (i : Nat) : Nat := ((n * xs.getD i 0 : Nat) - (s : Int)).natAbs
  let pick (ex : List Nat) : List Nat :=
    let rest := (List.range n).filter fun i => !ex.contains i
    let m := rest.foldl (fun m i => max m (dist i)) 0
    match rest.find? fun i => dist i == m with
    | some i => i :: ex
    | none => ex
  let four := pick (pick (pick (pick [])))
  (List.range n).filter fun i => four.contains i

/-- A ladder DAC's selection from its 67 unit currents in 2^-16 of the reference: each selected unit within 2 %
of their mean, full scale within 1 % of one unit. The word of DRV_UNITSEL, none where it is refused. -/
def unitSelection (xs : List Nat) : Option Word :=
  let ex := farthestFour xs
  let kept := (xs.mapIdx fun i x => (i, x)).filterMap fun p => if ex.contains p.1 then none else some p.2
  let s := kept.sum
  let ok := kept.length == 63 &&
    kept.all (fun x => decide (((63 * x : Nat) - (s : Int)).natAbs * 50 ≤ s)) &&
    decide (((s : Int) - 63 * 65536).natAbs * 100 ≤ 65536)
  if ok then some (BitVec.ofNat 64 (ex.getD 0 0 + ex.getD 1 0 * 2 ^ 7 + ex.getD 2 0 * 2 ^ 14 + ex.getD 3 0 * 2 ^ 21))
  else none

/-- A DAC's measured units choose its selection, or the failure is recorded. -/
def Chip.selectUnits (c : Chip) (v dac : Nat) (xs : List Nat) : Bool × Chip :=
  match unitSelection xs with
  | some w => (true, c.put { name := .drvUnitsel, idx := [v, dac] } w)
  | none => (false, c.ev .calEvImplaus [v])

/-! ### Fits (R282) -/

/-- π in units of 2^-48. -/
def pi48 : Int := 884279719003555

/-- sin(x) of x in 2^-48 between -π/2 and π/2, in 2^-48: eight terms of the series (log entry 3). -/
def sinSeries (x : Int) : Int :=
  let x2 := x * x / 2 ^ 48
  let r := (List.range 8).foldl (fun (r : Int × Int) k =>
    (r.1 + r.2, -(r.2 * x2 / 2 ^ 48) / (((2 * k + 2) * (2 * k + 3) : Nat) : Int))) (0, x)
  r.1

/-- sin(π num/den) in units of 2^-48. -/
def sinPi (num : Int) (den : Nat) : Int :=
  let x := (num * 2 ^ 48 / den) % 2 ^ 49
  let y := if x < 2 ^ 47 then x else if x < 3 * 2 ^ 47 then 2 ^ 48 - x else x - 2 ^ 49
  sinSeries (y * pi48 / 2 ^ 48)

/-- The two fits agree at amplitude power `pa` and phase power `pp`. -/
def fitsAgreeAt (ampTol phTol : Nat) (a b : CellFit) (pa pp : Int) : Bool :=
  let da := sinPi (pa - a.a0) a.aPi - sinPi (pa - b.a0) b.aPi
  let dp := (pp - a.p0) * b.pPi - (pp - b.p0) * a.pPi
  decide (da.natAbs * 2000 ≤ ampTol * 2 ^ 48) && decide (dp.natAbs * 1800 ≤ phTol * (a.pPi * b.pPi))

/-- R281, R282: the repeats agree at the live point and at ±δ. -/
def fitsAgree (ampTol phTol delta : Nat) (a b : CellFit) (pa pp : Nat) : Bool :=
  a.aPi != 0 && a.pPi != 0 && b.aPi != 0 && b.pPi != 0 &&
  fitsAgreeAt ampTol phTol a b pa pp &&
  fitsAgreeAt ampTol phTol a b ((pa : Int) + delta) ((pp : Int) - delta) &&
  fitsAgreeAt ampTol phTol a b ((pa : Int) - delta) ((pp : Int) + delta)

/-! ### The map -/

/-- An element's map word takes a value; the range bit stays (R283). -/
def Chip.setMapValue (c : Chip) (k e w n : Nat) : Chip := c.setF { Fld.calMap_value with } [k / 12, k % 12, e, w] n

/-- φ of a receiver in 1/1024 of a turn (R278); the probe receiver's is 0. -/
def Chip.rxPhase (c : Chip) (k j : Nat) : Int := if j = 64 then 0 else c.sf Fld.calRx_phase [k / 12, k % 12, j]

/-- R278: entry 0 of a phase element from its probe-referred zero and entry 1. -/
def Chip.referPhase (c : Chip) (v : Nat) (p0 : Int) (e1 : Nat) (phi : Int) : Nat × Chip :=
  let r := c.calRound v (phi * e1) 512
  (if e1 = 0 then 0 else ((p0 + r.1) % (2 * e1)).toNat, r.2)

/-- The logical column a physical one serves, 64 for none. -/
def portOf (cal park col : Nat) : Nat := ((List.range 64).find? fun j => shiftPort cal park j == col).getD 64

/-- The next column to calibrate, stepping over the parked one (R117). -/
def nextCal (cal park : Nat) : Nat :=
  let n := (cal + 1) % 66
  if n = park then (n + 1) % 66 else n

def Chip.calCol (c : Chip) (k : Nat) : Nat := c.f Fld.daleColmap_calCol [k / 12, k % 12]

def Chip.parkCol (c : Chip) (k : Nat) : Nat := c.f Fld.daleColmap_parkCol [k / 12, k % 12]

/-- What entry 0 of a phase element is referred to is kept (R278). -/
def Chip.setFolded (c : Chip) (k e : Nat) (phi : Int) : Chip :=
  let dl := c.dale k
  c.setDale k { dl with rot := { dl.rot with folded := Tab.set dl.rot.folded e phi } }

/-- R278, R280: entry 0 of the phase element of row `r` in physical column `col` is referred to receiver `j` in place
of the one it was formed for. -/
def Chip.referCell (c : Chip) (k col j r : Nat) : Chip :=
  let e := elemIndex r col 1
  let phi := c.rxPhase k j
  let z := c.referPhase (k / 12) (bitsOf (c.mapWord k e 0) 27 0) (bitsOf (c.mapWord k e 1) 27 0)
    (phi - Tab.get (c.dale k).rot.folded e 0)
  (z.2.setMapValue k e 0 z.1).setFolded k e phi

/-- The 66 phase elements of each of some columns are referred to the receivers beside them. -/
def Chip.referCols (c : Chip) (k : Nat) (xs : List (Nat × Nat)) : Chip :=
  xs.foldl (fun c x => (List.range 66).foldl (fun c r => c.referCell k x.1 x.2 r) c) c

/-- R296: an imported map is referred to the receivers of CAL_RX that its columns serve; in a column that serves none,
as the probe receiver sees it (log entry 94). -/
def Chip.mapImported (c : Chip) (k : Nat) : Chip :=
  let cells := (List.range 66).flatMap fun col => (List.range 66).map fun r =>
    (elemIndex r col 1, c.rxPhase k (portOf (c.calCol k) (c.parkCol k) col))
  let dl := c.dale k
  c.setDale k { dl with rot := { dl.rot with folded := cells.filter fun x => x.2 != 0 } }

/-- R282, R283: one cell of the calibration column, with its codes as they stood at the swap: committed where its
repeats agree, for the receiver `j` its column is to serve. -/
def Chip.commitCell (c : Chip) (k j r : Nat) (ma mb : CellMeas) : Bool × Chip :=
  let v := k / 12
  let ea := elemIndex r (c.calCol k) 0
  let ep := elemIndex r (c.calCol k) 1
  let xa := cellCode (Tab.get (c.dale k).live ea 0)
  let xp := cellCode (Tab.get (c.dale k).live ep 0)
  let delta := c.f Fld.calProbe_delta [v]
  let a := Config.cellFit ma (xa * xa) (xp * xp) delta
  let b := Config.cellFit mb (xa * xa) (xp * xp) delta
  if fitsAgree (c.f Fld.calCfg_ampTol [v]) (c.f Fld.calCfg_phTol [v]) delta a b (xa * xa) (xp * xp) then
    let m0 := c.calRound v ((a.a0 + b.a0 : Nat) : Int) 2
    let m1 := m0.2.calRound v ((a.aPi + b.aPi : Nat) : Int) 2
    let m2 := m1.2.calRound v ((a.p0 + b.p0 : Nat) : Int) 2
    let m3 := m2.2.calRound v ((a.pPi + b.pPi : Nat) : Int) 2
    let phi := m3.2.rxPhase k j
    let z := m3.2.referPhase v m2.1 m3.1.toNat phi
    let c := (z.2.setMapValue k ea 0 m0.1.toNat).setMapValue k ea 1 m1.1.toNat
    (true, ((c.setMapValue k ep 0 z.1).setMapValue k ep 1 m3.1.toNat).setFolded k ep phi)
  else (false, c)

/-! ### A rotation step (R281) -/

/-- A lit bank's light reaches the Dale. -/
def Chip.lightOn (c : Chip) (k : Nat) : Bool :=
  (List.range 16).any fun b =>
    c.f Fld.valeBank_port [k / 12, b] == k % 12 && decide (2 ≤ c.f Fld.valeBank_state [k / 12, b] ∧
      c.f Fld.valeBank_state [k / 12, b] ≤ 3)

/-- R287: the rotation holds for a cause other than the CAL allowance. -/
def Chip.rotationHeld (c : Chip) (k : Nat) : Bool :=
  !c.lightOn k || c.f Fld.daleState_dir [k / 12, k % 12] == 1 ||
  !bitOf (c.f Fld.guyGood_daleGood [k / 12]) (k % 12)

/-- The logical column whose weights a physical column carries from the column strobe on (R229, R284): the one it
serves after the swap, and in the next calibration column the one it serves until then. -/
def stagePort (cal park x : Nat) : Nat :=
  let new := nextCal cal park
  if x = new then portOf cal park x else portOf new park x

/-- Steps 6 and 7: the columns to stage, each with its logical column: those whose logical column changes and the two
on each side of the calibration column. -/
def stageColumns (cal park : Nat) : List (Nat × Nat) :=
  (List.range 66).filterMap fun x =>
    let j := stagePort cal park x
    if x ≠ park ∧ (portOf cal park x ≠ j ∨ (cal ≤ x + 2 ∧ x ≤ cal + 2)) then some (x, j) else none

/-- The targets of a tile with every column but the parked one carrying the weights it has from the column strobe
on. -/
def Chip.stagePowers (c : Chip) (k : Nat) (t : Tile) : List (Nat × Nat) :=
  ((List.range 66).filter fun x => x != c.parkCol k).flatMap fun x =>
    (List.range 64).flatMap fun i => c.cellPowers k t x i (stagePort (c.calCol k) (c.parkCol k) x)

/-- R229, R235: the cells of the columns to stage, under pre-compensation as the Dale's last reload took it (R237). -/
def Chip.stageCodes (c : Chip) (k : Nat) : List (Nat × Nat) × Gen :=
  let g := c.gen (.requantDale k)
  match (c.dale k).tile with
  | none => ([], g)
  | some t =>
    let cols := (stageColumns (c.calCol k) (c.parkCol k)).map fun x => x.1
    c.cellsAt k g ((c.precomp k (c.xtOn k) none (c.stagePowers k t)).filter fun x => cols.contains (x.1 / 2 % 66))

/-- Step 6: the columns are staged, and the column strobe is due. Where the cycle wraps, columns besides the one
calibrated come to serve other receivers, and their phase entries are referred to these first (R278). -/
def Chip.stageStep (c : Chip) (k : Nat) : Chip :=
  let cal := c.calCol k
  let park := c.parkCol k
  let new := nextCal cal park
  let moved := ((List.range 66).map fun x => (x, portOf new park x)).filter fun x =>
    x.1 != cal && x.2 != 64 && portOf cal park x.1 != x.2
  let c := c.referCols k moved
  let s := c.stageCodes k
  let c := c.setGen (.requantDale k) s.2
  c.setDale k { c.dale k with rot := { (c.dale k).rot with next := .strobe, codes := s.1 } }

/-- Steps 2 to 5 and 11: the column in calibration is measured, and its column stages follow. -/
def Chip.measureStep (c : Chip) (k : Nat) (m : StepMeas) : Chip :=
  let v := k / 12
  let d := k % 12
  let col := c.calCol k
  let j := portOf (nextCal col (c.parkCol k)) (c.parkCol k) col
  let r := (List.range 66).foldl (fun (r : Nat × Chip) row =>
    let q := r.2.commitCell k j row (m.repA.getD row ⟨(0, 0), (0, 0), (0, 0)⟩) (m.repB.getD row ⟨(0, 0), (0, 0), (0, 0)⟩)
    (if q.1 then r.1 else r.1 + 1, q.2)) (0, c)
  let bad := r.1
  let u0 := r.2.selectUnits v (1920 + 132 * d + 2 * col) (m.units.getD 0 [])
  let u1 := u0.2.selectUnits v (1920 + 132 * d + 2 * col + 1) (m.units.getD 1 [])
  let c := if bad = 0 then u1.2 else u1.2.ev .calEvDisagree [v]
  let run := if bad = 0 then 0 else min 255 (c.f Fld.calColstat_run [v, d, col] + 1)
  let result := if bad ≠ 0 then Status.calDisagree
    else if u0.1 ∧ u1.1 then Status.ok else Status.calImplausible
  let c := c.put { name := .calColstat, idx := [v, d, col] } (BitVec.ofNat 64 (run * 2 ^ 24 + bad * 2 ^ 16 + result))
  let c := c.setDale k { c.dale k with rot := { (c.dale k).rot with bad := bad != 0, ovr := m.ovr } }
  c.stageStep k

/-- A difference of angles in 1/65,536 of a turn, the short way round. -/
def turnDiff (a b : Int) : Int := (a - b + 32768) % 65536 - 32768

/-- Two angles agree within ph_tol (0.1 °). -/
def phasesAgree (phTol : Nat) (a b : Int) : Bool := decide ((turnDiff a b).natAbs * 3600 ≤ phTol * 65536)

/-- R284, R285: the receiver whose column has been strobed against the probe receiver. Where the halves agree its phase
offset, gain code and quadrature are taken, or the spare slice replaces the one at fault; with the spare in use already
the receiver keeps its trims. The quadrature errors agree within amp_tol (log entry 17). -/
def Chip.compareReceiver (c : Chip) (k j : Nat) (m : StepMeas) : Chip :=
  let v := k / 12
  let d := k % 12
  let a := m.rxA
  let b := m.rxB
  let near (x y : Int) : Bool := decide ((x - y).natAbs * 2000 ≤ c.f Fld.calCfg_ampTol [v] * 65536)
  let agree := near a.gain b.gain && near a.quad b.quad && phasesAgree (c.f Fld.calCfg_phTol [v]) a.phase b.phase
  let result (c : Chip) (st : Nat) : Chip := c.setF Fld.calColstat_result [v, d, c.calCol k] st
  let complex := c.f Fld.daleState_wmode [v, d] != 0
  let fl := if complex then Fld.calRx_gainC else Fld.calRx_gainR
  let gain := Config.rxGainCode (c.f fl [v, d, j]) (a.gain + b.gain)
  let fits := decide (0 ≤ gain ∧ gain ≤ 4095)
  if ¬ agree then result (c.ev .calEvDisagree [v]) Status.calDisagree
  else if ¬ fits ∧ c.flag Fld.calRx_spareIn [v, d, j] then
    result (c.ev .calEvImplaus [v]) Status.calImplausible
  else
    let p := c.calRound v (2 * a.phase + turnDiff b.phase a.phase) 128
    let c := p.2.setF Fld.calRx_phase [v, d, j] (fieldOf 10 p.1)
    let quad := Config.rxQuad (c.f Fld.calRx_quad [v, d, j]) (a.quad + b.quad) % 4096
    let word := setBits (c.get { name := .calRx, idx := [v, d, j] }) 39 28 quad
    let add (c : Chip) (w : Word) (slice : Bool) : Chip :=
      let dl := c.dale k
      c.setDale k { dl with subst := dl.subst.filter (fun x => x.j != j) ++ [{ j := j, word := w, slice := slice, since := c.gclk }] }
    if fits then add c (setBits word fl.hi fl.lo gain.toNat) false
    else
      -- the slice at fault, I or Q, is for the sequencer to find: a free value
      let f := (result (c.ev .calEvImplaus [v]) Status.calImplausible).takeFree
      add f.2 (setBits (setBits word 63 63 1) 62 62 (f.1.toNat % 2)) true

/-- R288: the end of a rotation cycle. -/
def Chip.cycleEnd (c : Chip) (k : Nat) (m : StepMeas) : Chip :=
  let v := k / 12
  let n := 1137 + k % 12
  if ¬ phasesAgree (c.f Fld.calCfg_phTol [v]) m.loA m.loB then c.ev .calEvDisagree [v]
  else if (c.loopWritten v n).kind = 0 then c
  else
    let t := Config.loTarget (c.loopWritten v n).target (m.loA + m.loB)
    let c := c.setF { name := .guyLoop, hi := 23, lo := 0, w := 4 } [v, n] (fieldOf 24 t)
    c.setLoop v n { c.loop v n with fresh := true }

/-- R228, R231: the cells of a column that is parked carry no code. -/
def Chip.emptyColumn (c : Chip) (k col : Nat) : Chip :=
  let dl := c.dale k
  let out (t : Tab Nat Nat) : Tab Nat Nat := t.filter fun x => x.1 / 2 % 66 != col
  c.setDale k { dl with live := out dl.live, stage := out dl.stage }

/-- R280: a written park_col takes effect: phase entries of the columns whose port changes are referred to their
new receivers, and the tile being staged, or else the resident one, is staged again for the next strobe. -/
def Chip.applyPark (c : Chip) (k park : Nat) : Chip :=
  let v := k / 12
  let d := k % 12
  let cal := c.calCol k
  let old := c.parkCol k
  let newCal := if cal = park then nextCal cal park else cal
  let moved := ((List.range 66).map fun x => (x, portOf newCal park x)).filter fun x =>
    x.2 != 64 && portOf cal old x.1 != x.2
  let c := c.referCols k moved
  let c := (c.setF Fld.daleColmap_parkCol [v, d] park).setF Fld.daleColmap_calCol [v, d] newCal
  let c := c.setDale k { c.dale k with rot := { (c.dale k).rot with park := none } }
  let c := c.emptyColumn k park
  match (c.dale k).staging, (c.dale k).tile with
  | some t, _ => c.stageTile k t
  | none, some t => c.stageTile k t
  | none, none => c

/-- Steps 9 and 10: the comparison, and the swap at a batch boundary (R117, R280, R298). -/
def Chip.compareStep (c : Chip) (k : Nat) (m : StepMeas) : Chip :=
  let v := k / 12
  let d := k % 12
  let cal := c.calCol k
  let park := c.parkCol k
  let new := nextCal cal park
  let c := c.compareReceiver k (portOf new park cal) m
  let c := if (c.dale k).rot.bad then c
    else (c.count Fld.calDaleCount_count [v, d]).put { name := .calDaleTime, idx := [v, d] } c.stamp
  let c := c.setF Fld.daleColmap_calCol [v, d] new
  let c := c.setDale k { c.dale k with rot := { (c.dale k).rot with next := .measure, codes := [] } }
  let c := if new < cal then c.cycleEnd k m else c
  match (c.dale k).rot.park with
  | some p => c.applyPark k p
  | none => c

/-- R281, R287: a step of the rotation goes on from where it stands. -/
def Chip.rotationStep (c : Chip) (k : Nat) (m : StepMeas) : Chip :=
  let v := k / 12
  if c.device ≠ .service ∨ (c.dale k).drained ∨ ¬ c.flag Fld.calCfg_rotEn [v] then c
  else match (c.dale k).rot.next with
    | .measure =>
      if c.rotationHeld k then c.setValeCal v { c.valeCal v with held := true }
      else match c.spend (.cal v) 0 1 with
        | none => (c.wait (.cal v) 0 1 false).setValeCal v { c.valeCal v with held := true }
        | some c => (c.measureStep k m).setValeCal v { c.valeCal v with held := false }
    | .stage => c.stageStep k
    | .strobe => c
    | .compare => if c.atBoundary k then c.compareStep k m else c

/-- COLUMN_STROBE (R229): at a batch boundary the pairs of the staged columns exchange their roles. -/
def Chip.columnStrobe (c : Chip) (k : Nat) : Chip :=
  let dl := c.dale k
  if dl.rot.next = .strobe ∧ c.atBoundary k ∧ dl.staging.isNone then
    let live := dl.rot.codes.foldl (fun l x => Tab.set l x.1 x.2) dl.live
    let stage := dl.rot.codes.foldl (fun l x => Tab.set l x.1 (Tab.get dl.live x.1 0)) dl.stage
    (c.setDale k { dl with live := live, stage := stage, rot := { dl.rot with next := .compare, codes := [] } }).count
      Fld.drvDaleState_colStrobes [k / 12, k % 12]
  else c

/-- PARK_COL_WRITE (R117, R280): the write takes effect at the next rotation step. -/
def Chip.wParkCol (c : Chip) (k : Nat) (x : Word) : Nat × Chip :=
  let p := bitsOf x.toNat 14 8
  if 65 < p ∨ p = c.calCol k then (Status.badParam, c)
  else (Status.ok, c.setDale k { c.dale k with rot := { (c.dale k).rot with park := if p = c.parkCol k then none else some p } })

end Sys2Proof.Machine
end

