-- ==== Sys2Proof/Machine/Convert.lean ====
section
/-!
DEFINITION. Sys2Proof/Machine/Convert.lean: the events of the monitor ADCs (R199 to R209) and the CONV
commands (R421).
-/

namespace Sys2Proof.Machine

/-- Vale and logical monitor ADC exist (R195). -/
def adcOk (v l : Nat) : Bool := decide (v < 12 ∧ l < 71)

/-- TRIGGER_TICK (R203, R204): a trigger ticks at the counts its setting names; a disabled one never. What has been
written since the last tick is in force from now on. -/
def Chip.triggerTick (c : Chip) (v k : Nat) : Chip :=
  let x := c.trigWord v k
  if c.flag Fld.convTrig_en [v, k] ∧ c.gclk % bitsOf x 10 0 = bitsOf x 26 16 then
    (List.range 71).foldl (fun c l => c.tickAdc v k l)
      ({ c with trigOld := c.trigOld.filter fun p => p.1 != (v, k) } : Chip)
  else c

def execTriggerTick (v k : Nat) (s : State) : Outcome :=
  onUnits (decide (v < 12 ∧ 1 ≤ k ∧ k < 8)) s fun c => c.triggerTick v k

/-- ENTRY_START (R199, R200). -/
def execEntryStart (v l : Nat) (s : State) : Outcome :=
  onUnits (adcOk v l) s fun c => c.entryStart v l

/-- ENTRY_OUTPUT (R202): `samples` are the kept inputs in LSB, `fired` the places at which the comparator fires though the
converter reads within its range (R189). -/
def execEntryOutput (v l : Nat) (samples : List Int) (fired : List Nat) (s : State) : Outcome :=
  onUnits (adcOk v l) s fun c => c.entryOutput v l (firedSamples fired samples)

/-- INJECTION_RUN (R207): an abandoned entry had taken `taken` conversions, its discards among them unless a trigger
began it (R203). -/
def execInjectionRun (v l taken : Nat) (s : State) : Outcome :=
  onUnits (adcOk v l) s fun c => c.injectionRun v l taken

/-- CAL_CONV_START (R208): `bound` says that 16 conversion periods have passed. -/
def execCalConvStart (v l taken : Nat) (bound : Bool) (s : State) : Outcome :=
  onUnits (adcOk v l) s fun c => c.calConvStart v l taken bound

/-- INJECTED_OUTPUT (R206): a command gets its final reply with the word of CONV_INJ_ACC, a loop the output. -/
def Chip.injectedOutput (c : Chip) (v l : Nat) (xs : List Int) : Chip :=
  match c.injectedValue v l xs with
  | none => c
  | some (i, c) => match i.who with
    | .cmd m => c.answer 0x0701 m Status.ok 0 [c.get { name := .convInjAcc, idx := [v, l] }]
    | .loop n => c.setLoop v n { c.loop v n with delivered := some (c.sf Fld.convInjAcc_value [v, l]) }
    | .host => c

def execInjectedOutput (v l : Nat) (samples : List Int) (fired : List Nat) (s : State) : Outcome :=
  onUnits (adcOk v l) s fun c => c.injectedOutput v l (firedSamples fired samples)

/-! ### Commands -/

/-- CONV_INJECT (R206, R421). -/
def Chip.mpConvInject (c : Chip) (m : Cmd) : Chip :=
  let v := bitsOf m.p 3 0
  let l := bitsOf m.p 14 8
  if m.stray 0x7F0F ∨ ¬ adcOk v l ∨ injRefused (m.word 1) then c.finish 0x0701 m Status.badParam
  else match c.inject v l { req := m.words.headD 0, who := .cmd m } with
    | none => c.finish 0x0701 m Status.queueFull
    | some c => c.accept 0x0701 m

def execConvInject (m : Cmd) (s : State) : Outcome :=
  onHost m s fun c => c.mpReceive 0x0701 m [] fun c => c.mpConvInject m

/-- CONV_TABLE: refused whole if any entry breaks R198. -/
def Chip.mpConvTable (c : Chip) (m : Cmd) : Chip :=
  let v := bitsOf m.p 3 0
  let l := bitsOf m.p 14 8
  let first := bitsOf m.p 21 16
  let n := bitsOf m.p 29 24 + 1
  if m.stray 0x3F3F7F0F ∨ ¬ adcOk v l ∨ m.words.length ≠ n ∨ 64 < first + n ∨
      m.words.any (fun x => seqRefused x.toNat) then c.finish 0x0702 m Status.badParam
  else
    let c := (m.words.mapIdx fun i x => (i, x)).foldl (fun c p => (c.wConvSeq v l (first + p.1) p.2).2) c
    c.finish 0x0702 m Status.ok

def execConvTable (m : Cmd) (s : State) : Outcome :=
  onHost m s fun c => c.mpReceive 0x0702 m [] fun c => c.mpConvTable m

end Sys2Proof.Machine
end

