-- ==== Sys2Proof/Machine/Calib.lean ====
section
/-!
DEFINITION. Sys2Proof/Machine/Calib.lean: the commands and events of file 09 of spec/: Dale rotation, selector and
monitor ADC calibration (R281, R289 to R292), CAL_RUN (R421), trim images (R295, R296), the first full pass (R294).
-/

namespace Sys2Proof.Machine

def execRotationStep (v d : Nat) (m : StepMeas) (s : State) : Outcome :=
  onUnits (daleOk v d) s fun c => c.rotationStep (12 * v + d) m

def execColumnStrobe (v d : Nat) (s : State) : Outcome :=
  onUnits (daleOk v d) s fun c => c.columnStrobe (12 * v + d)

def execParkColWrite (w : Writer) (v d : Nat) (x : Word) (s : State) : Outcome :=
  onReg w { name := .daleColmap, idx := [v, d] } x s fun c => c.wParkCol (12 * v + d) x

/-! ### Selectors (R289, R290) -/

/-- A bank that has been dark for 1 ms claims port 12 and goes to the calibration line. -/
def Chip.selBegin (c : Chip) (v b : Nat) : Chip :=
  let bk := c.bank v b
  if c.device ≠ .service ∨ (c.dale (12 * v)).drained ∨ ¬ c.flag Fld.calCfg_selEn [v] ∨
      c.f Fld.calState_selBank [v] ≠ 0x1F ∨ c.f Fld.valeBank_state [v, b] ≠ 0 ∨ bk.carries.isSome then c
  else match c.spend (.cal v) 0 1 with
    | none => c.wait (.cal v) 0 1 false
    | some c =>
      let c := (List.range 16).foldl (fun c x =>
        if x ≠ b ∧ c.f Fld.valeBank_port [v, x] = 12 ∧ 2 ≤ c.f Fld.valeBank_state [v, x] then c.park v x else c) c
      let c := c.setBank v b { c.bank v b with calRun := true }
      let c := (c.setF Fld.calState_selBank [v] b).setF Fld.valeBank_port [v, b] 12
      (c.colourChange v b ((28 - b) % 16)).syncGood v 0

/-- The two repeats have placed the peak at ratios `r1`, `r2` with powers `p1`, `p2` in 2^-16 of full scale. -/
def Chip.selEnd (c : Chip) (v b r1 p1 r2 p2 : Nat) : Chip :=
  let c := (c.abandonSel v b).park v b
  let agree := decide (((r1 : Int) - r2).natAbs ≤ 1) &&
    decide (((p1 : Int) - p2).natAbs * 2000 ≤ c.f Fld.calCfg_ampTol [v] * 65536)
  if ¬ agree then c.ev .calEvDisagree [v]
  else
    let r := c.calRound v ((r1 + r2 : Nat) : Int) 2
    let c := r.2.setBank v b { r.2.bank v b with newRatio := some (min 1023 r.1.toNat) }
    (c.count Fld.calSelCount_count [v, b]).put { name := .calSelTime, idx := [v, b] } c.stamp

/-- SELECTOR_CAL (R289): a bank's calibration begins, or the one that runs ends with its measurements. -/
def Chip.selectorCal (c : Chip) (v b r1 p1 r2 p2 : Nat) : Chip :=
  if (c.bank v b).calRun then c.selEnd v b r1 p1 r2 p2 else c.selBegin v b

def execSelectorCal (v b r1 p1 r2 p2 : Nat) (s : State) : Outcome :=
  onUnits (decide (v < 12 ∧ b < 16)) s fun c => c.selectorCal v b r1 p1 r2 p2

/-! ### Monitor ADCs (R195, R208, R292) -/

/-- The request of a calibration conversion at a gain: delay 2, avg 8. -/
def calRequest (gain : Nat) : Word := BitVec.ofNat 64 (gain * 64 + 2 * 256 + 8 * 4096)

/-- ADC_ROTATION_STEP: cal_adc moves by one, the logical ADC that changes place moves at the end of what it runs,
and the calibration of the physical ADC left free begins. -/
def Chip.adcStep (c : Chip) (v : Nat) : Chip :=
  let vc := c.valeCal v
  if c.device ≠ .service ∨ (c.dale (12 * v)).drained ∨ ¬ c.flag Fld.calCfg_adcEn [v] ∨
      c.flag Fld.calState_adcFault [v] ∨ vc.adc.isSome then c
  else match c.spend (.cal v) 0 1 with
    | none => c.wait (.cal v) 0 1 false
    | some c =>
      let p := c.f Fld.convRot_calAdc [v]
      let down := c.flag Fld.convRot_dir [v]
      let new := if down then p - 1 else p + 1
      let l := if down then p - 1 else p
      let c := c.setF Fld.convRot_calAdc [v] new
      let c := if new = 0 then c.setF Fld.convRot_dir [v] 0 else if new = 71 then c.setF Fld.convRot_dir [v] 1 else c
      let a := c.adc v l
      let busy : Bool := match a.run with
        | .idle => false
        | .trig _ => false
        | _ => true
      let c := (c.setAdc v l { a with moving := busy, cal := some (calRequest 0) }).showAdc v l
      c.setValeCal v { vc with adc := some { phys := new, logical := l } }

def execAdcRotationStep (v : Nat) (s : State) : Outcome := onUnits (decide (v < 12)) s fun c => c.adcStep v

/-- R291, R292: a zero and a reference reading in 1/16 LSB at a gain, taken with the trims held (R196): the new trims,
none where a limit is broken. `seen` says that trims have been accepted before. -/
def Chip.adcTrim (c : Chip) (v p g : Nat) (seen : Bool) (zero ref : Int) : Option (Int × Nat) × Chip :=
  let o := c.sf Fld.calMonTrim_offset [v, p, g]
  let old := c.f Fld.calMonTrim_gain [v, p, g]
  let span := ref - zero
  if span ≤ 0 ∨ old = 0 then (none, c)
  else
    let a := c.calRound v (zero * 16384) old
    let b := a.2.calRound v (old * Config.adcReference g) span.toNat
    let off := o + a.1
    let t := b.1
    (if -1024 ≤ off ∧ off ≤ 1024 ∧ (¬ seen ∨ (off - o).natAbs ≤ 128) ∧ 9 * 16384 ≤ 10 * t ∧ 10 * t ≤ 11 * 16384 ∧
        (¬ seen ∨ (t - old).natAbs * 100 ≤ old) then some (off, t.toNat)
      else none, b.2)

/-- The eight results of a physical ADC are judged (R291, R292, R298). -/
def Chip.judgeAdc (c : Chip) (v p : Nat) (xs : List Int) : Chip :=
  let vc := { c.valeCal v with adc := none }
  let seen := c.get { name := .calAdcTime, idx := [v, p] } != 0
  let r := (List.range 4).foldl (fun (r : List (Int × Nat) × Chip) g =>
    let t := r.2.adcTrim v p g seen (xs.getD (2 * g) 0) (xs.getD (2 * g + 1) 0)
    (r.1 ++ t.1.toList, t.2)) ([], c)
  let ts := r.1
  let c := r.2
  if ts.length = 4 then
    let c := (ts.mapIdx fun g t => (g, t)).foldl (fun (c : Chip) q =>
      c.put { name := .calMonTrim, idx := [v, p, q.1] } (BitVec.ofNat 64 (q.2.2 * 65536 + fieldOf 16 q.2.1))) c
    let c := c.setValeCal v { vc with fails := Tab.set vc.fails p 0 }
    (c.count Fld.calAdcCount_count [v, p]).put { name := .calAdcTime, idx := [v, p] } c.stamp
  else
    let n := Tab.get vc.fails p 0 + 1
    let c := (c.setValeCal v { vc with fails := Tab.set vc.fails p n }).ev .calEvImplaus [v]
    if n = 3 then c.setF Fld.calState_adcFault [v] 1 else c

/-- CALIBRATION_CONVERSION_END (R189, R196, R209, R292): the output of the trimmed samples joins the results; waiting
injections run, then the next conversion is asked for, or the eight are judged. -/
def Chip.calConvEnd (c : Chip) (v l : Nat) (samples : List Int) : Chip :=
  match (c.adc v l).run with
  | .cal req =>
    let w := req.toNat
    let n := 2 ^ seqAvg w
    let p := match (c.valeCal v).adc with
      | some x => x.phys
      | none => c.physAdc v l
    let c := c.discsDone v l
    let s := c.trimMonitor v p (seqGain w) n samples
    let o := outputValue (s.2.gen (.monitor v)) (seqAvg w) s.1
    let c := (s.2.setGen (.monitor v) o.2).setRun v l .idle
    let c := c.injectionRun v l 0
    match (c.valeCal v).adc with
    | none => c
    | some x =>
      let x := { x with results := x.results ++ [o.1], ovr := x.ovr + overRange monitorLow monitorHigh n samples }
      if x.results.length < 8 then
        let c := c.setValeCal v { c.valeCal v with adc := some x }
        let c := c.setAdc v l { c.adc v l with cal := some (calRequest (seqGain w + (x.results.length + 1) % 2)) }
        c.showAdc v l
      else c.judgeAdc v x.phys x.results
  | _ => c

def execCalibrationConversionEnd (v l : Nat) (samples : List Int) (s : State) : Outcome :=
  onUnits (adcOk v l) s fun c => c.calConvEnd v l samples

/-! ### CAL_RUN (R276, R291, R421) -/

/-- The repeats of the kernels agree, coefficient by coefficient, within 2^-10. -/
def kernelsAgree (a b : List Int) : Bool := (List.zip a b).all fun p => decide ((p.1 - p.2).natAbs ≤ 64)

/-- The magnitudes of each kernel sum to less than 0.1, and nothing couples an element to itself (R235). -/
def kernelsFit (k : List Int) : Bool :=
  decide (((k.take 25).map Int.natAbs).sum * 10 < 65536) && decide ((((k.drop 25).take 25).map Int.natAbs).sum * 10 < 65536) &&
  k.getD 12 0 == 0

/-- Kernels written to DRV_XT. -/
def Chip.putKernels (c : Chip) (v d : Nat) (k : List Int) : Chip :=
  (List.range 50).foldl (fun c n => c.put { name := .drvXt, idx := [v, d, n] }
    (BitVec.ofNat 64 (fieldOf 16 (k.getD n 0)))) c

/-- Crosstalk kernels of a Dale: the 50 coefficients of repeat A, then of repeat B, in 2^-16. -/
def Chip.calKernels (c : Chip) (v d : Nat) (xs : List Int) : Nat × Chip :=
  let get (o : Nat) : List Int := (List.range 50).map fun n => xs.getD (o + n) 0
  if ¬ kernelsAgree (get 0) (get 50) then (Status.calDisagree, c.ev .calEvDisagree [v])
  else
    let m := (List.zip (get 0) (get 50)).foldl (fun (r : List Int × Chip) p =>
      let y := r.2.calRound v (p.1 + p.2) 2
      (r.1 ++ [y.1], y.2)) ([], c)
    if kernelsFit m.1 then (Status.ok, m.2.putKernels v d m.1)
    else (Status.calImplausible, m.2.ev .calEvImplaus [v])

/-- R243, R276: a spare direct DAC whose selection has been accepted stands in for the direct DAC found at fault, if
one is named (log entry 95). -/
def Chip.placeSpare (c : Chip) (v dac : Nat) (bad : Int) : Chip :=
  let x : Option Nat := if 0 ≤ bad ∧ bad < 1918 then some bad.toNat else none
  { c with spareFor := Tab.set c.spareFor (v, dac) x }

/-- The spare direct DACs of a Vale: 67 unit currents of 1,918, then of 1,919, then the direct DAC that each is to stand
in for, none where it is no number of one. -/
def Chip.calSpares (c : Chip) (v : Nat) (xs : List Int) : Nat × Chip :=
  let get (o : Nat) : List Nat := (List.range 67).map fun n => (xs.getD (o + n) 0).toNat
  let a := c.selectUnits v 1918 (get 0)
  let c := if a.1 then a.2.placeSpare v 1918 (xs.getD 134 (-1)) else a.2
  let b := c.selectUnits v 1919 (get 67)
  let c := if b.1 then b.2.placeSpare v 1919 (xs.getD 135 (-1)) else b.2
  (if a.1 ∧ b.1 then Status.ok else Status.calImplausible, c)

/-- A housekeeping trim: offset in 1/16 LSB, gain 2.14. -/
def hkFits (o g : Int) : Bool :=
  decide (o.natAbs ≤ 512) && decide (95 * 16384 ≤ 100 * g) && decide (100 * g ≤ 105 * 16384)

/-- The housekeeping converters: offset and gain of converter 0 at ×1, at ×4, of converter 1, and so on. -/
def Chip.calHk (c : Chip) (xs : List Int) : Nat × Chip :=
  let ps := (List.range 8).map fun n => (n, xs.getD (2 * n) 0, xs.getD (2 * n + 1) 0)
  let c := ps.foldl (fun (c : Chip) p =>
    if hkFits p.2.1 p.2.2 then
      { c with hkTrims := Tab.set c.hkTrims (p.1 / 2, p.1 % 2) (fieldOf 16 p.2.1, p.2.2.toNat), hkStamp := c.stamp }
    else c) c
  (if ps.all fun p => hkFits p.2.1 p.2.2 then Status.ok else Status.calImplausible, c)

/-- CAL_RUN: `results` as the three kinds above read them. -/
def Chip.mpCalRun (c : Chip) (m : Cmd) (results : List Int) : Chip :=
  let k := bitsOf m.p 7 0
  let d := bitsOf m.p 11 8
  let v := bitsOf m.p 19 16
  if m.stray 0xF0FFF ∨ 2 < k ∨ 11 < v ∨ 11 < d then c.finish 0x0503 m Status.badParam
  else
    let c := c.accept 0x0503 m
    let r := if k = 0 then c.calKernels v d results else if k = 1 then c.calSpares v results else c.calHk results
    r.2.finish 0x0503 m r.1

def execCalRun (m : Cmd) (results : List Int) (s : State) : Outcome :=
  onHost m s fun c => c.mpReceive 0x0503 m results fun c => c.mpCalRun m results

/-! ### Trim images (R295) -/

/-- Type, instance, payload length. -/
def trimSections : List (Nat × Nat × Nat) :=
  let dales := (List.range 12).flatMap fun v => (List.range 12).map fun d => 16 * v + d
  let vales := List.range 12
  dales.map (fun n => (1, n, 69696)) ++ dales.map (fun n => (2, n, 1040)) ++ dales.map (fun n => (3, n, 780)) ++
  vales.map (fun v => (4, v, 14016)) ++ dales.map (fun n => (5, n, 100)) ++ vales.map (fun v => (6, v, 1152)) ++
  vales.map (fun v => (7, v, 2048)) ++ vales.map (fun v => (8, v, 3184)) ++
  (List.range 36).map (fun n => (9, n, 217600)) ++ [(10, 0, 32)]

/-- The registers of a section in order, each with the bytes it takes in the payload. -/
def trimRegs (ty inst : Nat) : List (Reg × Nat) :=
  let v := inst / 16
  let d := inst % 16
  match ty with
  | 1 => (List.range 17424).map fun n => ({ name := .calMap, idx := [v, d, n / 2, n % 2] }, 4)
  | 2 => (List.range 65).map fun j => ({ name := .calRx, idx := [v, d, j] }, 16)
  | 3 => (List.range 195).map fun n => ({ name := .calCmpsel, idx := [v, d, n / 3, n % 3] }, 4)
  | 4 => (List.range 3504).map fun n => ({ name := .drvUnitsel, idx := [inst, n] }, 4)
  | 5 => (List.range 50).map fun n => ({ name := .drvXt, idx := [v, d, n] }, 2)
  | 6 => (List.range 288).map fun n => ({ name := .calMonTrim, idx := [inst, n / 4, n % 4] }, 4)
  | 7 => (List.range 256).map fun n => ({ name := .guyLine, idx := [inst, n / 16, n % 16] }, 8)
  | _ => []

/-- The loops of a section of type 8 with the field each value is: ratios, LO targets, setpoints. -/
def trimLoops : List (Nat × Fld) :=
  (List.range 16).map (fun b => (1040 + 2 * b, { name := .guyLoop, hi := 31, lo := 22, w := 2 })) ++
  (List.range 12).map (fun d => (1137 + d, { name := .guyLoop, hi := 23, lo := 0, w := 4 })) ++
  (List.range 768).map (fun n => (1150 + n, { name := .guyLoop, hi := 59, lo := 32, w := 2 }))

/-- The offsets of a physical site as a section of type 9 orders them: 33 ADCs by 8 ranges, 8 references. -/
def siteOffsKeys : List (Nat × Nat) :=
  ((List.range 33).flatMap fun a => (List.range 8).map fun k => (a, k)) ++ (List.range 8).map fun t => (33 + t, 0)

/-- The payload of a section. -/
def Chip.trimPayload (c : Chip) (ty inst : Nat) : List Byte :=
  match ty with
  | 8 => trimLoops.flatMap fun p =>
      let x := c.f p.2 [inst, p.1]
      leBytes 4 (if p.2.w = 4 then fieldOf 32 (signedOf 24 x) else x)
  | 9 => (List.range 800).flatMap fun s => siteOffsKeys.flatMap fun k =>
      leBytes 1 (fieldOf 8 (Tab.get (c.arr inst s).offs k 0))
  | 10 => (List.range 8).flatMap fun n =>
      let t := c.hkTrim (n / 2) (n % 2)
      leBytes 2 t.1 ++ leBytes 2 t.2
  | _ => (trimRegs ty inst).flatMap fun p => leBytes p.2 (c.get p.1).toNat

/-- The latest of some stamps. -/
def Chip.latestStamp (c : Chip) (rs : List Reg) : Nat := (rs.map fun r => (c.get r).toNat).foldl max 0

/-- The stamp of a section: of its Dale, or the latest of the units its Vale or Veld holds. -/
def Chip.trimStamp (c : Chip) (ty inst : Nat) : Nat :=
  let dales : List Reg := (List.range 12).map fun d => { name := .calDaleTime, idx := [inst, d] }
  let sels : List Reg := (List.range 16).map fun b => { name := .calSelTime, idx := [inst, b] }
  match ty with
  | 4 => c.latestStamp dales
  | 6 => c.latestStamp ((List.range 72).map fun p => { name := .calAdcTime, idx := [inst, p] })
  | 7 => c.latestStamp sels
  | 8 => c.latestStamp (dales ++ sels)
  | 9 => c.latestStamp ((List.range 800).map fun s => { name := .siteCalTime, idx := [inst, s] })
  | 10 => c.hkStamp.toNat
  | _ => c.latestStamp [{ name := .calDaleTime, idx := [inst / 16, inst % 16] }]

/-- The image. -/
def Chip.trimImage (c : Chip) : List Byte :=
  let body := trimSections.flatMap fun s =>
    leBytes 2 s.1 ++ leBytes 2 s.2.1 ++ leBytes 4 s.2.2 ++ leBytes 8 (c.trimStamp s.1 s.2.1) ++ c.trimPayload s.1 s.2.1
  ascii "GXCT" ++ leBytes 2 1 ++ leBytes 2 trimSections.length ++ leBytes 8 Config.serial.toNat ++
    leBytes 8 c.stamp.toNat ++ leBytes 4 (64 + body.length) ++ leBytes 4 0 ++ Config.sha3 body ++ body

/-- The length of every image the device writes. -/
def trimLength : Nat := 64 + (trimSections.map fun s => 16 + s.2.2).sum

/-- CAL_EXPORT (R295). -/
def Chip.mpCalExport (c : Chip) (m : Cmd) : Chip :=
  if m.stray (2 ^ 48 - 1) ∨ m.word 1 < trimLength then c.finish 0x0501 m Status.badParam
  else if ¬ c.admits m.tent .w m.p trimLength then c.finish 0x0501 m Status.notPermitted
  else (c.store m.p c.trimImage).acceptFinish 0x0501 m Status.ok trimLength

def execCalExport (m : Cmd) (s : State) : Outcome :=
  onHost m s fun c => c.mpReceive 0x0501 m [] fun c => c.mpCalExport m

/-! ### Import (R296) -/

/-- A section of an image: type, instance, payload. -/
abbrev TrimSec := Nat × Nat × List Byte

/-- The sections of an image body, none where its lengths do not add up or a section is not one of R295. -/
def parseSecs : Nat → List Byte → Option (List TrimSec)
  | 0, bs => if bs.isEmpty then some [] else none
  | n + 1, bs =>
    let ty := leNat (bs.take 2)
    let inst := leNat ((bs.drop 2).take 2)
    let len := leNat ((bs.drop 4).take 4)
    if (trimSections.contains (ty, inst, len)) ∧ 16 + len ≤ bs.length then
      (parseSecs n (bs.drop (16 + len))).map fun t => (ty, inst, (bs.drop 16).take len) :: t
    else none

/-- The image's serial number and sections, where magic, version, length and hash are right. -/
def parseTrims (bs : List Byte) : Option (Nat × List TrimSec) :=
  let body := bs.drop 64
  if bs.take 4 = ascii "GXCT" ∧ leNat ((bs.drop 4).take 2) = 1 ∧ leNat ((bs.drop 24).take 4) = bs.length ∧
      leNat ((bs.drop 28).take 4) = 0 ∧ (bs.drop 32).take 32 = Config.sha3 body ∧ 64 ≤ bs.length then
    (parseSecs (leNat ((bs.drop 6).take 2)) body).map fun t => (leNat ((bs.drop 8).take 8), t)
  else none

/-- A payload cut into values of the given widths. -/
def cutBytes : List Nat → List Byte → List Nat
  | [], _ => []
  | n :: ns, bs => leNat (bs.take n) :: cutBytes ns (bs.drop n)

/-- Four excluded units or comparators are distinct and in range, with nothing reserved set. -/
def exFits (x : Nat) : Bool :=
  let e := [bitsOf x 6 0, bitsOf x 13 7, bitsOf x 20 14, bitsOf x 27 21]
  bitsOf x 31 28 == 0 && e.all (fun y => decide (y < 67)) && decide e.Nodup

/-- R291 and the field limits of the registers: a section may be applied. -/
def Chip.secFits (c : Chip) (s : TrimSec) : Bool :=
  let inst := s.2.1
  let xs (ws : List Nat) : List Nat := cutBytes ws s.2.2
  match s.1 with
  | 1 => (xs (List.replicate 17424 4)).zipIdx.all fun p =>
      bitsOf p.1 30 28 == 0 && (p.2 % 2 == 1 || !bitOf p.1 31)
  | 2 => (xs (List.replicate 65 16)).zipIdx.all fun p =>
      p.1 / 2 ^ 64 == 0 && bitsOf p.1 61 58 == 0 && bitsOf p.1 47 40 == 0 && bitsOf p.1 27 24 == 0 &&
      (p.2 != 64 || bitsOf p.1 57 48 == 0)
  | 3 => (xs (List.replicate 195 4)).all exFits
  | 4 => (xs (List.replicate 3504 4)).all exFits
  | 5 => kernelsFit ((xs (List.replicate 50 2)).map fun x => signedOf 16 x)
  | 6 => (xs (List.replicate 288 4)).all fun x =>
      decide ((signedOf 16 (bitsOf x 15 0)).natAbs ≤ 1024) && decide (9 * 16384 ≤ 10 * (x / 65536)) &&
      decide (10 * (x / 65536) ≤ 11 * 16384)
  | 7 => (xs (List.replicate 256 8)).all fun x =>
      bitsOf x 62 56 == 0 && decide (bitsOf x 27 0 ≤ powerMax) && decide (bitsOf x 55 28 ≤ powerMax)
  | 8 => (List.zip trimLoops (xs (List.replicate 796 4))).all fun p =>
      let e := c.loopWritten inst p.1.1
      if p.1.2.w = 4 then decide (-(2 ^ 23) ≤ signedOf 32 p.2 ∧ signedOf 32 p.2 < 2 ^ 23)
      else if p.1.2.lo = 22 then decide (p.2 < 1024)
      else decide (p.2 ≤ powerMax) && (e.kind == 0 || decide (e.pMin ≤ p.2 ∧ p.2 ≤ e.pMax))
  | 9 => s.2.2.all fun b => decide ((signedOf 8 b.toNat).natAbs ≤ 12)
  | _ => (List.range 8).all fun n =>
      let x := (xs (List.replicate 16 2))
      hkFits (signedOf 16 (x.getD (2 * n) 0)) (x.getD (2 * n + 1) 0)

/-- A section applied. -/
def Chip.applySec (c : Chip) (s : TrimSec) : Chip :=
  let inst := s.2.1
  match s.1 with
  | 8 =>
    (List.zip trimLoops (cutBytes (List.replicate 796 4) s.2.2)).foldl (fun c p =>
      let c := c.setF p.1.2 [inst, p.1.1] p.2
      c.setLoop inst p.1.1 { c.loop inst p.1.1 with fresh := true }) c
  | 9 =>
    (List.range 800).foldl (fun c s' =>
      let bs := (s.2.2.drop (272 * s')).take 272
      let a := c.arr inst s'
      c.setArr inst s' { a with offs := siteOffsKeys.zipIdx.map fun k =>
        (k.1, signedOf 8 (bs.getD k.2 0).toNat) }) c
  | 10 =>
    let x := cutBytes (List.replicate 16 2) s.2.2
    (List.range 8).foldl (fun c n =>
      { c with hkTrims := Tab.set c.hkTrims (n / 2, n % 2) (x.getD (2 * n) 0, x.getD (2 * n + 1) 0) }) c
  | ty =>
    let rs := trimRegs ty inst
    let c := (List.zip rs (cutBytes (rs.map fun r => r.2) s.2.2)).foldl (fun c p =>
      c.put p.1.1 (BitVec.ofNat 64 p.2)) c
    if ty = 7 then c.importLines inst else c

/-- Sections applied; then the maps among them are those of the receivers' offsets as they now are (R278, R296). -/
def Chip.applySecs (c : Chip) (ss : List TrimSec) : Chip :=
  let c := ss.foldl Chip.applySec c
  (ss.filter fun s => s.1 == 1).foldl (fun c s => c.mapImported (12 * (s.2.1 / 16) + s.2.1 % 16)) c

/-- The unit of a section is drained: its Vale, or its Veld. -/
def Chip.secDrained (c : Chip) (s : TrimSec) : Bool :=
  match s.1 with
  | 9 => (c.veld s.2.1).drained
  | 10 => false
  | 4 | 6 | 7 | 8 => c.valeDrained s.2.1
  | _ => c.valeDrained (s.2.1 / 16)

/-- R291: a section that breaks a limit is recorded at its Vale. -/
def Chip.secRefused (c : Chip) (s : TrimSec) : Chip :=
  match s.1 with
  | 9 | 10 => c
  | 4 | 6 | 7 | 8 => c.ev .calEvImplaus [s.2.1]
  | _ => c.ev .calEvImplaus [s.2.1 / 16]

/-- CAL_IMPORT: `bad` names the units whose spot check disagrees: Dales 0 to 143, 144 + v the monitor ADC of
Vale v. -/
def Chip.mpCalImport (c : Chip) (m : Cmd) (bad : List Nat) : Chip :=
  let op := 0x0502
  if m.stray (2 ^ 48 - 1) ∨ 2 ^ 48 ≤ m.word 1 then c.finish op m Status.badParam
  else if ¬ c.admits m.tent .r m.p (m.word 1) then c.finish op m Status.notPermitted
  else match parseTrims (c.bytes m.p (m.word 1)) with
    | none => c.finish op m Status.badParam
    | some (serial, secs) =>
      if serial ≠ Config.serial.toNat ∨ ¬ (c.device = .starting ∨ secs.all c.secDrained) then
        c.finish op m Status.notPermitted
      else
        let c := c.accept op m
        let good := secs.filter c.secFits
        let fits := good.length == secs.length
        let c := c.applySecs good
        let c := (secs.filter fun s => !c.secFits s).foldl Chip.secRefused c
        let st := if ¬ fits then Status.calImplausible else if bad.isEmpty then Status.ok else Status.calDisagree
        -- R514: an import that falls back to the first pass ends the wait for one
        let c : Chip := if c.device ≠ .starting then c
          else if st = Status.ok then { c with boot := { c.boot with imported := true } }
          else { c with boot := { c.boot with waitOver := true } }
        c.finish op m st

def execCalImport (m : Cmd) (bad : List Nat) (s : State) : Outcome :=
  onHost m s fun c => c.mpReceive 0x0502 m (bad.map fun n => (n : Int)) fun c => c.mpCalImport m bad

/-- IMPORT_WAIT_EXPIRE (R514). -/
def Chip.importWaitExpire (c : Chip) : Chip :=
  if c.device = .starting ∧ c.flag Fld.sysStart_importExpected then { c with boot := { c.boot with waitOver := true } }
  else c

def execImportWaitExpire (s : State) : Outcome := onChip s Chip.importWaitExpire

/-- R514: the first full pass may run: in STARTING with the link UP, once no import is awaited; a drained unit in
SERVICE, after an import that failed (R296). -/
def Chip.passRuns (c : Chip) : Bool :=
  c.device == .starting && c.loaded && c.f Fld.azlState_state == 2 && !c.calDone &&
  (!c.flag Fld.sysStart_importExpected || c.boot.waitOver)

/-- The Dale of a section of one Dale. -/
def secDale (s : TrimSec) : Option Nat :=
  match s.1 with
  | 1 | 2 | 3 | 5 => some (12 * (s.2.1 / 16) + s.2.1 % 16)
  | _ => none

/-- R283, R294: CAL_COLSTAT of a Dale after the cycles of the pass, which step over the parked column; each cycle in
which a column has disagreed is an event. -/
def Chip.passColumns (steps : List PassDale) (c : Chip) (k : Nat) : Chip :=
  let v := k / 12
  let d := k % 12
  ((List.range 66).filter fun x => x != c.parkCol k).foldl (fun (c : Chip) x =>
    let r : Reg := { name := .calColstat, idx := [v, d, x] }
    match (steps.getD k {}).cols.find? fun y => y.col == x with
    | none => c.put r (BitVec.ofNat 64 Status.ok)
    | some y =>
      let c := c.put r (BitVec.ofNat 64 (min y.run 255 * 2 ^ 24 + min y.cells 66 * 2 ^ 16 + Status.calDisagree))
      (List.range y.run).foldl (fun (c : Chip) _ => c.ev .calEvDisagree [v]) c) c

/-- R294: the Dales that the pass leaves with a unit at reset values show in CAL_STATE; `ran`, those it ran for. -/
def Chip.passFailed (c : Chip) (ran : Nat → Bool) (failed : List Nat) : Chip :=
  (List.range 12).foldl (fun c v =>
    let old := c.f Fld.calState_failed [v]
    c.setF Fld.calState_failed [v] (bitsFrom ((List.range 12).map fun d =>
      if ran (12 * v + d) then failed.contains (12 * v + d) else bitOf old d))) c

/-- FIRST_FULL_PASS (R291, R294, R298): `secs`, the trims the pass has measured, as sections of R295; `failed`, the Dales
left with a unit at reset values; `steps`, the cycles of each Dale. -/
def Chip.firstPass (c : Chip) (secs : List Byte) (n : Nat) (failed : List Nat) (steps : List PassDale) : Chip :=
  match parseSecs n secs with
  | none => c
  | some ss =>
    let starting := c.passRuns
    if ¬ (starting ∨ (c.device = .service ∧ ss.all c.secDrained)) then c
    else
      let dales := (List.range 144).filter fun k => ss.any fun s => secDale s == some k
      let ran (k : Nat) : Bool := starting || dales.contains k
      let bad := ss.filter fun s => !c.secFits s
      let c := bad.foldl Chip.secRefused (c.applySecs (ss.filter c.secFits))
      let rest := (List.range 144).filter fun k => ran k && failed.contains k && !bad.any fun s => secDale s == some k
      let c := rest.foldl (fun c k => c.ev .calEvImplaus [k / 12]) c
      let c := dales.foldl (Chip.passColumns steps) (c.passFailed ran failed)
      let c := (steps.zipIdx.filter fun p => p.1.good != 0 && decide (p.2 < 144) && ran p.2).foldl (fun (c : Chip) p =>
        (c.count Fld.calDaleCount_count [p.2 / 12, p.2 % 12] p.1.good).put
          { name := .calDaleTime, idx := [p.2 / 12, p.2 % 12] } c.stamp) c
      let c := (ss.filter fun s => s.1 == 6).foldl (fun (c : Chip) s => (List.range 72).foldl (fun (c : Chip) p =>
        (c.count Fld.calAdcCount_count [s.2.1, p]).put { name := .calAdcTime, idx := [s.2.1, p] } c.stamp) c) c
      let c : Chip := if ss.any fun s => s.1 == 10 then { c with hkStamp := c.stamp } else c
      if starting then { c with boot := { c.boot with passed := true } } else c

def execFirstFullPass (secs : List Byte) (n : Nat) (failed : List Nat) (steps : List PassDale) (s : State) : Outcome :=
  onChip s fun c => c.firstPass secs n failed steps

/-- CAL_STATE's phase: 0 off, 1 first pass, 2 rotating, 3 held, 4 drained. -/
def Chip.calPhase (c : Chip) (v : Nat) : Nat :=
  if c.valeDrained v then 4
  else match c.device with
    | .starting => if c.passRuns then 1 else 0
    | .service => if ¬ c.flag Fld.calCfg_rotEn [v] then 0 else if (c.valeCal v).held then 3 else 2
    | .hold => 3
    | _ => 0

end Sys2Proof.Machine
end

