-- ==== Sys2Proof/Machine/Fronthaul.lean ====
section
/-!
DEFINITION. Sys2Proof/Machine/Fronthaul.lean: the fronthaul ports (R370 to R378, R386 to R390): U-plane in and
out, C-plane from section records (R425), PTP, ESMC and one-way delay. Packet layouts are those of Ethernet,
eCPRI and O-RAN CUS-plane (PRESUMED, log entry 50).
-/

namespace Sys2Proof.Machine

/-! ### Bytes and bits, most significant first -/

/-- Field of `w` bits at bit `i` of a byte string. -/
def bitField (bs : List Byte) (i w : Nat) : Nat :=
  let lo := i / 8
  let hi := (i + w + 7) / 8
  beNat ((bs.drop lo).take (hi - lo)) / 2 ^ (8 * hi - i - w) % 2 ^ w

/-- Fields of `w` bits packed, padded with zeros to a byte. -/
def packBits (w : Nat) (xs : List Nat) : List Byte :=
  let n := w * xs.length
  let v := xs.foldl (fun a x => a * 2 ^ w + x % 2 ^ w) 0
  beBytes (ceilDiv n 8) (v * 2 ^ (8 * ceilDiv n 8 - n))

def byteAt (bs : List Byte) (k : Nat) : Nat := (bs.getD k 0).toNat

/-! ### Ethernet and eCPRI -/

/-- EtherType and payload of a frame, untagged or with one tag (R370). -/
def etherParts (bs : List Byte) : Option (Nat × List Byte) :=
  if bs.length < 14 ∨ 9216 < bs.length then none
  else
    let ty := beNat ((bs.drop 12).take 2)
    if ty = 0x8100 then
      if bs.length < 18 then none else some (beNat ((bs.drop 16).take 2), bs.drop 18)
    else some (ty, bs.drop 14)

/-- Message type and payload of an eCPRI message with revision 1 and the C bit clear (R370). -/
def ecpriParts (bs : List Byte) : Option (Nat × List Byte) :=
  let n := beNat ((bs.drop 2).take 2)
  if bs.length < 4 + n ∨ byteAt bs 0 / 16 ≠ 1 ∨ byteAt bs 0 % 2 = 1 then none
  else some (byteAt bs 1, (bs.drop 4).take n)

/-- A frame sent on an enabled port to its radio unit, tagged where `tci` is not 0 (R373, FH_PORT). -/
def Chip.sendEther (c : Chip) (port tci ty : Nat) (payload : List Byte) : Chip :=
  if c.flag Fld.fhPortMac_en [port] then
    let head := beBytes 6 (c.f Fld.fhPortPeer_mac [port]) ++ beBytes 6 (c.f Fld.fhPortMac_mac [port])
    let tag := if tci = 0 then [] else beBytes 2 0x8100 ++ beBytes 2 tci
    c.out (.ethernet port (head ++ tag ++ beBytes 2 ty ++ payload))
  else c

def ecpri (ty : Nat) (payload : List Byte) : List Byte :=
  beBytes 1 0x10 ++ beBytes 1 ty ++ beBytes 2 payload.length ++ payload

/-- R371: a frame is dropped. -/
def Chip.dropEther (c : Chip) (port : Nat) : Chip := (c.count Fld.fhPortStat_dropped [port]).ev .fhEvDrop

/-! ### U-plane in -/

/-- A received PRB: OFDM symbol, PRB, exponent, the 24 values, and whether it came uncompressed. -/
structure RxPrb where
  l    : Nat
  k    : Nat
  exp  : Int
  vals : List Int
  raw  : Bool
deriving DecidableEq, Repr

/-- R376: one PRB of a section: method and width, and its bytes. -/
def rxPrb (m w l k : Nat) (bs : List Byte) : RxPrb :=
  let body := if m = 0 then bs else bs.drop 1
  let e : Int := if m = 0 then 0 else (byteAt bs 0 % 16 : Nat)
  let vals := (List.range 24).map fun j => signedOf w (bitField body (w * j) w) * 2 ^ (16 - w)
  { l := l, k := k, exp := if m = 0 then 0 else e - (16 - w : Int), vals := vals, raw := m == 0 }

/-- Bytes of a PRB on the wire. -/
def prbBytes (m w : Nat) : Nat := if m = 0 then 48 else 1 + 3 * w

/-- The sections of a U-plane message; none where it lies outside R370. -/
def rxSections : Nat → Eaxc → Nat → List Byte → Option (List RxPrb)
  | 0, _, _, bs => if bs.isEmpty then some [] else none
  | fuel + 1, e, l, bs =>
    if bs.isEmpty then some []
    else if bs.length < 4 then none
    else
      let h := beNat (bs.take 4)
      let step := if bitOf h 19 then 2 else 1
      let l := if bitOf h 18 then l + 1 else l
      let start := bitsOf h 17 8
      let n := if bitsOf h 7 0 = 0 then ceilDiv (e.nPrb - start) step else bitsOf h 7 0
      let hdr := byteAt bs 4
      let m := if e.udhdr then hdr % 16 else e.mUl
      let w := if e.udhdr then (if hdr / 16 = 0 then 16 else hdr / 16) else e.wUl
      let body := bs.drop (if e.udhdr then 6 else 4)
      let size := prbBytes m w
      if 1 < m ∨ (m = 0 ∧ w ≠ 16) ∨ 14 ≤ l ∨ n = 0 ∨ e.nPrb ≤ start + step * (n - 1) ∨ body.length < n * size then none
      else
        let mine := (List.range n).map fun j => rxPrb m w l (start + step * j) ((body.drop (j * size)).take size)
        (rxSections fuel e l (body.drop (n * size))).map fun xs => mine ++ xs

/-- R375, R376: a PRB is written in its record, present last. -/
def Chip.writePrb (c : Chip) (e : Eaxc) (n : Nat) (p : RxPrb) : Chip :=
  let addr := e.prbAddr false n p.l p.k
  let bytes := p.vals.flatMap (fun x => leBytes 2 (fieldOf 16 x)) ++ leBytes 1 (fieldOf 8 p.exp) ++
    leBytes 1 (1 + 2 * p.raw.toNat) ++ leBytes 14 0
  c.store addr bytes

/-- Slots from the current one to the slot a radio header names, of the 256 frames around it. -/
def Chip.slotAhead (c : Chip) (frame sub slot : Nat) : Int :=
  let per := frameSlots c.radio.numerology
  let span := 256 * per
  let cur := c.f Fld.fhSfn_sfn % 256 * per + c.f Fld.fhSfn_slot
  let named := frame * per + sub * 2 ^ c.radio.numerology + slot
  let d := (named + 2 * span - cur) % span
  if span ≤ 2 * d then (d : Int) - span else d

/-- UPLANE_RECEIVE (R371, R372, R376, R377, R390): a frame arrives on a port, `after` ns after the end on air
of the OFDM symbol it carries. -/
def Chip.uplane (c : Chip) (port : Nat) (bytes : List Byte) (after : Int) : Chip :=
  if ¬ c.flag Fld.fhPortMac_en [port] then c
  else match etherParts bytes with
    | none => c.dropEther port
    | some (ty, body) =>
      if ty = 0x88F7 ∨ ty = 0x8809 then c
      else if ty ≠ 0xAEFE then c.dropEther port
      else match ecpriParts body with
        | none => c.dropEther port
        | some (mt, msg) =>
          if mt = 5 then c
          else
            let a := beNat (msg.take 2)
            let e := Eaxc.ofWords (c.eaxc (a % 4096))
            let h := beNat ((msg.drop 4).take 4)
            if mt ≠ 0 ∨ ¬ c.locked ∨ msg.length < 8 ∨ ¬ e.valid ∨ e.port ≠ port ∨ e.idHi ≠ a / 4096 ∨
                bitsOf h 31 28 ≠ 1 then c.dropEther port
            else match rxSections msg.length e (bitsOf h 5 0) (msg.drop 8) with
              | none => c.dropEther port
              | some prbs =>
                if (bitsOf c.fhWin 39 30 : Int) * 1000 < after then
                  (c.count Fld.fhPortStat_late [port]).ev .fhEvLate
                else
                  let n := ((c.radio.slots : Int) + c.slotAhead (bitsOf h 23 16) (bitsOf h 15 12) (bitsOf h 11 6)).toNat
                  prbs.foldl (fun c p => c.writePrb e n p) c

def execUplaneReceive (port : Nat) (bytes : List Byte) (after : Int) (s : State) : Outcome :=
  onUnits (decide (port < 8)) s fun c => c.uplane port bytes after

/-! ### CSection records -/

/-- The 32 bytes of a section record. -/
def recBytes (ws : List Word) : List Byte := ws.flatMap fun w => leBytes 8 w.toNat

/-- Fields of a section record (R386). -/
structure CSection where
  eaxc   : Nat
  down   : Bool
  stype  : Nat
  start  : Nat
  num    : Nat
  id     : Nat
  prb0   : Nat
  prbs   : Nat
  mask   : Nat
  beam   : Nat
  comp   : Nat
  frame  : Nat
  sub    : Nat
  slot   : Nat
  tOff   : Nat
  fstruct : Nat
  cpLen  : Nat
  fOff   : Nat
deriving DecidableEq, Repr

def CSection.ofWords (ws : List Word) : CSection :=
  let bs := recBytes ws
  let n (k len : Nat) : Nat := leNat ((bs.drop k).take len)
  { eaxc := n 0 2, down := bitOf (n 2 1) 0, stype := n 2 1 / 16, start := n 3 1 % 16, num := n 3 1 / 16,
    id := n 4 2 % 4096, prb0 := n 6 2 % 1024, prbs := n 8 2 % 1024, mask := n 10 2 % 4096,
    beam := n 12 2 % 32768, comp := n 14 1, frame := n 16 1, sub := n 17 1 % 16, slot := n 18 1 % 64,
    tOff := n 20 2, fstruct := n 22 1, cpLen := n 24 2, fOff := n 26 3 }

/-- R386: reserved fields are zero, the type is 1 or 3, and there is a symbol. -/
def sectionBad (ws : List Word) : Bool :=
  let bs := recBytes ws
  let b (k : Nat) : Nat := byteAt bs k
  let x := CSection.ofWords ws
  (x.stype != 1 && x.stype != 3) || x.num == 0 || x.num == 15 || b 2 / 2 % 8 != 0 || b 5 / 16 != 0 ||
  b 7 / 4 != 0 || b 9 / 4 != 0 || b 11 / 16 != 0 || b 13 / 128 != 0 || b 15 != 0 || b 17 / 16 != 0 ||
  b 18 / 64 != 0 || b 19 != 0 || b 23 != 0 || b 29 != 0 || b 30 != 0 || b 31 != 0

/-- R387: what a record is answered, `now` ns after the current slot's tick. -/
def Chip.sectionStatus (c : Chip) (t now : Nat) (ws : List Word) : Nat :=
  let x := CSection.ofWords ws
  let e := Eaxc.ofWords (c.eaxc (x.eaxc % 4096))
  let adv := 1000 * (if x.down then bitsOf c.fhWin 9 0 else bitsOf c.fhWin 19 10)
  if sectionBad ws then Status.badParam
  else if ¬ e.valid ∨ e.idHi ≠ x.eaxc / 4096 ∨ e.tent ≠ t then Status.notPermitted
  else if ¬ c.locked ∨
      c.slotAhead x.frame x.sub x.slot * slotNs c.radio.numerology - (now : Int) - adv < 0 then Status.late
  else Status.ok

/-- RADIO_SECTIONS (R425): the records in order of position. -/
def Chip.hwSections (c : Chip) (m : Cmd) (now : Nat) : Chip :=
  let n := bitsOf m.p 15 0
  if m.stray 0xFFFF ∨ n = 0 ∨ 256 < n ∨ m.words.length ≠ 4 * n then c.finish 0x0B01 m Status.badParam
  else
    let recs := (List.range n).map fun k => (m.words.drop (4 * k)).take 4
    let sts := recs.map fun r => c.sectionStatus m.tent now r
    let take := (recs.zip sts).filter fun p => p.2 == Status.ok
    let slotOf (r : List Word) : Nat :=
      let x := CSection.ofWords r
      ((c.radio.slots : Int) + c.slotAhead x.frame x.sub x.slot).toNat
    let radio : Radio := { c.radio with recs := c.radio.recs ++ take.map fun p => (slotOf p.1, p.1) }
    let c : Chip := { c with radio := radio }
    let c := (sts.filter fun st => st == Status.late).foldl (fun c _ => c.ev .fhEvLate) c
    match sts.find? fun st => st != Status.ok with
    | none => c.finish 0x0B01 m Status.ok
    | some st =>
      let first := sts.findIdx fun st => st != Status.ok
      c.finish 0x0B01 m st (first + (n - take.length) * 65536)

def execRadioSections (m : Cmd) (now : Nat) (s : State) : Outcome :=
  onHost m s fun c => c.hwReceive 0x0B01 m fun c => c.hwSections m now

/-- Accepted records of a slot and direction. -/
def Chip.sectionsOf (c : Chip) (slot : Nat) (down : Bool) : List CSection :=
  (c.radio.recs.filter fun p => p.1 == slot).map (fun p => CSection.ofWords p.2)
    |>.filter fun x => x.down == down

/-! ### C-plane out -/

/-- The sections that share one C-plane message: all fields of its headers agree. -/
def sameMessage (x y : CSection) : Bool :=
  x.eaxc == y.eaxc && x.stype == y.stype && x.start == y.start && x.frame == y.frame && x.sub == y.sub &&
  x.slot == y.slot && x.comp == y.comp &&
  (x.stype == 1 || (x.tOff == y.tOff && x.fstruct == y.fstruct && x.cpLen == y.cpLen))

def groupSections : List CSection → List (List CSection) → List (List CSection)
  | [], gs => gs
  | x :: xs, gs =>
    let i := gs.findIdx fun g => match g with
      | y :: _ => sameMessage x y && g.length < 255
      | [] => false
    groupSections xs (if i < gs.length then gs.modify i (fun g => g ++ [x]) else gs ++ [[x]])

/-- Bits of one C-plane section. -/
def CSection.toBytes (x : CSection) : List Byte :=
  let prbs := if 255 < x.prbs then 0 else x.prbs
  beBytes 8 (x.id * 2 ^ 52 + x.prb0 * 2 ^ 40 + prbs * 2 ^ 32 + x.mask * 2 ^ 20 + x.num * 2 ^ 16 + x.beam) ++
    (if x.stype = 3 then beBytes 3 x.fOff ++ beBytes 1 0 else [])

/-- The radio application header up to the symbol. -/
def radioHeader (down : Bool) (frame sub slot sym : Nat) : List Byte :=
  beBytes 1 (down.toNat * 128 + 16) ++ beBytes 1 frame ++ beBytes 2 (sub * 4096 + slot * 64 + sym)

/-- A C-plane message of sections that share one. -/
def Chip.sendCplane (c : Chip) (g : List CSection) : Chip :=
  match g with
  | [] => c
  | x :: _ =>
    let e := Eaxc.ofWords (c.eaxc (x.eaxc % 4096))
    let seq := Tab.get c.radio.seqC x.eaxc 0
    let head := radioHeader x.down x.frame x.sub x.slot x.start ++ beBytes 1 g.length ++ beBytes 1 x.stype ++
      (if x.stype = 3 then beBytes 2 x.tOff ++ beBytes 1 x.fstruct ++ beBytes 2 x.cpLen ++ beBytes 1 x.comp
       else beBytes 1 x.comp ++ beBytes 1 0)
    let radio : Radio := { c.radio with seqC := Tab.set c.radio.seqC x.eaxc ((seq + 1) % 256) }
    let c : Chip := { c with radio := radio }
    c.sendEther e.port e.tci 0xAEFE
      (ecpri 2 (beBytes 2 x.eaxc ++ beBytes 1 seq ++ beBytes 1 0x80 ++ head ++ g.flatMap CSection.toBytes))

/-- CPLANE_SEND (R387, R390): cp_adv before a slot's tick. Uplink records are then done with. -/
def Chip.cplane (c : Chip) (slot : Nat) (down : Bool) : Chip :=
  if ¬ c.locked then c
  else
    let c := (groupSections (c.sectionsOf slot down) []).foldl Chip.sendCplane c
    if down then c
    else
      let keep := c.radio.recs.filter fun p => !(p.1 == slot && !(CSection.ofWords p.2).down)
      { c with radio := { c.radio with recs := keep } }

def execCplaneSend (slot : Nat) (down : Bool) (s : State) : Outcome := onChip s fun c => c.cplane slot down

/-! ### U-plane out -/

/-- R378: the exponent of a PRB, none where 15 does not do: `v` is the largest |int16|, `x` its exponent. -/
def bfpExp (w v : Nat) (x : Int) : Option Nat :=
  (List.range 16).find? fun e =>
    decide (v * 2 ^ (x - e).toNat ≤ (2 ^ (w - 1) - 1) * 2 ^ ((e : Int) - x).toNat)

/-- One value × 2^x / 2^e rounded stochastically (R93). -/
def scaledRound (x : Int) (e : Nat) (g : Gen) (v : Int) : Int × Gen :=
  g.roundDiv (v * 2 ^ (x - e).toNat) (2 ^ ((e : Int) - x).toNat)

/-- R378, R388: one PRB record read, compressed and cleared: its bytes. -/
def Chip.sendPrb (c : Chip) (m w addr : Nat) : List Byte × Chip :=
  let bs := c.bytes addr 50
  if ¬ bitOf (byteAt bs 49) 0 then
    (List.replicate (prbBytes m w) 0, c.ev .fhEvUnderrun)
  else
    let c := c.clearPresent addr
    let x := signedOf 8 (byteAt bs 48)
    let vals := (List.range 24).map fun j => signedOf 16 (leNat ((bs.drop (2 * j)).take 2))
    let e := if m = 0 then some 0 else bfpExp w ((vals.map Int.natAbs).foldl max 0) x
    let lim : Int := 2 ^ (w - 1) - 1
    let r := Gen.mapM (scaledRound x (e.getD 15)) (c.gen .basecamp) vals
    let sent := r.1.map (clampInt (if m = 0 then -32768 else -lim) lim)
    let c := c.setGen .basecamp r.2
    let c := if e.isNone then c.ev .fhEvUnderrun else c
    ((if m = 0 then [] else beBytes 1 (e.getD 15)) ++ packBits w (sent.map (fieldOf w)), c)

/-- PRBs that fit a frame of 9,216 bytes. -/
def prbsPerFrame (m w : Nat) : Nat := min 255 ((9216 - 40) / prbBytes m w)

/-- The U-plane of one OFDM symbol of a section, in as many frames as it needs. -/
def Chip.sendSymbol : Nat → Chip → CSection → Eaxc → Nat → Nat → Nat → Nat → Chip
  | 0, c, _, _, _, _, _, _ => c
  | fuel + 1, c, x, e, slot, l, k, left =>
    if left = 0 then c
    else
      let n := min left (prbsPerFrame e.mDl e.wDl)
      let r := (List.range n).foldl (fun (r : List Byte × Chip) j =>
        let p := r.2.sendPrb e.mDl e.wDl (e.prbAddr true slot l (k + j))
        (r.1 ++ p.1, p.2)) ([], c)
      let c := r.2
      let seq := Tab.get c.radio.seqU x.eaxc 0
      let radio : Radio := { c.radio with seqU := Tab.set c.radio.seqU x.eaxc ((seq + 1) % 256) }
      let c : Chip := { c with radio := radio }
      let hdr := if e.udhdr then beBytes 1 (e.wDl % 16 * 16 + e.mDl) ++ beBytes 1 0 else []
      let msg := beBytes 2 x.eaxc ++ beBytes 1 seq ++ beBytes 1 0x80 ++ radioHeader true x.frame x.sub x.slot l ++
        beBytes 4 (x.id * 2 ^ 20 + k * 2 ^ 8 + n) ++ hdr ++ r.1
      Chip.sendSymbol fuel (c.sendEther e.port e.tci 0xAEFE (ecpri 0 msg)) x e slot l (k + n) (left - n)

/-- DL_UPLANE_SEND (R388, R390): symbol `l` of a slot. A record is done with after its last symbol. -/
def Chip.dlUplane (c : Chip) (slot l : Nat) : Chip :=
  if ¬ c.locked then c
  else
    let c := (c.sectionsOf slot true).foldl (fun c x =>
      let e := Eaxc.ofWords (c.eaxc (x.eaxc % 4096))
      if x.start ≤ l ∧ l < x.start + x.num ∧ e.valid then
        let left := e.nPrb - x.prb0
        Chip.sendSymbol 1024 c x e slot l x.prb0 (if x.prbs = 0 then left else min x.prbs left)
      else c) c
    let keep := c.radio.recs.filter fun p =>
      let x := CSection.ofWords p.2
      !(p.1 == slot && x.down && decide (x.start + x.num ≤ l + 1))
    { c with radio := { c.radio with recs := keep } }

def execDlUplaneSend (slot l : Nat) (s : State) : Outcome :=
  onUnits (decide (l < 14)) s fun c => c.dlUplane slot l

/-! ### Time and delay messages -/

/-- A Delay_Req of the slave (R379). -/
def Chip.delayReq (c : Chip) (port : Nat) : Chip :=
  let mac := c.f Fld.fhPortMac_mac [port]
  let seq := c.radio.seqPtp
  let msg := beBytes 1 0x01 ++ beBytes 1 0x02 ++ beBytes 2 44 ++ beBytes 1 (c.f Fld.fhCfg_domain) ++ beBytes 1 0 ++
    beBytes 2 0 ++ beBytes 8 0 ++ beBytes 4 0 ++ beBytes 3 (mac / 2 ^ 24) ++ beBytes 2 0xFFFE ++
    beBytes 3 (mac % 2 ^ 24) ++ beBytes 2 1 ++ beBytes 2 seq ++ beBytes 1 1 ++ beBytes 1 0x7F ++ beBytes 10 0
  let c : Chip := { c with radio := { c.radio with seqPtp := (seq + 1) % 65536 } }
  if c.flag Fld.fhPortMac_en [port] then
    c.out (.ethernet port (beBytes 6 0x011B19000000 ++ beBytes 6 mac ++ beBytes 2 0x88F7 ++ msg))
  else c

/-- PTP_MESSAGE (R379): a PTP or ESMC frame on a port; `te` is the time error estimate after it. -/
def Chip.ptp (c : Chip) (port : Nat) (bytes : List Byte) (te : Int) : Chip :=
  if c.f Fld.fhCfg_tsrc ≠ 1 ∨ c.f Fld.fhCfg_ptpPort ≠ port ∨ ¬ c.flag Fld.fhPortMac_en [port] then c
  else match etherParts bytes with
    | none => c.dropEther port
    | some (ty, msg) =>
      if ty = 0x8809 then c.setF Fld.fhSync_ssm [] (byteAt msg 13 % 16)
      else if ty ≠ 0x88F7 then c
      else
        let kind := byteAt msg 0 % 16
        if byteAt msg 1 % 16 ≠ 2 ∨ byteAt msg 4 ≠ c.f Fld.fhCfg_domain then c
        else
          let c := if kind = 0 ∨ kind = 8 ∨ kind = 9 then
              c.setF Fld.fhSync_te [] (fieldOf 16 (clampInt (-32768) 32767 te))
            else c
          if kind = 0 then c.delayReq port else c

def execPtpMessage (port : Nat) (bytes : List Byte) (te : Int) (s : State) : Outcome :=
  onUnits (decide (port < 8)) s fun c => c.ptp port bytes te

/-- DELAY_MEASUREMENT (R370): the remote node of eCPRI one-way delay measurement; `ts` and `comp` are its
time stamp and compensation value. -/
def Chip.delayMeas (c : Chip) (port : Nat) (bytes : List Byte) (ts comp : Nat) : Chip :=
  if ¬ c.flag Fld.fhPortMac_en [port] then c
  else match etherParts bytes with
    | none => c.dropEther port
    | some (ty, body) =>
      match ecpriParts body with
      | none => c.dropEther port
      | some (mt, msg) =>
        if ty ≠ 0xAEFE ∨ mt ≠ 5 ∨ msg.length < 20 then c.dropEther port
        else
          let send (c : Chip) (act stamp cv : Nat) : Chip :=
            c.sendEther port 0 0xAEFE
              (ecpri 5 (msg.take 1 ++ beBytes 1 act ++ beBytes 10 stamp ++ beBytes 8 cv))
          match byteAt msg 1 with
          | 0 => send c 2 ts comp
          | 1 => send c 2 ts comp
          | 3 => send c 0 ts comp
          | 4 => send (send c 1 0 0) 5 ts comp
          | _ => c

def execDelayMeasurement (port : Nat) (bytes : List Byte) (ts comp : Nat) (s : State) : Outcome :=
  onUnits (decide (port < 8)) s fun c => c.delayMeas port bytes ts comp

end Sys2Proof.Machine
end

