-- ==== Sys2Proof/Machine/CairnOps.lean ====
section
/-!
DEFINITION. Sys2Proof/Machine/CairnOps.lean: the metering island (file 16 of spec/): the activity link, intervals and
records (R485 to R491), the clock (R492), events and seal (R493, R494), and what it publishes (R481, R497, R498).
-/

namespace Sys2Proof.Machine

/-! ### What is sealed -/

/-- The billing interval in minutes as delivered (R488). -/
def cairnMinutes : Nat := 15

/-- Energy of a unit of each class in µJ in units of 2^-16, the decimal values of R487 rounded to nearest (log
entry 57). -/
def cairnCoef : List Nat := [60293, 163840, 23593, 100270, 373555, 78643, 26214, 1310720]

/-- R486: base quantities of a unit into 65,536. -/
def cairnParts : List Nat := [16, 64, 1, 1, 1, 4096, 16, 65536]

/-! ### Events (R493) -/

def CairnEvt.bytes (e : CairnEvt) : List Byte :=
  leBytes 4 e.num ++ leBytes 8 e.time ++ leBytes 2 e.code ++ leBytes 2 0 ++ leBytes 8 e.before ++ leBytes 8 e.after

/-- The last `n` of a list. -/
def lastN {α : Type} (n : Nat) (l : List α) : List α := l.drop (l.length - n)

/-- An event is written; the log keeps the latest 1,024. -/
def Cairn.event (k : Cairn) (code before after : Nat) : Cairn :=
  let e : CairnEvt := { num := k.nextEvt, time := k.time, code := code, before := before, after := after }
  { k with evts := lastN 1024 (k.evts ++ [e]), nextEvt := k.nextEvt + 1, intEvts := k.intEvts ++ e.bytes }

/-- Cumulative energy in mWh. -/
def Cairn.mwh (k : Cairn) : Nat := k.energy / 3600000

/-! ### Measurement and clock -/

/-- The clock moves on, on its backup cell without input; with input the energy adds up (R482, R483). -/
def Cairn.advance (k : Cairn) (x : CairnNow) : Cairn :=
  let k : Cairn := { k with time := k.time + x.dt }
  if k.input then { k with energy := k.energy + x.uj, volts := x.volts, amps := x.amps, watts := x.watts } else k

/-- R485: a frame whose sequence number follows the last valid one by 1 to 2^31. -/
def Cairn.follows (k : Cairn) (seq : Nat) : Bool :=
  match k.frame with
  | none => true
  | some f => let d := (seq + 2 ^ 32 - f.seq) % 2 ^ 32; decide (1 ≤ d ∧ d ≤ 2 ^ 31)

/-- UTC seconds a frame's stamp stands for now, in 1/32,768 s: corrected for the frame's age (R492). -/
def Cairn.frameTime (k : Cairn) (f : ActFrame) : Nat := f.stamp + (k.time - f.time) * 32768

/-- R492: an invalid clock is set from a valid frame. -/
def Cairn.setClock (k : Cairn) (f : ActFrame) : Cairn :=
  if k.valid then k
  else
    let t := f.stamp / 32768
    let k' : Cairn := { k with time := t, valid := true, clockSet := true, partly := true,
                               start := t - (k.time - k.start) }
    k'.event 5 0 t

/-- R485, R486: a frame arrives. One with a failed CRC or out of sequence is discarded; one of a new boot counts
from zero. -/
def Cairn.takeFrame (k : Cairn) (f : ActFrame) (crcOk : Bool) : Cairn :=
  if ¬ k.input ∨ ¬ crcOk ∨ ¬ k.follows f.seq then k
  else
    let f : ActFrame := { f with time := k.time }
    let again : Bool := match k.frame with
      | some g => g.boot != f.boot
      | none => false
    let old : List Nat := (k.frame.map fun g => g.counts).getD []
    let base : List Int := if again then (List.range 512).map fun i => k.base.getD i 0 - old.getD i 0 else k.base
    let k : Cairn := { k with base := base, rebased := k.rebased || again }
    let k := k.setClock f
    { k with frame := some { f with time := k.time }, fresh := true }

/-! ### Apportionment (R486) -/

/-- µJ of a Tent's counts, truncated. -/
def tentEnergy (n : List Nat) (t : Nat) : Nat :=
  ((List.range 8).map fun c => cairnCoef.getD c 0 * n.getD (8 * t + c) 0 * cairnParts.getD c 1).sum / 2 ^ 32

/-- The energy of every Tent in mWh, the total, the remainder and what is not allocated. -/
def apportion (e : Nat) (n : List Nat) : List Nat × Nat × Nat × Nat :=
  let a := (List.range 64).map fun t => tentEnergy n t
  let sum := a.sum
  let tents := a.map fun x => (if sum ≤ e then x else x * e / sum) / 3600000
  let total := e / 3600000
  (tents, total, e - total * 3600000, total - tents.sum)

/-! ### Records (R489) -/

/-- Bytes 0 to 447 of a record, which its signatures cover. -/
def CairnRec.body (r : CairnRec) : List Byte :=
  ascii "GXCR" ++ leBytes 4 r.num ++ leBytes 8 r.start ++ leBytes 4 r.length ++ leBytes 4 r.flags ++ leBytes 8 r.total
    ++ leBytes 4 r.energy ++ leBytes 4 r.unalloc ++ r.tents.flatMap (fun x => leBytes 4 x) ++ r.prev ++ leBytes 4 r.event
    ++ (if r.events.isEmpty then List.replicate 32 0 else r.events) ++ leBytes 8 Config.serial.toNat
    ++ Config.cairnSum ++ List.replicate 44 0

/-- A byte string brought to a length. -/
def padTo (n : Nat) (bs : List Byte) : List Byte := (bs ++ List.replicate n 0).take n

/-- The 4,096 bytes of a record. -/
def CairnRec.bytes (r : CairnRec) : List Byte :=
  padTo 448 r.body ++ padTo 64 (Config.cairnSigns 0 (padTo 448 r.body)) ++
    padTo 3309 (Config.cairnSigns 1 (padTo 448 r.body)) ++ List.replicate 275 0

/-- The flags of R489. -/
def Cairn.flags (k : Cairn) : Nat :=
  let bs := [!Config.cairnCertified, k.sealBroken, k.partly, !k.fresh, k.rebased, k.stepped, k.disagree,
             k.overSeen || k.overload, k.fault, k.clockSet]
  (bs.mapIdx fun i b => b.toNat * 2 ^ i).sum

/-- R486, R489: the record of an interval is written and the next interval opens. In fault every energy field is
zero (R494). -/
def Cairn.close (k : Cairn) : Cairn :=
  let counts : List Nat := (k.frame.map fun f => f.counts).getD []
  let n := (List.range 512).map fun i => ((counts.getD i 0 : Int) - k.base.getD i 0).toNat
  let e := k.energy - k.closed + k.carry
  let a := apportion e n
  let zero (x : Nat) : Nat := if k.fault then 0 else x
  let r : CairnRec :=
    { num := k.nextRec, start := k.start, length := k.time - k.start, flags := k.flags, total := zero k.mwh
      energy := zero a.2.1, unalloc := zero a.2.2.2, tents := a.1.map zero
      prev := match k.recs.getLast? with
        | some p => Config.sha3 (p.bytes.take 3821)
        | none => List.replicate 32 0
      event := if k.nextEvt = 0 then 0xFFFFFFFF else k.nextEvt - 1, events := if k.intEvts.isEmpty then [] else Config.sha3 k.intEvts }
  { k with recs := lastN 10000 (k.recs ++ [r]), nextRec := k.nextRec + 1, closed := k.energy, carry := a.2.2.1,
           base := counts.map Int.ofNat, start := k.time, partly := false, fresh := false
           rebased := false, stepped := false, clockSet := false, overSeen := false, intEvts := [] }

/-- A time of the last 24 h. -/
def Cairn.lastDay (k : Cairn) (t : Option Nat) : Bool :=
  match t with
  | some x => decide (k.time < x + 86400)
  | none => false

/-- R492: how the clock stands to the last valid frame, in 1/32,768 s. -/
def Cairn.clockDiff (k : Cairn) : Int :=
  match k.frame with
  | none => 0
  | some f => (k.frameTime f : Int) - k.time * 32768

/-- R492: the difference is stepped at this close. -/
def Cairn.steps (k : Cairn) : Bool :=
  decide (2 * 32768 < k.clockDiff.natAbs ∧ k.clockDiff.natAbs ≤ 300 * 32768) && !k.lastDay k.stepAt

/-- R491, R492: the record, then the step and the events of this instant, which belong to the interval that opens. -/
def Cairn.closeNow (k : Cairn) : Cairn :=
  if ¬ k.valid then k
  else
    let off := decide (2 * 32768 < k.clockDiff.natAbs)
    let step := k.steps
    let d := k.clockDiff
    let k : Cairn := { k with disagree := off && !step }
    let k := k.close
    if step then
      let old := k.time
      let new := (((old * 32768 : Nat) : Int) + d).toNat / 32768
      let k' : Cairn := { k with time := new, start := new, partly := true, stepped := true, stepAt := some new
                                 frame := k.frame.map fun f => { f with time := new - (old - f.time) } }
      k'.event 3 old new
    else if off ∧ ¬ k.lastDay k.evt4At then
      let k' : Cairn := { k with evt4At := some k.time }
      k'.event 4 k.time ((((k.time * 32768 : Nat) : Int) + d).toNat / 32768)
    else k

/-- A boundary of the billing interval (R488). -/
def Cairn.atBoundary (k : Cairn) : Bool := k.time % (60 * cairnMinutes) == 0

/-! ### Publication (R498) -/

/-- CAIRN_REC and CAIRN_EVT: the oldest and the latest number held. -/
def heldWord (next len : Nat) : Word :=
  if next = 0 then 0xFFFFFFFF else BitVec.ofNat 64 ((next - len) % 2 ^ 32 * 2 ^ 32 + (next - 1) % 2 ^ 32)

/-- The words the publication link carries. -/
def Cairn.view (k : Cairn) : List (Reg × Word) :=
  let ok := k.frame.isSome && !k.linkLost && k.input
  let st := k.fault.toNat * 2 ^ 31 + k.sealBroken.toNat * 2 ^ 30 + k.valid.toNat * 2 ^ 29 + k.disagree.toNat * 2 ^ 28 +
    ok.toNat * 2 ^ 27 + k.overload.toNat * 2 ^ 26 + cairnMinutes
  let tents : List Nat := match k.recs.getLast? with
    | some r => r.tents
    | none => []
  [({ name := .cairnState }, BitVec.ofNat 64 st), ({ name := .cairnTime }, BitVec.ofNat 64 k.time),
   ({ name := .cairnTotal }, BitVec.ofNat 64 k.mwh),
   ({ name := .cairnInput }, BitVec.ofNat 64 (k.watts % 65536 * 2 ^ 32 + k.amps % 65536 * 2 ^ 16 + k.volts % 65536)),
   ({ name := .cairnRec }, heldWord k.nextRec k.recs.length), ({ name := .cairnEvt }, heldWord k.nextEvt k.evts.length)]
  ++ (List.range 64).map fun t => ({ name := .cairnTent, idx := [t] }, BitVec.ofNat 64 (tents.getD t 0 % 2 ^ 32))

/-- Basecamp refreshes the CAIRN_ view while it is powered. -/
def Chip.publish (c : Chip) (k : Cairn) : Chip :=
  if c.powered then k.view.foldl (fun c p => c.put p.1 p.2) c else c

/-- An event of the Cairn's own: it acts on the Cairn, and what the Cairn then publishes reaches the view. -/
def onCairn (s : State) (f : Cairn → Cairn) : Outcome :=
  let k := f s.cairn
  .next { s with cairn := k, chip := s.chip.publish k }

end Sys2Proof.Machine
end

