-- ==== Sys2Proof/Machine/Metering.lean ====
section
/-!
DEFINITION. Sys2Proof/Machine/Metering.lean: the Cairn's events and the CAIRN commands (R481 to R497).
-/

namespace Sys2Proof.Machine

/-- The 512 counts a frame carries, Tent 0 class 0 first (R485). -/
def Chip.actCounts (c : Chip) : List Nat :=
  (List.range 512).map fun i => Tab.get c.act (i / 8, i % 8) 0 % 2 ^ 64

/-- The frame Basecamp sends next. -/
def Chip.actFrame (c : Chip) : ActFrame :=
  { seq := c.actSeq % 2 ^ 32, boot := c.boots % 65536, stamp := c.stamp.toNat, counts := c.actCounts, time := 0 }

/-- ACTIVITY_FRAME (R485): Basecamp sends a frame in STARTING, SERVICE and HOLD; `crcOk`: it arrives whole. -/
def execActivityFrame (x : CairnNow) (crcOk : Bool) (s : State) : Outcome :=
  let k := s.cairn.advance x
  if s.chip.powered then
    let k := k.takeFrame s.chip.actFrame crcOk
    let c : Chip := { s.chip with actSeq := s.chip.actSeq + 1 }
    .next { s with cairn := k, chip := c.publish k }
  else .next { s with cairn := k }

/-- INTERVAL_CLOSE (R486 to R492): Cairn time reaches a boundary. -/
def execIntervalClose (x : CairnNow) (s : State) : Outcome :=
  onCairn s fun k =>
    let k := k.advance x
    if k.input ∧ k.atBoundary then k.closeNow else k

/-- CAIRN_INPUT_LOSS (R491): the running interval closes as partial. -/
def Cairn.lose (k : Cairn) : Cairn :=
  if ¬ k.input then k
  else
    let k : Cairn := { k with partly := true }
    let k := k.closeNow
    ({ k with input := false }).event 2 k.mwh 0

def execCairnInputLoss (x : CairnNow) (s : State) : Outcome := onCairn s fun k => (k.advance x).lose

/-- CAIRN_INPUT_RETURN (R491, R492): a partial interval opens; after more than 72 h the clock is invalid. -/
def Cairn.comeBack (k : Cairn) : Cairn :=
  if k.input then k
  else
    let k : Cairn := { k with input := true, valid := k.valid && decide (k.time - k.start ≤ 259200), start := k.time
                              partly := true }
    k.event 1 k.mwh 0

def execCairnInputReturn (x : CairnNow) (s : State) : Outcome := onCairn s fun k => (k.advance x).comeBack

/-- SEAL_OPENED (R494): `state`, the lid and mesh state. -/
def Cairn.openSeal (k : Cairn) (state : Nat) : Cairn :=
  let k' : Cairn := { k with sealBroken := true }
  k'.event 6 (state % 2 ^ 64) 0

def execSealOpened (x : CairnNow) (state : Nat) (s : State) : Outcome :=
  onCairn s fun k => (k.advance x).openSeal state

/-- SELF_TEST (R494): `sum` is the computed checksum; a passed test at a start ends a fault. -/
def Cairn.selfTest (k : Cairn) (start : Bool) (sum : List Byte) : Cairn :=
  if ¬ k.input then k
  else if sum = Config.cairnSum then (if start then { k with fault := false } else k)
  else
    let k' : Cairn := { k with fault := true }
    k'.event 11 (leNat (Config.cairnSum.take 8)) (leNat (sum.take 8))

def execSelfTest (x : CairnNow) (start : Bool) (sum : List Byte) (s : State) : Outcome :=
  onCairn s fun k => (k.advance x).selfTest start sum

/-- OVERLOAD_BEGIN, OVERLOAD_END (R493): `peak` in mA. -/
def Cairn.overloads (k : Cairn) (on : Bool) (peak : Nat) : Cairn :=
  if ¬ k.input ∨ k.overload = on then k
  else
    let k' : Cairn := { k with overload := on, overSeen := true }
    k'.event (if on then 7 else 8) (peak % 2 ^ 64) 0

def execOverloadBegin (x : CairnNow) (peak : Nat) (s : State) : Outcome :=
  onCairn s fun k => (k.advance x).overloads true peak

def execOverloadEnd (x : CairnNow) (peak : Nat) (s : State) : Outcome :=
  onCairn s fun k => (k.advance x).overloads false peak

/-- Sequence number of the last valid frame. -/
def Cairn.lastSeq (k : Cairn) : Nat := (k.frame.map fun f => f.seq).getD 0

/-- ACTIVITY_LINK_LOST (R493): no valid frame for 100 ms. -/
def Cairn.loseLink (k : Cairn) : Cairn :=
  if ¬ k.input ∨ k.linkLost then k
  else
    let k' : Cairn := { k with linkLost := true, lostSeq := k.lastSeq }
    k'.event 9 k.lastSeq 0

def execActivityLinkLost (x : CairnNow) (s : State) : Outcome := onCairn s fun k => (k.advance x).loseLink

/-- ACTIVITY_LINK_RESTORED (R493): a valid frame has come since. -/
def Cairn.findLink (k : Cairn) : Cairn :=
  if ¬ k.input ∨ ¬ k.linkLost ∨ k.lastSeq = k.lostSeq then k
  else
    let k' : Cairn := { k with linkLost := false }
    k'.event 10 k.lostSeq k.lastSeq

def execActivityLinkRestored (x : CairnNow) (s : State) : Outcome := onCairn s fun k => (k.advance x).findLink

/-- METROLOGY_PULSE (R496): an impulse for each 0.1 Wh, none in fault. -/
def execMetrologyPulse (x : CairnNow) (s : State) : Outcome :=
  let k := s.cairn.advance x
  if k.input ∧ ¬ k.fault ∧ k.pulses < k.mwh / 100 then
    let k : Cairn := { k with pulses := k.pulses + 1 }
    .next { s with cairn := k, chip := { s.chip.publish k with outs := (s.chip.publish k).outs ++ [.pulse] } }
  else .next { s with cairn := k, chip := s.chip.publish k }

/-! ### Commands (R497) -/

/-- Bytes as words, `n` of them. -/
def leWords (n : Nat) (bs : List Byte) : List Word :=
  (List.range n).map fun i => BitVec.ofNat 64 (leNat ((bs.drop (8 * i)).take 8))

/-- CAIRN_IDENT. -/
def Chip.mpCairnIdent (c : Chip) (m : Cmd) : Chip :=
  if m.stray 0 then c.finish 0x0D01 m Status.badParam
  else
    let head := leNat (ascii "CAIRN-LR")
    let ver := 256 + Config.cairnCertified.toNat * 2 ^ 16 + cairnMinutes * 2 ^ 24
    let coefs := (List.range 4).map fun k =>
      BitVec.ofNat 64 (cairnCoef.getD (2 * k) 0 + cairnCoef.getD (2 * k + 1) 0 * 2 ^ 32)
    c.finish 0x0D01 m Status.ok 0
      ([BitVec.ofNat 64 head, BitVec.ofNat 64 ver] ++ leWords 4 Config.cairnSum ++ leWords 248 Config.cairnKeys ++ coefs)

def execCairnIdent (m : Cmd) (s : State) : Outcome :=
  onHost m s fun c => c.mpReceive 0x0D01 m [] fun c => c.mpCairnIdent m

/-- CAIRN_RECORDS: the cursor goes out with the next frames, and what is held comes back. -/
def Chip.mpCairnRecords (c : Chip) (k : Cairn) (m : Cmd) : Chip :=
  if m.stray 0x3FFFFFFFF then c.finish 0x0D02 m Status.badParam
  else
    let first := bitsOf m.p 31 0
    let n := bitsOf m.p 33 32 + 1
    let rs := k.recs.filter fun r => decide (first ≤ r.num ∧ r.num < first + n)
    let oldest := k.nextRec - k.recs.length
    let c : Chip := { c with cursors := ((first, n), c.cursors.2) }
    c.finish 0x0D02 m Status.ok (rs.length + oldest % 2 ^ 32 * 256) (rs.flatMap fun r => leWords 512 r.bytes)

def execCairnRecords (m : Cmd) (s : State) : Outcome :=
  onHost m s fun c => c.mpReceive 0x0D02 m [] fun c => c.mpCairnRecords s.cairn m

/-- CAIRN_EVENTS. -/
def Chip.mpCairnEvents (c : Chip) (k : Cairn) (m : Cmd) : Chip :=
  if m.stray 0x3FFFFFFFFF then c.finish 0x0D03 m Status.badParam
  else
    let first := bitsOf m.p 31 0
    let n := bitsOf m.p 37 32 + 1
    let es := k.evts.filter fun e => decide (first ≤ e.num ∧ e.num < first + n)
    let oldest := k.nextEvt - k.evts.length
    let c : Chip := { c with cursors := (c.cursors.1, (first, n)) }
    c.finish 0x0D03 m Status.ok (es.length + oldest % 2 ^ 32 * 256) (es.flatMap fun e => leWords 4 e.bytes)

def execCairnEvents (m : Cmd) (s : State) : Outcome :=
  onHost m s fun c => c.mpReceive 0x0D03 m [] fun c => c.mpCairnEvents s.cairn m

end Sys2Proof.Machine
end

