-- ==== Sys2Proof/Machine/Passes.lean ====
section
/-!
DEFINITION. Sys2Proof/Machine/Passes.lean: the PASS commands (R444, R445, R449, R454, R457) and the events
of lanes and sinks (R445 to R451) that need no memory access.
-/

namespace Sys2Proof.Machine

/-! ### Commands -/

/-- The end a first parameter of R444 names: lane or sink index. -/
def passEnd (p : Nat) : Nat :=
  if bitOf p 0 then 32 * bitsOf p 3 1 + bitsOf p 8 4 else 16 * bitsOf p 3 1 + bitsOf p 12 9

/-- R444: a reserved field is not zero, or a sink names a lane. -/
def passReserved (p : Nat) : Bool :=
  bitsOf p 15 13 != 0 || bitsOf p 63 40 != 0 || (bitOf p 0 && bitsOf p 12 9 != 0)

/-- R445: another lane of the port carries the colour. -/
def Chip.colourTaken (c : Chip) (lane colour : Nat) : Bool :=
  (List.range 16).any fun k =>
    let n := lane / 16 * 16 + k
    n != lane && c.flag Fld.passTx_open [n] && c.f Fld.passTx_colour [n] == colour

/-- R445: a source's first output is a Pass whose booster is not on. -/
def Chip.firstDark (c : Chip) (lane colour : Nat) : Bool :=
  let o := (24 + lane / 16 + colour) % 32
  decide (o < 24) && !bitOf (c.f Fld.passPort_boostOn) (o / 2)

/-- PASS_OPEN (R444, R445). -/
def Chip.mpPassOpen (c : Chip) (m : Cmd) : Chip :=
  let p := m.p
  let n := passEnd p
  let colour := bitsOf p 8 4
  let peer := bitsOf p 31 16
  if bitOf p 0 then
    if passReserved p then c.finish 0x0A01 m Status.badParam
    else if c.f Fld.passRx_state [n] ≠ 0 ∨ c.moduleId = 0xFFFF then
      c.finish 0x0A01 m Status.notPermitted
    else
      let c := c.put { name := .passRx, idx := [n] } (BitVec.ofNat 64 (2 ^ 30 + peer))
      (c.setSink n { cmd := some m }).accept 0x0A01 m
  else if passReserved p ∨ c.colourTaken n colour then c.finish 0x0A01 m Status.badParam
  else if c.flag Fld.passTx_open [n] ∨ c.moduleId = 0xFFFF ∨ c.firstDark n colour then
    c.finish 0x0A01 m Status.notPermitted
  else
    let c := c.put { name := .passTx, idx := [n] } (BitVec.ofNat 64 (2 ^ 31 + colour * 2 ^ 24 + peer))
    (c.setSource n { cmd := some m }).accept 0x0A01 m

def execPassOpen (m : Cmd) (s : State) : Outcome :=
  onHost m s fun c => c.mpReceive 0x0A01 m [] fun c => c.mpPassOpen m

/-- R449: a valid route or broadcast entry names the source. -/
def Chip.laneNamed (c : Chip) (n : Nat) : Bool :=
  (c.regs.any fun p => p.1.name == .passRoute && bitOf p.2.toNat 63 && (routeCircuits p.2.toNat).contains n)
  || (c.passes.routes.any fun p => bitOf p.2.toNat 63 && (routeCircuits p.2.toNat).contains n)
  || c.regs.any fun p => p.1.name == .passBcast && bitOf p.2.toNat 31 && (bcastCircuits p.2.toNat).contains n

/-- PASS_CLOSE (R444, R449); an open still waiting at the end closed is answered LOCK_LOST. -/
def Chip.mpPassClose (c : Chip) (m : Cmd) : Chip :=
  let p := m.p
  let n := passEnd p
  let drop (c : Chip) (o : Option Cmd) : Chip := match o with
    | some x => c.answer 0x0A01 x Status.lockLost
    | none => c
  if passReserved p then c.finish 0x0A02 m Status.badParam
  else if bitOf p 0 then
    let old := (c.sink n).cmd
    let c := (c.put { name := .passRx, idx := [n] } 0).setSink n {}
    (drop c old).finish 0x0A02 m Status.ok
  else if c.laneNamed n then c.finish 0x0A02 m Status.notPermitted
  else
    let s := c.source n
    let c := (c.setSource n { s with cmd := none, closing := true }).settleLane n
    (drop c s.cmd).finish 0x0A02 m Status.ok

def execPassClose (m : Cmd) (s : State) : Outcome :=
  onHost m s fun c => c.mpReceive 0x0A02 m [] fun c => c.mpPassClose m

/-- PASS_EXPORT (R457, R460). -/
def Chip.mpPassExport (c : Chip) (m : Cmd) : Chip :=
  if m.stray 0x3F then c.finish 0x0A03 m Status.badParam
  else
    let r := c.wPassExport m.p (m.words.getD 0 0) (m.words.getD 1 0)
    r.2.finish 0x0A03 m r.1

def execPassExport (m : Cmd) (s : State) : Outcome :=
  onHost m s fun c => c.mpReceive 0x0A03 m [] fun c => c.mpPassExport m

/-- PASS_ROUTE (R454, R460): route or broadcast entries, refused whole where one is. -/
def Chip.mpPassRoute (c : Chip) (m : Cmd) : Chip :=
  let p := m.p
  let first := bitsOf p 15 0
  let n := bitsOf p 26 16 + 1
  let bc := bitOf p 32
  if m.stray 0x107FFFFFF ∨ m.words.length ≠ n ∨ 2047 < n ∨ (if bc then 256 else 65536) < first + n then
    c.finish 0x0A04 m Status.badParam
  else if ¬ bc ∧ m.words.any (fun x => c.routeRefused x.toNat) then c.finish 0x0A04 m Status.notPermitted
  else
    let c := (m.words.mapIdx fun k x => (k, x)).foldl (fun c q =>
      if bc then (c.wPassBcast (first + q.1) q.2).2 else (c.wPassRoute (first + q.1) q.2).2) c
    c.finish 0x0A04 m Status.ok

def execPassRoute (m : Cmd) (s : State) : Outcome :=
  onHost m s fun c => c.mpReceive 0x0A04 m [] fun c => c.mpPassRoute m

/-! ### Events of lanes -/

/-- A source lane and a sink exist (file 14, Circuits). -/
def laneOk (n : Nat) : Bool := decide (n < 128)

def sinkOk (n : Nat) : Bool := decide (n < 256)

/-- The Pass optics are powered and not in HOLD (R440, R448). -/
def Chip.passesLit (c : Chip) : Bool :=
  match c.device with
  | .starting => true
  | .service => true
  | _ => false

/-- SOURCE_LOCKED (R445, R448): the lane locks, sends a tag frame and what waited for it. -/
def Chip.sourceLocked (c : Chip) (n : Nat) : Chip :=
  if c.flag Fld.passTx_open [n] ∧ ¬ c.flag Fld.passTx_locked [n] ∧ c.passesLit then
    let s := c.source n
    let c := c.setF Fld.passTx_locked [n] 1
    let c := (c.setSource n { s with cmd := none, q := [] }).sendOn n (c.tagFrame n)
    let c := s.q.foldl (fun c f => c.sendOn n f) c
    let c := (c.settleLane n).settleRoutes
    match s.cmd with
    | some m => c.answer 0x0A01 m Status.ok
    | none => c
  else c

def execSourceLocked (n : Nat) (s : State) : Outcome :=
  onUnits (laneOk n) s fun c => c.sourceLocked n

/-- TAG_FRAME_SEND (R447). -/
def Chip.tagSend (c : Chip) (n : Nat) : Chip :=
  if c.flag Fld.passTx_open [n] ∧ c.flag Fld.passTx_locked [n] then c.sendOn n (c.tagFrame n) else c

def execTagFrameSend (n : Nat) (s : State) : Outcome :=
  onUnits (laneOk n) s fun c => c.tagSend n

/-! ### Events of sinks -/

/-- CODEWORD_RECEIVE (R446, R450): `corrected` counts the code symbols corrected, none where more than 15 are
wrong; `frames` counts the frames that touch such a codeword. -/
def Chip.codeword (c : Chip) (n : Nat) (corrected : Option Nat) (frames : Nat) : Chip :=
  let st := c.f Fld.passRx_state [n]
  if st = 0 ∨ st = 3 then c
  else
    let s := c.sink n
    let lost : Chip :=
      let c := (c.count Fld.passRxFec_uncorr [n]).count Fld.passStat_dropped [] frames
      let c := c.setSink n { s with good := 0, tagged := false, bad := s.bad + 1 }
      if 64 ≤ s.bad + 1 then c.sinkDown n else c
    match corrected with
    | some k =>
      if 15 < k then lost
      else
        let c := c.count Fld.passRxFec_corrected [n] k
        (c.setSink n { s with good := s.good + 1, bad := 0 }).sinkUp n
    | none => lost

def execCodewordReceive (n : Nat) (corrected : Option Nat) (frames : Nat) (s : State) : Outcome :=
  onUnits (sinkOk n) s fun c => c.codeword n corrected frames

/-- HEADER_HUNT (R451). -/
def Chip.headerHunt (c : Chip) (n : Nat) : Chip :=
  if c.f Fld.passRx_state [n] = 0 then c else c.setSink n { c.sink n with hunting := true }

def execHeaderHunt (n : Nat) (s : State) : Outcome :=
  onUnits (sinkOk n) s fun c => c.headerHunt n

/-- SINK_DARK_TIMEOUT (R446). -/
def Chip.sinkDark (c : Chip) (n : Nat) : Chip :=
  let c := c.setSink n { c.sink n with good := 0, tagged := false }
  c.sinkDown n

def execSinkDarkTimeout (n : Nat) (s : State) : Outcome :=
  onUnits (sinkOk n) s fun c => c.sinkDark n

/-- SINK_WAIT_EXPIRE (R445): the open ends LOCK_LOST; the sink keeps its record and goes on waiting. -/
def Chip.sinkWaitExpire (c : Chip) (n : Nat) : Chip :=
  match (c.sink n).cmd with
  | some m => (c.setSink n { c.sink n with cmd := none }).answer 0x0A01 m Status.lockLost
  | none => c

def execSinkWaitExpire (n : Nat) (s : State) : Outcome :=
  onUnits (sinkOk n) s fun c => c.sinkWaitExpire n

end Sys2Proof.Machine
end

