-- ==== Sys2Proof/Machine/Registers.lean ====
section
/-!
DEFINITION. Sys2Proof/Machine/Registers.lean: what each register reads as (R11 to R13), what a write of each
does, REG_READ and REG_WRITE (R24, R422), and the register-write commands of the families.
-/

namespace Sys2Proof.Machine

/-! ### Reading -/

/-- The thread states of a site as one bit a thread. -/
def Chip.stateBits (c : Chip) (i st : Nat) : Nat :=
  ((siteHarts i).map fun h => if (c.thread h).state = st then 2 ^ h.t else 0).sum

/-- What a SITE_ core register of a physical site shows of the logical site it serves. -/
def Chip.coreView (c : Chip) (r : Reg) : Option Nat :=
  match r.idx with
  | n :: s :: rest =>
    match c.logicalOf n s, r.name with
    | some i, .siteCoreState =>
      some (c.stateBits i 4 * 2 ^ 24 + c.stateBits i 3 * 2 ^ 16 + c.stateBits i 2 * 2 ^ 8 + c.stateBits i 1)
    | some i, .siteThreadCtl => some (c.thread { i := i, t := rest.headD 0 }).state
    | some i, .siteThreadPc => some (c.thread { i := i, t := rest.headD 0 }).pc
    | some i, .siteSpawnq => some (c.core i).spawnq.length
    | _, _ => none
  | _ => none

/-- SYS_DRAINED: Vales in [11:0], Velds in [47:12]. -/
def Chip.drainedView (c : Chip) : Nat :=
  let bit (u n : Nat) : Nat := match c.drainOf u n with
    | some d => d.done.toNat
    | none => 0
  ((List.range 12).map fun v => bit 0 v * 2 ^ v).sum + ((List.range 36).map fun n => bit 1 n * 2 ^ (12 + n)).sum

/-- R541: the level of every GPIO land: an output drives its out bit, an input is what stands on the land. -/
def Chip.gpioView (c : Chip) : Word × Chip :=
  let f := c.takeFree
  let dir := c.get { name := .sysGpioDir }
  ((c.get { name := .sysGpioOut } &&& dir) ||| (f.1 &&& ~~~ dir &&& 0xFFFF), f.2)

/-- DALE_STATE: the code of the step that runs, 7 only while the job's bank is on its way to another line, and 5 where
nothing but lock-good is missing (R131). -/
def Chip.daleStateView (c : Chip) (v d : Nat) (x : Word) : Word :=
  match (c.dale (12 * v + d)).run with
  | none => x
  | some r =>
    if r.phase = .prepare then
      let n := bitsOf x.toNat 27 24
      let b := c.f Fld.valeBank_state [v, (Desc.ofWords r.job.desc).bank]
      let n := if n = 7 ∧ b ≠ 1 ∧ b ≠ 4 then 1 else n
      setBits x 27 24 (if n = 1 ∧ r.lockWait ∧ bitsOf x.toNat 31 31 = 0 then 5 else n)
    else x

/-- What a register word shows: the stored word, or what the state it stands for gives. -/
def Chip.view (c : Chip) (r : Reg) : Word :=
  let x := c.get r
  match r.name, r.idx, r.w with
  | .budUsed, [t, cl], _ => BitVec.ofNat 64 (c.usedView t cl)
  | .budCredGranted, _, _ => BitVec.ofNat 64 c.grantedAll
  | .budGroupState, [g], _ => BitVec.ofNat 64 (c.ceilingView g * 2 ^ 11 + c.granted g)
  -- a written value that waits to take effect is the one last written (R11, R454, R230)
  | .passRoute, [m], _ => Tab.get c.passes.routes m x
  | .valeBank, [v, b], _ => match (c.bank v b).newOwner with
    | some t => setBits x 29 24 t
    | none => x
  | .sysState, _, _ => setBits x 2 0 (stateCode c.device)
  | .sysMsgq, [t], _ => setBits x 8 0 (c.msgQ t).q.length
  | .wsetSlot, [t, k], 0 => setBits x 6 6 (c.inUse t k).toNat
  | .veldProg, [n], _ =>
    BitVec.ofNat 64 (min 31 (c.programming n) * 2 ^ 8 + min 31 (c.veld n).queue.length)
  | .veldState, [n], _ =>
    if c.loaded then setBits (setBits x 11 6 (min 63 (c.retiredSites n))) 5 0 (min 32 (c.freeSpares n).length) else x
  | .decState, _, _ => c.decState
  | .decHarqPeek, _, _ => c.harqPeek
  | .thmHold, _, _ => c.thmHold
  | .sysDrained, _, _ => BitVec.ofNat 64 c.drainedView
  | .daleState, [v, d], _ => c.daleStateView v d x
  | .calState, [v], _ => setBits x 31 28 (c.calPhase v)
  | .daleColmap, [v, d], _ => match (c.dale (12 * v + d)).rot.park with
    | some p => setBits x 14 8 p
    | none => x
  -- a slot of CAL_MAP holds entry 0 below entry 1 (R277)
  | .calMap, [v, d, e, 0], _ =>
    BitVec.ofNat 64 (x.toNat % 2 ^ 32 + (c.get { name := .calMap, idx := [v, d, e, 1] }).toNat % 2 ^ 32 * 2 ^ 32)
  | .siteCoreState, _, _ => BitVec.ofNat 64 ((c.coreView r).getD 0)
  | .siteThreadCtl, _, _ => BitVec.ofNat 64 ((c.coreView r).getD 0)
  | .siteThreadPc, _, _ => BitVec.ofNat 64 ((c.coreView r).getD 0)
  | .siteSpawnq, _, _ => BitVec.ofNat 64 ((c.coreView r).getD 0)
  | _, _, _ => x

/-- A read of a register word: a flag register's hidden marker clears (R33), WO and W1 fields read zero (R11). -/
def Chip.readWord (c : Chip) (r : Reg) : Word × Chip :=
  let d := r.name.desc
  let c : Chip := if d.tc then { c with marks := c.marks.filter fun m => m != r } else c
  if r.name = .sysGpioIn then c.gpioView else (c.view r &&& ~~~ d.act, c)

/-- R24: a Tent reads a slot of the register space: the status a REG command gets, and the word, zero where the
read is refused. -/
def Chip.regRead (c : Chip) (t addr : Nat) : Nat × Word × Chip :=
  match regAt addr with
  | none => (Status.badParam, 0, c)
  | some r => if c.mayRead t r then (Status.ok, c.readWord r) else (Status.notPermitted, 0, c)

/-! ### Writing -/

/-- A write of fields that are only stored. -/
def Chip.plainWrite (c : Chip) (r : Reg) (x : Word) : Chip :=
  let m := r.name.desc.rw
  if m = 0 then c else c.put r ((c.get r &&& ~~~ m) ||| (x &&& m))

/-- The limits the field descriptions of the registers without an operation of their own state. -/
def Chip.plainRefused (c : Chip) (r : Reg) (x : Nat) : Bool :=
  let out (hi lo a b : Nat) : Bool := decide (bitsOf x hi lo < a ∨ b < bitsOf x hi lo)
  match r.name with
  | .veldCfg => out 15 8 5 100 || out 7 4 1 15
  | .calCfg => out 31 24 1 100 || out 23 16 1 100 || out 15 4 170 4095
  | .calProbe => out 27 0 100000 16000000
  | .calAdcCfg => out 15 0 1 10000
  | .wsetCfg => out 15 8 1 255 || out 7 0 1 255
  | .wsetMinser => decide (x < (c.get r).toNat)
  | .sysStart => out 7 0 1 60
  | .siteActxTable => bitsOf x 2 0 != 0
  | .siteActxStat => bitsOf x 2 0 != 0
  | _ => false

/-- A ticketed clear (R13); a clear of LANT_EV_REC also ends the memory of records written before STARTING. -/
def Chip.wFlag (c : Chip) (r : Reg) (x : Word) : Nat × Chip :=
  let c := c.ticketClear r x
  (Status.ok, if r.name = .lantEvRec ∧ c.get r = 0 then { c with boot := { c.boot with recNew := 0 } } else c)

/-- DALE_ROWMAP (R147). -/
def Chip.wRowmap (c : Chip) (v d : Nat) (x : Word) : Nat × Chip :=
  let a := bitsOf x.toNat 6 0
  let b := bitsOf x.toNat 14 8
  let k := c.dale (12 * v + d)
  if k.run.isSome ∨ k.tile.isSome ∨ k.staging.isSome ∨ a = b ∨ 65 < a ∨ 65 < b then (Status.badParam, c)
  else (Status.ok, c.put { name := .daleRowmap, idx := [v, d] } (BitVec.ofNat 64 (b * 2 ^ 8 + a)))

/-- DALE_SIDE (R98, R141): rows that waited for their side sums are delivered. -/
def Chip.wDaleSide (c : Chip) (v d : Nat) (x : Word) : Nat × Chip :=
  let k := 12 * v + d
  let c := c.count Fld.daleSide_ready [v, d] (bitsOf x.toNat 15 0)
  let n := match (c.dale k).run with
    | some r => r.acc.length
    | none => 0
  (Status.ok, (Chip.deliverReady n c k).settleRun k)

/-- SITE_CORE_RSEED_HI (R305). -/
def Chip.wCoreSeed (c : Chip) (n s : Nat) (x : Word) : Nat × Chip :=
  let hi := bitsOf x.toNat 31 0
  let c := c.put { name := .siteCoreRseedHi, idx := [n, s] } (BitVec.ofNat 64 hi)
  let seed := BitVec.ofNat 64 (hi * 2 ^ 32 + c.f Fld.siteCoreRseedLo_seed [n, s])
  (Status.ok, if seed = 0 then c else c.setGen (.core n s) { s := seed })

/-- SITE_THREAD_CTL (R321). -/
def Chip.wThreadCtl (c : Chip) (n s t : Nat) (x : Word) : Nat × Chip :=
  (Status.ok, match c.logicalOf n s with
    | some i => if bitOf x.toNat 31 then c.stopThread { i := i, t := t } else c
    | none => c)

/-- LANT_CFG (R463): where wake_pol changes, the same level of the WAKE line asks where it did not, and the other way
round. -/
def Chip.wLantCfg (c : Chip) (x : Word) : Nat × Chip :=
  let d := c.plainWrite { name := .lantCfg } x
  if d.f Fld.lantCfg_wakePol = c.f Fld.lantCfg_wakePol then (Status.ok, d)
  else
    let asks := !c.boot.wake
    (Status.ok, ({ d with boot := { d.boot with wake := asks } }).setF Fld.lantCmp_wake [] asks.toNat)

/-- A write of a whole register, all its words in `xs`: the status a REG command gets, and the device. -/
def Chip.regSet (c : Chip) (r : Reg) (xs : List Word) : Nat × Chip :=
  let x := xs.headD 0
  let x1 := xs.getD 1 0
  if r.name.desc.tc then c.wFlag r x
  else match r.name, r.idx with
  | .budFrameCfg, _ => c.wFrameCfg x
  | .budPitch, [t, cl] => c.wPitch t cl (BitVec.ofNat 64 (bitsOf x.toNat 19 0))
  | .budCredBudget, _ => c.setBudget (bitsOf x.toNat 10 0)
  | .budGroupCfg, [g] => c.wGroupCfg g x
  | .daleColmap, [v, d] => c.wParkCol (12 * v + d) x
  | .daleRowmap, [v, d] => c.wRowmap v d x
  | .daleSide, [v, d] => c.wDaleSide v d x
  | .valeBank, [v, b] => c.wValeBank v b x
  | .veldImgBase, [n] => c.wVeldImgBase n x
  | .siteActxCfg, [n, s, a] => c.wActxCfg n s a x
  | .siteThreadCtl, [n, s, t] => c.wThreadCtl n s t x
  | .siteCoreRseedHi, [n, s] => c.wCoreSeed n s x
  | .convTrig, [v, k] => c.wConvTrig v k x
  | .convCtl, [v, l] => c.wConvCtl v l x
  | .convTrkClr, [v, l] => c.wTrkClr v l x
  | .convInj, [v, l] => c.wConvInj v l x
  | .convSeq, [v, l, e] => c.wConvSeq v l e x
  | .pwrHkSeq, [e] => c.wHkSeq e x
  | .pwrHkTrkClr, [k] => c.wHkTrkClr k x
  | .drvDaleCfg, [v, d] => c.wDrvDaleCfg v d x
  | .drvPair, [v] => c.wDrvPair v x
  | .drvToneFcw, [v, t] => c.wToneFcw v t x
  | .drvToneCtl, [v, t] => c.wToneCtl v t x
  | .drvBank, [v, b] => c.wDrvBank v b x
  | .drvXt, [v, d, k] => c.wDrvXt v d k x
  | .drvCh, [v, n] => c.wDrvCh v n x
  | .guySeedHi, [v] => c.wSeedHi v x
  | .guyTestAmp, [v] => c.wTestAmp v x
  | .guyTestFreq, [v] => c.wTestFreq v x
  | .guyTestCtl, [v] => c.wTestCtl v x
  | .guyCapCtl, [v] => c.wCapCtl v x
  | .guyLoop, [v, n] => c.wGuyLoop v n xs
  | .guyCoef, [v, n, k] => c.wGuyCoef v n k xs
  | .tentCtl, [t] => c.wTentCtl t x
  | .tentDale, [k] => c.wTentDale k x
  | .tentWin, [t, s] => c.wTentWin t s x
  | .tentSite, [i] => c.wTentSite i x
  | .wsetActive, [t] => c.wWsetActive t x
  | .fhCfg, _ => c.wFhCfg x
  | .fhOffset, _ => c.wFhOffset x
  | .fhWin, _ => c.wFhWin x
  | .fhSfnSet, _ => c.wFhSfnSet x
  | .fhEaxc, [k] => c.wFhEaxc k x x1
  | .decSubmit, [t] => c.wDecSubmit t x
  | .decHarqCfg, [t] => c.wHarqCfg t x x1
  | .decHarqClr, _ => c.wHarqClr x
  | .sysMsgPost, [t] => c.wMsgPost t x
  | .passCfg, _ => c.wPassCfg x
  | .passPort, _ => c.wPassPort x
  | .passExport, [k] => c.wPassExport k x x1
  | .passBcast, [g] => c.wPassBcast g x
  | .passRoute, [m] => c.wPassRoute m x
  | .lantSec, _ => c.wLantSec x
  | .lantCfg, _ => c.wLantCfg x
  | _, _ => if c.plainRefused r x.toNat then (Status.badParam, c) else (Status.ok, c.plainWrite r x)

/-- R24, R422: Tent `t` writes words to the slots from `addr` on; the register at the first one takes as many as
it has. How many slots were written, or the status that refuses it. -/
def Chip.regWriteAt (c : Chip) (t addr : Nat) (xs : List Word) : Nat × Nat × Chip :=
  match regAt addr with
  | none => (Status.badParam, 0, c)
  | some r =>
    let n := r.name.desc.words
    if r.w ≠ 0 ∨ xs.length < n then (Status.badParam, 0, c)
    else if ¬ c.mayWrite t r (xs.headD 0) then (Status.notPermitted, 0, c)
    else
      let y := c.regSet r (xs.take n)
      if y.1 = Status.ok then (Status.ok, n, y.2) else (y.1, 0, c)

/-- R422: the registers of a REG_WRITE in ascending order up to the first refusal: its status, how many slots were
written, and the device. `k` bounds the count. -/
def Chip.regWrites : Nat → Chip → Nat → Nat → List Word → Nat → Nat × Nat × Chip
  | 0, c, _, _, _, done => (Status.ok, done, c)
  | k + 1, c, t, addr, xs, done =>
    if xs.isEmpty then (Status.ok, done, c)
    else
      let y := c.regWriteAt t addr xs
      if y.1 = Status.ok then Chip.regWrites k y.2.2 t (addr + 8 * y.2.1) (xs.drop y.2.1) (done + y.2.1)
      else (y.1, done, c)

/-! ### The register space as threads and other modules see it (R308) -/

/-- The `n` slots from `base` on, read as Tent `t`, as bytes. -/
def Chip.slotReads : Nat → Chip → Nat → Nat → List Byte × Chip
  | 0, c, _, _ => ([], c)
  | n + 1, c, t, base =>
    let y := c.regRead t base
    let z := Chip.slotReads n y.2.2 t (base + 8)
    (leBytes 8 y.2.1.toNat ++ z.1, z.2)

/-- Words written to the slots from `base` on as Tent `t`; what is refused is ignored. -/
def Chip.slotWrites : Nat → Chip → Nat → Nat → List Word → Chip
  | 0, c, _, _, _ => c
  | k + 1, c, t, base, ws =>
    if ws.isEmpty then c
    else
      let y := c.regWriteAt t base ws
      if y.1 = Status.ok then Chip.slotWrites k y.2.2 t (base + 8 * y.2.1) (ws.drop y.2.1)
      else Chip.slotWrites k c t (base + 8) (ws.drop 1)

/-- A load of `n` bytes from the register space: every slot it touches is read. -/
def Chip.regLoad (c : Chip) (t addr n : Nat) : List Byte × Chip :=
  let y := Chip.slotReads ((addr % 8 + n + 7) / 8) c t (addr / 8 * 8)
  ((y.1.drop (addr % 8)).take n, y.2)

/-- A store to the register space: the bytes of a slot it does not carry are written zero (log entry 61). -/
def Chip.regStore (c : Chip) (t addr : Nat) (bs : List Byte) : Chip :=
  let k := (addr % 8 + bs.length + 7) / 8
  Chip.slotWrites k c t (addr / 8 * 8) (wordsOfBytes k (List.replicate (addr % 8) 0 ++ bs))

/-! ### REG_READ and REG_WRITE (R422) -/

/-- The first parameter breaks R422. -/
def regParamBad (p : Nat) : Bool := bitsOf p 63 52 != 0 || bitsOf p 47 0 % 8 != 0

def regCount (p : Nat) : Nat := bitsOf p 51 48 + 1

/-- REG_READ: one word a register; the status of the first refusal, with its index in byte 9. -/
def Chip.hwRegRead (c : Chip) (m : Cmd) : Chip :=
  if regParamBad m.p then c.finish 0x0E01 m Status.badParam
  else
    let r := (List.range (regCount m.p)).foldl (fun (s : Option (Nat × Nat) × List Word × Chip) k =>
      let y := s.2.2.regRead m.tent (bitsOf m.p 47 0 + 8 * k)
      (match s.1 with
       | some e => some e
       | none => if y.1 = Status.ok then none else some (y.1, k),
       s.2.1 ++ [y.2.1], y.2.2)) (none, [], c)
    match r.1 with
    | none => r.2.2.finish 0x0E01 m Status.ok 0 r.2.1
    | some e => r.2.2.finish 0x0E01 m e.1 e.2 r.2.1

def execRegRead (m : Cmd) (s : State) : Outcome :=
  onHost m s fun c => c.hwReceive 0x0E01 m fun c => c.hwRegRead m

/-- REG_WRITE: in ascending order up to the first refusal; byte 9 is the number applied. -/
def Chip.hwRegWrite (c : Chip) (m : Cmd) : Chip :=
  if regParamBad m.p ∨ m.words.length ≠ regCount m.p then c.finish 0x0E02 m Status.badParam
  else
    let y := Chip.regWrites 16 c m.tent (bitsOf m.p 47 0) m.words 0
    y.2.2.finish 0x0E02 m y.1 y.2.1

def execRegWrite (m : Cmd) (s : State) : Outcome :=
  onHost m s fun c => c.hwReceive 0x0E02 m fun c => c.hwRegWrite m

/-! ### The register-write commands -/

/-- TICKET_CLEAR (R13). -/
def execTicketClear (w : Writer) (addr : Nat) (x : Word) (s : State) : Outcome :=
  match regAt addr with
  | some r => if r.name.desc.tc then onReg w r x s fun c => c.wFlag r x else .next s
  | none => .next s

/-- THREAD_STOP (R321): the stop bit of SITE_THREAD_CTL[t]. -/
def execThreadStop (w : Writer) (n p t : Nat) (s : State) : Outcome :=
  onReg w { name := .siteThreadCtl, idx := [n, p, t] } 0x80000000 s fun c => c.wThreadCtl n p t 0x80000000

def execDaleRowmapWrite (w : Writer) (v d : Nat) (x : Word) (s : State) : Outcome :=
  onReg w { name := .daleRowmap, idx := [v, d] } x s fun c => c.wRowmap v d x

def execDaleSideAdd (w : Writer) (v d : Nat) (x : Word) (s : State) : Outcome :=
  onReg w { name := .daleSide, idx := [v, d] } x s fun c => c.wDaleSide v d x

def execValeBankOwnerWrite (w : Writer) (v b : Nat) (x : Word) (s : State) : Outcome :=
  onReg w { name := .valeBank, idx := [v, b] } x s fun c => c.wValeBank v b x

def execVeldImgBaseWrite (w : Writer) (n : Nat) (x : Word) (s : State) : Outcome :=
  onReg w { name := .veldImgBase, idx := [n] } x s fun c => c.wVeldImgBase n x

def execActxCreate (w : Writer) (n p a : Nat) (x : Word) (s : State) : Outcome :=
  onReg w { name := .siteActxCfg, idx := [n, p, a] } x s fun c => c.wActxCfg n p a x

def execCoreRseedLoad (w : Writer) (n p : Nat) (x : Word) (s : State) : Outcome :=
  onReg w { name := .siteCoreRseedHi, idx := [n, p] } x s fun c => c.wCoreSeed n p x

def execGuySeedLoad (w : Writer) (v : Nat) (x : Word) (s : State) : Outcome :=
  onReg w { name := .guySeedHi, idx := [v] } x s fun c => c.wSeedHi v x

/-- TABLE_GO (R199): a write of CONV_CTL with go set. -/
def execTableGo (w : Writer) (v l : Nat) (x : Word) (s : State) : Outcome :=
  onReg w { name := .convCtl, idx := [v, l] } x s fun c => c.wConvCtl v l (x ||| 0x80000000)

/-- TABLE_HALT (R199): a write of CONV_CTL with halt set. -/
def execTableHalt (w : Writer) (v l : Nat) (x : Word) (s : State) : Outcome :=
  onReg w { name := .convCtl, idx := [v, l] } x s fun c => c.wConvCtl v l (x ||| 0x40000000)

def execTrackerClear (w : Writer) (v l : Nat) (x : Word) (s : State) : Outcome :=
  onReg w { name := .convTrkClr, idx := [v, l] } x s fun c => c.wTrkClr v l x

def execHkTrackerClear (w : Writer) (k : Nat) (x : Word) (s : State) : Outcome :=
  onReg w { name := .pwrHkTrkClr, idx := [k] } x s fun c => c.wHkTrkClr k x

def execInjectRequest (w : Writer) (v l : Nat) (x : Word) (s : State) : Outcome :=
  onReg w { name := .convInj, idx := [v, l] } x s fun c => c.wConvInj v l x

def execConvSeqWrite (w : Writer) (v l e : Nat) (x : Word) (s : State) : Outcome :=
  onReg w { name := .convSeq, idx := [v, l, e] } x s fun c => c.wConvSeq v l e x

def execConvTrigWrite (w : Writer) (v k : Nat) (x : Word) (s : State) : Outcome :=
  onReg w { name := .convTrig, idx := [v, k] } x s fun c => c.wConvTrig v k x

def execHkSeqWrite (w : Writer) (e : Nat) (x : Word) (s : State) : Outcome :=
  onReg w { name := .pwrHkSeq, idx := [e] } x s fun c => c.wHkSeq e x

def execDrvChWrite (w : Writer) (v n : Nat) (x : Word) (s : State) : Outcome :=
  onReg w { name := .drvCh, idx := [v, n] } x s fun c => c.wDrvCh v n x

def execDrvPairWrite (w : Writer) (v : Nat) (x : Word) (s : State) : Outcome :=
  onReg w { name := .drvPair, idx := [v] } x s fun c => c.wDrvPair v x

def execToneCtlWrite (w : Writer) (v t : Nat) (x : Word) (s : State) : Outcome :=
  onReg w { name := .drvToneCtl, idx := [v, t] } x s fun c => c.wToneCtl v t x

/-- GUY_LOOP_WRITE (R251): the eight words of the entry. -/
def execGuyLoopWrite (w : Writer) (v n : Nat) (xs : List Word) (s : State) : Outcome :=
  onReg w { name := .guyLoop, idx := [v, n] } (xs.headD 0) s fun c =>
    if xs.length = 8 then c.wGuyLoop v n xs else (Status.badParam, c)

/-- GUY_COEF_WRITE (R252): the eight words of the set. -/
def execGuyCoefWrite (w : Writer) (v n k : Nat) (xs : List Word) (s : State) : Outcome :=
  onReg w { name := .guyCoef, idx := [v, n, k] } (xs.headD 0) s fun c =>
    if xs.length = 8 then c.wGuyCoef v n k xs else (Status.badParam, c)

/-- TEST_GO, TEST_STOP (R272): a write of GUY_TEST_CTL with go or stop set. -/
def execTestGo (w : Writer) (v : Nat) (x : Word) (s : State) : Outcome :=
  onReg w { name := .guyTestCtl, idx := [v] } x s fun c => c.wTestCtl v (x ||| 0x80000000)

def execTestStop (w : Writer) (v : Nat) (x : Word) (s : State) : Outcome :=
  onReg w { name := .guyTestCtl, idx := [v] } x s fun c => c.wTestCtl v (x ||| 0x40000000)

/-- CAPTURE_GO, CAPTURE_STOP (R273): a write of GUY_CAP_CTL with go or stop set. -/
def execCaptureGo (w : Writer) (v : Nat) (x : Word) (s : State) : Outcome :=
  onReg w { name := .guyCapCtl, idx := [v] } x s fun c => c.wCapCtl v (x ||| 0x8000000000000000)

def execCaptureStop (w : Writer) (v : Nat) (x : Word) (s : State) : Outcome :=
  onReg w { name := .guyCapCtl, idx := [v] } x s fun c => c.wCapCtl v (x ||| 0x4000000000000000)

def execTentDaleWrite (w : Writer) (k : Nat) (x : Word) (s : State) : Outcome :=
  onReg w { name := .tentDale, idx := [k] } x s fun c => c.wTentDale k x

def execTentSiteWrite (w : Writer) (i : Nat) (x : Word) (s : State) : Outcome :=
  onReg w { name := .tentSite, idx := [i] } x s fun c => c.wTentSite i x

def execWsetActiveWrite (w : Writer) (t : Nat) (x : Word) (s : State) : Outcome :=
  onReg w { name := .wsetActive, idx := [t] } x s fun c => c.wWsetActive t x

def execFhEaxcWrite (w : Writer) (k : Nat) (x0 x1 : Word) (s : State) : Outcome :=
  onReg w { name := .fhEaxc, idx := [k] } x0 s fun c => c.wFhEaxc k x0 x1

def execDecSubmit (w : Writer) (t : Nat) (x : Word) (s : State) : Outcome :=
  onReg w { name := .decSubmit, idx := [t] } x s fun c => c.wDecSubmit t x

def execDecHarqCfgWrite (w : Writer) (t : Nat) (x0 x1 : Word) (s : State) : Outcome :=
  onReg w { name := .decHarqCfg, idx := [t] } x0 s fun c => c.wHarqCfg t x0 x1

def execDecHarqClr (w : Writer) (x : Word) (s : State) : Outcome :=
  onReg w { name := .decHarqClr } x s fun c => c.wHarqClr x

def execSysMsgPost (w : Writer) (t : Nat) (x : Word) (s : State) : Outcome :=
  onReg w { name := .sysMsgPost, idx := [t] } x s fun c => c.wMsgPost t x

def execModuleIdWrite (w : Writer) (x : Word) (s : State) : Outcome :=
  onReg w { name := .passCfg } x s fun c => c.wPassCfg x

def execBoostEnWrite (w : Writer) (x : Word) (s : State) : Outcome :=
  onReg w { name := .passPort } x s fun c => c.wPassPort x

def execPassRouteWrite (w : Writer) (m : Nat) (x : Word) (s : State) : Outcome :=
  onReg w { name := .passRoute, idx := [m] } x s fun c => c.wPassRoute m x

def execPassExportWrite (w : Writer) (k : Nat) (x0 x1 : Word) (s : State) : Outcome :=
  onReg w { name := .passExport, idx := [k] } x0 s fun c => c.wPassExport k x0 x1

/-- REGISTER_WRITE (R11, R24): a write of the register at an address, all its words. -/
def Chip.registerWrite (c : Chip) (w : Writer) (addr : Nat) (xs : List Word) : Chip :=
  let y := c.regWriteAt (c.writerTent w) addr xs
  y.2.2.wReply w y.1 y.2.1

def execRegisterWrite (w : Writer) (addr : Nat) (xs : List Word) (s : State) : Outcome :=
  onUnits (writerOk w && decide (regBase ≤ addr ∧ addr < regBase + 2 ^ 32)) s fun c =>
    if c.powered then c.registerWrite w addr xs else c

end Sys2Proof.Machine
end

