-- ==== Sys2Proof/Machine/ThreadMem.lean ====
section
/-!
DEFINITION. Sys2Proof/Machine/ThreadMem.lean: memory as threads see it (R306 to R319): where an address lies and
who may reach it, exports (R312, R457), accesses performed at their home, and what their answers let a thread do.
-/

namespace Sys2Proof.Machine

/-! ### Where an address lies -/

/-- The range of the remote export windows holds the access (R22). -/
def inExports (addr len : Nat) : Bool := decide (0x900000000000 ≤ addr ∧ addr + len ≤ 0xA00000000000)

/-- The register space holds the access (R22). -/
def inRegs (addr len : Nat) : Bool := decide (regBase ≤ addr ∧ addr + len ≤ regBase + 2 ^ 32)

/-- The site store of a logical site holds the access. -/
def inStore (i addr len : Nat) : Bool := decide (storeBase i ≤ addr ∧ addr + len ≤ storeBase i + 0x8000)

/-- R457: the entry that admits an access of a module's Tent, if one does: the first valid entry whose window
range holds it whole decides. -/
def Chip.exportFor (c : Chip) (peer tent off len : Nat) (p : Perm) : Option Export :=
  let es := (List.range 64).map fun k => c.export k
  match es.find? fun e => e.valid && decide (e.off ≤ off ∧ off + len ≤ e.off + 2 ^ e.size) with
  | none => none
  | some e =>
    let perm : Bool := match p with
      | .w => e.w
      | .a => e.a
      | _ => e.r
    if (e.peer = peer ∨ e.peer = 0xFFFF) ∧ (e.peerTent = tent ∨ e.anyTent) ∧ perm then some e else none

/-- Where an access of a thread goes. -/
inductive Place where
  | fault (w : Cause)
  /-- the thread's own site store -/
  | own
  /-- the register space -/
  | regs
  /-- memory of this module, served as a Tent -/
  | home (addr tent : Nat)
  /-- an export window of another module -/
  | remote
deriving DecidableEq, Repr

/-- R308, R310, R312, R316: where an access of a thread of logical site `i` goes. -/
def Chip.place (c : Chip) (i : Nat) (p : Perm) (addr len : Nat) : Place :=
  let t := c.siteTent i
  if inStore i addr len then .own
  else if inRegs addr len then (if p = .a then .fault .atomic else .regs)
  else if inMemory addr len then (if c.admits t p addr len then .home addr t else .fault .window)
  else if inExports addr len then
    if ¬ c.admits t p addr len then .fault .window
    else if addr / 2 ^ 28 % 65536 = c.moduleId ∧ c.moduleId ≠ 0xFFFF then
      match c.exportFor c.moduleId t (addr % 2 ^ 28) len p with
      | some e =>
        let a := e.base + (addr % 2 ^ 28 - e.off)
        if inMemory a len ∨ (inRegs a len ∧ p ≠ .a) then .home a e.tent else .fault .remote
      | none => .fault .remote
    else .remote
  else .fault .unmapped

/-- The MEM grains of an access and the Tent they are charged to (R306, R457). -/
def Place.grains (x : Place) (len : Nat) : Option (Nat × List (Gate × Nat)) :=
  match x with
  | .home a t => if inGddr a then some (t, memAccess a len) else none
  | _ => none

/-! ### Performing -/

def Chip.homeLoad (c : Chip) (tent home len : Nat) : List Byte × Chip :=
  if regBase ≤ home then c.regLoad tent home len else (c.bytes home len, c)

def Chip.homeStore (c : Chip) (tent home : Nat) (bs : List Byte) : Chip :=
  if regBase ≤ home then c.regStore tent home bs else c.store home bs

/-- R324: the value an atomic of `n` bytes leaves in memory. -/
def amoValue (fn n old rb cmp : Nat) : Nat :=
  let w := 8 * n
  let o := old % 2 ^ w
  let b := rb % 2 ^ w
  match fn % 16 with
  | 0 => (o + b) % 2 ^ w
  | 1 => b
  | 2 => o &&& b
  | 3 => o ||| b
  | 4 => o ^^^ b
  | 5 => if signedOf w o < signedOf w b then b else o
  | 6 => if signedOf w b < signedOf w o then b else o
  | 7 => max o b
  | 8 => min o b
  | _ => if o = cmp % 2 ^ w then b else o

/-- R316: an atomic at its home: the old value, and memory. -/
def Chip.homeAmo (c : Chip) (home n fn rb cmp : Nat) : Nat × Chip :=
  let old := c.num home n
  (old, c.setNum home n (amoValue fn n old rb cmp))

/-! ### The instruction cache (R319) -/

/-- The line of an address, as the cache of the site's core holds it. -/
def Chip.cachedLine (c : Chip) (i pc : Nat) : Option (List Byte) :=
  ((c.siteArr i).icache.find? fun l => l.1 == pc / 64 * 64).map fun l => l.2

/-- A line enters the cache of 64 lines; where it is full, a free value picks the line that gives way (log entry
62). -/
def Chip.fillLine (c : Chip) (i line : Nat) (bs : List Byte) : Chip :=
  let n := i / 768
  let s := c.physOf i
  let old := ((c.arr n s).icache).filter fun l => l.1 != line
  if old.length < 64 then c.setArr n s { c.arr n s with icache := old ++ [(line, bs)] }
  else
    let f := c.takeFree
    let c := f.2
    c.setArr n s { c.arr n s with icache := old.eraseIdx (f.1.toNat % old.length) ++ [(line, bs)] }

def Chip.flushCache (c : Chip) (i : Nat) : Chip :=
  let n := i / 768
  let s := c.physOf i
  c.setArr n s { c.arr n s with icache := [] }

/-! ### Answers -/

/-- A store of the thread is still to be performed; `remote`: one sent to another module. -/
def Thread.storing (t : Thread) (remote : Bool) : Bool :=
  t.out.any fun a => (a.tag.isSome || !remote) && match a.kind with
    | .store _ => true
    | _ => false

/-- A thread whose stores are performed goes on (R315, R317). -/
def Chip.settleThread (c : Chip) (h : Hart) : Chip :=
  let t := c.thread h
  match t.wait with
  | .fence remote => if t.storing remote then c else c.retire h
  | .drain => if t.storing false then c else c.setThread h { t with state := 1, wait := .none }
  | _ => c

/-- The bytes of a load as a register takes them (R324). -/
def loadValue (bs : List Byte) (sgn : Bool) : Word :=
  if sgn then BitVec.ofInt 64 (signedOf (8 * bs.length) (leNat bs)) else BitVec.ofNat 64 (leNat bs)

/-- The access leaves the thread's list. -/
def Thread.answered (t : Thread) (a : Access) : Thread := { t with out := t.out.erase a }

/-- The thread's instruction answers a status in rd[7:0], bits [63:8] zero, and retires. -/
def Chip.answerStatus (c : Chip) (h : Hart) (rd status : Nat) : Chip :=
  (c.mapThread h fun t => t.setX rd (BitVec.ofNat 64 status)).retire h

/-- R329: SPAWN with the 24 bytes of its record. -/
def Chip.spawnRecord (c : Chip) (h : Hart) (rd : Nat) (bs : List Byte) : Chip :=
  let word (k n : Nat) : Nat := leNat ((bs.drop k).take n)
  let i := if word 0 4 = 0xFFFFFFFF then h.i else word 0 4
  let st : Start := { pc := word 8 8, arg := BitVec.ofNat 64 (word 16 8), src := BitVec.ofNat 64 (8 * h.i + h.t) }
  if word 4 4 ≠ 0 then c.answerStatus h rd Status.badParam
  else
    let r := c.requestStart (c.siteTent h.i) i st
    r.2.answerStatus h rd r.1

/-- R332: DENQ with the 128 bytes of its descriptor and the address of its completion record. -/
def Chip.denqRecord (c : Chip) (h : Hart) (rd : Nat) (compl : Word) (bs : List Byte) : Chip :=
  if compl.toNat % 32 ≠ 0 then c.answerStatus h rd Status.badParam
  else
    let r := c.enqueueDale { tent := c.siteTent h.i, compl := some compl.toNat, desc := wordsOfBytes 16 bs }
    r.2.answerStatus h rd r.1

/-- An access is answered with the bytes read, or the old value of an atomic. -/
def Chip.accessDone (c : Chip) (h : Hart) (a : Access) (data : List Byte) : Chip :=
  let t := (c.thread h).answered a
  match a.kind with
  | .load rd _ sgn => (c.setThread h (t.setX rd (loadValue data sgn))).retire h
  | .vload vd => (c.setThread h (t.setV vd (BitVec.ofNat 128 (leNat data)))).retire h
  | .amo rd _ n _ _ => (c.setThread h (t.setX rd (loadValue (data.take n) false))).retire h
  | .store _ => (c.setThread h t).settleThread h
  | .spawn rd => (c.setThread h t).spawnRecord h rd data
  | .denq rd compl => (c.setThread h t).denqRecord h rd compl data
  | .watch =>
    let x := BitVec.ofNat 64 (leNat data)
    match t.wait with
    | .watch rd addr old _ timed =>
      if x = old then c.setThread h { t with wait := .watch rd addr old x timed }
      else (c.setThread h (t.setX rd x)).retire h
    | _ => c.setThread h t
  | .fill =>
    let c := (c.setThread h t).fillLine h.i a.addr data
    if t.wait = .issue then c.setThread h { t with state := 1, wait := .none } else c

/-- R312, R456: an access fails at another module: a store that has retired faults at the thread's next
instruction, any other faults now. -/
def Chip.accessFailed (c : Chip) (h : Hart) (a : Access) : Chip :=
  let t := (c.thread h).answered a
  match a.kind with
  | .store _ => (c.setThread h { t with late := some a.addr }).settleThread h
  | _ => (c.setThread h t).threadFault h .remote a.addr

/-- Two accesses share a byte. -/
def Access.meets (a b : Access) : Bool := decide (a.home < b.home + b.len ∧ b.home < a.home + a.len)

/-- An access is performed at its home in this module, and answered. -/
def Chip.performAccess (c : Chip) (h : Hart) (a : Access) : Chip :=
  match a.kind with
  | .store bs => (c.homeStore a.tent a.home bs).accessDone h a []
  | .amo _ fn n rb cmp =>
    let y := c.homeAmo a.home n fn rb.toNat cmp.toNat
    y.2.accessDone h a (leBytes n y.1)
  | _ =>
    let y := c.homeLoad a.tent a.home a.len
    y.2.accessDone h a y.1

/-- MEM_ACCESS_RESPONSE (R306, R313, R314): the home of the thread's `n`-th outstanding access performs it; it
comes after the accesses before it to the same bytes. -/
def Chip.memResponse (c : Chip) (h : Hart) (n : Nat) : Chip :=
  let t := c.thread h
  match t.out[n]? with
  | none => c
  | some a =>
    if a.tag.isSome ∨ (t.out.take n).any (fun b => b.tag.isNone && b.meets a) then c
    else c.performAccess h a

def execMemAccessResponse (h : Hart) (n : Nat) (s : State) : Outcome :=
  onUnits h.ok s fun c => c.memResponse h n

/-- A thread sends an access to another module (R456): none where it cannot be reached. -/
def Chip.sendAccess (c : Chip) (h : Hart) (k : AccessKind) (addr len : Nat) : Option Chip :=
  let w : Nat × Nat × List Byte := match k with
    | .store bs => (0, 0, bs)
    | .amo _ fn _ rb cmp => (3, fn, leBytes 8 rb.toNat ++ leBytes 8 cmp.toNat)
    | _ => (1, 0, [])
  match c.remoteRequest (.thread h) (c.siteTent h.i) addr w.1 (if w.1 = 3 then 16 else len) w.2.1 w.2.2 with
  | none => none
  | some (tag, c) =>
    let t := c.thread h
    some (c.setThread h { t with out := t.out ++
      [{ kind := k, addr := addr, len := len, home := addr, tent := c.siteTent h.i, tag := some tag }] })

end Sys2Proof.Machine
end

