-- ==== Sys2Proof/Machine/PassServe.lean ====
section
/-!
DEFINITION. Sys2Proof/Machine/PassServe.lean: frames that sinks receive (R446, R447, R451 to R458), requests served
for other modules (R457), the answers to this module's own (R456), and MEM_READ and MEM_WRITE (R423).
-/

namespace Sys2Proof.Machine

/-! ### Forwarding (R455, R458) -/

/-- A frame R455 drops. -/
def Chip.dropRegen (c : Chip) : Chip := c.dropFrame.ev .passEvDrop

/-- R455: a frame for another module is sent on. -/
def Chip.regenerate (c : Chip) (f : PassFrame) : Chip :=
  match c.routeLane f.dest (frameOffset f) with
  | none => c.dropRegen
  | some lane =>
    if 7 ≤ f.hop then c.dropRegen
    else (c.sendOn lane { f with hop := f.hop + 1 }).count Fld.passStat_regen []

/-- R458: a broadcast frame is sent on along its group's entry and offered to loads where the entry says so. -/
def Chip.bcastFrame (c : Chip) (f : PassFrame) : Chip :=
  let g := bitsOf f.addr.toNat 55 48
  let x := (c.get { name := .passBcast, idx := [g] }).toNat
  let c := if ¬ bitOf x 31 then c else if 7 ≤ f.hop then c.dropRegen else c.bcastOn g f false
  if ¬ f.crcOk then c.dropFrame
  else if bitOf x 30 then c.offerPiece f.tag (bitsOf f.addr.toNat 47 32) (bitsOf f.addr.toNat 31 0) f.payload
  else c

/-! ### Serving (R457) -/

/-- The answer to a request: RDATA, ARESP or WACK (R451), on the route to the module that asked. -/
def Chip.answerFrame (c : Chip) (f : PassFrame) (status : Nat) (payload : List Byte) : Chip :=
  let kind := match f.kind with
    | 0 => 5
    | 1 => 2
    | _ => 4
  match c.routeLane f.source 0 with
  | none => c
  | some lane => c.sendOn lane { dest := f.source, source := c.moduleId, tent := f.tent, kind := kind, hop := 0,
                                 length := payload.length, addr := 0, tag := f.tag, status := status,
                                 payload := payload, crcOk := true }

/-- Bytes an atomic of fn works on (R324). -/
def amoBytes (fn : Nat) : Nat := if bitOf fn 4 then 8 else 4

/-- The length of the access a request asks for. -/
def frameLen (f : PassFrame) : Nat :=
  match f.kind with
  | 0 => f.payload.length
  | 1 => f.length
  | _ => amoBytes f.status

/-- A MEM_READ or MEM_WRITE, or a request of another module, is performed at a local address and answered. -/
def Chip.doServe (c : Chip) (s : Serve) : Chip :=
  match s.who with
  | .frame f =>
    match f.kind with
    | 0 => (c.homeStore s.tent s.addr f.payload).answerFrame f Status.ok []
    | 1 =>
      let y := c.homeLoad s.tent s.addr s.len
      y.2.answerFrame f Status.ok y.1
    | _ =>
      let y := c.homeAmo s.addr s.len f.status (leNat (f.payload.take 8)) (leNat ((f.payload.drop 8).take 8))
      y.2.answerFrame f Status.ok (leBytes 8 y.1)
  | .cmd op m =>
    if op = 0x0E03 then
      let y := c.homeLoad s.tent s.addr s.len
      y.2.finish op m Status.ok 0 (wordsOfBytes ((s.len + 7) / 8) y.1)
    else
      let bs := ((m.words.drop 1).flatMap fun w => leBytes 8 w.toNat).take s.len
      (c.homeStore s.tent s.addr bs).finish op m Status.ok

/-- An access waits behind an older one: to the same bytes (R313), or of its Tent at its quadrant (R44). -/
def Serve.after (s x : Serve) : Bool :=
  decide (x.addr < s.addr + s.len ∧ s.addr < x.addr + x.len) ||
    ((serveGate s).isSome && serveGate x == serveGate s && x.tent == s.tent)

/-- An access is served for the local Tent of its entry, or joins those that wait. -/
def Chip.serve (c : Chip) (s : Serve) : Chip :=
  let late (c : Chip) : Chip := { c with passes := { c.passes with serves := c.passes.serves ++ [s] } }
  if c.passes.serves.any s.after then late c
  else
    let y := c.admitAll s.tent (memAccess s.addr s.len)
    if y.2 then y.1.doServe s else late y.1

/-- A waiting access is offered again; it keeps its place where it waits on. -/
def Chip.serveAgain (c : Chip) (s : Serve) : Chip :=
  if (c.passes.serves.takeWhile fun x => x != s).any s.after then c
  else
    let y := c.admitAll s.tent (memAccess s.addr s.len)
    if y.2 then
      ({ y.1 with passes := { y.1.passes with serves := y.1.passes.serves.erase s } } : Chip).doServe s
    else y.1

/-- The accesses that wait are offered again: at each quadrant round-robin by Tent (R43), then those that only wait
behind another. -/
def Chip.serveRetry (c : Chip) : Chip :=
  let c := (List.range 4).foldl (fun c q =>
    let mine := c.passes.serves.filter fun s => serveGate s == some (.quad q)
    (turnOrder Serve.tent mine.length (c.servedLast (.quad q)) mine).foldl Chip.serveAgain c) c
  (c.passes.serves.filter fun s => (serveGate s).isNone).foldl Chip.serveAgain c

/-- R457: a request of another module. -/
def Chip.serveFrame (c : Chip) (f : PassFrame) : Chip :=
  let off := bitsOf f.addr.toNat 27 0
  let len := frameLen f
  let perm : Perm := if f.kind = 0 then .w else if f.kind = 1 then .r else .a
  if len = 0 ∨ 4096 < len ∨ (f.kind = 3 ∧ (off % len ≠ 0 ∨ 9 < f.status % 16)) then
    c.answerFrame f Status.badParam []
  else match c.exportFor f.source f.tent off len perm with
    | none => c.answerFrame f Status.notPermitted []
    | some e =>
      let a := e.base + (off - e.off)
      if inMemory a len ∨ (inRegs a len ∧ f.kind ≠ 3) then
        c.serve { who := .frame f, addr := a, len := len, tent := e.tent }
      else c.answerFrame f Status.notPermitted []

/-! ### Answers (R456) -/

/-- The status of a command whose remote access got no answer or has no route: the spec names none (log entry 63):
any but OK. -/
def Chip.failCmd (c : Chip) (op : Nat) (m : Cmd) : Chip :=
  let f := c.takeFree
  f.2.finish op m (1 + f.1.toNat % 255)

/-- The thread's access that a frame with a tag carried. -/
def Chip.taggedAccess (c : Chip) (h : Hart) (tag : Nat) : Option Access :=
  (c.thread h).out.find? fun a => a.tag == some tag

/-- A remote access ends without an answer. -/
def Chip.failRemote (c : Chip) (r : Remote) : Chip :=
  match r.who with
  | .thread h => match c.taggedAccess h r.frame.tag with
    | some a => c.accessFailed h a
    | none => c
  | .mem op m => c.failCmd op m

def Chip.dropRemote (c : Chip) (r : Remote) : Chip :=
  { c with passes := { c.passes with remotes := c.passes.remotes.erase r } }

/-- An answer arrives: its request ends; one that nothing waits for is dropped. -/
def Chip.answered (c : Chip) (f : PassFrame) : Chip :=
  let asked := match f.kind with
    | 2 => 1
    | 4 => 3
    | _ => 0
  match c.passes.remotes.find? fun r => r.sent && r.frame.tag == f.tag && r.frame.kind == asked &&
      r.frame.dest == f.source with
  | none => c
  | some r =>
    let c := c.dropRemote r
    match r.who with
    | .thread h => match c.taggedAccess h f.tag with
      | some a => if f.status = Status.ok then c.accessDone h a f.payload else c.accessFailed h a
      | none => c
    | .mem op m =>
      if f.status = Status.ok ∧ op = 0x0E03 then
        c.finish op m Status.ok 0 (wordsOfBytes ((f.payload.length + 7) / 8) f.payload)
      else c.finish op m f.status

/-- REMOTE_TIMEOUT (R456). -/
def Chip.remoteTimeout (c : Chip) (tag : Nat) : Chip :=
  match c.passes.remotes.find? fun r => r.sent && r.frame.tag == tag with
  | none => c
  | some r => ((c.dropRemote r).failRemote r).ev .passEvRemote

def execRemoteTimeout (tag : Nat) (s : State) : Outcome := onChip s fun c => c.remoteTimeout tag

/-- SINK_FRAME_RECEIVE (R446, R447, R451, R452, R455, R457, R458). -/
def Chip.sinkFrame (c : Chip) (n : Nat) (f : PassFrame) : Chip :=
  let st := c.f Fld.passRx_state [n]
  let c := c.setSink n { c.sink n with hunting := false }
  if f.kind = 7 ∧ (st = 1 ∨ st = 2) then c.sinkTag n f
  else if st ≠ 2 ∨ c.moduleId = 0xFFFF then c.dropFrame
  else if f.kind = 6 then c.bcastFrame f
  else if f.dest ≠ c.moduleId then (if f.dest = 0xFFFF then c.dropFrame else c.regenerate f)
  else if ¬ f.crcOk then c.dropFrame
  else match f.kind with
    | 0 => c.serveFrame f
    | 1 => c.serveFrame f
    | 3 => c.serveFrame f
    | _ => c.answered f

def execSinkFrameReceive (n : Nat) (f : PassFrame) (s : State) : Outcome :=
  onUnits (sinkOk n) s fun c => c.sinkFrame n f

/-! ### MEM_READ and MEM_WRITE (R423) -/

/-- MEM_READ (0x0E03) and MEM_WRITE (0x0E04). -/
def Chip.hwMem (c : Chip) (op : Nat) (m : Cmd) : Chip :=
  let a := m.p
  let len := m.word 1
  let write := op == 0x0E04
  let p : Perm := if write then .w else .r
  if 2 ^ 48 ≤ a ∨ len = 0 ∨ 4096 < len ∨ (write ∧ m.words.length ≠ 1 + (len + 7) / 8) ∨
      ¬ (inMemory a len ∨ inExports a len) then c.finish op m Status.badParam
  else if ¬ c.admits m.tent p a len then c.finish op m Status.notPermitted
  else if inMemory a len then c.serve { who := .cmd op m, addr := a, len := len, tent := m.tent }
  else if a / 2 ^ 28 % 65536 = c.moduleId ∧ c.moduleId ≠ 0xFFFF then
    match c.exportFor c.moduleId m.tent (a % 2 ^ 28) len p with
    | none => c.finish op m Status.notPermitted
    | some e =>
      let home := e.base + (a % 2 ^ 28 - e.off)
      if inMemory home len ∨ inRegs home len then c.serve { who := .cmd op m, addr := home, len := len, tent := e.tent }
      else c.finish op m Status.notPermitted
  else
    let bs := if write then ((m.words.drop 1).flatMap fun w => leBytes 8 w.toNat).take len else []
    match c.remoteRequest (.mem op m) m.tent a (if write then 0 else 1) len 0 bs with
    | some y => y.2
    | none => c.failCmd op m

def execMemRead (m : Cmd) (s : State) : Outcome :=
  onHost m s fun c => c.hwReceive 0x0E03 m fun c => c.hwMem 0x0E03 m

def execMemWrite (m : Cmd) (s : State) : Outcome :=
  onHost m s fun c => c.hwReceive 0x0E04 m fun c => c.hwMem 0x0E04 m

end Sys2Proof.Machine
end

