-- ==== Sys2Proof/Machine/MpServe.lean ====
section
/-!
DEFINITION. Sys2Proof/Machine/MpServe.lean: the MP serves the commands that waited in its queues (R418), and a
frame boundary as it reaches a gate (R37, R41, R44).
-/

namespace Sys2Proof.Machine

/-- R421: what the MP does for an opcode of its path. -/
def Chip.mpBody (c : Chip) (k : Cairn) (x : MpItem) : Chip :=
  let m := x.cmd
  match x.op with
  | 0x0101 => c.mpSysInfo m
  | 0x0103 => c.mpDrain m
  | 0x0104 => c.mpResume m
  | 0x0201 =>
    let act := bitsOf m.p 9 8
    if act = 1 then c.mpTentCtl m 1 Chip.openTent
    else if act = 2 then c.mpTentCtl m 2 Chip.quiesceTent
    else c.mpTentCtl m 3 Chip.closeTent
  | 0x0202 => c.mpTentDales m
  | 0x0203 => c.mpTentSites m
  | 0x0204 => c.mpTentWindows m
  | 0x0205 => c.mpTentBudget m
  | 0x0301 => c.mpWsetLoad m
  | 0x0302 => c.mpWsetPoint m
  | 0x0303 => c.mpWsetRelease m
  | 0x0304 => c.mpImageLoad m
  | 0x0501 => c.mpCalExport m
  | 0x0502 => c.mpCalImport m (x.meas.map Int.toNat)
  | 0x0503 => c.mpCalRun m x.meas
  | 0x0601 => c.mpGuyLoop m
  | 0x0602 => c.mpGuyCoef m
  | 0x0603 => c.mpGuyStd m
  | 0x0701 => c.mpConvInject m
  | 0x0702 => c.mpConvTable m
  | 0x0801 => c.mpDrvCh m
  | 0x0802 => c.mpDrvXt m
  | 0x0901 => c.mpThermalRelease m
  | 0x0902 => c.mpThmRecord m
  | 0x0903 => c.mpPwrBudget m
  | 0x0A01 => c.mpPassOpen m
  | 0x0A02 => c.mpPassClose m
  | 0x0A03 => c.mpPassExport m
  | 0x0A04 => c.mpPassRoute m
  | 0x0C01 => c.mpAttest m
  | 0x0C02 => c.mpKeyInstall m
  | 0x0C03 => c.mpKeyRemove m
  | 0x0C04 => c.mpFwLoad m
  | 0x0C05 => c.mpFwSwitch m
  | 0x0D01 => c.mpCairnIdent m
  | 0x0D02 => c.mpCairnRecords k m
  | 0x0D03 => c.mpCairnEvents k m
  | _ => c

/-- The Tent whose queue the MP turns to: the first, after the one served last, that has a command and whose slice
is admitted (R41, R43); those that are not admitted wait. -/
def Chip.mpTurn (c : Chip) : List Nat → Chip × Option Nat
  | [] => (c, none)
  | t :: ts =>
    if (c.mpQueue t).isEmpty then Chip.mpTurn c ts
    else match c.spend .mp t mpSlice with
      | some c => (c, some t)
      | none => Chip.mpTurn (c.wait .mp t mpSlice false) ts

/-- R418: the MP serves its queues round-robin by Tent while their slices are admitted and no restart stands before them
(R507). `n` bounds the commands. -/
def Chip.mpServe : Nat → Chip → Cairn → Chip
  | 0, c, _ => c
  | n + 1, c, k =>
    if c.boot.switching.isSome then c
    else match c.mpTurn ((List.range 64).map fun d => (c.servedLast .mp + 1 + d) % 64) with
    | (c, none) => c
    | (c, some t) =>
      match c.mpQueue t with
      | [] => c
      | x :: rest => Chip.mpServe n (((c.setMpQueue t rest).mpTaken t).mpBody k x) k

/-- Threads that wait for allowance may issue again. -/
def Chip.wakeIssue (c : Chip) (which : Nat → Bool) : Chip :=
  c.cores.foldl (fun c p => if which p.1 then
      (siteHarts p.1).foldl (fun c h =>
        let t := c.thread h
        if t.state = 2 ∧ t.wait = .issue ∧ ¬ (t.out.any fun a => a.kind == .fill) then
          c.setThread h { t with state := 1, wait := .none }
        else c) c
    else c) c

/-- What waits for MEM allowance or for the credits of a quadrant is offered again: served accesses, rows of Dales,
threads. -/
def Chip.quadRetry (c : Chip) : Chip :=
  ((List.range 144).foldl Chip.retryRows c.serveRetry).wakeIssue fun _ => true

/-- GATE_FRAME_CHANGE (R37, R41, R44): a boundary reaches a gate, and what waits there is offered again. -/
def Chip.gateChange (c : Chip) (k : Cairn) (g : Gate) : Chip :=
  if c.seenOf g = c.bud.frame then c
  else
    let c := c.gateBoundary g
    match g with
    | .array i => c.nextStep i
    | .core i => c.wakeIssue fun j => j == i
    | .quad _ => c.quadRetry.meetBoundary g
    | .pass p => (c.passRetry p).meetBoundary g
    | .mp => Chip.mpServe ((c.mpq.map fun q => q.2.length).sum) c.settleSwitch k
    | _ => c

def execGateFrameChange (g : Gate) (s : State) : Outcome :=
  onUnits (gateExists g) s fun c => if c.powered then c.gateChange s.cairn g else c

/-! ### Grants of the current arbiter -/

/-- What a grant lets its asker do (R52). -/
def Chip.granted1 (c : Chip) (a : Asker) : Chip :=
  match a with
  | .dale k =>
    let c := c.setDale k { c.dale k with active := true }
    match (c.dale k).run with
    | some r =>
      let c := { c with bud := { c.bud with
        waiting := c.bud.waiting.filter fun w => !(w.gate == .dale k && w.tent == r.job.tent && w.credit) } }
      if r.phase = .credit then c.prepareRun k else c
    | none => c
  | .reading n =>
    let v := c.veld n
    let c := c.setVeld n { v with reads := v.reads + 1 }
    let mine := (c.bud.waiting.filter fun w => w.credit && w.job.isNone && (match w.gate with
      | .array i => i / 768 == n
      | _ => false))
    let c : Chip := { c with bud := { c.bud with waiting := c.bud.waiting.filter fun w => !mine.contains w } }
    mine.foldl (fun c w => match w.gate with
      | .array i => c.nextStep i
      | _ => c) c
  | .program n s =>
    let v := c.veld n
    let c := c.setVeld n { v with pairs := v.pairs + 1 }
    match c.prog n s with
    | some p => c.creditMet p.gate (some (progJob n))
    | none => c
  | .quarter q =>
    -- what waited for it waits for pitch alone, and is offered again
    let ws := c.bud.waiting.map fun w => if w.gate = .quad q then { w with credit := false } else w
    ({ c with bud := { c.bud with waiting := ws } } : Chip).quadRetry
  | .decoder => { c with decCredit := c.decCredit + 1 }
  | .encoder => { c with encCredit := c.encCredit + 1 }
  | .booster k =>
    let on := c.f Fld.passPort_boostOn
    if bitOf on k then c else c.setF Fld.passPort_boostOn [] (on + 2 ^ k)

/-- CREDIT_GRANT (R50, R52 to R54, R469): the arbiter grants the first waiting request that fits; the thermal
model forecasts the step before the asker goes on. -/
def Chip.creditGrant (c : Chip) : Chip :=
  match firstFit c.fits c.bud.requests with
  | none => c
  | some r =>
    let c : Chip := { c with bud := { c.bud with requests := passOver r c.bud.requests } }
    let c := (c.addCredits r.group r.step).grantForecast r.group r.step
    (c.answerCredits r.who Status.ok).granted1 r.who

def execCreditGrant (s : State) : Outcome := onChip s Chip.creditGrant

end Sys2Proof.Machine
end

