-- ==== Sys2Proof/Machine/Ports.lean ====
section
/-!
DEFINITION. Sys2Proof/Machine/Ports.lean: the test port (R536, R537) and the Lantern sideband (R538).
-/

namespace Sys2Proof.Machine

/-! ### JTAG (R536, R537) -/

/-- A register of captured bits, the one next to JTAG_TDO first, while bits are shifted in: what comes out, and what
it holds then. -/
def shiftBits (captured tdi : List Bool) : List Bool × List Bool :=
  ((captured ++ tdi).take tdi.length, (captured ++ tdi).drop tdi.length)

/-- The bits of IDCODE, bit 0 first. -/
def idcode : List Bool := (List.range 32).map fun i => bitOf 0x1480053B i

/-- Bits leave on JTAG_TDO. -/
def Chip.tdo (c : Chip) (bits : List Bool) : Chip := { c with outs := c.outs ++ [.tdo bits] }

/-- An instruction through the bypass register; `driven`: 0 the lands work as in service, 1 the boundary latch
drives them, 2 they are high-impedance. -/
def Chip.bypass (c : Chip) (tdi : List Bool) (driven : Nat) : Chip :=
  let c : Chip := { c with boot := { c.boot with driven := driven } }
  c.tdo (shiftBits [false] tdi).1

/-- The port is powered with Basecamp (R535). -/
def onPort (s : State) (f : Chip → Chip) : Outcome := onChip s fun c => if c.powered then f c else c

def execBypass (tdi : List Bool) (s : State) : Outcome := onPort s fun c => c.bypass tdi 0

def execIdcode (tdi : List Bool) (s : State) : Outcome :=
  onPort s fun c =>
    let c : Chip := { c with boot := { c.boot with driven := 0 } }
    c.tdo (shiftBits idcode tdi).1

/-- The boundary chain captures the lands, `pins` from JTAG_TDO's end on, and takes the bits shifted in. -/
def Chip.boundaryScan (c : Chip) (tdi pins : List Bool) (driven : Nat) : Chip :=
  let r := shiftBits pins tdi
  let c : Chip := { c with boot := { c.boot with boundary := r.2, driven := driven } }
  c.tdo r.1

def execSamplePreload (tdi pins : List Bool) (s : State) : Outcome := onPort s fun c => c.boundaryScan tdi pins 0

/-- R537: EXTEST, CLAMP and HIGHZ take effect only where JTAG_TEN was high at this start. -/
def execExtest (tdi pins : List Bool) (s : State) : Outcome :=
  onPort s fun c => if c.boot.testStop then c.boundaryScan tdi pins 1 else c.bypass tdi 0

def execClamp (tdi : List Bool) (s : State) : Outcome :=
  onPort s fun c => c.bypass tdi (if c.boot.testStop then 1 else 0)

def execHighz (tdi : List Bool) (s : State) : Outcome :=
  onPort s fun c => c.bypass tdi (if c.boot.testStop then 2 else 0)

/-! ### The Lantern sideband (R538) -/

/-- The data an opcode byte asks for. -/
def Chip.sideData (c : Chip) (op : Nat) : List Byte :=
  let word (n : RegName) (len : Nat) : List Byte := leBytes len (c.get { name := n }).toNat
  if op = 1 then [BitVec.ofNat 8 (stateCode c.device)]
  else if op = 2 then word .lantCmp 4
  else if op = 3 then word .lantSec 8
  else if op = 4 then word .lantSub 4
  else if op = 5 then word .lantRecHead 4
  else if 0x10 ≤ op ∧ op ≤ 0x2F then
    leBytes 8 (c.get { name := .lantRec, idx := [op - 0x10] }).toNat ++
      leBytes 8 (c.get { name := .lantRec, idx := [op - 0x10], w := 1 }).toNat
  else []

/-- The answer: opcode, length, data, checksum. -/
def Chip.sideAnswer (c : Chip) (op : Byte) : List Byte :=
  let d := c.sideData op.toNat
  let bs := op :: BitVec.ofNat 8 d.length :: d
  bs ++ [BitVec.ofNat 8 (bs.map BitVec.toNat).sum]

/-- SIDEBAND_REQUEST: served whenever the Lantern runs from the input. -/
def execSidebandRequest (op : Byte) (s : State) : Outcome :=
  onChip s fun c =>
    if c.device = .off ∨ c.boot.backup then c else { c with outs := c.outs ++ [.uart (c.sideAnswer op)] }

end Sys2Proof.Machine
end

