-- ==== Sys2Proof/Machine/Threads.lean ====
section
/-!
DEFINITION. Sys2Proof/Machine/Threads.lean: how a thread issues an instruction (R303, R306, R310, R317, R319, R320,
R323) and what the instructions that touch memory, the array, the Dales and other threads do (R315, R316, R329 to
R335).
-/

namespace Sys2Proof.Machine

/-! ### Issue -/

/-- R303: the core's READY threads issue in turn by index, from the one after the thread that issued last. -/
def Chip.turn (c : Chip) (h : Hart) : Bool :=
  (((List.range 8).map fun d => ((c.core h.i).last + 1 + d) % 8).find? fun t =>
    (c.thread { i := h.i, t := t }).state == 1) == some h.t

/-- The thread waits in STALL. -/
def Chip.stall (c : Chip) (h : Hart) (w : ThreadWait) : Chip :=
  c.mapThread h fun t => { t with state := 2, wait := w }

/-- A grain with the Tent it is charged to. -/
abbrev Charge := Nat × Gate × Nat

/-- Grains that are all admitted, or none: then the first that is not waits. `c0` is the device before any was
charged, `job` the gate they belong to. -/
def Chip.admitCharges (c0 : Chip) (job : Gate) : List Charge → Chip → Chip × Bool
  | [], c => (c, true)
  | (t, g, q) :: cs, c =>
    let own : Option Gate := if g = job then none else some job
    match c.spend g t q own with
    | some c => Chip.admitCharges c0 job cs c
    | none => (c0.waitGrain g t q own, false)

/-- The MEM grains of an access (R306): none for a place outside GDDR7. -/
def Place.charges (x : Place) (len : Nat) : List Charge :=
  match x.grains len with
  | none => []
  | some (t, gs) => gs.map fun g => (t, g.1, g.2)

/-- What a thread's fetch gives. -/
inductive Fetched where
  | fault (w : Cause)
  /-- the word; where its line was not in the cache, the line, and the grains of its fill -/
  | word (w : BitVec 32) (fill : Option (List Byte)) (need : List Charge)
  /-- the line must come from another module -/
  | away
deriving DecidableEq, Repr

/-- The word at an address in its 64-byte line. -/
def wordIn (line : List Byte) (pc : Nat) : BitVec 32 := BitVec.ofNat 32 (leNat ((line.drop (pc % 64)).take 4))

/-- R310, R312, R319: a thread fetches its instruction. -/
def Chip.fetch (c : Chip) (h : Hart) : Fetched :=
  let pc := (c.thread h).pc
  let filled (line : List Byte) (need : List Charge) : Fetched := .word (wordIn line pc) (some line) need
  let cached := c.cachedLine h.i pc
  let place := c.place h.i .x pc 4
  match place, cached with
  | .fault .window, _ => .fault .fetch
  | .fault w, _ => .fault w
  | .regs, _ => .fault .fetch
  | _, some line => .word (wordIn line pc) none []
  | .own, none => filled (c.bytes (pc / 64 * 64) 64) []
  | .home a _, none =>
    if regBase ≤ a then .fault .fetch else filled (c.bytes (a - pc % 64) 64) (place.charges 64)
  | .remote, none => .away

/-- R44, R303: the instruction issues once its CORE grain and the MEM grains it needs are admitted; else the thread
waits for allowance in STALL. -/
def Chip.charged (c : Chip) (h : Hart) (need : List Charge) (fill : Option (List Byte)) (body : Chip → Chip) : Chip :=
  let r := c.admitCharges (.core h.i) ((c.siteTent h.i, .core h.i, 1) :: need) c
  if r.2 then
    let c := r.1
    let c := match fill with
      | some line => c.fillLine h.i ((c.thread h).pc / 64 * 64) line
      | none => c
    body (c.setCore h.i { c.core h.i with last := h.t })
  else r.1.stall h .issue

/-- An access an instruction makes: the permission it needs, its address and length. -/
structure Touch where
  perm : Perm
  addr : Nat
  len  : Nat
deriving DecidableEq, Repr

/-- The grains of an access; one that is misaligned makes none. -/
def Chip.touchCharges (c : Chip) (h : Hart) : Option Touch → List Charge
  | none => []
  | some x => (c.place h.i x.perm x.addr x.len).charges x.len

/-- A thread issues the instruction of a row whose word is `w`: nothing happens unless the thread is READY, has its
turn and has fetched that word. `release` holds for an instruction that comes after the thread's earlier stores
(R317), `touch` is the access it makes. -/
def Chip.issue (c : Chip) (h : Hart) (w : BitVec 32) (release : Bool) (touch : Option Touch) (body : Chip → Chip) :
    Chip :=
  let t := c.thread h
  if ¬ c.powered ∨ t.state ≠ 1 ∨ ¬ c.turn h then c
  else match t.late with
  | some a =>
    c.charged h [] none fun c => (c.mapThread h fun t => { t with late := none }).threadFault h .remote a
  | none => match c.fetch h with
    | .fault x => c.charged h [] none fun c => c.threadFault h x t.pc
    | .away => match c.sendAccess h .fill (t.pc / 64 * 64) 64 with
      | some c => c.stall h .issue
      | none => c.charged h [] none fun c => c.threadFault h .remote t.pc
    | .word x fill need =>
      if x ≠ w then c
      else if (decodeThread h w).isNone then c.charged h need fill fun c => c.threadFault h .illegal 0
      else if release ∧ t.storing false then c.stall h .drain
      else c.charged h (need ++ c.touchCharges h touch) fill body

/-- A thread instruction: the thread exists, and its row's word is the one the codes of R324 give. -/
def onThread (h : Hart) (i : Instr) (s : State) (body : Chip → Chip) (release : Bool := false)
    (touch : Chip → Option Touch := fun _ => none) : Outcome :=
  onUnits h.ok s fun c => match encodeThread i with
    | some w => c.issue h w release (touch c) body
    | none => c

/-- ILLEGAL_INSTRUCTION (R323): the thread issues a word that decodes to no instruction. -/
def execIllegalInstruction (h : Hart) (w : BitVec 32) (s : State) : Outcome :=
  onUnits h.ok s fun c => if (decodeThread h w).isNone then c.issue h w false none id else c

/-! ### Reading operands -/

def Chip.x (c : Chip) (h : Hart) (r : BitVec 5) : Word := (c.thread h).getX r.toNat

def Chip.setXr (c : Chip) (h : Hart) (r : BitVec 5) (x : Word) : Chip := c.mapThread h fun t => t.setX r.toNat x

/-- A signed field times a step, added to a register: an address of 64 bits. -/
def Chip.addrOf (c : Chip) (h : Hart) (ra : BitVec 5) {n : Nat} (off : BitVec n) (unit : Int := 1) : Nat :=
  (c.x h ra + BitVec.ofInt 64 (off.toInt * unit)).toNat

/-! ### Accesses -/

def AccessKind.isStore : AccessKind → Bool
  | .store _ => true
  | _ => false

/-- An access of an issued instruction (R306, R308, R310 to R314, R316): it faults, is performed at once in the
thread's own store and in the register space, or goes on its way: a store retires, any other waits for its answer
in STALL. -/
def Chip.access (c : Chip) (h : Hart) (k : AccessKind) (p : Perm) (addr len align : Nat) : Chip :=
  let here (c : Chip) : Chip :=
    let c := c.performAccess h { kind := k, addr := addr, len := len, home := addr, tent := c.siteTent h.i }
    if k.isStore then c.retire h else c
  let away (c : Chip) : Chip := if k.isStore then c.retire h else c.stall h .memory
  if addr % align ≠ 0 then c.threadFault h .misaligned addr
  else match c.place h.i p addr len with
    | .fault w => c.threadFault h w addr
    | .own => here c
    | .regs => here c
    | .home a tent =>
      away (c.mapThread h fun t => { t with out := t.out ++
        [{ kind := k, addr := addr, len := len, home := a, tent := tent }] })
    | .remote => match c.sendAccess h k addr len with
      | some c => away c
      | none => c.threadFault h .remote addr

/-- A load, store or atomic of a thread, its MEM grains charged with its issue. -/
def onAccess (h : Hart) (i : Instr) (s : State) (k : Chip → AccessKind) (p : Perm) (addr : Chip → Nat)
    (len align : Nat) (release : Bool := false) : Outcome :=
  onThread h i s (fun c => c.access h (k c) p (addr c) len align) release
    fun c => if addr c % align ≠ 0 then none else some { perm := p, addr := addr c, len := len }

/-- A load of `n` bytes at ra + imm16 (R324). -/
def onLoad (h : Hart) (i : Instr) (rd ra : BitVec 5) (imm : BitVec 16) (n : Nat) (sgn : Bool) (s : State) : Outcome :=
  onAccess h i s (fun _ => .load rd.toNat n sgn) .r (fun c => c.addrOf h ra imm) n n

/-- A store of the low `n` bytes of rb at ra + imm16 (R324). -/
def onStore (h : Hart) (i : Instr) (rb ra : BitVec 5) (imm : BitVec 16) (n : Nat) (s : State) : Outcome :=
  onAccess h i s (fun c => .store (leBytes n (c.x h rb).toNat)) .w (fun c => c.addrOf h ra imm) n n

def execLd8s (h : Hart) (rd ra : BitVec 5) (imm : BitVec 16) (s : State) : Outcome :=
  onLoad h (.ld8s h rd ra imm) rd ra imm 1 true s

def execLd8u (h : Hart) (rd ra : BitVec 5) (imm : BitVec 16) (s : State) : Outcome :=
  onLoad h (.ld8u h rd ra imm) rd ra imm 1 false s

def execLd16s (h : Hart) (rd ra : BitVec 5) (imm : BitVec 16) (s : State) : Outcome :=
  onLoad h (.ld16s h rd ra imm) rd ra imm 2 true s

def execLd16u (h : Hart) (rd ra : BitVec 5) (imm : BitVec 16) (s : State) : Outcome :=
  onLoad h (.ld16u h rd ra imm) rd ra imm 2 false s

def execLd32s (h : Hart) (rd ra : BitVec 5) (imm : BitVec 16) (s : State) : Outcome :=
  onLoad h (.ld32s h rd ra imm) rd ra imm 4 true s

def execLd32u (h : Hart) (rd ra : BitVec 5) (imm : BitVec 16) (s : State) : Outcome :=
  onLoad h (.ld32u h rd ra imm) rd ra imm 4 false s

def execLd64 (h : Hart) (rd ra : BitVec 5) (imm : BitVec 16) (s : State) : Outcome :=
  onLoad h (.ld64 h rd ra imm) rd ra imm 8 false s

def execSt8 (h : Hart) (rb ra : BitVec 5) (imm : BitVec 16) (s : State) : Outcome :=
  onStore h (.st8 h rb ra imm) rb ra imm 1 s

def execSt16 (h : Hart) (rb ra : BitVec 5) (imm : BitVec 16) (s : State) : Outcome :=
  onStore h (.st16 h rb ra imm) rb ra imm 2 s

def execSt32 (h : Hart) (rb ra : BitVec 5) (imm : BitVec 16) (s : State) : Outcome :=
  onStore h (.st32 h rb ra imm) rb ra imm 4 s

def execSt64 (h : Hart) (rb ra : BitVec 5) (imm : BitVec 16) (s : State) : Outcome :=
  onStore h (.st64 h rb ra imm) rb ra imm 8 s

/-- AMO (R316, R324): bit 6 of fn makes it a release; an acquire needs nothing more, since the thread waits for the
old value. -/
def execAmo (h : Hart) (rd ra rb : BitVec 5) (fn : BitVec 11) (s : State) : Outcome :=
  let n := if bitOf fn.toNat 4 then 8 else 4
  onAccess h (.amo h rd ra rb fn) s (fun c => .amo rd.toNat fn.toNat n (c.x h rb) (c.x h rd)) .a
    (fun c => (c.x h ra).toNat) n n (bitOf fn.toNat 6)

/-- VLD and VST (R324): 16 bytes at ra + 16 × off17. -/
def execVld (h : Hart) (v : BitVec 4) (ra : BitVec 5) (off : BitVec 17) (s : State) : Outcome :=
  onAccess h (.vld h v ra off) s (fun _ => .vload v.toNat) .r (fun c => c.addrOf h ra off 16) 16 16

def execVst (h : Hart) (v : BitVec 4) (ra : BitVec 5) (off : BitVec 17) (s : State) : Outcome :=
  onAccess h (.vst h v ra off) s (fun c => .store (leBytes 16 ((c.thread h).getV v.toNat).toNat)) .w
    (fun c => c.addrOf h ra off 16) 16 16

/-- FENCE (R315). Earlier loads have ended, since a thread waits for each (R303): bit 0 asks for nothing more. -/
def Chip.fence (c : Chip) (h : Hart) (fn : Nat) : Chip :=
  let c := if bitOf fn 3 then c.flushCache h.i else c
  let t := c.thread h
  if bitOf fn 1 ∧ t.storing false then c.stall h (.fence false)
  else if bitOf fn 2 ∧ t.storing true then c.stall h (.fence true)
  else c.retire h

def execFence (h : Hart) (rd ra rb : BitVec 5) (fn : BitVec 11) (s : State) : Outcome :=
  onThread h (.fence h rd ra rb fn) s fun c => c.fence h fn.toNat

/-! ### Threads, Dales and arrays -/

/-- HALT (R324). -/
def execHalt (h : Hart) (s : State) : Outcome :=
  onThread h (.halt h) s fun c => (c.countInstr h.i).freeThread h

/-- SPAWN (R317, R329): the 24-byte record at ra is read, 8-byte aligned. -/
def execSpawn (h : Hart) (rd ra rb : BitVec 5) (fn : BitVec 11) (s : State) : Outcome :=
  onAccess h (.spawn h rd ra rb fn) s (fun _ => .spawn rd.toNat) .r (fun c => (c.x h ra).toNat) 24 8 true

/-- DENQ (R317, R332): the 128-byte descriptor at ra is read, 8-byte aligned. -/
def execDenq (h : Hart) (rd ra rb : BitVec 5) (fn : BitVec 11) (s : State) : Outcome :=
  onAccess h (.denq h rd ra rb fn) s (fun c => .denq rd.toNat (c.x h rb)) .r (fun c => (c.x h ra).toNat) 128 8 true

/-- The thread's site does not answer a step: it is not in service, or its Tent is not OPEN (R334, R345). -/
def Chip.stepClosed (c : Chip) (i : Nat) : Bool := decide (c.siteState i ≠ 2) || !c.tentOpen (c.siteTent i)

/-- ASTEP (R161, R320, R333, R334): a step record outside the thread's own store, or misaligned, is BAD_PARAM (log
entry 64). -/
def Chip.astep (c : Chip) (h : Hart) (rd : Nat) (addr fn : Nat) : Chip :=
  let ctx := fn % 4
  let vecs := bitsOf fn 6 2 + 1
  let base := addr - storeBase h.i
  if ¬ c.lmapValid h.i then c.threadFault h .array 0
  else
    let st := if inStore h.i addr 16 ∧ addr % 16 = 0 then c.stepRefused h.i ctx vecs base
      else some (if c.stepClosed h.i then Status.setNotActive else Status.badParam)
    match st with
    | some st => c.answerStatus h rd st
    | none =>
      let k := c.core h.i
      let c := c.setCore h.i { k with steps := k.steps ++ [.step h.t ctx vecs base] }
      (c.mapThread h fun t => { t with state := 3, wait := .step rd }).nextStep h.i

def execAstep (h : Hart) (rd ra rb : BitVec 5) (fn : BitVec 11) (s : State) : Outcome :=
  onThread h (.astep h rd ra rb fn) s (fun c => c.astep h rd.toNat (c.x h ra).toNat fn.toNat) true

/-- ACLOSE (R320, R335). -/
def Chip.aclose (c : Chip) (h : Hart) (rd a : Nat) : Chip :=
  if ¬ c.lmapValid h.i then c.threadFault h .array 0
  else (c.queueCtx h.i (.close a) a fun c => c.actxClose h.i a).answerStatus h rd Status.ok

def execAclose (h : Hart) (rd ra rb : BitVec 5) (fn : BitVec 11) (s : State) : Outcome :=
  onThread h (.aclose h rd ra rb fn) s fun c => c.aclose h rd.toNat (fn.toNat % 4)

/-- TICKW (R331): SLOT_TICK, FREE_RUNNING_TICK and FRAME_BOUNDARY end it. -/
def execTickw (h : Hart) (rd ra rb : BitVec 5) (fn : BitVec 11) (s : State) : Outcome :=
  onThread h (.tickw h rd ra rb fn) s fun c =>
    c.mapThread h fun t => { t with state := 3, wait := .tick rd.toNat (fn == 1) }

/-! ### WAITM (R330) -/

/-- The thread's stores that are still to be performed meet these bytes. -/
def Thread.meetsStore (t : Thread) (home len : Nat) : Bool :=
  t.out.any fun a => a.tag.isNone && decide (a.home < home + len ∧ home < a.home + a.len)

/-- The word is read where it lies; one of another module, or one an earlier store of the thread is still to write,
is read later. -/
def Chip.watchRead (c : Chip) (h : Hart) (addr : Nat) : Chip :=
  let a : Access := { kind := .watch, addr := addr, len := 8, home := addr, tent := c.siteTent h.i }
  match c.place h.i .r addr 8 with
  | .fault w => c.threadFault h w addr
  | .home home tent =>
    if (c.thread h).meetsStore home 8 then c else c.performAccess h { a with home := home, tent := tent }
  | .remote => match c.sendAccess h .watch addr 8 with
    | some c => c
    | none => c.threadFault h .remote addr
  | _ => c.performAccess h a

/-- WAITM: the thread waits from its issue on, and reads the word a first time. -/
def Chip.waitm (c : Chip) (h : Hart) (rd addr : Nat) (old : Word) (timed : Bool) : Chip :=
  if addr % 8 ≠ 0 then c.threadFault h .misaligned addr
  else (c.mapThread h fun t => { t with state := 3, wait := .watch rd addr old old timed }).watchRead h addr

def execWaitm (h : Hart) (rd ra rb : BitVec 5) (fn : BitVec 11) (s : State) : Outcome :=
  onThread h (.waitm h rd ra rb fn) s
    (fun c => c.waitm h rd.toNat (c.x h ra).toNat (c.x h rb) (decide (fn ≠ 0))) false
    fun c => if (c.x h ra).toNat % 8 ≠ 0 then none else some { perm := .r, addr := (c.x h ra).toNat, len := 8 }

/-- WAITM_WAKE: a word in the thread's own store is seen to differ from rb. -/
def Chip.watchWake (c : Chip) (h : Hart) : Chip :=
  match (c.thread h).state, (c.thread h).wait with
  | 3, .watch _ addr _ _ _ => if inStore h.i addr 8 then c.watchRead h addr else c
  | _, _ => c

def execWaitmWake (h : Hart) (s : State) : Outcome :=
  onUnits h.ok s fun c => if c.powered then c.watchWake h else c

/-- WAITM_POLL: a word elsewhere is read again, once no read of it is still out and its MEM grains are admitted. -/
def Chip.watchPoll (c : Chip) (h : Hart) : Chip :=
  match (c.thread h).state, (c.thread h).wait with
  | 3, .watch _ addr _ _ _ =>
    if inStore h.i addr 8 ∨ ((c.thread h).out.any fun a => a.kind == .watch) then c
    else
      let r := c.admitCharges (.core h.i) (c.touchCharges h (some { perm := .r, addr := addr, len := 8 })) c
      if r.2 then r.1.watchRead h addr else r.1
  | _, _ => c

def execWaitmPoll (h : Hart) (s : State) : Outcome :=
  onUnits h.ok s fun c => if c.powered then c.watchPoll h else c

/-- WAITM_TIMEOUT: the time of fn has passed: rd takes the word as last read. -/
def Chip.watchTimeout (c : Chip) (h : Hart) : Chip :=
  let t := c.thread h
  match t.state, t.wait with
  | 3, .watch rd _ _ last true =>
    (c.setThread h ({ t with out := t.out.filter fun a => a.kind != AccessKind.watch }.setX rd last)).retire h
  | _, _ => c

def execWaitmTimeout (h : Hart) (s : State) : Outcome :=
  onUnits h.ok s fun c => if c.powered then c.watchTimeout h else c

end Sys2Proof.Machine
end

