-- ==== Sys2Proof/Machine/Scalar.lean ====
section
/-!
DEFINITION. Sys2Proof/Machine/Scalar.lean: integer, control and GETS instructions of a thread (R324 to R326).
-/

namespace Sys2Proof.Machine

/-! ### Integer operations -/

/-- R325: DIV rounds towards zero; by zero it gives all ones; the most negative value by -1 wraps to itself. -/
def divWord (a b : Word) : Word := if b = 0 then -1 else BitVec.ofInt 64 (a.toInt.tdiv b.toInt)

/-- R325: REM has the dividend's sign; by zero it gives the dividend. -/
def remWord (a b : Word) : Word := if b = 0 then a else BitVec.ofInt 64 (a.toInt.tmod b.toInt)

def ofBool64 (b : Bool) : Word := if b then 1 else 0

/-- ALU by fn (R324, R325); shift amounts are bits [5:0]. -/
def aluOp (fn : Nat) (a b : Word) : Word :=
  let n := b.toNat % 64
  match fn with
  | 0 => a + b
  | 1 => a - b
  | 2 => a &&& b
  | 3 => a ||| b
  | 4 => a ^^^ b
  | 5 => a <<< n
  | 6 => a >>> n
  | 7 => a.sshiftRight n
  | 8 => a * b
  | 9 => BitVec.ofInt 64 (a.toInt * b.toInt / 2 ^ 64)
  | 10 => BitVec.ofNat 64 (a.toNat * b.toNat / 2 ^ 64)
  | 11 => divWord a b
  | 12 => if b = 0 then -1 else BitVec.ofNat 64 (a.toNat / b.toNat)
  | 13 => remWord a b
  | 14 => if b = 0 then a else BitVec.ofNat 64 (a.toNat % b.toNat)
  | 15 => ofBool64 (decide (a.toInt < b.toInt))
  | 16 => ofBool64 (decide (a.toNat < b.toNat))
  | 17 => if b.toInt < a.toInt then b else a
  | 18 => if a.toInt < b.toInt then b else a
  | 19 => if b.toNat < a.toNat then b else a
  | _ => if a.toNat < b.toNat then b else a

/-- An instruction whose one effect is a value in rd. -/
def onResult (h : Hart) (i : Instr) (rd : BitVec 5) (s : State) (val : Chip → Word) : Outcome :=
  onThread h i s fun c => (c.setXr h rd (val c)).retire h

def execAlu (h : Hart) (rd ra rb : BitVec 5) (fn : BitVec 11) (s : State) : Outcome :=
  onResult h (.alu h rd ra rb fn) rd s fun c => aluOp fn.toNat (c.x h ra) (c.x h rb)

/-- ADDI (R324): imm16 is sign-extended. -/
def execAddi (h : Hart) (rd ra : BitVec 5) (imm : BitVec 16) (s : State) : Outcome :=
  onResult h (.addi h rd ra imm) rd s fun c => c.x h ra + imm.signExtend 64

/-- ANDI, ORI, XORI (R324): imm16 is zero-extended. -/
def execAndi (h : Hart) (rd ra : BitVec 5) (imm : BitVec 16) (s : State) : Outcome :=
  onResult h (.andi h rd ra imm) rd s fun c => c.x h ra &&& imm.setWidth 64

def execOri (h : Hart) (rd ra : BitVec 5) (imm : BitVec 16) (s : State) : Outcome :=
  onResult h (.ori h rd ra imm) rd s fun c => c.x h ra ||| imm.setWidth 64

def execXori (h : Hart) (rd ra : BitVec 5) (imm : BitVec 16) (s : State) : Outcome :=
  onResult h (.xori h rd ra imm) rd s fun c => c.x h ra ^^^ imm.setWidth 64

/-- SHI (R324): the shift kind in [7:6] and the amount in [5:0] of imm16. -/
def shiOp (imm : Nat) (a : Word) : Word :=
  match bitsOf imm 7 6 with
  | 0 => a <<< (imm % 64)
  | 1 => a >>> (imm % 64)
  | _ => a.sshiftRight (imm % 64)

def execShi (h : Hart) (rd ra : BitVec 5) (imm : BitVec 16) (s : State) : Outcome :=
  onResult h (.shi h rd ra imm) rd s fun c => shiOp imm.toNat (c.x h ra)

def execSlti (h : Hart) (rd ra : BitVec 5) (imm : BitVec 16) (s : State) : Outcome :=
  onResult h (.slti h rd ra imm) rd s fun c => ofBool64 (decide ((c.x h ra).toInt < imm.toInt))

/-- LIH (R324): 16 bits of rd at 16 × s, s the low bits of the ra field. -/
def execLih (h : Hart) (rd ra : BitVec 5) (imm : BitVec 16) (s : State) : Outcome :=
  onResult h (.lih h rd ra imm) rd s fun c =>
    setBits (c.x h rd) (16 * (ra.toNat % 4) + 15) (16 * (ra.toNat % 4)) imm.toNat

/-- A target pc + 4 × off (R324). -/
def Chip.target (c : Chip) (h : Hart) {n : Nat} (off : BitVec n) : Int := ((c.thread h).pc : Int) + 4 * off.toInt

def execAddpc (h : Hart) (rd ra : BitVec 5) (imm : BitVec 16) (s : State) : Outcome :=
  onResult h (.addpc h rd ra imm) rd s fun c => BitVec.ofInt 64 (c.target h imm)

/-! ### Control -/

/-- The address a thread goes on at, of the 48 bits of pc (R300). -/
def pcOf (x : Int) : Nat := (x % 2 ^ 48).toNat

/-- A branch (R324): taken where ra compares with rb. -/
def onBranch (h : Hart) (i : Instr) (ra rb : BitVec 5) (off : BitVec 16) (s : State) (test : Word → Word → Bool) :
    Outcome :=
  onThread h i s fun c =>
    if test (c.x h ra) (c.x h rb) then c.retireTo h (pcOf (c.target h off)) else c.retire h

def execBeq (h : Hart) (ra rb : BitVec 5) (off : BitVec 16) (s : State) : Outcome :=
  onBranch h (.beq h ra rb off) ra rb off s fun a b => a == b

def execBne (h : Hart) (ra rb : BitVec 5) (off : BitVec 16) (s : State) : Outcome :=
  onBranch h (.bne h ra rb off) ra rb off s fun a b => a != b

def execBlt (h : Hart) (ra rb : BitVec 5) (off : BitVec 16) (s : State) : Outcome :=
  onBranch h (.blt h ra rb off) ra rb off s fun a b => decide (a.toInt < b.toInt)

def execBge (h : Hart) (ra rb : BitVec 5) (off : BitVec 16) (s : State) : Outcome :=
  onBranch h (.bge h ra rb off) ra rb off s fun a b => decide (b.toInt ≤ a.toInt)

def execBltu (h : Hart) (ra rb : BitVec 5) (off : BitVec 16) (s : State) : Outcome :=
  onBranch h (.bltu h ra rb off) ra rb off s fun a b => decide (a.toNat < b.toNat)

def execBgeu (h : Hart) (ra rb : BitVec 5) (off : BitVec 16) (s : State) : Outcome :=
  onBranch h (.bgeu h ra rb off) ra rb off s fun a b => decide (b.toNat ≤ a.toNat)

/-- The address after the thread's instruction, as a jump writes it to rd. -/
def Chip.nextPc (c : Chip) (h : Hart) : Word := BitVec.ofNat 64 ((c.thread h).pc + 4)

def execJal (h : Hart) (rd : BitVec 5) (off : BitVec 21) (s : State) : Outcome :=
  onThread h (.jal h rd off) s fun c => (c.setXr h rd (c.nextPc h)).retireTo h (pcOf (c.target h off))

/-- JALR (R320, R324): a target that is no multiple of 4 faults. -/
def execJalr (h : Hart) (rd ra : BitVec 5) (imm : BitVec 16) (s : State) : Outcome :=
  onThread h (.jalr h rd ra imm) s fun c =>
    let t := c.addrOf h ra imm
    if t % 4 ≠ 0 then c.threadFault h .misaligned t else (c.setXr h rd (c.nextPc h)).retireTo h t

/-! ### GETS -/

/-- The selectors of R326 but the generator's. -/
def Chip.selector (c : Chip) (h : Hart) (n : Nat) : Word :=
  match n with
  | 0 => BitVec.ofNat 64 (8 * h.i + h.t)
  | 1 => BitVec.ofNat 64 h.i
  | 2 => BitVec.ofNat 64 (c.siteTent h.i)
  | 3 => BitVec.ofNat 64 c.radio.slots
  | 4 => BitVec.ofNat 64 (c.f Fld.budFrameCount_frameCount)
  | 5 => c.stamp
  | 7 => BitVec.ofNat 64 (c.thread h).retired
  | 8 => BitVec.ofNat 64 c.moduleId
  | 9 => BitVec.ofNat 64 (({ name := .siteId, idx := [h.i / 768, c.physOf h.i] } : Reg).addr)
  | _ => BitVec.ofNat 64 (c.physOf h.i)

/-- GETS (R326): selector 6 takes a whole step of the core's generator. -/
def Chip.gets (c : Chip) (h : Hart) (rd : BitVec 5) (n : Nat) : Chip :=
  if n = 6 then
    let id : GenId := .core (h.i / 768) (c.physOf h.i)
    let r := (c.gen id).whole
    ((c.setGen id r.2).setXr h rd r.1).retire h
  else (c.setXr h rd (c.selector h n)).retire h

def execGets (h : Hart) (rd ra : BitVec 5) (imm : BitVec 16) (s : State) : Outcome :=
  onThread h (.gets h rd ra imm) s fun c => c.gets h rd imm.toNat

end Sys2Proof.Machine
end

