-- ==== Sys2Proof/Machine/Floats.lean ====
section
/-!
DEFINITION. Sys2Proof/Machine/Floats.lean: BF16 and FP32 as site cores compute in them (R70, R93), the approximated
functions of R326, and the conversions of R324, R327 and R328.
-/

namespace Sys2Proof

/-- What a computation draws from as it goes: the core's generator (R305) and the free values (log entry 1). -/
structure Draws where
  gen  : Gen
  free : Nat
deriving DecidableEq, Repr

def Draws.rand (d : Draws) : Nat × Draws := ((Config.freeValue d.free).toNat, { d with free := d.free + 1 })

/-- A float's value: (-1)^neg × m × 2^e, an infinity, or a NaN. -/
inductive Flt where
  | nan
  | inf (neg : Bool)
  | fin (neg : Bool) (m : Nat) (e : Int)
deriving DecidableEq, Repr

/-- R70: the value of a code of 8 exponent bits and `k` fraction bits; a subnormal is zero of its sign. -/
def Flt.ofBits (k x : Nat) : Flt :=
  let e := bitsOf x (k + 7) k
  let f := x % 2 ^ k
  let neg := bitOf x (k + 8)
  if e = 255 then (if f = 0 then .inf neg else .nan)
  else if e = 0 then .fin neg 0 0
  else .fin neg (2 ^ k + f) ((e : Int) - 127 - k)

/-- The integer a value is at the exponent `e`, which is not above its own. -/
def fixAt (neg : Bool) (m : Nat) (e0 e : Int) : Int :=
  let x : Int := m * 2 ^ (e0 - e).toNat
  if neg then -x else x

def Flt.neg : Flt → Flt
  | .nan => .nan
  | .inf s => .inf !s
  | .fin s m e => .fin (!s) m e

/-- A sum, exactly; an exact zero is negative where both terms are. -/
def Flt.add : Flt → Flt → Flt
  | .nan, _ => .nan
  | _, .nan => .nan
  | .inf a, .inf b => if a = b then .inf a else .nan
  | .inf a, _ => .inf a
  | _, .inf b => .inf b
  | .fin s m e, .fin s' m' e' =>
    if m = 0 ∧ m' = 0 then .fin (s && s') 0 0
    else
      let lo := min e e'
      let x := fixAt s m e lo + fixAt s' m' e' lo
      .fin (decide (x < 0)) x.natAbs lo

/-- A product, exactly. -/
def Flt.mul : Flt → Flt → Flt
  | .nan, _ => .nan
  | _, .nan => .nan
  | .inf a, .inf b => .inf (a != b)
  | .inf a, .fin s m _ => if m = 0 then .nan else .inf (a != s)
  | .fin s m _, .inf b => if m = 0 then .nan else .inf (s != b)
  | .fin s m e, .fin s' m' e' => .fin (s != s') (m * m') (e + e')

def Flt.isNan : Flt → Bool
  | .nan => true
  | _ => false

/-- `a < b`; false with a NaN. -/
def Flt.lt : Flt → Flt → Bool
  | .nan, _ => false
  | _, .nan => false
  | .inf a, .inf b => a && !b
  | .inf a, _ => a
  | _, .inf b => !b
  | .fin s m e, .fin s' m' e' =>
    let lo := min e e'
    decide (fixAt s m e lo < fixAt s' m' e' lo)

/-- Equal values; false with a NaN, and the zeros are equal. -/
def Flt.eq (a b : Flt) : Bool := !a.isNan && !b.isNan && !a.lt b && !b.lt a

/-- The code of a result (R70): a NaN is quiet with a free sign and payload, and takes no draw, nor does an infinity;
every other result is rounded with one. -/
def Flt.code (k : Nat) (x : Flt) (d : Draws) : Nat × Draws :=
  match x with
  | .nan =>
    let f := d.rand
    (f.1 / 2 ^ 40 % 2 * 2 ^ (k + 8) + 255 * 2 ^ k + 2 ^ (k - 1) + f.1 % 2 ^ (k - 1), f.2)
  | .inf s => (s.toNat * 2 ^ (k + 8) + 255 * 2 ^ k, d)
  | .fin s m e =>
    let p := fpRound k d.gen s m e
    (p.1, { d with gen := p.2 })

/-- The larger (or smaller) of two. IEEE 754 leaves open what a NaN gives and which of two zeros is returned: a free
value picks. -/
def Flt.pick (big : Bool) (a b : Flt) (d : Draws) : Flt × Draws :=
  let openChoice : Flt × Draws :=
    let f := d.rand
    (if f.1 % 2 = 0 then a else b, f.2)
  if a.isNan ∨ b.isNan then openChoice
  else if a.lt b then (if big then b else a, d)
  else if b.lt a then (if big then a else b, d)
  else if a = b then (a, d)
  else openChoice

/-! ### Approximated functions (R326) -/

/-- A free relative error within 2^-acc. -/
def Flt.blur (acc : Nat) (x : Flt) (d : Draws) : Flt × Draws :=
  match x with
  | .fin s m e =>
    if m = 0 then (x, d)
    else
      let f := d.rand
      let err : Int := (f.1 % (2 ^ 41 + 1) : Nat) - 2 ^ 40
      (.fin s (m * (2 ^ (40 + acc) + err).toNat) (e - 40 - acc), f.2)
  | _ => (x, d)

/-- 1/x. -/
def Flt.recip : Flt → Flt
  | .nan => .nan
  | .inf s => .fin s 0 0
  | .fin s m e => if m = 0 then .inf s else .fin s (2 ^ 160 / m) (-160 - e)

/-- 1/√x. -/
def Flt.rsqrt : Flt → Flt
  | .nan => .nan
  | .inf s => if s then .nan else .fin false 0 0
  | .fin s m e =>
    if m = 0 then .inf s
    else if s then .nan
    else
      let odd := e % 2 = 1
      let m := if odd then 2 * m else m
      let e := if odd then e - 1 else e
      .fin false (isqrt (2 ^ 126 / m)) (-63 - e / 2)

/-- ln 2 in units of 2^-96. -/
def ln2 : Nat := 54916777467707473351141471128

/-- 2^x; far beyond the exponent range a value of the right size stands for it. -/
def Flt.exp2 : Flt → Flt
  | .nan => .nan
  | .inf s => if s then .fin false 0 0 else .inf false
  | .fin s m e =>
    let x := scaleFloor (if s then -(m : Int) else m) (e + 96)
    if 512 * 2 ^ 96 ≤ x then .fin false 1 512
    else if x < -512 * 2 ^ 96 then .fin false 1 (-512)
    else
      let f := (x % 2 ^ 96).toNat
      .fin false (2 * expNeg ((2 ^ 96 - f) * ln2 / 2 ^ 96) (2 ^ 96)) (x / 2 ^ 96 - 96)

/-- The fraction bits of the logarithm of a number of [1, 2) in units of 2^-96, most significant first (log entry
3). -/
def log2Bits : Nat → Nat → Nat → Nat
  | 0, _, acc => acc
  | n + 1, y, acc =>
    let z := y * y / 2 ^ 96
    if 2 ^ 97 ≤ z then log2Bits n (z / 2) (2 * acc + 1) else log2Bits n z (2 * acc)

/-- log2 x. -/
def Flt.log2 : Flt → Flt
  | .nan => .nan
  | .inf s => if s then .nan else .inf false
  | .fin s m e =>
    if m = 0 then .inf true
    else if s then .nan
    else
      let l := Nat.log2 m
      let y := m * 2 ^ 96 / 2 ^ l
      let v : Int := ((l : Int) + e) * 2 ^ 64 + (log2Bits 64 y 0 : Nat)
      .fin (decide (v < 0)) v.natAbs (-64)

/-! ### Conversions -/

/-- A value rounded to an integer of [lo, hi], saturating (R70, R326); a NaN gives a free one. -/
def Flt.toInt (lo hi : Int) (x : Flt) (d : Draws) : Int × Draws :=
  match x with
  | .nan =>
    let f := d.rand
    (lo + ((f.1 % (hi - lo + 1).toNat : Nat) : Int), f.2)
  | .inf s => (if s then lo else hi, d)
  | .fin s m e =>
    let p := d.gen.round16 (scaleFloor (if s then -(m : Int) else m) (e + 16))
    (clampInt lo hi p.1, { d with gen := p.2 })

def Flt.ofInt (x : Int) : Flt := .fin (decide (x < 0)) x.natAbs 0

/-- R327: the code round(v / s), saturated at ±q. An infinite quotient saturates; an undefined one gives a free
code. -/
def narrowCode (q : Int) (v s : Flt) (d : Draws) : Int × Draws :=
  match v, s with
  | .nan, _ => Flt.nan.toInt (-q) q d
  | _, .nan => Flt.nan.toInt (-q) q d
  | .inf _, .inf _ => Flt.nan.toInt (-q) q d
  | .inf a, .fin b _ _ => (if a != b then -q else q, d)
  | .fin .., .inf _ => (Flt.ofInt 0).toInt (-q) q d
  | .fin a m e, .fin b m' e' =>
    let num : Int := m * 2 ^ (e - e').toNat
    let p := d.gen.roundDiv (if a != b then -num else num) (m' * 2 ^ (e' - e).toNat)
    (clampInt (-q) q p.1, { d with gen := p.2 })

/-- R69, R328: the byte round(√v / s), saturated at 255; a negative v or an s of zero gives 0. -/
def rootByte (v s : Flt) (d : Draws) : Nat × Draws :=
  let root (x : Int) : Nat × Draws :=
    let p := d.gen.round16 x
    ((clampInt 0 255 p.1).toNat, { d with gen := p.2 })
  let anyByte : Nat × Draws :=
    let f := d.rand
    (f.1 % 256, f.2)
  match v, s with
  | _, .fin _ 0 _ => (0, d)
  | .nan, _ => anyByte
  | .inf true, _ => (0, d)
  | .fin true (_ + 1) _, _ => (0, d)
  | _, .nan => anyByte
  | .inf false, .inf _ => anyByte
  | .inf false, .fin b _ _ => (if b then 0 else 255, d)
  | .fin .., .inf _ => root 0
  | .fin _ m e, .fin b m' e' =>
    let x : Rat2 := { num := m, den := m' * m', exp := e - 2 * e' }
    let y : Int := isqrt (min (x.floor2 32) (2 ^ 64))
    root (if b then -y else y)

/-- VSC fn 0 (R324): the smallest SC16 value not below a magnitude; an infinity saturates, a NaN gives a free code of
those the device produces (R71). -/
def sc16OfFlt (x : Flt) (d : Draws) : Nat × Draws :=
  match x with
  | .nan =>
    let f := d.rand
    let c := f.1 % 0xFF00
    (if c < 0x100 then 0 else c, f.2)
  | .inf _ => (sc16Max, d)
  | .fin _ m e => (sc16Ceil { num := m, exp := e }, d)

/-- The value of an SC16 code. -/
def Flt.ofSc16 (x : Nat) : Flt := .fin false (sc16Mant x) (sc16Exp x - 8)

end Sys2Proof
end

