-- ==== Sys2Proof/Machine/Vector.lean ====
section
/-!
DEFINITION. Sys2Proof/Machine/Vector.lean: the vector instructions of a thread (R300, R304, R324, R326 to R328).
-/

namespace Sys2Proof.Machine

/-! ### Lanes -/

/-- The lanes of `w` bits of a vector register, lane 0 first (R300). -/
def lanes (w : Nat) (x : BitVec 128) : List Nat := (List.range (128 / w)).map fun k => x.toNat / 2 ^ (w * k) % 2 ^ w

def ofLanes (w : Nat) (xs : List Nat) : BitVec 128 :=
  BitVec.ofNat 128 ((xs.mapIdx fun k x => x % 2 ^ w * 2 ^ (w * k)).sum)

/-- What a vector instruction reads: its operands, the old vd and the predicate. -/
structure VIn where
  a : BitVec 128
  b : BitVec 128
  d : BitVec 128
  p : BitVec 8

/-- Lane `k` of a list. -/
def lane (xs : List Nat) (k : Nat) : Nat := xs.getD k 0

/-- R326: `f` gives each lane of `w` bits whose predicate bit is 1, in rising order; the others, and the lanes from
`n` on, keep their old value in vd. -/
def VIn.each (v : VIn) (w n : Nat) (f : Nat → Draws → Nat × Draws) (d : Draws) : BitVec 128 × Draws :=
  let old := lanes w v.d
  let r := (List.range (128 / w)).foldl (fun (r : List Nat × Draws) k =>
    if k < n ∧ v.p.getLsbD k then
      let y := f k r.2
      (r.1 ++ [y.1], y.2)
    else (r.1 ++ [lane old k], r.2)) ([], d)
  (ofLanes w r.1, r.2)

/-- A V-format instruction on the core's vector unit, drawing from its generator (R305). -/
def Chip.vector (c : Chip) (h : Hart) (vd va vb : BitVec 4) (p : BitVec 3) (f : VIn → Draws → BitVec 128 × Draws) :
    Chip :=
  let t := c.thread h
  let id : GenId := .core (h.i / 768) (c.physOf h.i)
  let g := c.gen id
  let v : VIn := { a := t.getV va.toNat, b := t.getV vb.toNat, d := t.getV vd.toNat, p := t.getP p.toNat }
  let r := f v { gen := g, free := c.free }
  let c := if r.2.gen = g then c else c.setGen id r.2.gen
  let c : Chip := { c with free := r.2.free }
  (c.mapThread h fun t => t.setV vd.toNat r.1).retire h

def onVector (h : Hart) (i : Instr) (vd va vb : BitVec 4) (p : BitVec 3) (s : State)
    (f : VIn → Draws → BitVec 128 × Draws) : Outcome :=
  onThread h i s fun c => c.vector h vd va vb p f

/-! ### Integer lanes -/

def int16 (x : Nat) : Int := signedOf 16 x

/-- VI by fn (R324, R325). -/
def viOp (fn a b d : Nat) : Int :=
  let x := int16 a
  let y := int16 b
  match fn with
  | 0 => x + y
  | 1 => x - y
  | 2 => x * y
  | 3 => x * y / 65536
  | 4 => min x y
  | 5 => max x y
  | 6 => |x|
  | 7 => x * 2 ^ (b % 16)
  | 8 => x / 2 ^ (b % 16)
  | 9 => ((a &&& b : Nat) : Int)
  | 10 => ((a ||| b : Nat) : Int)
  | 11 => ((a ^^^ b : Nat) : Int)
  | 12 => clampInt (-32768) 32767 (x + y)
  | 13 => clampInt (-32768) 32767 (x - y)
  | _ => int16 d + x * y

/-- What VI makes of its operands, by fn. -/
def viVec (fn : Nat) (v : VIn) (d : Draws) : BitVec 128 × Draws :=
  let a := lanes 16 v.a
  let b := lanes 16 v.b
  let o := lanes 16 v.d
  v.each 16 8 (fun k d => (fieldOf 16 (viOp fn (lane a k) (lane b k) (lane o k)), d)) d

def execVi (h : Hart) (vd va vb : BitVec 4) (p : BitVec 3) (fn : BitVec 11) (s : State) : Outcome :=
  onVector h (.vi h vd va vb p fn) vd va vb p s (viVec fn.toNat)

/-! ### Floating-point lanes -/

/-- An operation of VB by fn on BF16 codes (R324): the operands and the old vd. abs and neg of a NaN change its sign
alone. -/
def vbOp (fn a b o : Nat) (d : Draws) : Nat × Draws :=
  let x := Flt.ofBits 7 a
  let y := Flt.ofBits 7 b
  let approx (z : Flt) : Nat × Draws :=
    let r := z.blur 10 d
    r.1.code 7 r.2
  match fn with
  | 0 => (x.add y).code 7 d
  | 1 => (x.add y.neg).code 7 d
  | 2 => (x.mul y).code 7 d
  | 3 => ((x.mul y).add (Flt.ofBits 7 o)).code 7 d
  | 4 =>
    let r := x.pick true y d
    r.1.code 7 r.2
  | 5 =>
    let r := x.pick false y d
    r.1.code 7 r.2
  | 6 => match x with
    | .nan => (a % 32768, d)
    | .inf _ => (0x7F80, d)
    | .fin _ m e => (Flt.fin false m e).code 7 d
  | 7 => match x with
    | .nan => ((a + 32768) % 65536, d)
    | _ => x.neg.code 7 d
  | 8 => approx x.exp2
  | 9 => approx x.log2
  | 10 => approx x.recip
  | _ => approx x.rsqrt

/-- What VB makes of its operands, by fn. -/
def vbVec (fn : Nat) (v : VIn) (d : Draws) : BitVec 128 × Draws :=
  let a := lanes 16 v.a
  let b := lanes 16 v.b
  let o := lanes 16 v.d
  v.each 16 8 (fun k d => vbOp fn (lane a k) (lane b k) (lane o k) d) d

def execVb (h : Hart) (vd va vb : BitVec 4) (p : BitVec 3) (fn : BitVec 11) (s : State) : Outcome :=
  onVector h (.vb h vd va vb p fn) vd va vb p s (vbVec fn.toNat)

/-- An operation of VF by fn on FP32 codes (R324). -/
def vfOp (fn a b o : Nat) (d : Draws) : Nat × Draws :=
  let x := Flt.ofBits 23 a
  let y := Flt.ofBits 23 b
  let approx (z : Flt) : Nat × Draws :=
    let r := z.blur 22 d
    r.1.code 23 r.2
  match fn with
  | 0 => (x.add y).code 23 d
  | 1 => (x.add y.neg).code 23 d
  | 2 => (x.mul y).code 23 d
  | 3 => ((x.mul y).add (Flt.ofBits 23 o)).code 23 d
  | 4 =>
    let r := x.pick true y d
    r.1.code 23 r.2
  | 5 =>
    let r := x.pick false y d
    r.1.code 23 r.2
  | 6 => approx x.recip
  | _ => approx x.rsqrt

/-- What VF makes of its operands, by fn. -/
def vfVec (fn : Nat) (v : VIn) (d : Draws) : BitVec 128 × Draws :=
  let a := lanes 32 v.a
  let b := lanes 32 v.b
  let o := lanes 32 v.d
  v.each 32 4 (fun k d => vfOp fn (lane a k) (lane b k) (lane o k) d) d

def execVf (h : Hart) (vd va vb : BitVec 4) (p : BitVec 3) (fn : BitVec 11) (s : State) : Outcome :=
  onVector h (.vf h vd va vb p fn) vd va vb p s (vfVec fn.toNat)

/-- The comparison of VCMP by fn (R324). -/
def vcmpOp (fn a b : Nat) : Bool :=
  let eq : Bool := if bitOf fn 2 then (Flt.ofBits 7 a).eq (Flt.ofBits 7 b) else a == b
  let lt : Bool := if bitOf fn 2 then (Flt.ofBits 7 a).lt (Flt.ofBits 7 b) else decide (int16 a < int16 b)
  match fn % 4 with
  | 0 => eq
  | 1 => !eq
  | 2 => lt
  | _ => lt || eq

/-- VCMP: a lane whose predicate bit is 0 keeps its bit of the register it writes (log entry 65). -/
def Chip.vcmp (c : Chip) (h : Hart) (vd va vb : BitVec 4) (p : BitVec 3) (fn : Nat) : Chip :=
  let t := c.thread h
  let a := lanes 16 (t.getV va.toNat)
  let b := lanes 16 (t.getV vb.toNat)
  let q := t.getP p.toNat
  let old := t.getP vd.toNat
  let bits := (List.range 8).map fun k =>
    if q.getLsbD k then vcmpOp fn (lane a k) (lane b k) else old.getLsbD k
  let x := (bits.mapIdx fun k z => z.toNat * 2 ^ k).sum
  (c.setThread h (t.setP vd.toNat (BitVec.ofNat 8 x))).retire h

def execVcmp (h : Hart) (vd va vb : BitVec 4) (p : BitVec 3) (fn : BitVec 11) (s : State) : Outcome :=
  onThread h (.vcmp h vd va vb p fn) s fun c => c.vcmp h vd va vb p fn.toNat

/-- The sum of floats, exactly. -/
def fltSum (xs : List Flt) : Flt :=
  match xs with
  | [] => .fin false 0 0
  | x :: xs => xs.foldl Flt.add x

/-- VRED by fn (R324): the 32-bit or 16-bit result, every lane of va in it; a sum is rounded once. -/
def vredOp (fn : Nat) (a : BitVec 128) (d : Draws) : Nat × Draws :=
  let xs := lanes 16 a
  let floats := xs.map (Flt.ofBits 7)
  match fn with
  | 0 => (fieldOf 32 ((xs.map int16).sum), d)
  | 1 => (fieldOf 16 ((xs.map int16).foldl max (-32768)), d)
  | 2 => (fltSum floats).code 23 d
  | 3 =>
    let r := (floats.drop 1).foldl (fun (r : Flt × Draws) y => r.1.pick true y r.2) (floats.headD .nan, d)
    r.1.code 7 r.2
  | _ => (fltSum ((lanes 32 a).map (Flt.ofBits 23))).code 23 d

/-- What VRED makes of its operands, by fn. -/
def vredVec (fn : Nat) (v : VIn) (d : Draws) : BitVec 128 × Draws :=
  let w := if fn = 1 ∨ fn = 3 then 16 else 32
  v.each w (128 / w) (fun k d => if k = 0 then vredOp fn v.a d else (0, d)) d

def execVred (h : Hart) (vd va vb : BitVec 4) (p : BitVec 3) (fn : BitVec 11) (s : State) : Outcome :=
  onVector h (.vred h vd va vb p fn) vd va vb p s (vredVec fn.toNat)

/-! ### Moves -/

/-- A vector register with bits [lo + n - 1:lo] replaced. -/
def putBits (x : BitVec 128) (lo n y : Nat) : BitVec 128 :=
  BitVec.ofNat 128 (x.toNat - x.toNat / 2 ^ lo % 2 ^ n * 2 ^ lo + y % 2 ^ n * 2 ^ lo)

/-- VMOV by fn (R324). -/
def Thread.vmov (t : Thread) (vd x lane fn : Nat) : Thread :=
  let v := t.getV vd
  let w := (t.getX x).toNat
  let take (lo n : Nat) : Thread := t.setX x (BitVec.ofNat 64 (v.toNat / 2 ^ lo % 2 ^ n))
  match fn with
  | 0 => t.setV vd (ofLanes 16 (List.replicate 8 (w % 65536)))
  | 1 => t.setV vd (putBits v (16 * lane) 16 w)
  | 2 => take (16 * lane) 16
  | 3 => t.setV vd (putBits v 0 64 w)
  | 4 => t.setV vd (putBits v 64 64 w)
  | 5 => take 0 64
  | _ => take 64 64

def execVmov (h : Hart) (vd : BitVec 4) (x : BitVec 5) (lane : BitVec 3) (fn : BitVec 11) (s : State) : Outcome :=
  onThread h (.vmov h vd x lane fn) s fun c =>
    (c.mapThread h fun t => t.vmov vd.toNat x.toNat lane.toNat fn.toNat).retire h

/-- What VPERM makes of its operands, by fn. -/
def vpermVec (_fn : Nat) (v : VIn) (d : Draws) : BitVec 128 × Draws :=
  let a := lanes 16 v.a
  let b := lanes 16 v.b
  v.each 16 8 (fun k d => (lane a (lane b k % 8), d)) d

def execVperm (h : Hart) (vd va vb : BitVec 4) (p : BitVec 3) (fn : BitVec 11) (s : State) : Outcome :=
  onVector h (.vperm h vd va vb p fn) vd va vb p s (vpermVec fn.toNat)

/-! ### Conversions -/

/-- VCVT by fn (R324, R326); an integer made wider or narrower takes no draw (log entry 65). -/
def vcvtOp (fn : Nat) (v : VIn) (d : Draws) : BitVec 128 × Draws :=
  let a := lanes 16 v.a
  let bytes := lanes 8 v.a
  let wide := lanes 32 v.a ++ lanes 32 v.b
  match fn with
  | 0 => v.each 16 8 (fun k d => (Flt.ofInt (int16 (lane a k))).code 7 d) d
  | 1 => v.each 16 8 (fun k d =>
      let r := (Flt.ofBits 7 (lane a k)).toInt (-32768) 32767 d
      (fieldOf 16 r.1, r.2)) d
  | 2 => v.each 32 4 (fun k d => (Flt.ofBits 7 (lane a k)).code 23 d) d
  | 3 => v.each 32 4 (fun k d => (Flt.ofBits 7 (lane a (k + 4))).code 23 d) d
  | 4 => v.each 16 8 (fun k d => (Flt.ofBits 23 (lane wide k)).code 7 d) d
  | 5 => v.each 16 8 (fun k d => (fieldOf 16 (signedOf 8 (lane bytes k)), d)) d
  | 6 => v.each 8 8 (fun k d => (fieldOf 8 (clampInt (-128) 127 (int16 (lane a k))), d)) d
  | _ => v.each 16 8 (fun k d => (fieldOf 16 (signedOf 8 (lane bytes (k + 8))), d)) d

/-- What VCVT makes of its operands, by fn. -/
def vcvtVec (fn : Nat) (v : VIn) (d : Draws) : BitVec 128 × Draws :=
  vcvtOp fn v d

def execVcvt (h : Hart) (vd va vb : BitVec 4) (p : BitVec 3) (fn : BitVec 11) (s : State) : Outcome :=
  onVector h (.vcvt h vd va vb p fn) vd va vb p s (vcvtVec fn.toNat)

/-- The formats of VNQ and VDQ (R327). -/
def narrowFmt (fn : Nat) : Fmt := [Fmt.a2, .a4, .a6, .a8, .g8, .m8].getD fn .m8

/-- The scale in BF16 lane 0. -/
def scaleLane (b : BitVec 128) : Flt := Flt.ofBits 7 (lane (lanes 16 b) 0)

def Flt.isZero : Flt → Bool
  | .fin _ 0 _ => true
  | _ => false

/-- VNQ (R327): a lane whose predicate bit is 0, and every lane where the scale is 0, gives code 0. -/
def vnqOp (f : Fmt) (v : VIn) (d : Draws) : BitVec 128 × Draws :=
  let a := lanes 16 v.a
  let s := scaleLane v.b
  let q : Int := 2 ^ (f.bits - 1) - 1
  let r := (List.range 8).foldl (fun (r : List Int × Draws) k =>
    if v.p.getLsbD k ∧ ¬ Flt.isZero s then
      let y := narrowCode q (Flt.ofBits 7 (lane a k)) s r.2
      (r.1 ++ [y.1], y.2)
    else (r.1 ++ [0], r.2)) ([], d)
  (BitVec.ofNat 128 (leNat (f.pack r.1)), r.2)

/-- What VNQ makes of its operands, by fn. -/
def vnqVec (fn : Nat) (v : VIn) (d : Draws) : BitVec 128 × Draws :=
  vnqOp (narrowFmt fn) v d

def execVnq (h : Hart) (vd va vb : BitVec 4) (p : BitVec 3) (fn : BitVec 11) (s : State) : Outcome :=
  onVector h (.vnq h vd va vb p fn) vd va vb p s (vnqVec fn.toNat)

/-- VDQ (R62, R327). -/
def vdqVec (fn : Nat) (v : VIn) (d : Draws) : BitVec 128 × Draws :=
  let bs := leBytes 16 v.a.toNat
  v.each 16 8 (fun k d => ((Flt.ofInt ((narrowFmt fn).elem bs k)).mul (scaleLane v.b)).code 7 d) d

def execVdq (h : Hart) (vd va vb : BitVec 4) (p : BitVec 3) (fn : BitVec 11) (s : State) : Outcome :=
  onVector h (.vdq h vd va vb p fn) vd va vb p s (vdqVec fn.toNat)

/-- VU8 (R69, R328): fn 0 decodes bytes, a byte 0 to zero exactly; fn 1 encodes into vd[63:0]. -/
def vu8Vec (fn : Nat) (v : VIn) (d : Draws) : BitVec 128 × Draws :=
  let sc := scaleLane v.b
  if fn = 0 then
    let u := lanes 8 v.a
    v.each 16 8 (fun k d =>
      let r := (Flt.ofInt (lane u k)).mul sc
      (if lane u k = 0 then Flt.fin false 0 0 else r.mul r).code 7 d) d
  else
    let a := lanes 16 v.a
    v.each 8 8 (fun k d => rootByte (Flt.ofBits 7 (lane a k)) sc d) d

def execVu8 (h : Hart) (vd va vb : BitVec 4) (p : BitVec 3) (fn : BitVec 11) (s : State) : Outcome :=
  onVector h (.vu8 h vd va vb p fn) vd va vb p s (vu8Vec fn.toNat)

/-- VSC (R71, R324). -/
def vscVec (fn : Nat) (v : VIn) (d : Draws) : BitVec 128 × Draws :=
  let a := lanes 16 v.a
  v.each 16 8 (fun k d =>
    if fn = 0 then sc16OfFlt (Flt.ofBits 7 (lane a k)) d else (Flt.ofSc16 (lane a k)).code 7 d) d

def execVsc (h : Hart) (vd va vb : BitVec 4) (p : BitVec 3) (fn : BitVec 11) (s : State) : Outcome :=
  onVector h (.vsc h vd va vb p fn) vd va vb p s (vscVec fn.toNat)

/-- VRAND (R94, R324): 4 fresh steps give 8 draws, lane k draw k; a pending draw is discarded. -/
def vrandVec (_fn : Nat) (v : VIn) (d : Draws) : BitVec 128 × Draws :=
  let r := Gen.wholes 4 d.gen
  let xs := r.1.flatMap fun o => [bitsOf o.toNat 63 48, bitsOf o.toNat 47 32]
  v.each 16 8 (fun k d => (lane xs k, d)) { d with gen := r.2 }

def execVrand (h : Hart) (vd va vb : BitVec 4) (p : BitVec 3) (fn : BitVec 11) (s : State) : Outcome :=
  onVector h (.vrand h vd va vb p fn) vd va vb p s (vrandVec fn.toNat)

end Sys2Proof.Machine
end

