-- ==== Sys2Proof/Machine/Veld.lean ====
section
/-!
DEFINITION. Sys2Proof/Machine/Veld.lean: the events of Velds and sites: programming (R165 to R170), checks
(R172), refresh and migration (R174 to R180), level images (R518), steps (R334) and spawn queues (R329).
-/

namespace Sys2Proof.Machine

/-- Veld and physical site exist (R17). -/
def siteOk (n ps : Nat) : Bool := decide (n < 36 ∧ ps < 800)

def veldOk (n : Nat) : Bool := decide (n < 36)

def logicalOk (i : Nat) : Bool := decide (i < 27648)

/-- PROGRAM_GRAIN (R165 to R170). -/
def execProgramGrain (n ps : Nat) (reads : List (List Nat)) (s : State) : Outcome :=
  onUnits (siteOk n ps) s fun c => c.programGrain n ps reads

/-- The shard of a slot that targets a logical site. -/
def Chip.shardOfSite (c : Chip) (t k i : Nat) : Option Nat :=
  (List.range (c.slotInfo t k).shards.length).find? fun j =>
    match (c.slotInfo t k).shards[j]? with
    | some s => s.target == 0 && c.rankSite t s.index == some i
    | none => false

/-- WRITE_WINDOW_TIMEOUT (R169, R365): programming for a set stayed paused longer than wwin_wait. -/
def Chip.writeWindowTimeout (c : Chip) (n ps : Nat) : Chip :=
  match c.prog n ps with
  | some p => match p.what, p.paused with
    | .set t k _ _ _, true => c.failSet t k Status.writeWindow (c.shardOfSite t k p.logical)
    | _, _ => c
  | none => c

def execWriteWindowTimeout (n ps : Nat) (s : State) : Outcome :=
  onUnits (siteOk n ps) s fun c => c.writeWindowTimeout n ps

/-- R358: a site programmed for a set holds it: seeds in its store, weight scale, epoch and owner. -/
def Chip.siteProgrammed (c : Chip) (n ps t k sw soff : Nat) (seeds : List Byte) (i : Nat) : Chip :=
  let c := c.store (storeBase i + soff) (seeds.take 128)
  let e := c.slotEpoch t k
  let c := c.setArr n ps { c.arr n ps with sw := sw, epoch := e, seeds := seeds }
  let c := ((c.setF Fld.siteAstate_epoch [n, ps] e).setF Fld.siteAstate_owner [n, ps] t).setF
    Fld.siteAstate_state [n, ps] 2
  let c := c.saveRecord n ps
  match c.shardOfSite t k i with
  | some j => if c.slotState t k = 1 then c.shardPlaced t k j else c
  | none => c

/-- PROGRAMMING_DONE (R155, R165, R174 step 4, R176, R358, R513): the last group of a site is verified. -/
def Chip.programmingDone (c : Chip) (n ps : Nat) (noise : List Int) : Chip :=
  match c.prog n ps with
  | none => c
  | some p =>
    if p.group < progGroups then c
    else match p.what with
      | .set t k sw soff seeds =>
        ((c.programEnd n ps p noise).siteProgrammed n ps t k sw soff seeds p.logical).wornOut n ps
      | .refresh =>
        let c := (c.programEnd n ps p noise).saveRecord n ps
        match (c.veld n).op with
        | some o =>
          -- a spare worn out by this is retired, and another one takes its place (R179)
          if 100000 ≤ c.f Fld.siteWrites_writes [n, ps] then
            (c.retireSite n ps).requeueOp n o (if o.why = .site then .site else .refresh)
          else c.setVeld n { c.veld n with op := some { o with stage := 5 } }
        | none => c
      | .inPlace =>
        let c := (c.programEnd n ps p noise).setF Fld.siteAstate_state [n, ps] 2
        let c := (c.setVeld n { c.veld n with op := none }).setF Fld.veldState_refreshSite [n] 0x3FF
        ((c.saveRecord n ps).wornOut n ps).nextStep p.logical
      | .rewrite => c

def execProgrammingDone (n ps : Nat) (noise : List Int) (s : State) : Outcome :=
  onUnits (siteOk n ps) s fun c => c.programmingDone n ps noise

/-- SITE_CHECK (R172, R173, R293). -/
def execSiteCheck (n phases : Nat) (off : List (Nat × Nat × Nat)) (seen : CheckSeen) (s : State) : Outcome :=
  onUnits (veldOk n) s fun c => c.siteCheck n phases off seen

/-- R365: a target site marked invalid during a load fails the set. -/
def Chip.failInvalid (c : Chip) : Chip :=
  (List.range 128).foldl (fun c q =>
    let t := q / 2
    let k := q % 2
    if c.slotState t k = 1 ∧ (c.slotInfo t k).sites.any fun i => !c.lmapValid i then
      c.failSet t k Status.setNotActive none
    else c) c

/-- REFRESH_START (R174, R176, R178, R180). -/
def execRefreshStart (n : Nat) (s : State) : Outcome :=
  onUnits (veldOk n) s fun c => (c.refreshStart n).failInvalid

/-- MIGRATION (R174, R175). -/
def execMigration (n : Nat) (s : State) : Outcome :=
  onUnits (veldOk n) s fun c => c.migrate n

/-- OLD_SITE_REWRITTEN (R174 step 8). -/
def execOldSiteRewritten (n : Nat) (noise : List Int) (s : State) : Outcome :=
  onUnits (veldOk n) s fun c => c.oldRewritten n noise

/-- IMAGE_CHECK_RETRY (R518): the images that were missing or wrong are looked at again. -/
def Chip.imageRetry (c : Chip) (n : Nat) : Chip :=
  let waiting := ((c.veld n).queue.map fun p => p.1) ++
    (match c.logicalOf n (c.f Fld.veldState_checkSite [n]) with
     | some i => [i]
     | none => [])
  waiting.foldl (fun c i => if (c.siteArr i).missed then (c.useImage i).1 else c) c

def execImageCheckRetry (n : Nat) (s : State) : Outcome :=
  onUnits (veldOk n) s fun c => c.imageRetry n

/-- ASTEP_END (R153, R334). -/
def execAstepEnd (i : Nat) (noise : List Int) (s : State) : Outcome :=
  onUnits (logicalOk i) s fun c => c.stepEnd i noise

/-- SPAWN_DEQUEUE (R329): a queued start takes the lowest FREE thread. -/
def Chip.spawnDequeue (c : Chip) (i : Nat) : Chip :=
  let k := c.core i
  match c.freeHart i, k.spawnq with
  | some h, x :: rest => (c.setCore i { k with spawnq := rest }).startThread h x
  | _, _ => c

def execSpawnDequeue (i : Nat) (s : State) : Outcome :=
  onUnits (logicalOk i) s fun c => c.spawnDequeue i

end Sys2Proof.Machine
end

