-- ==== Sys2Proof/Machine/Dispatch.lean ====
section
/-!
DEFINITION. Sys2Proof/Machine/Dispatch.lean: one arm per command, each a direct call of its meaning.
-/

namespace Sys2Proof.Machine

def exec (i : Instr) (s : State) : Host.Outcome State Fault Refusal :=
  match i with
  | .sysInfo m => Sys2Proof.Machine.execSysInfo m s
  | .sysEcho m => Sys2Proof.Machine.execSysEcho m s
  | .sysDrainVale m => Sys2Proof.Machine.execSysDrainVale m s
  | .sysDrainVeld m => Sys2Proof.Machine.execSysDrainVeld m s
  | .sysResume m => Sys2Proof.Machine.execSysResume m s
  | .tentOpen a => Sys2Proof.Machine.execTentOpen a s
  | .tentQuiesce a => Sys2Proof.Machine.execTentQuiesce a s
  | .tentClose a => Sys2Proof.Machine.execTentClose a s
  | .quiesceDone t => Sys2Proof.Machine.execQuiesceDone t s
  | .tentDales m => Sys2Proof.Machine.execTentDales m s
  | .tentSites m => Sys2Proof.Machine.execTentSites m s
  | .tentWindows m => Sys2Proof.Machine.execTentWindows m s
  | .tentBudget m => Sys2Proof.Machine.execTentBudget m s
  | .wsetLoad m => Sys2Proof.Machine.execWsetLoad m s
  | .wsetPoint m => Sys2Proof.Machine.execWsetPoint m s
  | .wsetRelease m => Sys2Proof.Machine.execWsetRelease m s
  | .releaseComplete t slot => Sys2Proof.Machine.execReleaseComplete t slot s
  | .imageLoad m => Sys2Proof.Machine.execImageLoad m s
  | .jobDale m => Sys2Proof.Machine.execJobDale m s
  | .jobCoder m => Sys2Proof.Machine.execJobCoder m s
  | .jobLaunch m => Sys2Proof.Machine.execJobLaunch m s
  | .calExport m => Sys2Proof.Machine.execCalExport m s
  | .calImport m bad => Sys2Proof.Machine.execCalImport m bad s
  | .calRun m results => Sys2Proof.Machine.execCalRun m results s
  | .guyLoop m => Sys2Proof.Machine.execGuyLoop m s
  | .guyCoef m => Sys2Proof.Machine.execGuyCoef m s
  | .guyStd m => Sys2Proof.Machine.execGuyStd m s
  | .convInject m => Sys2Proof.Machine.execConvInject m s
  | .convTable m => Sys2Proof.Machine.execConvTable m s
  | .drvCh m => Sys2Proof.Machine.execDrvCh m s
  | .drvXt m => Sys2Proof.Machine.execDrvXt m s
  | .thermalRelease m => Sys2Proof.Machine.execThermalRelease m s
  | .thmRecord m => Sys2Proof.Machine.execThmRecord m s
  | .pwrBudget m => Sys2Proof.Machine.execPwrBudget m s
  | .passOpen m => Sys2Proof.Machine.execPassOpen m s
  | .passClose m => Sys2Proof.Machine.execPassClose m s
  | .passExport m => Sys2Proof.Machine.execPassExport m s
  | .passRoute m => Sys2Proof.Machine.execPassRoute m s
  | .radioSections m now => Sys2Proof.Machine.execRadioSections m now s
  | .attest m => Sys2Proof.Machine.execAttest m s
  | .keyInstall m => Sys2Proof.Machine.execKeyInstall m s
  | .keyRemove m => Sys2Proof.Machine.execKeyRemove m s
  | .fwLoad m => Sys2Proof.Machine.execFwLoad m s
  | .fwSwitch m => Sys2Proof.Machine.execFwSwitch m s
  | .fwTrialEnd => Sys2Proof.Machine.execFwTrialEnd s
  | .cairnIdent m => Sys2Proof.Machine.execCairnIdent m s
  | .cairnRecords m => Sys2Proof.Machine.execCairnRecords m s
  | .cairnEvents m => Sys2Proof.Machine.execCairnEvents m s
  | .regRead m => Sys2Proof.Machine.execRegRead m s
  | .regWrite m => Sys2Proof.Machine.execRegWrite m s
  | .memRead m => Sys2Proof.Machine.execMemRead m s
  | .memWrite m => Sys2Proof.Machine.execMemWrite m s
  | .alu h rd ra rb fn => Sys2Proof.Machine.execAlu h rd ra rb fn s
  | .addi h rd ra imm => Sys2Proof.Machine.execAddi h rd ra imm s
  | .andi h rd ra imm => Sys2Proof.Machine.execAndi h rd ra imm s
  | .ori h rd ra imm => Sys2Proof.Machine.execOri h rd ra imm s
  | .xori h rd ra imm => Sys2Proof.Machine.execXori h rd ra imm s
  | .shi h rd ra imm => Sys2Proof.Machine.execShi h rd ra imm s
  | .slti h rd ra imm => Sys2Proof.Machine.execSlti h rd ra imm s
  | .lih h rd ra imm => Sys2Proof.Machine.execLih h rd ra imm s
  | .addpc h rd ra imm => Sys2Proof.Machine.execAddpc h rd ra imm s
  | .ld8s h rd ra imm => Sys2Proof.Machine.execLd8s h rd ra imm s
  | .ld8u h rd ra imm => Sys2Proof.Machine.execLd8u h rd ra imm s
  | .ld16s h rd ra imm => Sys2Proof.Machine.execLd16s h rd ra imm s
  | .ld16u h rd ra imm => Sys2Proof.Machine.execLd16u h rd ra imm s
  | .ld32s h rd ra imm => Sys2Proof.Machine.execLd32s h rd ra imm s
  | .ld32u h rd ra imm => Sys2Proof.Machine.execLd32u h rd ra imm s
  | .ld64 h rd ra imm => Sys2Proof.Machine.execLd64 h rd ra imm s
  | .st8 h rb ra imm => Sys2Proof.Machine.execSt8 h rb ra imm s
  | .st16 h rb ra imm => Sys2Proof.Machine.execSt16 h rb ra imm s
  | .st32 h rb ra imm => Sys2Proof.Machine.execSt32 h rb ra imm s
  | .st64 h rb ra imm => Sys2Proof.Machine.execSt64 h rb ra imm s
  | .amo h rd ra rb fn => Sys2Proof.Machine.execAmo h rd ra rb fn s
  | .fence h rd ra rb fn => Sys2Proof.Machine.execFence h rd ra rb fn s
  | .beq h ra rb off => Sys2Proof.Machine.execBeq h ra rb off s
  | .bne h ra rb off => Sys2Proof.Machine.execBne h ra rb off s
  | .blt h ra rb off => Sys2Proof.Machine.execBlt h ra rb off s
  | .bge h ra rb off => Sys2Proof.Machine.execBge h ra rb off s
  | .bltu h ra rb off => Sys2Proof.Machine.execBltu h ra rb off s
  | .bgeu h ra rb off => Sys2Proof.Machine.execBgeu h ra rb off s
  | .jal h rd off => Sys2Proof.Machine.execJal h rd off s
  | .jalr h rd ra imm => Sys2Proof.Machine.execJalr h rd ra imm s
  | .gets h rd ra imm => Sys2Proof.Machine.execGets h rd ra imm s
  | .halt h => Sys2Proof.Machine.execHalt h s
  | .spawn h rd ra rb fn => Sys2Proof.Machine.execSpawn h rd ra rb fn s
  | .spawnDequeue i1 => Sys2Proof.Machine.execSpawnDequeue i1 s
  | .waitm h rd ra rb fn => Sys2Proof.Machine.execWaitm h rd ra rb fn s
  | .waitmWake h => Sys2Proof.Machine.execWaitmWake h s
  | .waitmPoll h => Sys2Proof.Machine.execWaitmPoll h s
  | .waitmTimeout h => Sys2Proof.Machine.execWaitmTimeout h s
  | .tickw h rd ra rb fn => Sys2Proof.Machine.execTickw h rd ra rb fn s
  | .denq h rd ra rb fn => Sys2Proof.Machine.execDenq h rd ra rb fn s
  | .astep h rd ra rb fn => Sys2Proof.Machine.execAstep h rd ra rb fn s
  | .astepEnd i1 noise => Sys2Proof.Machine.execAstepEnd i1 noise s
  | .aclose h rd ra rb fn => Sys2Proof.Machine.execAclose h rd ra rb fn s
  | .vi h vd va vb p fn => Sys2Proof.Machine.execVi h vd va vb p fn s
  | .vb h vd va vb p fn => Sys2Proof.Machine.execVb h vd va vb p fn s
  | .vf h vd va vb p fn => Sys2Proof.Machine.execVf h vd va vb p fn s
  | .vcmp h vd va vb p fn => Sys2Proof.Machine.execVcmp h vd va vb p fn s
  | .vred h vd va vb p fn => Sys2Proof.Machine.execVred h vd va vb p fn s
  | .vmov h vd x lane fn => Sys2Proof.Machine.execVmov h vd x lane fn s
  | .vperm h vd va vb p fn => Sys2Proof.Machine.execVperm h vd va vb p fn s
  | .vcvt h vd va vb p fn => Sys2Proof.Machine.execVcvt h vd va vb p fn s
  | .vld h v ra off => Sys2Proof.Machine.execVld h v ra off s
  | .vst h v ra off => Sys2Proof.Machine.execVst h v ra off s
  | .vnq h vd va vb p fn => Sys2Proof.Machine.execVnq h vd va vb p fn s
  | .vdq h vd va vb p fn => Sys2Proof.Machine.execVdq h vd va vb p fn s
  | .vu8 h vd va vb p fn => Sys2Proof.Machine.execVu8 h vd va vb p fn s
  | .vsc h vd va vb p fn => Sys2Proof.Machine.execVsc h vd va vb p fn s
  | .vrand h vd va vb p fn => Sys2Proof.Machine.execVrand h vd va vb p fn s
  | .memAccessResponse h n => Sys2Proof.Machine.execMemAccessResponse h n s
  | .threadStop w n p t => Sys2Proof.Machine.execThreadStop w n p t s
  | .ticketClear w addr x => Sys2Proof.Machine.execTicketClear w addr x s
  | .frameLenWrite w x => Sys2Proof.Machine.execFrameLenWrite w x s
  | .credBudgetWrite w x => Sys2Proof.Machine.execCredBudgetWrite w x s
  | .groupCfgWrite w g x => Sys2Proof.Machine.execGroupCfgWrite w g x s
  | .daleRowmapWrite w v d x => Sys2Proof.Machine.execDaleRowmapWrite w v d x s
  | .parkColWrite w v d x => Sys2Proof.Machine.execParkColWrite w v d x s
  | .daleSideAdd w v d x => Sys2Proof.Machine.execDaleSideAdd w v d x s
  | .valeBankOwnerWrite w v b x => Sys2Proof.Machine.execValeBankOwnerWrite w v b x s
  | .veldImgBaseWrite w n x => Sys2Proof.Machine.execVeldImgBaseWrite w n x s
  | .actxCreate w n p a x => Sys2Proof.Machine.execActxCreate w n p a x s
  | .coreRseedLoad w n p x => Sys2Proof.Machine.execCoreRseedLoad w n p x s
  | .guySeedLoad w v x => Sys2Proof.Machine.execGuySeedLoad w v x s
  | .tableGo w v l x => Sys2Proof.Machine.execTableGo w v l x s
  | .tableHalt w v l x => Sys2Proof.Machine.execTableHalt w v l x s
  | .trackerClear w v l x => Sys2Proof.Machine.execTrackerClear w v l x s
  | .hkTrackerClear w k x => Sys2Proof.Machine.execHkTrackerClear w k x s
  | .injectRequest w v l x => Sys2Proof.Machine.execInjectRequest w v l x s
  | .convSeqWrite w v l e x => Sys2Proof.Machine.execConvSeqWrite w v l e x s
  | .convTrigWrite w v k x => Sys2Proof.Machine.execConvTrigWrite w v k x s
  | .hkSeqWrite w e x => Sys2Proof.Machine.execHkSeqWrite w e x s
  | .drvChWrite w v n x => Sys2Proof.Machine.execDrvChWrite w v n x s
  | .rangeHoldRelease v n => Sys2Proof.Machine.execRangeHoldRelease v n s
  | .deglitchRelease v n => Sys2Proof.Machine.execDeglitchRelease v n s
  | .drvPairWrite w v x => Sys2Proof.Machine.execDrvPairWrite w v x s
  | .toneCtlWrite w v t x => Sys2Proof.Machine.execToneCtlWrite w v t x s
  | .guyLoopWrite w v n xs => Sys2Proof.Machine.execGuyLoopWrite w v n xs s
  | .guyCoefWrite w v n k xs => Sys2Proof.Machine.execGuyCoefWrite w v n k xs s
  | .testGo w v x => Sys2Proof.Machine.execTestGo w v x s
  | .testStop w v x => Sys2Proof.Machine.execTestStop w v x s
  | .testEnd v => Sys2Proof.Machine.execTestEnd v s
  | .captureGo w v x => Sys2Proof.Machine.execCaptureGo w v x s
  | .captureStop w v x => Sys2Proof.Machine.execCaptureStop w v x s
  | .tentDaleWrite w k x => Sys2Proof.Machine.execTentDaleWrite w k x s
  | .daleOwnerChange k => Sys2Proof.Machine.execDaleOwnerChange k s
  | .tentSiteWrite w i1 x => Sys2Proof.Machine.execTentSiteWrite w i1 x s
  | .siteOwnerChange i1 => Sys2Proof.Machine.execSiteOwnerChange i1 s
  | .wsetActiveWrite w t x => Sys2Proof.Machine.execWsetActiveWrite w t x s
  | .fhCfgWrite w x => Sys2Proof.Machine.execFhCfgWrite w x s
  | .fhOffsetWrite w x => Sys2Proof.Machine.execFhOffsetWrite w x s
  | .fhEaxcWrite w k x0 x1 => Sys2Proof.Machine.execFhEaxcWrite w k x0 x1 s
  | .fhWinWrite w x => Sys2Proof.Machine.execFhWinWrite w x s
  | .fhSfnSet w x => Sys2Proof.Machine.execFhSfnSet w x s
  | .decSubmit w t x => Sys2Proof.Machine.execDecSubmit w t x s
  | .decHarqCfgWrite w t x0 x1 => Sys2Proof.Machine.execDecHarqCfgWrite w t x0 x1 s
  | .decHarqClr w x => Sys2Proof.Machine.execDecHarqClr w x s
  | .sysMsgPost w t x => Sys2Proof.Machine.execSysMsgPost w t x s
  | .moduleIdWrite w x => Sys2Proof.Machine.execModuleIdWrite w x s
  | .boostEnWrite w x => Sys2Proof.Machine.execBoostEnWrite w x s
  | .passRouteWrite w m x => Sys2Proof.Machine.execPassRouteWrite w m x s
  | .passExportWrite w k x0 x1 => Sys2Proof.Machine.execPassExportWrite w k x0 x1 s
  | .lantSecWrite w x => Sys2Proof.Machine.execLantSecWrite w x s
  | .registerWrite w addr xs => Sys2Proof.Machine.execRegisterWrite w addr xs s
  | .slotTick t => Sys2Proof.Machine.execSlotTick t s
  | .freeRunningTick => Sys2Proof.Machine.execFreeRunningTick s
  | .frameBoundary => Sys2Proof.Machine.execFrameBoundary s
  | .gateFrameChange g => Sys2Proof.Machine.execGateFrameChange g s
  | .waitLimitExpire g t => Sys2Proof.Machine.execWaitLimitExpire g t s
  | .leaseRequest g t qty => Sys2Proof.Machine.execLeaseRequest g t qty s
  | .creditRequest a => Sys2Proof.Machine.execCreditRequest a s
  | .creditGrant => Sys2Proof.Machine.execCreditGrant s
  | .rampRefill g us => Sys2Proof.Machine.execRampRefill g us s
  | .creditRelease a => Sys2Proof.Machine.execCreditRelease a s
  | .channelFault die index channel units => Sys2Proof.Machine.execChannelFault die index channel units s
  | .jobStart v d => Sys2Proof.Machine.execJobStart v d s
  | .lockWaitExpire v d => Sys2Proof.Machine.execLockWaitExpire v d s
  | .reloadStaged v d => Sys2Proof.Machine.execReloadStaged v d s
  | .loadStrobe v d => Sys2Proof.Machine.execLoadStrobe v d s
  | .heaterSettled v d => Sys2Proof.Machine.execHeaterSettled v d s
  | .columnStrobe v d => Sys2Proof.Machine.execColumnStrobe v d s
  | .holdCellRefresh v d p => Sys2Proof.Machine.execHoldCellRefresh v d p s
  | .batchStart v d now bad => Sys2Proof.Machine.execBatchStart v d now bad s
  | .batchEnd v d noise => Sys2Proof.Machine.execBatchEnd v d noise s
  | .jobComplete v d => Sys2Proof.Machine.execJobComplete v d s
  | .tagDecode v port tag => Sys2Proof.Machine.execTagDecode v port tag s
  | .batchReissue v d => Sys2Proof.Machine.execBatchReissue v d s
  | .tagLossTimeout v b => Sys2Proof.Machine.execTagLossTimeout v b s
  | .rotationStep v d m => Sys2Proof.Machine.execRotationStep v d m s
  | .selectorCal v b r1 p1 r2 p2 => Sys2Proof.Machine.execSelectorCal v b r1 p1 r2 p2 s
  | .triggerTick v k => Sys2Proof.Machine.execTriggerTick v k s
  | .entryStart v l => Sys2Proof.Machine.execEntryStart v l s
  | .entryOutput v l samples fired => Sys2Proof.Machine.execEntryOutput v l samples fired s
  | .injectionRun v l taken => Sys2Proof.Machine.execInjectionRun v l taken s
  | .calConvStart v l taken bound => Sys2Proof.Machine.execCalConvStart v l taken bound s
  | .adcRotationStep v => Sys2Proof.Machine.execAdcRotationStep v s
  | .hkRound samples => Sys2Proof.Machine.execHkRound samples s
  | .coolantComparator hot => Sys2Proof.Machine.execCoolantComparator hot s
  | .loopTick v n => Sys2Proof.Machine.execLoopTick v n s
  | .lineStepExpire v b => Sys2Proof.Machine.execLineStepExpire v b s
  | .acqFail v n => Sys2Proof.Machine.execAcqFail v n s
  | .programGrain n ps reads => Sys2Proof.Machine.execProgramGrain n ps reads s
  | .writeWindowTimeout n ps => Sys2Proof.Machine.execWriteWindowTimeout n ps s
  | .programmingDone n ps noise => Sys2Proof.Machine.execProgrammingDone n ps noise s
  | .siteCheck n phases off seen => Sys2Proof.Machine.execSiteCheck n phases off seen s
  | .refreshStart n => Sys2Proof.Machine.execRefreshStart n s
  | .migration n => Sys2Proof.Machine.execMigration n s
  | .oldSiteRewritten n noise => Sys2Proof.Machine.execOldSiteRewritten n noise s
  | .shardArrival t slot shard => Sys2Proof.Machine.execShardArrival t slot shard s
  | .shardTimeout t slot shard => Sys2Proof.Machine.execShardTimeout t slot shard s
  | .bcastWaitExpire t slot shard => Sys2Proof.Machine.execBcastWaitExpire t slot shard s
  | .fingerprintVerify t slot noise => Sys2Proof.Machine.execFingerprintVerify t slot noise s
  | .uplaneReceive port bytes after => Sys2Proof.Machine.execUplaneReceive port bytes after s
  | .cplaneSend slot down => Sys2Proof.Machine.execCplaneSend slot down s
  | .dlUplaneSend slot l => Sys2Proof.Machine.execDlUplaneSend slot l s
  | .ptpMessage port bytes te => Sys2Proof.Machine.execPtpMessage port bytes te s
  | .delayMeasurement port bytes ts comp => Sys2Proof.Machine.execDelayMeasurement port bytes ts comp s
  | .syncLocked => Sys2Proof.Machine.execSyncLocked s
  | .syncLossTimeout => Sys2Proof.Machine.execSyncLossTimeout s
  | .syncSourceReturn => Sys2Proof.Machine.execSyncSourceReturn s
  | .ppsEdge t => Sys2Proof.Machine.execPpsEdge t s
  | .codeBlockStart t now => Sys2Proof.Machine.execCodeBlockStart t now s
  | .codeBlockEnd id b => Sys2Proof.Machine.execCodeBlockEnd id b s
  | .coderComplete id => Sys2Proof.Machine.execCoderComplete id s
  | .flitReceive bytes => Sys2Proof.Machine.execFlitReceive bytes s
  | .retryRepeat => Sys2Proof.Machine.execRetryRepeat s
  | .idleAck => Sys2Proof.Machine.execIdleAck s
  | .replayTimeout => Sys2Proof.Machine.execReplayTimeout s
  | .retrain => Sys2Proof.Machine.execRetrain s
  | .linkDown => Sys2Proof.Machine.execLinkDown s
  | .linkUp bytes => Sys2Proof.Machine.execLinkUp bytes s
  | .hostReadRequest t slot shard off => Sys2Proof.Machine.execHostReadRequest t slot shard off s
  | .hostReadResponse tag ok data => Sys2Proof.Machine.execHostReadResponse tag ok data s
  | .hostReadTimeout tag => Sys2Proof.Machine.execHostReadTimeout tag s
  | .messageSend => Sys2Proof.Machine.execMessageSend s
  | .watchdogRestart => Sys2Proof.Machine.execWatchdogRestart s
  | .sinkFrameReceive n f => Sys2Proof.Machine.execSinkFrameReceive n f s
  | .sinkDarkTimeout n => Sys2Proof.Machine.execSinkDarkTimeout n s
  | .sinkWaitExpire n => Sys2Proof.Machine.execSinkWaitExpire n s
  | .sourceLocked n => Sys2Proof.Machine.execSourceLocked n s
  | .tagFrameSend n => Sys2Proof.Machine.execTagFrameSend n s
  | .remoteTimeout tag => Sys2Proof.Machine.execRemoteTimeout tag s
  | .wakeRequest asks ten => Sys2Proof.Machine.execWakeRequest asks ten s
  | .wakeWithdrawn => Sys2Proof.Machine.execWakeWithdrawn s
  | .wakeShutdown => Sys2Proof.Machine.execWakeShutdown s
  | .stageFault k cause => Sys2Proof.Machine.execStageFault k cause s
  | .stageFaultWaitEnd => Sys2Proof.Machine.execStageFaultWaitEnd s
  | .inputUndervoltage fired => Sys2Proof.Machine.execInputUndervoltage fired s
  | .inputOvervoltage fired => Sys2Proof.Machine.execInputOvervoltage fired s
  | .lanternPowerUp backup => Sys2Proof.Machine.execLanternPowerUp backup s
  | .lanternPowerLoss => Sys2Proof.Machine.execLanternPowerLoss s
  | .importWaitExpire => Sys2Proof.Machine.execImportWaitExpire s
  | .firstFullPass secs n failed steps => Sys2Proof.Machine.execFirstFullPass secs n failed steps s
  | .enterService noise => Sys2Proof.Machine.execEnterService noise s
  | .drainWaitExpire u n => Sys2Proof.Machine.execDrainWaitExpire u n s
  | .imageCheckRetry n => Sys2Proof.Machine.execImageCheckRetry n s
  | .storeUpdate => Sys2Proof.Machine.execStoreUpdate s
  | .activityFrame x crcOk => Sys2Proof.Machine.execActivityFrame x crcOk s
  | .intervalClose x => Sys2Proof.Machine.execIntervalClose x s
  | .cairnInputLoss x => Sys2Proof.Machine.execCairnInputLoss x s
  | .cairnInputReturn x => Sys2Proof.Machine.execCairnInputReturn x s
  | .sealOpened x state => Sys2Proof.Machine.execSealOpened x state s
  | .selfTest x start sum => Sys2Proof.Machine.execSelfTest x start sum s
  | .overloadBegin x peak => Sys2Proof.Machine.execOverloadBegin x peak s
  | .overloadEnd x peak => Sys2Proof.Machine.execOverloadEnd x peak s
  | .activityLinkLost x => Sys2Proof.Machine.execActivityLinkLost x s
  | .activityLinkRestored x => Sys2Proof.Machine.execActivityLinkRestored x s
  | .metrologyPulse x => Sys2Proof.Machine.execMetrologyPulse x s
  | .sidebandRequest op => Sys2Proof.Machine.execSidebandRequest op s
  | .bypass tdi => Sys2Proof.Machine.execBypass tdi s
  | .idcode tdi => Sys2Proof.Machine.execIdcode tdi s
  | .samplePreload tdi pins => Sys2Proof.Machine.execSamplePreload tdi pins s
  | .extest tdi pins => Sys2Proof.Machine.execExtest tdi pins s
  | .clamp tdi => Sys2Proof.Machine.execClamp tdi s
  | .highz tdi => Sys2Proof.Machine.execHighz tdi s
  | .illegalInstruction h w => Sys2Proof.Machine.execIllegalInstruction h w s
  | .unassignedOpcode op m => Sys2Proof.Machine.execUnassignedOpcode op m s
  | .injectedOutput v l samples fired => Sys2Proof.Machine.execInjectedOutput v l samples fired s
  | .calibrationConversionEnd v l samples => Sys2Proof.Machine.execCalibrationConversionEnd v l samples s
  | .sampleClockCycle => Sys2Proof.Machine.execSampleClockCycle s
  | .codewordReceive n corrected frames => Sys2Proof.Machine.execCodewordReceive n corrected frames s
  | .headerHunt n => Sys2Proof.Machine.execHeaderHunt n s
  | .lanternOnBackup => Sys2Proof.Machine.execLanternOnBackup s

end Sys2Proof.Machine
end

