-- ==== Sys2Proof/Machine/Step.lean ====
section
/-!
DEFINITION. Sys2Proof/Machine/Step.lean: one step takes the command at the front of the queue; an empty
queue lets the Lantern clock tick.
-/

namespace Sys2Proof.Machine

/-- One tick of the Lantern RTC (R298). -/
def State.idle (s : State) : State := { s with chip := s.chip.lantTick }

/-- The command at the front of the queue runs on the state with the rest of the queue; with none waiting one tick of
the Lantern's clock passes (log entry 66). -/
def step (s : State) : Host.Outcome State Fault Refusal :=
  match s.pending with
  | [] => .next (s.idle)
  | i :: rest => exec i { s with pending := rest }

/-- The command a table word spells is put at the front of the queue; the table gives no row bits, so
no word spells one. -/
def State.withFetchWord (s : State) (nbits w : Nat) : State :=
  match decodeTableWord nbits w with
  | some i => { s with pending := i :: s.pending }
  | none => s

end Sys2Proof.Machine
end

