-- ==== Sys2Proof/WellFormed.lean ====
section
/-!
DEFINITION. Sys2Proof/WellFormed.lean: which commands can be sent at all: the units they name exist (R16, R17), a
register write comes from a thread or a Tent that exists and names a register of the tables, and the fields of a thread
instruction make a word R323 does not call illegal.
-/

namespace Sys2Proof.Machine

/-- An event flag with a ticketed clear (R13) lies at the address. -/
def flagAt (addr : Nat) : Bool :=
  match regAt addr with
  | some r => r.name.desc.tc && r.inTable
  | none => false

end Sys2Proof.Machine

namespace Sys2Proof

open Machine

/-- A Tent action (R344, R421). -/
def Ask.wf : Ask → Bool
  | .cmd m => tentOk m.tent
  | .reg w t => writerOk w && ({ name := .tentCtl, idx := [t] } : Reg).inTable

def Instr.wf : Instr → Bool
  | .sysInfo m => tentOk m.tent
  | .sysEcho m => tentOk m.tent
  | .sysDrainVale m => tentOk m.tent
  | .sysDrainVeld m => tentOk m.tent
  | .sysResume m => tentOk m.tent
  | .tentOpen a => a.wf
  | .tentQuiesce a => a.wf
  | .tentClose a => a.wf
  | .quiesceDone t => (tentOk t)
  | .tentDales m => tentOk m.tent
  | .tentSites m => tentOk m.tent
  | .tentWindows m => tentOk m.tent
  | .tentBudget m => tentOk m.tent
  | .wsetLoad m => tentOk m.tent
  | .wsetPoint m => tentOk m.tent
  | .wsetRelease m => tentOk m.tent
  | .releaseComplete t k => (slotOk t k)
  | .imageLoad m => tentOk m.tent
  | .jobDale m => tentOk m.tent
  | .jobCoder m => tentOk m.tent
  | .jobLaunch m => tentOk m.tent
  | .calExport m => tentOk m.tent
  | .calImport m _ => tentOk m.tent
  | .calRun m _ => tentOk m.tent
  | .guyLoop m => tentOk m.tent
  | .guyCoef m => tentOk m.tent
  | .guyStd m => tentOk m.tent
  | .convInject m => tentOk m.tent
  | .convTable m => tentOk m.tent
  | .drvCh m => tentOk m.tent
  | .drvXt m => tentOk m.tent
  | .thermalRelease m => tentOk m.tent
  | .thmRecord m => tentOk m.tent
  | .pwrBudget m => tentOk m.tent
  | .passOpen m => tentOk m.tent
  | .passClose m => tentOk m.tent
  | .passExport m => tentOk m.tent
  | .passRoute m => tentOk m.tent
  | .radioSections m _ => tentOk m.tent
  | .attest m => tentOk m.tent
  | .keyInstall m => tentOk m.tent
  | .keyRemove m => tentOk m.tent
  | .fwLoad m => tentOk m.tent
  | .fwSwitch m => tentOk m.tent
  | .fwTrialEnd => true
  | .cairnIdent m => tentOk m.tent
  | .cairnRecords m => tentOk m.tent
  | .cairnEvents m => tentOk m.tent
  | .regRead m => tentOk m.tent
  | .regWrite m => tentOk m.tent
  | .memRead m => tentOk m.tent
  | .memWrite m => tentOk m.tent
  | .alu h _ _ _ fn => h.ok && decide (fn.toNat ≤ 20)
  | .addi h _ _ _ => h.ok
  | .andi h _ _ _ => h.ok
  | .ori h _ _ _ => h.ok
  | .xori h _ _ _ => h.ok
  | .shi h _ _ imm => h.ok && decide (imm.toNat < 192)
  | .slti h _ _ _ => h.ok
  | .lih h _ ra _ => h.ok && decide (ra.toNat < 4)
  | .addpc h _ _ _ => h.ok
  | .ld8s h _ _ _ => h.ok
  | .ld8u h _ _ _ => h.ok
  | .ld16s h _ _ _ => h.ok
  | .ld16u h _ _ _ => h.ok
  | .ld32s h _ _ _ => h.ok
  | .ld32u h _ _ _ => h.ok
  | .ld64 h _ _ _ => h.ok
  | .st8 h _ _ _ => h.ok
  | .st16 h _ _ _ => h.ok
  | .st32 h _ _ _ => h.ok
  | .st64 h _ _ _ => h.ok
  | .amo h _ _ _ fn => h.ok && decide (fn.toNat % 16 ≤ 9 ∧ fn.toNat < 128)
  | .fence h rd ra rb fn => h.ok && decide (rd = 0 ∧ ra = 0 ∧ rb = 0 ∧ fn.toNat < 16)
  | .beq h _ _ _ => h.ok
  | .bne h _ _ _ => h.ok
  | .blt h _ _ _ => h.ok
  | .bge h _ _ _ => h.ok
  | .bltu h _ _ _ => h.ok
  | .bgeu h _ _ _ => h.ok
  | .jal h _ _ => h.ok
  | .jalr h _ _ _ => h.ok
  | .gets h _ ra imm => h.ok && decide (ra = 0 ∧ imm.toNat ≤ 10)
  | .halt h => h.ok
  | .spawn h _ _ _ fn => h.ok && decide (fn = 0)
  | .spawnDequeue i => (logicalOk i)
  | .waitm h _ _ _ _ => h.ok
  | .waitmWake h => h.ok
  | .waitmPoll h => h.ok
  | .waitmTimeout h => h.ok
  | .tickw h _ ra rb fn => h.ok && decide (ra = 0 ∧ rb = 0 ∧ fn.toNat ≤ 1)
  | .denq h _ _ _ fn => h.ok && decide (fn = 0)
  | .astep h _ _ _ fn => h.ok && decide (fn.toNat < 128)
  | .astepEnd i _ => (logicalOk i)
  | .aclose h _ ra rb fn => h.ok && decide (ra = 0 ∧ rb = 0 ∧ fn.toNat < 4)
  | .vi h _ _ _ _ fn => h.ok && decide (fn.toNat ≤ 14)
  | .vb h _ _ _ _ fn => h.ok && decide (fn.toNat ≤ 11)
  | .vf h _ _ _ _ fn => h.ok && decide (fn.toNat ≤ 7)
  | .vcmp h vd _ _ _ fn => h.ok && decide (fn.toNat < 8 ∧ vd.toNat < 8)
  | .vred h _ _ _ _ fn => h.ok && decide (fn.toNat ≤ 4)
  | .vmov h _ _ _ fn => h.ok && decide (fn.toNat ≤ 6)
  | .vperm h _ _ _ _ fn => h.ok && decide (fn = 0)
  | .vcvt h _ _ _ _ fn => h.ok && decide (fn.toNat ≤ 7)
  | .vld h _ _ _ => h.ok
  | .vst h _ _ _ => h.ok
  | .vnq h _ _ _ _ fn => h.ok && decide (fn.toNat ≤ 5)
  | .vdq h _ _ _ _ fn => h.ok && decide (fn.toNat ≤ 5)
  | .vu8 h _ _ _ _ fn => h.ok && decide (fn.toNat ≤ 1)
  | .vsc h _ _ _ _ fn => h.ok && decide (fn.toNat ≤ 1)
  | .vrand h _ a b _ fn => h.ok && decide (a = 0 ∧ b = 0 ∧ fn = 0)
  | .memAccessResponse h _ => h.ok
  | .threadStop w n p t => (writerOk w && ({ name := .siteThreadCtl, idx := [n, p, t] } : Reg).inTable)
  | .ticketClear w addr _ => writerOk w && flagAt addr
  | .frameLenWrite w _ => (writerOk w && ({ name := .budFrameCfg } : Reg).inTable)
  | .credBudgetWrite w _ => (writerOk w && ({ name := .budCredBudget } : Reg).inTable)
  | .groupCfgWrite w g _ => groupOk g && writerOk w
  | .daleRowmapWrite w v d _ => (writerOk w && ({ name := .daleRowmap, idx := [v, d] } : Reg).inTable)
  | .parkColWrite w v d _ => (writerOk w && ({ name := .daleColmap, idx := [v, d] } : Reg).inTable)
  | .daleSideAdd w v d _ => (writerOk w && ({ name := .daleSide, idx := [v, d] } : Reg).inTable)
  | .valeBankOwnerWrite w v b _ => (writerOk w && ({ name := .valeBank, idx := [v, b] } : Reg).inTable)
  | .veldImgBaseWrite w n _ => (writerOk w && ({ name := .veldImgBase, idx := [n] } : Reg).inTable)
  | .actxCreate w n p a _ => (writerOk w && ({ name := .siteActxCfg, idx := [n, p, a] } : Reg).inTable)
  | .coreRseedLoad w n p _ => (writerOk w && ({ name := .siteCoreRseedHi, idx := [n, p] } : Reg).inTable)
  | .guySeedLoad w v _ => (writerOk w && ({ name := .guySeedHi, idx := [v] } : Reg).inTable)
  | .tableGo w v l _ => (writerOk w && ({ name := .convCtl, idx := [v, l] } : Reg).inTable)
  | .tableHalt w v l _ => (writerOk w && ({ name := .convCtl, idx := [v, l] } : Reg).inTable)
  | .trackerClear w v l _ => (writerOk w && ({ name := .convTrkClr, idx := [v, l] } : Reg).inTable)
  | .hkTrackerClear w k _ => (writerOk w && ({ name := .pwrHkTrkClr, idx := [k] } : Reg).inTable)
  | .injectRequest w v l _ => (writerOk w && ({ name := .convInj, idx := [v, l] } : Reg).inTable)
  | .convSeqWrite w v l e _ => (writerOk w && ({ name := .convSeq, idx := [v, l, e] } : Reg).inTable)
  | .convTrigWrite w v k _ => (writerOk w && ({ name := .convTrig, idx := [v, k] } : Reg).inTable)
  | .hkSeqWrite w e _ => (writerOk w && ({ name := .pwrHkSeq, idx := [e] } : Reg).inTable)
  | .drvChWrite w v n _ => (writerOk w && ({ name := .drvCh, idx := [v, n] } : Reg).inTable)
  | .rangeHoldRelease v n => (chanOk v n)
  | .deglitchRelease v n => (chanOk v n)
  | .drvPairWrite w v _ => (writerOk w && ({ name := .drvPair, idx := [v] } : Reg).inTable)
  | .toneCtlWrite w v t _ => (writerOk w && ({ name := .drvToneCtl, idx := [v, t] } : Reg).inTable)
  | .guyLoopWrite w v n _ => (writerOk w && ({ name := .guyLoop, idx := [v, n] } : Reg).inTable)
  | .guyCoefWrite w v n k _ => (writerOk w && ({ name := .guyCoef, idx := [v, n, k] } : Reg).inTable)
  | .testGo w v _ => (writerOk w && ({ name := .guyTestCtl, idx := [v] } : Reg).inTable)
  | .testStop w v _ => (writerOk w && ({ name := .guyTestCtl, idx := [v] } : Reg).inTable)
  | .testEnd v => (decide (v < 12))
  | .captureGo w v _ => (writerOk w && ({ name := .guyCapCtl, idx := [v] } : Reg).inTable)
  | .captureStop w v _ => (writerOk w && ({ name := .guyCapCtl, idx := [v] } : Reg).inTable)
  | .tentDaleWrite w k _ => (writerOk w && ({ name := .tentDale, idx := [k] } : Reg).inTable)
  | .daleOwnerChange k => (decide (k < 144))
  | .tentSiteWrite w i _ => (writerOk w && ({ name := .tentSite, idx := [i] } : Reg).inTable)
  | .siteOwnerChange i => (decide (i < 27648))
  | .wsetActiveWrite w t _ => (writerOk w && ({ name := .wsetActive, idx := [t] } : Reg).inTable)
  | .fhCfgWrite w _ => (writerOk w && ({ name := .fhCfg } : Reg).inTable)
  | .fhOffsetWrite w _ => (writerOk w && ({ name := .fhOffset } : Reg).inTable)
  | .fhEaxcWrite w k _ _ => (writerOk w && ({ name := .fhEaxc, idx := [k] } : Reg).inTable)
  | .fhWinWrite w _ => (writerOk w && ({ name := .fhWin } : Reg).inTable)
  | .fhSfnSet w _ => (writerOk w && ({ name := .fhSfnSet } : Reg).inTable)
  | .decSubmit w t _ => (writerOk w && ({ name := .decSubmit, idx := [t] } : Reg).inTable)
  | .decHarqCfgWrite w t _ _ => (writerOk w && ({ name := .decHarqCfg, idx := [t] } : Reg).inTable)
  | .decHarqClr w _ => (writerOk w && ({ name := .decHarqClr } : Reg).inTable)
  | .sysMsgPost w t _ => (writerOk w && ({ name := .sysMsgPost, idx := [t] } : Reg).inTable)
  | .moduleIdWrite w _ => (writerOk w && ({ name := .passCfg } : Reg).inTable)
  | .boostEnWrite w _ => (writerOk w && ({ name := .passPort } : Reg).inTable)
  | .passRouteWrite w m _ => (writerOk w && ({ name := .passRoute, idx := [m] } : Reg).inTable)
  | .passExportWrite w k _ _ => (writerOk w && ({ name := .passExport, idx := [k] } : Reg).inTable)
  | .lantSecWrite w _ => (writerOk w && ({ name := .lantSec } : Reg).inTable)
  | .registerWrite w addr _ => (writerOk w && decide (regBase ≤ addr ∧ addr < regBase + 2 ^ 32))
  | .slotTick _ => true
  | .freeRunningTick => true
  | .frameBoundary => true
  | .gateFrameChange g => (gateExists g)
  | .waitLimitExpire g t => (gateExists g && tentOk t)
  | .leaseRequest g t _ => (gateExists g && tentOk t)
  | .creditRequest a => (askerExists a)
  | .creditGrant => true
  | .rampRefill g _ => (groupOk g)
  | .creditRelease a => (askerExists a)
  | .channelFault die _ _ units => (decide (die < 4) && units.all fun p => drainUnit p.1 p.2)
  | .jobStart v d => (daleOk v d)
  | .lockWaitExpire v d => (daleOk v d)
  | .reloadStaged v d => (daleOk v d)
  | .loadStrobe v d => (daleOk v d)
  | .heaterSettled v d => (daleOk v d)
  | .columnStrobe v d => (daleOk v d)
  | .holdCellRefresh v d p => (daleOk v d && decide (p < 132))
  | .batchStart v d _ _ => (daleOk v d)
  | .batchEnd v d _ => (daleOk v d)
  | .jobComplete v d => (daleOk v d)
  | .tagDecode v port _ => (decide (v < 12 ∧ port < 16))
  | .batchReissue v d => (daleOk v d)
  | .tagLossTimeout v b => (decide (v < 12 ∧ b < 16))
  | .rotationStep v d _ => (daleOk v d)
  | .selectorCal v b _ _ _ _ => (decide (v < 12 ∧ b < 16))
  | .triggerTick v k => (decide (v < 12 ∧ 1 ≤ k ∧ k < 8))
  | .entryStart v l => (adcOk v l)
  | .entryOutput v l _ _ => (adcOk v l)
  | .injectionRun v l _ => (adcOk v l)
  | .calConvStart v l _ _ => (adcOk v l)
  | .adcRotationStep v => (decide (v < 12))
  | .hkRound _ => true
  | .coolantComparator _ => true
  | .loopTick v n => (loopOk v n)
  | .lineStepExpire v b => (decide (v < 12 ∧ b < 16))
  | .acqFail v n => (loopOk v n)
  | .programGrain n ps _ => (siteOk n ps)
  | .writeWindowTimeout n ps => (siteOk n ps)
  | .programmingDone n ps _ => (siteOk n ps)
  | .siteCheck n _ _ _ => (veldOk n)
  | .refreshStart n => (veldOk n)
  | .migration n => (veldOk n)
  | .oldSiteRewritten n _ => (veldOk n)
  | .shardArrival t slot _ => (slotOk t slot)
  | .shardTimeout t slot _ => (slotOk t slot)
  | .bcastWaitExpire t slot _ => (slotOk t slot)
  | .fingerprintVerify t slot _ => (slotOk t slot)
  | .uplaneReceive port _ _ => (decide (port < 8))
  | .cplaneSend _ _ => true
  | .dlUplaneSend _ l => (decide (l < 14))
  | .ptpMessage port _ _ => (decide (port < 8))
  | .delayMeasurement port _ _ _ => (decide (port < 8))
  | .syncLocked => true
  | .syncLossTimeout => true
  | .syncSourceReturn => true
  | .ppsEdge _ => true
  | .codeBlockStart t _ => (tentOk t)
  | .codeBlockEnd _ _ => true
  | .coderComplete _ => true
  | .flitReceive _ => true
  | .retryRepeat => true
  | .idleAck => true
  | .replayTimeout => true
  | .retrain => true
  | .linkDown => true
  | .linkUp _ => true
  | .hostReadRequest t slot _ _ => (slotOk t slot)
  | .hostReadResponse _ _ _ => true
  | .hostReadTimeout _ => true
  | .messageSend => true
  | .watchdogRestart => true
  | .sinkFrameReceive n _ => (sinkOk n)
  | .sinkDarkTimeout n => (sinkOk n)
  | .sinkWaitExpire n => (sinkOk n)
  | .sourceLocked n => (laneOk n)
  | .tagFrameSend n => (laneOk n)
  | .remoteTimeout _ => true
  | .wakeRequest _ _ => true
  | .wakeWithdrawn => true
  | .wakeShutdown => true
  | .stageFault k cause => (decide (k < 48 ∧ 1 ≤ cause ∧ cause ≤ 3))
  | .stageFaultWaitEnd => true
  | .inputUndervoltage _ => true
  | .inputOvervoltage _ => true
  | .lanternPowerUp _ => true
  | .lanternPowerLoss => true
  | .importWaitExpire => true
  | .firstFullPass _ _ failed steps => failed.all (fun k => decide (k < 144)) && decide (steps.length ≤ 144) &&
    steps.all fun y => y.cols.all fun x => decide (x.col < 66 ∧ x.cells ≤ 66 ∧ x.run ≤ 3)
  | .enterService _ => true
  | .drainWaitExpire u n => (drainUnit u n)
  | .imageCheckRetry n => (veldOk n)
  | .storeUpdate => true
  | .activityFrame _ _ => true
  | .intervalClose _ => true
  | .cairnInputLoss _ => true
  | .cairnInputReturn _ => true
  | .sealOpened _ _ => true
  | .selfTest _ _ _ => true
  | .overloadBegin _ _ => true
  | .overloadEnd _ _ => true
  | .activityLinkLost _ => true
  | .activityLinkRestored _ => true
  | .metrologyPulse _ => true
  | .sidebandRequest _ => true
  | .bypass _ => true
  | .idcode _ => true
  | .samplePreload _ _ => true
  | .extest _ _ => true
  | .clamp _ => true
  | .highz _ => true
  | .illegalInstruction h _ => h.ok
  | .unassignedOpcode _ m => tentOk m.tent
  | .injectedOutput v l _ _ => (adcOk v l)
  | .calibrationConversionEnd v l _ => (adcOk v l)
  | .sampleClockCycle => true
  | .codewordReceive n _ _ => (sinkOk n)
  | .headerHunt n => (sinkOk n)
  | .lanternOnBackup => true

end Sys2Proof
end

