-- ==== Sys2Proof/Safety.lean ====
section
/-!
DEFINITION. Sys2Proof/Safety.lean: the words the statements are written in: what a safe run is, when a command of the
host, of a thread or of the device is served, and what has been sent.
-/

namespace Sys2Proof.Machine

/-- A state from which the command at the front of the queue neither faults nor is refused. -/
def State.safe (s : State) : Prop := ∃ t, step s = .next t

/-- What the state holds in canonical form, in every state a run reaches and in every one a step keeps: memory (R22). -/
def State.wf (s : State) : Prop := Memory.wf s.chip.mem = true

/-- The reply is among what the device has sent since `c`. -/
def Sent (c d : Chip) (o : Out) : Prop := ∃ a b, d.outs = c.outs ++ a ++ o :: b

/-- R414: the final reply to a command with this status and detail has been sent since `c`, unless the command is
silent and the status OK. -/
def Answered (c d : Chip) (op : Nat) (m : Cmd) (status : Nat) (detail : Nat := 0) (words : List Word := []) : Prop :=
  (m.silent = true ∧ status = 0) ∨
  Sent c d (.reply { op := op, tent := m.tent, tag := m.tag, status := status, detail := detail, words := words })

/-- R415, R416: a host command that the device takes: a Tent's, the link served, the checks passed. -/
def Passes4 (c : Chip) (op : Nat) (m : Cmd) : Prop :=
  m.tent < 64 ∧ c.powered = true ∧ c.checks op m = none

/-- R417, R418: a command of the MP path that the MP takes at once, nothing of its Tent waiting before it, no restart of
the MP (R507) and its slice admitted; `c'` is the device as the MP begins with it. -/
def MpTakes (c : Chip) (op : Nat) (m : Cmd) (c' : Chip) : Prop :=
  Passes4 c op m ∧ c.mpQueue m.tent = [] ∧ c.boot.switching = none ∧ ∃ a, c.spend .mp m.tent mpSlice = some a ∧ c' = a.mpTaken m.tent

/-- R11, R422: a register write that its block's access rule admits, on a device that is powered. -/
def RegAdmits (c : Chip) (w : Writer) (r : Reg) (x : Word) : Prop :=
  writerOk w = true ∧ r.inTable = true ∧ c.powered = true ∧ c.mayWrite (c.writerTent w) r x = true

/-- R422: a host that wrote a register has been told the outcome; a thread is told nothing. -/
def Told (c d : Chip) (w : Writer) (status n : Nat) : Prop :=
  match w with
  | .thread _ => True
  | .host t tag => Sent c d (.reply { op := 0x0E02, tent := t, tag := tag, status := status, detail := n })

/-- R303, R306, R310: thread `h` issues instruction `i`: it is READY, has its turn, has fetched the instruction's word,
and the CORE grain and the MEM grains of its fetch and of its access are admitted; where the instruction is a release
its stores are performed (R317). `d` is the device as the instruction begins. -/
def Issues (c : Chip) (h : Hart) (i : Instr) (release : Bool) (touch : Option Touch) (d : Chip) : Prop :=
  h.ok = true ∧ c.powered = true ∧ (c.thread h).state = 1 ∧ c.turn h = true ∧ (c.thread h).late = none ∧
  (release = true → (c.thread h).storing false = false) ∧
  ∃ (w : BitVec 32) (fill : Option (List Byte)) (need : List Charge) (a : Chip),
    encodeThread i = some w ∧ (decodeThread h w).isSome = true ∧ c.fetch h = .word w fill need ∧
    c.admitCharges (.core h.i) ((c.siteTent h.i, .core h.i, 1) :: (need ++ c.touchCharges h touch)) c = (a, true) ∧
    d = (let b := match fill with
          | some line => a.fillLine h.i ((a.thread h).pc / 64 * 64) line
          | none => a
         b.setCore h.i { b.core h.i with last := h.t })

end Sys2Proof.Machine

/-! ### Forms of commands -/

namespace Sys2Proof

/-- The Cairn's own events (R481). -/
def Instr.ofCairn : Instr → Bool
  | .activityFrame .. | .intervalClose .. | .cairnInputLoss .. | .cairnInputReturn .. | .sealOpened .. | .selfTest ..
  | .overloadBegin .. | .overloadEnd .. | .activityLinkLost .. | .activityLinkRestored .. | .metrologyPulse .. => true
  | _ => false

/-- A register of a thread (R300). -/
inductive Dest where
  | x (n : Nat)
  | v (n : Nat)
  | p (n : Nat)
deriving DecidableEq, Repr

/-- The thread instructions that make no access, with the thread and the registers the instruction may write. -/
def Instr.registerForm : Instr → Option (Hart × List Dest)
  | .alu h rd _ _ _ => some (h, [.x rd.toNat])
  | .addi h rd _ _ | .andi h rd _ _ | .ori h rd _ _ | .xori h rd _ _ | .shi h rd _ _ | .slti h rd _ _
  | .lih h rd _ _ | .addpc h rd _ _ | .gets h rd _ _ | .jalr h rd _ _ => some (h, [.x rd.toNat])
  | .jal h rd _ => some (h, [.x rd.toNat])
  | .tickw h rd _ _ _ => some (h, [.x rd.toNat])
  | .beq h _ _ _ | .bne h _ _ _ | .blt h _ _ _ | .bge h _ _ _ | .bltu h _ _ _ | .bgeu h _ _ _ => some (h, [])
  | .fence h _ _ _ _ => some (h, [])
  | .vi h vd _ _ _ _ | .vb h vd _ _ _ _ | .vf h vd _ _ _ _ | .vred h vd _ _ _ _ | .vperm h vd _ _ _ _
  | .vcvt h vd _ _ _ _ | .vnq h vd _ _ _ _ | .vdq h vd _ _ _ _ | .vu8 h vd _ _ _ _ | .vsc h vd _ _ _ _
  | .vrand h vd _ _ _ _ => some (h, [.v vd.toNat])
  | .vcmp h vd _ _ _ _ => some (h, [.p vd.toNat])
  | .vmov h vd x _ fn =>
    some (h, if fn = 2 ∨ fn = 5 ∨ fn = 6 then [.x x.toNat] else [.v vd.toNat])
  | .illegalInstruction h _ => some (h, [])
  | _ => none

end Sys2Proof

namespace Sys2Proof.Machine

/-- The loads and the wait on a word: they store nothing. -/
def loadForm : Instr → Bool
  | .ld8s .. | .ld8u .. | .ld16s .. | .ld16u .. | .ld32s .. | .ld32u .. | .ld64 .. | .vld .. | .waitm .. => true
  | _ => false

/-- The bytes a storing instruction names: their address, as the instruction computes it, and how many (R310, R324). -/
def storeForm (c : Chip) : Instr → Option (Nat × Nat)
  | .st8 h _ ra imm => some (c.addrOf h ra imm, 1)
  | .st16 h _ ra imm => some (c.addrOf h ra imm, 2)
  | .st32 h _ ra imm => some (c.addrOf h ra imm, 4)
  | .st64 h _ ra imm => some (c.addrOf h ra imm, 8)
  | .vst h _ ra off => some (c.addrOf h ra off 16, 16)
  | .amo h _ ra _ fn => some ((c.x h ra).toNat, if bitOf fn.toNat 4 then 8 else 4)
  | _ => none

/-- Commands and events that change registers, queues and engines, and no memory. -/
def registersOnly : Instr → Bool
  | .sysInfo .. | .sysEcho .. | .tentWindows .. | .tentBudget .. | .convInject .. | .convTable .. | .drvCh ..
  | .drvXt .. | .thmRecord .. | .pwrBudget .. | .keyInstall .. | .keyRemove .. | .cairnIdent .. | .cairnRecords ..
  | .cairnEvents .. | .regRead .. | .unassignedOpcode .. | .frameLenWrite .. | .credBudgetWrite .. | .groupCfgWrite ..
  | .daleRowmapWrite .. | .valeBankOwnerWrite .. | .coreRseedLoad .. | .guySeedLoad .. | .tableGo .. | .tableHalt ..
  | .trackerClear .. | .hkTrackerClear .. | .injectRequest .. | .convSeqWrite .. | .convTrigWrite .. | .hkSeqWrite ..
  | .drvChWrite .. | .drvPairWrite .. | .toneCtlWrite .. | .rampRefill .. | .leaseRequest .. | .deglitchRelease ..
  | .rangeHoldRelease .. | .sampleClockCycle | .triggerTick .. | .entryStart .. | .entryOutput .. | .injectionRun ..
  | .calConvStart .. | .injectedOutput .. | .fhOffsetWrite .. | .fhSfnSet .. | .decHarqCfgWrite .. | .decHarqClr ..
  | .lantSecWrite .. | .syncLocked | .syncLossTimeout | .syncSourceReturn | .ppsEdge .. | .tagFrameSend ..
  | .headerHunt .. | .bypass .. | .idcode .. | .samplePreload .. | .extest .. | .clamp .. | .highz ..
  | .sidebandRequest .. => true
  | i => i.ofCairn

end Sys2Proof.Machine
end

