-- ==== Sys2Proof/Certificates/Slice0/Obligations.lean ====
section
/-!
DEFINITION. Sys2Proof/Certificates/Slice0/Obligations.lean: what is claimed of the model, one statement per definition. A
clause names the command or the rule it follows; what rests on a choice of the model says so with its log entry.
-/

open Sys2Proof Sys2Proof.Machine

/-- The queue: a step runs the command at its front on the state with the rest of the queue. With none waiting the
device's clocks go on by one tick of the Lantern's (log entry 66: the model's choice). -/
def Obligations.StepRunsTheFront : Prop :=
  (∀ (s : State) (c : Instr) (rest : List Instr), s.pending = c :: rest → step s = exec c { s with pending := rest }) ∧
  (∀ s : State, s.pending = [] → ∃ u, step s = .next u ∧ u.pending = [] ∧ u.cairn = s.cairn ∧ u.chip.mem = s.chip.mem)

/-- R16, R17: every command has an effect, but one that names a unit that does not exist; a well-formed command names
none. What waits in the queue is left alone. -/
def Obligations.EveryCommandCompletes : Prop :=
  (∀ (i : Instr) (s : State), exec i s = .fault .noSuchUnit ∨ ∃ t, exec i s = .next t ∧ t.pending = s.pending) ∧
  (∀ (i : Instr) (s : State), i.wf = true → ∃ t, exec i s = .next t)

/-- R49, R311, R300 and the register tables: the device right after reset. -/
def Obligations.ResetIsAsTabled : Prop :=
  State.reset.wf ∧ State.reset.pending = [] ∧
  (∀ r : Reg, State.reset.chip.get r = r.resetValue) ∧
  State.reset.chip.f Fld.budCredBudget_budget = 1200 ∧
  State.reset.chip.segment 0 0 = 0xF830000000000000 ∧
  (∀ t k, ¬ (t = 0 ∧ k = 0) → State.reset.chip.segment t k = 0) ∧
  State.reset.chip.f Fld.tentCtl_state [0] = 1 ∧ (∀ t, t ≠ 0 → State.reset.chip.f Fld.tentCtl_state [t] = 0) ∧
  (∀ h : Hart, (State.reset.chip.thread h).state = 0 ∧ (∀ k, (State.reset.chip.thread h).getX k = 0) ∧
    (∀ k, (State.reset.chip.thread h).getV k = 0) ∧ ∀ k, k ≠ 0 → (State.reset.chip.thread h).getP k = 0)

/-- R322 to R324: words written out from the formats and codes decode to their instructions, and words that a rule
makes illegal to none. -/
def Obligations.WordsDecodeAsTabled : Prop :=
  ∀ h : Hart,
    decodeThread h 0x80001148 = some (.lih h 5 2 0x8000) ∧
    decodeThread h 0x00FF31C3 = some (.andi h 7 6 0xFF) ∧
    decodeThread h 0x000C01E1 = some (.bne h 7 0 12) ∧
    decodeThread h 0x0F2029AE = some (.astep h 6 5 0 121) ∧
    decodeThread h 0x00000000 = none ∧ decodeThread h 0x02A00001 = none ∧ decodeThread h 0x00000069 = none

/-- R322 to R324: the word of a well-formed thread instruction decodes to it, every operand at every value, and a word
that decodes is the word of its instruction, which is well-formed. -/
def Obligations.ThreadWordsRoundTrip : Prop :=
  (∀ (i : Instr) (w : BitVec 32), i.wf = true → encodeThread i = some w → ∃ h, decodeThread h w = some i) ∧
  (∀ (h : Hart) (w : BitVec 32) (i : Instr), decodeThread h w = some i → encodeThread i = some w) ∧
  (∀ (h : Hart) (w : BitVec 32) (i : Instr), h.ok = true → decodeThread h w = some i → i.wf = true)

/-- R22: memory keeps its canonical form in every step, so that equal contents are equal data. -/
def Obligations.MemoryStaysCanonical : Prop :=
  ∀ s t : State, s.wf → step s = .next t → t.wf

/-- R481, R483, R489: nothing but its own events reaches the Cairn; its energy is never reset, its numbers are never
used again, and what a frame carries changes no energy and no record. -/
def Obligations.CairnIsIsolated : Prop :=
  (∀ (i : Instr) (s t : State), i.ofCairn = false → exec i s = .next t → t.cairn = s.cairn) ∧
  (∀ (i : Instr) (s t : State), exec i s = .next t → s.cairn.energy ≤ t.cairn.energy ∧
    s.cairn.nextRec ≤ t.cairn.nextRec ∧ s.cairn.nextEvt ≤ t.cairn.nextEvt ∧ s.cairn.pulses ≤ t.cairn.pulses ∧
    (s.cairn.sealBroken = true → t.cairn.sealBroken = true)) ∧
  (∀ (x : CairnNow) (ok : Bool) (s t : State), exec (.activityFrame x ok) s = .next t →
    t.cairn.recs = s.cairn.recs ∧ t.cairn.energy = (s.cairn.advance x).energy ∧
    ∀ e, e ∈ t.cairn.evts → e ∈ s.cairn.evts ∨ s.cairn.nextEvt ≤ e.num)

/-- R300, R303, R305, R324: an instruction that makes no access changes, of the threads' registers, only its own
destination; other threads, memory and the other units stay as they were, and unless it faults no register but the count
of instructions changes. -/
def Obligations.RegisterFormsKeepTheRest : Prop :=
  ∀ (i : Instr) (h : Hart) (ds : List Dest) (s t : State), i.registerForm = some (h, ds) → exec i s = .next t →
    t.cairn = s.cairn ∧ t.chip.mem = s.chip.mem ∧ t.chip.dales = s.chip.dales ∧ t.chip.banks = s.chip.banks ∧
    t.chip.adcs = s.chip.adcs ∧ t.chip.chans = s.chip.chans ∧ t.chip.loops = s.chip.loops ∧
    t.chip.slots = s.chip.slots ∧ t.chip.tents = s.chip.tents ∧ t.chip.velds = s.chip.velds ∧
    t.chip.radio = s.chip.radio ∧ t.chip.coderJobs = s.chip.coderJobs ∧ t.chip.harqs = s.chip.harqs ∧
    t.chip.device = s.chip.device ∧ t.chip.boot = s.chip.boot ∧
    (∀ g, g ≠ .core (h.i / 768) (s.chip.physOf h.i) → t.chip.gen g = s.chip.gen g) ∧
    (∀ g : Hart, g ≠ h → t.chip.thread g = s.chip.thread g) ∧
    ((s.chip.thread h).stopping = false →
      ((t.chip.thread h).state ≠ 4 → ∀ r, r ≠ { name := .siteInstr, idx := [h.i / 768, s.chip.physOf h.i] } →
        t.chip.get r = s.chip.get r) ∧
      (∀ n, Dest.x n ∉ ds → (t.chip.thread h).getX n = (s.chip.thread h).getX n) ∧
      (∀ n, Dest.v n ∉ ds → (t.chip.thread h).getV n = (s.chip.thread h).getV n) ∧
      (∀ n, Dest.p n ∉ ds → (t.chip.thread h).getP n = (s.chip.thread h).getP n))

/-- R308, R313, R324: a load stores nothing; a store changes no byte outside those it names, at the address the
instruction computes, whatever becomes of it. -/
def Obligations.AccessesKeepOtherBytes : Prop :=
  (∀ (i : Instr) (s t : State), loadForm i = true → exec i s = .next t → t.chip.mem = s.chip.mem) ∧
  (∀ (i : Instr) (s t : State) (a n : Nat), storeForm s.chip i = some (a, n) → exec i s = .next t →
    t.cairn = s.cairn ∧ t.chip.dales = s.chip.dales ∧ t.chip.slots = s.chip.slots ∧ t.chip.tents = s.chip.tents ∧
    ∀ b, b < a ∨ a + n ≤ b → t.chip.byte b = s.chip.byte b)

/-- R22: the commands and events that change only registers, queues and engines leave every byte of memory as it was. -/
def Obligations.RegisterCommandsKeepMemory : Prop :=
  ∀ (i : Instr) (s t : State), registersOnly i = true → exec i s = .next t → ∀ a, t.chip.byte a = s.chip.byte a

/-- R53: requests are served in order of arrival; one that does not fit keeps its place and may be passed, but after it
has been passed 8 times nothing is granted before it. -/
def Obligations.ArbiterServesInOrder : Prop :=
  -- a request that comes joins the end of the list
  (∀ a s, askerExists a = true → s.chip.neverGranted (askerGroup a) (askerStep a) = false →
    (∀ r, r ∈ s.chip.bud.requests → r.who ≠ a) →
    ∃ t, exec (.creditRequest a) s = .next t ∧
      t.chip.bud.requests = s.chip.bud.requests ++ [⟨a, askerGroup a, askerStep a, 0⟩]) ∧
  -- the first that fits is granted; those before it, each passed fewer than 8 times, keep their places
  (∀ s pre r post, s.chip.bud.requests = pre ++ r :: post →
    (∀ x, x ∈ pre → s.chip.fits x = false ∧ x.passed < 8) → s.chip.fits r = true → ∃ c1 : Chip,
    c1 = { s.chip with bud := { s.chip.bud with
      requests := pre.map (fun x => { x with passed := x.passed + 1 }) ++ post } } ∧
    exec .creditGrant s = .next { s with chip :=
      (((c1.addCredits r.group r.step).grantForecast r.group r.step).answerCredits r.who Status.ok).granted1 r.who }) ∧
  -- nothing is granted before one that has been passed 8 times, nor where none fits
  (∀ s pre r post, s.chip.bud.requests = pre ++ r :: post →
    (∀ x, x ∈ pre → s.chip.fits x = false) → s.chip.fits r = false → 8 ≤ r.passed →
    exec .creditGrant s = .next s) ∧
  (∀ s, (∀ x, x ∈ s.chip.bud.requests → s.chip.fits x = false) → exec .creditGrant s = .next s)

/-- R50: a budget lowered below the credits granted takes none of them back, and nothing is granted until the total has
fallen below it. -/
def Obligations.LoweredBudgetStopsGrants : Prop :=
  (∀ w x s n, RegAdmits s.chip w { name := .budCredBudget } x → n = bitsOf x.toNat 10 0 → 400 ≤ n → n ≤ 1500 →
    s.chip.floorsAll ≤ n → n < s.chip.grantedAll →
    ∃ t, exec (.credBudgetWrite w x) s = .next t ∧ t.chip.f Fld.budCredBudget_budget = n ∧
      t.chip.grantedAll = s.chip.grantedAll) ∧
  (∀ s, s.chip.f Fld.budCredBudget_budget ≤ s.chip.grantedAll → (∀ r, r ∈ s.chip.bud.requests → 0 < r.step) →
    exec .creditGrant s = .next s)

/-- R40: a pitch allows its units times the slots of a frame; 0 allows nothing and 0xF_FFFF allows without limit; a
written pitch counts from the next frame boundary on. -/
def Obligations.PitchesBoundTheFrame : Prop :=
  -- a write leaves the allowance of the running frame
  (∀ w x s t k a c1, writerOk w = true → s.chip.powered = true → regAt a = some { name := .budPitch, idx := [t, k] } →
    regBase ≤ a → a < regBase + 2 ^ 32 → s.chip.mayWrite (s.chip.writerTent w) { name := .budPitch, idx := [t, k] } x = true →
    s.chip.regSet { name := .budPitch, idx := [t, k] } [x] = (Status.ok, c1) →
    ∃ u, exec (.registerWrite w a [x]) s = .next u ∧ ∀ t' k', u.chip.allowance t' k' = s.chip.allowance t' k') ∧
  -- from the boundary on the pitch written counts
  (∀ s t k n, t < 64 → k < 8 → n = s.chip.f Fld.budPitch_pitch [t, k] → ∃ u, exec .frameBoundary s = .next u ∧
    ∃ c1 : Chip, c1 = s.chip.newFrame ∧ (n ≠ 0xFFFFF → c1.allowance t k = some (n * c1.bud.frameLen * classUnit k)) ∧
      (n = 0xFFFFF → c1.allowance t k = none) ∧ u.chip = (c1.launchAll 2).wakeTicks true) ∧
  -- a pitch of 0 allows nothing
  (∀ g t q s, gateExists g = true → t < 64 → s.chip.pitch t (gateClass g) = 0 →
    exec (.leaseRequest g t q) s = .next s)

/-- R498: every Tent reads the CAIRN_ view; no write changes it, a thread's is ignored and a REG_WRITE is answered
NOT_PERMITTED. -/
def Obligations.CairnViewIsReadOnly : Prop :=
  (∀ m s r, Passes4 s.chip 0x0E01 m → m.p < 2 ^ 48 → m.p % 8 = 0 → regAt m.p = some r → r.name.block = .cairn →
    ∃ u, exec (.regRead m) s = .next u ∧ u.cairn = s.cairn ∧ u.chip.regs = s.chip.regs ∧
      Answered (s.chip.readWord r).2 u.chip 0x0E01 m Status.ok 0 [(s.chip.readWord r).1]) ∧
  (∀ m s r, Passes4 s.chip 0x0E02 m → regParamBad m.p = false → m.words.length = regCount m.p →
    regAt (bitsOf m.p 47 0) = some r → r.name.block = .cairn →
    ∃ u, exec (.regWrite m) s = .next u ∧ u.cairn = s.cairn ∧ u.chip.regs = s.chip.regs ∧
      Answered s.chip u.chip 0x0E02 m Status.notPermitted) ∧
  (∀ h a xs s r, regAt a = some r → r.name.block = .cairn → writerOk (.thread h) = true → a < regBase + 2 ^ 32 →
    exec (.registerWrite (.thread h) a xs) s = .next s) ∧
  -- a store of a thread that reaches the view
  (∀ (c : Chip) t a bs r, regAt a = some r → r.name.block = .cairn → a % 8 = 0 → bs.length ≤ 8 → c.regStore t a bs = c)

/-- R32, R33: an event and a ticketed clear that reach a flag register together, served in either order: a clear fails
where an event has come since the last read, whatever its ticket. -/
def Obligations.ClearsNeverEraseNewerEvents : Prop :=
  -- the event first: the count rises, and nothing is cleared
  (∀ (c : Chip) (r : Reg) (x : Word) n, r.name.desc.tc = true → n = bitsOf (c.get r).toNat 7 0 → n < 255 →
    bitOf x.toNat 31 = true → bitsOf x.toNat 7 0 = n →
    bitsOf ((c.event r).get r).toNat 7 0 = n + 1 ∧ (c.event r).ticketClear r x = c.event r) ∧
  -- the clear first, the count as last read: flag and count are zero, and the event then sets the flag and a count of 1
  (∀ (c : Chip) (r : Reg) (x : Word), r.name.desc.tc = true → r ∉ c.marks → bitOf x.toNat 31 = true →
    bitsOf x.toNat 7 0 = bitsOf (c.get r).toNat 7 0 →
    (c.ticketClear r x).get r = 0 ∧ ((c.ticketClear r x).event r).get r = 0x101) ∧
  -- any event sets the marker and any read clears it; with the marker set nothing is cleared
  (∀ (c : Chip) (r : Reg) (x : Word), r ∈ c.marks → c.ticketClear r x = c) ∧
  (∀ (c : Chip) (r : Reg), r ∈ (c.event r).marks) ∧
  (∀ (c : Chip) (r : Reg), r.name.desc.tc = true → r ∉ (c.readWord r).2.marks) ∧
  -- the ticketed clear as a command
  (∀ w a x s r, regAt a = some r → r.name.desc.tc = true → RegAdmits s.chip w r x →
    ∃ u, exec (.ticketClear w a x) s = .next u ∧ u.chip.get r = (s.chip.ticketClear r x).get r)

/-- R421, R419, R415: what the SYS commands, an unassigned opcode and the MP's watchdog do once served. -/
def Obligations.SysCommandsAnswer : Prop :=
  -- SYS_INFO: serial number, device state and MP slot, hash of the running image
  (∀ m s c', MpTakes s.chip 0x0101 m c' → m.param = 0 → ∃ t, exec (.sysInfo m) s = .next t ∧
    Answered c' t.chip 0x0101 m Status.ok 0
      ([Config.serial, BitVec.ofNat 64 (stateCode c'.device + c'.f Fld.sysState_mpSlot * 256)] ++
        wordsOfBytes 4 (c'.fwHash (c'.f Fld.sysState_mpSlot)))) ∧
  -- SYS_ECHO: the words come back as they were sent
  (∀ m s, Passes4 s.chip 0x0102 m → ∃ t, exec (.sysEcho m) s = .next t ∧
    Answered s.chip t.chip 0x0102 m Status.ok (m.p / 256) m.words) ∧
  -- an opcode that is not assigned is answered BAD_OPCODE
  (∀ op m s, m.tent < 64 → s.chip.powered → opcodes.contains (op % 65536) = false →
    ∃ t, exec (.unassignedOpcode op m) s = .next t ∧
      Answered s.chip t.chip (op % 65536) m Status.badOpcode ∧ t.chip.regs = s.chip.regs ∧ t.chip.mem = s.chip.mem) ∧
  -- a watchdog restart: no command runs any more, and the restart is counted
  (∀ s, s.chip.powered → s.chip.flag Fld.sysBoot_recovery = false → ∃ t, exec .watchdogRestart s = .next t ∧
    t.chip.longs = [] ∧ t.chip.tentWaits = []) ∧
  -- FW_LOAD into the slot that does not run: a signed image that is not older than the rollback floor
  (∀ m s c', MpTakes s.chip 0x0C04 m c' → m.stray (2 ^ 48 - 1) = false → m.word 1 < 2 ^ 32 → m.word 2 < 2 →
    m.word 2 ≠ c'.f Fld.sysState_mpSlot → c'.boot.trial = none → c'.admits m.tent .r m.p (m.word 1) →
    ∃ t, exec (.fwLoad m) s = .next t ∧
      match fwParse (c'.bytes m.p (m.word 1)) with
      | none => Answered c' t.chip 0x0C04 m Status.badParam
      | some (e, b) =>
        (fwSigned e = true → c'.rollback ≤ b.version →
          t.chip.fwImage (m.word 2) = some (c'.bytes m.p (m.word 1)) ∧
          Answered c' t.chip 0x0C04 m Status.ok b.version) ∧
        (fwSigned e = false → Answered c' t.chip 0x0C04 m Status.signatureFail) ∧
        (fwSigned e = true → b.version < c'.rollback → Answered c' t.chip 0x0C04 m Status.notPermitted)) ∧
  -- FW_SWITCH: the other slot, where it is valid, runs on trial once no command taken before is still to be answered;
  -- until then the MP takes no further one (when the MP restarts after the last answer: log entry 37)
  (∀ m s c', MpTakes s.chip 0x0C05 m c' → m.stray 3 = false → bitsOf m.p 0 0 ≠ c'.f Fld.sysState_mpSlot →
    c'.boot.trial = none →
    ∃ t, exec (.fwSwitch m) s = .next t ∧
      ((c'.fwValid (bitsOf m.p 0 0)).isSome → c'.longs = [] → t.chip.f Fld.sysState_mpSlot = bitsOf m.p 0 0 ∧
        t.chip.f Fld.sysBoot_trial = 1 ∧ t.chip.boot.trial = some (m, bitOf m.p 1)) ∧
      ((c'.fwValid (bitsOf m.p 0 0)).isSome → (∃ x, x ∈ c'.longs ∧ x.cmd ≠ m) → t.chip.boot.switching = some m ∧
        t.chip.regs = c'.regs ∧ t.chip.boot.trial = none ∧ (∀ op n d, ¬ MpTakes t.chip op n d)) ∧
      (c'.fwValid (bitsOf m.p 0 0) = none → t.chip.boot.trial = none ∧
        Answered c' t.chip 0x0C05 m Status.notPermitted)) ∧
  -- FW_TRIAL_END: the trial is over; with commit the rollback floor rises
  (∀ s m b, s.chip.powered → s.chip.boot.trial = some (m, b) → ∃ t, exec .fwTrialEnd s = .next t ∧
    t.chip.boot.trial = none ∧ s.chip.rollback ≤ t.chip.rollback)

/-- R508 to R510: the keys of the publishers and the device's report. -/
def Obligations.TrustCommandsAct : Prop :=
  -- KEY_INSTALL fills an empty key slot with a pair of two good keys
  (∀ m s c', MpTakes s.chip 0x0C02 m c' → m.stray 0x33F = false → m.word 1 < 2 ^ 48 →
    Tab.get (c'.tent (bitsOf m.p 5 0)).keys (bitsOf m.p 9 8) [] = [] → c'.admits m.tent .r (m.word 1) 1984 →
    ∃ t, exec (.keyInstall m) s = .next t ∧
      (Config.keyPairGood (c'.bytes (m.word 1) 1984) = true →
        Tab.get (t.chip.tent (bitsOf m.p 5 0)).keys (bitsOf m.p 9 8) [] = c'.bytes (m.word 1) 1984 ∧
        Answered c' t.chip 0x0C02 m Status.ok) ∧
      (Config.keyPairGood (c'.bytes (m.word 1) 1984) = false →
        Tab.get (t.chip.tent (bitsOf m.p 5 0)).keys (bitsOf m.p 9 8) [] = [] ∧
        Answered c' t.chip 0x0C02 m Status.badParam) ∧
      (∀ k, k ≠ bitsOf m.p 5 0 → t.chip.tent k = c'.tent k) ∧ t.chip.mem = c'.mem) ∧
  -- KEY_REMOVE empties one
  (∀ m s c', MpTakes s.chip 0x0C03 m c' → m.stray 0x33F = false →
    ∃ t, exec (.keyRemove m) s = .next t ∧
      Tab.get (t.chip.tent (bitsOf m.p 5 0)).keys (bitsOf m.p 9 8) [] = [] ∧
      (∀ k, k ≠ bitsOf m.p 5 0 → t.chip.tent k = c'.tent k) ∧ t.chip.mem = c'.mem ∧
      Answered c' t.chip 0x0C03 m Status.ok) ∧
  -- ATTEST stores the signed report over the nonce and answers its length, or the buffer is too short
  (∀ m s c' body rep, MpTakes s.chip 0x0C01 m c' → m.stray (2 ^ 48 - 1) = false → bitsOf (m.word 1) 63 38 = 0 →
    c'.flag Fld.sysBoot_idOk = true → (m.tent = 0 ∨ bitsOf (m.word 1) 37 32 = m.tent) →
    c'.admits m.tent .w m.p (bitsOf (m.word 1) 31 0) →
    body = c'.attestBody (bitsOf (m.word 1) 37 32) ((List.range 4).flatMap fun w => leBytes 8 (m.word (w + 2))) →
    rep = Cbor.putArray [Cbor.putUint 1, Cbor.putBytes body, Cbor.putBytes (Config.signs 0 (ascii "GXAT" ++ body)),
      Cbor.putBytes (Config.signs 1 (ascii "GXAT" ++ body))] →
    ∃ t, exec (.attest m) s = .next t ∧ t.chip.regs = c'.regs ∧
      (rep.length ≤ bitsOf (m.word 1) 31 0 →
        t.chip.mem = (c'.store m.p rep).mem ∧ Answered c' t.chip 0x0C01 m Status.ok rep.length) ∧
      (bitsOf (m.word 1) 31 0 < rep.length →
        t.chip.mem = c'.mem ∧ Answered c' t.chip 0x0C01 m Status.badParam))

/-- R344, R346: the actions on a Tent, by its register and by command. -/
def Obligations.TentActionsChangeState : Prop :=
  -- open: CLOSED or QUIESCED to OPEN
  (∀ w t s x, x = BitVec.ofNat 64 (2 ^ 31) → RegAdmits s.chip w { name := .tentCtl, idx := [t] } x → t ≠ 0 →
    (s.chip.f Fld.tentCtl_state [t] = 0 ∨ s.chip.f Fld.tentCtl_state [t] = 3) →
    ∃ u, exec (.tentOpen (.reg w t)) s = .next u ∧ u.chip.f Fld.tentCtl_state [t] = 1 ∧
      Told s.chip u.chip w Status.ok 1) ∧
  (∀ m s c', MpTakes s.chip 0x0201 m c' → m.stray 0x33F = false → bitsOf m.p 9 8 = 1 → bitsOf m.p 5 0 ≠ 0 →
    (c'.f Fld.tentCtl_state [bitsOf m.p 5 0] = 0 ∨ c'.f Fld.tentCtl_state [bitsOf m.p 5 0] = 3) →
    ∃ u, exec (.tentOpen (.cmd m)) s = .next u ∧ u.chip.f Fld.tentCtl_state [bitsOf m.p 5 0] = 1 ∧
      Answered c' u.chip 0x0201 m Status.ok) ∧
  -- quiesce: OPEN to QUIESCING, and at once to QUIESCED where nothing of the Tent runs
  (∀ w t s x c1, x = BitVec.ofNat 64 (2 ^ 30) → RegAdmits s.chip w { name := .tentCtl, idx := [t] } x → t ≠ 0 →
    s.chip.f Fld.tentCtl_state [t] = 1 → c1 = s.chip.setF Fld.tentCtl_state [t] 2 →
    ∃ u, exec (.tentQuiesce (.reg w t)) s = .next u ∧
      u.chip.f Fld.tentCtl_state [t] = (if c1.tentBusy t then 2 else 3)) ∧
  (∀ m s c', MpTakes s.chip 0x0201 m c' → m.stray 0x33F = false → bitsOf m.p 9 8 = 2 → bitsOf m.p 5 0 ≠ 0 →
    c'.f Fld.tentCtl_state [bitsOf m.p 5 0] = 1 →
    (c'.setF Fld.tentCtl_state [bitsOf m.p 5 0] 2).tentBusy (bitsOf m.p 5 0) = true →
    ∃ u, exec (.tentQuiesce (.cmd m)) s = .next u ∧ u.chip.f Fld.tentCtl_state [bitsOf m.p 5 0] = 2 ∧
      ({ op := 0x0201, cmd := m, units := [bitsOf m.p 5 0] } : TentWait) ∈ u.chip.tentWaits) ∧
  -- the last work of a QUIESCING Tent has ended
  (∀ t s, t < 64 → s.chip.f Fld.tentCtl_state [t] = 2 → s.chip.tentBusy t = false →
    ∃ u, exec (.quiesceDone t) s = .next u ∧ u.chip.f Fld.tentCtl_state [t] = 3 ∧
      ∀ w, w ∈ u.chip.tentWaits → ¬ (w.op = 0x0201 ∧ w.units = [t])) ∧
  -- close: QUIESCED to CLOSED where both slots are EMPTY
  (∀ w t s x, x = BitVec.ofNat 64 (2 ^ 29) → RegAdmits s.chip w { name := .tentCtl, idx := [t] } x →
    s.chip.f Fld.tentCtl_state [t] = 3 → s.chip.slotState t 0 = 0 → s.chip.slotState t 1 = 0 →
    ∃ u, exec (.tentClose (.reg w t)) s = .next u ∧ u.chip.f Fld.tentCtl_state [t] = 0 ∧
      Told s.chip u.chip w Status.ok 1) ∧
  (∀ m s c', MpTakes s.chip 0x0201 m c' → m.stray 0x33F = false → bitsOf m.p 9 8 = 3 →
    c'.f Fld.tentCtl_state [bitsOf m.p 5 0] = 3 → c'.slotState (bitsOf m.p 5 0) 0 = 0 →
    c'.slotState (bitsOf m.p 5 0) 1 = 0 →
    ∃ u, exec (.tentClose (.cmd m)) s = .next u ∧ u.chip.f Fld.tentCtl_state [bitsOf m.p 5 0] = 0 ∧
      Answered c' u.chip 0x0201 m Status.ok)

/-- R347, R348, R146: assignments of Dales, sites and banks, one at a time. -/
def Obligations.AssignmentsTakeEffect : Prop :=
  -- TENT_DALE: another owner of a Dale that is free takes effect at once, else it waits
  (∀ w k x s, RegAdmits s.chip w { name := .tentDale, idx := [k] } x → bitsOf x.toNat 5 0 ≠ s.chip.daleOwner k →
    ∃ u c1, c1 = (((s.chip.setF Fld.tentDale_owner [k] (bitsOf x.toNat 5 0)).setDale k
        { s.chip.dale k with newOwner := some (bitsOf x.toNat 5 0) }).setF Fld.tentDale_pending [k] 1) ∧
      exec (.tentDaleWrite w k x) s = .next u ∧
      (c1.daleFree k = true → u.chip.f Fld.daleCtl_owner [k / 12, k % 12] = bitsOf x.toNat 5 0 ∧
        (u.chip.dale k).newOwner = none ∧ (u.chip.dale k).tile = none ∧ (u.chip.dale k).staged = false) ∧
      (c1.daleFree k = false → u.chip.f Fld.tentDale_pending [k] = 1 ∧
        (u.chip.dale k).newOwner = some (bitsOf x.toNat 5 0))) ∧
  -- DALE_OWNER_CHANGE: the pending owner of a Dale that has become free
  (∀ k o s, k < 144 → (s.chip.dale k).newOwner = some o → o < 64 → s.chip.daleFree k = true →
    ∃ u, exec (.daleOwnerChange k) s = .next u ∧ u.chip.f Fld.daleCtl_owner [k / 12, k % 12] = o ∧
      (u.chip.dale k).newOwner = none ∧ (u.chip.dale k).tile = none ∧ (u.chip.dale k).staged = false) ∧
  -- TENT_SITE: owner and rank
  (∀ w i x s, RegAdmits s.chip w { name := .tentSite, idx := [i] } x → bitsOf x.toNat 14 0 ≤ 27647 →
    s.chip.rankTaken (bitsOf x.toNat 29 24) (bitsOf x.toNat 14 0) i 1 = false →
    exec (.tentSiteWrite w i x) s = .next { s with chip :=
      (s.chip.assignSite i (bitsOf x.toNat 29 24) (bitsOf x.toNat 14 0)).wReply w Status.ok 1 }) ∧
  -- SITE_OWNER_CHANGE: the pending owner of a site that has become free; its store is zeroed
  (∀ i o s, i < 27648 → (s.chip.core i).newOwner = some o → s.chip.siteFree i = true →
    ∃ u, exec (.siteOwnerChange i) s = .next u ∧ u.chip.siteTent i = o % 64 ∧ (u.chip.core i).newOwner = none ∧
      (u.chip.core i).steps = [] ∧ ∀ a, storeBase i ≤ a → a < storeBase i + 0x8000 → u.chip.byte a = 0) ∧
  -- VALE_BANK: the owner of a dark bank changes at once, that of a lit one when it is dark
  (∀ w v b x s, RegAdmits s.chip w { name := .valeBank, idx := [v, b] } x →
    bitsOf x.toNat 29 24 ≠ s.chip.f Fld.valeBank_owner [v, b] → s.chip.f Fld.valeBank_state [v, b] = 0 →
    ∃ u, exec (.valeBankOwnerWrite w v b x) s = .next u ∧
      u.chip.f Fld.valeBank_owner [v, b] = bitsOf x.toNat 29 24 ∧ (u.chip.bank v b).newOwner = none) ∧
  (∀ w v b x s, RegAdmits s.chip w { name := .valeBank, idx := [v, b] } x →
    bitsOf x.toNat 29 24 ≠ s.chip.f Fld.valeBank_owner [v, b] → s.chip.f Fld.valeBank_state [v, b] ≠ 0 →
    (s.chip.bank v b).carries ≠ none →
    ∃ u, exec (.valeBankOwnerWrite w v b x) s = .next u ∧
      (u.chip.bank v b).newOwner = some (bitsOf x.toNat 29 24) ∧
      u.chip.f Fld.valeBank_owner [v, b] = s.chip.f Fld.valeBank_owner [v, b])

/-- R347 to R349, R309, R40: the commands of Tent 0 that set a Tent's units, windows and budget. -/
def Obligations.TentTablesAreWritten : Prop :=
  -- TENT_DALES: every Dale of the mask, then the final reply once all are in effect
  (∀ m s c' ks, MpTakes s.chip 0x0202 m c' → m.stray 0x3F = false → bitsOf (m.word 3) 63 16 = 0 →
    ks = (List.range 144).filter (fun k => bitOf (m.word 1 + m.word 2 * 2 ^ 64 + m.word 3 * 2 ^ 128) k) →
    ∃ c2 c3 : Chip, c2 = ks.foldl (fun c k => (c.wTentDale k m.param).2) (c'.accept 0x0202 m) ∧
      c3 = { c2 with tentWaits := c2.tentWaits ++ [{ op := 0x0202, cmd := m, units := ks }] } ∧
      exec (.tentDales m) s = .next { s with chip := c3.settleAssign 0x0202 Chip.dalePending }) ∧
  -- TENT_SITES: a range of sites, with ranks from the first on
  (∀ m s c' o first n, MpTakes s.chip 0x0203 m c' → m.stray 0x3F7FFF7FFF = false → o = bitsOf m.p 37 32 →
    first = bitsOf m.p 14 0 → n = bitsOf m.p 30 16 + 1 → first + n ≤ 27648 → m.word 1 + n ≤ 27648 →
    (∀ k, k < n → c'.rankTaken o (m.word 1 + k) first n = false) →
    ∃ c2 c3 : Chip, c2 = ((List.range n).map fun k => first + k).foldl
        (fun c i => c.assignSite i o (m.word 1 + (i - first))) (c'.accept 0x0203 m) ∧
      c3 = { c2 with tentWaits := c2.tentWaits ++
        [{ op := 0x0203, cmd := m, units := (List.range n).map fun k => first + k }] } ∧
      exec (.tentSites m) s = .next { s with chip := c3.settleAssign 0x0203 Chip.sitePending }) ∧
  -- TENT_WINDOWS: every segment, its reserved bits zero
  (∀ m s c', MpTakes s.chip 0x0204 m c' → m.stray 0x3F = false → (∀ x, x ∈ m.words → segmentBad x.toNat = false) →
    ∃ u, exec (.tentWindows m) s = .next u ∧ Answered c' u.chip 0x0204 m Status.ok ∧
      ∀ k, k < 64 → u.chip.segment m.p k = (m.words.getD k 0 &&& 0xF8FFFFFFFFFF0000).toNat) ∧
  -- TENT_BUDGET: the pitches of the eight classes and wait_frames
  (∀ m s c', MpTakes s.chip 0x0205 m c' → m.stray 0x3F = false → (∀ k, k < 8 → (m.words.getD k 0).toNat ≤ 0xFFFFF) →
    m.word 9 ≤ 0xFF →
    ∃ u, exec (.tentBudget m) s = .next u ∧ Answered c' u.chip 0x0205 m Status.ok ∧
      u.chip.f Fld.budWaitLimit_waitFrames [m.p] = m.word 9 ∧
      ∀ k, k < 8 → u.chip.f Fld.budPitch_pitch [m.p, k] =
        (if k = 7 ∧ m.p ≠ 0 then c'.f Fld.budPitch_pitch [m.p, k] else (m.words.getD k 0).toNat))

/-- R350 to R353, R366, R368, R426: loads begin, the pointer moves and slots are released. -/
def Obligations.WeightSetCommandsAct : Prop :=
  -- WSET_LOAD of a manifest that passes its checks: LOADING under the Tent's next epoch; one that fails is answered
  (∀ m s c' k role, MpTakes s.chip 0x0301 m c' → m.stray (2 ^ 48 - 1) = false →
    bitsOf (m.word 1) 63 35 = 0 → k = bitsOf (m.word 1) 32 32 → role = bitsOf (m.word 1) 34 33 → role ≠ 3 →
    m.word 2 < 2 ^ 48 → m.word 3 < 2 ^ 48 → (role = 0 ∨ c'.flag Fld.tentCtl_priv [m.tent] = true) →
    c'.slotTakes m.tent k = true → c'.admits m.tent .r m.p (bitsOf (m.word 1) 31 0) = true →
    (m.word 3 = 0 ∨ (c'.admits m.tent .r (m.word 2) (m.word 3) = true ∧
      c'.admits m.tent .w (m.word 2) (m.word 3) = true)) →
    (∀ v, v < 12 → bitsOf (m.word (v + 4)) 63 48 ≠ 0 →
      c'.admits m.tent .r (bitsOf (m.word (v + 4)) 47 0) (bitsOf (m.word (v + 4)) 63 48 * 65536) = true ∧
      c'.admits m.tent .w (bitsOf (m.word (v + 4)) 47 0) (bitsOf (m.word (v + 4)) 63 48 * 65536) = true) →
    ∃ u, exec (.wsetLoad m) s = .next u ∧
      match c'.checkManifest m.tent m.p (bitsOf (m.word 1) 31 0) (m.word 2) (m.word 3)
          ((List.range 12).map fun v => m.word (v + 4)) with
      | .ok (mf, _) =>
        u.chip.slotState m.tent k = 1 ∧ u.chip.slotEpoch m.tent k = nextEpoch (c'.tent m.tent).epoch ∧
        (u.chip.tent m.tent).epoch = nextEpoch (c'.tent m.tent).epoch ∧
        (u.chip.slotInfo m.tent k).shards = mf.shards ∧ (u.chip.slotInfo m.tent k).cmd = some m
      | .error e => Answered c' u.chip 0x0301 m e) ∧
  -- WSET_POINT and a write of WSET_ACTIVE: the pointer to a READY slot makes it ACTIVE
  (∀ m s c', MpTakes s.chip 0x0302 m c' → m.p < 2 → c'.slotState m.tent m.p = 3 →
    c'.flag Fld.wsetSlot_releasePend [m.tent, m.p] = false →
    ∃ u, exec (.wsetPoint m) s = .next u ∧ u.chip.slotState m.tent m.p = 4 ∧
      u.chip.f Fld.wsetActive_slot [m.tent] = m.p ∧ u.chip.slotState m.tent (1 - m.p) ≠ 4 ∧
      Answered c' u.chip 0x0302 m Status.ok) ∧
  (∀ w t x s, RegAdmits s.chip w { name := .wsetActive, idx := [t] } x → bitsOf x.toNat 1 0 = 3 →
    ∃ u, exec (.wsetActiveWrite w t x) s = .next u ∧ u.chip.f Fld.wsetActive_slot [t] = 3 ∧
      u.chip.slotState t 0 ≠ 4 ∧ u.chip.slotState t 1 ≠ 4) ∧
  (∀ w t x k s, RegAdmits s.chip w { name := .wsetActive, idx := [t] } x → bitsOf x.toNat 1 0 = k → k < 2 →
    s.chip.slotState t k = 3 → s.chip.flag Fld.wsetSlot_releasePend [t, k] = false →
    ∃ u, exec (.wsetActiveWrite w t x) s = .next u ∧ u.chip.slotState t k = 4 ∧
      u.chip.f Fld.wsetActive_slot [t] = k ∧ u.chip.slotState t (1 - k) ≠ 4) ∧
  -- WSET_RELEASE of a slot the pointer does not name: EMPTY at once, or pending while its set is in use
  (∀ m s c', MpTakes s.chip 0x0303 m c' → m.p < 2 → c'.f Fld.wsetActive_slot [m.tent] ≠ m.p →
    c'.slotState m.tent m.p ≠ 0 →
    ∃ (u c1 : Chip) (w : WSlot),
      w = { c'.slotInfo m.tent m.p with releases := (c'.slotInfo m.tent m.p).releases ++ [m] } ∧
      c1 = (c'.accept 0x0303 m).setSlot m.tent m.p w ∧
      exec (.wsetRelease m) s = .next { s with chip := u } ∧
      (c1.inUse m.tent m.p = false → u.slotState m.tent m.p = 0) ∧
      (c1.inUse m.tent m.p = true → u.f Fld.wsetSlot_releasePend [m.tent, m.p] = 1 ∧
        u.slotState m.tent m.p = c'.slotState m.tent m.p)) ∧
  -- RELEASE_COMPLETE: the last job on the set has ended
  (∀ t k s, t < 64 → k < 2 → s.chip.flag Fld.wsetSlot_releasePend [t, k] = true → s.chip.inUse t k = false →
    ∃ u, exec (.releaseComplete t k) s = .next u ∧ u.chip.slotState t k = 0)

/-- R358, R362, R363, R433, R513: shards arrive and are placed, the fetches behind them, and the check of a set. -/
def Obligations.ShardsArePlaced : Prop :=
  -- SHARD_ARRIVAL of a whole payload with the right hash: tiles and their records, or a level image, are written
  (∀ t k j s w sh bs us q c1 c2 c3 c4, t < 64 → k < 2 → w = s.chip.slotInfo t k → w.shards[j]? = some sh →
    s.chip.slotState t k = 1 → s.chip.payload t k j sh = some bs → Config.sha3 bs = sh.hash →
    decodeShard sh bs { gen := s.chip.gen .basecamp, free := s.chip.free } = some (us, q) →
    (sh.target = 0 → ∃ i, s.chip.rankSite t sh.index = some i ∧ s.chip.lmapValid i = true) →
    s.chip.admitAll t (s.chip.placeGrains t k sh us) = (c1, true) →
    c2 = ({ c1 with free := q.free } : Chip) →
    c3 = ((c2.setGen .basecamp q.gen).slotCount Fld.wsetSlot_sat t k q.sat).slotCount Fld.wsetSlot_nonfinite t k q.nonf →
    c4 = (match w.role, sh.bcast with
      | 1, some g => c3.bcastShard t g j (bitsOf (c3.get { name := .wsetSlot, idx := [t, k], w := 4 }).toNat 31 0) bs
      | _, _ => c3) →
    (sh.target ≠ 0 → exec (.shardArrival t k j) s =
      .next { s with chip := (c4.placeTiles t k sh us).shardPlaced t k j }) ∧
    (∀ i, sh.target = 0 → s.chip.rankSite t sh.index = some i → exec (.shardArrival t k j) s =
      .next { s with chip := (c4.placeSite t k j sh i (us.headD [])).nextShards t k })) ∧
  -- SHARD_TIMEOUT: the set fails
  (∀ t k j s, t < 64 → k < 2 → s.chip.slotState t k = 1 →
    ((s.chip.slotInfo t k).shardSt j = .fetch ∨ (s.chip.slotInfo t k).shardSt j = .bcast) →
    exec (.shardTimeout t k j) s = .next { s with chip := s.chip.failSet t k Status.shardTimeout (some j) }) ∧
  -- BCAST_WAIT_EXPIRE: the receiver fetches its own copy
  (∀ t k j s, t < 64 → k < 2 → s.chip.slotState t k = 1 → (s.chip.slotInfo t k).shardSt j = .bcast →
    ∃ u, exec (.bcastWaitExpire t k j) s = .next u ∧ (u.chip.slotInfo t k).shardSt j = .fetch ∧
      u.chip.regs = s.chip.regs ∧ u.chip.mem = s.chip.mem) ∧
  -- HOST_READ_REQUEST: the next piece of a payload in host memory is asked for
  (∀ t k j off s sh, t < 64 → k < 2 → (s.chip.slotInfo t k).shards[j]? = some sh → s.chip.slotState t k = 1 →
    (s.chip.slotInfo t k).shardSt j = .fetch → sh.host = true → off < sh.len → off % 4096 = 0 →
    (∀ p, p ∈ Tab.get (s.chip.slotInfo t k).parts j [] → p.1 ≠ off) →
    (∀ r, r ∈ s.chip.reads → ¬ (r.tent = t ∧ r.slot = k ∧ r.shard = j ∧ r.off = off)) → s.chip.reads.length < 64 →
    ∃ u tag, exec (.hostReadRequest t k j off) s = .next u ∧
      u.chip.reads = s.chip.reads ++
        [⟨tag, t, sh.src + off, min 4096 (sh.len - off), k, j, off⟩] ∧
      (∀ r, r ∈ s.chip.reads → r.tag ≠ tag) ∧
      Sent s.chip u.chip (.hostRead t tag (sh.src + off) (min 4096 (sh.len - off)))) ∧
  -- HOST_READ_RESPONSE: the data joins the payload
  (∀ tag data r s, s.chip.reads.find? (fun r => r.tag == tag) = some r → data.length = r.len →
    ∃ u, exec (.hostReadResponse tag true data) s = .next u ∧ (∀ x, x ∈ u.chip.reads → x.tag ≠ tag) ∧
      Tab.get (u.chip.slotInfo r.tent r.slot).parts r.shard [] =
        (r.off, data) :: Tab.get (s.chip.slotInfo r.tent r.slot).parts r.shard []) ∧
  -- HOST_READ_TIMEOUT: a copy has failed
  (∀ tag r s, s.chip.reads.find? (fun r => r.tag == tag) = some r →
    exec (.hostReadTimeout tag) s = .next { s with chip := s.chip.failCopy r.tent r.slot r.shard }) ∧
  -- FINGERPRINT_VERIFY: the last site of the set passes
  (∀ t k s tol vs i nz rest c1 c2, t < 64 → k < 2 → s.chip.slotState t k = 2 →
    (s.chip.slotInfo t k).fprint = some (tol, vs) →
    (s.chip.slotInfo t k).sites.filter (fun i => !(s.chip.slotInfo t k).passed.contains i) = [i] →
    s.chip.admitAll t (vs.map fun _ => (.array i, 32)) = (c1, true) → c1.fingerSite i tol vs nz = (true, c2) →
    (c2.slotInfo t k).passed.length + 1 = (s.chip.slotInfo t k).sites.length →
    ∃ w : WSlot, w = { c2.slotInfo t k with passed := (c2.slotInfo t k).passed ++ [i] } ∧
      exec (.fingerprintVerify t k (nz :: rest)) s = .next { s with chip := (c2.setSlot t k w).slotReady t k })

/-- R136, R329, R337, R338, R391, R424: jobs, starts and program images that the device takes. -/
def Obligations.JobCommandsEnqueue : Prop :=
  -- JOB_DALE: the job is the last of its Dale's queue
  (∀ m s j k, Passes4 s.chip 0x0401 m → m.p % 32 = 0 → (m.p ≠ 0 ∨ m.msgcpl = true) →
    j = (⟨m.tent, m.tag, m.msgcpl, if m.p = 0 then none else some m.p, m.words⟩ : DaleJob) →
    k = (Desc.ofWords m.words).index → (s.chip.enqueueDale j).1 = Status.ok →
    ∃ u, exec (.jobDale m) s = .next u ∧ (u.chip.dale k).queue = (s.chip.dale k).queue ++ [j] ∧
      (u.chip.dale k).run = (s.chip.dale k).run ∧ u.chip.mem = s.chip.mem ∧
      Answered s.chip u.chip 0x0401 m Status.ok) ∧
  -- JOB_CODER: a descriptor of the LDPC decoder, the encoder or the polar coder
  (∀ m s j, Passes4 s.chip 0x0402 m → m.param = 0 →
    j = ({ id := 0, tent := m.tent, tag := m.tag, msgcpl := m.msgcpl, desc := m.words } : CoderJob) →
    (s.chip.enqueueCoder j).1 = Status.ok →
    ∃ u, exec (.jobCoder m) s = .next u ∧
      u.chip.coderJobs = s.chip.coderJobs ++ [{ j with id := s.chip.coderNext }] ∧ u.chip.mem = s.chip.mem ∧
      Answered s.chip u.chip 0x0402 m Status.ok) ∧
  -- JOB_LAUNCH: a free thread of the site starts, or the start joins the site's queue
  (∀ m s st, Passes4 s.chip 0x0403 m → st = ({ pc := m.word 1, arg := BitVec.ofNat 64 (m.word 2), src := 0 } : Start) →
    m.p < 27648 → st.pc % 4 = 0 → st.pc < 2 ^ 48 → s.chip.siteTent m.p = m.tent → s.chip.fetchOk m.p st.pc = true →
    (s.chip.veld (m.p / 768)).drained = false →
    (∀ h, s.chip.freeHart m.p = some h → (s.chip.core m.p).spawnq = [] → ∃ u, exec (.jobLaunch m) s = .next u ∧
      u.chip.cores = (s.chip.startThread h st).cores ∧ Answered s.chip u.chip 0x0403 m Status.ok) ∧
    (s.chip.freeHart m.p = none → (s.chip.core m.p).spawnq.length < 8 → ∃ u, exec (.jobLaunch m) s = .next u ∧
      (u.chip.core m.p).spawnq = (s.chip.core m.p).spawnq ++ [st] ∧ Answered s.chip u.chip 0x0403 m Status.ok)) ∧
  -- IMAGE_LOAD: every section of a relocated image is loaded, or its header or hash is wrong
  (∀ m s c' bs ss rs c2, MpTakes s.chip 0x0304 m c' → m.p < 2 ^ 48 → m.word 1 < 2 ^ 32 → m.word 4 < 4 →
    c'.admits m.tent .r m.p (m.word 1) = true → bs = c'.bytes m.p (m.word 1) →
    sectionsOf (leNat ((bs.drop 6).take 2)) (bs.drop 64) = some ss → ss.all (fun x => c'.sectionOk m.tent x) = true →
    c'.relocateAll m.tent (m.word 2) (m.word 3) ss = some rs →
    (bitOf (m.word 4) 0 = true →
      (c'.slotInfo m.tent (bitsOf (m.word 4) 1 1)).images.contains (Config.sha3 bs) = true) →
    (rs.filter fun x => x.typ == 1).all (fun x => inMemory (m.word 2 + x.off) x.pay.length &&
      c'.admits m.tent .w (m.word 2 + x.off) x.pay.length) = true →
    c2 = c'.setTent m.tent { c'.tent m.tent with images := (c'.tent m.tent).images ++ [Config.sha3 bs] } →
    exec (.imageLoad m) s = .next { s with
      chip := (if imageHeader bs = true then
        (rs.foldl (fun c x => c.loadSection m.tent (m.word 2) x) c2).acceptFinish 0x0304 m Status.ok
        else c'.finish 0x0304 m Status.badParam) })

/-- R422, R423, R24, R13: registers and memory as a host reads and writes them. -/
def Obligations.HostAccessesComplete : Prop :=
  -- REG_READ of one register word
  (∀ m s r, Passes4 s.chip 0x0E01 m → m.p < 2 ^ 48 → m.p % 8 = 0 → regAt m.p = some r →
    s.chip.mayRead m.tent r = true →
    ∃ u, exec (.regRead m) s = .next u ∧
      Answered (s.chip.readWord r).2 u.chip 0x0E01 m Status.ok 0 [(s.chip.readWord r).1] ∧
      u.chip.regs = s.chip.regs ∧ u.chip.mem = s.chip.mem) ∧
  -- REG_WRITE of one register, all its words
  (∀ m s r c1, Passes4 s.chip 0x0E02 m → regParamBad m.p = false → m.words.length = regCount m.p →
    regAt (bitsOf m.p 47 0) = some r → r.w = 0 → m.words.length = r.name.desc.words →
    s.chip.mayWrite m.tent r (m.words.headD 0) = true → s.chip.regSet r m.words = (Status.ok, c1) →
    ∃ u, exec (.regWrite m) s = .next u ∧ u = { s with chip := c1.finish 0x0E02 m Status.ok m.words.length }) ∧
  -- MEM_READ and MEM_WRITE of up to 4 KiB of memory
  (∀ m s a n c1, Passes4 s.chip 0x0E03 m → a = m.p → n = m.word 1 → 0 < n → n ≤ 4096 → inMemory a n = true →
    s.chip.admits m.tent .r a n = true →
    (∀ x, x ∈ s.chip.passes.serves → Serve.after { who := .cmd 0x0E03 m, addr := a, len := n, tent := m.tent } x = false) →
    s.chip.admitAll m.tent (memAccess a n) = (c1, true) →
    ∃ u, exec (.memRead m) s = .next u ∧ u.chip.mem = c1.mem ∧ u.chip.regs = c1.regs ∧
      Answered c1 u.chip 0x0E03 m Status.ok 0 (wordsOfBytes ((n + 7) / 8) (c1.bytes a n))) ∧
  (∀ m s a n c1, Passes4 s.chip 0x0E04 m → a = m.p → n = m.word 1 → 0 < n → n ≤ 4096 →
    m.words.length = 1 + (n + 7) / 8 → inMemory a n = true → s.chip.admits m.tent .w a n = true →
    (∀ x, x ∈ s.chip.passes.serves → Serve.after { who := .cmd 0x0E04 m, addr := a, len := n, tent := m.tent } x = false) →
    s.chip.admitAll m.tent (memAccess a n) = (c1, true) →
    ∃ u, exec (.memWrite m) s = .next u ∧ u.chip.regs = c1.regs ∧
      u.chip.mem = (c1.store a (((m.words.drop 1).flatMap fun w => leBytes 8 w.toNat).take n)).mem ∧
      Answered c1 u.chip 0x0E04 m Status.ok) ∧
  -- REGISTER_WRITE of a register the writer may write
  (∀ w a xs s r c1, writerOk w = true → regBase ≤ a → a < regBase + 2 ^ 32 → s.chip.powered = true →
    regAt a = some r → r.w = 0 → xs.length = r.name.desc.words →
    s.chip.mayWrite (s.chip.writerTent w) r (xs.headD 0) = true → s.chip.regSet r xs = (Status.ok, c1) →
    exec (.registerWrite w a xs) s = .next { s with chip := c1.wReply w Status.ok xs.length }) ∧
  -- TICKET_CLEAR of an event flag, apart from the one of the Lantern's records
  (∀ w a x s r, regAt a = some r → r.name.desc.tc = true → r.name ≠ .lantEvRec → RegAdmits s.chip w r x →
    bitOf x.toNat 31 = true → bitsOf x.toNat 7 0 = bitsOf (s.chip.get r).toNat 7 0 →
    s.chip.marks.contains r = false →
    ∃ u, exec (.ticketClear w a x) s = .next u ∧ u.chip.get r = 0 ∧ u.chip.mem = s.chip.mem)

/-- R300, R303, R324, R325: an integer instruction that issues writes its result to rd and retires. -/
def Obligations.IntegerResultsAreWritten : Prop :=
  (∀ h rd ra rb fn s d, Issues s.chip h (.alu h rd ra rb fn) false none d → exec (.alu h rd ra rb fn) s = .next { s with
    chip := (d.setXr h rd (aluOp fn.toNat (d.x h ra) (d.x h rb))).retire h }) ∧
  (∀ h rd ra imm s d, Issues s.chip h (.addi h rd ra imm) false none d → exec (.addi h rd ra imm) s = .next { s with
    chip := (d.setXr h rd (d.x h ra + imm.signExtend 64)).retire h }) ∧
  (∀ h rd ra imm s d, Issues s.chip h (.andi h rd ra imm) false none d → exec (.andi h rd ra imm) s = .next { s with
    chip := (d.setXr h rd (d.x h ra &&& imm.setWidth 64)).retire h }) ∧
  (∀ h rd ra imm s d, Issues s.chip h (.ori h rd ra imm) false none d → exec (.ori h rd ra imm) s = .next { s with
    chip := (d.setXr h rd (d.x h ra ||| imm.setWidth 64)).retire h }) ∧
  (∀ h rd ra imm s d, Issues s.chip h (.xori h rd ra imm) false none d → exec (.xori h rd ra imm) s = .next { s with
    chip := (d.setXr h rd (d.x h ra ^^^ imm.setWidth 64)).retire h }) ∧
  (∀ h rd ra imm s d, Issues s.chip h (.shi h rd ra imm) false none d → exec (.shi h rd ra imm) s = .next { s with
    chip := (d.setXr h rd (shiOp imm.toNat (d.x h ra))).retire h }) ∧
  (∀ h rd ra imm s d, Issues s.chip h (.slti h rd ra imm) false none d → exec (.slti h rd ra imm) s = .next { s with
    chip := (d.setXr h rd (ofBool64 (decide ((d.x h ra).toInt < imm.toInt)))).retire h }) ∧
  (∀ h rd ra imm s d, Issues s.chip h (.lih h rd ra imm) false none d → exec (.lih h rd ra imm) s = .next { s with
    chip := (d.setXr h rd (setBits (d.x h rd) (16 * (ra.toNat % 4) + 15) (16 * (ra.toNat % 4)) imm.toNat)).retire h }) ∧
  (∀ h rd ra imm s d, Issues s.chip h (.addpc h rd ra imm) false none d → exec (.addpc h rd ra imm) s = .next { s with
    chip := (d.setXr h rd (BitVec.ofInt 64 (((d.thread h).pc : Int) + 4 * imm.toInt))).retire h }) ∧
  -- GETS: the selector's value; selector 6 takes one step of the core's generator
  (∀ h rd ra imm s d, Issues s.chip h (.gets h rd ra imm) false none d → imm ≠ 6 →
    exec (.gets h rd ra imm) s = .next { s with chip := (d.setXr h rd (d.selector h imm.toNat)).retire h }) ∧
  (∀ h rd ra s d g, Issues s.chip h (.gets h rd ra 6) false none d →
    g = d.gen (.core (h.i / 768) (d.physOf h.i)) →
    exec (.gets h rd ra 6) s = .next { s with
      chip := ((d.setGen (.core (h.i / 768) (d.physOf h.i)) g.whole.2).setXr h rd g.whole.1).retire h })

/-- R300, R320, R324: branches, jumps, HALT and a word that is no instruction. -/
def Obligations.ControlFlowFollowsTheSpec : Prop :=
  (∀ h ra rb off s d, Issues s.chip h (.beq h ra rb off) false none d → exec (.beq h ra rb off) s = .next { s with
    chip := d.retireTo h (if d.x h ra = d.x h rb then pcOf ((d.thread h).pc + 4 * off.toInt) else (d.thread h).pc + 4) }) ∧
  (∀ h ra rb off s d, Issues s.chip h (.bne h ra rb off) false none d → exec (.bne h ra rb off) s = .next { s with
    chip := d.retireTo h (if d.x h ra ≠ d.x h rb then pcOf ((d.thread h).pc + 4 * off.toInt) else (d.thread h).pc + 4) }) ∧
  (∀ h ra rb off s d, Issues s.chip h (.blt h ra rb off) false none d → exec (.blt h ra rb off) s = .next { s with
    chip := d.retireTo h (if (d.x h ra).toInt < (d.x h rb).toInt then pcOf ((d.thread h).pc + 4 * off.toInt) else (d.thread h).pc + 4) }) ∧
  (∀ h ra rb off s d, Issues s.chip h (.bge h ra rb off) false none d → exec (.bge h ra rb off) s = .next { s with
    chip := d.retireTo h (if (d.x h rb).toInt ≤ (d.x h ra).toInt then pcOf ((d.thread h).pc + 4 * off.toInt) else (d.thread h).pc + 4) }) ∧
  (∀ h ra rb off s d, Issues s.chip h (.bltu h ra rb off) false none d → exec (.bltu h ra rb off) s = .next { s with
    chip := d.retireTo h (if (d.x h ra).toNat < (d.x h rb).toNat then pcOf ((d.thread h).pc + 4 * off.toInt) else (d.thread h).pc + 4) }) ∧
  (∀ h ra rb off s d, Issues s.chip h (.bgeu h ra rb off) false none d → exec (.bgeu h ra rb off) s = .next { s with
    chip := d.retireTo h (if (d.x h rb).toNat ≤ (d.x h ra).toNat then pcOf ((d.thread h).pc + 4 * off.toInt) else (d.thread h).pc + 4) }) ∧
  (∀ h rd off s d, Issues s.chip h (.jal h rd off) false none d → exec (.jal h rd off) s = .next { s with
    chip := (d.setXr h rd (BitVec.ofNat 64 ((d.thread h).pc + 4))).retireTo h
      (pcOf ((d.thread h).pc + 4 * off.toInt)) }) ∧
  (∀ h rd ra imm s d, Issues s.chip h (.jalr h rd ra imm) false none d → d.addrOf h ra imm % 4 = 0 →
    exec (.jalr h rd ra imm) s = .next { s with
      chip := (d.setXr h rd (BitVec.ofNat 64 ((d.thread h).pc + 4))).retireTo h (d.addrOf h ra imm) }) ∧
  (∀ h s d, Issues s.chip h (.halt h) false none d → ∃ u, exec (.halt h) s = .next u ∧
    u.chip.thread h = (d.thread h).freed ∧ (u.chip.thread h).state = 0 ∧ u.chip.mem = d.mem) ∧
  -- ILLEGAL_INSTRUCTION: the thread faults with cause 1 before it takes effect
  (∀ h w s fill need a, h.ok = true → s.chip.powered = true → (s.chip.thread h).state = 1 → s.chip.turn h = true →
    (s.chip.thread h).late = none → decodeThread h w = none → s.chip.fetch h = .word w fill need →
    s.chip.admitCharges (.core h.i) ((s.chip.siteTent h.i, .core h.i, 1) :: need) s.chip = (a, true) →
    ∃ u, exec (.illegalInstruction h w) s = .next u ∧ (u.chip.thread h).state = 4 ∧
      (u.chip.thread h).pc = (s.chip.thread h).pc)

/-- R308, R314, R324: an aligned load from the thread's own site store completes at once. -/
def Obligations.LoadsReadTheOwnStore : Prop :=
  (∀ h rd ra imm s d a, Issues s.chip h (.ld8s h rd ra imm) false (some ⟨.r, s.chip.addrOf h ra imm, 1⟩) d →
    a = d.addrOf h ra imm → a = s.chip.addrOf h ra imm → a % 1 = 0 → inStore h.i a 1 = true →
    ∃ u, exec (.ld8s h rd ra imm) s = .next u ∧ u.chip.mem = d.mem ∧ ((d.thread h).stopping = false →
      u.chip.x h rd = (if rd = 0 then 0 else loadValue (d.bytes a 1) true) ∧
      (u.chip.thread h).state = 1 ∧ (u.chip.thread h).pc = ((d.thread h).pc + 4) % 2 ^ 48)) ∧
  (∀ h rd ra imm s d a, Issues s.chip h (.ld8u h rd ra imm) false (some ⟨.r, s.chip.addrOf h ra imm, 1⟩) d →
    a = d.addrOf h ra imm → a = s.chip.addrOf h ra imm → a % 1 = 0 → inStore h.i a 1 = true →
    ∃ u, exec (.ld8u h rd ra imm) s = .next u ∧ u.chip.mem = d.mem ∧ ((d.thread h).stopping = false →
      u.chip.x h rd = (if rd = 0 then 0 else loadValue (d.bytes a 1) false) ∧
      (u.chip.thread h).state = 1 ∧ (u.chip.thread h).pc = ((d.thread h).pc + 4) % 2 ^ 48)) ∧
  (∀ h rd ra imm s d a, Issues s.chip h (.ld16s h rd ra imm) false (some ⟨.r, s.chip.addrOf h ra imm, 2⟩) d →
    a = d.addrOf h ra imm → a = s.chip.addrOf h ra imm → a % 2 = 0 → inStore h.i a 2 = true →
    ∃ u, exec (.ld16s h rd ra imm) s = .next u ∧ u.chip.mem = d.mem ∧ ((d.thread h).stopping = false →
      u.chip.x h rd = (if rd = 0 then 0 else loadValue (d.bytes a 2) true) ∧
      (u.chip.thread h).state = 1 ∧ (u.chip.thread h).pc = ((d.thread h).pc + 4) % 2 ^ 48)) ∧
  (∀ h rd ra imm s d a, Issues s.chip h (.ld16u h rd ra imm) false (some ⟨.r, s.chip.addrOf h ra imm, 2⟩) d →
    a = d.addrOf h ra imm → a = s.chip.addrOf h ra imm → a % 2 = 0 → inStore h.i a 2 = true →
    ∃ u, exec (.ld16u h rd ra imm) s = .next u ∧ u.chip.mem = d.mem ∧ ((d.thread h).stopping = false →
      u.chip.x h rd = (if rd = 0 then 0 else loadValue (d.bytes a 2) false) ∧
      (u.chip.thread h).state = 1 ∧ (u.chip.thread h).pc = ((d.thread h).pc + 4) % 2 ^ 48)) ∧
  (∀ h rd ra imm s d a, Issues s.chip h (.ld32s h rd ra imm) false (some ⟨.r, s.chip.addrOf h ra imm, 4⟩) d →
    a = d.addrOf h ra imm → a = s.chip.addrOf h ra imm → a % 4 = 0 → inStore h.i a 4 = true →
    ∃ u, exec (.ld32s h rd ra imm) s = .next u ∧ u.chip.mem = d.mem ∧ ((d.thread h).stopping = false →
      u.chip.x h rd = (if rd = 0 then 0 else loadValue (d.bytes a 4) true) ∧
      (u.chip.thread h).state = 1 ∧ (u.chip.thread h).pc = ((d.thread h).pc + 4) % 2 ^ 48)) ∧
  (∀ h rd ra imm s d a, Issues s.chip h (.ld32u h rd ra imm) false (some ⟨.r, s.chip.addrOf h ra imm, 4⟩) d →
    a = d.addrOf h ra imm → a = s.chip.addrOf h ra imm → a % 4 = 0 → inStore h.i a 4 = true →
    ∃ u, exec (.ld32u h rd ra imm) s = .next u ∧ u.chip.mem = d.mem ∧ ((d.thread h).stopping = false →
      u.chip.x h rd = (if rd = 0 then 0 else loadValue (d.bytes a 4) false) ∧
      (u.chip.thread h).state = 1 ∧ (u.chip.thread h).pc = ((d.thread h).pc + 4) % 2 ^ 48)) ∧
  (∀ h rd ra imm s d a, Issues s.chip h (.ld64 h rd ra imm) false (some ⟨.r, s.chip.addrOf h ra imm, 8⟩) d →
    a = d.addrOf h ra imm → a = s.chip.addrOf h ra imm → a % 8 = 0 → inStore h.i a 8 = true →
    ∃ u, exec (.ld64 h rd ra imm) s = .next u ∧ u.chip.mem = d.mem ∧ ((d.thread h).stopping = false →
      u.chip.x h rd = (if rd = 0 then 0 else loadValue (d.bytes a 8) false) ∧
      (u.chip.thread h).state = 1 ∧ (u.chip.thread h).pc = ((d.thread h).pc + 4) % 2 ^ 48)) ∧
  (∀ h v ra off s d a, Issues s.chip h (.vld h v ra off) false (some ⟨.r, s.chip.addrOf h ra off 16, 16⟩) d →
    a = d.addrOf h ra off 16 → a = s.chip.addrOf h ra off 16 → a % 16 = 0 → inStore h.i a 16 = true →
    ∃ u, exec (.vld h v ra off) s = .next u ∧ u.chip.mem = d.mem ∧ ((d.thread h).stopping = false →
      (u.chip.thread h).getV v.toNat = BitVec.ofNat 128 (leNat (d.bytes a 16)) ∧ (u.chip.thread h).state = 1))

/-- R308, R313, R324: an aligned store to the thread's own site store writes its bytes and no other. -/
def Obligations.StoresWriteTheOwnStore : Prop :=
  (∀ h rb ra imm s d a, Issues s.chip h (.st8 h rb ra imm) false (some ⟨.w, s.chip.addrOf h ra imm, 1⟩) d →
    a = d.addrOf h ra imm → a = s.chip.addrOf h ra imm → a % 1 = 0 → inStore h.i a 1 = true →
    ∃ u, exec (.st8 h rb ra imm) s = .next u ∧ u.chip.bytes a 1 = leBytes 1 (d.x h rb).toNat ∧
      ∀ b, b < a ∨ a + 1 ≤ b → u.chip.byte b = d.byte b) ∧
  (∀ h rb ra imm s d a, Issues s.chip h (.st16 h rb ra imm) false (some ⟨.w, s.chip.addrOf h ra imm, 2⟩) d →
    a = d.addrOf h ra imm → a = s.chip.addrOf h ra imm → a % 2 = 0 → inStore h.i a 2 = true →
    ∃ u, exec (.st16 h rb ra imm) s = .next u ∧ u.chip.bytes a 2 = leBytes 2 (d.x h rb).toNat ∧
      ∀ b, b < a ∨ a + 2 ≤ b → u.chip.byte b = d.byte b) ∧
  (∀ h rb ra imm s d a, Issues s.chip h (.st32 h rb ra imm) false (some ⟨.w, s.chip.addrOf h ra imm, 4⟩) d →
    a = d.addrOf h ra imm → a = s.chip.addrOf h ra imm → a % 4 = 0 → inStore h.i a 4 = true →
    ∃ u, exec (.st32 h rb ra imm) s = .next u ∧ u.chip.bytes a 4 = leBytes 4 (d.x h rb).toNat ∧
      ∀ b, b < a ∨ a + 4 ≤ b → u.chip.byte b = d.byte b) ∧
  (∀ h rb ra imm s d a, Issues s.chip h (.st64 h rb ra imm) false (some ⟨.w, s.chip.addrOf h ra imm, 8⟩) d →
    a = d.addrOf h ra imm → a = s.chip.addrOf h ra imm → a % 8 = 0 → inStore h.i a 8 = true →
    ∃ u, exec (.st64 h rb ra imm) s = .next u ∧ u.chip.bytes a 8 = leBytes 8 (d.x h rb).toNat ∧
      ∀ b, b < a ∨ a + 8 ≤ b → u.chip.byte b = d.byte b) ∧
  (∀ h v ra off s d a, Issues s.chip h (.vst h v ra off) false (some ⟨.w, s.chip.addrOf h ra off 16, 16⟩) d →
    a = d.addrOf h ra off 16 → a = s.chip.addrOf h ra off 16 → a % 16 = 0 → inStore h.i a 16 = true →
    ∃ u, exec (.vst h v ra off) s = .next u ∧
      u.chip.bytes a 16 = leBytes 16 ((d.thread h).getV v.toNat).toNat ∧
      ∀ b, b < a ∨ a + 16 ≤ b → u.chip.byte b = d.byte b) ∧
  -- AMO: the new value is stored, and the old one is the result
  (∀ h rd ra rb fn s d a n, n = (if bitOf fn.toNat 4 then 8 else 4) →
    Issues s.chip h (.amo h rd ra rb fn) (bitOf fn.toNat 6) (some ⟨.a, (s.chip.x h ra).toNat, n⟩) d →
    a = (d.x h ra).toNat → a = (s.chip.x h ra).toNat → a % n = 0 → inStore h.i a n = true →
    ∃ u, exec (.amo h rd ra rb fn) s = .next u ∧
      u.chip.num a n = amoValue fn.toNat n (d.num a n) (d.x h rb).toNat (d.x h rd).toNat ∧
      (∀ b, b < a ∨ a + n ≤ b → u.chip.byte b = d.byte b) ∧ ((d.thread h).stopping = false →
        u.chip.x h rd = (if rd = 0 then 0 else BitVec.ofNat 64 (d.num a n)))) ∧
  -- MEM_ACCESS_RESPONSE: a store elsewhere in this module is performed
  (∀ h n s a bs, h.ok = true → (s.chip.thread h).out[n]? = some a → a.tag = none → a.kind = .store bs →
    a.home < regBase → (∀ b, b ∈ (s.chip.thread h).out.take n → b.tag = none → b.meets a = false) →
    ∃ u, exec (.memAccessResponse h n) s = .next u ∧ u.chip.mem = (s.chip.store a.home bs).mem)

/-- R300, R305, R324, R326 to R328: a vector instruction that issues writes its lanes to vd and retires. -/
def Obligations.VectorResultsAreWritten : Prop :=
  (∀ h vd va vb p fn s d, Issues s.chip h (.vi h vd va vb p fn) false none d →
    exec (.vi h vd va vb p fn) s = .next { s with chip := d.vector h vd va vb p (viVec fn.toNat) }) ∧
  (∀ h vd va vb p fn s d, Issues s.chip h (.vb h vd va vb p fn) false none d →
    exec (.vb h vd va vb p fn) s = .next { s with chip := d.vector h vd va vb p (vbVec fn.toNat) }) ∧
  (∀ h vd va vb p fn s d, Issues s.chip h (.vf h vd va vb p fn) false none d →
    exec (.vf h vd va vb p fn) s = .next { s with chip := d.vector h vd va vb p (vfVec fn.toNat) }) ∧
  (∀ h vd va vb p fn s d, Issues s.chip h (.vred h vd va vb p fn) false none d →
    exec (.vred h vd va vb p fn) s = .next { s with chip := d.vector h vd va vb p (vredVec fn.toNat) }) ∧
  (∀ h vd va vb p fn s d, Issues s.chip h (.vperm h vd va vb p fn) false none d →
    exec (.vperm h vd va vb p fn) s = .next { s with chip := d.vector h vd va vb p (vpermVec fn.toNat) }) ∧
  (∀ h vd va vb p fn s d, Issues s.chip h (.vcvt h vd va vb p fn) false none d →
    exec (.vcvt h vd va vb p fn) s = .next { s with chip := d.vector h vd va vb p (vcvtVec fn.toNat) }) ∧
  (∀ h vd va vb p fn s d, Issues s.chip h (.vnq h vd va vb p fn) false none d →
    exec (.vnq h vd va vb p fn) s = .next { s with chip := d.vector h vd va vb p (vnqVec fn.toNat) }) ∧
  (∀ h vd va vb p fn s d, Issues s.chip h (.vdq h vd va vb p fn) false none d →
    exec (.vdq h vd va vb p fn) s = .next { s with chip := d.vector h vd va vb p (vdqVec fn.toNat) }) ∧
  (∀ h vd va vb p fn s d, Issues s.chip h (.vu8 h vd va vb p fn) false none d →
    exec (.vu8 h vd va vb p fn) s = .next { s with chip := d.vector h vd va vb p (vu8Vec fn.toNat) }) ∧
  (∀ h vd va vb p fn s d, Issues s.chip h (.vsc h vd va vb p fn) false none d →
    exec (.vsc h vd va vb p fn) s = .next { s with chip := d.vector h vd va vb p (vscVec fn.toNat) }) ∧
  (∀ h vd va vb p fn s d, Issues s.chip h (.vrand h vd va vb p fn) false none d →
    exec (.vrand h vd va vb p fn) s = .next { s with chip := d.vector h vd va vb p (vrandVec fn.toNat) }) ∧
  (∀ h vd va vb p fn s d, Issues s.chip h (.vcmp h vd va vb p fn) false none d →
    exec (.vcmp h vd va vb p fn) s = .next { s with chip := d.vcmp h vd va vb p fn.toNat }) ∧
  (∀ h vd x lane fn s d, Issues s.chip h (.vmov h vd x lane fn) false none d →
    exec (.vmov h vd x lane fn) s = .next { s with chip :=
      (d.mapThread h fun t => t.vmov vd.toNat x.toNat lane.toNat fn.toNat).retire h })

/-- R315, R321, R329 to R331: threads wait, watch memory, start other threads and are stopped. -/
def Obligations.ThreadsWaitAndSpawn : Prop :=
  -- FENCE: the thread goes on once the stores it names are performed
  (∀ h rd ra rb fn s d e, Issues s.chip h (.fence h rd ra rb fn) false none d →
    e = (if bitOf fn.toNat 3 then d.flushCache h.i else d) →
    (((bitOf fn.toNat 1 = true → (e.thread h).storing false = false) ∧
      (bitOf fn.toNat 2 = true → (e.thread h).storing true = false)) →
      exec (.fence h rd ra rb fn) s = .next { s with chip := e.retire h }) ∧
    (bitOf fn.toNat 1 = true → (e.thread h).storing false = true →
      exec (.fence h rd ra rb fn) s = .next { s with chip := e.stall h (.fence false) })) ∧
  -- SPAWN: the record at ra starts or queues a thread, and rd takes OK
  (∀ h rd ra rb fn s d a d1 d2 bs st i, Issues s.chip h (.spawn h rd ra rb fn) true
      (some ⟨.r, (s.chip.x h ra).toNat, 24⟩) d → a = (d.x h ra).toNat → a = (s.chip.x h ra).toNat → a % 8 = 0 →
    inStore h.i a 24 = true → bs = d.bytes a 24 → leNat ((bs.drop 4).take 4) = 0 →
    i = (if leNat (bs.take 4) = 0xFFFFFFFF then h.i else leNat (bs.take 4)) →
    st = (⟨leNat ((bs.drop 8).take 8), BitVec.ofNat 64 (leNat ((bs.drop 16).take 8)),
      BitVec.ofNat 64 (8 * h.i + h.t)⟩ : Start) →
    d1 = d.setThread h ((d.thread h).answered ⟨.spawn rd.toNat, a, 24, a, d.siteTent h.i, none⟩) →
    d1.requestStart (d1.siteTent h.i) i st = (Status.ok, d2) →
    exec (.spawn h rd ra rb fn) s = .next { s with chip := d2.answerStatus h rd.toNat Status.ok }) ∧
  -- SPAWN_DEQUEUE: a queued start takes the lowest FREE thread
  (∀ i h x rest s, i < 27648 → s.chip.freeHart i = some h → (s.chip.core i).spawnq = x :: rest →
    ∃ u, exec (.spawnDequeue i) s = .next u ∧ (u.chip.core i).spawnq = rest ∧ (u.chip.thread h).state = 1 ∧
      (u.chip.thread h).pc = x.pc ∧ (u.chip.thread h).getX 1 = x.arg ∧ (u.chip.thread h).getX 2 = x.src) ∧
  -- WAITM on a word of the own store: it waits while the word equals rb, and rd takes the word once it differs
  (∀ h rd ra rb fn s d a w, Issues s.chip h (.waitm h rd ra rb fn) false
      (some ⟨.r, (s.chip.x h ra).toNat, 8⟩) d → a = (d.x h ra).toNat → a = (s.chip.x h ra).toNat → a % 8 = 0 →
    inStore h.i a 8 = true → w = BitVec.ofNat 64 (d.num a 8) → (d.thread h).stopping = false →
    ∃ u, exec (.waitm h rd ra rb fn) s = .next u ∧ u.chip.mem = d.mem ∧
      (w = d.x h rb → (u.chip.thread h).state = 3) ∧
      (w ≠ d.x h rb → (u.chip.thread h).state = 1 ∧ u.chip.x h rd = (if rd = 0 then 0 else w))) ∧
  (∀ h rd a old last timed s w, h.ok = true → s.chip.powered = true → (s.chip.thread h).state = 3 →
    (s.chip.thread h).wait = .watch rd a old last timed → inStore h.i a 8 = true →
    w = BitVec.ofNat 64 (s.chip.num a 8) → w ≠ old → (s.chip.thread h).stopping = false →
    ∃ u, exec (.waitmWake h) s = .next u ∧ (u.chip.thread h).state = 1 ∧
      (u.chip.thread h).getX rd = (if rd = 0 then 0 else w)) ∧
  (∀ h rd a old last timed s c1, h.ok = true → s.chip.powered = true → (s.chip.thread h).state = 3 →
    (s.chip.thread h).wait = .watch rd a old last timed → inStore h.i a 8 = false →
    (∀ x, x ∈ (s.chip.thread h).out → x.kind ≠ .watch) →
    s.chip.admitCharges (.core h.i) (s.chip.touchCharges h (some ⟨.r, a, 8⟩)) s.chip = (c1, true) →
    exec (.waitmPoll h) s = .next { s with chip := c1.watchRead h a }) ∧
  (∀ h rd a old last s, h.ok = true → s.chip.powered = true → (s.chip.thread h).state = 3 →
    (s.chip.thread h).wait = .watch rd a old last true → (s.chip.thread h).stopping = false →
    ∃ u, exec (.waitmTimeout h) s = .next u ∧ (u.chip.thread h).state = 1 ∧
      (u.chip.thread h).getX rd = (if rd = 0 then 0 else last)) ∧
  -- TICKW: the thread waits for a slot tick, or with fn 1 for a frame boundary
  (∀ h rd ra rb fn s d, Issues s.chip h (.tickw h rd ra rb fn) false none d →
    ∃ u, exec (.tickw h rd ra rb fn) s = .next u ∧ (u.chip.thread h).state = 3 ∧
      (u.chip.thread h).wait = .tick rd.toNat (fn == 1) ∧ (u.chip.thread h).pc = (d.thread h).pc) ∧
  -- THREAD_STOP: a thread between instructions becomes FREE
  (∀ w n p t s i, RegAdmits s.chip w { name := .siteThreadCtl, idx := [n, p, t] } 0x80000000 →
    s.chip.logicalOf n p = some i → (s.chip.thread ⟨i, t⟩).state ≠ 0 → (s.chip.thread ⟨i, t⟩).wait = .none →
    ∃ u, exec (.threadStop w n p t) s = .next u ∧ (u.chip.thread ⟨i, t⟩).state = 0 ∧
      Told s.chip u.chip w Status.ok 1)

/-- R332 to R336, R159, R305: threads give work to Dales and to their own site's array. -/
def Obligations.ThreadsEnqueueWork : Prop :=
  -- DENQ: the descriptor at ra joins its Dale's queue, and rd takes OK
  (∀ h rd ra rb fn s d a d1 d2 bs, Issues s.chip h (.denq h rd ra rb fn) true
      (some ⟨.r, (s.chip.x h ra).toNat, 128⟩) d → a = (d.x h ra).toNat → a = (s.chip.x h ra).toNat → a % 8 = 0 →
    inStore h.i a 128 = true → bs = d.bytes a 128 → (d.x h rb).toNat % 32 = 0 →
    d1 = d.setThread h ((d.thread h).answered ⟨.denq rd.toNat (d.x h rb), a, 128, a, d.siteTent h.i, none⟩) →
    d1.enqueueDale { tent := d1.siteTent h.i, compl := some (d.x h rb).toNat, desc := wordsOfBytes 16 bs } =
      (Status.ok, d2) →
    exec (.denq h rd ra rb fn) s = .next { s with chip := d2.answerStatus h rd.toNat Status.ok }) ∧
  -- ASTEP: the step joins the site's queue, and the thread waits for it
  (∀ h rd ra rb fn s d a d1 ctx vecs, Issues s.chip h (.astep h rd ra rb fn) true none d → a = (d.x h ra).toNat →
    ctx = fn.toNat % 4 → vecs = bitsOf fn.toNat 6 2 + 1 → d.lmapValid h.i = true → inStore h.i a 16 = true →
    a % 16 = 0 → d.stepRefused h.i ctx vecs (a - storeBase h.i) = none →
    d1 = d.setCore h.i { d.core h.i with steps := (d.core h.i).steps ++ [.step h.t ctx vecs (a - storeBase h.i)] } →
    exec (.astep h rd ra rb fn) s = .next { s with chip :=
      (d1.mapThread h fun t => { t with state := 3, wait := .step rd.toNat }).nextStep h.i }) ∧
  -- ASTEP_END: the running step ends with OK, OK_CLIPPED, or SCALE_SKEW where a scale record failed; its context has
  -- done one step more, and it is OK_CLIPPED just where the context's count of over-ranges rises (or is full already)
  (∀ i noise s run t ctx vecs base rest, i < 27648 → (s.chip.core i).run = some run →
    (s.chip.core i).steps = .step t ctx vecs base :: rest →
    ∃ (c1 : Chip) (st n : Nat), exec (.astepEnd i noise) s = .next { s with chip := c1.endStep i st n } ∧
      (∀ j, run.skew = some j → st = Status.scaleSkew ∧ n = j) ∧
      (run.skew = none → n = vecs ∧ (
        st = Status.okClipped ∧ ((c1.actx i ctx).ovr ≠ (s.chip.actx i ctx).ovr ∨
          (s.chip.actx i ctx).ovr = 0xFFFFFFFF) ∨
        st = Status.ok ∧ (c1.actx i ctx).ovr = (s.chip.actx i ctx).ovr)) ∧
      (c1.actx i ctx).steps = (s.chip.actx i ctx).steps + 1 ∧
      (c1.actx i ctx).disc = sat32 ((s.chip.actx i ctx).disc + run.changed) ∧
      (c1.core i).steps = (s.chip.core i).steps ∧ c1.thread ⟨i, t⟩ = s.chip.thread ⟨i, t⟩) ∧
  -- with nothing behind it, its thread goes on with the status and the rows in rd
  (∀ i noise s run t ctx vecs base rd, i < 27648 → (s.chip.core i).run = some run →
    (s.chip.core i).steps = [.step t ctx vecs base] → (s.chip.thread ⟨i, t⟩).wait = .step rd → rd ≠ 0 →
    (s.chip.thread ⟨i, t⟩).stopping = false → run.skew = none →
    ∃ u st, exec (.astepEnd i noise) s = .next u ∧ (st = Status.ok ∨ st = Status.okClipped) ∧
      (u.chip.core i).run = none ∧ (u.chip.core i).steps = [] ∧ (u.chip.thread ⟨i, t⟩).state = 1 ∧
      (u.chip.thread ⟨i, t⟩).getX rd = BitVec.ofNat 64 (st + vecs * 2 ^ 16)) ∧
  -- ACLOSE: the context closes after the steps issued before it, and rd takes OK
  (∀ h rd ra rb fn s d, Issues s.chip h (.aclose h rd ra rb fn) false none d → d.lmapValid h.i = true →
    exec (.aclose h rd ra rb fn) s = .next { s with
      chip := (d.queueCtx h.i (.close (fn.toNat % 4)) (fn.toNat % 4) fun c =>
        c.actxClose h.i (fn.toNat % 4)).answerStatus h rd.toNat Status.ok }) ∧
  -- a write of SITE_ACTX_CFG creates a context's job
  (∀ w n p a x s i c1, RegAdmits s.chip w { name := .siteActxCfg, idx := [n, p, a] } x →
    s.chip.logicalOf n p = some i →
    s.chip.actxRefused i (bitsOf (s.chip.actxReg .siteActxTable i a) 14 0) (bitsOf x.toNat 31 0) = false →
    c1 = s.chip.put { name := .siteActxCfg, idx := [n, p, a] } (BitVec.ofNat 64 (bitsOf x.toNat 31 0)) →
    exec (.actxCreate w n p a x) s = .next { s with
      chip := (c1.queueCtx i (.create a (BitVec.ofNat 64 (bitsOf x.toNat 31 0))) a fun c =>
        c.actxCreate i a (bitsOf x.toNat 31 0)).wReply w Status.ok 1 }) ∧
  -- a write of SITE_CORE_RSEED_HI seeds the core's generator; a seed of zero leaves it
  (∀ w n p x s seed, RegAdmits s.chip w { name := .siteCoreRseedHi, idx := [n, p] } x →
    seed = BitVec.ofNat 64 (bitsOf x.toNat 31 0 * 2 ^ 32 + s.chip.f Fld.siteCoreRseedLo_seed [n, p]) →
    ∃ u, exec (.coreRseedLoad w n p x) s = .next u ∧ Told s.chip u.chip w Status.ok 1 ∧
      (seed ≠ 0 → u.chip.gen (.core n p) = { s := seed }) ∧ (seed = 0 → u.chip.gens = s.chip.gens))

/-- R34, R40, R49, R59: frame length, pitches, credit budget and group limits as they are written. -/
def Obligations.BudgetRegistersAreSet : Prop :=
  (∀ w x s n, RegAdmits s.chip w { name := .budFrameCfg } x → n = bitsOf x.toNat 5 0 → n ≠ 0 →
    (32 / 2 ^ s.chip.f Fld.fhCfg_numerology) % n = 0 →
    ∃ u, exec (.frameLenWrite w x) s = .next u ∧ u.chip.f Fld.budFrameCfg_frameLen = n ∧
      u.chip.bud = s.chip.bud ∧ Told s.chip u.chip w Status.ok 1) ∧
  (∀ w x s n, RegAdmits s.chip w { name := .budCredBudget } x → n = bitsOf x.toNat 10 0 → 400 ≤ n → n ≤ 1500 →
    s.chip.floorsAll ≤ n →
    ∃ u, exec (.credBudgetWrite w x) s = .next u ∧ u.chip.f Fld.budCredBudget_budget = n ∧
      u.chip.bud = s.chip.bud ∧ Told s.chip u.chip w Status.ok 1) ∧
  (∀ w g x s, g < 58 → RegAdmits s.chip w { name := .budGroupCfg, idx := [g] } x →
    s.chip.floorOf g ≤ bitsOf x.toNat 21 11 → bitsOf x.toNat 21 11 ≤ 1500 →
    ∃ u, exec (.groupCfgWrite w g x) s = .next u ∧ u.chip.f Fld.budGroupCfg_ceiling [g] = bitsOf x.toNat 21 11 ∧
      u.chip.f Fld.budGroupCfg_ramp [g] = bitsOf x.toNat 30 24 ∧ u.chip.floorOf g = s.chip.floorOf g ∧
      Told s.chip u.chip w Status.ok 1) ∧
  -- PWR_BUDGET: the same budget by command
  (∀ m s c', MpTakes s.chip 0x0903 m c' → m.stray 0x7FF = false → 400 ≤ m.p → m.p ≤ 1500 → c'.floorsAll ≤ m.p →
    ∃ u, exec (.pwrBudget m) s = .next u ∧ u.chip.f Fld.budCredBudget_budget = m.p ∧
      Answered c' u.chip 0x0903 m Status.ok)

/-- R41, R45: leases are issued while the used quantity is below the allowance, and a grain that waited too long ends
its job. -/
def Obligations.LeasesFollowTheAllowance : Prop :=
  -- LEASE_REQUEST
  (∀ g t q s n, gateExists g = true → t < 64 →
    (∀ a, s.chip.allowance t (gateClass g) = some a → s.chip.usedOf t (gateClass g) < a) →
    n = max (classUnit (gateClass g)) q →
    ∃ u, exec (.leaseRequest g t q) s = .next u ∧
      u.chip.usedOf t (gateClass g) = s.chip.usedOf t (gateClass g) + n ∧
      u.chip.leaseIn g t s.chip.bud.frame = s.chip.leaseIn g t s.chip.bud.frame + n ∧ u.chip.regs = s.chip.regs) ∧
  (∀ g t q s a, gateExists g = true → t < 64 → s.chip.allowance t (gateClass g) = some a →
    a ≤ s.chip.usedOf t (gateClass g) → exec (.leaseRequest g t q) s = .next s) ∧
  -- WAIT_LIMIT_EXPIRE
  (∀ g t s w c1, gateExists g = true → t < 64 → s.chip.f Fld.budWaitLimit_waitFrames [t] ≠ 0 →
    (s.chip.waitingAt g t).filter (fun w => decide (s.chip.f Fld.budWaitLimit_waitFrames [t] ≠ 0 ∧
      s.chip.f Fld.budWaitLimit_waitFrames [t] + 1 ≤ w.met)) = [w] →
    s.chip.endWaiting (w.job.getD g) t = (c1, true) →
    exec (.waitLimitExpire g t) s = .next { s with chip := c1.ev .budEvWait [t] })

/-- R49 to R57: the current arbiter takes requests, grants and refills, and units release their credits. -/
def Obligations.ArbiterKeepsItsAccounts : Prop :=
  -- CREDIT_REQUEST
  (∀ a s, askerExists a = true → s.chip.neverGranted (askerGroup a) (askerStep a) = false →
    (∀ r, r ∈ s.chip.bud.requests → r.who ≠ a) →
    ∃ u, exec (.creditRequest a) s = .next u ∧
      u.chip.bud.requests = s.chip.bud.requests ++ [⟨a, askerGroup a, askerStep a, 0⟩] ∧
      u.chip.regs = s.chip.regs) ∧
  -- CREDIT_GRANT
  (∀ s r c1, firstFit s.chip.fits s.chip.bud.requests = some r →
    c1 = ({ s.chip with bud := { s.chip.bud with requests := passOver r s.chip.bud.requests } } : Chip) →
    exec .creditGrant s = .next { s with chip :=
      (((c1.addCredits r.group r.step).grantForecast r.group r.step).answerCredits r.who Status.ok).granted1 r.who }) ∧
  -- RAMP_REFILL
  (∀ g us s, g < 58 → s.chip.f Fld.budGroupCfg_ramp [g] ≠ 0 →
    ∃ u, exec (.rampRefill g us) s = .next u ∧
      u.chip.rampOf g = min (100 * (s.chip.f Fld.budGroupCfg_ramp [g] : Int))
        (s.chip.rampOf g + ((s.chip.f Fld.budGroupCfg_ramp [g] * us : Nat) : Int)) ∧ u.chip.regs = s.chip.regs) ∧
  -- CREDIT_RELEASE of each kind of unit
  (∀ k s, k < 144 → (s.chip.dale k).active = true → (s.chip.dale k).run = none → ∃ c1 : Chip,
    c1 = s.chip.setDale k { s.chip.dale k with active := false } ∧ exec (.creditRelease (.dale k)) s = .next { s with
      chip := (c1.dropCredits (k / 12) 4).settleShed (k / 12) }) ∧
  (∀ n s, n < 36 → 0 < (s.chip.veld n).reads → s.chip.reading n ≤ 64 * ((s.chip.veld n).reads - 1) → ∃ c1 : Chip,
    c1 = s.chip.setVeld n { s.chip.veld n with reads := (s.chip.veld n).reads - 1 } ∧
    exec (.creditRelease (.reading n)) s = .next { s with
      chip := (c1.dropCredits (12 + n) 1).settleShed (12 + n) }) ∧
  (∀ n p s, n < 36 → p < 800 → 0 < (s.chip.veld n).pairs → s.chip.programming n ≤ 2 * ((s.chip.veld n).pairs - 1) →
    ∃ c1 : Chip, c1 = s.chip.setVeld n { s.chip.veld n with pairs := (s.chip.veld n).pairs - 1 } ∧
      exec (.creditRelease (.program n p)) s = .next { s with
        chip := (c1.dropCredits (12 + n) 1).settleShed (12 + n) }) ∧
  (∀ q s, q < 4 → s.chip.floorOf (48 + q) < s.chip.granted (48 + q) →
    exec (.creditRelease (.quarter q)) s = .next { s with
      chip := (s.chip.dropCredits (48 + q) 8).settleShed (48 + q) }) ∧
  (∀ s, s.chip.coderBusy 0 < s.chip.decCredit → ∃ c1 : Chip,
    c1 = { s.chip with decCredit := s.chip.decCredit - 1 } ∧ exec (.creditRelease .decoder) s = .next { s with
      chip := (c1.dropCredits 56 2).settleShed 56 }) ∧
  (∀ s, s.chip.coderBusy 1 < s.chip.encCredit → ∃ c1 : Chip,
    c1 = { s.chip with encCredit := s.chip.encCredit - 1 } ∧ exec (.creditRelease .encoder) s = .next { s with
      chip := (c1.dropCredits 56 8).settleShed 56 }) ∧
  (∀ k s, k < 12 → bitOf (s.chip.f Fld.passPort_boostOn) k = true → s.chip.bud.shed.contains (.booster k) = true →
    exec (.creditRelease (.booster k)) s = .next { s with
      chip := ((s.chip.setF Fld.passPort_boostOn [] (s.chip.f Fld.passPort_boostOn - 2 ^ k)).dropCredits 57 3).settleShed
        57 })

/-- R98, R147, R163, R280: the registers of a Dale and of a Veld's level images. -/
def Obligations.MatrixRegistersAreSet : Prop :=
  (∀ w v d x s a b, RegAdmits s.chip w { name := .daleRowmap, idx := [v, d] } x → a = bitsOf x.toNat 6 0 →
    b = bitsOf x.toNat 14 8 → a ≠ b → a ≤ 65 → b ≤ 65 → (s.chip.dale (12 * v + d)).run = none →
    (s.chip.dale (12 * v + d)).tile = none → (s.chip.dale (12 * v + d)).staging = none →
    ∃ u, exec (.daleRowmapWrite w v d x) s = .next u ∧
      u.chip.get { name := .daleRowmap, idx := [v, d] } = BitVec.ofNat 64 (b * 2 ^ 8 + a) ∧
      u.chip.dales = s.chip.dales ∧ u.chip.mem = s.chip.mem) ∧
  (∀ w v d x s p, RegAdmits s.chip w { name := .daleColmap, idx := [v, d] } x → p = bitsOf x.toNat 14 8 → p ≤ 65 →
    p ≠ s.chip.calCol (12 * v + d) →
    ∃ u, exec (.parkColWrite w v d x) s = .next u ∧ u.chip.regs = s.chip.regs ∧
      (u.chip.dale (12 * v + d)).rot.park = (if p = s.chip.parkCol (12 * v + d) then none else some p)) ∧
  -- rows that wait for their side sums are delivered as DALE_SIDE rises
  (∀ w v d x s c1, RegAdmits s.chip w { name := .daleSide, idx := [v, d] } x →
    c1 = s.chip.count Fld.daleSide_ready [v, d] (bitsOf x.toNat 15 0) →
    exec (.daleSideAdd w v d x) s = .next { s with
      chip := ((Chip.deliverReady (match (s.chip.dale (12 * v + d)).run with
        | some r => r.acc.length
        | none => 0) c1 (12 * v + d)).settleRun (12 * v + d)).wReply w Status.ok 1 }) ∧
  (∀ w n x s base, RegAdmits s.chip w { name := .veldImgBase, idx := [n] } x → base = bitsOf x.toNat 22 0 →
    bitOf x.toNat 31 = true → base * 65536 + 0x6000000 ≤ 0x4800000000 →
    (∀ m, m < 36 → m ≠ n → s.chip.flag Fld.veldImgBase_valid [m] = true →
      s.chip.f Fld.veldImgBase_base [m] + 0x600 ≤ base ∨ base + 0x600 ≤ s.chip.f Fld.veldImgBase_base [m]) →
    (s.chip.flag Fld.veldImgBase_valid [n] = true → base = s.chip.f Fld.veldImgBase_base [n]) →
    ∃ u, exec (.veldImgBaseWrite w n x) s = .next u ∧ u.chip.f Fld.veldImgBase_base [n] = base ∧
      u.chip.f Fld.veldImgBase_valid [n] = 1)

/-- R198, R199, R203, R206, R213, R217: the registers of the monitor and housekeeping converters. -/
def Obligations.ConverterRegistersAct : Prop :=
  -- TABLE_GO: an idle table runs from its start entry
  (∀ w v l x s y, y = x ||| 0x80000000 → RegAdmits s.chip w { name := .convCtl, idx := [v, l] } x →
    bitOf y.toNat 30 = false → s.chip.flag Fld.convCtl_active [v, l] = false →
    ∃ u, exec (.tableGo w v l x) s = .next u ∧ u.chip.f Fld.convCtl_active [v, l] = 1 ∧
      (u.chip.adc v l).next = bitsOf x.toNat 27 22 ∧ (u.chip.adc v l).halting = false) ∧
  -- TABLE_HALT: the table ends after the entry that runs
  (∀ w v l x s e q b, RegAdmits s.chip w { name := .convCtl, idx := [v, l] } x → bitOf x.toNat 31 = false →
    s.chip.flag Fld.convCtl_active [v, l] = true → (s.chip.adc v l).run = .entry e q b →
    ∃ u, exec (.tableHalt w v l x) s = .next u ∧ (u.chip.adc v l).halting = true ∧
      (u.chip.adc v l).run = .entry e q b) ∧
  (∀ w v l x s, RegAdmits s.chip w { name := .convTrkClr, idx := [v, l] } x →
    ∃ u, exec (.trackerClear w v l x) s = .next u ∧
      ∀ e, e < 64 → u.chip.get { name := .convTrk, idx := [v, l, e] } =
        (if bitOf x.toNat e then 0 else s.chip.get { name := .convTrk, idx := [v, l, e] })) ∧
  (∀ w k x s, RegAdmits s.chip w { name := .pwrHkTrkClr, idx := [k] } x →
    ∃ u, exec (.hkTrackerClear w k x) s = .next u ∧
      ∀ e, e < 64 → u.chip.get { name := .pwrHkTrk, idx := [64 * k + e] } =
        (if bitOf x.toNat e then 0 else s.chip.get { name := .pwrHkTrk, idx := [64 * k + e] })) ∧
  -- INJECT_REQUEST: an injection waits for its ADC
  (∀ w v l x s, RegAdmits s.chip w { name := .convInj, idx := [v, l] } x → injRefused x.toNat = false →
    s.chip.f Fld.convCtl_injPend [v, l] < 8 →
    ∃ u, exec (.injectRequest w v l x) s = .next u ∧
      (u.chip.adc v l).queue = (s.chip.adc v l).queue ++ [⟨x, .host⟩]) ∧
  (∀ w v l e x s, RegAdmits s.chip w { name := .convSeq, idx := [v, l, e] } x → seqRefused x.toNat = false →
    ∃ u, exec (.convSeqWrite w v l e x) s = .next u ∧ u.chip.get { name := .convSeq, idx := [v, l, e] } = x) ∧
  (∀ w v k x s, RegAdmits s.chip w { name := .convTrig, idx := [v, k] } x →
    (bitOf x.toNat 31 = true → 50 ≤ bitsOf x.toNat 10 0 ∧ bitsOf x.toNat 10 0 ≤ 2000 ∧
      bitsOf x.toNat 26 16 < bitsOf x.toNat 10 0) →
    ∃ u, exec (.convTrigWrite w v k x) s = .next u ∧ u.chip.get { name := .convTrig, idx := [v, k] } =
      BitVec.ofNat 64 (bitsOf x.toNat 10 0 + bitsOf x.toNat 26 16 * 65536 + bitsOf x.toNat 31 31 * 2 ^ 31)) ∧
  (∀ w e x s, RegAdmits s.chip w { name := .pwrHkSeq, idx := [e] } x → hkRefused x.toNat = false →
    (∀ k, k < 4 → roundLoad (s.chip.hkEntries k e x.toNat) ≤ 1000) →
    ∃ u, exec (.hkSeqWrite w e x) s = .next u ∧ u.chip.get { name := .pwrHkSeq, idx := [e] } = x ∧
      ∀ k, k < 4 → u.chip.get { name := .pwrHkLoad, idx := [k] } =
        BitVec.ofNat 64 (roundLoad (s.chip.hkEntries k e x.toNat)))

/-- R222, R230, R240, R251, R252, R255, R272, R273: the registers of the drive and of the Guylines. -/
def Obligations.LoopRegistersAct : Prop :=
  (∀ w v n x s, RegAdmits s.chip w { name := .drvCh, idx := [v, n] } x →
    s.chip.flag Fld.drvCh_assigned [v, n] = false →
    exec (.drvChWrite w v n x) s = .next { s with
      chip := (s.chip.writeChannel v n x.toNat).wReply w Status.ok 1 }) ∧
  (∀ w v x s, RegAdmits s.chip w { name := .drvPair, idx := [v] } x →
    ∃ u, exec (.drvPairWrite w v x) s = .next u ∧
      u.chip.get { name := .drvPair, idx := [v] } = BitVec.ofNat 64 (bitsOf x.toNat 5 0)) ∧
  (∀ w v t x s, RegAdmits s.chip w { name := .drvToneCtl, idx := [v, t] } x →
    ∃ u, exec (.toneCtlWrite w v t x) s = .next u ∧ u.chip.get { name := .drvToneCtl, idx := [v, t] } =
      BitVec.ofNat 64 (bitsOf x.toNat 31 31 * 2 ^ 31 + bitsOf x.toNat 11 0) ∧
      ((v, t) ∈ u.chip.toneStart ↔ (v, t) ∈ s.chip.toneStart ∨
        (bitOf x.toNat 31 = true ∧ s.chip.flag Fld.drvToneCtl_en [v, t] = false))) ∧
  -- an entry, and whether the loop runs, is taken at the next tick
  (∀ w v n xs s, RegAdmits s.chip w { name := .guyLoop, idx := [v, n] } (xs.headD 0) → xs.length = 8 →
    s.chip.loopRefused v n xs = false →
    ∃ u, exec (.guyLoopWrite w v n xs) s = .next u ∧ (u.chip.loop v n).fresh = true ∧
      (u.chip.loop v n).entry = (s.chip.loop v n).entry ∧ u.chip.loopState v n = s.chip.loopState v n ∧
      u.chip.mem = s.chip.mem) ∧
  (∀ w v n k xs s r, RegAdmits s.chip w { name := .guyCoef, idx := [v, n, k] } (xs.headD 0) → xs.length = 8 →
    coefsWellFormed xs = true → s.chip.loopState v n = 0 → r = normaliseCoefs (s.chip.gen (.guyline v)) xs →
    exec (.guyCoefWrite w v n k xs) s = .next { s with
      chip := ((s.chip.setGen (.guyline v) r.2).putWords .guyCoef [v, n, k] r.1).wReply w Status.ok 8 }) ∧
  -- the seed waits for the next count of the sample clock
  (∀ w v x s, RegAdmits s.chip w { name := .guySeedHi, idx := [v] } x →
    ∃ u, exec (.guySeedLoad w v x) s = .next u ∧ Tab.get u.chip.guySeed v 0 =
      BitVec.ofNat 64 (s.chip.f Fld.guySeedLo_seed [v] + bitsOf x.toNat 31 0 * 2 ^ 32)) ∧
  -- TEST_GO and TEST_STOP
  (∀ w v x s n, RegAdmits s.chip w { name := .guyTestCtl, idx := [v] } x → n = (x ||| 0x80000000).toNat →
    bitOf n 30 = false → bitsOf n 25 24 ≠ 3 → bitsOf n 25 24 ≠ 2 →
    (bitOf n 23 = true → s.chip.f Fld.guyTestAmp_amp [v] * 2 ^ s.chip.f Fld.guyTestAmp_shift [v] ≤ 2 ^ 23) →
    s.chip.flag Fld.guyTestCtl_active [v] = false → s.chip.loopState v (bitsOf n 10 0) ≠ 0 →
    ∃ u, exec (.testGo w v x) s = .next u ∧ u.chip.f Fld.guyTestCtl_active [v] = 1 ∧
      u.chip.f Fld.guyTestCtl_loop [v] = bitsOf n 10 0 ∧ Tab.get u.chip.tests v {} = {}) ∧
  (∀ w v x s n, RegAdmits s.chip w { name := .guyTestCtl, idx := [v] } x → n = (x ||| 0x40000000).toNat →
    bitOf n 31 = false → bitsOf n 25 24 ≠ 3 → bitOf n 23 = false →
    bitsOf n 10 0 = s.chip.f Fld.guyTestCtl_loop [v] →
    ∃ u, exec (.testStop w v x) s = .next u ∧ u.chip.f Fld.guyTestCtl_active [v] = 0) ∧
  -- CAPTURE_GO and CAPTURE_STOP
  (∀ w v x s n, RegAdmits s.chip w { name := .guyCapCtl, idx := [v] } x → n = (x ||| 0x8000000000000000).toNat →
    bitOf n 62 = false → bitsOf n 60 44 ≤ 65536 → s.chip.flag Fld.guyCapState_active [v] = false →
    capBaseOk v (s.chip.f Fld.guyCapBase_base [v]) = true →
    ∃ u, exec (.captureGo w v x) s = .next u ∧ u.chip.f Fld.guyCapState_active [v] = 1) ∧
  (∀ w v x s n, RegAdmits s.chip w { name := .guyCapCtl, idx := [v] } x → n = (x ||| 0x4000000000000000).toNat →
    bitOf n 63 = false → bitsOf n 60 44 ≤ 65536 →
    ∃ u, exec (.captureStop w v x) s = .next u ∧ u.chip.f Fld.guyCapState_active [v] = 0)

/-- R374, R380, R381, R389, R398, R403: the registers of the radio path and of the decoder. -/
def Obligations.RadioRegistersAct : Prop :=
  -- FH_CFG: a timing source changed leaves the island OFF or in ACQUIRING
  (∀ w x s y, RegAdmits s.chip w { name := .fhCfg } x → y = x.toNat → bitsOf y 27 24 ≠ 0 → 24 ≤ bitsOf y 22 16 →
    bitsOf y 22 16 ≤ 43 → bitsOf y 5 4 ≠ 3 → bitsOf y 2 0 ≤ 4 →
    (bitsOf y 2 0 = s.chip.f Fld.fhCfg_numerology ∨ s.chip.anyEaxc = false) →
    ∃ u, exec (.fhCfgWrite w x) s = .next u ∧ u.chip.get { name := .fhCfg } = x &&& 0x0F7F0737 ∧
      u.chip.f Fld.fhState_state = (if bitsOf y 5 4 = s.chip.f Fld.fhCfg_tsrc then s.chip.f Fld.fhState_state
        else if bitsOf y 5 4 = 0 then 0 else 1)) ∧
  (∀ w x s v, RegAdmits s.chip w { name := .fhOffset } x → v = signedOf 32 (bitsOf x.toNat 31 0) →
    -10000000 ≤ v → v ≤ 10000000 →
    exec (.fhOffsetWrite w x) s = .next { s with
      chip := (s.chip.put { name := .fhOffset } (x &&& 0xFFFFFFFF)).wReply w Status.ok 1 }) ∧
  -- FH_WIN and FH_EAXC: what was in force stays in force until the next slot
  (∀ w x s y, RegAdmits s.chip w { name := .fhWin } x → y = x.toNat → bitsOf y 29 20 < bitsOf y 9 0 →
    bitsOf y 39 30 ≠ 0 → bitsOf y 29 20 ≠ 0 → bitsOf y 19 10 ≠ 0 →
    ∃ u, exec (.fhWinWrite w x) s = .next u ∧ u.chip.get { name := .fhWin } = x &&& 0xFFFFFFFFFF ∧
      u.chip.fhWin = s.chip.fhWin) ∧
  (∀ w k x0 x1 s e, RegAdmits s.chip w { name := .fhEaxc, idx := [k] } x0 → e = Eaxc.ofWords (x0.toNat, x1.toNat) →
    bitsOf x0.toNat 26 16 = 0 → bitsOf x1.toNat 63 48 = 0 → e.nPrb ≠ 0 → e.nPrb ≤ 275 → (e.mDl = 0 → e.wDl = 16) →
    (e.mUl = 0 → e.wUl = 16) → e.base % 64 = 0 → s.chip.admits e.tent .r e.base e.bufBytes = true →
    s.chip.admits e.tent .w e.base e.bufBytes = true →
    ∃ u, exec (.fhEaxcWrite w k x0 x1) s = .next u ∧ u.chip.get { name := .fhEaxc, idx := [k] } = x0 ∧
      u.chip.get { name := .fhEaxc, idx := [k], w := 1 } = x1 ∧ u.chip.eaxc k = s.chip.eaxc k) ∧
  -- FH_SFN_SET: ignored where the source is not 1PPS
  (∀ w x s, RegAdmits s.chip w { name := .fhSfnSet } x →
    ∃ u, exec (.fhSfnSet w x) s = .next u ∧ u.chip.regs = s.chip.regs ∧
      u.chip.radio = (if s.chip.f Fld.fhCfg_tsrc = 2 then { s.chip.radio with sfnSet := some (bitsOf x.toNat 9 0) }
        else s.chip.radio)) ∧
  -- DEC_SUBMIT: the descriptor at the address is queued once the read of it is admitted
  (∀ w t x s a ws c1 c2, RegAdmits s.chip w { name := .decSubmit, idx := [t] } x → a = bitsOf x.toNat 47 0 → a % 64 = 0 →
    inMemory a 64 = true → s.chip.admits t .r a 64 = true → (∀ p, p ∈ s.chip.submits → p.1 ≠ t) →
    ({ s.chip with submits := s.chip.submits ++ [(t, a)] } : Chip).admitAll t (memAccess a 64) = (c1, true) →
    ws = (List.range 8).map (fun k => BitVec.ofNat 64 (s.chip.num (a + 8 * k) 8)) →
    ({ c1 with submits := c1.submits.erase (t, a) } : Chip).enqueueCoder { id := 0, tent := t, desc := ws } =
      (Status.ok, c2) →
    ∃ u, exec (.decSubmit w t x) s = .next u ∧ u.chip.submits = s.chip.submits ∧
      u.chip.coderJobs = s.chip.coderJobs ++ [{ id := s.chip.coderNext, tent := t, desc := ws }] ∧
      u.chip.mem = s.chip.mem) ∧
  (∀ w t x s a c1, RegAdmits s.chip w { name := .decSubmit, idx := [t] } x → a = bitsOf x.toNat 47 0 → a % 64 = 0 →
    inMemory a 64 = true → s.chip.admits t .r a 64 = true → (∀ p, p ∈ s.chip.submits → p.1 ≠ t) →
    ({ s.chip with submits := s.chip.submits ++ [(t, a)] } : Chip).admitAll t (memAccess a 64) = (c1, false) →
    ∃ u, exec (.decSubmit w t x) s = .next u ∧ u.chip.submits = s.chip.submits ++ [(t, a)] ∧
      u.chip.coderJobs = s.chip.coderJobs ∧ u.chip.mem = s.chip.mem) ∧
  -- DEC_HARQ_CFG: a range that meets no other Tent's; old and new range are swept once no entry in them is busy
  (∀ w t x0 x1 s first count kib pool rs, RegAdmits s.chip w { name := .decHarqCfg, idx := [t] } x0 →
    first = bitsOf x0.toNat 19 0 → count = bitsOf x0.toNat 40 20 → kib = bitsOf x0.toNat 55 44 →
    pool = bitsOf x1.toNat 47 0 → kib ≠ 0 → first + count ≤ 1048576 → pool % 256 = 0 →
    (∀ v, v < 64 → v ≠ t → rangesMeet (first, count)
      (s.chip.f Fld.decHarqCfg_first [v], s.chip.f Fld.decHarqCfg_count [v]) = false) →
    (count * kib * 1024 ≠ 0 → inGddr (pool + count * kib * 1024 - 1) = true ∧
      s.chip.admits t .r pool (count * kib * 1024) = true ∧ s.chip.admits t .w pool (count * kib * 1024) = true) →
    rs = [(s.chip.f Fld.decHarqCfg_first [t], s.chip.f Fld.decHarqCfg_count [t]), (first, count)] →
    ∃ u, exec (.decHarqCfgWrite w t x0 x1) s = .next u ∧
      ((∀ p, p ∈ s.chip.harqs → inRanges rs p.1 = true → p.2.busy = false) →
        ∀ h, inRanges rs h = true → (u.chip.harq h).valid = false) ∧
      ((∃ p, p ∈ s.chip.harqs ∧ inRanges rs p.1 = true ∧ p.2.busy = true) → rs ∈ u.chip.sweeps) ∧
      u.chip.get { name := .decHarqCfg, idx := [t] } = BitVec.ofNat 64 (kib * 2 ^ 44 + count * 2 ^ 20 + first) ∧
      u.chip.get { name := .decHarqCfg, idx := [t], w := 1 } = BitVec.ofNat 64 pool ∧ u.chip.mem = s.chip.mem) ∧
  (∀ w x s h, RegAdmits s.chip w { name := .decHarqClr } x → h = bitsOf x.toNat 19 0 →
    ∃ u, exec (.decHarqClr w x) s = .next u ∧
      ((s.chip.harq h).busy = false → (u.chip.harq h).valid = false) ∧
      ((s.chip.harq h).busy = true → (u.chip.harq h).clear = true) ∧ u.chip.regs = s.chip.regs)

/-- R430 to R432, R440, R452, R454, R457, R462: the message-post register, the Pass registers and the Lantern's
clock. -/
def Obligations.MessageAndPassRegistersAct : Prop :=
  -- SYS_MSG_POST: the record at the address becomes a message of kind 5
  (∀ w t x s a p, RegAdmits s.chip w { name := .sysMsgPost, idx := [t] } x → a = bitsOf x.toNat 47 0 → a % 32 = 0 →
    s.chip.admits t .r a 32 = true →
    p = ({ addr := s.chip.num a 8, len := s.chip.num (a + 8) 4, done := s.chip.num (a + 16) 8 } : Post) →
    (p.done = 0 ∨ (p.done % 8 = 0 ∧ s.chip.admits t .w p.done 8 = true)) → 0 < p.len → p.len ≤ 65536 →
    s.chip.num (a + 24) 8 = 0 → s.chip.admits t .r p.addr p.len = true →
    bitOf (s.chip.get { name := .sysMsgMask, idx := [t] }).toNat 5 = true → (s.chip.msgQ t).q.length < 256 →
    s.chip.f Fld.sysMsgq_lost [t] = 0 →
    ∃ u, exec (.sysMsgPost w t x) s = .next u ∧ (u.chip.msgQ t).q = (s.chip.msgQ t).q ++
      [{ kind := 5, body := s.chip.bytes (a + 12) 4 ++ leBytes 4 0, post := some p }]) ∧
  (∀ w x s, RegAdmits s.chip w { name := .passCfg } x → bitsOf x.toNat 23 16 ≠ 0 →
    (bitsOf x.toNat 15 0 = s.chip.moduleId ∨ s.chip.anyCircuit = false) →
    exec (.moduleIdWrite w x) s = .next { s with
      chip := (s.chip.put { name := .passCfg } (BitVec.ofNat 64 (bitsOf x.toNat 23 0))).wReply w Status.ok 1 }) ∧
  -- PASS_PORT: with every pair off, or asked for still, the pairs enabled ask for their credits
  (∀ w x s en c1, RegAdmits s.chip w { name := .passPort } x → en = bitsOf x.toNat 11 0 →
    c1 = s.chip.setF Fld.passPort_boostEn [] en → (∀ k, k < 12 → bitOf en k = true) →
    exec (.boostEnWrite w x) s = .next { s with
      chip := (if c1.device = .service ∨ c1.device = .starting then c1.askBoosters else c1).wReply w Status.ok 1 }) ∧
  (∀ w x s k, RegAdmits s.chip w { name := .passPort } x → bitsOf x.toNat 11 0 = 0 → k < 12 →
    ∃ u, exec (.boostEnWrite w x) s = .next u ∧ bitOf (u.chip.f Fld.passPort_boostOn) k = false ∧
      u.chip.f Fld.passPort_boostEn = 0) ∧
  -- PASS_ROUTE: in force at once where no frame is queued for the module
  (∀ w m x s, RegAdmits s.chip w { name := .passRoute, idx := [m] } x → s.chip.routeRefused x.toNat = false →
    s.chip.passes.routes = [] → s.chip.framesFor m = false →
    ∃ u, exec (.passRouteWrite w m x) s = .next u ∧
      u.chip.get { name := .passRoute, idx := [m] } = x &&& 0xB0FFFFFFF0000000 ∧ u.chip.passes.routes = []) ∧
  (∀ w m x s, RegAdmits s.chip w { name := .passRoute, idx := [m] } x → s.chip.routeRefused x.toNat = false →
    s.chip.passes.routes = [] → s.chip.framesFor m = true →
    ∃ u, exec (.passRouteWrite w m x) s = .next u ∧ u.chip.regs = s.chip.regs ∧
      u.chip.passes.routes = [(m, x &&& 0xB0FFFFFFF0000000)]) ∧
  (∀ w k x0 x1 s e, RegAdmits s.chip w { name := .passExport, idx := [k] } x0 → e = Export.ofWords x0.toNat x1.toNat →
    12 ≤ e.size → e.size ≤ 28 → e.base % 2 ^ e.size = 0 → e.off % 2 ^ e.size = 0 →
    (e.valid = true → e.r = true → s.chip.admits e.tent .r e.base (2 ^ e.size) = true) →
    (e.valid = true → e.w = true → s.chip.admits e.tent .w e.base (2 ^ e.size) = true) →
    (e.valid = true → e.a = true → s.chip.admits e.tent .a e.base (2 ^ e.size) = true) →
    ∃ u, exec (.passExportWrite w k x0 x1) s = .next u ∧ u.chip.export k = e ∧ Told s.chip u.chip w Status.ok 2) ∧
  -- LANT_SEC: the counter is set and valid, the sub-second count zero
  (∀ w x s, RegAdmits s.chip w { name := .lantSec } x →
    ∃ u, exec (.lantSecWrite w x) s = .next u ∧ u.chip.f Fld.lantSec_sec = bitsOf x.toNat 47 0 ∧
      u.chip.f Fld.lantSec_valid = 1 ∧ u.chip.f Fld.lantSub_sub = 0 ∧ u.chip.mem = s.chip.mem)

/-- R475, R477, R516, R520 to R522: units are drained and resumed, HOLD is left, and the Lantern's records are read. -/
def Obligations.MaintenanceCommandsAct : Prop :=
  -- SYS_DRAIN of a Vale that works: its Dales take no more work, and the drain is open
  (∀ m s c' n, MpTakes s.chip 0x0103 m c' → m.stray 0xFFFF = false → bitsOf m.p 7 0 = 0 → n = bitsOf m.p 15 8 →
    n < 12 → c'.drainOf 0 n = none → c'.valeRuns n = true →
    ∃ u, exec (.sysDrainVale m) s = .next u ∧ (∀ d, d < 12 → (u.chip.dale (12 * n + d)).drained = true) ∧
      u.chip.drainOf 0 n = some { cmds := [m] } ∧ Sent c' u.chip (.reply
        { op := 0x0103, tent := m.tent, tag := m.tag, status := Status.accepted, final := false })) ∧
  -- with nothing in hand the drain ends at once
  (∀ m s c' n c1, MpTakes s.chip 0x0103 m c' → m.stray 0xFFFF = false → bitsOf m.p 7 0 = 0 → n = bitsOf m.p 15 8 →
    n < 12 → c'.drainOf 0 n = none → c'.valeRuns n = false →
    c1 = ((c'.accept 0x0103 m).setDrain 0 n { cmds := [m] }).drainUnitBegin 0 n →
    exec (.sysDrainVale m) s = .next { s with chip := c1.drainEnd 0 n }) ∧
  (∀ m s c' n c1, MpTakes s.chip 0x0103 m c' → m.stray 0xFFFF = false → bitsOf m.p 7 0 = 1 → n = bitsOf m.p 15 8 →
    n < 36 → c'.drainOf 1 n = none →
    c1 = ((c'.accept 0x0103 m).setDrain 1 n { cmds := [m] }).drainUnitBegin 1 n →
    exec (.sysDrainVeld m) s = .next { s with chip := if c1.veldRuns n then c1 else c1.drainEnd 1 n }) ∧
  -- SYS_RESUME of a drained unit
  (∀ m s c' k n d, MpTakes s.chip 0x0104 m c' → m.stray 0xFFFF = false → k = bitsOf m.p 7 0 → n = bitsOf m.p 15 8 →
    drainUnit k n = true → c'.drainOf k n = some d → d.fault = false → d.done = true →
    ∃ u, exec (.sysResume m) s = .next u ∧ u.chip = ((c'.accept 0x0104 m).resumeUnit k n).finish 0x0104 m Status.ok ∧
      (k = 0 → ∀ i, i < 12 → (u.chip.dale (12 * n + i)).drained = false)) ∧
  -- DRAIN_WAIT_EXPIRE: the drain ends, whatever still runs
  (∀ k n s d c1, drainUnit k n = true → s.chip.drainOf k n = some d → d.done = false → d.resume = [] →
    c1 = (s.chip.setDrain k n { d with done := true }).drainUnitEnd k n d.fault →
    exec (.drainWaitExpire k n) s = .next { s with
      chip := d.cmds.foldl (fun c x => c.answer 0x0103 x Status.ok) c1 }) ∧
  -- CHANNEL_FAULT of a unit in service
  (∀ die i ch k n s c1 c2, die < 4 → drainUnit k n = true → s.chip.powered = true → s.chip.drainOf k n = none →
    c1 = (s.chip.put { name := .sysChanfaultLoc }
      (BitVec.ofNat 64 (die * 2 ^ 24 + i % 256 * 2 ^ 16 + ch % 65536))).ev .sysEvChanfault →
    c2 = (c1.setDrain k n { fault := true }).drainUnitBegin k n →
    exec (.channelFault die i ch [(k, n)]) s = .next { s with chip := c2.settleDrain k n }) ∧
  -- THERMAL_RELEASE, once 60 s have passed and the coolant comparator is clear
  (∀ m s c' c1, MpTakes s.chip 0x0901 m c' → m.stray 0 = false → c'.device = .hold → 60 * 32768 ≤ c'.boot.holdTicks →
    c'.flag Fld.lantCmp_coolantHot = false →
    c1 = ({ c' with device := .starting, boot := { c'.boot with release := true } } : Chip) →
    exec (.thermalRelease m) s = .next { s with
      chip := ((List.range 12).foldl Chip.thawVale c1).passesResume.finish 0x0901 m Status.ok }) ∧
  (∀ m s c', MpTakes s.chip 0x0902 m c' → m.stray 0 = false →
    ∃ u, exec (.thmRecord m) s = .next u ∧ u.chip.regs = c'.regs ∧
      Answered c' u.chip 0x0902 m Status.ok c'.lantRecords.length c'.lantRecords.flatten)

/-- R206, R224, R235, R243, R250, R252, R421: the commands of the converters, of the drive and of the Guylines. -/
def Obligations.EngineCommandsAct : Prop :=
  -- CONV_INJECT: accepted, and queued at its ADC
  (∀ m s c' v l, MpTakes s.chip 0x0701 m c' → v = bitsOf m.p 3 0 → l = bitsOf m.p 14 8 → m.stray 0x7F0F = false →
    v < 12 → l < 71 → injRefused (m.word 1) = false → c'.f Fld.convCtl_injPend [v, l] < 8 →
    ∃ u, exec (.convInject m) s = .next u ∧
      (u.chip.adc v l).queue = (c'.adc v l).queue ++ [⟨m.words.headD 0, .cmd m⟩] ∧ Sent c' u.chip (.reply
        { op := 0x0701, tent := m.tent, tag := m.tag, status := Status.accepted, final := false })) ∧
  -- CONV_TABLE: the entries named hold the words
  (∀ m s c' v l first, MpTakes s.chip 0x0702 m c' → v = bitsOf m.p 3 0 → l = bitsOf m.p 14 8 →
    first = bitsOf m.p 21 16 → m.stray 0x3F3F7F0F = false → v < 12 → l < 71 →
    m.words.length = bitsOf m.p 29 24 + 1 → first + m.words.length ≤ 64 →
    (∀ x, x ∈ m.words → seqRefused x.toNat = false) →
    ∃ u, exec (.convTable m) s = .next u ∧ Answered c' u.chip 0x0702 m Status.ok ∧
      ∀ (k : Nat) (h : k < m.words.length), u.chip.get { name := .convSeq, idx := [v, l, first + k] } = m.words[k]) ∧
  (∀ m s c' v n, MpTakes s.chip 0x0801 m c' → v = bitsOf m.p 3 0 → n = bitsOf m.p 26 16 →
    m.stray 0x7FF000F = false → chanOk v n = true → c'.flag Fld.drvCh_assigned [v, n] = false →
    exec (.drvCh m) s = .next { s with
      chip := (c'.writeChannel v n (m.words.headD 0).toNat).finish 0x0801 m Status.ok }) ∧
  -- DRV_XT: the 50 coefficients, four to a word
  (∀ m s c' v d, MpTakes s.chip 0x0802 m c' → v = bitsOf m.p 3 0 → d = bitsOf m.p 11 8 → m.stray 0xF0F = false →
    v < 12 → d < 12 → bitsOf (m.word 4) 15 0 = 0 → bitsOf (m.word 13) 63 32 = 0 →
    ∃ u, exec (.drvXt m) s = .next u ∧ Answered c' u.chip 0x0802 m Status.ok ∧
      ∀ k, k < 50 → u.chip.f Fld.drvXt_coef [v, d, k] =
        bitsOf (m.word (k / 4 + 1)) (k % 4 * 16 + 15) (k % 4 * 16)) ∧
  (∀ m s c' v n c1, MpTakes s.chip 0x0601 m c' → v = bitsOf m.p 3 0 → n = bitsOf m.p 26 16 →
    m.stray 0x7FF000F = false → v ≤ 11 → c'.wGuyLoop v n m.words = (Status.ok, c1) →
    exec (.guyLoop m) s = .next { s with chip := c1.finish 0x0601 m Status.ok }) ∧
  -- GUY_COEF with bit 33 set: the set written is the active one, by csel of the entry
  (∀ m s c' v n k r, MpTakes s.chip 0x0602 m c' → v = bitsOf m.p 3 0 → n = bitsOf m.p 26 16 → k = bitsOf m.p 32 32 →
    m.stray 0x307FF000F = false → v ≤ 11 → coefsWellFormed m.words = true → c'.loopState v n = 0 →
    r = normaliseCoefs (c'.gen (.guyline v)) m.words →
    ∃ u, exec (.guyCoef m) s = .next u ∧ Answered c' u.chip 0x0602 m Status.ok ∧
      u.chip.gen (.guyline v) = r.2 ∧
      u.chip.wordsOf .guyCoef [v, n, k] = (((c'.setGen (.guyline v) r.2).putWords .guyCoef [v, n, k] r.1).wordsOf
        .guyCoef [v, n, k]) ∧
      (bitOf m.p 33 = true → (u.chip.loopWritten v n).csel = k)) ∧
  (∀ m s c' v, MpTakes s.chip 0x0603 m c' → v = bitsOf m.p 3 0 → m.stray 0xF = false → v ≤ 11 →
    exec (.guyStd m) s = .next { s with
      chip := ((c'.accept 0x0603 m).installStd v).finish 0x0603 m Status.ok })

/-- R276, R291, R295, R296, R421: trim images go out and come in, and a calibration is run by command. -/
def Obligations.CalibrationCommandsAct : Prop :=
  (∀ m s c', MpTakes s.chip 0x0501 m c' → m.stray (2 ^ 48 - 1) = false → trimLength ≤ m.word 1 →
    c'.admits m.tent .w m.p trimLength = true →
    exec (.calExport m) s = .next { s with
      chip := (c'.store m.p c'.trimImage).acceptFinish 0x0501 m Status.ok trimLength }) ∧
  -- CAL_IMPORT of an image of this device, in STARTING or for drained units
  (∀ m bad s c', MpTakes s.chip 0x0502 m c' → m.stray (2 ^ 48 - 1) = false → m.word 1 < 2 ^ 48 →
    c'.admits m.tent .r m.p (m.word 1) = true →
    ∃ u, exec (.calImport m bad) s = .next u ∧
      match parseTrims (c'.bytes m.p (m.word 1)) with
      | none => Answered c' u.chip 0x0502 m Status.badParam
      | some (serial, secs) =>
        (serial ≠ Config.serial.toNat → Answered c' u.chip 0x0502 m Status.notPermitted) ∧
        (∀ c1, serial = Config.serial.toNat → (c'.device = .starting ∨ secs.all c'.secDrained = true) →
          (∀ x, x ∈ secs → c'.secFits x = true) → bad = [] → c1 = (c'.accept 0x0502 m).applySecs secs →
          c1.device = c'.device →
          u = { s with
            chip := (if c'.device = .starting then ({ c1 with boot := { c1.boot with imported := true } } : Chip)
              else c1).finish 0x0502 m Status.ok })) ∧
  -- CAL_RUN: kernels, spare units, housekeeping converters
  (∀ m xs s c' v d r, MpTakes s.chip 0x0503 m c' → m.stray 0xF0FFF = false → d = bitsOf m.p 11 8 →
    v = bitsOf m.p 19 16 → v ≤ 11 → d ≤ 11 → bitsOf m.p 7 0 = 0 → r = (c'.accept 0x0503 m).calKernels v d xs →
    r.1 = Status.ok → exec (.calRun m xs) s = .next { s with chip := r.2.finish 0x0503 m Status.ok }) ∧
  (∀ m xs s c' v r, MpTakes s.chip 0x0503 m c' → m.stray 0xF0FFF = false → bitsOf m.p 11 8 ≤ 11 →
    v = bitsOf m.p 19 16 → v ≤ 11 → bitsOf m.p 7 0 = 1 → r = (c'.accept 0x0503 m).calSpares v xs →
    r.1 = Status.ok → exec (.calRun m xs) s = .next { s with chip := r.2.finish 0x0503 m Status.ok }) ∧
  (∀ m xs s c' r, MpTakes s.chip 0x0503 m c' → m.stray 0xF0FFF = false → bitsOf m.p 11 8 ≤ 11 →
    bitsOf m.p 19 16 ≤ 11 → bitsOf m.p 7 0 = 2 → r = (c'.accept 0x0503 m).calHk xs →
    r.1 = Status.ok → exec (.calRun m xs) s = .next { s with chip := r.2.finish 0x0503 m Status.ok }) ∧
  -- IMPORT_WAIT_EXPIRE
  (∀ s, s.chip.device = .starting → s.chip.flag Fld.sysStart_importExpected = true →
    exec .importWaitExpire s = .next { s with chip := { s.chip with boot := { s.chip.boot with waitOver := true } } }) ∧
  -- FIRST_FULL_PASS in STARTING: what was measured is applied, and the pass is done
  (∀ bs n failed steps s ss, parseSecs n bs = some ss → s.chip.passRuns = true →
    ∃ u, exec (.firstFullPass bs n failed steps) s = .next u ∧ u.chip.boot.passed = true ∧
      (∀ v, v < 12 → u.chip.f Fld.calState_failed [v] =
        bitsFrom ((List.range 12).map fun d => failed.contains (12 * v + d))) ∧
      -- a column of a Dale the pass has run for, the parked one aside, shows its last cycle
      (∀ v d x, v < 12 → d < 12 → x < 66 → (∃ t, t ∈ ss ∧ secDale t = some (12 * v + d)) →
        x ≠ s.chip.parkCol (12 * v + d) →
        u.chip.f Fld.calColstat_result [v, d, x] =
          if (steps.getD (12 * v + d) {}).cols.any fun y => y.col == x then Status.calDisagree else Status.ok))

/-- R444, R445, R449, R454, R457, R460: circuits are opened and closed, windows and routes are written. -/
def Obligations.PassCommandsAct : Prop :=
  -- PASS_OPEN of a sink and of a source
  (∀ m s c' n, MpTakes s.chip 0x0A01 m c' → bitOf m.p 0 = true → n = passEnd m.p → passReserved m.p = false →
    c'.f Fld.passRx_state [n] = 0 → c'.moduleId ≠ 0xFFFF →
    ∃ u, exec (.passOpen m) s = .next u ∧ u.chip.f Fld.passRx_state [n] = 1 ∧
      u.chip.f Fld.passRx_peer [n] = bitsOf m.p 31 16 ∧ u.chip.sink n = { cmd := some m } ∧ Sent c' u.chip (.reply
        { op := 0x0A01, tent := m.tent, tag := m.tag, status := Status.accepted, final := false })) ∧
  (∀ m s c' n, MpTakes s.chip 0x0A01 m c' → bitOf m.p 0 = false → n = passEnd m.p → passReserved m.p = false →
    c'.colourTaken n (bitsOf m.p 8 4) = false → c'.flag Fld.passTx_open [n] = false → c'.moduleId ≠ 0xFFFF →
    c'.firstDark n (bitsOf m.p 8 4) = false →
    ∃ u, exec (.passOpen m) s = .next u ∧ u.chip.f Fld.passTx_open [n] = 1 ∧ u.chip.f Fld.passTx_locked [n] = 0 ∧
      u.chip.f Fld.passTx_colour [n] = bitsOf m.p 8 4 ∧ u.chip.f Fld.passTx_peer [n] = bitsOf m.p 31 16 ∧
      u.chip.source n = { cmd := some m } ∧ Sent c' u.chip (.reply
        { op := 0x0A01, tent := m.tent, tag := m.tag, status := Status.accepted, final := false })) ∧
  -- PASS_CLOSE of a sink, and of a source with nothing left to send that no entry names
  (∀ m s c' n, MpTakes s.chip 0x0A02 m c' → bitOf m.p 0 = true → n = passEnd m.p → passReserved m.p = false →
    (c'.sink n).cmd = none →
    ∃ u, exec (.passClose m) s = .next u ∧ u.chip.get { name := .passRx, idx := [n] } = 0 ∧ u.chip.sink n = {} ∧
      Answered c' u.chip 0x0A02 m Status.ok) ∧
  (∀ m s c' n, MpTakes s.chip 0x0A02 m c' → bitOf m.p 0 = false → n = passEnd m.p → passReserved m.p = false →
    c'.laneNamed n = false → c'.laneBusy n = false → (c'.source n).cmd = none →
    ∃ u, exec (.passClose m) s = .next u ∧ u.chip.get { name := .passTx, idx := [n] } = 0 ∧ u.chip.source n = {} ∧
      Answered c' u.chip 0x0A02 m Status.ok) ∧
  (∀ m s c' e, MpTakes s.chip 0x0A03 m c' → m.stray 0x3F = false →
    e = Export.ofWords (m.words.getD 0 0).toNat (m.words.getD 1 0).toNat →
    12 ≤ e.size → e.size ≤ 28 → e.base % 2 ^ e.size = 0 → e.off % 2 ^ e.size = 0 → e.valid = false →
    ∃ u, exec (.passExport m) s = .next u ∧ u.chip.export m.p = e ∧ Answered c' u.chip 0x0A03 m Status.ok) ∧
  -- PASS_ROUTE: broadcast entries, and route entries of modules no frame is queued for
  (∀ m s c' first, MpTakes s.chip 0x0A04 m c' → first = bitsOf m.p 15 0 → m.stray 0x107FFFFFF = false →
    m.words.length = bitsOf m.p 26 16 + 1 → m.words.length ≤ 2047 → bitOf m.p 32 = true →
    first + m.words.length ≤ 256 →
    ∃ u, exec (.passRoute m) s = .next u ∧ Answered c' u.chip 0x0A04 m Status.ok ∧
      ∀ (k : Nat) (h : k < m.words.length), u.chip.get { name := .passBcast, idx := [first + k] } =
        BitVec.ofNat 64 (bitsOf m.words[k].toNat 31 0)) ∧
  (∀ m s c' first, MpTakes s.chip 0x0A04 m c' → first = bitsOf m.p 15 0 → m.stray 0x107FFFFFF = false →
    m.words.length = bitsOf m.p 26 16 + 1 → m.words.length ≤ 2047 → bitOf m.p 32 = false →
    first + m.words.length ≤ 65536 → (∀ x, x ∈ m.words → c'.routeRefused x.toNat = false) →
    c'.passes.routes = [] → (∀ k, c'.framesFor k = false) →
    ∃ u, exec (.passRoute m) s = .next u ∧ Answered c' u.chip 0x0A04 m Status.ok ∧
      ∀ (k : Nat) (h : k < m.words.length), u.chip.get { name := .passRoute, idx := [first + k] } =
        m.words[k] &&& 0xB0FFFFFFF0000000)

/-- R445 to R451: lanes lock and send their tag frames, sinks count codewords, and waits expire. -/
def Obligations.LanesAndSinksAct : Prop :=
  -- SOURCE_LOCKED: the lane carries its tag frame
  (∀ n s, n < 128 → s.chip.flag Fld.passTx_open [n] = true → s.chip.flag Fld.passTx_locked [n] = false →
    s.chip.passesLit = true → s.chip.source n = {} → s.chip.passes.routes = [] →
    ∃ u, exec (.sourceLocked n) s = .next u ∧ u.chip.f Fld.passTx_locked [n] = 1 ∧
      Sent s.chip u.chip (.frame n (s.chip.tagFrame n))) ∧
  (∀ n s, n < 128 → s.chip.flag Fld.passTx_open [n] = true → s.chip.flag Fld.passTx_locked [n] = true →
    ∃ u, exec (.tagFrameSend n) s = .next u ∧ Sent s.chip u.chip (.frame n (s.chip.tagFrame n)) ∧
      u.chip.regs = s.chip.regs) ∧
  -- CODEWORD_RECEIVE: a good codeword before the 1,024th, and one that is lost before the 64th
  (∀ n k fr s, n < 256 → s.chip.f Fld.passRx_state [n] = 1 → k ≤ 15 → (s.chip.sink n).good < 1023 →
    ∃ u, exec (.codewordReceive n (some k) fr) s = .next u ∧
      (u.chip.sink n).good = (s.chip.sink n).good + 1 ∧ (u.chip.sink n).bad = 0 ∧
      u.chip.f Fld.passRx_state [n] = 1) ∧
  (∀ n fr s, n < 256 → (s.chip.f Fld.passRx_state [n] = 1 ∨ s.chip.f Fld.passRx_state [n] = 2) →
    (s.chip.sink n).bad < 63 →
    ∃ u, exec (.codewordReceive n none fr) s = .next u ∧ (u.chip.sink n).good = 0 ∧
      (u.chip.sink n).bad = (s.chip.sink n).bad + 1 ∧
      u.chip.f Fld.passRx_state [n] = s.chip.f Fld.passRx_state [n]) ∧
  (∀ n fr s, n < 256 → s.chip.f Fld.passRx_state [n] = 2 → 63 ≤ (s.chip.sink n).bad →
    ∃ u, exec (.codewordReceive n none fr) s = .next u ∧ u.chip.f Fld.passRx_state [n] = 1) ∧
  (∀ n s, n < 256 → s.chip.f Fld.passRx_state [n] ≠ 0 →
    exec (.headerHunt n) s = .next { s with
      chip := s.chip.setSink n { s.chip.sink n with hunting := true } }) ∧
  (∀ n s, n < 256 → s.chip.f Fld.passRx_state [n] = 2 →
    ∃ u, exec (.sinkDarkTimeout n) s = .next u ∧ u.chip.f Fld.passRx_state [n] = 1 ∧
      (u.chip.sink n).good = 0 ∧ (u.chip.sink n).tagged = false) ∧
  (∀ n s m, n < 256 → (s.chip.sink n).cmd = some m →
    exec (.sinkWaitExpire n) s = .next { s with
      chip := (s.chip.setSink n { s.chip.sink n with cmd := none }).answer 0x0A01 m Status.lockLost }) ∧
  -- REMOTE_TIMEOUT of a request of the host that was sent
  (∀ tag s r op m c1, s.chip.passes.remotes = [r] → r.sent = true → r.frame.tag = tag → r.who = .mem op m →
    c1 = ({ s.chip with passes := { s.chip.passes with remotes := [] } } : Chip) →
    exec (.remoteTimeout tag) s = .next { s with chip := (c1.failCmd op m).ev .passEvRemote })

/-- R446, R447, R451, R455 to R458: frames that a sink receives. -/
def Obligations.SinkFramesAreServed : Prop :=
  -- the tag frame of the peer the sink expects
  (∀ n f s c1, n < 256 → f.kind = 7 → s.chip.f Fld.passRx_state [n] = 2 → f.source = s.chip.f Fld.passRx_peer [n] →
    bitsOf f.addr.toNat 7 0 = n % 32 → c1 = s.chip.setSink n { s.chip.sink n with hunting := false, tagged := true } →
    exec (.sinkFrameReceive n f) s = .next { s with chip := c1 }) ∧
  -- another tag frame: the sink goes down
  (∀ n f s, n < 256 → f.kind = 7 → s.chip.f Fld.passRx_state [n] = 2 → f.source ≠ s.chip.f Fld.passRx_peer [n] →
    (s.chip.sink n).cmd = none →
    ∃ u, exec (.sinkFrameReceive n f) s = .next u ∧ u.chip.f Fld.passRx_state [n] = 1 ∧
      u.chip.get { name := .passLastTag } =
        BitVec.ofNat 64 (n * 2 ^ 48 + bitsOf f.addr.toNat 31 0 * 2 ^ 16 + f.source % 2 ^ 16)) ∧
  -- a frame for another module goes on, one hop further
  (∀ n f s c1 lane, n < 256 → f.kind ≤ 5 → s.chip.f Fld.passRx_state [n] = 2 → s.chip.moduleId ≠ 0xFFFF →
    f.dest ≠ s.chip.moduleId → f.dest ≠ 0xFFFF → f.hop < 7 → s.chip.routeLane f.dest (frameOffset f) = some lane →
    c1 = s.chip.setSink n { s.chip.sink n with hunting := false } →
    exec (.sinkFrameReceive n f) s = .next { s with
      chip := (c1.sendOn lane { f with hop := f.hop + 1 }).count Fld.passStat_regen [] }) ∧
  -- a request to this module, inside an exported window
  (∀ n f s c1 e a, n < 256 → (f.kind = 0 ∨ f.kind = 1) → s.chip.f Fld.passRx_state [n] = 2 → s.chip.moduleId ≠ 0xFFFF →
    f.dest = s.chip.moduleId → f.crcOk = true → 0 < frameLen f → frameLen f ≤ 4096 →
    c1 = s.chip.setSink n { s.chip.sink n with hunting := false } →
    c1.exportFor f.source f.tent (bitsOf f.addr.toNat 27 0) (frameLen f) (if f.kind = 0 then .w else .r) = some e →
    a = e.base + (bitsOf f.addr.toNat 27 0 - e.off) → inMemory a (frameLen f) = true →
    exec (.sinkFrameReceive n f) s = .next { s with
      chip := c1.serve { who := .frame f, addr := a, len := frameLen f, tent := e.tent } }) ∧
  -- an answer to a request of the host
  (∀ n f s c1 r op m, n < 256 → f.kind = 2 → f.status = Status.ok → op = 0x0E03 → s.chip.f Fld.passRx_state [n] = 2 →
    s.chip.moduleId ≠ 0xFFFF → f.dest = s.chip.moduleId → f.crcOk = true → s.chip.passes.remotes = [r] →
    r.sent = true → r.frame.tag = f.tag → r.frame.kind = 1 → r.frame.dest = f.source → r.who = .mem op m →
    c1 = s.chip.setSink n { s.chip.sink n with hunting := false } →
    exec (.sinkFrameReceive n f) s = .next { s with
      chip := (c1.dropRemote r).finish op m Status.ok 0 (wordsOfBytes ((f.payload.length + 7) / 8) f.payload) })

/-- R386, R387, R425, R496 to R498: section records are taken, and the Cairn answers. -/
def Obligations.RadioAndCairnCommandsAct : Prop :=
  (∀ m now s n rs, Passes4 s.chip 0x0B01 m → n = bitsOf m.p 15 0 → m.stray 0xFFFF = false → 0 < n → n ≤ 256 →
    m.words.length = 4 * n → rs = (List.range n).map (fun k => (m.words.drop (4 * k)).take 4) →
    (∀ r, r ∈ rs → s.chip.sectionStatus m.tent now r = Status.ok) →
    ∃ u, exec (.radioSections m now) s = .next u ∧ Answered s.chip u.chip 0x0B01 m Status.ok ∧
      u.chip.radio.recs.map Prod.snd = s.chip.radio.recs.map Prod.snd ++ rs ∧ u.chip.regs = s.chip.regs) ∧
  (∀ m s c', MpTakes s.chip 0x0D01 m c' → m.stray 0 = false →
    ∃ u, exec (.cairnIdent m) s = .next u ∧ ∃ ws : List Word, Answered c' u.chip 0x0D01 m Status.ok 0 ws ∧
      ws.length = 258 ∧ ws.headD 0 = BitVec.ofNat 64 (leNat (ascii "CAIRN-LR")) ∧ u.cairn = s.cairn) ∧
  -- the records and events held, from the first asked for on, and the cursor for the next frames
  (∀ m s c' first n rs, MpTakes s.chip 0x0D02 m c' → m.stray 0x3FFFFFFFF = false → first = bitsOf m.p 31 0 →
    n = bitsOf m.p 33 32 + 1 → rs = s.cairn.recs.filter (fun r => decide (first ≤ r.num ∧ r.num < first + n)) →
    ∃ u, exec (.cairnRecords m) s = .next u ∧ u.cairn = s.cairn ∧ u.chip.cursors = ((first, n), c'.cursors.2) ∧
      Answered c' u.chip 0x0D02 m Status.ok
        (rs.length + (s.cairn.nextRec - s.cairn.recs.length) % 2 ^ 32 * 256) (rs.flatMap fun r => leWords 512 r.bytes)) ∧
  (∀ m s c' first n es, MpTakes s.chip 0x0D03 m c' → m.stray 0x3FFFFFFFFF = false → first = bitsOf m.p 31 0 →
    n = bitsOf m.p 37 32 + 1 → es = s.cairn.evts.filter (fun e => decide (first ≤ e.num ∧ e.num < first + n)) →
    ∃ u, exec (.cairnEvents m) s = .next u ∧ u.cairn = s.cairn ∧ u.chip.cursors = (c'.cursors.1, (first, n)) ∧
      Answered c' u.chip 0x0D03 m Status.ok
        (es.length + (s.cairn.nextEvt - s.cairn.evts.length) % 2 ^ 32 * 256) (es.flatMap fun e => leWords 4 e.bytes))

/-- R34 to R36, R41, R379 to R383, R551: slots, frames, and the states of the timing island. -/
def Obligations.RadioTimeGoesOn : Prop :=
  -- SLOT_TICK: with the island locked to GPS time a slot is named and opens
  (∀ (t : Nat) s n e, s.chip.locked = true → s.chip.f Fld.fhCfg_tsrc ≠ 2 → n = s.chip.f Fld.fhCfg_numerology → n ≤ 4 →
    s.chip.radio.numerology = n → e = (t : Int) - s.chip.sf Fld.fhOffset_offset → s.chip.eaxcWritten = [] →
    ∃ c1 : Chip, c1.get { name := .fhSfn } = BitVec.ofNat 64
        ((e / 10000000 % 1024).toNat * 65536 + (e % 10000000 / slotNs n).toNat) ∧
      c1.radio.slots = s.chip.radio.slots ∧ c1.radio.eaxcOld = [] ∧ c1.radio.winOld = none ∧ c1.mem = s.chip.mem ∧
      exec (.slotTick t) s = .next { s with chip := c1.startSlot }) ∧
  (∀ s, s.chip.locked = false → ∃ c1 : Chip,
    c1 = (s.chip.setNumerology (s.chip.f Fld.fhCfg_numerology)).applyFrameLen s.chip.radio.numerology ∧
    exec .freeRunningTick s = .next { s with chip := (c1.setF Fld.budFrameCfg_tickSource [] 1).startSlot }) ∧
  -- a slot counts, launches what waits for it and starts a budget frame
  (∀ c : Chip, ∃ c1 : Chip, c1 = { c with radio := { c.radio with slots := c.radio.slots + 1 } } ∧
    c.startSlot = ((((c1.launchAll 1).wakeTicks false).newFrame).launchAll 2).wakeTicks true) ∧
  -- FRAME_BOUNDARY
  (∀ s, ∃ c1 : Chip, c1 = s.chip.newFrame ∧ c1.bud.frame = s.chip.bud.frame + 1 ∧ c1.bud.used = [] ∧
    exec .frameBoundary s = .next { s with chip := (c1.launchAll 2).wakeTicks true }) ∧
  (∀ t s e m, s.chip.f Fld.fhCfg_tsrc = 2 → s.chip.radio.pps = some (e, m) → s.chip.radio.sfnSet = none →
    ∃ u, exec (.ppsEdge t) s = .next u ∧ u.chip.regs = s.chip.regs ∧ u.chip.radio.sfnSet = none ∧
      u.chip.radio.pps = some (t, (m + (t - e + 5000000) / 10000000) % 1024)) ∧
  (∀ t s n, s.chip.f Fld.fhCfg_tsrc = 2 → s.chip.radio.sfnSet = some n →
    ∃ u, exec (.ppsEdge t) s = .next u ∧ u.chip.regs = s.chip.regs ∧ u.chip.radio.sfnSet = none ∧
      u.chip.radio.pps = some (t, n)) ∧
  -- ACQUIRING, LOCKED, HOLDOVER
  (∀ s, s.chip.f Fld.fhState_state = 1 →
    ∃ u, exec .syncLocked s = .next u ∧ u.chip.f Fld.fhState_state = 2 ∧ u.chip.mem = s.chip.mem) ∧
  (∀ s, s.chip.f Fld.fhState_state = 2 →
    ∃ u, exec .syncLossTimeout s = .next u ∧ u.chip.f Fld.fhState_state = 3 ∧ u.chip.mem = s.chip.mem) ∧
  (∀ s, s.chip.f Fld.fhState_state = 3 →
    ∃ u, exec .syncSourceReturn s = .next u ∧ u.chip.f Fld.fhState_state = 1 ∧ u.chip.mem = s.chip.mem)

/-- R370 to R379, R386 to R390: messages of the fronthaul ports. -/
def Obligations.FronthaulMessagesAct : Prop :=
  -- UPLANE_RECEIVE: the PRBs of a U-plane message in its window are written
  (∀ port bs after s body msg a e h prbs n, port < 8 → s.chip.flag Fld.fhPortMac_en [port] = true →
    etherParts bs = some (0xAEFE, body) → ecpriParts body = some (0, msg) → a = beNat (msg.take 2) →
    e = Eaxc.ofWords (s.chip.eaxc (a % 4096)) → h = beNat ((msg.drop 4).take 4) → s.chip.locked = true →
    8 ≤ msg.length → e.valid = true → e.port = port → e.idHi = a / 4096 → bitsOf h 31 28 = 1 →
    rxSections msg.length e (bitsOf h 5 0) (msg.drop 8) = some prbs →
    after ≤ (bitsOf s.chip.fhWin 39 30 : Int) * 1000 →
    n = ((s.chip.radio.slots : Int) + s.chip.slotAhead (bitsOf h 23 16) (bitsOf h 15 12) (bitsOf h 11 6)).toNat →
    exec (.uplaneReceive port bs after) s = .next { s with
      chip := prbs.foldl (fun c p => c.writePrb e n p) s.chip }) ∧
  -- one that comes after its window is counted late
  (∀ port bs after s body msg a e h prbs, port < 8 → s.chip.flag Fld.fhPortMac_en [port] = true →
    etherParts bs = some (0xAEFE, body) → ecpriParts body = some (0, msg) → a = beNat (msg.take 2) →
    e = Eaxc.ofWords (s.chip.eaxc (a % 4096)) → h = beNat ((msg.drop 4).take 4) → s.chip.locked = true →
    8 ≤ msg.length → e.valid = true → e.port = port → e.idHi = a / 4096 → bitsOf h 31 28 = 1 →
    rxSections msg.length e (bitsOf h 5 0) (msg.drop 8) = some prbs →
    (bitsOf s.chip.fhWin 39 30 : Int) * 1000 < after →
    exec (.uplaneReceive port bs after) s = .next { s with
      chip := (s.chip.count Fld.fhPortStat_late [port]).ev .fhEvLate }) ∧
  -- CPLANE_SEND
  (∀ k s, s.chip.locked = true →
    exec (.cplaneSend k true) s = .next { s with
      chip := (groupSections (s.chip.sectionsOf k true) []).foldl Chip.sendCplane s.chip }) ∧
  (∀ k s, s.chip.locked = true → ∃ c1 : Chip,
    c1 = (groupSections (s.chip.sectionsOf k false) []).foldl Chip.sendCplane s.chip ∧
    ∃ u, exec (.cplaneSend k false) s = .next u ∧ u.chip.outs = c1.outs ∧ u.chip.regs = c1.regs ∧
      u.chip.radio.recs = c1.radio.recs.filter fun p => !(p.1 == k && !(CSection.ofWords p.2).down)) ∧
  -- DL_UPLANE_SEND of a section that holds the symbol
  (∀ k l s x e left, l < 14 → s.chip.locked = true → s.chip.sectionsOf k true = [x] →
    e = Eaxc.ofWords (s.chip.eaxc (x.eaxc % 4096)) → x.start ≤ l → l < x.start + x.num → e.valid = true →
    left = e.nPrb - x.prb0 → ∃ c1 : Chip,
    c1 = Chip.sendSymbol 1024 s.chip x e k l x.prb0 (if x.prbs = 0 then left else min x.prbs left) ∧
    ∃ u, exec (.dlUplaneSend k l) s = .next u ∧ u.chip.outs = c1.outs ∧ u.chip.mem = c1.mem ∧
      u.chip.regs = c1.regs) ∧
  -- PTP_MESSAGE: a Sync is answered with a Delay_Req, and an ESMC frame gives the quality
  (∀ port bs te s msg, port < 8 → s.chip.f Fld.fhCfg_tsrc = 1 → s.chip.f Fld.fhCfg_ptpPort = port →
    s.chip.flag Fld.fhPortMac_en [port] = true → etherParts bs = some (0x88F7, msg) → byteAt msg 0 % 16 = 0 →
    byteAt msg 1 % 16 = 2 → byteAt msg 4 = s.chip.f Fld.fhCfg_domain → ∃ c1 : Chip,
    c1 = s.chip.setF Fld.fhSync_te [] (fieldOf 16 (clampInt (-32768) 32767 te)) ∧
    exec (.ptpMessage port bs te) s = .next { s with chip := c1.delayReq port }) ∧
  (∀ port bs te s msg, port < 8 → s.chip.f Fld.fhCfg_tsrc = 1 → s.chip.f Fld.fhCfg_ptpPort = port →
    s.chip.flag Fld.fhPortMac_en [port] = true → etherParts bs = some (0x8809, msg) →
    ∃ u, exec (.ptpMessage port bs te) s = .next u ∧ u.chip.f Fld.fhSync_ssm = byteAt msg 13 % 16) ∧
  -- DELAY_MEASUREMENT: a request is answered
  (∀ port bs ts comp s body msg, port < 8 → s.chip.flag Fld.fhPortMac_en [port] = true →
    etherParts bs = some (0xAEFE, body) → ecpriParts body = some (5, msg) → 20 ≤ msg.length → byteAt msg 1 ≤ 1 →
    exec (.delayMeasurement port bs ts comp) s = .next { s with
      chip := s.chip.sendEther port 0 0xAEFE
        (ecpri 5 (msg.take 1 ++ beBytes 1 2 ++ beBytes 10 ts ++ beBytes 8 comp)) })

/-- R391 to R399: code blocks start and end, and a descriptor ends in its report. -/
def Obligations.CoderBlocksRun : Prop :=
  -- CODE_BLOCK_START of an encode or polar descriptor, once an address of the Tent's that waited has been read
  (∀ t now s j d mem c0 c1, t < 64 → c0 = s.chip.takeSubmit t → d = CoderDesc.ofWords j.desc → d.kind ≠ 0 →
    c0.coderJobs.find? (fun x => x.tent == t && x.status.isNone &&
      decide (x.started < (CoderDesc.ofWords x.desc).blocks)) = some j →
    c0.coderBusy d.kind < coderUnits d.kind → c0.device = .service →
    c0.deadlineReached d.deadline now = false → c0.coderCredit d.kind = none →
    mem = (if j.started = 0 then
      memAccess d.inp d.inBytes ++ memAccess d.out d.outBytes ++ memAccess d.report 32 ++ memAccess d.done 32 else []) →
    c0.admitAll t ((.coder (d.kind == 2), 1) :: mem) (some (.coder (d.kind == 2))) = (c1, true) →
    ∃ (b : Chip × CoderJob), b = (if j.started = 0 then c1.coderBegin j else (c1, j)) ∧
      exec (.codeBlockStart t now) s = .next { s with chip := b.1.setCoderJob { b.2 with
        started := j.started + 1, running := b.2.running ++ [(j.started, c0.seenOf (.coder (d.kind == 2)))] } }) ∧
  -- a decode whose entry is free: where it combines it reads its soft buffer too
  (∀ t now s j d mem c0 c1, t < 64 → c0 = s.chip.takeSubmit t → d = CoderDesc.ofWords j.desc → d.kind = 0 →
    c0.coderJobs.find? (fun x => x.tent == t && x.status.isNone &&
      decide (x.started < (CoderDesc.ofWords x.desc).blocks)) = some j →
    (j.started = 0 → (c0.harq d.hidx).busy = false) → c0.coderBusy 0 < 16 → c0.device = .service →
    c0.deadlineReached d.deadline now = false → c0.coderCredit 0 = none →
    mem = (if j.started = 0 then
      memAccess d.inp d.inBytes ++ memAccess d.out d.outBytes ++ memAccess d.report 32 ++ memAccess d.done 32 ++
        c0.harqReads t d else []) →
    c0.admitAll t ((.coder false, d.iter) :: mem) (some (.coder false)) = (c1, true) →
    ∃ (b : Chip × CoderJob), b = (if j.started = 0 then c1.coderBegin j else (c1, j)) ∧
      exec (.codeBlockStart t now) s = .next { s with chip := b.1.setCoderJob { b.2 with
        started := j.started + 1, running := b.2.running ++ [(j.started, c0.seenOf (.coder false))] } }) ∧
  -- past its deadline a descriptor is LATE
  (∀ t now s j d c0, t < 64 → c0 = s.chip.takeSubmit t → d = CoderDesc.ofWords j.desc →
    c0.coderJobs.find? (fun x => x.tent == t && x.status.isNone &&
      decide (x.started < (CoderDesc.ofWords x.desc).blocks)) = some j → c0.harqWaits j = false →
    c0.coderBusy d.kind < coderUnits d.kind → c0.device = .service →
    c0.deadlineReached d.deadline now = true →
    exec (.codeBlockStart t now) s = .next { s with
      chip := (c0.setCoderJob { j with status := some Status.late, flags := j.flags ||| 32 }).ev .decEvLate }) ∧
  -- CODE_BLOCK_END
  (∀ id b s j fr, s.chip.coderJob id = some j → j.running.find? (fun p => p.1 == b) = some (b, fr) →
    ∃ u k, exec (.codeBlockEnd id b) s = .next u ∧ u.chip.coderJob id = some k ∧ k.ended = j.ended ++ [b] ∧
      k.running = j.running.filter (fun q => q.1 != b) ∧ k.started = j.started ∧ u.chip.regs = s.chip.regs) ∧
  -- CODER_COMPLETE of an encode that ran
  (∀ id s j d c1, s.chip.coderJob id = some j → d = CoderDesc.ofWords j.desc → d.kind = 1 → j.running = [] →
    j.ended.length = d.blocks →
    c1 = ((s.chip.store d.report (coderReport j d 0xFF j.flags)).complete
      (coderRecord j.tent j.tag (j.status.getD Status.ok) d) (some d.done) j.msgcpl).unwaitJob (.coder false) j.tent →
    ∃ u, exec (.coderComplete id) s = .next u ∧ u.chip.mem = c1.mem ∧ u.chip.regs = c1.regs ∧ u.chip.outs = c1.outs ∧
      u.chip.coderJobs = c1.coderJobs.filter (fun x => x.id != id))

/-- R405 to R411, R430, R431: flits, retries, retrains and messages of the Azral link. -/
def Obligations.LinkEventsAct : Prop :=
  -- FLIT_RECEIVE: a broken flit is counted and asked for again
  (∀ bs s, s.chip.powered = true → s.chip.f Fld.azlState_state = 2 → Flit.ofBytes bs = none →
    exec (.flitReceive bs) s = .next { s with chip := (s.chip.count Fld.azlStat_crcErr []).sendRetry }) ∧
  -- a DATA flit in sequence joins its stream
  (∀ bs s f c1, s.chip.powered = true → s.chip.f Fld.azlState_state = 2 → Flit.ofBytes bs = some f → f.ftype = 1 →
    f.seq = (s.chip.link.rxSeq + 1) % 4096 →
    c1 = s.chip.setLink { s.chip.link with
      replay := takeAck f.ack s.chip.link.replay, credit2 := unwrap s.chip.link.credit2 f.credLo,
      credit3 := unwrap s.chip.link.credit3 f.credHi, rxSeq := f.seq, retrying := false } →
    exec (.flitReceive bs) s = .next { s with chip := (c1.takePayload f).pump }) ∧
  -- a RETRY has the replay buffer sent again
  (∀ bs s f c1, s.chip.powered = true → s.chip.f Fld.azlState_state = 2 → Flit.ofBytes bs = some f → f.ftype = 2 →
    c1 = s.chip.setLink { s.chip.link with
      replay := takeAck f.ack s.chip.link.replay, credit2 := unwrap s.chip.link.credit2 f.credLo,
      credit3 := unwrap s.chip.link.credit3 f.credHi } →
    exec (.flitReceive bs) s = .next { s with chip := c1.resend.pump }) ∧
  (∀ s, s.chip.powered = true → s.chip.f Fld.azlState_state = 2 → s.chip.link.retrying = true →
    exec .retryRepeat s = .next { s with chip := s.chip.sendRetry }) ∧
  (∀ s, s.chip.powered = true → s.chip.f Fld.azlState_state = 2 →
    ∃ u, exec .idleAck s = .next u ∧ u.chip.link = s.chip.link ∧
      u.chip.outs = s.chip.outs ++ [.flit (s.chip.link.stamp { ftype := 0 })]) ∧
  -- REPLAY_TIMEOUT: every flit held leaves again, in order
  (∀ s, s.chip.powered = true → s.chip.f Fld.azlState_state = 2 → s.chip.link.replay ≠ [] →
    (∀ h, h ∈ s.chip.link.replay → h.again < 7) →
    ∃ u, exec .replayTimeout s = .next u ∧
      u.chip.outs = s.chip.outs ++ s.chip.link.replay.map (fun h => .flit (s.chip.link.stamp h.flit)) ∧
      u.chip.link.replay = s.chip.link.replay.map (fun h => { h with again := h.again + 1 }) ∧
      u.chip.f Fld.azlState_state = 2) ∧
  (∀ s, s.chip.powered = true → s.chip.f Fld.azlState_state = 2 →
    ∃ u, exec .retrain s = .next u ∧ u.chip.f Fld.azlState_state = 1 ∧ u.chip.link = s.chip.link) ∧
  (∀ s, s.chip.powered = true → s.chip.f Fld.azlState_state = 1 →
    ∃ u, exec .linkDown s = .next u ∧ u.chip.f Fld.azlState_state = 0 ∧
      u.chip.link = { packets := s.chip.link.packets }) ∧
  -- LINK_UP out of a retrain and, with the far end's INIT, out of DOWN
  (∀ bs s, s.chip.powered = true → s.chip.loaded = true → s.chip.f Fld.azlState_state = 1 →
    ∃ u, exec (.linkUp bs) s = .next u ∧ u.chip.f Fld.azlState_state = 2 ∧ u.chip.mem = s.chip.mem) ∧
  (∀ bs s f, s.chip.powered = true → s.chip.loaded = true → s.chip.f Fld.azlState_state = 0 →
    Flit.ofBytes bs = some f → f.ftype = 3 → leNat (f.payload.take 2) = 1 →
    ∃ u, exec (.linkUp bs) s = .next u ∧ u.chip.f Fld.azlState_state = 2 ∧
      u.chip.link.limit2 = leNat ((f.payload.drop 2).take 2) ∧
      u.chip.link.limit3 = leNat ((f.payload.drop 4).take 2)) ∧
  -- MESSAGE_SEND: the next Tent's first message leaves
  (∀ s t x rest, s.chip.powered = true → s.chip.f Fld.azlState_state = 2 → t = (s.chip.msgLast + 1) % 64 →
    (s.chip.msgQ t).q = x :: rest → x.post = none →
    ∃ u, exec .messageSend s = .next u ∧ (u.chip.msgQ t).q = rest ∧ u.chip.msgLast = t ∧
      Sent s.chip u.chip (.message t x.kind (s.chip.msgQ t).seq x.body))

/-- R461 to R467, R473, R515, R538: starts, shut-downs and trips, the supplies of the Lantern, and the entry to
SERVICE. -/
def Obligations.PowerEventsAct : Prop :=
  -- WAKE_REQUEST: the device leaves LANTERN for STARTING
  (∀ ten s c1, s.chip.device = .lantern → c1 = s.chip.pins true ten → c1.cmpClear = true →
    s.chip.boot.faultWait = false → s.chip.boot.backup = false →
    ∃ u, exec (.wakeRequest true ten) s = .next u ∧ u.chip.device = .starting ∧
      u.chip.boots = s.chip.boots + 1 ∧ u.chip.boot.testStop = ten ∧
      ∀ k, k < 48 → u.chip.get { name := .pwrStage, idx := [k] } = 0x80000000) ∧
  (∀ s, s.chip.powered = true →
    ∃ u, exec .wakeWithdrawn s = .next u ∧ u.chip.boot.shutting = true) ∧
  (∀ s, s.chip.powered = true → s.chip.boot.shutting = true →
    exec .wakeShutdown s = .next { s with chip := (s.chip.lantRecord 6 false).powerOff.tryStart }) ∧
  -- STAGE_FAULT: every stage turns off, and the 10 s run
  (∀ k cause s, k < 48 → 1 ≤ cause → cause ≤ 3 → s.chip.powered = true →
    ∃ u, exec (.stageFault k cause) s = .next u ∧ u.chip.device = .lantern ∧ u.chip.boot.faultWait = true) ∧
  (∀ s, s.chip.device = .lantern → s.chip.boot.wake = false → s.chip.flag Fld.lantCfg_autoWake = false →
    exec .stageFaultWaitEnd s = .next { s with
      chip := { s.chip with boot := { s.chip.boot with faultWait := false } } }) ∧
  -- the comparators of the input
  (∀ s, s.chip.powered = true → s.chip.boot.backup = false →
    exec (.inputUndervoltage true) s = .next { s with
      chip := ((s.chip.setF Fld.lantCmp_uv [] 1).lantRecord 3 false).powerOff }) ∧
  (∀ s, s.chip.powered = true → s.chip.boot.backup = false →
    exec (.inputOvervoltage true) s = .next { s with
      chip := ((s.chip.setF Fld.lantCmp_ov [] 1).lantRecord 4 false).powerOff }) ∧
  -- the Lantern's supplies
  (∀ b s, s.chip.device = .off →
    ∃ u, exec (.lanternPowerUp b) s = .next u ∧ u.chip.device = .lantern ∧ u.chip.boot.backup = b ∧
      u.chip.f Fld.lantSec_valid = 0) ∧
  (∀ s, ∃ u, exec .lanternPowerLoss s = .next u ∧ u.chip.device = .off) ∧
  (∀ s, s.chip.device = .lantern →
    ∃ u, exec .lanternOnBackup s = .next u ∧ u.chip.device = .lantern ∧ u.chip.boot.backup = true ∧
      u.chip.f Fld.lantCmp_uv = 0 ∧ u.chip.f Fld.lantCmp_ov = 0 ∧ u.chip.f Fld.lantCmp_coolantHot = 0) ∧
  -- COOLANT_COMPARATOR: it shows, and from SERVICE the device goes to HOLD
  (∀ s, s.chip.powered = true → s.chip.boot.backup = false →
    exec (.coolantComparator false) s = .next { s with chip := s.chip.setF Fld.lantCmp_coolantHot [] 0 }) ∧
  (∀ s, s.chip.device = .service → s.chip.boot.backup = false →
    exec (.coolantComparator true) s = .next { s with
      chip := (s.chip.setF Fld.lantCmp_coolantHot [] 1).enterHold 2 }) ∧
  -- HK_ROUND: the round runs once the table is installed
  (∀ ss s, s.chip.powered = true → s.chip.loaded = true →
    exec (.hkRound ss) s = .next { s with chip := s.chip.hkTick ss }) ∧
  (∀ ss (c c1 : Chip), c1 = ((List.range 48).foldl (fun c k =>
      c.setF Fld.pwrStage_vout [k] (min 0xFFFF (c.stageVolts k))) (c.hkRound ss).measureInput) →
    ∃ c2 : Chip, c2 = ((List.range 72).foldl Chip.senseRail c1).senseCoolant ∧
      ∃ c3 : Chip, c3 = { c2 with heat := { c2.heat with
          power := (List.range 70).map (fun n => (n, c2.unitPower n)), grants := [] } } ∧
        c.hkTick ss = (if 7168 ≤ c3.forecast.advanceNodes.throttleRound.hottest.1 then
          c3.forecast.advanceNodes.throttleRound.enterHold 1 else c3.forecast.advanceNodes.throttleRound)) ∧
  -- ENTER_SERVICE from HOLD, and from LANTERN with no set recorded
  (∀ xs s, s.chip.device = .starting → s.chip.loaded = true → s.chip.boot.restored = true →
    s.chip.boot.release = true → ∃ c1 : Chip,
    c1 = ((List.range 64).foldl Chip.settleQuiesce s.chip).clearHarqs ∧
    exec (.enterService xs) s = .next { s with chip := (({ c1 with
      device := .service, boot := { c1.boot with release := false, restored := true } } : Chip).giveFloors fun _ => true).askBoosters }) ∧
  (∀ xs s, s.chip.device = .starting → s.chip.loaded = true → s.chip.calDone = true → s.chip.boot.restored = false →
    s.chip.bankNow.slots = [] → ∃ c1 : Chip,
    c1 = s.chip.clearHarqs ∧ exec (.enterService xs) s = .next { s with chip := (({ c1 with
      device := .service, boot := { c1.boot with release := false, restored := true } } : Chip).giveFloors fun _ => true).askBoosters }) ∧
  -- STORE_UPDATE: the record set goes into the other bank
  (∀ s, s.chip.powered = true → s.chip.loaded = true →
    ∃ u, exec .storeUpdate s = .next u ∧ u.chip.bankNow = s.chip.snapshot ∧ u.chip.current = 1 - min s.chip.current 1 ∧
      u.chip.regs = s.chip.regs)

/-- R536 to R538: the test port and the Lantern's sideband. -/
def Obligations.TestPortShifts : Prop :=
  (∀ tdi s, s.chip.powered = true →
    ∃ u, exec (.bypass tdi) s = .next u ∧ u.chip.boot.driven = 0 ∧
      u.chip.outs = s.chip.outs ++ [.tdo ((false :: tdi).take tdi.length)]) ∧
  (∀ tdi s, s.chip.powered = true →
    ∃ u, exec (.idcode tdi) s = .next u ∧ u.chip.boot.driven = 0 ∧
      u.chip.outs = s.chip.outs ++ [.tdo ((idcode ++ tdi).take tdi.length)]) ∧
  (∀ tdi pins s, s.chip.powered = true →
    ∃ u, exec (.samplePreload tdi pins) s = .next u ∧ u.chip.boot.driven = 0 ∧
      u.chip.boot.boundary = (pins ++ tdi).drop tdi.length ∧
      u.chip.outs = s.chip.outs ++ [.tdo ((pins ++ tdi).take tdi.length)]) ∧
  (∀ tdi pins s, s.chip.powered = true → s.chip.boot.testStop = true →
    ∃ u, exec (.extest tdi pins) s = .next u ∧ u.chip.boot.driven = 1 ∧
      u.chip.boot.boundary = (pins ++ tdi).drop tdi.length ∧
      u.chip.outs = s.chip.outs ++ [.tdo ((pins ++ tdi).take tdi.length)]) ∧
  (∀ tdi s, s.chip.powered = true → s.chip.boot.testStop = true →
    ∃ u, exec (.clamp tdi) s = .next u ∧ u.chip.boot.driven = 1 ∧ u.chip.boot.boundary = s.chip.boot.boundary ∧
      u.chip.outs = s.chip.outs ++ [.tdo ((false :: tdi).take tdi.length)]) ∧
  (∀ tdi s, s.chip.powered = true → s.chip.boot.testStop = true →
    ∃ u, exec (.highz tdi) s = .next u ∧ u.chip.boot.driven = 2 ∧ u.chip.boot.boundary = s.chip.boot.boundary ∧
      u.chip.outs = s.chip.outs ++ [.tdo ((false :: tdi).take tdi.length)]) ∧
  -- SIDEBAND_REQUEST: opcode, length, data and their checksum
  (∀ op s, s.chip.device ≠ .off → s.chip.boot.backup = false →
    ∃ u d, d = s.chip.sideData op.toNat ∧ exec (.sidebandRequest op) s = .next u ∧ u.chip.regs = s.chip.regs ∧
      u.chip.outs = s.chip.outs ++ [.uart (op :: BitVec.ofNat 8 d.length :: d ++
        [BitVec.ofNat 8 ((op :: BitVec.ofNat 8 d.length :: d).map BitVec.toNat).sum])])

/-- R483 to R496: the Cairn measures, takes frames, closes intervals and logs its events. -/
def Obligations.CairnEventsAct : Prop :=
  -- ACTIVITY_FRAME that follows the last one
  (∀ x s k, s.chip.powered = true → k = s.cairn.advance x → k.input = true → k.valid = true →
    k.follows s.chip.actFrame.seq = true → (k.frame = none ∨ ∃ g, k.frame = some g ∧ g.boot = s.chip.actFrame.boot) →
    ∃ u, exec (.activityFrame x true) s = .next u ∧ u.chip.actSeq = s.chip.actSeq + 1 ∧
      u.cairn.frame = some { s.chip.actFrame with time := k.time } ∧ u.cairn.fresh = true ∧
      u.cairn.base = k.base ∧ u.cairn.recs = s.cairn.recs) ∧
  -- INTERVAL_CLOSE at a boundary, the clock in step: one more record, and a new interval
  (∀ x s k, k = s.cairn.advance x → k.input = true → k.valid = true → k.atBoundary = true →
    k.clockDiff.natAbs ≤ 2 * 32768 → s.cairn.recs.length < 10000 →
    ∃ u r, exec (.intervalClose x) s = .next u ∧ u.cairn.recs = s.cairn.recs ++ [r] ∧ r.num = s.cairn.nextRec ∧
      r.start = s.cairn.start ∧ r.length = k.time - s.cairn.start ∧ u.cairn.nextRec = s.cairn.nextRec + 1 ∧
      u.cairn.start = k.time ∧ u.cairn.closed = k.energy) ∧
  -- CAIRN_INPUT_LOSS and CAIRN_INPUT_RETURN
  (∀ x s k, k = s.cairn.advance x → k.input = true → k.valid = true → k.clockDiff.natAbs ≤ 2 * 32768 →
    ∃ u, exec (.cairnInputLoss x) s = .next u ∧ u.cairn.input = false ∧ u.cairn.nextRec = s.cairn.nextRec + 1 ∧
      u.cairn.nextEvt = s.cairn.nextEvt + 1 ∧ (u.cairn.evts.getLast?.map fun e => e.code) = some 2) ∧
  (∀ x s k, k = s.cairn.advance x → k.input = false →
    ∃ u, exec (.cairnInputReturn x) s = .next u ∧ u.cairn.input = true ∧ u.cairn.start = k.time ∧
      u.cairn.partly = true ∧ (u.cairn.evts.getLast?.map fun e => (e.code, e.before)) = some (1, k.mwh)) ∧
  (∀ x st s k, k = s.cairn.advance x →
    ∃ u, exec (.sealOpened x st) s = .next u ∧ u.cairn.sealBroken = true ∧
      (u.cairn.evts.getLast?.map fun e => (e.code, e.time, e.before)) = some (6, k.time, st % 2 ^ 64)) ∧
  -- SELF_TEST: a wrong checksum is a fault, a right one at a start ends it
  (∀ x b sum s k, k = s.cairn.advance x → k.input = true → sum ≠ Config.cairnSum →
    ∃ u, exec (.selfTest x b sum) s = .next u ∧ u.cairn.fault = true ∧
      (u.cairn.evts.getLast?.map fun e => e.code) = some 11) ∧
  (∀ x s k, k = s.cairn.advance x → k.input = true →
    ∃ u, exec (.selfTest x true Config.cairnSum) s = .next u ∧ u.cairn = { k with fault := false }) ∧
  (∀ x p s k, k = s.cairn.advance x → k.input = true → k.overload = false →
    ∃ u, exec (.overloadBegin x p) s = .next u ∧ u.cairn.overload = true ∧
      (u.cairn.evts.getLast?.map fun e => (e.code, e.before)) = some (7, p % 2 ^ 64)) ∧
  (∀ x p s k, k = s.cairn.advance x → k.input = true → k.overload = true →
    ∃ u, exec (.overloadEnd x p) s = .next u ∧ u.cairn.overload = false ∧
      (u.cairn.evts.getLast?.map fun e => (e.code, e.before)) = some (8, p % 2 ^ 64)) ∧
  (∀ x s k, k = s.cairn.advance x → k.input = true → k.linkLost = false →
    ∃ u, exec (.activityLinkLost x) s = .next u ∧ u.cairn.linkLost = true ∧
      (u.cairn.evts.getLast?.map fun e => (e.code, e.before)) = some (9, k.lastSeq)) ∧
  (∀ x s k, k = s.cairn.advance x → k.input = true → k.linkLost = true → k.lastSeq ≠ k.lostSeq →
    ∃ u, exec (.activityLinkRestored x) s = .next u ∧ u.cairn.linkLost = false ∧
      (u.cairn.evts.getLast?.map fun e => (e.code, e.before, e.after)) = some (10, k.lostSeq, k.lastSeq)) ∧
  -- METROLOGY_PULSE
  (∀ x s k, k = s.cairn.advance x → k.input = true → k.fault = false → k.pulses < k.mwh / 100 →
    ∃ u, exec (.metrologyPulse x) s = .next u ∧ u.cairn = { k with pulses := k.pulses + 1 } ∧
      u.chip.outs = s.chip.outs ++ [.pulse])

/-- R111, R130, R131, R133, R137, R226 to R231: a Dale takes up a job, its tile is staged, strobed and settles. -/
def Obligations.DaleJobsPrepare : Prop :=
  -- JOB_START: the next job of an idle Dale asks for credits; one whose Dale is active prepares
  (∀ v d s k j c1, daleOk v d = true → k = 12 * v + d → (s.chip.dale k).run = none → s.chip.daleServes k = true →
    nextJob (s.chip.dale k).lastTent (s.chip.dale k).queue = some j →
    c1 = ((s.chip.latchPair k).setDale k { s.chip.dale k with
      run := some (newRun j (s.chip.jobSeeds j)), queue := (s.chip.dale k).queue.erase j }).setF
        Fld.daleSide_ready [k / 12, k % 12] 0 →
    (j.tent = 0 ∨ c1.f Fld.valeBank_owner [k / 12, (Desc.ofWords j.desc).bank] = j.tent) →
    (c1.f Fld.daleCtl_lockWait [k / 12, k % 12] ≠ 0 ∨ c1.flag Fld.daleState_lockGood [k / 12, k % 12] = true) →
    ((s.chip.dale k).active = true → exec (.jobStart v d) s = .next { s with chip := c1.prepareRun k }) ∧
    ((s.chip.dale k).active = false → exec (.jobStart v d) s = .next { s with
      chip := (c1.askCredits (.dale k)).wait (.dale k) j.tent 0 true })) ∧
  -- a bank of another owner ends it
  (∀ v d s k j c1, daleOk v d = true → k = 12 * v + d → (s.chip.dale k).run = none → s.chip.daleServes k = true →
    nextJob (s.chip.dale k).lastTent (s.chip.dale k).queue = some j →
    c1 = ((s.chip.latchPair k).setDale k { s.chip.dale k with
      run := some (newRun j (s.chip.jobSeeds j)), queue := (s.chip.dale k).queue.erase j }).setF
        Fld.daleSide_ready [k / 12, k % 12] 0 →
    j.tent ≠ 0 → c1.f Fld.valeBank_owner [k / 12, (Desc.ofWords j.desc).bank] ≠ j.tent →
    exec (.jobStart v d) s = .next { s with chip := c1.stopRun k 0 Status.notPermitted }) ∧
  -- LOCK_WAIT_EXPIRE: lock-good has come, or the job ends LOCK_LOST
  (∀ v d s k r, daleOk v d = true → k = 12 * v + d → (s.chip.dale k).run = some r → r.lockWait = true →
    r.phase ≠ .ended → r.stop = none → s.chip.flag Fld.daleState_lockGood [k / 12, k % 12] = true →
    ∃ u, exec (.lockWaitExpire v d) s = .next u ∧ (u.chip.dale k).run = some { r with lockWait := false }) ∧
  (∀ v d s k r, daleOk v d = true → k = 12 * v + d → (s.chip.dale k).run = some r → r.lockWait = true →
    r.phase ≠ .ended → r.stop = none → s.chip.flag Fld.daleState_lockGood [k / 12, k % 12] = false →
    exec (.lockWaitExpire v d) s = .next { s with
      chip := (s.chip.stopRun k 0 Status.lockLost).ev .daleEvLock [k / 12, k % 12] }) ∧
  -- RELOAD_STAGED
  (∀ v d s k, daleOk v d = true → k = 12 * v + d → (s.chip.dale k).staging ≠ none → (s.chip.dale k).staged = false →
    ∃ u, exec (.reloadStaged v d) s = .next u ∧ (u.chip.dale k).staged = true ∧
      u.chip.f Fld.drvDaleState_staged [v, d] = 1) ∧
  -- LOAD_STROBE: the staged tile is the resident one, and the strobes are counted
  (∀ v d s k t, daleOk v d = true → k = 12 * v + d → s.chip.linked k = none → s.chip.atBoundary k = true →
    (s.chip.dale k).staging = some t → (s.chip.dale k).staged = true → (s.chip.dale k).slew = false →
    ∃ u, exec (.loadStrobe v d) s = .next u ∧ (u.chip.dale k).tile = some t ∧ (u.chip.dale k).staging = none ∧
      (u.chip.dale k).settling = true ∧
      (u.chip.dale k).live = cellsOver (s.chip.dale k).stage (s.chip.dale k).live ∧
      (u.chip.dale k).stage = (s.chip.dale k).live ∧ u.chip.f Fld.daleTile_tile [v, d] = t.index % 4096 ∧
      u.chip.f Fld.drvDaleState_clamp [v, d] = 0) ∧
  -- with nothing staged it changes no cell
  (∀ v d s k, daleOk v d = true → k = 12 * v + d → s.chip.linked k = none → s.chip.atBoundary k = true →
    (s.chip.dale k).staging = none →
    ∃ u, exec (.loadStrobe v d) s = .next u ∧ (u.chip.dale k).tile = (s.chip.dale k).tile ∧
      (u.chip.dale k).live = (s.chip.dale k).live ∧ (u.chip.dale k).stage = (s.chip.dale k).stage) ∧
  (∀ v d s k k2, daleOk v d = true → k = 12 * v + d → s.chip.linked k = some k2 → s.chip.strobeReady k = true →
    s.chip.strobeReady k2 = true →
    exec (.loadStrobe v d) s = .next { s with chip := (s.chip.strobe k).strobe k2 }) ∧
  (∀ v d s k, daleOk v d = true → k = 12 * v + d → (s.chip.dale k).settling = true →
    ∃ u, exec (.heaterSettled v d) s = .next u ∧ (u.chip.dale k).settling = false ∧
      u.chip.f Fld.daleState_state [v, d] = 1) ∧
  -- HOLD_CELL_REFRESH outside a ramp: with no staging write the staging cells of the DAC take the live codes
  (∀ v d p s k, daleOk v d = true → k = 12 * v + d → p < 132 → (s.chip.dale k).ramping = false →
    ∃ u, exec (.holdCellRefresh v d p) s = .next u ∧ (u.chip.dale k).live = (s.chip.dale k).live ∧
      ((s.chip.dale k).staging ≠ none → (u.chip.dale k).stage = (s.chip.dale k).stage) ∧
      ((s.chip.dale k).staging = none →
        (∀ r, r < 66 → Tab.get (u.chip.dale k).stage (elemIndex r (p / 2) (p % 2)) 0 =
          Tab.get (s.chip.dale k).live (elemIndex r (p / 2) (p % 2)) 0) ∧
        (∀ e, (∀ r, r < 66 → e ≠ elemIndex r (p / 2) (p % 2)) →
          Tab.get (u.chip.dale k).stage e 0 = Tab.get (s.chip.dale k).stage e 0))) ∧
  -- and in one
  (∀ v d p s k, daleOk v d = true → k = 12 * v + d → p < 132 → (s.chip.dale k).ramping = true →
    ∃ u, exec (.holdCellRefresh v d p) s = .next u ∧ (u.chip.dale k).stage = (s.chip.dale k).stage ∧
      ((u.chip.dale k).ramping = false ↔
        ∀ x, x ∈ (s.chip.dale k).stage → Tab.get (u.chip.dale k).live x.1 0 = x.2))

/-- R120, R126, R128, R134, R140 to R143: batches start and end, tags are watched, and a job completes. -/
def Obligations.BatchesRun : Prop :=
  -- BATCH_START of a batch that is ready, its tag due or not
  (∀ v d now bad s k r ds t rows ks changed due pre c1, daleOk v d = true → k = 12 * v + d →
    (s.chip.dale k).run = some r → ds = Desc.ofWords r.job.desc → s.chip.batchReady k r = true →
    s.chip.wantedTile r.job = some t → s.chip.needsReload k r.job t = false →
    s.chip.deadlineReached ds.deadline now = false → rows = min ds.batch (ds.nVec - r.row) → 0 < rows →
    ks = wantedRanges ds r →
    changed = (if r.switched then 64
      else (changedReceivers (s.chip.rangesNow k ds.nOut) ks (s.chip.dueSubsts k)).length) →
    due = (!r.tagged || r.tagFrame != s.chip.seenOf (.dale k)) →
    pre = (if changed ≠ 0 then 48 else if due = true then 32 else 0) →
    s.chip.bud.shed.contains (.dale k) = false → (s.chip.dale k).active = true →
    s.chip.admitAll r.job.tent ((.dale k, pre + rows * ds.vecSymbols) :: batchReads ds r.row rows)
      (some (.dale k)) = (c1, true) →
    c1.skewRow ds r.row rows = none →
    (due = true → tagAccepted (jobTag ds r.job.tent (if r.tagged then 1 else 0)) bad = true) →
    exec (.batchStart v d now bad) s = .next { s with
      chip := (if due = true then c1.mapRun k fun r' => { r' with
          tagged := true, tagFrame := s.chip.seenOf (.dale k), tagRow := r.row } else c1).issueBatch
        k r ds ks rows pre changed }) ∧
  -- past its deadline the job ends LATE from this batch on, SCALE_SKEW where its first record fails
  (∀ v d now bad s k r ds t c1, daleOk v d = true → k = 12 * v + d → (s.chip.dale k).run = some r →
    ds = Desc.ofWords r.job.desc → s.chip.batchReady k r = true → s.chip.wantedTile r.job = some t →
    s.chip.needsReload k r.job t = false → s.chip.deadlineReached ds.deadline now = true →
    s.chip.admitAll r.job.tent (memAccess (ds.inScale + 4 * blockOf ds.inKind r.row) 4) (some (.dale k)) =
      (c1, true) →
    exec (.batchStart v d now bad) s = .next { s with
      chip := (c1.stopRun k r.row (if (c1.skewRow ds r.row 1).isSome then Status.scaleSkew
        else Status.late)).settleRun k }) ∧
  -- BATCH_END: the rows are accumulated, and those whose side sums are ready are written
  (∀ v d noise s k r ds t c1 c2 ks a ovr, daleOk v d = true → k = 12 * v + d → (s.chip.dale k).run = some r →
    (s.chip.dale k).tile = some t → r.phase = .batch → ds = Desc.ofWords r.job.desc →
    s.chip.admitAll r.job.tent (batchWrites ds r.row r.rows) (some (.dale k)) = (c1, true) →
    ks = c1.rangesNow k ds.nOut → a = c1.accumulateBatch k ds t ks r noise →
    ovr = (a.1.map fun x => (x.1.map fun y => y.ovr).sum).sum → c2 = c1.setGen (.requantDale k) a.2 →
    ∃ f : DaleRun → DaleRun, (∀ r', (f r').phase = .prepare ∧ (f r').row = r'.row + r'.rows ∧ (f r').rows = 0 ∧
        (f r').job = r'.job ∧ (f r').ovr = sat32 (r'.ovr + ovr) ∧ (f r').written = r'.written ∧
        (f r').acc.map (fun x => x.row) = r'.acc.map (fun x => x.row) ++ a.1.map (fun x => x.2.row)) ∧
      exec (.batchEnd v d noise) s = .next { s with
        chip := (Chip.deliverReady (r.acc.length + r.rows + 1) ((c2.mapRun k f).setDaleState k 1) k).settleRun k }) ∧
  -- JOB_COMPLETE
  (∀ v d s k r c1, daleOk v d = true → k = 12 * v + d → (s.chip.dale k).run = some r → r.phase = .ended →
    runStatus r ≠ Status.budgetWaitLimit →
    s.chip.admitAll r.job.tent (memAccess (Desc.ofWords r.job.desc).stat 32 ++ (match r.job.compl with
      | some a => memAccess a 32
      | none => [])) (some (.dale k)) = (c1, true) →
    exec (.jobComplete v d) s = .next { s with chip := (c1.finishRun k).settleDrain 0 v }) ∧
  -- TAG_DECODE: a re-lock tag of its own bank lights it; a tag of another port's bank intrudes
  (∀ v p tag s f, v < 12 → p < 16 → tagFields tag = some f → f.vale = v → f.port = p →
    tag = s.chip.relockTag v f.bank → s.chip.f Fld.valeBank_state [v, f.bank] = 2 →
    ∃ u, exec (.tagDecode v p tag) s = .next u ∧ u.chip.f Fld.valeBank_state [v, f.bank] = 3 ∧
      u.chip.mem = s.chip.mem) ∧
  (∀ v p tag s f, v < 12 → p < 12 → tagFields tag = some f → f.port ≠ p → f.vale = v →
    exec (.tagDecode v p tag) s = .next { s with
      chip := if s.chip.reportTaken v f.bank
        then (s.chip.intrude (12 * v + p) f.bank true).wrongLine v f.bank f.port ((p + 16 - f.bank) % 16)
        else s.chip.intrude (12 * v + p) f.bank false }) ∧
  -- BATCH_REISSUE: the discarded batch is a grain of its own; in a new frame it waits for BATCH_START and its tag
  (∀ v d s k r n c1, daleOk v d = true → k = 12 * v + d → (s.chip.dale k).run = some r → r.intruded ≠ 0 →
    r.phase = .prepare → r.stop = none → r.tagFrame = s.chip.seenOf (.dale k) →
    s.chip.bud.shed.contains (.dale k) = false → (s.chip.dale k).active = true →
    n = r.intruded * (Desc.ofWords r.job.desc).vecSymbols → s.chip.spend (.dale k) r.job.tent n = some c1 →
    c1.dales = s.chip.dales →
    ∃ u, exec (.batchReissue v d) s = .next u ∧ (u.chip.dale k).run = some { r with
        phase := .batch, rows := r.intruded, intruded := 0, prefixed := 0 } ∧
      (u.chip.dale k).symbols = (s.chip.dale k).symbols + n ∧ u.chip.f Fld.daleState_state [v, d] = 4) ∧
  (∀ v d s k r, daleOk v d = true → k = 12 * v + d → (s.chip.dale k).run = some r → r.intruded ≠ 0 →
    r.phase = .prepare → r.stop = none → r.tagFrame ≠ s.chip.seenOf (.dale k) →
    exec (.batchReissue v d) s = .next { s with
      chip := s.chip.mapRun k fun r => { r with intruded := 0, stop := none } }) ∧
  (∀ v b s, v < 12 → b < 16 → (s.chip.bank v b).lossWait = true →
    exec (.tagLossTimeout v b) s = .next { s with chip := s.chip.tagLossSearch v b })

/-- R208, R229, R280, R281, R287, R289, R290, R292: the rotation of the columns, of the selectors and of the monitor
ADCs. -/
def Obligations.RotationsStep : Prop :=
  -- ROTATION_STEP: the measurement under one CAL step of Tent 0, the staging, the comparison
  (∀ v d m s k c1, daleOk v d = true → k = 12 * v + d → s.chip.device = .service → (s.chip.dale k).drained = false →
    s.chip.flag Fld.calCfg_rotEn [k / 12] = true → (s.chip.dale k).rot.next = .measure →
    s.chip.rotationHeld k = false → s.chip.spend (.cal (k / 12)) 0 1 = some c1 → ∃ c2 : Chip, c2 = c1.measureStep k m ∧
    exec (.rotationStep v d m) s = .next { s with
      chip := c2.setValeCal (k / 12) { c1.valeCal (k / 12) with held := false } }) ∧
  (∀ v d m s k, daleOk v d = true → k = 12 * v + d → s.chip.device = .service → (s.chip.dale k).drained = false →
    s.chip.flag Fld.calCfg_rotEn [k / 12] = true → (s.chip.dale k).rot.next = .stage →
    exec (.rotationStep v d m) s = .next { s with chip := s.chip.stageStep k }) ∧
  (∀ v d m s k, daleOk v d = true → k = 12 * v + d → s.chip.device = .service → (s.chip.dale k).drained = false →
    s.chip.flag Fld.calCfg_rotEn [k / 12] = true → (s.chip.dale k).rot.next = .compare → s.chip.atBoundary k = true →
    exec (.rotationStep v d m) s = .next { s with chip := s.chip.compareStep k m }) ∧
  -- COLUMN_STROBE: the staged columns exchange their roles
  (∀ v d s k, daleOk v d = true → k = 12 * v + d → (s.chip.dale k).rot.next = .strobe → s.chip.atBoundary k = true →
    (s.chip.dale k).staging = none →
    ∃ u, exec (.columnStrobe v d) s = .next u ∧ (u.chip.dale k).rot.next = .compare ∧
      (u.chip.dale k).live = (s.chip.dale k).rot.codes.foldl (fun l x => Tab.set l x.1 x.2) (s.chip.dale k).live ∧
      (u.chip.dale k).tile = (s.chip.dale k).tile ∧ u.chip.mem = s.chip.mem) ∧
  -- SELECTOR_CAL: a dark bank goes to the calibration line, and its measurements end it
  (∀ v b r1 p1 r2 p2 s c1, v < 12 → b < 16 → (s.chip.bank v b).calRun = false → s.chip.device = .service →
    (s.chip.dale (12 * v)).drained = false → s.chip.flag Fld.calCfg_selEn [v] = true →
    s.chip.f Fld.calState_selBank [v] = 0x1F → s.chip.f Fld.valeBank_state [v, b] = 0 →
    (s.chip.bank v b).carries = none → s.chip.spend (.cal v) 0 1 = some c1 →
    (∀ x, x < 16 → x ≠ b → c1.f Fld.valeBank_port [v, x] ≠ 12) → ∃ c2 : Chip,
    c2 = c1.setBank v b { c1.bank v b with calRun := true } ∧
    exec (.selectorCal v b r1 p1 r2 p2) s = .next { s with
      chip := ((((c2.setF Fld.calState_selBank [v] b).setF Fld.valeBank_port [v, b] 12).colourChange v b
        ((28 - b) % 16)).syncGood v 0) }) ∧
  (∀ v b r1 p1 r2 p2 s, v < 12 → b < 16 → (s.chip.bank v b).calRun = true →
    exec (.selectorCal v b r1 p1 r2 p2) s = .next { s with chip := s.chip.selEnd v b r1 p1 r2 p2 }) ∧
  -- ADC_ROTATION_STEP: the calibrated ADC moves by one
  (∀ v s c1, v < 12 → s.chip.device = .service → (s.chip.dale (12 * v)).drained = false →
    s.chip.flag Fld.calCfg_adcEn [v] = true → s.chip.flag Fld.calState_adcFault [v] = false →
    (s.chip.valeCal v).adc = none → s.chip.spend (.cal v) 0 1 = some c1 → c1.flag Fld.convRot_dir [v] = false →
    c1.f Fld.convRot_calAdc [v] < 71 →
    ∃ u, exec (.adcRotationStep v) s = .next u ∧
      u.chip.f Fld.convRot_calAdc [v] = c1.f Fld.convRot_calAdc [v] + 1 ∧
      (u.chip.valeCal v).adc = some { phys := c1.f Fld.convRot_calAdc [v] + 1,
                                      logical := c1.f Fld.convRot_calAdc [v] } ∧
      (u.chip.adc v (c1.f Fld.convRot_calAdc [v])).cal = some (calRequest 0)) ∧
  -- CALIBRATION_CONVERSION_END: with eight results the ADC is judged
  (∀ v l xs s req x c0 sx o c1 y, v < 12 → l < 71 → (s.chip.adc v l).run = .cal req →
    (s.chip.valeCal v).adc = some x → c0 = s.chip.discsDone v l →
    sx = c0.trimMonitor v x.phys (seqGain req.toNat) (2 ^ seqAvg req.toNat) xs →
    o = outputValue (sx.2.gen (.monitor v)) (seqAvg req.toNat) sx.1 →
    c1 = ((sx.2.setGen (.monitor v) o.2).setRun v l .idle).injectionRun v l 0 →
    (c1.valeCal v).adc = some y → y.results.length = 7 →
    exec (.calibrationConversionEnd v l xs) s = .next { s with
      chip := c1.judgeAdc v y.phys (y.results ++ [o.1]) }) ∧
  -- GATE_FRAME_CHANGE: the gates whose waiting grains are offered again by their own units
  (∀ g s, gateExists g = true → s.chip.powered = true → s.chip.seenOf g ≠ s.chip.bud.frame → ∃ c1 : Chip,
    c1 = s.chip.gateBoundary g ∧ Tab.get c1.bud.seen g 0 = s.chip.bud.frame ∧
    (∀ k, g = .dale k → exec (.gateFrameChange g) s = .next { s with chip := c1 }) ∧
    (∀ i, g = .array i → exec (.gateFrameChange g) s = .next { s with chip := c1.nextStep i }) ∧
    (∀ i, g = .core i → exec (.gateFrameChange g) s = .next { s with chip := c1.wakeIssue fun j => j == i }) ∧
    (∀ x, g = .quad x → exec (.gateFrameChange g) s = .next { s with chip := c1.quadRetry.meetBoundary g }) ∧
    (∀ p, g = .pass p → exec (.gateFrameChange g) s = .next { s with chip := (c1.passRetry p).meetBoundary g }) ∧
    (g = .mp → exec (.gateFrameChange g) s = .next { s with
      chip := Chip.mpServe ((c1.mpq.map fun q => q.2.length).sum) c1.settleSwitch s.cairn }))

/-- R165 to R173, R181, R184, R293, R358: sites are programmed and checked. -/
def Obligations.SitesAreProgrammedAndChecked : Prop :=
  -- PROGRAM_GRAIN under its credit, where the window lets it: up to 64 verify iterations
  (∀ n ps reads s p c1 c2 r, siteOk n ps = true → s.chip.prog n ps = some p → p.group < progGroups → reads ≠ [] →
    reads.length ≤ 64 → s.chip.flag Fld.veldImgBase_valid [n] = true →
    s.chip.f Fld.siteWrites_writes [n, ps] < 100000 → s.chip.device = .service →
    (s.chip.flag Fld.veldCfg_wwinEn [n] = true → s.chip.inWindow n = true) → s.chip.mayProgram n ps p = true →
    (s.chip.creditMet p.gate (some (progJob n))).spend p.gate p.tent reads.length (some (progJob n)) = some c1 →
    r = reads.foldl (fun st g => progIterate (c1.image p.logical) (!c1.inWindow n) g st)
      ({ prog := { p with credit := true, paused := false } } : ProgStep) →
    c2 = c1.setProg n ps r.prog → exec (.programGrain n ps reads) s = .next { s with
      chip := (if r.prog.outside = true then c2.setF Fld.siteAstate_wwflag [n, ps] 1 else c2).noteStuck
        n ps p.logical r.good r.stuck }) ∧
  -- without a credit of its pair it asks and waits as a grain of the VELD class
  (∀ n ps reads s p, siteOk n ps = true → s.chip.prog n ps = some p → p.group < progGroups → reads ≠ [] →
    reads.length ≤ 64 → s.chip.flag Fld.veldImgBase_valid [n] = true →
    s.chip.f Fld.siteWrites_writes [n, ps] < 100000 → s.chip.device = .service →
    (s.chip.flag Fld.veldCfg_wwinEn [n] = true → s.chip.inWindow n = true) → s.chip.mayProgram n ps p = false →
    exec (.programGrain n ps reads) s = .next { s with
      chip := ((s.chip.setProg n ps { p with credit := false }).askCredits (.program n ps)).wait p.gate p.tent
        reads.length true (some (progJob n)) }) ∧
  -- outside the window it pauses, noted once
  (∀ n ps reads s p, siteOk n ps = true → s.chip.prog n ps = some p → p.group < progGroups → reads ≠ [] →
    reads.length ≤ 64 → s.chip.flag Fld.veldImgBase_valid [n] = true →
    s.chip.f Fld.siteWrites_writes [n, ps] < 100000 → s.chip.device = .service →
    s.chip.flag Fld.veldCfg_wwinEn [n] = true → s.chip.inWindow n = false → p.noted = false →
    exec (.programGrain n ps reads) s = .next { s with
      chip := (s.chip.ev .veldEvWwin [n]).setProg n ps { p with paused := true, noted := true } }) ∧
  -- WRITE_WINDOW_TIMEOUT: the set fails
  (∀ n ps s p t k sw so sd, siteOk n ps = true → s.chip.prog n ps = some p → p.what = .set t k sw so sd →
    p.paused = true → exec (.writeWindowTimeout n ps) s = .next { s with
      chip := s.chip.failSet t k Status.writeWindow (s.chip.shardOfSite t k p.logical) }) ∧
  -- PROGRAMMING_DONE for a set, for a refresh and in place
  (∀ n ps noise s p t k sw so sd, siteOk n ps = true → s.chip.prog n ps = some p → progGroups ≤ p.group →
    p.what = .set t k sw so sd → exec (.programmingDone n ps noise) s = .next { s with
      chip := ((s.chip.programEnd n ps p noise).siteProgrammed n ps t k sw so sd p.logical).wornOut n ps }) ∧
  -- a spare that this has worn out is retired, and the refresh waits for another
  (∀ n ps noise s p o c1, siteOk n ps = true → s.chip.prog n ps = some p → progGroups ≤ p.group → p.what = .refresh →
    c1 = (s.chip.programEnd n ps p noise).saveRecord n ps → (c1.veld n).op = some o →
    (c1.f Fld.siteWrites_writes [n, ps] < 100000 → exec (.programmingDone n ps noise) s = .next { s with
      chip := c1.setVeld n { c1.veld n with op := some { o with stage := 5 } } }) ∧
    (100000 ≤ c1.f Fld.siteWrites_writes [n, ps] → exec (.programmingDone n ps noise) s = .next { s with
      chip := (c1.retireSite n ps).requeueOp n o (if o.why = .site then .site else .refresh) })) ∧
  (∀ n ps noise s p c1, siteOk n ps = true → s.chip.prog n ps = some p → progGroups ≤ p.group → p.what = .inPlace →
    c1 = (s.chip.programEnd n ps p noise).setF Fld.siteAstate_state [n, ps] 2 → ∃ c2 : Chip,
    c2 = (c1.setVeld n { c1.veld n with op := none }).setF Fld.veldState_refreshSite [n] 0x3FF ∧
    exec (.programmingDone n ps noise) s = .next { s with chip := ((c2.saveRecord n ps).wornOut n ps).nextStep p.logical }) ∧
  -- SITE_CHECK: its phases add up; at the last the cells far from their targets are counted, and the check moves on
  (∀ n ph off seen s i c0 c1 c2 x k, veldOk n = true → x = s.chip.f Fld.veldState_checkSite [n] →
    s.chip.logicalOf n x = some i → s.chip.flag Fld.veldCfg_checkEn [n] = true →
    s.chip.flag Fld.veldImgBase_valid [n] = true →
    s.chip.f Fld.siteAstate_state [n, x] = 2 → s.chip.prog n x = none → (s.chip.veld n).drained = false →
    s.chip.device = .service → (s.chip.core i).run = none → (s.chip.core i).steps = [] →
    s.chip.useImage i = (c0, true) → c0.spend (.cal (12 + n)) 0 (max 1 ph) = some c1 → c2 = c1.noteFaults i seen →
    k = (c2.veld n).check.getD {} →
    (k.phases + ph < checkPhases → exec (.siteCheck n ph off seen) s = .next { s with
      chip := c2.setVeld n { c2.veld n with
        check := some { phases := k.phases + ph, off := k.off ++ off, offs := k.offs ++ seen.offs } } }) ∧
    (checkPhases ≤ k.phases + ph → ∃ u, exec (.siteCheck n ph off seen) s = .next u ∧
      u.chip.f Fld.veldState_checkSite [n] = u.chip.nextChecked n x ∧ (u.chip.veld n).check = none ∧
      u.chip.f Fld.siteCheck_outTol [n, x] = min ((k.off ++ off).filter fun y =>
        match c2.physTarget n x (c2.image i) y.1 y.2.1 with
        | some t => decide (80 < ((y.2.2 : Int) - (t : Nat)).natAbs)
        | none => false).length 0xFFF)) ∧
  -- a step in hand goes ahead of the check
  (∀ n ph off seen s i x, veldOk n = true → x = s.chip.f Fld.veldState_checkSite [n] →
    s.chip.logicalOf n x = some i → s.chip.f Fld.siteAstate_state [n, x] = 2 → s.chip.prog n x = none →
    (s.chip.core i).steps ≠ [] → exec (.siteCheck n ph off seen) s = .next s)

/-- R174 to R180, R518: a refresh or repair starts, its logical site moves, and the old site is rewritten. -/
def Obligations.SitesAreRefreshed : Prop :=
  -- REFRESH_START with a free spare
  (∀ n s i why rest ps sp fr c0 c1 c2, veldOk n = true → (s.chip.veld n).op = none →
    (s.chip.veld n).queue = (i, why) :: rest → s.chip.flag Fld.veldImgBase_valid [n] = true →
    (s.chip.veld n).drained = false → s.chip.device = .service → ps = s.chip.physOf i →
    c0 = s.chip.setVeld n { s.chip.veld n with queue := rest } → c0.prog n ps = none → c0.lmapValid i = true →
    c0.repairMoot n ps why = false → c0.useImage i = (c1, true) → c1.freeSpares n = sp :: fr → c1.repairMap n ps why = some c2 → ∃ c3 : Chip,
    c3 = (c2.setVeld n { c2.veld n with op := some { logical := i, why := why, old := ps, spare := some sp, stage := 3 } }).setF
      Fld.veldState_refreshSite [n] ps ∧
    exec (.refreshStart n) s = .next { s with
      chip := (c3.beginProg n sp { what := .refresh, logical := i }).failInvalid }) ∧
  -- with none left it is done in place, and said so
  (∀ n s i why rest ps c0 c1 c2, veldOk n = true → (s.chip.veld n).op = none →
    (s.chip.veld n).queue = (i, why) :: rest → s.chip.flag Fld.veldImgBase_valid [n] = true →
    (s.chip.veld n).drained = false → s.chip.device = .service → ps = s.chip.physOf i →
    c0 = s.chip.setVeld n { s.chip.veld n with queue := rest } → c0.prog n ps = none → c0.lmapValid i = true →
    c0.repairMoot n ps why = false → c0.useImage i = (c1, true) → c1.freeSpares n = [] → c1.repairMap n ps why = some c2 → ∃ c3 : Chip,
    c3 = ((c2.setVeld n { c2.veld n with op := some { logical := i, why := why, old := ps, spare := none, stage := 3 } }).setF
      Fld.veldState_refreshSite [n] ps).ev .veldEvNospare [n] ∧
    exec (.refreshStart n) s = .next { s with
      chip := (c3.beginProg n ps { what := .inPlace, logical := i }).failInvalid }) ∧
  -- MIGRATION: the logical site goes on on the spare, under the maps and records
  (∀ n s o sp, veldOk n = true → (s.chip.veld n).op = some o → o.spare = some sp → o.stage = 5 →
    (s.chip.core o.logical).run = none → (s.chip.core o.logical).steps = [] → sp ≠ o.old → sp < 800 →
    ∃ u, exec (.migration n) s = .next u ∧ u.chip.f Fld.veldLmap_phys [n, o.logical % 768] = sp ∧
      u.chip.f Fld.veldLmap_valid [n, o.logical % 768] = 1 ∧ u.chip.f Fld.siteAstate_state [n, sp] = 2 ∧
      u.chip.f Fld.siteAstate_state [n, o.old] = 3 ∧ (u.chip.veld n).op = some { o with stage := 7 } ∧
      u.chip.mem = s.chip.mem) ∧
  -- OLD_SITE_REWRITTEN: a spare again, or retired
  (∀ n noise s o p c1, veldOk n = true → (s.chip.veld n).op = some o → o.stage = 7 → s.chip.prog n o.old = some p →
    progGroups ≤ p.group → c1 = s.chip.programEnd n o.old p noise →
    c1.f Fld.siteWrites_writes [n, o.old] < 100000 →
    ∃ u, exec (.oldSiteRewritten n noise) s = .next u ∧ u.chip.f Fld.siteAstate_state [n, o.old] = 0 ∧
      (u.chip.veld n).op = none ∧ u.chip.f Fld.veldState_refreshSite [n] = 0x3FF) ∧
  (∀ n noise s o, veldOk n = true → (s.chip.veld n).op = some o → o.stage = 7 → s.chip.prog n o.old = none →
    ∃ u, exec (.oldSiteRewritten n noise) s = .next u ∧ u.chip.f Fld.siteAstate_state [n, o.old] = 5 ∧
      (u.chip.veld n).op = none ∧ u.chip.f Fld.veldState_refreshSite [n] = 0x3FF) ∧
  -- IMAGE_CHECK_RETRY: an image that was missing is looked at again
  (∀ n s i why, veldOk n = true → (s.chip.veld n).queue = [(i, why)] →
    s.chip.logicalOf n (s.chip.f Fld.veldState_checkSite [n]) = none → (s.chip.siteArr i).missed = true →
    exec (.imageCheckRetry n) s = .next { s with chip := (s.chip.useImage i).1 })

/-- R199 to R208, R213: the monitor ADCs run their tables, injections and calibration conversions. -/
def Obligations.ConvertersRun : Prop :=
  -- TRIGGER_TICK at the counts that div and phase name, and at no other
  (∀ v k s x, v < 12 → 1 ≤ k → k < 8 → x = s.chip.trigWord v k →
    (s.chip.flag Fld.convTrig_en [v, k] = true → s.chip.gclk % bitsOf x 10 0 = bitsOf x 26 16 →
      exec (.triggerTick v k) s = .next { s with
        chip := (List.range 71).foldl (fun c l => c.tickAdc v k l)
          { s.chip with trigOld := s.chip.trigOld.filter fun p => p.1 != (v, k) } }) ∧
    (s.chip.flag Fld.convTrig_en [v, k] = false ∨ s.chip.gclk % bitsOf x 10 0 ≠ bitsOf x 26 16 →
      exec (.triggerTick v k) s = .next s)) ∧
  -- the entry that waits for the trigger starts, its discards taken
  (∀ (c : Chip) v k l e w, (c.adc v l).run = .trig e → c.flag Fld.convCtl_active [v, l] = true → w = c.seqWord v l e →
    seqTrig w.toNat = k → seqValid w.toNat = true →
    (c.adc v l).began + startDiscards w.toNat (c.lastGain v (c.physAdc v l)) ≤ c.gclk →
    c.tickAdc v k l =
      ((c.setRun v l (.entry e w ((c.adc v l).avgNew.contains e))).startConv v l w.toNat).discsDone v l) ∧
  -- ENTRY_START: the table's next entry starts, or waits for its trigger; an invalid one ends the table
  (∀ v l s x, v < 12 → l < 71 → (s.chip.adc v l).run = .idle → s.chip.flag Fld.convCtl_active [v, l] = true →
    (s.chip.adc v l).queue = [] → (s.chip.adc v l).cal = none → (s.chip.adc v l).next < 64 →
    x = s.chip.seqWord v l (s.chip.adc v l).next →
    ∃ u, exec (.entryStart v l) s = .next u ∧
      ((s.chip.adc v l).halting = false ∨ (s.chip.adc v l).redo = true → seqValid x.toNat = true →
        seqTrig x.toNat = 0 →
        (u.chip.adc v l).run = .entry (s.chip.adc v l).next x
          ((s.chip.adc v l).avgNew.contains (s.chip.adc v l).next) ∧
        u.chip.f Fld.convCtl_cur [v, l] = (s.chip.adc v l).next ∧ u.chip.f Fld.convCtl_busy [v, l] = 1) ∧
      ((s.chip.adc v l).halting = false ∨ (s.chip.adc v l).redo = true → seqValid x.toNat = true →
        seqTrig x.toNat ≠ 0 → (u.chip.adc v l).run = .trig (s.chip.adc v l).next) ∧
      ((s.chip.adc v l).halting = true ∧ (s.chip.adc v l).redo = false ∨ seqValid x.toNat = false →
        u.chip.f Fld.convCtl_active [v, l] = 0)) ∧
  -- ENTRY_OUTPUT: the accumulator takes the output of the kept samples
  (∀ v l xs fired s e w c0 o, v < 12 → l < 71 → (s.chip.adc v l).run = .entry e w false → seqStop w.toNat = false →
    (s.chip.adc v l).halting = false → c0 = s.chip.discsDone v l →
    o = c0.monitorOutput v l (c0.toneOf v l e w.toNat) w.toNat (firedSamples fired xs) →
    ∃ u, exec (.entryOutput v l xs fired) s = .next u ∧ u.chip.get { name := .convAcc, idx := [v, l, e] } =
        accWord (s.chip.get { name := .convAcc, idx := [v, l, e] }).toNat o.1.1 o.1.2 ∧
      (u.chip.adc v l).run = .idle ∧ (u.chip.adc v l).next = seqNext w.toNat % 64 ∧
      u.chip.gen (.monitor v) = o.2.gen (.monitor v)) ∧
  -- INJECTION_RUN: the first one queued runs; the entry it displaces is to start again
  (∀ v l kept s i q e w b, v < 12 → l < 71 → (s.chip.adc v l).queue = i :: q → (s.chip.adc v l).run = .entry e w b →
    ∃ u, exec (.injectionRun v l kept) s = .next u ∧ (u.chip.adc v l).run = .inj i ∧ (u.chip.adc v l).queue = q ∧
      (u.chip.adc v l).next = e ∧ (u.chip.adc v l).redo = true) ∧
  -- CAL_CONV_START
  (∀ v l kept b s x, v < 12 → l < 71 → (s.chip.adc v l).cal = some x → (s.chip.adc v l).run = .idle →
    (s.chip.adc v l).queue = [] →
    ∃ u, exec (.calConvStart v l kept b) s = .next u ∧ (u.chip.adc v l).run = .cal x ∧
      (u.chip.adc v l).cal = none) ∧
  -- INJECTED_OUTPUT of a command: its reply holds the word of CONV_INJ_ACC
  (∀ v l xs fired s x m, v < 12 → l < 71 → (s.chip.adc v l).run = .inj ⟨x, .cmd m⟩ →
    s.chip.longs = [{ op := 0x0701, cmd := m }] →
    ∃ u, exec (.injectedOutput v l xs fired) s = .next u ∧ (u.chip.adc v l).run = .idle ∧
      Answered s.chip u.chip 0x0701 m Status.ok 0 [u.chip.get { name := .convInjAcc, idx := [v, l] }])

/-- R204, R221, R222, R238 to R240, R253 to R258, R268, R272: direct channels, the sample clock, and the ticks and
time-outs of the loops. -/
def Obligations.LoopsAndChannelsTick : Prop :=
  (∀ v n s, chanOk v n = true → (s.chip.chan v n).held = true → (s.chip.chan v n).ranging = none →
    ∃ u, exec (.deglitchRelease v n) s = .next u ∧ (u.chip.chan v n).out = (s.chip.chan v n).given ∧
      (u.chip.chan v n).held = false ∧ u.chip.regs = s.chip.regs) ∧
  -- RANGE_HOLD_RELEASE of a change that stayed within one LSB
  (∀ v n s i0, chanOk v n = true → (s.chip.chan v n).ranging = some i0 →
    i0 ≤ 16384 * rangeLsb (s.chip.chan v n).range → s.chip.f Fld.drvCh_code [v, n] = (s.chip.chan v n).out →
    ∃ u, exec (.rangeHoldRelease v n) s = .next u ∧ u.chip.chan v n = { s.chip.chan v n with ranging := none } ∧
      u.chip.regs = s.chip.regs) ∧
  -- SAMPLE_CLOCK_CYCLE: the counter counts; seeds, tones and channels follow
  (∀ s, ∃ (c1 c2 : Chip), c1 = { s.chip with gclk := s.chip.gclk + 1 } ∧
    c2 = (List.range 12).foldl (fun c v => (List.range 16).foldl (fun c t => c.toneCycle v t) c) c1.loadGuySeeds ∧
    exec .sampleClockCycle s = .next { s with
      chip := (c2.chans.map fun p => p.1).foldl (fun c p => c.channelCycle p.1 p.2) c2 }) ∧
  -- LOOP_TICK at a count that is not the loop's, or out of its turn, is none
  (∀ v n s, loopOk v n = true → s.chip.ticksNow v n = false → exec (.loopTick v n) s = .next s) ∧
  -- a written entry of a free loop takes effect at its tick
  (∀ v n s c0 c1, loopOk v n = true → s.chip.valeDrained v = false → s.chip.ticksNow v n = true →
    s.chip.loopState v n = 0 → (s.chip.loop v n).fresh = true → (s.chip.loopWritten v n).kind ≠ 0 →
    c0 = { s.chip with ticked := Tab.set s.chip.ticked v (some (s.chip.gclk, n)) } →
    c1 = c0.startLoop v n (c0.loopWords v n) →
    exec (.loopTick v n) s = .next { s with
      chip := if c1.f Fld.guyGood_bankGood [v] = s.chip.f Fld.guyGood_bankGood [v] then c1
        else (List.range 16).foldl (fun c b => c.parkStray v b) c1 }) ∧
  -- LOOP_TICK without a new output: the tick is stale
  (∀ v n s c0 c1 c2 e q m, loopOk v n = true → s.chip.valeDrained v = false → s.chip.ticksNow v n = true →
    s.chip.loopState v n ≠ 0 → (s.chip.loop v n).fresh = false →
    c0 = { s.chip with ticked := Tab.set s.chip.ticked v (some (s.chip.gclk, n)) } →
    c1 = c0.count Fld.guyLstate_ticks [v, n] → e = c0.loopE v n → e.kind ≠ 6 →
    c1.latest v e.adc e.errEnt = some (q, m) → (c1.loop v n).lastSeq = some (e.errEnt, (c1.adc v e.adc).goes, q) →
    c2 = (c1.staleTick v n).capture v n (c1.sf Fld.guyLstate_err [v, n]) →
    exec (.loopTick v n) s = .next { s with
      chip := if c2.f Fld.guyGood_bankGood [v] = s.chip.f Fld.guyGood_bankGood [v] then c2
        else (List.range 16).foldl (fun c b => c.parkStray v b) c2 }) ∧
  -- with a new one the state's law runs, then lock-good, flank and coefficients
  (∀ v n s c0 c1 e q m, loopOk v n = true → s.chip.valeDrained v = false → s.chip.ticksNow v n = true →
    s.chip.loopState v n ≠ 0 → (s.chip.loop v n).fresh = false →
    c0 = { s.chip with ticked := Tab.set s.chip.ticked v (some (s.chip.gclk, n)) } →
    c1 = c0.count Fld.guyLstate_ticks [v, n] → e = c0.loopE v n → e.kind ≠ 6 →
    c1.latest v e.adc e.errEnt = some (q, m) → (c1.loop v n).lastSeq ≠ some (e.errEnt, (c1.adc v e.adc).goes, q) →
    ∃ (c2 c3 c4 c5 c6 c7 : Chip) (i : Int × Int × Chip) (err : Int) (st : Nat),
      c2 = ((c1.setLoop v n { c1.loop v n with lastSeq := some (e.errEnt, (c1.adc v e.adc).goes, q) }).setF
        Fld.guyLstate_stale [v, n] 0).advanceForecast v n e ∧
      i = c2.injection v n ∧ err = errorOf e m (e.target + i.2.1) ∧
      c3 = i.2.2.setF Fld.guyLstate_err [v, n] (fieldOf 24 (clampInt (-(2 ^ 23)) (2 ^ 23 - 1) err)) ∧
      st = c3.loopState v n ∧ c4 = c3.stateTick v n m err i.1 ∧
      c5 = (if st = 3 ∨ st = 4 ∨ st = 5 then c4.lockTick v n st (errorOf e m e.target) else c4) ∧
      c6 = (if st = 2 ∨ st = 3 then c5.flankTick v n m else c5) ∧
      c7 = (c6.swapCoefs v n err).capture v n err ∧
      exec (.loopTick v n) s = .next { s with
        chip := if c7.f Fld.guyGood_bankGood [v] = s.chip.f Fld.guyGood_bankGood [v] then c7
          else (List.range 16).foldl (fun c b => c.parkStray v b) c7 }) ∧
  -- LINE_STEP_EXPIRE: the selector settles at the power of its line
  (∀ v b s, v < 12 → b < 16 → s.chip.loopState v (1040 + 2 * b) = 6 →
    exec (.lineStepExpire v b) s = .next { s with
      chip := s.chip.enterSettle v (1040 + 2 * b)
        (s.chip.f Fld.guyLine_p0 [v, b, s.chip.f Fld.valeBank_line [v, b]]) 5 }) ∧
  (∀ v n s, loopOk v n = true → s.chip.loopState v n = 2 → (s.chip.loop v n).timing = true →
    exec (.acqFail v n) s = .next { s with chip := s.chip.acqFail v n }) ∧
  (∀ v s, v < 12 → s.chip.flag Fld.guyTestCtl_active [v] = true → s.chip.f Fld.guyTestCtl_sig [v] = 2 →
    s.chip.f Fld.guyTestDwell_steps [v] * s.chip.f Fld.guyTestDwell_dwell [v] ≤ (s.chip.loopTest v).ticks →
    ∃ u, exec (.testEnd v) s = .next u ∧ u.chip.f Fld.guyTestCtl_active [v] = 0 ∧ u.chip.mem = s.chip.mem)
end

