-- ==== Sys2Proof/Laws/Registers.lean ====
section
/-!
SUPPORT. Sys2Proof/Laws/Registers.lean: what sparse tables, register words and register fields do, once: a read
after a write gives what was written, and a write leaves every other place alone.
-/

namespace Sys2Proof.Machine

/-! ### Sparse tables -/

@[simp] theorem Tab.get_set_same {κ α : Type} [DecidableEq κ] (t : Tab κ α) (k : κ) (a d : α) :
    Tab.get (Tab.set t k a) k d = a := by
  induction t with
  | nil => simp [Tab.set, Tab.get]
  | cons p t ih =>
    obtain ⟨k', a'⟩ := p
    by_cases h : k = k' <;> simp [Tab.set, Tab.get, h, ih]

theorem Tab.get_set_other {κ α : Type} [DecidableEq κ] (t : Tab κ α) (k k' : κ) (a d : α) (h : k' ≠ k) :
    Tab.get (Tab.set t k a) k' d = Tab.get t k' d := by
  induction t with
  | nil => simp [Tab.set, Tab.get, h]
  | cons p t ih =>
    obtain ⟨k'', a'⟩ := p
    by_cases h1 : k = k''
    · subst h1; simp [Tab.set, Tab.get, h]
    · by_cases h2 : k' = k'' <;> simp [Tab.set, Tab.get, h1, h2, ih]

theorem Tab.get_set {κ α : Type} [DecidableEq κ] (t : Tab κ α) (k k' : κ) (a d : α) :
    Tab.get (Tab.set t k a) k' d = if k' = k then a else Tab.get t k' d := by
  by_cases h : k' = k
  · subst h; simp
  · simp [Tab.get_set_other _ _ _ _ _ h, h]

/-! ### Bit fields -/

theorem testBit_bitsOf (x hi lo i : Nat) :
    (bitsOf x hi lo).testBit i = (decide (i < hi + 1 - lo) && x.testBit (i + lo)) := by
  simp [bitsOf, Nat.testBit_mod_two_pow, Nat.testBit_div_two_pow]

theorem bitsOf_lt (x hi lo : Nat) : bitsOf x hi lo < 2 ^ (hi + 1 - lo) := Nat.mod_lt _ (Nat.two_pow_pos _)

/-- A word with bits [hi:lo] replaced, as a sum of what lies above, the field, and what lies below. -/
theorem setBits_split (y hi lo n : Nat) (h : lo ≤ hi) :
    y - bitsOf y hi lo * 2 ^ lo + n % 2 ^ (hi + 1 - lo) * 2 ^ lo =
      2 ^ (hi + 1) * (y / 2 ^ (hi + 1)) + (2 ^ lo * (n % 2 ^ (hi + 1 - lo)) + y % 2 ^ lo) := by
  have hp : 2 ^ (hi + 1) = 2 ^ lo * 2 ^ (hi + 1 - lo) := by rw [← pow_add]; congr 1; omega
  have h1 : y = 2 ^ (hi + 1) * (y / 2 ^ (hi + 1)) + (2 ^ lo * bitsOf y hi lo + y % 2 ^ lo) := by
    have a := Nat.div_add_mod y (2 ^ lo)
    have b := Nat.div_add_mod (y / 2 ^ lo) (2 ^ (hi + 1 - lo))
    rw [Nat.div_div_eq_div_mul, ← hp] at b
    calc y = 2 ^ lo * (y / 2 ^ lo) + y % 2 ^ lo := a.symm
      _ = 2 ^ lo * (2 ^ (hi + 1 - lo) * (y / 2 ^ (hi + 1)) + bitsOf y hi lo) + y % 2 ^ lo := by
          rw [show bitsOf y hi lo = y / 2 ^ lo % 2 ^ (hi + 1 - lo) from rfl, b]
      _ = _ := by rw [hp]; ring
  set q := 2 ^ (hi + 1) * (y / 2 ^ (hi + 1)) with hq
  set r := y % 2 ^ lo with hr
  set b := bitsOf y hi lo with hb
  have h2 : y - b * 2 ^ lo = q + r := by rw [Nat.mul_comm b]; omega
  rw [h2, Nat.mul_comm (n % 2 ^ (hi + 1 - lo))]; omega

theorem testBit_setBits (x : Word) (hi lo n i : Nat) (h : lo ≤ hi) (hw : hi < 64) :
    (setBits x hi lo n).toNat.testBit i =
      if lo ≤ i ∧ i ≤ hi then n.testBit (i - lo) else x.toNat.testBit i := by
  have hb : (2 ^ lo * (n % 2 ^ (hi + 1 - lo)) + x.toNat % 2 ^ lo) < 2 ^ (hi + 1) := by
    have h1 : n % 2 ^ (hi + 1 - lo) < 2 ^ (hi + 1 - lo) := Nat.mod_lt _ (Nat.two_pow_pos _)
    have h2 : x.toNat % 2 ^ lo < 2 ^ lo := Nat.mod_lt _ (Nat.two_pow_pos _)
    have hp : 2 ^ (hi + 1) = 2 ^ lo * 2 ^ (hi + 1 - lo) := by rw [← pow_add]; congr 1; omega
    rw [hp]
    calc _ < 2 ^ lo * (n % 2 ^ (hi + 1 - lo)) + 2 ^ lo := by omega
      _ = 2 ^ lo * (n % 2 ^ (hi + 1 - lo) + 1) := by ring
      _ ≤ _ := Nat.mul_le_mul_left _ h1
  have h2 : x.toNat % 2 ^ lo < 2 ^ lo := Nat.mod_lt _ (Nat.two_pow_pos _)
  simp only [setBits, BitVec.toNat_ofNat, setBits_split _ _ _ _ h, Nat.testBit_mod_two_pow,
    Nat.testBit_two_pow_mul_add _ hb, Nat.testBit_two_pow_mul_add _ h2, Nat.testBit_div_two_pow]
  have hx : ∀ j, 64 ≤ j → x.toNat.testBit j = false := fun j hj =>
    Nat.testBit_lt_two_pow (lt_of_lt_of_le x.isLt (Nat.pow_le_pow_right (by norm_num) hj))
  by_cases c1 : i < lo
  · have : ¬ lo ≤ i := by omega
    have c3 : i < hi + 1 := by omega
    have c4 : i < 64 := by omega
    simp [this, Nat.lt_of_not_le this, c3, c4]
  · by_cases c2 : i < hi + 1
    · have e : lo ≤ i ∧ i ≤ hi := by omega
      have e2 : i - lo < hi + 1 - lo := by omega
      simp [c1, c2, e, e2]; omega
    · have e : ¬ (lo ≤ i ∧ i ≤ hi) := by omega
      have e2 : i - (hi + 1) + (hi + 1) = i := by omega
      simp [c2, e, e2]
      intro hb
      by_contra h64
      rw [hx i (by omega)] at hb
      exact Bool.noConfusion hb

/-- The field that was set. -/
theorem bitsOf_setBits_same (x : Word) (hi lo n : Nat) (h : lo ≤ hi) (hw : hi < 64) :
    bitsOf (setBits x hi lo n).toNat hi lo = n % 2 ^ (hi + 1 - lo) := by
  apply Nat.eq_of_testBit_eq
  intro i
  rw [testBit_bitsOf, testBit_setBits _ _ _ _ _ h hw, Nat.testBit_mod_two_pow]
  by_cases c : i < hi + 1 - lo
  · have : lo ≤ i + lo ∧ i + lo ≤ hi := by omega
    simp [c, this]
  · simp [c]

/-- A field beside the one that was set. -/
theorem bitsOf_setBits_other (x : Word) (hi lo n hi' lo' : Nat) (h : lo ≤ hi) (hw : hi < 64)
    (hd : hi < lo' ∨ hi' < lo) :
    bitsOf (setBits x hi lo n).toNat hi' lo' = bitsOf x.toNat hi' lo' := by
  apply Nat.eq_of_testBit_eq
  intro i
  rw [testBit_bitsOf, testBit_bitsOf, testBit_setBits _ _ _ _ _ h hw]
  by_cases c : i < hi' + 1 - lo'
  · have : ¬ (lo ≤ i + lo' ∧ i + lo' ≤ hi) := by omega
    simp [c, this]
  · simp [c]

/-! ### Register words and fields -/

@[simp] theorem Chip.get_put_same (c : Chip) (r : Reg) (x : Word) : (c.put r x).get r = x := by
  simp [Chip.put, Chip.get]

theorem Chip.get_put_other (c : Chip) (r r' : Reg) (x : Word) (h : r' ≠ r) : (c.put r x).get r' = c.get r' := by
  exact Tab.get_set_other _ _ _ _ _ h

theorem Chip.get_put (c : Chip) (r r' : Reg) (x : Word) :
    (c.put r x).get r' = if r' = r then x else c.get r' := by
  by_cases h : r' = r
  · subst h; simp
  · simp [Chip.get_put_other _ _ _ _ h, h]

/-- A field reads what was set, cut to its width. -/
theorem Chip.f_setF_same (c : Chip) (fl : Fld) (idx : List Nat) (n : Nat) (h : fl.lo ≤ fl.hi) (hw : fl.hi < 64) :
    (c.setF fl idx n).f fl idx = n % 2 ^ (fl.hi + 1 - fl.lo) := by
  simp [Chip.setF, Chip.f, bitsOf_setBits_same _ _ _ _ h hw]

/-- A field of another register word, or one beside the field set, is unchanged. -/
theorem Chip.f_setF_other (c : Chip) (fl fl' : Fld) (idx idx' : List Nat) (n : Nat) (h : fl.lo ≤ fl.hi)
    (hw : fl.hi < 64) (hd : fldReg fl' idx' ≠ fldReg fl idx ∨ fl.hi < fl'.lo ∨ fl'.hi < fl.lo) :
    (c.setF fl idx n).f fl' idx' = c.f fl' idx' := by
  by_cases e : fldReg fl' idx' = fldReg fl idx
  · have hd' : fl.hi < fl'.lo ∨ fl'.hi < fl.lo := by
      rcases hd with h | h
      · exact absurd e h
      · exact h
    simp [Chip.setF, Chip.f, e, bitsOf_setBits_other _ _ _ _ _ _ h hw hd']
  · simp [Chip.setF, Chip.f, Chip.get_put_other _ _ _ _ e]

end Sys2Proof.Machine
end

