-- ==== Sys2Proof/Laws/State.lean ====
section
/-!
SUPPORT. Sys2Proof/Laws/State.lean: what each named update of the device leaves alone, one lemma per field and update.
-/

namespace Sys2Proof.Machine

/-! ### Chip.put -/

@[simp] theorem Chip.put_device (c : Chip) (r : Reg) (x : Word) : (c.put r x).device = c.device := rfl
@[simp] theorem Chip.put_marks (c : Chip) (r : Reg) (x : Word) : (c.put r x).marks = c.marks := rfl
@[simp] theorem Chip.put_mem (c : Chip) (r : Reg) (x : Word) : (c.put r x).mem = c.mem := rfl
@[simp] theorem Chip.put_outs (c : Chip) (r : Reg) (x : Word) : (c.put r x).outs = c.outs := rfl
@[simp] theorem Chip.put_free (c : Chip) (r : Reg) (x : Word) : (c.put r x).free = c.free := rfl
@[simp] theorem Chip.put_boots (c : Chip) (r : Reg) (x : Word) : (c.put r x).boots = c.boots := rfl
@[simp] theorem Chip.put_gens (c : Chip) (r : Reg) (x : Word) : (c.put r x).gens = c.gens := rfl
@[simp] theorem Chip.put_gclk (c : Chip) (r : Reg) (x : Word) : (c.put r x).gclk = c.gclk := rfl
@[simp] theorem Chip.put_bud (c : Chip) (r : Reg) (x : Word) : (c.put r x).bud = c.bud := rfl
@[simp] theorem Chip.put_msgs (c : Chip) (r : Reg) (x : Word) : (c.put r x).msgs = c.msgs := rfl
@[simp] theorem Chip.put_mpq (c : Chip) (r : Reg) (x : Word) : (c.put r x).mpq = c.mpq := rfl
@[simp] theorem Chip.put_longs (c : Chip) (r : Reg) (x : Word) : (c.put r x).longs = c.longs := rfl
@[simp] theorem Chip.put_link (c : Chip) (r : Reg) (x : Word) : (c.put r x).link = c.link := rfl
@[simp] theorem Chip.put_reads (c : Chip) (r : Reg) (x : Word) : (c.put r x).reads = c.reads := rfl
@[simp] theorem Chip.put_dales (c : Chip) (r : Reg) (x : Word) : (c.put r x).dales = c.dales := rfl
@[simp] theorem Chip.put_banks (c : Chip) (r : Reg) (x : Word) : (c.put r x).banks = c.banks := rfl
@[simp] theorem Chip.put_adcs (c : Chip) (r : Reg) (x : Word) : (c.put r x).adcs = c.adcs := rfl
@[simp] theorem Chip.put_adcGain (c : Chip) (r : Reg) (x : Word) : (c.put r x).adcGain = c.adcGain := rfl
@[simp] theorem Chip.put_throttle (c : Chip) (r : Reg) (x : Word) : (c.put r x).throttle = c.throttle := rfl
@[simp] theorem Chip.put_chans (c : Chip) (r : Reg) (x : Word) : (c.put r x).chans = c.chans := rfl
@[simp] theorem Chip.put_units (c : Chip) (r : Reg) (x : Word) : (c.put r x).units = c.units := rfl
@[simp] theorem Chip.put_tones (c : Chip) (r : Reg) (x : Word) : (c.put r x).tones = c.tones := rfl
@[simp] theorem Chip.put_loops (c : Chip) (r : Reg) (x : Word) : (c.put r x).loops = c.loops := rfl
@[simp] theorem Chip.put_tests (c : Chip) (r : Reg) (x : Word) : (c.put r x).tests = c.tests := rfl
@[simp] theorem Chip.put_ticked (c : Chip) (r : Reg) (x : Word) : (c.put r x).ticked = c.ticked := rfl
@[simp] theorem Chip.put_spareFor (c : Chip) (r : Reg) (x : Word) : (c.put r x).spareFor = c.spareFor := rfl
@[simp] theorem Chip.put_capLeft (c : Chip) (r : Reg) (x : Word) : (c.put r x).capLeft = c.capLeft := rfl
@[simp] theorem Chip.put_guySeed (c : Chip) (r : Reg) (x : Word) : (c.put r x).guySeed = c.guySeed := rfl
@[simp] theorem Chip.put_trkLive (c : Chip) (r : Reg) (x : Word) : (c.put r x).trkLive = c.trkLive := rfl
@[simp] theorem Chip.put_hkAvgNew (c : Chip) (r : Reg) (x : Word) : (c.put r x).hkAvgNew = c.hkAvgNew := rfl
@[simp] theorem Chip.put_toneStart (c : Chip) (r : Reg) (x : Word) : (c.put r x).toneStart = c.toneStart := rfl
@[simp] theorem Chip.put_toneLog (c : Chip) (r : Reg) (x : Word) : (c.put r x).toneLog = c.toneLog := rfl
@[simp] theorem Chip.put_trigOld (c : Chip) (r : Reg) (x : Word) : (c.put r x).trigOld = c.trigOld := rfl
@[simp] theorem Chip.put_pairLink (c : Chip) (r : Reg) (x : Word) : (c.put r x).pairLink = c.pairLink := rfl
@[simp] theorem Chip.put_slots (c : Chip) (r : Reg) (x : Word) : (c.put r x).slots = c.slots := rfl
@[simp] theorem Chip.put_radio (c : Chip) (r : Reg) (x : Word) : (c.put r x).radio = c.radio := rfl
@[simp] theorem Chip.put_recs (c : Chip) (r : Reg) (x : Word) : (c.put r x).recs = c.recs := rfl
@[simp] theorem Chip.put_loaded (c : Chip) (r : Reg) (x : Word) : (c.put r x).loaded = c.loaded := rfl
@[simp] theorem Chip.put_cores (c : Chip) (r : Reg) (x : Word) : (c.put r x).cores = c.cores := rfl
@[simp] theorem Chip.put_arrs (c : Chip) (r : Reg) (x : Word) : (c.put r x).arrs = c.arrs := rfl
@[simp] theorem Chip.put_velds (c : Chip) (r : Reg) (x : Word) : (c.put r x).velds = c.velds := rfl
@[simp] theorem Chip.put_tents (c : Chip) (r : Reg) (x : Word) : (c.put r x).tents = c.tents := rfl
@[simp] theorem Chip.put_tentWaits (c : Chip) (r : Reg) (x : Word) : (c.put r x).tentWaits = c.tentWaits := rfl
@[simp] theorem Chip.put_passes (c : Chip) (r : Reg) (x : Word) : (c.put r x).passes = c.passes := rfl
@[simp] theorem Chip.put_bankA (c : Chip) (r : Reg) (x : Word) : (c.put r x).bankA = c.bankA := rfl
@[simp] theorem Chip.put_bankB (c : Chip) (r : Reg) (x : Word) : (c.put r x).bankB = c.bankB := rfl
@[simp] theorem Chip.put_current (c : Chip) (r : Reg) (x : Word) : (c.put r x).current = c.current := rfl
@[simp] theorem Chip.put_fws (c : Chip) (r : Reg) (x : Word) : (c.put r x).fws = c.fws := rfl
@[simp] theorem Chip.put_rollback (c : Chip) (r : Reg) (x : Word) : (c.put r x).rollback = c.rollback := rfl
@[simp] theorem Chip.put_drains (c : Chip) (r : Reg) (x : Word) : (c.put r x).drains = c.drains := rfl
@[simp] theorem Chip.put_boot (c : Chip) (r : Reg) (x : Word) : (c.put r x).boot = c.boot := rfl
@[simp] theorem Chip.put_coderJobs (c : Chip) (r : Reg) (x : Word) : (c.put r x).coderJobs = c.coderJobs := rfl
@[simp] theorem Chip.put_coderNext (c : Chip) (r : Reg) (x : Word) : (c.put r x).coderNext = c.coderNext := rfl
@[simp] theorem Chip.put_submits (c : Chip) (r : Reg) (x : Word) : (c.put r x).submits = c.submits := rfl
@[simp] theorem Chip.put_harqs (c : Chip) (r : Reg) (x : Word) : (c.put r x).harqs = c.harqs := rfl
@[simp] theorem Chip.put_sweeps (c : Chip) (r : Reg) (x : Word) : (c.put r x).sweeps = c.sweeps := rfl
@[simp] theorem Chip.put_decCredit (c : Chip) (r : Reg) (x : Word) : (c.put r x).decCredit = c.decCredit := rfl
@[simp] theorem Chip.put_encCredit (c : Chip) (r : Reg) (x : Word) : (c.put r x).encCredit = c.encCredit := rfl
@[simp] theorem Chip.put_msgLast (c : Chip) (r : Reg) (x : Word) : (c.put r x).msgLast = c.msgLast := rfl
@[simp] theorem Chip.put_valeCals (c : Chip) (r : Reg) (x : Word) : (c.put r x).valeCals = c.valeCals := rfl
@[simp] theorem Chip.put_hkTrims (c : Chip) (r : Reg) (x : Word) : (c.put r x).hkTrims = c.hkTrims := rfl
@[simp] theorem Chip.put_hkStamp (c : Chip) (r : Reg) (x : Word) : (c.put r x).hkStamp = c.hkStamp := rfl
@[simp] theorem Chip.put_heat (c : Chip) (r : Reg) (x : Word) : (c.put r x).heat = c.heat := rfl
@[simp] theorem Chip.put_act (c : Chip) (r : Reg) (x : Word) : (c.put r x).act = c.act := rfl
@[simp] theorem Chip.put_actSeq (c : Chip) (r : Reg) (x : Word) : (c.put r x).actSeq = c.actSeq := rfl
@[simp] theorem Chip.put_cursors (c : Chip) (r : Reg) (x : Word) : (c.put r x).cursors = c.cursors := rfl

/-! ### Chip.setF -/

@[simp] theorem Chip.setF_device (c : Chip) (fl : Fld) (idx : List Nat) (n : Nat) : (c.setF fl idx n).device = c.device := rfl
@[simp] theorem Chip.setF_marks (c : Chip) (fl : Fld) (idx : List Nat) (n : Nat) : (c.setF fl idx n).marks = c.marks := rfl
@[simp] theorem Chip.setF_mem (c : Chip) (fl : Fld) (idx : List Nat) (n : Nat) : (c.setF fl idx n).mem = c.mem := rfl
@[simp] theorem Chip.setF_outs (c : Chip) (fl : Fld) (idx : List Nat) (n : Nat) : (c.setF fl idx n).outs = c.outs := rfl
@[simp] theorem Chip.setF_free (c : Chip) (fl : Fld) (idx : List Nat) (n : Nat) : (c.setF fl idx n).free = c.free := rfl
@[simp] theorem Chip.setF_boots (c : Chip) (fl : Fld) (idx : List Nat) (n : Nat) : (c.setF fl idx n).boots = c.boots := rfl
@[simp] theorem Chip.setF_gens (c : Chip) (fl : Fld) (idx : List Nat) (n : Nat) : (c.setF fl idx n).gens = c.gens := rfl
@[simp] theorem Chip.setF_gclk (c : Chip) (fl : Fld) (idx : List Nat) (n : Nat) : (c.setF fl idx n).gclk = c.gclk := rfl
@[simp] theorem Chip.setF_bud (c : Chip) (fl : Fld) (idx : List Nat) (n : Nat) : (c.setF fl idx n).bud = c.bud := rfl
@[simp] theorem Chip.setF_msgs (c : Chip) (fl : Fld) (idx : List Nat) (n : Nat) : (c.setF fl idx n).msgs = c.msgs := rfl
@[simp] theorem Chip.setF_mpq (c : Chip) (fl : Fld) (idx : List Nat) (n : Nat) : (c.setF fl idx n).mpq = c.mpq := rfl
@[simp] theorem Chip.setF_longs (c : Chip) (fl : Fld) (idx : List Nat) (n : Nat) : (c.setF fl idx n).longs = c.longs := rfl
@[simp] theorem Chip.setF_link (c : Chip) (fl : Fld) (idx : List Nat) (n : Nat) : (c.setF fl idx n).link = c.link := rfl
@[simp] theorem Chip.setF_reads (c : Chip) (fl : Fld) (idx : List Nat) (n : Nat) : (c.setF fl idx n).reads = c.reads := rfl
@[simp] theorem Chip.setF_dales (c : Chip) (fl : Fld) (idx : List Nat) (n : Nat) : (c.setF fl idx n).dales = c.dales := rfl
@[simp] theorem Chip.setF_banks (c : Chip) (fl : Fld) (idx : List Nat) (n : Nat) : (c.setF fl idx n).banks = c.banks := rfl
@[simp] theorem Chip.setF_adcs (c : Chip) (fl : Fld) (idx : List Nat) (n : Nat) : (c.setF fl idx n).adcs = c.adcs := rfl
@[simp] theorem Chip.setF_adcGain (c : Chip) (fl : Fld) (idx : List Nat) (n : Nat) : (c.setF fl idx n).adcGain = c.adcGain := rfl
@[simp] theorem Chip.setF_throttle (c : Chip) (fl : Fld) (idx : List Nat) (n : Nat) : (c.setF fl idx n).throttle = c.throttle := rfl
@[simp] theorem Chip.setF_chans (c : Chip) (fl : Fld) (idx : List Nat) (n : Nat) : (c.setF fl idx n).chans = c.chans := rfl
@[simp] theorem Chip.setF_units (c : Chip) (fl : Fld) (idx : List Nat) (n : Nat) : (c.setF fl idx n).units = c.units := rfl
@[simp] theorem Chip.setF_tones (c : Chip) (fl : Fld) (idx : List Nat) (n : Nat) : (c.setF fl idx n).tones = c.tones := rfl
@[simp] theorem Chip.setF_loops (c : Chip) (fl : Fld) (idx : List Nat) (n : Nat) : (c.setF fl idx n).loops = c.loops := rfl
@[simp] theorem Chip.setF_tests (c : Chip) (fl : Fld) (idx : List Nat) (n : Nat) : (c.setF fl idx n).tests = c.tests := rfl
@[simp] theorem Chip.setF_ticked (c : Chip) (fl : Fld) (idx : List Nat) (n : Nat) : (c.setF fl idx n).ticked = c.ticked := rfl
@[simp] theorem Chip.setF_spareFor (c : Chip) (fl : Fld) (idx : List Nat) (n : Nat) : (c.setF fl idx n).spareFor = c.spareFor := rfl
@[simp] theorem Chip.setF_capLeft (c : Chip) (fl : Fld) (idx : List Nat) (n : Nat) : (c.setF fl idx n).capLeft = c.capLeft := rfl
@[simp] theorem Chip.setF_guySeed (c : Chip) (fl : Fld) (idx : List Nat) (n : Nat) : (c.setF fl idx n).guySeed = c.guySeed := rfl
@[simp] theorem Chip.setF_trkLive (c : Chip) (fl : Fld) (idx : List Nat) (n : Nat) : (c.setF fl idx n).trkLive = c.trkLive := rfl
@[simp] theorem Chip.setF_hkAvgNew (c : Chip) (fl : Fld) (idx : List Nat) (n : Nat) : (c.setF fl idx n).hkAvgNew = c.hkAvgNew := rfl
@[simp] theorem Chip.setF_toneStart (c : Chip) (fl : Fld) (idx : List Nat) (n : Nat) : (c.setF fl idx n).toneStart = c.toneStart := rfl
@[simp] theorem Chip.setF_toneLog (c : Chip) (fl : Fld) (idx : List Nat) (n : Nat) : (c.setF fl idx n).toneLog = c.toneLog := rfl
@[simp] theorem Chip.setF_trigOld (c : Chip) (fl : Fld) (idx : List Nat) (n : Nat) : (c.setF fl idx n).trigOld = c.trigOld := rfl
@[simp] theorem Chip.setF_pairLink (c : Chip) (fl : Fld) (idx : List Nat) (n : Nat) : (c.setF fl idx n).pairLink = c.pairLink := rfl
@[simp] theorem Chip.setF_slots (c : Chip) (fl : Fld) (idx : List Nat) (n : Nat) : (c.setF fl idx n).slots = c.slots := rfl
@[simp] theorem Chip.setF_radio (c : Chip) (fl : Fld) (idx : List Nat) (n : Nat) : (c.setF fl idx n).radio = c.radio := rfl
@[simp] theorem Chip.setF_recs (c : Chip) (fl : Fld) (idx : List Nat) (n : Nat) : (c.setF fl idx n).recs = c.recs := rfl
@[simp] theorem Chip.setF_loaded (c : Chip) (fl : Fld) (idx : List Nat) (n : Nat) : (c.setF fl idx n).loaded = c.loaded := rfl
@[simp] theorem Chip.setF_cores (c : Chip) (fl : Fld) (idx : List Nat) (n : Nat) : (c.setF fl idx n).cores = c.cores := rfl
@[simp] theorem Chip.setF_arrs (c : Chip) (fl : Fld) (idx : List Nat) (n : Nat) : (c.setF fl idx n).arrs = c.arrs := rfl
@[simp] theorem Chip.setF_velds (c : Chip) (fl : Fld) (idx : List Nat) (n : Nat) : (c.setF fl idx n).velds = c.velds := rfl
@[simp] theorem Chip.setF_tents (c : Chip) (fl : Fld) (idx : List Nat) (n : Nat) : (c.setF fl idx n).tents = c.tents := rfl
@[simp] theorem Chip.setF_tentWaits (c : Chip) (fl : Fld) (idx : List Nat) (n : Nat) : (c.setF fl idx n).tentWaits = c.tentWaits := rfl
@[simp] theorem Chip.setF_passes (c : Chip) (fl : Fld) (idx : List Nat) (n : Nat) : (c.setF fl idx n).passes = c.passes := rfl
@[simp] theorem Chip.setF_bankA (c : Chip) (fl : Fld) (idx : List Nat) (n : Nat) : (c.setF fl idx n).bankA = c.bankA := rfl
@[simp] theorem Chip.setF_bankB (c : Chip) (fl : Fld) (idx : List Nat) (n : Nat) : (c.setF fl idx n).bankB = c.bankB := rfl
@[simp] theorem Chip.setF_current (c : Chip) (fl : Fld) (idx : List Nat) (n : Nat) : (c.setF fl idx n).current = c.current := rfl
@[simp] theorem Chip.setF_fws (c : Chip) (fl : Fld) (idx : List Nat) (n : Nat) : (c.setF fl idx n).fws = c.fws := rfl
@[simp] theorem Chip.setF_rollback (c : Chip) (fl : Fld) (idx : List Nat) (n : Nat) : (c.setF fl idx n).rollback = c.rollback := rfl
@[simp] theorem Chip.setF_drains (c : Chip) (fl : Fld) (idx : List Nat) (n : Nat) : (c.setF fl idx n).drains = c.drains := rfl
@[simp] theorem Chip.setF_boot (c : Chip) (fl : Fld) (idx : List Nat) (n : Nat) : (c.setF fl idx n).boot = c.boot := rfl
@[simp] theorem Chip.setF_coderJobs (c : Chip) (fl : Fld) (idx : List Nat) (n : Nat) : (c.setF fl idx n).coderJobs = c.coderJobs := rfl
@[simp] theorem Chip.setF_coderNext (c : Chip) (fl : Fld) (idx : List Nat) (n : Nat) : (c.setF fl idx n).coderNext = c.coderNext := rfl
@[simp] theorem Chip.setF_submits (c : Chip) (fl : Fld) (idx : List Nat) (n : Nat) : (c.setF fl idx n).submits = c.submits := rfl
@[simp] theorem Chip.setF_harqs (c : Chip) (fl : Fld) (idx : List Nat) (n : Nat) : (c.setF fl idx n).harqs = c.harqs := rfl
@[simp] theorem Chip.setF_sweeps (c : Chip) (fl : Fld) (idx : List Nat) (n : Nat) : (c.setF fl idx n).sweeps = c.sweeps := rfl
@[simp] theorem Chip.setF_decCredit (c : Chip) (fl : Fld) (idx : List Nat) (n : Nat) : (c.setF fl idx n).decCredit = c.decCredit := rfl
@[simp] theorem Chip.setF_encCredit (c : Chip) (fl : Fld) (idx : List Nat) (n : Nat) : (c.setF fl idx n).encCredit = c.encCredit := rfl
@[simp] theorem Chip.setF_msgLast (c : Chip) (fl : Fld) (idx : List Nat) (n : Nat) : (c.setF fl idx n).msgLast = c.msgLast := rfl
@[simp] theorem Chip.setF_valeCals (c : Chip) (fl : Fld) (idx : List Nat) (n : Nat) : (c.setF fl idx n).valeCals = c.valeCals := rfl
@[simp] theorem Chip.setF_hkTrims (c : Chip) (fl : Fld) (idx : List Nat) (n : Nat) : (c.setF fl idx n).hkTrims = c.hkTrims := rfl
@[simp] theorem Chip.setF_hkStamp (c : Chip) (fl : Fld) (idx : List Nat) (n : Nat) : (c.setF fl idx n).hkStamp = c.hkStamp := rfl
@[simp] theorem Chip.setF_heat (c : Chip) (fl : Fld) (idx : List Nat) (n : Nat) : (c.setF fl idx n).heat = c.heat := rfl
@[simp] theorem Chip.setF_act (c : Chip) (fl : Fld) (idx : List Nat) (n : Nat) : (c.setF fl idx n).act = c.act := rfl
@[simp] theorem Chip.setF_actSeq (c : Chip) (fl : Fld) (idx : List Nat) (n : Nat) : (c.setF fl idx n).actSeq = c.actSeq := rfl
@[simp] theorem Chip.setF_cursors (c : Chip) (fl : Fld) (idx : List Nat) (n : Nat) : (c.setF fl idx n).cursors = c.cursors := rfl

/-! ### Chip.count -/

@[simp] theorem Chip.count_device (c : Chip) (fl : Fld) (idx : List Nat) (n : Nat) : (c.count fl idx n).device = c.device := rfl
@[simp] theorem Chip.count_marks (c : Chip) (fl : Fld) (idx : List Nat) (n : Nat) : (c.count fl idx n).marks = c.marks := rfl
@[simp] theorem Chip.count_mem (c : Chip) (fl : Fld) (idx : List Nat) (n : Nat) : (c.count fl idx n).mem = c.mem := rfl
@[simp] theorem Chip.count_outs (c : Chip) (fl : Fld) (idx : List Nat) (n : Nat) : (c.count fl idx n).outs = c.outs := rfl
@[simp] theorem Chip.count_free (c : Chip) (fl : Fld) (idx : List Nat) (n : Nat) : (c.count fl idx n).free = c.free := rfl
@[simp] theorem Chip.count_boots (c : Chip) (fl : Fld) (idx : List Nat) (n : Nat) : (c.count fl idx n).boots = c.boots := rfl
@[simp] theorem Chip.count_gens (c : Chip) (fl : Fld) (idx : List Nat) (n : Nat) : (c.count fl idx n).gens = c.gens := rfl
@[simp] theorem Chip.count_gclk (c : Chip) (fl : Fld) (idx : List Nat) (n : Nat) : (c.count fl idx n).gclk = c.gclk := rfl
@[simp] theorem Chip.count_bud (c : Chip) (fl : Fld) (idx : List Nat) (n : Nat) : (c.count fl idx n).bud = c.bud := rfl
@[simp] theorem Chip.count_msgs (c : Chip) (fl : Fld) (idx : List Nat) (n : Nat) : (c.count fl idx n).msgs = c.msgs := rfl
@[simp] theorem Chip.count_mpq (c : Chip) (fl : Fld) (idx : List Nat) (n : Nat) : (c.count fl idx n).mpq = c.mpq := rfl
@[simp] theorem Chip.count_longs (c : Chip) (fl : Fld) (idx : List Nat) (n : Nat) : (c.count fl idx n).longs = c.longs := rfl
@[simp] theorem Chip.count_link (c : Chip) (fl : Fld) (idx : List Nat) (n : Nat) : (c.count fl idx n).link = c.link := rfl
@[simp] theorem Chip.count_reads (c : Chip) (fl : Fld) (idx : List Nat) (n : Nat) : (c.count fl idx n).reads = c.reads := rfl
@[simp] theorem Chip.count_dales (c : Chip) (fl : Fld) (idx : List Nat) (n : Nat) : (c.count fl idx n).dales = c.dales := rfl
@[simp] theorem Chip.count_banks (c : Chip) (fl : Fld) (idx : List Nat) (n : Nat) : (c.count fl idx n).banks = c.banks := rfl
@[simp] theorem Chip.count_adcs (c : Chip) (fl : Fld) (idx : List Nat) (n : Nat) : (c.count fl idx n).adcs = c.adcs := rfl
@[simp] theorem Chip.count_adcGain (c : Chip) (fl : Fld) (idx : List Nat) (n : Nat) : (c.count fl idx n).adcGain = c.adcGain := rfl
@[simp] theorem Chip.count_throttle (c : Chip) (fl : Fld) (idx : List Nat) (n : Nat) : (c.count fl idx n).throttle = c.throttle := rfl
@[simp] theorem Chip.count_chans (c : Chip) (fl : Fld) (idx : List Nat) (n : Nat) : (c.count fl idx n).chans = c.chans := rfl
@[simp] theorem Chip.count_units (c : Chip) (fl : Fld) (idx : List Nat) (n : Nat) : (c.count fl idx n).units = c.units := rfl
@[simp] theorem Chip.count_tones (c : Chip) (fl : Fld) (idx : List Nat) (n : Nat) : (c.count fl idx n).tones = c.tones := rfl
@[simp] theorem Chip.count_loops (c : Chip) (fl : Fld) (idx : List Nat) (n : Nat) : (c.count fl idx n).loops = c.loops := rfl
@[simp] theorem Chip.count_tests (c : Chip) (fl : Fld) (idx : List Nat) (n : Nat) : (c.count fl idx n).tests = c.tests := rfl
@[simp] theorem Chip.count_ticked (c : Chip) (fl : Fld) (idx : List Nat) (n : Nat) : (c.count fl idx n).ticked = c.ticked := rfl
@[simp] theorem Chip.count_spareFor (c : Chip) (fl : Fld) (idx : List Nat) (n : Nat) : (c.count fl idx n).spareFor = c.spareFor := rfl
@[simp] theorem Chip.count_capLeft (c : Chip) (fl : Fld) (idx : List Nat) (n : Nat) : (c.count fl idx n).capLeft = c.capLeft := rfl
@[simp] theorem Chip.count_guySeed (c : Chip) (fl : Fld) (idx : List Nat) (n : Nat) : (c.count fl idx n).guySeed = c.guySeed := rfl
@[simp] theorem Chip.count_trkLive (c : Chip) (fl : Fld) (idx : List Nat) (n : Nat) : (c.count fl idx n).trkLive = c.trkLive := rfl
@[simp] theorem Chip.count_hkAvgNew (c : Chip) (fl : Fld) (idx : List Nat) (n : Nat) : (c.count fl idx n).hkAvgNew = c.hkAvgNew := rfl
@[simp] theorem Chip.count_toneStart (c : Chip) (fl : Fld) (idx : List Nat) (n : Nat) : (c.count fl idx n).toneStart = c.toneStart := rfl
@[simp] theorem Chip.count_toneLog (c : Chip) (fl : Fld) (idx : List Nat) (n : Nat) : (c.count fl idx n).toneLog = c.toneLog := rfl
@[simp] theorem Chip.count_trigOld (c : Chip) (fl : Fld) (idx : List Nat) (n : Nat) : (c.count fl idx n).trigOld = c.trigOld := rfl
@[simp] theorem Chip.count_pairLink (c : Chip) (fl : Fld) (idx : List Nat) (n : Nat) : (c.count fl idx n).pairLink = c.pairLink := rfl
@[simp] theorem Chip.count_slots (c : Chip) (fl : Fld) (idx : List Nat) (n : Nat) : (c.count fl idx n).slots = c.slots := rfl
@[simp] theorem Chip.count_radio (c : Chip) (fl : Fld) (idx : List Nat) (n : Nat) : (c.count fl idx n).radio = c.radio := rfl
@[simp] theorem Chip.count_recs (c : Chip) (fl : Fld) (idx : List Nat) (n : Nat) : (c.count fl idx n).recs = c.recs := rfl
@[simp] theorem Chip.count_loaded (c : Chip) (fl : Fld) (idx : List Nat) (n : Nat) : (c.count fl idx n).loaded = c.loaded := rfl
@[simp] theorem Chip.count_cores (c : Chip) (fl : Fld) (idx : List Nat) (n : Nat) : (c.count fl idx n).cores = c.cores := rfl
@[simp] theorem Chip.count_arrs (c : Chip) (fl : Fld) (idx : List Nat) (n : Nat) : (c.count fl idx n).arrs = c.arrs := rfl
@[simp] theorem Chip.count_velds (c : Chip) (fl : Fld) (idx : List Nat) (n : Nat) : (c.count fl idx n).velds = c.velds := rfl
@[simp] theorem Chip.count_tents (c : Chip) (fl : Fld) (idx : List Nat) (n : Nat) : (c.count fl idx n).tents = c.tents := rfl
@[simp] theorem Chip.count_tentWaits (c : Chip) (fl : Fld) (idx : List Nat) (n : Nat) : (c.count fl idx n).tentWaits = c.tentWaits := rfl
@[simp] theorem Chip.count_passes (c : Chip) (fl : Fld) (idx : List Nat) (n : Nat) : (c.count fl idx n).passes = c.passes := rfl
@[simp] theorem Chip.count_bankA (c : Chip) (fl : Fld) (idx : List Nat) (n : Nat) : (c.count fl idx n).bankA = c.bankA := rfl
@[simp] theorem Chip.count_bankB (c : Chip) (fl : Fld) (idx : List Nat) (n : Nat) : (c.count fl idx n).bankB = c.bankB := rfl
@[simp] theorem Chip.count_current (c : Chip) (fl : Fld) (idx : List Nat) (n : Nat) : (c.count fl idx n).current = c.current := rfl
@[simp] theorem Chip.count_fws (c : Chip) (fl : Fld) (idx : List Nat) (n : Nat) : (c.count fl idx n).fws = c.fws := rfl
@[simp] theorem Chip.count_rollback (c : Chip) (fl : Fld) (idx : List Nat) (n : Nat) : (c.count fl idx n).rollback = c.rollback := rfl
@[simp] theorem Chip.count_drains (c : Chip) (fl : Fld) (idx : List Nat) (n : Nat) : (c.count fl idx n).drains = c.drains := rfl
@[simp] theorem Chip.count_boot (c : Chip) (fl : Fld) (idx : List Nat) (n : Nat) : (c.count fl idx n).boot = c.boot := rfl
@[simp] theorem Chip.count_coderJobs (c : Chip) (fl : Fld) (idx : List Nat) (n : Nat) : (c.count fl idx n).coderJobs = c.coderJobs := rfl
@[simp] theorem Chip.count_coderNext (c : Chip) (fl : Fld) (idx : List Nat) (n : Nat) : (c.count fl idx n).coderNext = c.coderNext := rfl
@[simp] theorem Chip.count_submits (c : Chip) (fl : Fld) (idx : List Nat) (n : Nat) : (c.count fl idx n).submits = c.submits := rfl
@[simp] theorem Chip.count_harqs (c : Chip) (fl : Fld) (idx : List Nat) (n : Nat) : (c.count fl idx n).harqs = c.harqs := rfl
@[simp] theorem Chip.count_sweeps (c : Chip) (fl : Fld) (idx : List Nat) (n : Nat) : (c.count fl idx n).sweeps = c.sweeps := rfl
@[simp] theorem Chip.count_decCredit (c : Chip) (fl : Fld) (idx : List Nat) (n : Nat) : (c.count fl idx n).decCredit = c.decCredit := rfl
@[simp] theorem Chip.count_encCredit (c : Chip) (fl : Fld) (idx : List Nat) (n : Nat) : (c.count fl idx n).encCredit = c.encCredit := rfl
@[simp] theorem Chip.count_msgLast (c : Chip) (fl : Fld) (idx : List Nat) (n : Nat) : (c.count fl idx n).msgLast = c.msgLast := rfl
@[simp] theorem Chip.count_valeCals (c : Chip) (fl : Fld) (idx : List Nat) (n : Nat) : (c.count fl idx n).valeCals = c.valeCals := rfl
@[simp] theorem Chip.count_hkTrims (c : Chip) (fl : Fld) (idx : List Nat) (n : Nat) : (c.count fl idx n).hkTrims = c.hkTrims := rfl
@[simp] theorem Chip.count_hkStamp (c : Chip) (fl : Fld) (idx : List Nat) (n : Nat) : (c.count fl idx n).hkStamp = c.hkStamp := rfl
@[simp] theorem Chip.count_heat (c : Chip) (fl : Fld) (idx : List Nat) (n : Nat) : (c.count fl idx n).heat = c.heat := rfl
@[simp] theorem Chip.count_act (c : Chip) (fl : Fld) (idx : List Nat) (n : Nat) : (c.count fl idx n).act = c.act := rfl
@[simp] theorem Chip.count_actSeq (c : Chip) (fl : Fld) (idx : List Nat) (n : Nat) : (c.count fl idx n).actSeq = c.actSeq := rfl
@[simp] theorem Chip.count_cursors (c : Chip) (fl : Fld) (idx : List Nat) (n : Nat) : (c.count fl idx n).cursors = c.cursors := rfl

/-! ### Chip.countSat -/

@[simp] theorem Chip.countSat_device (c : Chip) (fl : Fld) (idx : List Nat) (n : Nat) : (c.countSat fl idx n).device = c.device := rfl
@[simp] theorem Chip.countSat_marks (c : Chip) (fl : Fld) (idx : List Nat) (n : Nat) : (c.countSat fl idx n).marks = c.marks := rfl
@[simp] theorem Chip.countSat_mem (c : Chip) (fl : Fld) (idx : List Nat) (n : Nat) : (c.countSat fl idx n).mem = c.mem := rfl
@[simp] theorem Chip.countSat_outs (c : Chip) (fl : Fld) (idx : List Nat) (n : Nat) : (c.countSat fl idx n).outs = c.outs := rfl
@[simp] theorem Chip.countSat_free (c : Chip) (fl : Fld) (idx : List Nat) (n : Nat) : (c.countSat fl idx n).free = c.free := rfl
@[simp] theorem Chip.countSat_boots (c : Chip) (fl : Fld) (idx : List Nat) (n : Nat) : (c.countSat fl idx n).boots = c.boots := rfl
@[simp] theorem Chip.countSat_gens (c : Chip) (fl : Fld) (idx : List Nat) (n : Nat) : (c.countSat fl idx n).gens = c.gens := rfl
@[simp] theorem Chip.countSat_gclk (c : Chip) (fl : Fld) (idx : List Nat) (n : Nat) : (c.countSat fl idx n).gclk = c.gclk := rfl
@[simp] theorem Chip.countSat_bud (c : Chip) (fl : Fld) (idx : List Nat) (n : Nat) : (c.countSat fl idx n).bud = c.bud := rfl
@[simp] theorem Chip.countSat_msgs (c : Chip) (fl : Fld) (idx : List Nat) (n : Nat) : (c.countSat fl idx n).msgs = c.msgs := rfl
@[simp] theorem Chip.countSat_mpq (c : Chip) (fl : Fld) (idx : List Nat) (n : Nat) : (c.countSat fl idx n).mpq = c.mpq := rfl
@[simp] theorem Chip.countSat_longs (c : Chip) (fl : Fld) (idx : List Nat) (n : Nat) : (c.countSat fl idx n).longs = c.longs := rfl
@[simp] theorem Chip.countSat_link (c : Chip) (fl : Fld) (idx : List Nat) (n : Nat) : (c.countSat fl idx n).link = c.link := rfl
@[simp] theorem Chip.countSat_reads (c : Chip) (fl : Fld) (idx : List Nat) (n : Nat) : (c.countSat fl idx n).reads = c.reads := rfl
@[simp] theorem Chip.countSat_dales (c : Chip) (fl : Fld) (idx : List Nat) (n : Nat) : (c.countSat fl idx n).dales = c.dales := rfl
@[simp] theorem Chip.countSat_banks (c : Chip) (fl : Fld) (idx : List Nat) (n : Nat) : (c.countSat fl idx n).banks = c.banks := rfl
@[simp] theorem Chip.countSat_adcs (c : Chip) (fl : Fld) (idx : List Nat) (n : Nat) : (c.countSat fl idx n).adcs = c.adcs := rfl
@[simp] theorem Chip.countSat_adcGain (c : Chip) (fl : Fld) (idx : List Nat) (n : Nat) : (c.countSat fl idx n).adcGain = c.adcGain := rfl
@[simp] theorem Chip.countSat_throttle (c : Chip) (fl : Fld) (idx : List Nat) (n : Nat) : (c.countSat fl idx n).throttle = c.throttle := rfl
@[simp] theorem Chip.countSat_chans (c : Chip) (fl : Fld) (idx : List Nat) (n : Nat) : (c.countSat fl idx n).chans = c.chans := rfl
@[simp] theorem Chip.countSat_units (c : Chip) (fl : Fld) (idx : List Nat) (n : Nat) : (c.countSat fl idx n).units = c.units := rfl
@[simp] theorem Chip.countSat_tones (c : Chip) (fl : Fld) (idx : List Nat) (n : Nat) : (c.countSat fl idx n).tones = c.tones := rfl
@[simp] theorem Chip.countSat_loops (c : Chip) (fl : Fld) (idx : List Nat) (n : Nat) : (c.countSat fl idx n).loops = c.loops := rfl
@[simp] theorem Chip.countSat_tests (c : Chip) (fl : Fld) (idx : List Nat) (n : Nat) : (c.countSat fl idx n).tests = c.tests := rfl
@[simp] theorem Chip.countSat_ticked (c : Chip) (fl : Fld) (idx : List Nat) (n : Nat) : (c.countSat fl idx n).ticked = c.ticked := rfl
@[simp] theorem Chip.countSat_spareFor (c : Chip) (fl : Fld) (idx : List Nat) (n : Nat) : (c.countSat fl idx n).spareFor = c.spareFor := rfl
@[simp] theorem Chip.countSat_capLeft (c : Chip) (fl : Fld) (idx : List Nat) (n : Nat) : (c.countSat fl idx n).capLeft = c.capLeft := rfl
@[simp] theorem Chip.countSat_guySeed (c : Chip) (fl : Fld) (idx : List Nat) (n : Nat) : (c.countSat fl idx n).guySeed = c.guySeed := rfl
@[simp] theorem Chip.countSat_trkLive (c : Chip) (fl : Fld) (idx : List Nat) (n : Nat) : (c.countSat fl idx n).trkLive = c.trkLive := rfl
@[simp] theorem Chip.countSat_hkAvgNew (c : Chip) (fl : Fld) (idx : List Nat) (n : Nat) : (c.countSat fl idx n).hkAvgNew = c.hkAvgNew := rfl
@[simp] theorem Chip.countSat_toneStart (c : Chip) (fl : Fld) (idx : List Nat) (n : Nat) : (c.countSat fl idx n).toneStart = c.toneStart := rfl
@[simp] theorem Chip.countSat_toneLog (c : Chip) (fl : Fld) (idx : List Nat) (n : Nat) : (c.countSat fl idx n).toneLog = c.toneLog := rfl
@[simp] theorem Chip.countSat_trigOld (c : Chip) (fl : Fld) (idx : List Nat) (n : Nat) : (c.countSat fl idx n).trigOld = c.trigOld := rfl
@[simp] theorem Chip.countSat_pairLink (c : Chip) (fl : Fld) (idx : List Nat) (n : Nat) : (c.countSat fl idx n).pairLink = c.pairLink := rfl
@[simp] theorem Chip.countSat_slots (c : Chip) (fl : Fld) (idx : List Nat) (n : Nat) : (c.countSat fl idx n).slots = c.slots := rfl
@[simp] theorem Chip.countSat_radio (c : Chip) (fl : Fld) (idx : List Nat) (n : Nat) : (c.countSat fl idx n).radio = c.radio := rfl
@[simp] theorem Chip.countSat_recs (c : Chip) (fl : Fld) (idx : List Nat) (n : Nat) : (c.countSat fl idx n).recs = c.recs := rfl
@[simp] theorem Chip.countSat_loaded (c : Chip) (fl : Fld) (idx : List Nat) (n : Nat) : (c.countSat fl idx n).loaded = c.loaded := rfl
@[simp] theorem Chip.countSat_cores (c : Chip) (fl : Fld) (idx : List Nat) (n : Nat) : (c.countSat fl idx n).cores = c.cores := rfl
@[simp] theorem Chip.countSat_arrs (c : Chip) (fl : Fld) (idx : List Nat) (n : Nat) : (c.countSat fl idx n).arrs = c.arrs := rfl
@[simp] theorem Chip.countSat_velds (c : Chip) (fl : Fld) (idx : List Nat) (n : Nat) : (c.countSat fl idx n).velds = c.velds := rfl
@[simp] theorem Chip.countSat_tents (c : Chip) (fl : Fld) (idx : List Nat) (n : Nat) : (c.countSat fl idx n).tents = c.tents := rfl
@[simp] theorem Chip.countSat_tentWaits (c : Chip) (fl : Fld) (idx : List Nat) (n : Nat) : (c.countSat fl idx n).tentWaits = c.tentWaits := rfl
@[simp] theorem Chip.countSat_passes (c : Chip) (fl : Fld) (idx : List Nat) (n : Nat) : (c.countSat fl idx n).passes = c.passes := rfl
@[simp] theorem Chip.countSat_bankA (c : Chip) (fl : Fld) (idx : List Nat) (n : Nat) : (c.countSat fl idx n).bankA = c.bankA := rfl
@[simp] theorem Chip.countSat_bankB (c : Chip) (fl : Fld) (idx : List Nat) (n : Nat) : (c.countSat fl idx n).bankB = c.bankB := rfl
@[simp] theorem Chip.countSat_current (c : Chip) (fl : Fld) (idx : List Nat) (n : Nat) : (c.countSat fl idx n).current = c.current := rfl
@[simp] theorem Chip.countSat_fws (c : Chip) (fl : Fld) (idx : List Nat) (n : Nat) : (c.countSat fl idx n).fws = c.fws := rfl
@[simp] theorem Chip.countSat_rollback (c : Chip) (fl : Fld) (idx : List Nat) (n : Nat) : (c.countSat fl idx n).rollback = c.rollback := rfl
@[simp] theorem Chip.countSat_drains (c : Chip) (fl : Fld) (idx : List Nat) (n : Nat) : (c.countSat fl idx n).drains = c.drains := rfl
@[simp] theorem Chip.countSat_boot (c : Chip) (fl : Fld) (idx : List Nat) (n : Nat) : (c.countSat fl idx n).boot = c.boot := rfl
@[simp] theorem Chip.countSat_coderJobs (c : Chip) (fl : Fld) (idx : List Nat) (n : Nat) : (c.countSat fl idx n).coderJobs = c.coderJobs := rfl
@[simp] theorem Chip.countSat_coderNext (c : Chip) (fl : Fld) (idx : List Nat) (n : Nat) : (c.countSat fl idx n).coderNext = c.coderNext := rfl
@[simp] theorem Chip.countSat_submits (c : Chip) (fl : Fld) (idx : List Nat) (n : Nat) : (c.countSat fl idx n).submits = c.submits := rfl
@[simp] theorem Chip.countSat_harqs (c : Chip) (fl : Fld) (idx : List Nat) (n : Nat) : (c.countSat fl idx n).harqs = c.harqs := rfl
@[simp] theorem Chip.countSat_sweeps (c : Chip) (fl : Fld) (idx : List Nat) (n : Nat) : (c.countSat fl idx n).sweeps = c.sweeps := rfl
@[simp] theorem Chip.countSat_decCredit (c : Chip) (fl : Fld) (idx : List Nat) (n : Nat) : (c.countSat fl idx n).decCredit = c.decCredit := rfl
@[simp] theorem Chip.countSat_encCredit (c : Chip) (fl : Fld) (idx : List Nat) (n : Nat) : (c.countSat fl idx n).encCredit = c.encCredit := rfl
@[simp] theorem Chip.countSat_msgLast (c : Chip) (fl : Fld) (idx : List Nat) (n : Nat) : (c.countSat fl idx n).msgLast = c.msgLast := rfl
@[simp] theorem Chip.countSat_valeCals (c : Chip) (fl : Fld) (idx : List Nat) (n : Nat) : (c.countSat fl idx n).valeCals = c.valeCals := rfl
@[simp] theorem Chip.countSat_hkTrims (c : Chip) (fl : Fld) (idx : List Nat) (n : Nat) : (c.countSat fl idx n).hkTrims = c.hkTrims := rfl
@[simp] theorem Chip.countSat_hkStamp (c : Chip) (fl : Fld) (idx : List Nat) (n : Nat) : (c.countSat fl idx n).hkStamp = c.hkStamp := rfl
@[simp] theorem Chip.countSat_heat (c : Chip) (fl : Fld) (idx : List Nat) (n : Nat) : (c.countSat fl idx n).heat = c.heat := rfl
@[simp] theorem Chip.countSat_act (c : Chip) (fl : Fld) (idx : List Nat) (n : Nat) : (c.countSat fl idx n).act = c.act := rfl
@[simp] theorem Chip.countSat_actSeq (c : Chip) (fl : Fld) (idx : List Nat) (n : Nat) : (c.countSat fl idx n).actSeq = c.actSeq := rfl
@[simp] theorem Chip.countSat_cursors (c : Chip) (fl : Fld) (idx : List Nat) (n : Nat) : (c.countSat fl idx n).cursors = c.cursors := rfl

/-! ### Chip.setGen -/

@[simp] theorem Chip.setGen_device (c : Chip) (i : GenId) (g : Gen) : (c.setGen i g).device = c.device := rfl
@[simp] theorem Chip.setGen_regs (c : Chip) (i : GenId) (g : Gen) : (c.setGen i g).regs = c.regs := rfl
@[simp] theorem Chip.setGen_marks (c : Chip) (i : GenId) (g : Gen) : (c.setGen i g).marks = c.marks := rfl
@[simp] theorem Chip.setGen_mem (c : Chip) (i : GenId) (g : Gen) : (c.setGen i g).mem = c.mem := rfl
@[simp] theorem Chip.setGen_outs (c : Chip) (i : GenId) (g : Gen) : (c.setGen i g).outs = c.outs := rfl
@[simp] theorem Chip.setGen_free (c : Chip) (i : GenId) (g : Gen) : (c.setGen i g).free = c.free := rfl
@[simp] theorem Chip.setGen_boots (c : Chip) (i : GenId) (g : Gen) : (c.setGen i g).boots = c.boots := rfl
@[simp] theorem Chip.setGen_gclk (c : Chip) (i : GenId) (g : Gen) : (c.setGen i g).gclk = c.gclk := rfl
@[simp] theorem Chip.setGen_bud (c : Chip) (i : GenId) (g : Gen) : (c.setGen i g).bud = c.bud := rfl
@[simp] theorem Chip.setGen_msgs (c : Chip) (i : GenId) (g : Gen) : (c.setGen i g).msgs = c.msgs := rfl
@[simp] theorem Chip.setGen_mpq (c : Chip) (i : GenId) (g : Gen) : (c.setGen i g).mpq = c.mpq := rfl
@[simp] theorem Chip.setGen_longs (c : Chip) (i : GenId) (g : Gen) : (c.setGen i g).longs = c.longs := rfl
@[simp] theorem Chip.setGen_link (c : Chip) (i : GenId) (g : Gen) : (c.setGen i g).link = c.link := rfl
@[simp] theorem Chip.setGen_reads (c : Chip) (i : GenId) (g : Gen) : (c.setGen i g).reads = c.reads := rfl
@[simp] theorem Chip.setGen_dales (c : Chip) (i : GenId) (g : Gen) : (c.setGen i g).dales = c.dales := rfl
@[simp] theorem Chip.setGen_banks (c : Chip) (i : GenId) (g : Gen) : (c.setGen i g).banks = c.banks := rfl
@[simp] theorem Chip.setGen_adcs (c : Chip) (i : GenId) (g : Gen) : (c.setGen i g).adcs = c.adcs := rfl
@[simp] theorem Chip.setGen_adcGain (c : Chip) (i : GenId) (g : Gen) : (c.setGen i g).adcGain = c.adcGain := rfl
@[simp] theorem Chip.setGen_throttle (c : Chip) (i : GenId) (g : Gen) : (c.setGen i g).throttle = c.throttle := rfl
@[simp] theorem Chip.setGen_chans (c : Chip) (i : GenId) (g : Gen) : (c.setGen i g).chans = c.chans := rfl
@[simp] theorem Chip.setGen_units (c : Chip) (i : GenId) (g : Gen) : (c.setGen i g).units = c.units := rfl
@[simp] theorem Chip.setGen_tones (c : Chip) (i : GenId) (g : Gen) : (c.setGen i g).tones = c.tones := rfl
@[simp] theorem Chip.setGen_loops (c : Chip) (i : GenId) (g : Gen) : (c.setGen i g).loops = c.loops := rfl
@[simp] theorem Chip.setGen_tests (c : Chip) (i : GenId) (g : Gen) : (c.setGen i g).tests = c.tests := rfl
@[simp] theorem Chip.setGen_ticked (c : Chip) (i : GenId) (g : Gen) : (c.setGen i g).ticked = c.ticked := rfl
@[simp] theorem Chip.setGen_spareFor (c : Chip) (i : GenId) (g : Gen) : (c.setGen i g).spareFor = c.spareFor := rfl
@[simp] theorem Chip.setGen_capLeft (c : Chip) (i : GenId) (g : Gen) : (c.setGen i g).capLeft = c.capLeft := rfl
@[simp] theorem Chip.setGen_guySeed (c : Chip) (i : GenId) (g : Gen) : (c.setGen i g).guySeed = c.guySeed := rfl
@[simp] theorem Chip.setGen_trkLive (c : Chip) (i : GenId) (g : Gen) : (c.setGen i g).trkLive = c.trkLive := rfl
@[simp] theorem Chip.setGen_hkAvgNew (c : Chip) (i : GenId) (g : Gen) : (c.setGen i g).hkAvgNew = c.hkAvgNew := rfl
@[simp] theorem Chip.setGen_toneStart (c : Chip) (i : GenId) (g : Gen) : (c.setGen i g).toneStart = c.toneStart := rfl
@[simp] theorem Chip.setGen_toneLog (c : Chip) (i : GenId) (g : Gen) : (c.setGen i g).toneLog = c.toneLog := rfl
@[simp] theorem Chip.setGen_trigOld (c : Chip) (i : GenId) (g : Gen) : (c.setGen i g).trigOld = c.trigOld := rfl
@[simp] theorem Chip.setGen_pairLink (c : Chip) (i : GenId) (g : Gen) : (c.setGen i g).pairLink = c.pairLink := rfl
@[simp] theorem Chip.setGen_slots (c : Chip) (i : GenId) (g : Gen) : (c.setGen i g).slots = c.slots := rfl
@[simp] theorem Chip.setGen_radio (c : Chip) (i : GenId) (g : Gen) : (c.setGen i g).radio = c.radio := rfl
@[simp] theorem Chip.setGen_recs (c : Chip) (i : GenId) (g : Gen) : (c.setGen i g).recs = c.recs := rfl
@[simp] theorem Chip.setGen_loaded (c : Chip) (i : GenId) (g : Gen) : (c.setGen i g).loaded = c.loaded := rfl
@[simp] theorem Chip.setGen_cores (c : Chip) (i : GenId) (g : Gen) : (c.setGen i g).cores = c.cores := rfl
@[simp] theorem Chip.setGen_arrs (c : Chip) (i : GenId) (g : Gen) : (c.setGen i g).arrs = c.arrs := rfl
@[simp] theorem Chip.setGen_velds (c : Chip) (i : GenId) (g : Gen) : (c.setGen i g).velds = c.velds := rfl
@[simp] theorem Chip.setGen_tents (c : Chip) (i : GenId) (g : Gen) : (c.setGen i g).tents = c.tents := rfl
@[simp] theorem Chip.setGen_tentWaits (c : Chip) (i : GenId) (g : Gen) : (c.setGen i g).tentWaits = c.tentWaits := rfl
@[simp] theorem Chip.setGen_passes (c : Chip) (i : GenId) (g : Gen) : (c.setGen i g).passes = c.passes := rfl
@[simp] theorem Chip.setGen_bankA (c : Chip) (i : GenId) (g : Gen) : (c.setGen i g).bankA = c.bankA := rfl
@[simp] theorem Chip.setGen_bankB (c : Chip) (i : GenId) (g : Gen) : (c.setGen i g).bankB = c.bankB := rfl
@[simp] theorem Chip.setGen_current (c : Chip) (i : GenId) (g : Gen) : (c.setGen i g).current = c.current := rfl
@[simp] theorem Chip.setGen_fws (c : Chip) (i : GenId) (g : Gen) : (c.setGen i g).fws = c.fws := rfl
@[simp] theorem Chip.setGen_rollback (c : Chip) (i : GenId) (g : Gen) : (c.setGen i g).rollback = c.rollback := rfl
@[simp] theorem Chip.setGen_drains (c : Chip) (i : GenId) (g : Gen) : (c.setGen i g).drains = c.drains := rfl
@[simp] theorem Chip.setGen_boot (c : Chip) (i : GenId) (g : Gen) : (c.setGen i g).boot = c.boot := rfl
@[simp] theorem Chip.setGen_coderJobs (c : Chip) (i : GenId) (g : Gen) : (c.setGen i g).coderJobs = c.coderJobs := rfl
@[simp] theorem Chip.setGen_coderNext (c : Chip) (i : GenId) (g : Gen) : (c.setGen i g).coderNext = c.coderNext := rfl
@[simp] theorem Chip.setGen_submits (c : Chip) (i : GenId) (g : Gen) : (c.setGen i g).submits = c.submits := rfl
@[simp] theorem Chip.setGen_harqs (c : Chip) (i : GenId) (g : Gen) : (c.setGen i g).harqs = c.harqs := rfl
@[simp] theorem Chip.setGen_sweeps (c : Chip) (i : GenId) (g : Gen) : (c.setGen i g).sweeps = c.sweeps := rfl
@[simp] theorem Chip.setGen_decCredit (c : Chip) (i : GenId) (g : Gen) : (c.setGen i g).decCredit = c.decCredit := rfl
@[simp] theorem Chip.setGen_encCredit (c : Chip) (i : GenId) (g : Gen) : (c.setGen i g).encCredit = c.encCredit := rfl
@[simp] theorem Chip.setGen_msgLast (c : Chip) (i : GenId) (g : Gen) : (c.setGen i g).msgLast = c.msgLast := rfl
@[simp] theorem Chip.setGen_valeCals (c : Chip) (i : GenId) (g : Gen) : (c.setGen i g).valeCals = c.valeCals := rfl
@[simp] theorem Chip.setGen_hkTrims (c : Chip) (i : GenId) (g : Gen) : (c.setGen i g).hkTrims = c.hkTrims := rfl
@[simp] theorem Chip.setGen_hkStamp (c : Chip) (i : GenId) (g : Gen) : (c.setGen i g).hkStamp = c.hkStamp := rfl
@[simp] theorem Chip.setGen_heat (c : Chip) (i : GenId) (g : Gen) : (c.setGen i g).heat = c.heat := rfl
@[simp] theorem Chip.setGen_act (c : Chip) (i : GenId) (g : Gen) : (c.setGen i g).act = c.act := rfl
@[simp] theorem Chip.setGen_actSeq (c : Chip) (i : GenId) (g : Gen) : (c.setGen i g).actSeq = c.actSeq := rfl
@[simp] theorem Chip.setGen_cursors (c : Chip) (i : GenId) (g : Gen) : (c.setGen i g).cursors = c.cursors := rfl

/-! ### Chip.setByte -/

@[simp] theorem Chip.setByte_device (c : Chip) (a : Nat) (b : Byte) : (c.setByte a b).device = c.device := rfl
@[simp] theorem Chip.setByte_regs (c : Chip) (a : Nat) (b : Byte) : (c.setByte a b).regs = c.regs := rfl
@[simp] theorem Chip.setByte_marks (c : Chip) (a : Nat) (b : Byte) : (c.setByte a b).marks = c.marks := rfl
@[simp] theorem Chip.setByte_outs (c : Chip) (a : Nat) (b : Byte) : (c.setByte a b).outs = c.outs := rfl
@[simp] theorem Chip.setByte_free (c : Chip) (a : Nat) (b : Byte) : (c.setByte a b).free = c.free := rfl
@[simp] theorem Chip.setByte_boots (c : Chip) (a : Nat) (b : Byte) : (c.setByte a b).boots = c.boots := rfl
@[simp] theorem Chip.setByte_gens (c : Chip) (a : Nat) (b : Byte) : (c.setByte a b).gens = c.gens := rfl
@[simp] theorem Chip.setByte_gclk (c : Chip) (a : Nat) (b : Byte) : (c.setByte a b).gclk = c.gclk := rfl
@[simp] theorem Chip.setByte_bud (c : Chip) (a : Nat) (b : Byte) : (c.setByte a b).bud = c.bud := rfl
@[simp] theorem Chip.setByte_msgs (c : Chip) (a : Nat) (b : Byte) : (c.setByte a b).msgs = c.msgs := rfl
@[simp] theorem Chip.setByte_mpq (c : Chip) (a : Nat) (b : Byte) : (c.setByte a b).mpq = c.mpq := rfl
@[simp] theorem Chip.setByte_longs (c : Chip) (a : Nat) (b : Byte) : (c.setByte a b).longs = c.longs := rfl
@[simp] theorem Chip.setByte_link (c : Chip) (a : Nat) (b : Byte) : (c.setByte a b).link = c.link := rfl
@[simp] theorem Chip.setByte_reads (c : Chip) (a : Nat) (b : Byte) : (c.setByte a b).reads = c.reads := rfl
@[simp] theorem Chip.setByte_dales (c : Chip) (a : Nat) (b : Byte) : (c.setByte a b).dales = c.dales := rfl
@[simp] theorem Chip.setByte_banks (c : Chip) (a : Nat) (b : Byte) : (c.setByte a b).banks = c.banks := rfl
@[simp] theorem Chip.setByte_adcs (c : Chip) (a : Nat) (b : Byte) : (c.setByte a b).adcs = c.adcs := rfl
@[simp] theorem Chip.setByte_adcGain (c : Chip) (a : Nat) (b : Byte) : (c.setByte a b).adcGain = c.adcGain := rfl
@[simp] theorem Chip.setByte_throttle (c : Chip) (a : Nat) (b : Byte) : (c.setByte a b).throttle = c.throttle := rfl
@[simp] theorem Chip.setByte_chans (c : Chip) (a : Nat) (b : Byte) : (c.setByte a b).chans = c.chans := rfl
@[simp] theorem Chip.setByte_units (c : Chip) (a : Nat) (b : Byte) : (c.setByte a b).units = c.units := rfl
@[simp] theorem Chip.setByte_tones (c : Chip) (a : Nat) (b : Byte) : (c.setByte a b).tones = c.tones := rfl
@[simp] theorem Chip.setByte_loops (c : Chip) (a : Nat) (b : Byte) : (c.setByte a b).loops = c.loops := rfl
@[simp] theorem Chip.setByte_tests (c : Chip) (a : Nat) (b : Byte) : (c.setByte a b).tests = c.tests := rfl
@[simp] theorem Chip.setByte_ticked (c : Chip) (a : Nat) (b : Byte) : (c.setByte a b).ticked = c.ticked := rfl
@[simp] theorem Chip.setByte_spareFor (c : Chip) (a : Nat) (b : Byte) : (c.setByte a b).spareFor = c.spareFor := rfl
@[simp] theorem Chip.setByte_capLeft (c : Chip) (a : Nat) (b : Byte) : (c.setByte a b).capLeft = c.capLeft := rfl
@[simp] theorem Chip.setByte_guySeed (c : Chip) (a : Nat) (b : Byte) : (c.setByte a b).guySeed = c.guySeed := rfl
@[simp] theorem Chip.setByte_trkLive (c : Chip) (a : Nat) (b : Byte) : (c.setByte a b).trkLive = c.trkLive := rfl
@[simp] theorem Chip.setByte_hkAvgNew (c : Chip) (a : Nat) (b : Byte) : (c.setByte a b).hkAvgNew = c.hkAvgNew := rfl
@[simp] theorem Chip.setByte_toneStart (c : Chip) (a : Nat) (b : Byte) : (c.setByte a b).toneStart = c.toneStart := rfl
@[simp] theorem Chip.setByte_toneLog (c : Chip) (a : Nat) (b : Byte) : (c.setByte a b).toneLog = c.toneLog := rfl
@[simp] theorem Chip.setByte_trigOld (c : Chip) (a : Nat) (b : Byte) : (c.setByte a b).trigOld = c.trigOld := rfl
@[simp] theorem Chip.setByte_pairLink (c : Chip) (a : Nat) (b : Byte) : (c.setByte a b).pairLink = c.pairLink := rfl
@[simp] theorem Chip.setByte_slots (c : Chip) (a : Nat) (b : Byte) : (c.setByte a b).slots = c.slots := rfl
@[simp] theorem Chip.setByte_radio (c : Chip) (a : Nat) (b : Byte) : (c.setByte a b).radio = c.radio := rfl
@[simp] theorem Chip.setByte_recs (c : Chip) (a : Nat) (b : Byte) : (c.setByte a b).recs = c.recs := rfl
@[simp] theorem Chip.setByte_loaded (c : Chip) (a : Nat) (b : Byte) : (c.setByte a b).loaded = c.loaded := rfl
@[simp] theorem Chip.setByte_cores (c : Chip) (a : Nat) (b : Byte) : (c.setByte a b).cores = c.cores := rfl
@[simp] theorem Chip.setByte_arrs (c : Chip) (a : Nat) (b : Byte) : (c.setByte a b).arrs = c.arrs := rfl
@[simp] theorem Chip.setByte_velds (c : Chip) (a : Nat) (b : Byte) : (c.setByte a b).velds = c.velds := rfl
@[simp] theorem Chip.setByte_tents (c : Chip) (a : Nat) (b : Byte) : (c.setByte a b).tents = c.tents := rfl
@[simp] theorem Chip.setByte_tentWaits (c : Chip) (a : Nat) (b : Byte) : (c.setByte a b).tentWaits = c.tentWaits := rfl
@[simp] theorem Chip.setByte_passes (c : Chip) (a : Nat) (b : Byte) : (c.setByte a b).passes = c.passes := rfl
@[simp] theorem Chip.setByte_bankA (c : Chip) (a : Nat) (b : Byte) : (c.setByte a b).bankA = c.bankA := rfl
@[simp] theorem Chip.setByte_bankB (c : Chip) (a : Nat) (b : Byte) : (c.setByte a b).bankB = c.bankB := rfl
@[simp] theorem Chip.setByte_current (c : Chip) (a : Nat) (b : Byte) : (c.setByte a b).current = c.current := rfl
@[simp] theorem Chip.setByte_fws (c : Chip) (a : Nat) (b : Byte) : (c.setByte a b).fws = c.fws := rfl
@[simp] theorem Chip.setByte_rollback (c : Chip) (a : Nat) (b : Byte) : (c.setByte a b).rollback = c.rollback := rfl
@[simp] theorem Chip.setByte_drains (c : Chip) (a : Nat) (b : Byte) : (c.setByte a b).drains = c.drains := rfl
@[simp] theorem Chip.setByte_boot (c : Chip) (a : Nat) (b : Byte) : (c.setByte a b).boot = c.boot := rfl
@[simp] theorem Chip.setByte_coderJobs (c : Chip) (a : Nat) (b : Byte) : (c.setByte a b).coderJobs = c.coderJobs := rfl
@[simp] theorem Chip.setByte_coderNext (c : Chip) (a : Nat) (b : Byte) : (c.setByte a b).coderNext = c.coderNext := rfl
@[simp] theorem Chip.setByte_submits (c : Chip) (a : Nat) (b : Byte) : (c.setByte a b).submits = c.submits := rfl
@[simp] theorem Chip.setByte_harqs (c : Chip) (a : Nat) (b : Byte) : (c.setByte a b).harqs = c.harqs := rfl
@[simp] theorem Chip.setByte_sweeps (c : Chip) (a : Nat) (b : Byte) : (c.setByte a b).sweeps = c.sweeps := rfl
@[simp] theorem Chip.setByte_decCredit (c : Chip) (a : Nat) (b : Byte) : (c.setByte a b).decCredit = c.decCredit := rfl
@[simp] theorem Chip.setByte_encCredit (c : Chip) (a : Nat) (b : Byte) : (c.setByte a b).encCredit = c.encCredit := rfl
@[simp] theorem Chip.setByte_msgLast (c : Chip) (a : Nat) (b : Byte) : (c.setByte a b).msgLast = c.msgLast := rfl
@[simp] theorem Chip.setByte_valeCals (c : Chip) (a : Nat) (b : Byte) : (c.setByte a b).valeCals = c.valeCals := rfl
@[simp] theorem Chip.setByte_hkTrims (c : Chip) (a : Nat) (b : Byte) : (c.setByte a b).hkTrims = c.hkTrims := rfl
@[simp] theorem Chip.setByte_hkStamp (c : Chip) (a : Nat) (b : Byte) : (c.setByte a b).hkStamp = c.hkStamp := rfl
@[simp] theorem Chip.setByte_heat (c : Chip) (a : Nat) (b : Byte) : (c.setByte a b).heat = c.heat := rfl
@[simp] theorem Chip.setByte_act (c : Chip) (a : Nat) (b : Byte) : (c.setByte a b).act = c.act := rfl
@[simp] theorem Chip.setByte_actSeq (c : Chip) (a : Nat) (b : Byte) : (c.setByte a b).actSeq = c.actSeq := rfl
@[simp] theorem Chip.setByte_cursors (c : Chip) (a : Nat) (b : Byte) : (c.setByte a b).cursors = c.cursors := rfl

/-! ### Chip.setDale -/

@[simp] theorem Chip.setDale_device (c : Chip) (k : Nat) (d : Dale) : (c.setDale k d).device = c.device := rfl
@[simp] theorem Chip.setDale_regs (c : Chip) (k : Nat) (d : Dale) : (c.setDale k d).regs = c.regs := rfl
@[simp] theorem Chip.setDale_marks (c : Chip) (k : Nat) (d : Dale) : (c.setDale k d).marks = c.marks := rfl
@[simp] theorem Chip.setDale_mem (c : Chip) (k : Nat) (d : Dale) : (c.setDale k d).mem = c.mem := rfl
@[simp] theorem Chip.setDale_outs (c : Chip) (k : Nat) (d : Dale) : (c.setDale k d).outs = c.outs := rfl
@[simp] theorem Chip.setDale_free (c : Chip) (k : Nat) (d : Dale) : (c.setDale k d).free = c.free := rfl
@[simp] theorem Chip.setDale_boots (c : Chip) (k : Nat) (d : Dale) : (c.setDale k d).boots = c.boots := rfl
@[simp] theorem Chip.setDale_gens (c : Chip) (k : Nat) (d : Dale) : (c.setDale k d).gens = c.gens := rfl
@[simp] theorem Chip.setDale_gclk (c : Chip) (k : Nat) (d : Dale) : (c.setDale k d).gclk = c.gclk := rfl
@[simp] theorem Chip.setDale_bud (c : Chip) (k : Nat) (d : Dale) : (c.setDale k d).bud = c.bud := rfl
@[simp] theorem Chip.setDale_msgs (c : Chip) (k : Nat) (d : Dale) : (c.setDale k d).msgs = c.msgs := rfl
@[simp] theorem Chip.setDale_mpq (c : Chip) (k : Nat) (d : Dale) : (c.setDale k d).mpq = c.mpq := rfl
@[simp] theorem Chip.setDale_longs (c : Chip) (k : Nat) (d : Dale) : (c.setDale k d).longs = c.longs := rfl
@[simp] theorem Chip.setDale_link (c : Chip) (k : Nat) (d : Dale) : (c.setDale k d).link = c.link := rfl
@[simp] theorem Chip.setDale_reads (c : Chip) (k : Nat) (d : Dale) : (c.setDale k d).reads = c.reads := rfl
@[simp] theorem Chip.setDale_banks (c : Chip) (k : Nat) (d : Dale) : (c.setDale k d).banks = c.banks := rfl
@[simp] theorem Chip.setDale_adcs (c : Chip) (k : Nat) (d : Dale) : (c.setDale k d).adcs = c.adcs := rfl
@[simp] theorem Chip.setDale_adcGain (c : Chip) (k : Nat) (d : Dale) : (c.setDale k d).adcGain = c.adcGain := rfl
@[simp] theorem Chip.setDale_throttle (c : Chip) (k : Nat) (d : Dale) : (c.setDale k d).throttle = c.throttle := rfl
@[simp] theorem Chip.setDale_chans (c : Chip) (k : Nat) (d : Dale) : (c.setDale k d).chans = c.chans := rfl
@[simp] theorem Chip.setDale_units (c : Chip) (k : Nat) (d : Dale) : (c.setDale k d).units = c.units := rfl
@[simp] theorem Chip.setDale_tones (c : Chip) (k : Nat) (d : Dale) : (c.setDale k d).tones = c.tones := rfl
@[simp] theorem Chip.setDale_loops (c : Chip) (k : Nat) (d : Dale) : (c.setDale k d).loops = c.loops := rfl
@[simp] theorem Chip.setDale_tests (c : Chip) (k : Nat) (d : Dale) : (c.setDale k d).tests = c.tests := rfl
@[simp] theorem Chip.setDale_ticked (c : Chip) (k : Nat) (d : Dale) : (c.setDale k d).ticked = c.ticked := rfl
@[simp] theorem Chip.setDale_spareFor (c : Chip) (k : Nat) (d : Dale) : (c.setDale k d).spareFor = c.spareFor := rfl
@[simp] theorem Chip.setDale_capLeft (c : Chip) (k : Nat) (d : Dale) : (c.setDale k d).capLeft = c.capLeft := rfl
@[simp] theorem Chip.setDale_guySeed (c : Chip) (k : Nat) (d : Dale) : (c.setDale k d).guySeed = c.guySeed := rfl
@[simp] theorem Chip.setDale_trkLive (c : Chip) (k : Nat) (d : Dale) : (c.setDale k d).trkLive = c.trkLive := rfl
@[simp] theorem Chip.setDale_hkAvgNew (c : Chip) (k : Nat) (d : Dale) : (c.setDale k d).hkAvgNew = c.hkAvgNew := rfl
@[simp] theorem Chip.setDale_toneStart (c : Chip) (k : Nat) (d : Dale) : (c.setDale k d).toneStart = c.toneStart := rfl
@[simp] theorem Chip.setDale_toneLog (c : Chip) (k : Nat) (d : Dale) : (c.setDale k d).toneLog = c.toneLog := rfl
@[simp] theorem Chip.setDale_trigOld (c : Chip) (k : Nat) (d : Dale) : (c.setDale k d).trigOld = c.trigOld := rfl
@[simp] theorem Chip.setDale_pairLink (c : Chip) (k : Nat) (d : Dale) : (c.setDale k d).pairLink = c.pairLink := rfl
@[simp] theorem Chip.setDale_slots (c : Chip) (k : Nat) (d : Dale) : (c.setDale k d).slots = c.slots := rfl
@[simp] theorem Chip.setDale_radio (c : Chip) (k : Nat) (d : Dale) : (c.setDale k d).radio = c.radio := rfl
@[simp] theorem Chip.setDale_recs (c : Chip) (k : Nat) (d : Dale) : (c.setDale k d).recs = c.recs := rfl
@[simp] theorem Chip.setDale_loaded (c : Chip) (k : Nat) (d : Dale) : (c.setDale k d).loaded = c.loaded := rfl
@[simp] theorem Chip.setDale_cores (c : Chip) (k : Nat) (d : Dale) : (c.setDale k d).cores = c.cores := rfl
@[simp] theorem Chip.setDale_arrs (c : Chip) (k : Nat) (d : Dale) : (c.setDale k d).arrs = c.arrs := rfl
@[simp] theorem Chip.setDale_velds (c : Chip) (k : Nat) (d : Dale) : (c.setDale k d).velds = c.velds := rfl
@[simp] theorem Chip.setDale_tents (c : Chip) (k : Nat) (d : Dale) : (c.setDale k d).tents = c.tents := rfl
@[simp] theorem Chip.setDale_tentWaits (c : Chip) (k : Nat) (d : Dale) : (c.setDale k d).tentWaits = c.tentWaits := rfl
@[simp] theorem Chip.setDale_passes (c : Chip) (k : Nat) (d : Dale) : (c.setDale k d).passes = c.passes := rfl
@[simp] theorem Chip.setDale_bankA (c : Chip) (k : Nat) (d : Dale) : (c.setDale k d).bankA = c.bankA := rfl
@[simp] theorem Chip.setDale_bankB (c : Chip) (k : Nat) (d : Dale) : (c.setDale k d).bankB = c.bankB := rfl
@[simp] theorem Chip.setDale_current (c : Chip) (k : Nat) (d : Dale) : (c.setDale k d).current = c.current := rfl
@[simp] theorem Chip.setDale_fws (c : Chip) (k : Nat) (d : Dale) : (c.setDale k d).fws = c.fws := rfl
@[simp] theorem Chip.setDale_rollback (c : Chip) (k : Nat) (d : Dale) : (c.setDale k d).rollback = c.rollback := rfl
@[simp] theorem Chip.setDale_drains (c : Chip) (k : Nat) (d : Dale) : (c.setDale k d).drains = c.drains := rfl
@[simp] theorem Chip.setDale_boot (c : Chip) (k : Nat) (d : Dale) : (c.setDale k d).boot = c.boot := rfl
@[simp] theorem Chip.setDale_coderJobs (c : Chip) (k : Nat) (d : Dale) : (c.setDale k d).coderJobs = c.coderJobs := rfl
@[simp] theorem Chip.setDale_coderNext (c : Chip) (k : Nat) (d : Dale) : (c.setDale k d).coderNext = c.coderNext := rfl
@[simp] theorem Chip.setDale_submits (c : Chip) (k : Nat) (d : Dale) : (c.setDale k d).submits = c.submits := rfl
@[simp] theorem Chip.setDale_harqs (c : Chip) (k : Nat) (d : Dale) : (c.setDale k d).harqs = c.harqs := rfl
@[simp] theorem Chip.setDale_sweeps (c : Chip) (k : Nat) (d : Dale) : (c.setDale k d).sweeps = c.sweeps := rfl
@[simp] theorem Chip.setDale_decCredit (c : Chip) (k : Nat) (d : Dale) : (c.setDale k d).decCredit = c.decCredit := rfl
@[simp] theorem Chip.setDale_encCredit (c : Chip) (k : Nat) (d : Dale) : (c.setDale k d).encCredit = c.encCredit := rfl
@[simp] theorem Chip.setDale_msgLast (c : Chip) (k : Nat) (d : Dale) : (c.setDale k d).msgLast = c.msgLast := rfl
@[simp] theorem Chip.setDale_valeCals (c : Chip) (k : Nat) (d : Dale) : (c.setDale k d).valeCals = c.valeCals := rfl
@[simp] theorem Chip.setDale_hkTrims (c : Chip) (k : Nat) (d : Dale) : (c.setDale k d).hkTrims = c.hkTrims := rfl
@[simp] theorem Chip.setDale_hkStamp (c : Chip) (k : Nat) (d : Dale) : (c.setDale k d).hkStamp = c.hkStamp := rfl
@[simp] theorem Chip.setDale_heat (c : Chip) (k : Nat) (d : Dale) : (c.setDale k d).heat = c.heat := rfl
@[simp] theorem Chip.setDale_act (c : Chip) (k : Nat) (d : Dale) : (c.setDale k d).act = c.act := rfl
@[simp] theorem Chip.setDale_actSeq (c : Chip) (k : Nat) (d : Dale) : (c.setDale k d).actSeq = c.actSeq := rfl
@[simp] theorem Chip.setDale_cursors (c : Chip) (k : Nat) (d : Dale) : (c.setDale k d).cursors = c.cursors := rfl

/-! ### Chip.setBank -/

@[simp] theorem Chip.setBank_device (c : Chip) (v b : Nat) (x : Bank) : (c.setBank v b x).device = c.device := rfl
@[simp] theorem Chip.setBank_regs (c : Chip) (v b : Nat) (x : Bank) : (c.setBank v b x).regs = c.regs := rfl
@[simp] theorem Chip.setBank_marks (c : Chip) (v b : Nat) (x : Bank) : (c.setBank v b x).marks = c.marks := rfl
@[simp] theorem Chip.setBank_mem (c : Chip) (v b : Nat) (x : Bank) : (c.setBank v b x).mem = c.mem := rfl
@[simp] theorem Chip.setBank_outs (c : Chip) (v b : Nat) (x : Bank) : (c.setBank v b x).outs = c.outs := rfl
@[simp] theorem Chip.setBank_free (c : Chip) (v b : Nat) (x : Bank) : (c.setBank v b x).free = c.free := rfl
@[simp] theorem Chip.setBank_boots (c : Chip) (v b : Nat) (x : Bank) : (c.setBank v b x).boots = c.boots := rfl
@[simp] theorem Chip.setBank_gens (c : Chip) (v b : Nat) (x : Bank) : (c.setBank v b x).gens = c.gens := rfl
@[simp] theorem Chip.setBank_gclk (c : Chip) (v b : Nat) (x : Bank) : (c.setBank v b x).gclk = c.gclk := rfl
@[simp] theorem Chip.setBank_bud (c : Chip) (v b : Nat) (x : Bank) : (c.setBank v b x).bud = c.bud := rfl
@[simp] theorem Chip.setBank_msgs (c : Chip) (v b : Nat) (x : Bank) : (c.setBank v b x).msgs = c.msgs := rfl
@[simp] theorem Chip.setBank_mpq (c : Chip) (v b : Nat) (x : Bank) : (c.setBank v b x).mpq = c.mpq := rfl
@[simp] theorem Chip.setBank_longs (c : Chip) (v b : Nat) (x : Bank) : (c.setBank v b x).longs = c.longs := rfl
@[simp] theorem Chip.setBank_link (c : Chip) (v b : Nat) (x : Bank) : (c.setBank v b x).link = c.link := rfl
@[simp] theorem Chip.setBank_reads (c : Chip) (v b : Nat) (x : Bank) : (c.setBank v b x).reads = c.reads := rfl
@[simp] theorem Chip.setBank_dales (c : Chip) (v b : Nat) (x : Bank) : (c.setBank v b x).dales = c.dales := rfl
@[simp] theorem Chip.setBank_adcs (c : Chip) (v b : Nat) (x : Bank) : (c.setBank v b x).adcs = c.adcs := rfl
@[simp] theorem Chip.setBank_adcGain (c : Chip) (v b : Nat) (x : Bank) : (c.setBank v b x).adcGain = c.adcGain := rfl
@[simp] theorem Chip.setBank_throttle (c : Chip) (v b : Nat) (x : Bank) : (c.setBank v b x).throttle = c.throttle := rfl
@[simp] theorem Chip.setBank_chans (c : Chip) (v b : Nat) (x : Bank) : (c.setBank v b x).chans = c.chans := rfl
@[simp] theorem Chip.setBank_units (c : Chip) (v b : Nat) (x : Bank) : (c.setBank v b x).units = c.units := rfl
@[simp] theorem Chip.setBank_tones (c : Chip) (v b : Nat) (x : Bank) : (c.setBank v b x).tones = c.tones := rfl
@[simp] theorem Chip.setBank_loops (c : Chip) (v b : Nat) (x : Bank) : (c.setBank v b x).loops = c.loops := rfl
@[simp] theorem Chip.setBank_tests (c : Chip) (v b : Nat) (x : Bank) : (c.setBank v b x).tests = c.tests := rfl
@[simp] theorem Chip.setBank_ticked (c : Chip) (v b : Nat) (x : Bank) : (c.setBank v b x).ticked = c.ticked := rfl
@[simp] theorem Chip.setBank_spareFor (c : Chip) (v b : Nat) (x : Bank) : (c.setBank v b x).spareFor = c.spareFor := rfl
@[simp] theorem Chip.setBank_capLeft (c : Chip) (v b : Nat) (x : Bank) : (c.setBank v b x).capLeft = c.capLeft := rfl
@[simp] theorem Chip.setBank_guySeed (c : Chip) (v b : Nat) (x : Bank) : (c.setBank v b x).guySeed = c.guySeed := rfl
@[simp] theorem Chip.setBank_trkLive (c : Chip) (v b : Nat) (x : Bank) : (c.setBank v b x).trkLive = c.trkLive := rfl
@[simp] theorem Chip.setBank_hkAvgNew (c : Chip) (v b : Nat) (x : Bank) : (c.setBank v b x).hkAvgNew = c.hkAvgNew := rfl
@[simp] theorem Chip.setBank_toneStart (c : Chip) (v b : Nat) (x : Bank) : (c.setBank v b x).toneStart = c.toneStart := rfl
@[simp] theorem Chip.setBank_toneLog (c : Chip) (v b : Nat) (x : Bank) : (c.setBank v b x).toneLog = c.toneLog := rfl
@[simp] theorem Chip.setBank_trigOld (c : Chip) (v b : Nat) (x : Bank) : (c.setBank v b x).trigOld = c.trigOld := rfl
@[simp] theorem Chip.setBank_pairLink (c : Chip) (v b : Nat) (x : Bank) : (c.setBank v b x).pairLink = c.pairLink := rfl
@[simp] theorem Chip.setBank_slots (c : Chip) (v b : Nat) (x : Bank) : (c.setBank v b x).slots = c.slots := rfl
@[simp] theorem Chip.setBank_radio (c : Chip) (v b : Nat) (x : Bank) : (c.setBank v b x).radio = c.radio := rfl
@[simp] theorem Chip.setBank_recs (c : Chip) (v b : Nat) (x : Bank) : (c.setBank v b x).recs = c.recs := rfl
@[simp] theorem Chip.setBank_loaded (c : Chip) (v b : Nat) (x : Bank) : (c.setBank v b x).loaded = c.loaded := rfl
@[simp] theorem Chip.setBank_cores (c : Chip) (v b : Nat) (x : Bank) : (c.setBank v b x).cores = c.cores := rfl
@[simp] theorem Chip.setBank_arrs (c : Chip) (v b : Nat) (x : Bank) : (c.setBank v b x).arrs = c.arrs := rfl
@[simp] theorem Chip.setBank_velds (c : Chip) (v b : Nat) (x : Bank) : (c.setBank v b x).velds = c.velds := rfl
@[simp] theorem Chip.setBank_tents (c : Chip) (v b : Nat) (x : Bank) : (c.setBank v b x).tents = c.tents := rfl
@[simp] theorem Chip.setBank_tentWaits (c : Chip) (v b : Nat) (x : Bank) : (c.setBank v b x).tentWaits = c.tentWaits := rfl
@[simp] theorem Chip.setBank_passes (c : Chip) (v b : Nat) (x : Bank) : (c.setBank v b x).passes = c.passes := rfl
@[simp] theorem Chip.setBank_bankA (c : Chip) (v b : Nat) (x : Bank) : (c.setBank v b x).bankA = c.bankA := rfl
@[simp] theorem Chip.setBank_bankB (c : Chip) (v b : Nat) (x : Bank) : (c.setBank v b x).bankB = c.bankB := rfl
@[simp] theorem Chip.setBank_current (c : Chip) (v b : Nat) (x : Bank) : (c.setBank v b x).current = c.current := rfl
@[simp] theorem Chip.setBank_fws (c : Chip) (v b : Nat) (x : Bank) : (c.setBank v b x).fws = c.fws := rfl
@[simp] theorem Chip.setBank_rollback (c : Chip) (v b : Nat) (x : Bank) : (c.setBank v b x).rollback = c.rollback := rfl
@[simp] theorem Chip.setBank_drains (c : Chip) (v b : Nat) (x : Bank) : (c.setBank v b x).drains = c.drains := rfl
@[simp] theorem Chip.setBank_boot (c : Chip) (v b : Nat) (x : Bank) : (c.setBank v b x).boot = c.boot := rfl
@[simp] theorem Chip.setBank_coderJobs (c : Chip) (v b : Nat) (x : Bank) : (c.setBank v b x).coderJobs = c.coderJobs := rfl
@[simp] theorem Chip.setBank_coderNext (c : Chip) (v b : Nat) (x : Bank) : (c.setBank v b x).coderNext = c.coderNext := rfl
@[simp] theorem Chip.setBank_submits (c : Chip) (v b : Nat) (x : Bank) : (c.setBank v b x).submits = c.submits := rfl
@[simp] theorem Chip.setBank_harqs (c : Chip) (v b : Nat) (x : Bank) : (c.setBank v b x).harqs = c.harqs := rfl
@[simp] theorem Chip.setBank_sweeps (c : Chip) (v b : Nat) (x : Bank) : (c.setBank v b x).sweeps = c.sweeps := rfl
@[simp] theorem Chip.setBank_decCredit (c : Chip) (v b : Nat) (x : Bank) : (c.setBank v b x).decCredit = c.decCredit := rfl
@[simp] theorem Chip.setBank_encCredit (c : Chip) (v b : Nat) (x : Bank) : (c.setBank v b x).encCredit = c.encCredit := rfl
@[simp] theorem Chip.setBank_msgLast (c : Chip) (v b : Nat) (x : Bank) : (c.setBank v b x).msgLast = c.msgLast := rfl
@[simp] theorem Chip.setBank_valeCals (c : Chip) (v b : Nat) (x : Bank) : (c.setBank v b x).valeCals = c.valeCals := rfl
@[simp] theorem Chip.setBank_hkTrims (c : Chip) (v b : Nat) (x : Bank) : (c.setBank v b x).hkTrims = c.hkTrims := rfl
@[simp] theorem Chip.setBank_hkStamp (c : Chip) (v b : Nat) (x : Bank) : (c.setBank v b x).hkStamp = c.hkStamp := rfl
@[simp] theorem Chip.setBank_heat (c : Chip) (v b : Nat) (x : Bank) : (c.setBank v b x).heat = c.heat := rfl
@[simp] theorem Chip.setBank_act (c : Chip) (v b : Nat) (x : Bank) : (c.setBank v b x).act = c.act := rfl
@[simp] theorem Chip.setBank_actSeq (c : Chip) (v b : Nat) (x : Bank) : (c.setBank v b x).actSeq = c.actSeq := rfl
@[simp] theorem Chip.setBank_cursors (c : Chip) (v b : Nat) (x : Bank) : (c.setBank v b x).cursors = c.cursors := rfl

/-! ### Chip.setAdc -/

@[simp] theorem Chip.setAdc_device (c : Chip) (v l : Nat) (a : Adc) : (c.setAdc v l a).device = c.device := rfl
@[simp] theorem Chip.setAdc_regs (c : Chip) (v l : Nat) (a : Adc) : (c.setAdc v l a).regs = c.regs := rfl
@[simp] theorem Chip.setAdc_marks (c : Chip) (v l : Nat) (a : Adc) : (c.setAdc v l a).marks = c.marks := rfl
@[simp] theorem Chip.setAdc_mem (c : Chip) (v l : Nat) (a : Adc) : (c.setAdc v l a).mem = c.mem := rfl
@[simp] theorem Chip.setAdc_outs (c : Chip) (v l : Nat) (a : Adc) : (c.setAdc v l a).outs = c.outs := rfl
@[simp] theorem Chip.setAdc_free (c : Chip) (v l : Nat) (a : Adc) : (c.setAdc v l a).free = c.free := rfl
@[simp] theorem Chip.setAdc_boots (c : Chip) (v l : Nat) (a : Adc) : (c.setAdc v l a).boots = c.boots := rfl
@[simp] theorem Chip.setAdc_gens (c : Chip) (v l : Nat) (a : Adc) : (c.setAdc v l a).gens = c.gens := rfl
@[simp] theorem Chip.setAdc_gclk (c : Chip) (v l : Nat) (a : Adc) : (c.setAdc v l a).gclk = c.gclk := rfl
@[simp] theorem Chip.setAdc_bud (c : Chip) (v l : Nat) (a : Adc) : (c.setAdc v l a).bud = c.bud := rfl
@[simp] theorem Chip.setAdc_msgs (c : Chip) (v l : Nat) (a : Adc) : (c.setAdc v l a).msgs = c.msgs := rfl
@[simp] theorem Chip.setAdc_mpq (c : Chip) (v l : Nat) (a : Adc) : (c.setAdc v l a).mpq = c.mpq := rfl
@[simp] theorem Chip.setAdc_longs (c : Chip) (v l : Nat) (a : Adc) : (c.setAdc v l a).longs = c.longs := rfl
@[simp] theorem Chip.setAdc_link (c : Chip) (v l : Nat) (a : Adc) : (c.setAdc v l a).link = c.link := rfl
@[simp] theorem Chip.setAdc_reads (c : Chip) (v l : Nat) (a : Adc) : (c.setAdc v l a).reads = c.reads := rfl
@[simp] theorem Chip.setAdc_dales (c : Chip) (v l : Nat) (a : Adc) : (c.setAdc v l a).dales = c.dales := rfl
@[simp] theorem Chip.setAdc_banks (c : Chip) (v l : Nat) (a : Adc) : (c.setAdc v l a).banks = c.banks := rfl
@[simp] theorem Chip.setAdc_adcGain (c : Chip) (v l : Nat) (a : Adc) : (c.setAdc v l a).adcGain = c.adcGain := rfl
@[simp] theorem Chip.setAdc_throttle (c : Chip) (v l : Nat) (a : Adc) : (c.setAdc v l a).throttle = c.throttle := rfl
@[simp] theorem Chip.setAdc_chans (c : Chip) (v l : Nat) (a : Adc) : (c.setAdc v l a).chans = c.chans := rfl
@[simp] theorem Chip.setAdc_units (c : Chip) (v l : Nat) (a : Adc) : (c.setAdc v l a).units = c.units := rfl
@[simp] theorem Chip.setAdc_tones (c : Chip) (v l : Nat) (a : Adc) : (c.setAdc v l a).tones = c.tones := rfl
@[simp] theorem Chip.setAdc_loops (c : Chip) (v l : Nat) (a : Adc) : (c.setAdc v l a).loops = c.loops := rfl
@[simp] theorem Chip.setAdc_tests (c : Chip) (v l : Nat) (a : Adc) : (c.setAdc v l a).tests = c.tests := rfl
@[simp] theorem Chip.setAdc_ticked (c : Chip) (v l : Nat) (a : Adc) : (c.setAdc v l a).ticked = c.ticked := rfl
@[simp] theorem Chip.setAdc_spareFor (c : Chip) (v l : Nat) (a : Adc) : (c.setAdc v l a).spareFor = c.spareFor := rfl
@[simp] theorem Chip.setAdc_capLeft (c : Chip) (v l : Nat) (a : Adc) : (c.setAdc v l a).capLeft = c.capLeft := rfl
@[simp] theorem Chip.setAdc_guySeed (c : Chip) (v l : Nat) (a : Adc) : (c.setAdc v l a).guySeed = c.guySeed := rfl
@[simp] theorem Chip.setAdc_trkLive (c : Chip) (v l : Nat) (a : Adc) : (c.setAdc v l a).trkLive = c.trkLive := rfl
@[simp] theorem Chip.setAdc_hkAvgNew (c : Chip) (v l : Nat) (a : Adc) : (c.setAdc v l a).hkAvgNew = c.hkAvgNew := rfl
@[simp] theorem Chip.setAdc_toneStart (c : Chip) (v l : Nat) (a : Adc) : (c.setAdc v l a).toneStart = c.toneStart := rfl
@[simp] theorem Chip.setAdc_toneLog (c : Chip) (v l : Nat) (a : Adc) : (c.setAdc v l a).toneLog = c.toneLog := rfl
@[simp] theorem Chip.setAdc_trigOld (c : Chip) (v l : Nat) (a : Adc) : (c.setAdc v l a).trigOld = c.trigOld := rfl
@[simp] theorem Chip.setAdc_pairLink (c : Chip) (v l : Nat) (a : Adc) : (c.setAdc v l a).pairLink = c.pairLink := rfl
@[simp] theorem Chip.setAdc_slots (c : Chip) (v l : Nat) (a : Adc) : (c.setAdc v l a).slots = c.slots := rfl
@[simp] theorem Chip.setAdc_radio (c : Chip) (v l : Nat) (a : Adc) : (c.setAdc v l a).radio = c.radio := rfl
@[simp] theorem Chip.setAdc_recs (c : Chip) (v l : Nat) (a : Adc) : (c.setAdc v l a).recs = c.recs := rfl
@[simp] theorem Chip.setAdc_loaded (c : Chip) (v l : Nat) (a : Adc) : (c.setAdc v l a).loaded = c.loaded := rfl
@[simp] theorem Chip.setAdc_cores (c : Chip) (v l : Nat) (a : Adc) : (c.setAdc v l a).cores = c.cores := rfl
@[simp] theorem Chip.setAdc_arrs (c : Chip) (v l : Nat) (a : Adc) : (c.setAdc v l a).arrs = c.arrs := rfl
@[simp] theorem Chip.setAdc_velds (c : Chip) (v l : Nat) (a : Adc) : (c.setAdc v l a).velds = c.velds := rfl
@[simp] theorem Chip.setAdc_tents (c : Chip) (v l : Nat) (a : Adc) : (c.setAdc v l a).tents = c.tents := rfl
@[simp] theorem Chip.setAdc_tentWaits (c : Chip) (v l : Nat) (a : Adc) : (c.setAdc v l a).tentWaits = c.tentWaits := rfl
@[simp] theorem Chip.setAdc_passes (c : Chip) (v l : Nat) (a : Adc) : (c.setAdc v l a).passes = c.passes := rfl
@[simp] theorem Chip.setAdc_bankA (c : Chip) (v l : Nat) (a : Adc) : (c.setAdc v l a).bankA = c.bankA := rfl
@[simp] theorem Chip.setAdc_bankB (c : Chip) (v l : Nat) (a : Adc) : (c.setAdc v l a).bankB = c.bankB := rfl
@[simp] theorem Chip.setAdc_current (c : Chip) (v l : Nat) (a : Adc) : (c.setAdc v l a).current = c.current := rfl
@[simp] theorem Chip.setAdc_fws (c : Chip) (v l : Nat) (a : Adc) : (c.setAdc v l a).fws = c.fws := rfl
@[simp] theorem Chip.setAdc_rollback (c : Chip) (v l : Nat) (a : Adc) : (c.setAdc v l a).rollback = c.rollback := rfl
@[simp] theorem Chip.setAdc_drains (c : Chip) (v l : Nat) (a : Adc) : (c.setAdc v l a).drains = c.drains := rfl
@[simp] theorem Chip.setAdc_boot (c : Chip) (v l : Nat) (a : Adc) : (c.setAdc v l a).boot = c.boot := rfl
@[simp] theorem Chip.setAdc_coderJobs (c : Chip) (v l : Nat) (a : Adc) : (c.setAdc v l a).coderJobs = c.coderJobs := rfl
@[simp] theorem Chip.setAdc_coderNext (c : Chip) (v l : Nat) (a : Adc) : (c.setAdc v l a).coderNext = c.coderNext := rfl
@[simp] theorem Chip.setAdc_submits (c : Chip) (v l : Nat) (a : Adc) : (c.setAdc v l a).submits = c.submits := rfl
@[simp] theorem Chip.setAdc_harqs (c : Chip) (v l : Nat) (a : Adc) : (c.setAdc v l a).harqs = c.harqs := rfl
@[simp] theorem Chip.setAdc_sweeps (c : Chip) (v l : Nat) (a : Adc) : (c.setAdc v l a).sweeps = c.sweeps := rfl
@[simp] theorem Chip.setAdc_decCredit (c : Chip) (v l : Nat) (a : Adc) : (c.setAdc v l a).decCredit = c.decCredit := rfl
@[simp] theorem Chip.setAdc_encCredit (c : Chip) (v l : Nat) (a : Adc) : (c.setAdc v l a).encCredit = c.encCredit := rfl
@[simp] theorem Chip.setAdc_msgLast (c : Chip) (v l : Nat) (a : Adc) : (c.setAdc v l a).msgLast = c.msgLast := rfl
@[simp] theorem Chip.setAdc_valeCals (c : Chip) (v l : Nat) (a : Adc) : (c.setAdc v l a).valeCals = c.valeCals := rfl
@[simp] theorem Chip.setAdc_hkTrims (c : Chip) (v l : Nat) (a : Adc) : (c.setAdc v l a).hkTrims = c.hkTrims := rfl
@[simp] theorem Chip.setAdc_hkStamp (c : Chip) (v l : Nat) (a : Adc) : (c.setAdc v l a).hkStamp = c.hkStamp := rfl
@[simp] theorem Chip.setAdc_heat (c : Chip) (v l : Nat) (a : Adc) : (c.setAdc v l a).heat = c.heat := rfl
@[simp] theorem Chip.setAdc_act (c : Chip) (v l : Nat) (a : Adc) : (c.setAdc v l a).act = c.act := rfl
@[simp] theorem Chip.setAdc_actSeq (c : Chip) (v l : Nat) (a : Adc) : (c.setAdc v l a).actSeq = c.actSeq := rfl
@[simp] theorem Chip.setAdc_cursors (c : Chip) (v l : Nat) (a : Adc) : (c.setAdc v l a).cursors = c.cursors := rfl

/-! ### Chip.setTent -/

@[simp] theorem Chip.setTent_device (c : Chip) (t : Nat) (x : Tent) : (c.setTent t x).device = c.device := rfl
@[simp] theorem Chip.setTent_regs (c : Chip) (t : Nat) (x : Tent) : (c.setTent t x).regs = c.regs := rfl
@[simp] theorem Chip.setTent_marks (c : Chip) (t : Nat) (x : Tent) : (c.setTent t x).marks = c.marks := rfl
@[simp] theorem Chip.setTent_mem (c : Chip) (t : Nat) (x : Tent) : (c.setTent t x).mem = c.mem := rfl
@[simp] theorem Chip.setTent_outs (c : Chip) (t : Nat) (x : Tent) : (c.setTent t x).outs = c.outs := rfl
@[simp] theorem Chip.setTent_free (c : Chip) (t : Nat) (x : Tent) : (c.setTent t x).free = c.free := rfl
@[simp] theorem Chip.setTent_boots (c : Chip) (t : Nat) (x : Tent) : (c.setTent t x).boots = c.boots := rfl
@[simp] theorem Chip.setTent_gens (c : Chip) (t : Nat) (x : Tent) : (c.setTent t x).gens = c.gens := rfl
@[simp] theorem Chip.setTent_gclk (c : Chip) (t : Nat) (x : Tent) : (c.setTent t x).gclk = c.gclk := rfl
@[simp] theorem Chip.setTent_bud (c : Chip) (t : Nat) (x : Tent) : (c.setTent t x).bud = c.bud := rfl
@[simp] theorem Chip.setTent_msgs (c : Chip) (t : Nat) (x : Tent) : (c.setTent t x).msgs = c.msgs := rfl
@[simp] theorem Chip.setTent_mpq (c : Chip) (t : Nat) (x : Tent) : (c.setTent t x).mpq = c.mpq := rfl
@[simp] theorem Chip.setTent_longs (c : Chip) (t : Nat) (x : Tent) : (c.setTent t x).longs = c.longs := rfl
@[simp] theorem Chip.setTent_link (c : Chip) (t : Nat) (x : Tent) : (c.setTent t x).link = c.link := rfl
@[simp] theorem Chip.setTent_reads (c : Chip) (t : Nat) (x : Tent) : (c.setTent t x).reads = c.reads := rfl
@[simp] theorem Chip.setTent_dales (c : Chip) (t : Nat) (x : Tent) : (c.setTent t x).dales = c.dales := rfl
@[simp] theorem Chip.setTent_banks (c : Chip) (t : Nat) (x : Tent) : (c.setTent t x).banks = c.banks := rfl
@[simp] theorem Chip.setTent_adcs (c : Chip) (t : Nat) (x : Tent) : (c.setTent t x).adcs = c.adcs := rfl
@[simp] theorem Chip.setTent_adcGain (c : Chip) (t : Nat) (x : Tent) : (c.setTent t x).adcGain = c.adcGain := rfl
@[simp] theorem Chip.setTent_throttle (c : Chip) (t : Nat) (x : Tent) : (c.setTent t x).throttle = c.throttle := rfl
@[simp] theorem Chip.setTent_chans (c : Chip) (t : Nat) (x : Tent) : (c.setTent t x).chans = c.chans := rfl
@[simp] theorem Chip.setTent_units (c : Chip) (t : Nat) (x : Tent) : (c.setTent t x).units = c.units := rfl
@[simp] theorem Chip.setTent_tones (c : Chip) (t : Nat) (x : Tent) : (c.setTent t x).tones = c.tones := rfl
@[simp] theorem Chip.setTent_loops (c : Chip) (t : Nat) (x : Tent) : (c.setTent t x).loops = c.loops := rfl
@[simp] theorem Chip.setTent_tests (c : Chip) (t : Nat) (x : Tent) : (c.setTent t x).tests = c.tests := rfl
@[simp] theorem Chip.setTent_ticked (c : Chip) (t : Nat) (x : Tent) : (c.setTent t x).ticked = c.ticked := rfl
@[simp] theorem Chip.setTent_spareFor (c : Chip) (t : Nat) (x : Tent) : (c.setTent t x).spareFor = c.spareFor := rfl
@[simp] theorem Chip.setTent_capLeft (c : Chip) (t : Nat) (x : Tent) : (c.setTent t x).capLeft = c.capLeft := rfl
@[simp] theorem Chip.setTent_guySeed (c : Chip) (t : Nat) (x : Tent) : (c.setTent t x).guySeed = c.guySeed := rfl
@[simp] theorem Chip.setTent_trkLive (c : Chip) (t : Nat) (x : Tent) : (c.setTent t x).trkLive = c.trkLive := rfl
@[simp] theorem Chip.setTent_hkAvgNew (c : Chip) (t : Nat) (x : Tent) : (c.setTent t x).hkAvgNew = c.hkAvgNew := rfl
@[simp] theorem Chip.setTent_toneStart (c : Chip) (t : Nat) (x : Tent) : (c.setTent t x).toneStart = c.toneStart := rfl
@[simp] theorem Chip.setTent_toneLog (c : Chip) (t : Nat) (x : Tent) : (c.setTent t x).toneLog = c.toneLog := rfl
@[simp] theorem Chip.setTent_trigOld (c : Chip) (t : Nat) (x : Tent) : (c.setTent t x).trigOld = c.trigOld := rfl
@[simp] theorem Chip.setTent_pairLink (c : Chip) (t : Nat) (x : Tent) : (c.setTent t x).pairLink = c.pairLink := rfl
@[simp] theorem Chip.setTent_slots (c : Chip) (t : Nat) (x : Tent) : (c.setTent t x).slots = c.slots := rfl
@[simp] theorem Chip.setTent_radio (c : Chip) (t : Nat) (x : Tent) : (c.setTent t x).radio = c.radio := rfl
@[simp] theorem Chip.setTent_recs (c : Chip) (t : Nat) (x : Tent) : (c.setTent t x).recs = c.recs := rfl
@[simp] theorem Chip.setTent_loaded (c : Chip) (t : Nat) (x : Tent) : (c.setTent t x).loaded = c.loaded := rfl
@[simp] theorem Chip.setTent_cores (c : Chip) (t : Nat) (x : Tent) : (c.setTent t x).cores = c.cores := rfl
@[simp] theorem Chip.setTent_arrs (c : Chip) (t : Nat) (x : Tent) : (c.setTent t x).arrs = c.arrs := rfl
@[simp] theorem Chip.setTent_velds (c : Chip) (t : Nat) (x : Tent) : (c.setTent t x).velds = c.velds := rfl
@[simp] theorem Chip.setTent_tentWaits (c : Chip) (t : Nat) (x : Tent) : (c.setTent t x).tentWaits = c.tentWaits := rfl
@[simp] theorem Chip.setTent_passes (c : Chip) (t : Nat) (x : Tent) : (c.setTent t x).passes = c.passes := rfl
@[simp] theorem Chip.setTent_bankA (c : Chip) (t : Nat) (x : Tent) : (c.setTent t x).bankA = c.bankA := rfl
@[simp] theorem Chip.setTent_bankB (c : Chip) (t : Nat) (x : Tent) : (c.setTent t x).bankB = c.bankB := rfl
@[simp] theorem Chip.setTent_current (c : Chip) (t : Nat) (x : Tent) : (c.setTent t x).current = c.current := rfl
@[simp] theorem Chip.setTent_fws (c : Chip) (t : Nat) (x : Tent) : (c.setTent t x).fws = c.fws := rfl
@[simp] theorem Chip.setTent_rollback (c : Chip) (t : Nat) (x : Tent) : (c.setTent t x).rollback = c.rollback := rfl
@[simp] theorem Chip.setTent_drains (c : Chip) (t : Nat) (x : Tent) : (c.setTent t x).drains = c.drains := rfl
@[simp] theorem Chip.setTent_boot (c : Chip) (t : Nat) (x : Tent) : (c.setTent t x).boot = c.boot := rfl
@[simp] theorem Chip.setTent_coderJobs (c : Chip) (t : Nat) (x : Tent) : (c.setTent t x).coderJobs = c.coderJobs := rfl
@[simp] theorem Chip.setTent_coderNext (c : Chip) (t : Nat) (x : Tent) : (c.setTent t x).coderNext = c.coderNext := rfl
@[simp] theorem Chip.setTent_submits (c : Chip) (t : Nat) (x : Tent) : (c.setTent t x).submits = c.submits := rfl
@[simp] theorem Chip.setTent_harqs (c : Chip) (t : Nat) (x : Tent) : (c.setTent t x).harqs = c.harqs := rfl
@[simp] theorem Chip.setTent_sweeps (c : Chip) (t : Nat) (x : Tent) : (c.setTent t x).sweeps = c.sweeps := rfl
@[simp] theorem Chip.setTent_decCredit (c : Chip) (t : Nat) (x : Tent) : (c.setTent t x).decCredit = c.decCredit := rfl
@[simp] theorem Chip.setTent_encCredit (c : Chip) (t : Nat) (x : Tent) : (c.setTent t x).encCredit = c.encCredit := rfl
@[simp] theorem Chip.setTent_msgLast (c : Chip) (t : Nat) (x : Tent) : (c.setTent t x).msgLast = c.msgLast := rfl
@[simp] theorem Chip.setTent_valeCals (c : Chip) (t : Nat) (x : Tent) : (c.setTent t x).valeCals = c.valeCals := rfl
@[simp] theorem Chip.setTent_hkTrims (c : Chip) (t : Nat) (x : Tent) : (c.setTent t x).hkTrims = c.hkTrims := rfl
@[simp] theorem Chip.setTent_hkStamp (c : Chip) (t : Nat) (x : Tent) : (c.setTent t x).hkStamp = c.hkStamp := rfl
@[simp] theorem Chip.setTent_heat (c : Chip) (t : Nat) (x : Tent) : (c.setTent t x).heat = c.heat := rfl
@[simp] theorem Chip.setTent_act (c : Chip) (t : Nat) (x : Tent) : (c.setTent t x).act = c.act := rfl
@[simp] theorem Chip.setTent_actSeq (c : Chip) (t : Nat) (x : Tent) : (c.setTent t x).actSeq = c.actSeq := rfl
@[simp] theorem Chip.setTent_cursors (c : Chip) (t : Nat) (x : Tent) : (c.setTent t x).cursors = c.cursors := rfl

/-! ### Chip.setSlot -/

@[simp] theorem Chip.setSlot_device (c : Chip) (t k : Nat) (x : WSlot) : (c.setSlot t k x).device = c.device := rfl
@[simp] theorem Chip.setSlot_regs (c : Chip) (t k : Nat) (x : WSlot) : (c.setSlot t k x).regs = c.regs := rfl
@[simp] theorem Chip.setSlot_marks (c : Chip) (t k : Nat) (x : WSlot) : (c.setSlot t k x).marks = c.marks := rfl
@[simp] theorem Chip.setSlot_mem (c : Chip) (t k : Nat) (x : WSlot) : (c.setSlot t k x).mem = c.mem := rfl
@[simp] theorem Chip.setSlot_outs (c : Chip) (t k : Nat) (x : WSlot) : (c.setSlot t k x).outs = c.outs := rfl
@[simp] theorem Chip.setSlot_free (c : Chip) (t k : Nat) (x : WSlot) : (c.setSlot t k x).free = c.free := rfl
@[simp] theorem Chip.setSlot_boots (c : Chip) (t k : Nat) (x : WSlot) : (c.setSlot t k x).boots = c.boots := rfl
@[simp] theorem Chip.setSlot_gens (c : Chip) (t k : Nat) (x : WSlot) : (c.setSlot t k x).gens = c.gens := rfl
@[simp] theorem Chip.setSlot_gclk (c : Chip) (t k : Nat) (x : WSlot) : (c.setSlot t k x).gclk = c.gclk := rfl
@[simp] theorem Chip.setSlot_bud (c : Chip) (t k : Nat) (x : WSlot) : (c.setSlot t k x).bud = c.bud := rfl
@[simp] theorem Chip.setSlot_msgs (c : Chip) (t k : Nat) (x : WSlot) : (c.setSlot t k x).msgs = c.msgs := rfl
@[simp] theorem Chip.setSlot_mpq (c : Chip) (t k : Nat) (x : WSlot) : (c.setSlot t k x).mpq = c.mpq := rfl
@[simp] theorem Chip.setSlot_longs (c : Chip) (t k : Nat) (x : WSlot) : (c.setSlot t k x).longs = c.longs := rfl
@[simp] theorem Chip.setSlot_link (c : Chip) (t k : Nat) (x : WSlot) : (c.setSlot t k x).link = c.link := rfl
@[simp] theorem Chip.setSlot_reads (c : Chip) (t k : Nat) (x : WSlot) : (c.setSlot t k x).reads = c.reads := rfl
@[simp] theorem Chip.setSlot_dales (c : Chip) (t k : Nat) (x : WSlot) : (c.setSlot t k x).dales = c.dales := rfl
@[simp] theorem Chip.setSlot_banks (c : Chip) (t k : Nat) (x : WSlot) : (c.setSlot t k x).banks = c.banks := rfl
@[simp] theorem Chip.setSlot_adcs (c : Chip) (t k : Nat) (x : WSlot) : (c.setSlot t k x).adcs = c.adcs := rfl
@[simp] theorem Chip.setSlot_adcGain (c : Chip) (t k : Nat) (x : WSlot) : (c.setSlot t k x).adcGain = c.adcGain := rfl
@[simp] theorem Chip.setSlot_throttle (c : Chip) (t k : Nat) (x : WSlot) : (c.setSlot t k x).throttle = c.throttle := rfl
@[simp] theorem Chip.setSlot_chans (c : Chip) (t k : Nat) (x : WSlot) : (c.setSlot t k x).chans = c.chans := rfl
@[simp] theorem Chip.setSlot_units (c : Chip) (t k : Nat) (x : WSlot) : (c.setSlot t k x).units = c.units := rfl
@[simp] theorem Chip.setSlot_tones (c : Chip) (t k : Nat) (x : WSlot) : (c.setSlot t k x).tones = c.tones := rfl
@[simp] theorem Chip.setSlot_loops (c : Chip) (t k : Nat) (x : WSlot) : (c.setSlot t k x).loops = c.loops := rfl
@[simp] theorem Chip.setSlot_tests (c : Chip) (t k : Nat) (x : WSlot) : (c.setSlot t k x).tests = c.tests := rfl
@[simp] theorem Chip.setSlot_ticked (c : Chip) (t k : Nat) (x : WSlot) : (c.setSlot t k x).ticked = c.ticked := rfl
@[simp] theorem Chip.setSlot_spareFor (c : Chip) (t k : Nat) (x : WSlot) : (c.setSlot t k x).spareFor = c.spareFor := rfl
@[simp] theorem Chip.setSlot_capLeft (c : Chip) (t k : Nat) (x : WSlot) : (c.setSlot t k x).capLeft = c.capLeft := rfl
@[simp] theorem Chip.setSlot_guySeed (c : Chip) (t k : Nat) (x : WSlot) : (c.setSlot t k x).guySeed = c.guySeed := rfl
@[simp] theorem Chip.setSlot_trkLive (c : Chip) (t k : Nat) (x : WSlot) : (c.setSlot t k x).trkLive = c.trkLive := rfl
@[simp] theorem Chip.setSlot_hkAvgNew (c : Chip) (t k : Nat) (x : WSlot) : (c.setSlot t k x).hkAvgNew = c.hkAvgNew := rfl
@[simp] theorem Chip.setSlot_toneStart (c : Chip) (t k : Nat) (x : WSlot) : (c.setSlot t k x).toneStart = c.toneStart := rfl
@[simp] theorem Chip.setSlot_toneLog (c : Chip) (t k : Nat) (x : WSlot) : (c.setSlot t k x).toneLog = c.toneLog := rfl
@[simp] theorem Chip.setSlot_trigOld (c : Chip) (t k : Nat) (x : WSlot) : (c.setSlot t k x).trigOld = c.trigOld := rfl
@[simp] theorem Chip.setSlot_pairLink (c : Chip) (t k : Nat) (x : WSlot) : (c.setSlot t k x).pairLink = c.pairLink := rfl
@[simp] theorem Chip.setSlot_radio (c : Chip) (t k : Nat) (x : WSlot) : (c.setSlot t k x).radio = c.radio := rfl
@[simp] theorem Chip.setSlot_recs (c : Chip) (t k : Nat) (x : WSlot) : (c.setSlot t k x).recs = c.recs := rfl
@[simp] theorem Chip.setSlot_loaded (c : Chip) (t k : Nat) (x : WSlot) : (c.setSlot t k x).loaded = c.loaded := rfl
@[simp] theorem Chip.setSlot_cores (c : Chip) (t k : Nat) (x : WSlot) : (c.setSlot t k x).cores = c.cores := rfl
@[simp] theorem Chip.setSlot_arrs (c : Chip) (t k : Nat) (x : WSlot) : (c.setSlot t k x).arrs = c.arrs := rfl
@[simp] theorem Chip.setSlot_velds (c : Chip) (t k : Nat) (x : WSlot) : (c.setSlot t k x).velds = c.velds := rfl
@[simp] theorem Chip.setSlot_tents (c : Chip) (t k : Nat) (x : WSlot) : (c.setSlot t k x).tents = c.tents := rfl
@[simp] theorem Chip.setSlot_tentWaits (c : Chip) (t k : Nat) (x : WSlot) : (c.setSlot t k x).tentWaits = c.tentWaits := rfl
@[simp] theorem Chip.setSlot_passes (c : Chip) (t k : Nat) (x : WSlot) : (c.setSlot t k x).passes = c.passes := rfl
@[simp] theorem Chip.setSlot_bankA (c : Chip) (t k : Nat) (x : WSlot) : (c.setSlot t k x).bankA = c.bankA := rfl
@[simp] theorem Chip.setSlot_bankB (c : Chip) (t k : Nat) (x : WSlot) : (c.setSlot t k x).bankB = c.bankB := rfl
@[simp] theorem Chip.setSlot_current (c : Chip) (t k : Nat) (x : WSlot) : (c.setSlot t k x).current = c.current := rfl
@[simp] theorem Chip.setSlot_fws (c : Chip) (t k : Nat) (x : WSlot) : (c.setSlot t k x).fws = c.fws := rfl
@[simp] theorem Chip.setSlot_rollback (c : Chip) (t k : Nat) (x : WSlot) : (c.setSlot t k x).rollback = c.rollback := rfl
@[simp] theorem Chip.setSlot_drains (c : Chip) (t k : Nat) (x : WSlot) : (c.setSlot t k x).drains = c.drains := rfl
@[simp] theorem Chip.setSlot_boot (c : Chip) (t k : Nat) (x : WSlot) : (c.setSlot t k x).boot = c.boot := rfl
@[simp] theorem Chip.setSlot_coderJobs (c : Chip) (t k : Nat) (x : WSlot) : (c.setSlot t k x).coderJobs = c.coderJobs := rfl
@[simp] theorem Chip.setSlot_coderNext (c : Chip) (t k : Nat) (x : WSlot) : (c.setSlot t k x).coderNext = c.coderNext := rfl
@[simp] theorem Chip.setSlot_submits (c : Chip) (t k : Nat) (x : WSlot) : (c.setSlot t k x).submits = c.submits := rfl
@[simp] theorem Chip.setSlot_harqs (c : Chip) (t k : Nat) (x : WSlot) : (c.setSlot t k x).harqs = c.harqs := rfl
@[simp] theorem Chip.setSlot_sweeps (c : Chip) (t k : Nat) (x : WSlot) : (c.setSlot t k x).sweeps = c.sweeps := rfl
@[simp] theorem Chip.setSlot_decCredit (c : Chip) (t k : Nat) (x : WSlot) : (c.setSlot t k x).decCredit = c.decCredit := rfl
@[simp] theorem Chip.setSlot_encCredit (c : Chip) (t k : Nat) (x : WSlot) : (c.setSlot t k x).encCredit = c.encCredit := rfl
@[simp] theorem Chip.setSlot_msgLast (c : Chip) (t k : Nat) (x : WSlot) : (c.setSlot t k x).msgLast = c.msgLast := rfl
@[simp] theorem Chip.setSlot_valeCals (c : Chip) (t k : Nat) (x : WSlot) : (c.setSlot t k x).valeCals = c.valeCals := rfl
@[simp] theorem Chip.setSlot_hkTrims (c : Chip) (t k : Nat) (x : WSlot) : (c.setSlot t k x).hkTrims = c.hkTrims := rfl
@[simp] theorem Chip.setSlot_hkStamp (c : Chip) (t k : Nat) (x : WSlot) : (c.setSlot t k x).hkStamp = c.hkStamp := rfl
@[simp] theorem Chip.setSlot_heat (c : Chip) (t k : Nat) (x : WSlot) : (c.setSlot t k x).heat = c.heat := rfl
@[simp] theorem Chip.setSlot_act (c : Chip) (t k : Nat) (x : WSlot) : (c.setSlot t k x).act = c.act := rfl
@[simp] theorem Chip.setSlot_actSeq (c : Chip) (t k : Nat) (x : WSlot) : (c.setSlot t k x).actSeq = c.actSeq := rfl
@[simp] theorem Chip.setSlot_cursors (c : Chip) (t k : Nat) (x : WSlot) : (c.setSlot t k x).cursors = c.cursors := rfl

/-! ### Chip.setCore -/

@[simp] theorem Chip.setCore_device (c : Chip) (i : Nat) (x : Core) : (c.setCore i x).device = c.device := rfl
@[simp] theorem Chip.setCore_regs (c : Chip) (i : Nat) (x : Core) : (c.setCore i x).regs = c.regs := rfl
@[simp] theorem Chip.setCore_marks (c : Chip) (i : Nat) (x : Core) : (c.setCore i x).marks = c.marks := rfl
@[simp] theorem Chip.setCore_mem (c : Chip) (i : Nat) (x : Core) : (c.setCore i x).mem = c.mem := rfl
@[simp] theorem Chip.setCore_outs (c : Chip) (i : Nat) (x : Core) : (c.setCore i x).outs = c.outs := rfl
@[simp] theorem Chip.setCore_free (c : Chip) (i : Nat) (x : Core) : (c.setCore i x).free = c.free := rfl
@[simp] theorem Chip.setCore_boots (c : Chip) (i : Nat) (x : Core) : (c.setCore i x).boots = c.boots := rfl
@[simp] theorem Chip.setCore_gens (c : Chip) (i : Nat) (x : Core) : (c.setCore i x).gens = c.gens := rfl
@[simp] theorem Chip.setCore_gclk (c : Chip) (i : Nat) (x : Core) : (c.setCore i x).gclk = c.gclk := rfl
@[simp] theorem Chip.setCore_bud (c : Chip) (i : Nat) (x : Core) : (c.setCore i x).bud = c.bud := rfl
@[simp] theorem Chip.setCore_msgs (c : Chip) (i : Nat) (x : Core) : (c.setCore i x).msgs = c.msgs := rfl
@[simp] theorem Chip.setCore_mpq (c : Chip) (i : Nat) (x : Core) : (c.setCore i x).mpq = c.mpq := rfl
@[simp] theorem Chip.setCore_longs (c : Chip) (i : Nat) (x : Core) : (c.setCore i x).longs = c.longs := rfl
@[simp] theorem Chip.setCore_link (c : Chip) (i : Nat) (x : Core) : (c.setCore i x).link = c.link := rfl
@[simp] theorem Chip.setCore_reads (c : Chip) (i : Nat) (x : Core) : (c.setCore i x).reads = c.reads := rfl
@[simp] theorem Chip.setCore_dales (c : Chip) (i : Nat) (x : Core) : (c.setCore i x).dales = c.dales := rfl
@[simp] theorem Chip.setCore_banks (c : Chip) (i : Nat) (x : Core) : (c.setCore i x).banks = c.banks := rfl
@[simp] theorem Chip.setCore_adcs (c : Chip) (i : Nat) (x : Core) : (c.setCore i x).adcs = c.adcs := rfl
@[simp] theorem Chip.setCore_adcGain (c : Chip) (i : Nat) (x : Core) : (c.setCore i x).adcGain = c.adcGain := rfl
@[simp] theorem Chip.setCore_throttle (c : Chip) (i : Nat) (x : Core) : (c.setCore i x).throttle = c.throttle := rfl
@[simp] theorem Chip.setCore_chans (c : Chip) (i : Nat) (x : Core) : (c.setCore i x).chans = c.chans := rfl
@[simp] theorem Chip.setCore_units (c : Chip) (i : Nat) (x : Core) : (c.setCore i x).units = c.units := rfl
@[simp] theorem Chip.setCore_tones (c : Chip) (i : Nat) (x : Core) : (c.setCore i x).tones = c.tones := rfl
@[simp] theorem Chip.setCore_loops (c : Chip) (i : Nat) (x : Core) : (c.setCore i x).loops = c.loops := rfl
@[simp] theorem Chip.setCore_tests (c : Chip) (i : Nat) (x : Core) : (c.setCore i x).tests = c.tests := rfl
@[simp] theorem Chip.setCore_ticked (c : Chip) (i : Nat) (x : Core) : (c.setCore i x).ticked = c.ticked := rfl
@[simp] theorem Chip.setCore_spareFor (c : Chip) (i : Nat) (x : Core) : (c.setCore i x).spareFor = c.spareFor := rfl
@[simp] theorem Chip.setCore_capLeft (c : Chip) (i : Nat) (x : Core) : (c.setCore i x).capLeft = c.capLeft := rfl
@[simp] theorem Chip.setCore_guySeed (c : Chip) (i : Nat) (x : Core) : (c.setCore i x).guySeed = c.guySeed := rfl
@[simp] theorem Chip.setCore_trkLive (c : Chip) (i : Nat) (x : Core) : (c.setCore i x).trkLive = c.trkLive := rfl
@[simp] theorem Chip.setCore_hkAvgNew (c : Chip) (i : Nat) (x : Core) : (c.setCore i x).hkAvgNew = c.hkAvgNew := rfl
@[simp] theorem Chip.setCore_toneStart (c : Chip) (i : Nat) (x : Core) : (c.setCore i x).toneStart = c.toneStart := rfl
@[simp] theorem Chip.setCore_toneLog (c : Chip) (i : Nat) (x : Core) : (c.setCore i x).toneLog = c.toneLog := rfl
@[simp] theorem Chip.setCore_trigOld (c : Chip) (i : Nat) (x : Core) : (c.setCore i x).trigOld = c.trigOld := rfl
@[simp] theorem Chip.setCore_pairLink (c : Chip) (i : Nat) (x : Core) : (c.setCore i x).pairLink = c.pairLink := rfl
@[simp] theorem Chip.setCore_slots (c : Chip) (i : Nat) (x : Core) : (c.setCore i x).slots = c.slots := rfl
@[simp] theorem Chip.setCore_radio (c : Chip) (i : Nat) (x : Core) : (c.setCore i x).radio = c.radio := rfl
@[simp] theorem Chip.setCore_recs (c : Chip) (i : Nat) (x : Core) : (c.setCore i x).recs = c.recs := rfl
@[simp] theorem Chip.setCore_loaded (c : Chip) (i : Nat) (x : Core) : (c.setCore i x).loaded = c.loaded := rfl
@[simp] theorem Chip.setCore_arrs (c : Chip) (i : Nat) (x : Core) : (c.setCore i x).arrs = c.arrs := rfl
@[simp] theorem Chip.setCore_velds (c : Chip) (i : Nat) (x : Core) : (c.setCore i x).velds = c.velds := rfl
@[simp] theorem Chip.setCore_tents (c : Chip) (i : Nat) (x : Core) : (c.setCore i x).tents = c.tents := rfl
@[simp] theorem Chip.setCore_tentWaits (c : Chip) (i : Nat) (x : Core) : (c.setCore i x).tentWaits = c.tentWaits := rfl
@[simp] theorem Chip.setCore_passes (c : Chip) (i : Nat) (x : Core) : (c.setCore i x).passes = c.passes := rfl
@[simp] theorem Chip.setCore_bankA (c : Chip) (i : Nat) (x : Core) : (c.setCore i x).bankA = c.bankA := rfl
@[simp] theorem Chip.setCore_bankB (c : Chip) (i : Nat) (x : Core) : (c.setCore i x).bankB = c.bankB := rfl
@[simp] theorem Chip.setCore_current (c : Chip) (i : Nat) (x : Core) : (c.setCore i x).current = c.current := rfl
@[simp] theorem Chip.setCore_fws (c : Chip) (i : Nat) (x : Core) : (c.setCore i x).fws = c.fws := rfl
@[simp] theorem Chip.setCore_rollback (c : Chip) (i : Nat) (x : Core) : (c.setCore i x).rollback = c.rollback := rfl
@[simp] theorem Chip.setCore_drains (c : Chip) (i : Nat) (x : Core) : (c.setCore i x).drains = c.drains := rfl
@[simp] theorem Chip.setCore_boot (c : Chip) (i : Nat) (x : Core) : (c.setCore i x).boot = c.boot := rfl
@[simp] theorem Chip.setCore_coderJobs (c : Chip) (i : Nat) (x : Core) : (c.setCore i x).coderJobs = c.coderJobs := rfl
@[simp] theorem Chip.setCore_coderNext (c : Chip) (i : Nat) (x : Core) : (c.setCore i x).coderNext = c.coderNext := rfl
@[simp] theorem Chip.setCore_submits (c : Chip) (i : Nat) (x : Core) : (c.setCore i x).submits = c.submits := rfl
@[simp] theorem Chip.setCore_harqs (c : Chip) (i : Nat) (x : Core) : (c.setCore i x).harqs = c.harqs := rfl
@[simp] theorem Chip.setCore_sweeps (c : Chip) (i : Nat) (x : Core) : (c.setCore i x).sweeps = c.sweeps := rfl
@[simp] theorem Chip.setCore_decCredit (c : Chip) (i : Nat) (x : Core) : (c.setCore i x).decCredit = c.decCredit := rfl
@[simp] theorem Chip.setCore_encCredit (c : Chip) (i : Nat) (x : Core) : (c.setCore i x).encCredit = c.encCredit := rfl
@[simp] theorem Chip.setCore_msgLast (c : Chip) (i : Nat) (x : Core) : (c.setCore i x).msgLast = c.msgLast := rfl
@[simp] theorem Chip.setCore_valeCals (c : Chip) (i : Nat) (x : Core) : (c.setCore i x).valeCals = c.valeCals := rfl
@[simp] theorem Chip.setCore_hkTrims (c : Chip) (i : Nat) (x : Core) : (c.setCore i x).hkTrims = c.hkTrims := rfl
@[simp] theorem Chip.setCore_hkStamp (c : Chip) (i : Nat) (x : Core) : (c.setCore i x).hkStamp = c.hkStamp := rfl
@[simp] theorem Chip.setCore_heat (c : Chip) (i : Nat) (x : Core) : (c.setCore i x).heat = c.heat := rfl
@[simp] theorem Chip.setCore_act (c : Chip) (i : Nat) (x : Core) : (c.setCore i x).act = c.act := rfl
@[simp] theorem Chip.setCore_actSeq (c : Chip) (i : Nat) (x : Core) : (c.setCore i x).actSeq = c.actSeq := rfl
@[simp] theorem Chip.setCore_cursors (c : Chip) (i : Nat) (x : Core) : (c.setCore i x).cursors = c.cursors := rfl

/-! ### Chip.setArr -/

@[simp] theorem Chip.setArr_device (c : Chip) (n p : Nat) (x : Arr) : (c.setArr n p x).device = c.device := rfl
@[simp] theorem Chip.setArr_regs (c : Chip) (n p : Nat) (x : Arr) : (c.setArr n p x).regs = c.regs := rfl
@[simp] theorem Chip.setArr_marks (c : Chip) (n p : Nat) (x : Arr) : (c.setArr n p x).marks = c.marks := rfl
@[simp] theorem Chip.setArr_mem (c : Chip) (n p : Nat) (x : Arr) : (c.setArr n p x).mem = c.mem := rfl
@[simp] theorem Chip.setArr_outs (c : Chip) (n p : Nat) (x : Arr) : (c.setArr n p x).outs = c.outs := rfl
@[simp] theorem Chip.setArr_free (c : Chip) (n p : Nat) (x : Arr) : (c.setArr n p x).free = c.free := rfl
@[simp] theorem Chip.setArr_boots (c : Chip) (n p : Nat) (x : Arr) : (c.setArr n p x).boots = c.boots := rfl
@[simp] theorem Chip.setArr_gens (c : Chip) (n p : Nat) (x : Arr) : (c.setArr n p x).gens = c.gens := rfl
@[simp] theorem Chip.setArr_gclk (c : Chip) (n p : Nat) (x : Arr) : (c.setArr n p x).gclk = c.gclk := rfl
@[simp] theorem Chip.setArr_bud (c : Chip) (n p : Nat) (x : Arr) : (c.setArr n p x).bud = c.bud := rfl
@[simp] theorem Chip.setArr_msgs (c : Chip) (n p : Nat) (x : Arr) : (c.setArr n p x).msgs = c.msgs := rfl
@[simp] theorem Chip.setArr_mpq (c : Chip) (n p : Nat) (x : Arr) : (c.setArr n p x).mpq = c.mpq := rfl
@[simp] theorem Chip.setArr_longs (c : Chip) (n p : Nat) (x : Arr) : (c.setArr n p x).longs = c.longs := rfl
@[simp] theorem Chip.setArr_link (c : Chip) (n p : Nat) (x : Arr) : (c.setArr n p x).link = c.link := rfl
@[simp] theorem Chip.setArr_reads (c : Chip) (n p : Nat) (x : Arr) : (c.setArr n p x).reads = c.reads := rfl
@[simp] theorem Chip.setArr_dales (c : Chip) (n p : Nat) (x : Arr) : (c.setArr n p x).dales = c.dales := rfl
@[simp] theorem Chip.setArr_banks (c : Chip) (n p : Nat) (x : Arr) : (c.setArr n p x).banks = c.banks := rfl
@[simp] theorem Chip.setArr_adcs (c : Chip) (n p : Nat) (x : Arr) : (c.setArr n p x).adcs = c.adcs := rfl
@[simp] theorem Chip.setArr_adcGain (c : Chip) (n p : Nat) (x : Arr) : (c.setArr n p x).adcGain = c.adcGain := rfl
@[simp] theorem Chip.setArr_throttle (c : Chip) (n p : Nat) (x : Arr) : (c.setArr n p x).throttle = c.throttle := rfl
@[simp] theorem Chip.setArr_chans (c : Chip) (n p : Nat) (x : Arr) : (c.setArr n p x).chans = c.chans := rfl
@[simp] theorem Chip.setArr_units (c : Chip) (n p : Nat) (x : Arr) : (c.setArr n p x).units = c.units := rfl
@[simp] theorem Chip.setArr_tones (c : Chip) (n p : Nat) (x : Arr) : (c.setArr n p x).tones = c.tones := rfl
@[simp] theorem Chip.setArr_loops (c : Chip) (n p : Nat) (x : Arr) : (c.setArr n p x).loops = c.loops := rfl
@[simp] theorem Chip.setArr_tests (c : Chip) (n p : Nat) (x : Arr) : (c.setArr n p x).tests = c.tests := rfl
@[simp] theorem Chip.setArr_ticked (c : Chip) (n p : Nat) (x : Arr) : (c.setArr n p x).ticked = c.ticked := rfl
@[simp] theorem Chip.setArr_spareFor (c : Chip) (n p : Nat) (x : Arr) : (c.setArr n p x).spareFor = c.spareFor := rfl
@[simp] theorem Chip.setArr_capLeft (c : Chip) (n p : Nat) (x : Arr) : (c.setArr n p x).capLeft = c.capLeft := rfl
@[simp] theorem Chip.setArr_guySeed (c : Chip) (n p : Nat) (x : Arr) : (c.setArr n p x).guySeed = c.guySeed := rfl
@[simp] theorem Chip.setArr_trkLive (c : Chip) (n p : Nat) (x : Arr) : (c.setArr n p x).trkLive = c.trkLive := rfl
@[simp] theorem Chip.setArr_hkAvgNew (c : Chip) (n p : Nat) (x : Arr) : (c.setArr n p x).hkAvgNew = c.hkAvgNew := rfl
@[simp] theorem Chip.setArr_toneStart (c : Chip) (n p : Nat) (x : Arr) : (c.setArr n p x).toneStart = c.toneStart := rfl
@[simp] theorem Chip.setArr_toneLog (c : Chip) (n p : Nat) (x : Arr) : (c.setArr n p x).toneLog = c.toneLog := rfl
@[simp] theorem Chip.setArr_trigOld (c : Chip) (n p : Nat) (x : Arr) : (c.setArr n p x).trigOld = c.trigOld := rfl
@[simp] theorem Chip.setArr_pairLink (c : Chip) (n p : Nat) (x : Arr) : (c.setArr n p x).pairLink = c.pairLink := rfl
@[simp] theorem Chip.setArr_slots (c : Chip) (n p : Nat) (x : Arr) : (c.setArr n p x).slots = c.slots := rfl
@[simp] theorem Chip.setArr_radio (c : Chip) (n p : Nat) (x : Arr) : (c.setArr n p x).radio = c.radio := rfl
@[simp] theorem Chip.setArr_recs (c : Chip) (n p : Nat) (x : Arr) : (c.setArr n p x).recs = c.recs := rfl
@[simp] theorem Chip.setArr_loaded (c : Chip) (n p : Nat) (x : Arr) : (c.setArr n p x).loaded = c.loaded := rfl
@[simp] theorem Chip.setArr_cores (c : Chip) (n p : Nat) (x : Arr) : (c.setArr n p x).cores = c.cores := rfl
@[simp] theorem Chip.setArr_velds (c : Chip) (n p : Nat) (x : Arr) : (c.setArr n p x).velds = c.velds := rfl
@[simp] theorem Chip.setArr_tents (c : Chip) (n p : Nat) (x : Arr) : (c.setArr n p x).tents = c.tents := rfl
@[simp] theorem Chip.setArr_tentWaits (c : Chip) (n p : Nat) (x : Arr) : (c.setArr n p x).tentWaits = c.tentWaits := rfl
@[simp] theorem Chip.setArr_passes (c : Chip) (n p : Nat) (x : Arr) : (c.setArr n p x).passes = c.passes := rfl
@[simp] theorem Chip.setArr_bankA (c : Chip) (n p : Nat) (x : Arr) : (c.setArr n p x).bankA = c.bankA := rfl
@[simp] theorem Chip.setArr_bankB (c : Chip) (n p : Nat) (x : Arr) : (c.setArr n p x).bankB = c.bankB := rfl
@[simp] theorem Chip.setArr_current (c : Chip) (n p : Nat) (x : Arr) : (c.setArr n p x).current = c.current := rfl
@[simp] theorem Chip.setArr_fws (c : Chip) (n p : Nat) (x : Arr) : (c.setArr n p x).fws = c.fws := rfl
@[simp] theorem Chip.setArr_rollback (c : Chip) (n p : Nat) (x : Arr) : (c.setArr n p x).rollback = c.rollback := rfl
@[simp] theorem Chip.setArr_drains (c : Chip) (n p : Nat) (x : Arr) : (c.setArr n p x).drains = c.drains := rfl
@[simp] theorem Chip.setArr_boot (c : Chip) (n p : Nat) (x : Arr) : (c.setArr n p x).boot = c.boot := rfl
@[simp] theorem Chip.setArr_coderJobs (c : Chip) (n p : Nat) (x : Arr) : (c.setArr n p x).coderJobs = c.coderJobs := rfl
@[simp] theorem Chip.setArr_coderNext (c : Chip) (n p : Nat) (x : Arr) : (c.setArr n p x).coderNext = c.coderNext := rfl
@[simp] theorem Chip.setArr_submits (c : Chip) (n p : Nat) (x : Arr) : (c.setArr n p x).submits = c.submits := rfl
@[simp] theorem Chip.setArr_harqs (c : Chip) (n p : Nat) (x : Arr) : (c.setArr n p x).harqs = c.harqs := rfl
@[simp] theorem Chip.setArr_sweeps (c : Chip) (n p : Nat) (x : Arr) : (c.setArr n p x).sweeps = c.sweeps := rfl
@[simp] theorem Chip.setArr_decCredit (c : Chip) (n p : Nat) (x : Arr) : (c.setArr n p x).decCredit = c.decCredit := rfl
@[simp] theorem Chip.setArr_encCredit (c : Chip) (n p : Nat) (x : Arr) : (c.setArr n p x).encCredit = c.encCredit := rfl
@[simp] theorem Chip.setArr_msgLast (c : Chip) (n p : Nat) (x : Arr) : (c.setArr n p x).msgLast = c.msgLast := rfl
@[simp] theorem Chip.setArr_valeCals (c : Chip) (n p : Nat) (x : Arr) : (c.setArr n p x).valeCals = c.valeCals := rfl
@[simp] theorem Chip.setArr_hkTrims (c : Chip) (n p : Nat) (x : Arr) : (c.setArr n p x).hkTrims = c.hkTrims := rfl
@[simp] theorem Chip.setArr_hkStamp (c : Chip) (n p : Nat) (x : Arr) : (c.setArr n p x).hkStamp = c.hkStamp := rfl
@[simp] theorem Chip.setArr_heat (c : Chip) (n p : Nat) (x : Arr) : (c.setArr n p x).heat = c.heat := rfl
@[simp] theorem Chip.setArr_act (c : Chip) (n p : Nat) (x : Arr) : (c.setArr n p x).act = c.act := rfl
@[simp] theorem Chip.setArr_actSeq (c : Chip) (n p : Nat) (x : Arr) : (c.setArr n p x).actSeq = c.actSeq := rfl
@[simp] theorem Chip.setArr_cursors (c : Chip) (n p : Nat) (x : Arr) : (c.setArr n p x).cursors = c.cursors := rfl

/-! ### Chip.setVeld -/

@[simp] theorem Chip.setVeld_device (c : Chip) (n : Nat) (x : Veld) : (c.setVeld n x).device = c.device := rfl
@[simp] theorem Chip.setVeld_regs (c : Chip) (n : Nat) (x : Veld) : (c.setVeld n x).regs = c.regs := rfl
@[simp] theorem Chip.setVeld_marks (c : Chip) (n : Nat) (x : Veld) : (c.setVeld n x).marks = c.marks := rfl
@[simp] theorem Chip.setVeld_mem (c : Chip) (n : Nat) (x : Veld) : (c.setVeld n x).mem = c.mem := rfl
@[simp] theorem Chip.setVeld_outs (c : Chip) (n : Nat) (x : Veld) : (c.setVeld n x).outs = c.outs := rfl
@[simp] theorem Chip.setVeld_free (c : Chip) (n : Nat) (x : Veld) : (c.setVeld n x).free = c.free := rfl
@[simp] theorem Chip.setVeld_boots (c : Chip) (n : Nat) (x : Veld) : (c.setVeld n x).boots = c.boots := rfl
@[simp] theorem Chip.setVeld_gens (c : Chip) (n : Nat) (x : Veld) : (c.setVeld n x).gens = c.gens := rfl
@[simp] theorem Chip.setVeld_gclk (c : Chip) (n : Nat) (x : Veld) : (c.setVeld n x).gclk = c.gclk := rfl
@[simp] theorem Chip.setVeld_bud (c : Chip) (n : Nat) (x : Veld) : (c.setVeld n x).bud = c.bud := rfl
@[simp] theorem Chip.setVeld_msgs (c : Chip) (n : Nat) (x : Veld) : (c.setVeld n x).msgs = c.msgs := rfl
@[simp] theorem Chip.setVeld_mpq (c : Chip) (n : Nat) (x : Veld) : (c.setVeld n x).mpq = c.mpq := rfl
@[simp] theorem Chip.setVeld_longs (c : Chip) (n : Nat) (x : Veld) : (c.setVeld n x).longs = c.longs := rfl
@[simp] theorem Chip.setVeld_link (c : Chip) (n : Nat) (x : Veld) : (c.setVeld n x).link = c.link := rfl
@[simp] theorem Chip.setVeld_reads (c : Chip) (n : Nat) (x : Veld) : (c.setVeld n x).reads = c.reads := rfl
@[simp] theorem Chip.setVeld_dales (c : Chip) (n : Nat) (x : Veld) : (c.setVeld n x).dales = c.dales := rfl
@[simp] theorem Chip.setVeld_banks (c : Chip) (n : Nat) (x : Veld) : (c.setVeld n x).banks = c.banks := rfl
@[simp] theorem Chip.setVeld_adcs (c : Chip) (n : Nat) (x : Veld) : (c.setVeld n x).adcs = c.adcs := rfl
@[simp] theorem Chip.setVeld_adcGain (c : Chip) (n : Nat) (x : Veld) : (c.setVeld n x).adcGain = c.adcGain := rfl
@[simp] theorem Chip.setVeld_throttle (c : Chip) (n : Nat) (x : Veld) : (c.setVeld n x).throttle = c.throttle := rfl
@[simp] theorem Chip.setVeld_chans (c : Chip) (n : Nat) (x : Veld) : (c.setVeld n x).chans = c.chans := rfl
@[simp] theorem Chip.setVeld_units (c : Chip) (n : Nat) (x : Veld) : (c.setVeld n x).units = c.units := rfl
@[simp] theorem Chip.setVeld_tones (c : Chip) (n : Nat) (x : Veld) : (c.setVeld n x).tones = c.tones := rfl
@[simp] theorem Chip.setVeld_loops (c : Chip) (n : Nat) (x : Veld) : (c.setVeld n x).loops = c.loops := rfl
@[simp] theorem Chip.setVeld_tests (c : Chip) (n : Nat) (x : Veld) : (c.setVeld n x).tests = c.tests := rfl
@[simp] theorem Chip.setVeld_ticked (c : Chip) (n : Nat) (x : Veld) : (c.setVeld n x).ticked = c.ticked := rfl
@[simp] theorem Chip.setVeld_spareFor (c : Chip) (n : Nat) (x : Veld) : (c.setVeld n x).spareFor = c.spareFor := rfl
@[simp] theorem Chip.setVeld_capLeft (c : Chip) (n : Nat) (x : Veld) : (c.setVeld n x).capLeft = c.capLeft := rfl
@[simp] theorem Chip.setVeld_guySeed (c : Chip) (n : Nat) (x : Veld) : (c.setVeld n x).guySeed = c.guySeed := rfl
@[simp] theorem Chip.setVeld_trkLive (c : Chip) (n : Nat) (x : Veld) : (c.setVeld n x).trkLive = c.trkLive := rfl
@[simp] theorem Chip.setVeld_hkAvgNew (c : Chip) (n : Nat) (x : Veld) : (c.setVeld n x).hkAvgNew = c.hkAvgNew := rfl
@[simp] theorem Chip.setVeld_toneStart (c : Chip) (n : Nat) (x : Veld) : (c.setVeld n x).toneStart = c.toneStart := rfl
@[simp] theorem Chip.setVeld_toneLog (c : Chip) (n : Nat) (x : Veld) : (c.setVeld n x).toneLog = c.toneLog := rfl
@[simp] theorem Chip.setVeld_trigOld (c : Chip) (n : Nat) (x : Veld) : (c.setVeld n x).trigOld = c.trigOld := rfl
@[simp] theorem Chip.setVeld_pairLink (c : Chip) (n : Nat) (x : Veld) : (c.setVeld n x).pairLink = c.pairLink := rfl
@[simp] theorem Chip.setVeld_slots (c : Chip) (n : Nat) (x : Veld) : (c.setVeld n x).slots = c.slots := rfl
@[simp] theorem Chip.setVeld_radio (c : Chip) (n : Nat) (x : Veld) : (c.setVeld n x).radio = c.radio := rfl
@[simp] theorem Chip.setVeld_recs (c : Chip) (n : Nat) (x : Veld) : (c.setVeld n x).recs = c.recs := rfl
@[simp] theorem Chip.setVeld_loaded (c : Chip) (n : Nat) (x : Veld) : (c.setVeld n x).loaded = c.loaded := rfl
@[simp] theorem Chip.setVeld_cores (c : Chip) (n : Nat) (x : Veld) : (c.setVeld n x).cores = c.cores := rfl
@[simp] theorem Chip.setVeld_arrs (c : Chip) (n : Nat) (x : Veld) : (c.setVeld n x).arrs = c.arrs := rfl
@[simp] theorem Chip.setVeld_tents (c : Chip) (n : Nat) (x : Veld) : (c.setVeld n x).tents = c.tents := rfl
@[simp] theorem Chip.setVeld_tentWaits (c : Chip) (n : Nat) (x : Veld) : (c.setVeld n x).tentWaits = c.tentWaits := rfl
@[simp] theorem Chip.setVeld_passes (c : Chip) (n : Nat) (x : Veld) : (c.setVeld n x).passes = c.passes := rfl
@[simp] theorem Chip.setVeld_bankA (c : Chip) (n : Nat) (x : Veld) : (c.setVeld n x).bankA = c.bankA := rfl
@[simp] theorem Chip.setVeld_bankB (c : Chip) (n : Nat) (x : Veld) : (c.setVeld n x).bankB = c.bankB := rfl
@[simp] theorem Chip.setVeld_current (c : Chip) (n : Nat) (x : Veld) : (c.setVeld n x).current = c.current := rfl
@[simp] theorem Chip.setVeld_fws (c : Chip) (n : Nat) (x : Veld) : (c.setVeld n x).fws = c.fws := rfl
@[simp] theorem Chip.setVeld_rollback (c : Chip) (n : Nat) (x : Veld) : (c.setVeld n x).rollback = c.rollback := rfl
@[simp] theorem Chip.setVeld_drains (c : Chip) (n : Nat) (x : Veld) : (c.setVeld n x).drains = c.drains := rfl
@[simp] theorem Chip.setVeld_boot (c : Chip) (n : Nat) (x : Veld) : (c.setVeld n x).boot = c.boot := rfl
@[simp] theorem Chip.setVeld_coderJobs (c : Chip) (n : Nat) (x : Veld) : (c.setVeld n x).coderJobs = c.coderJobs := rfl
@[simp] theorem Chip.setVeld_coderNext (c : Chip) (n : Nat) (x : Veld) : (c.setVeld n x).coderNext = c.coderNext := rfl
@[simp] theorem Chip.setVeld_submits (c : Chip) (n : Nat) (x : Veld) : (c.setVeld n x).submits = c.submits := rfl
@[simp] theorem Chip.setVeld_harqs (c : Chip) (n : Nat) (x : Veld) : (c.setVeld n x).harqs = c.harqs := rfl
@[simp] theorem Chip.setVeld_sweeps (c : Chip) (n : Nat) (x : Veld) : (c.setVeld n x).sweeps = c.sweeps := rfl
@[simp] theorem Chip.setVeld_decCredit (c : Chip) (n : Nat) (x : Veld) : (c.setVeld n x).decCredit = c.decCredit := rfl
@[simp] theorem Chip.setVeld_encCredit (c : Chip) (n : Nat) (x : Veld) : (c.setVeld n x).encCredit = c.encCredit := rfl
@[simp] theorem Chip.setVeld_msgLast (c : Chip) (n : Nat) (x : Veld) : (c.setVeld n x).msgLast = c.msgLast := rfl
@[simp] theorem Chip.setVeld_valeCals (c : Chip) (n : Nat) (x : Veld) : (c.setVeld n x).valeCals = c.valeCals := rfl
@[simp] theorem Chip.setVeld_hkTrims (c : Chip) (n : Nat) (x : Veld) : (c.setVeld n x).hkTrims = c.hkTrims := rfl
@[simp] theorem Chip.setVeld_hkStamp (c : Chip) (n : Nat) (x : Veld) : (c.setVeld n x).hkStamp = c.hkStamp := rfl
@[simp] theorem Chip.setVeld_heat (c : Chip) (n : Nat) (x : Veld) : (c.setVeld n x).heat = c.heat := rfl
@[simp] theorem Chip.setVeld_act (c : Chip) (n : Nat) (x : Veld) : (c.setVeld n x).act = c.act := rfl
@[simp] theorem Chip.setVeld_actSeq (c : Chip) (n : Nat) (x : Veld) : (c.setVeld n x).actSeq = c.actSeq := rfl
@[simp] theorem Chip.setVeld_cursors (c : Chip) (n : Nat) (x : Veld) : (c.setVeld n x).cursors = c.cursors := rfl

/-! ### Chip.setThread -/

@[simp] theorem Chip.setThread_device (c : Chip) (h : Hart) (t : Thread) : (c.setThread h t).device = c.device := rfl
@[simp] theorem Chip.setThread_regs (c : Chip) (h : Hart) (t : Thread) : (c.setThread h t).regs = c.regs := rfl
@[simp] theorem Chip.setThread_marks (c : Chip) (h : Hart) (t : Thread) : (c.setThread h t).marks = c.marks := rfl
@[simp] theorem Chip.setThread_mem (c : Chip) (h : Hart) (t : Thread) : (c.setThread h t).mem = c.mem := rfl
@[simp] theorem Chip.setThread_outs (c : Chip) (h : Hart) (t : Thread) : (c.setThread h t).outs = c.outs := rfl
@[simp] theorem Chip.setThread_free (c : Chip) (h : Hart) (t : Thread) : (c.setThread h t).free = c.free := rfl
@[simp] theorem Chip.setThread_boots (c : Chip) (h : Hart) (t : Thread) : (c.setThread h t).boots = c.boots := rfl
@[simp] theorem Chip.setThread_gens (c : Chip) (h : Hart) (t : Thread) : (c.setThread h t).gens = c.gens := rfl
@[simp] theorem Chip.setThread_gclk (c : Chip) (h : Hart) (t : Thread) : (c.setThread h t).gclk = c.gclk := rfl
@[simp] theorem Chip.setThread_bud (c : Chip) (h : Hart) (t : Thread) : (c.setThread h t).bud = c.bud := rfl
@[simp] theorem Chip.setThread_msgs (c : Chip) (h : Hart) (t : Thread) : (c.setThread h t).msgs = c.msgs := rfl
@[simp] theorem Chip.setThread_mpq (c : Chip) (h : Hart) (t : Thread) : (c.setThread h t).mpq = c.mpq := rfl
@[simp] theorem Chip.setThread_longs (c : Chip) (h : Hart) (t : Thread) : (c.setThread h t).longs = c.longs := rfl
@[simp] theorem Chip.setThread_link (c : Chip) (h : Hart) (t : Thread) : (c.setThread h t).link = c.link := rfl
@[simp] theorem Chip.setThread_reads (c : Chip) (h : Hart) (t : Thread) : (c.setThread h t).reads = c.reads := rfl
@[simp] theorem Chip.setThread_dales (c : Chip) (h : Hart) (t : Thread) : (c.setThread h t).dales = c.dales := rfl
@[simp] theorem Chip.setThread_banks (c : Chip) (h : Hart) (t : Thread) : (c.setThread h t).banks = c.banks := rfl
@[simp] theorem Chip.setThread_adcs (c : Chip) (h : Hart) (t : Thread) : (c.setThread h t).adcs = c.adcs := rfl
@[simp] theorem Chip.setThread_adcGain (c : Chip) (h : Hart) (t : Thread) : (c.setThread h t).adcGain = c.adcGain := rfl
@[simp] theorem Chip.setThread_throttle (c : Chip) (h : Hart) (t : Thread) : (c.setThread h t).throttle = c.throttle := rfl
@[simp] theorem Chip.setThread_chans (c : Chip) (h : Hart) (t : Thread) : (c.setThread h t).chans = c.chans := rfl
@[simp] theorem Chip.setThread_units (c : Chip) (h : Hart) (t : Thread) : (c.setThread h t).units = c.units := rfl
@[simp] theorem Chip.setThread_tones (c : Chip) (h : Hart) (t : Thread) : (c.setThread h t).tones = c.tones := rfl
@[simp] theorem Chip.setThread_loops (c : Chip) (h : Hart) (t : Thread) : (c.setThread h t).loops = c.loops := rfl
@[simp] theorem Chip.setThread_tests (c : Chip) (h : Hart) (t : Thread) : (c.setThread h t).tests = c.tests := rfl
@[simp] theorem Chip.setThread_ticked (c : Chip) (h : Hart) (t : Thread) : (c.setThread h t).ticked = c.ticked := rfl
@[simp] theorem Chip.setThread_spareFor (c : Chip) (h : Hart) (t : Thread) : (c.setThread h t).spareFor = c.spareFor := rfl
@[simp] theorem Chip.setThread_capLeft (c : Chip) (h : Hart) (t : Thread) : (c.setThread h t).capLeft = c.capLeft := rfl
@[simp] theorem Chip.setThread_guySeed (c : Chip) (h : Hart) (t : Thread) : (c.setThread h t).guySeed = c.guySeed := rfl
@[simp] theorem Chip.setThread_trkLive (c : Chip) (h : Hart) (t : Thread) : (c.setThread h t).trkLive = c.trkLive := rfl
@[simp] theorem Chip.setThread_hkAvgNew (c : Chip) (h : Hart) (t : Thread) : (c.setThread h t).hkAvgNew = c.hkAvgNew := rfl
@[simp] theorem Chip.setThread_toneStart (c : Chip) (h : Hart) (t : Thread) : (c.setThread h t).toneStart = c.toneStart := rfl
@[simp] theorem Chip.setThread_toneLog (c : Chip) (h : Hart) (t : Thread) : (c.setThread h t).toneLog = c.toneLog := rfl
@[simp] theorem Chip.setThread_trigOld (c : Chip) (h : Hart) (t : Thread) : (c.setThread h t).trigOld = c.trigOld := rfl
@[simp] theorem Chip.setThread_pairLink (c : Chip) (h : Hart) (t : Thread) : (c.setThread h t).pairLink = c.pairLink := rfl
@[simp] theorem Chip.setThread_slots (c : Chip) (h : Hart) (t : Thread) : (c.setThread h t).slots = c.slots := rfl
@[simp] theorem Chip.setThread_radio (c : Chip) (h : Hart) (t : Thread) : (c.setThread h t).radio = c.radio := rfl
@[simp] theorem Chip.setThread_recs (c : Chip) (h : Hart) (t : Thread) : (c.setThread h t).recs = c.recs := rfl
@[simp] theorem Chip.setThread_loaded (c : Chip) (h : Hart) (t : Thread) : (c.setThread h t).loaded = c.loaded := rfl
@[simp] theorem Chip.setThread_arrs (c : Chip) (h : Hart) (t : Thread) : (c.setThread h t).arrs = c.arrs := rfl
@[simp] theorem Chip.setThread_velds (c : Chip) (h : Hart) (t : Thread) : (c.setThread h t).velds = c.velds := rfl
@[simp] theorem Chip.setThread_tents (c : Chip) (h : Hart) (t : Thread) : (c.setThread h t).tents = c.tents := rfl
@[simp] theorem Chip.setThread_tentWaits (c : Chip) (h : Hart) (t : Thread) : (c.setThread h t).tentWaits = c.tentWaits := rfl
@[simp] theorem Chip.setThread_passes (c : Chip) (h : Hart) (t : Thread) : (c.setThread h t).passes = c.passes := rfl
@[simp] theorem Chip.setThread_bankA (c : Chip) (h : Hart) (t : Thread) : (c.setThread h t).bankA = c.bankA := rfl
@[simp] theorem Chip.setThread_bankB (c : Chip) (h : Hart) (t : Thread) : (c.setThread h t).bankB = c.bankB := rfl
@[simp] theorem Chip.setThread_current (c : Chip) (h : Hart) (t : Thread) : (c.setThread h t).current = c.current := rfl
@[simp] theorem Chip.setThread_fws (c : Chip) (h : Hart) (t : Thread) : (c.setThread h t).fws = c.fws := rfl
@[simp] theorem Chip.setThread_rollback (c : Chip) (h : Hart) (t : Thread) : (c.setThread h t).rollback = c.rollback := rfl
@[simp] theorem Chip.setThread_drains (c : Chip) (h : Hart) (t : Thread) : (c.setThread h t).drains = c.drains := rfl
@[simp] theorem Chip.setThread_boot (c : Chip) (h : Hart) (t : Thread) : (c.setThread h t).boot = c.boot := rfl
@[simp] theorem Chip.setThread_coderJobs (c : Chip) (h : Hart) (t : Thread) : (c.setThread h t).coderJobs = c.coderJobs := rfl
@[simp] theorem Chip.setThread_coderNext (c : Chip) (h : Hart) (t : Thread) : (c.setThread h t).coderNext = c.coderNext := rfl
@[simp] theorem Chip.setThread_submits (c : Chip) (h : Hart) (t : Thread) : (c.setThread h t).submits = c.submits := rfl
@[simp] theorem Chip.setThread_harqs (c : Chip) (h : Hart) (t : Thread) : (c.setThread h t).harqs = c.harqs := rfl
@[simp] theorem Chip.setThread_sweeps (c : Chip) (h : Hart) (t : Thread) : (c.setThread h t).sweeps = c.sweeps := rfl
@[simp] theorem Chip.setThread_decCredit (c : Chip) (h : Hart) (t : Thread) : (c.setThread h t).decCredit = c.decCredit := rfl
@[simp] theorem Chip.setThread_encCredit (c : Chip) (h : Hart) (t : Thread) : (c.setThread h t).encCredit = c.encCredit := rfl
@[simp] theorem Chip.setThread_msgLast (c : Chip) (h : Hart) (t : Thread) : (c.setThread h t).msgLast = c.msgLast := rfl
@[simp] theorem Chip.setThread_valeCals (c : Chip) (h : Hart) (t : Thread) : (c.setThread h t).valeCals = c.valeCals := rfl
@[simp] theorem Chip.setThread_hkTrims (c : Chip) (h : Hart) (t : Thread) : (c.setThread h t).hkTrims = c.hkTrims := rfl
@[simp] theorem Chip.setThread_hkStamp (c : Chip) (h : Hart) (t : Thread) : (c.setThread h t).hkStamp = c.hkStamp := rfl
@[simp] theorem Chip.setThread_heat (c : Chip) (h : Hart) (t : Thread) : (c.setThread h t).heat = c.heat := rfl
@[simp] theorem Chip.setThread_act (c : Chip) (h : Hart) (t : Thread) : (c.setThread h t).act = c.act := rfl
@[simp] theorem Chip.setThread_actSeq (c : Chip) (h : Hart) (t : Thread) : (c.setThread h t).actSeq = c.actSeq := rfl
@[simp] theorem Chip.setThread_cursors (c : Chip) (h : Hart) (t : Thread) : (c.setThread h t).cursors = c.cursors := rfl

/-! ### Chip.setXr -/

@[simp] theorem Chip.setXr_device (c : Chip) (h : Hart) (r : BitVec 5) (x : Word) : (c.setXr h r x).device = c.device := rfl
@[simp] theorem Chip.setXr_regs (c : Chip) (h : Hart) (r : BitVec 5) (x : Word) : (c.setXr h r x).regs = c.regs := rfl
@[simp] theorem Chip.setXr_marks (c : Chip) (h : Hart) (r : BitVec 5) (x : Word) : (c.setXr h r x).marks = c.marks := rfl
@[simp] theorem Chip.setXr_mem (c : Chip) (h : Hart) (r : BitVec 5) (x : Word) : (c.setXr h r x).mem = c.mem := rfl
@[simp] theorem Chip.setXr_outs (c : Chip) (h : Hart) (r : BitVec 5) (x : Word) : (c.setXr h r x).outs = c.outs := rfl
@[simp] theorem Chip.setXr_free (c : Chip) (h : Hart) (r : BitVec 5) (x : Word) : (c.setXr h r x).free = c.free := rfl
@[simp] theorem Chip.setXr_boots (c : Chip) (h : Hart) (r : BitVec 5) (x : Word) : (c.setXr h r x).boots = c.boots := rfl
@[simp] theorem Chip.setXr_gens (c : Chip) (h : Hart) (r : BitVec 5) (x : Word) : (c.setXr h r x).gens = c.gens := rfl
@[simp] theorem Chip.setXr_gclk (c : Chip) (h : Hart) (r : BitVec 5) (x : Word) : (c.setXr h r x).gclk = c.gclk := rfl
@[simp] theorem Chip.setXr_bud (c : Chip) (h : Hart) (r : BitVec 5) (x : Word) : (c.setXr h r x).bud = c.bud := rfl
@[simp] theorem Chip.setXr_msgs (c : Chip) (h : Hart) (r : BitVec 5) (x : Word) : (c.setXr h r x).msgs = c.msgs := rfl
@[simp] theorem Chip.setXr_mpq (c : Chip) (h : Hart) (r : BitVec 5) (x : Word) : (c.setXr h r x).mpq = c.mpq := rfl
@[simp] theorem Chip.setXr_longs (c : Chip) (h : Hart) (r : BitVec 5) (x : Word) : (c.setXr h r x).longs = c.longs := rfl
@[simp] theorem Chip.setXr_link (c : Chip) (h : Hart) (r : BitVec 5) (x : Word) : (c.setXr h r x).link = c.link := rfl
@[simp] theorem Chip.setXr_reads (c : Chip) (h : Hart) (r : BitVec 5) (x : Word) : (c.setXr h r x).reads = c.reads := rfl
@[simp] theorem Chip.setXr_dales (c : Chip) (h : Hart) (r : BitVec 5) (x : Word) : (c.setXr h r x).dales = c.dales := rfl
@[simp] theorem Chip.setXr_banks (c : Chip) (h : Hart) (r : BitVec 5) (x : Word) : (c.setXr h r x).banks = c.banks := rfl
@[simp] theorem Chip.setXr_adcs (c : Chip) (h : Hart) (r : BitVec 5) (x : Word) : (c.setXr h r x).adcs = c.adcs := rfl
@[simp] theorem Chip.setXr_adcGain (c : Chip) (h : Hart) (r : BitVec 5) (x : Word) : (c.setXr h r x).adcGain = c.adcGain := rfl
@[simp] theorem Chip.setXr_throttle (c : Chip) (h : Hart) (r : BitVec 5) (x : Word) : (c.setXr h r x).throttle = c.throttle := rfl
@[simp] theorem Chip.setXr_chans (c : Chip) (h : Hart) (r : BitVec 5) (x : Word) : (c.setXr h r x).chans = c.chans := rfl
@[simp] theorem Chip.setXr_units (c : Chip) (h : Hart) (r : BitVec 5) (x : Word) : (c.setXr h r x).units = c.units := rfl
@[simp] theorem Chip.setXr_tones (c : Chip) (h : Hart) (r : BitVec 5) (x : Word) : (c.setXr h r x).tones = c.tones := rfl
@[simp] theorem Chip.setXr_loops (c : Chip) (h : Hart) (r : BitVec 5) (x : Word) : (c.setXr h r x).loops = c.loops := rfl
@[simp] theorem Chip.setXr_tests (c : Chip) (h : Hart) (r : BitVec 5) (x : Word) : (c.setXr h r x).tests = c.tests := rfl
@[simp] theorem Chip.setXr_ticked (c : Chip) (h : Hart) (r : BitVec 5) (x : Word) : (c.setXr h r x).ticked = c.ticked := rfl
@[simp] theorem Chip.setXr_spareFor (c : Chip) (h : Hart) (r : BitVec 5) (x : Word) : (c.setXr h r x).spareFor = c.spareFor := rfl
@[simp] theorem Chip.setXr_capLeft (c : Chip) (h : Hart) (r : BitVec 5) (x : Word) : (c.setXr h r x).capLeft = c.capLeft := rfl
@[simp] theorem Chip.setXr_guySeed (c : Chip) (h : Hart) (r : BitVec 5) (x : Word) : (c.setXr h r x).guySeed = c.guySeed := rfl
@[simp] theorem Chip.setXr_trkLive (c : Chip) (h : Hart) (r : BitVec 5) (x : Word) : (c.setXr h r x).trkLive = c.trkLive := rfl
@[simp] theorem Chip.setXr_hkAvgNew (c : Chip) (h : Hart) (r : BitVec 5) (x : Word) : (c.setXr h r x).hkAvgNew = c.hkAvgNew := rfl
@[simp] theorem Chip.setXr_toneStart (c : Chip) (h : Hart) (r : BitVec 5) (x : Word) : (c.setXr h r x).toneStart = c.toneStart := rfl
@[simp] theorem Chip.setXr_toneLog (c : Chip) (h : Hart) (r : BitVec 5) (x : Word) : (c.setXr h r x).toneLog = c.toneLog := rfl
@[simp] theorem Chip.setXr_trigOld (c : Chip) (h : Hart) (r : BitVec 5) (x : Word) : (c.setXr h r x).trigOld = c.trigOld := rfl
@[simp] theorem Chip.setXr_pairLink (c : Chip) (h : Hart) (r : BitVec 5) (x : Word) : (c.setXr h r x).pairLink = c.pairLink := rfl
@[simp] theorem Chip.setXr_slots (c : Chip) (h : Hart) (r : BitVec 5) (x : Word) : (c.setXr h r x).slots = c.slots := rfl
@[simp] theorem Chip.setXr_radio (c : Chip) (h : Hart) (r : BitVec 5) (x : Word) : (c.setXr h r x).radio = c.radio := rfl
@[simp] theorem Chip.setXr_recs (c : Chip) (h : Hart) (r : BitVec 5) (x : Word) : (c.setXr h r x).recs = c.recs := rfl
@[simp] theorem Chip.setXr_loaded (c : Chip) (h : Hart) (r : BitVec 5) (x : Word) : (c.setXr h r x).loaded = c.loaded := rfl
@[simp] theorem Chip.setXr_arrs (c : Chip) (h : Hart) (r : BitVec 5) (x : Word) : (c.setXr h r x).arrs = c.arrs := rfl
@[simp] theorem Chip.setXr_velds (c : Chip) (h : Hart) (r : BitVec 5) (x : Word) : (c.setXr h r x).velds = c.velds := rfl
@[simp] theorem Chip.setXr_tents (c : Chip) (h : Hart) (r : BitVec 5) (x : Word) : (c.setXr h r x).tents = c.tents := rfl
@[simp] theorem Chip.setXr_tentWaits (c : Chip) (h : Hart) (r : BitVec 5) (x : Word) : (c.setXr h r x).tentWaits = c.tentWaits := rfl
@[simp] theorem Chip.setXr_passes (c : Chip) (h : Hart) (r : BitVec 5) (x : Word) : (c.setXr h r x).passes = c.passes := rfl
@[simp] theorem Chip.setXr_bankA (c : Chip) (h : Hart) (r : BitVec 5) (x : Word) : (c.setXr h r x).bankA = c.bankA := rfl
@[simp] theorem Chip.setXr_bankB (c : Chip) (h : Hart) (r : BitVec 5) (x : Word) : (c.setXr h r x).bankB = c.bankB := rfl
@[simp] theorem Chip.setXr_current (c : Chip) (h : Hart) (r : BitVec 5) (x : Word) : (c.setXr h r x).current = c.current := rfl
@[simp] theorem Chip.setXr_fws (c : Chip) (h : Hart) (r : BitVec 5) (x : Word) : (c.setXr h r x).fws = c.fws := rfl
@[simp] theorem Chip.setXr_rollback (c : Chip) (h : Hart) (r : BitVec 5) (x : Word) : (c.setXr h r x).rollback = c.rollback := rfl
@[simp] theorem Chip.setXr_drains (c : Chip) (h : Hart) (r : BitVec 5) (x : Word) : (c.setXr h r x).drains = c.drains := rfl
@[simp] theorem Chip.setXr_boot (c : Chip) (h : Hart) (r : BitVec 5) (x : Word) : (c.setXr h r x).boot = c.boot := rfl
@[simp] theorem Chip.setXr_coderJobs (c : Chip) (h : Hart) (r : BitVec 5) (x : Word) : (c.setXr h r x).coderJobs = c.coderJobs := rfl
@[simp] theorem Chip.setXr_coderNext (c : Chip) (h : Hart) (r : BitVec 5) (x : Word) : (c.setXr h r x).coderNext = c.coderNext := rfl
@[simp] theorem Chip.setXr_submits (c : Chip) (h : Hart) (r : BitVec 5) (x : Word) : (c.setXr h r x).submits = c.submits := rfl
@[simp] theorem Chip.setXr_harqs (c : Chip) (h : Hart) (r : BitVec 5) (x : Word) : (c.setXr h r x).harqs = c.harqs := rfl
@[simp] theorem Chip.setXr_sweeps (c : Chip) (h : Hart) (r : BitVec 5) (x : Word) : (c.setXr h r x).sweeps = c.sweeps := rfl
@[simp] theorem Chip.setXr_decCredit (c : Chip) (h : Hart) (r : BitVec 5) (x : Word) : (c.setXr h r x).decCredit = c.decCredit := rfl
@[simp] theorem Chip.setXr_encCredit (c : Chip) (h : Hart) (r : BitVec 5) (x : Word) : (c.setXr h r x).encCredit = c.encCredit := rfl
@[simp] theorem Chip.setXr_msgLast (c : Chip) (h : Hart) (r : BitVec 5) (x : Word) : (c.setXr h r x).msgLast = c.msgLast := rfl
@[simp] theorem Chip.setXr_valeCals (c : Chip) (h : Hart) (r : BitVec 5) (x : Word) : (c.setXr h r x).valeCals = c.valeCals := rfl
@[simp] theorem Chip.setXr_hkTrims (c : Chip) (h : Hart) (r : BitVec 5) (x : Word) : (c.setXr h r x).hkTrims = c.hkTrims := rfl
@[simp] theorem Chip.setXr_hkStamp (c : Chip) (h : Hart) (r : BitVec 5) (x : Word) : (c.setXr h r x).hkStamp = c.hkStamp := rfl
@[simp] theorem Chip.setXr_heat (c : Chip) (h : Hart) (r : BitVec 5) (x : Word) : (c.setXr h r x).heat = c.heat := rfl
@[simp] theorem Chip.setXr_act (c : Chip) (h : Hart) (r : BitVec 5) (x : Word) : (c.setXr h r x).act = c.act := rfl
@[simp] theorem Chip.setXr_actSeq (c : Chip) (h : Hart) (r : BitVec 5) (x : Word) : (c.setXr h r x).actSeq = c.actSeq := rfl
@[simp] theorem Chip.setXr_cursors (c : Chip) (h : Hart) (r : BitVec 5) (x : Word) : (c.setXr h r x).cursors = c.cursors := rfl

/-! ### Chip.charge -/

@[simp] theorem Chip.charge_device (c : Chip) (t cl n : Nat) : (c.charge t cl n).device = c.device := rfl
@[simp] theorem Chip.charge_regs (c : Chip) (t cl n : Nat) : (c.charge t cl n).regs = c.regs := rfl
@[simp] theorem Chip.charge_marks (c : Chip) (t cl n : Nat) : (c.charge t cl n).marks = c.marks := rfl
@[simp] theorem Chip.charge_mem (c : Chip) (t cl n : Nat) : (c.charge t cl n).mem = c.mem := rfl
@[simp] theorem Chip.charge_outs (c : Chip) (t cl n : Nat) : (c.charge t cl n).outs = c.outs := rfl
@[simp] theorem Chip.charge_free (c : Chip) (t cl n : Nat) : (c.charge t cl n).free = c.free := rfl
@[simp] theorem Chip.charge_boots (c : Chip) (t cl n : Nat) : (c.charge t cl n).boots = c.boots := rfl
@[simp] theorem Chip.charge_gens (c : Chip) (t cl n : Nat) : (c.charge t cl n).gens = c.gens := rfl
@[simp] theorem Chip.charge_gclk (c : Chip) (t cl n : Nat) : (c.charge t cl n).gclk = c.gclk := rfl
@[simp] theorem Chip.charge_bud (c : Chip) (t cl n : Nat) : (c.charge t cl n).bud = c.bud := rfl
@[simp] theorem Chip.charge_msgs (c : Chip) (t cl n : Nat) : (c.charge t cl n).msgs = c.msgs := rfl
@[simp] theorem Chip.charge_mpq (c : Chip) (t cl n : Nat) : (c.charge t cl n).mpq = c.mpq := rfl
@[simp] theorem Chip.charge_longs (c : Chip) (t cl n : Nat) : (c.charge t cl n).longs = c.longs := rfl
@[simp] theorem Chip.charge_link (c : Chip) (t cl n : Nat) : (c.charge t cl n).link = c.link := rfl
@[simp] theorem Chip.charge_reads (c : Chip) (t cl n : Nat) : (c.charge t cl n).reads = c.reads := rfl
@[simp] theorem Chip.charge_dales (c : Chip) (t cl n : Nat) : (c.charge t cl n).dales = c.dales := rfl
@[simp] theorem Chip.charge_banks (c : Chip) (t cl n : Nat) : (c.charge t cl n).banks = c.banks := rfl
@[simp] theorem Chip.charge_adcs (c : Chip) (t cl n : Nat) : (c.charge t cl n).adcs = c.adcs := rfl
@[simp] theorem Chip.charge_adcGain (c : Chip) (t cl n : Nat) : (c.charge t cl n).adcGain = c.adcGain := rfl
@[simp] theorem Chip.charge_throttle (c : Chip) (t cl n : Nat) : (c.charge t cl n).throttle = c.throttle := rfl
@[simp] theorem Chip.charge_chans (c : Chip) (t cl n : Nat) : (c.charge t cl n).chans = c.chans := rfl
@[simp] theorem Chip.charge_units (c : Chip) (t cl n : Nat) : (c.charge t cl n).units = c.units := rfl
@[simp] theorem Chip.charge_tones (c : Chip) (t cl n : Nat) : (c.charge t cl n).tones = c.tones := rfl
@[simp] theorem Chip.charge_loops (c : Chip) (t cl n : Nat) : (c.charge t cl n).loops = c.loops := rfl
@[simp] theorem Chip.charge_tests (c : Chip) (t cl n : Nat) : (c.charge t cl n).tests = c.tests := rfl
@[simp] theorem Chip.charge_ticked (c : Chip) (t cl n : Nat) : (c.charge t cl n).ticked = c.ticked := rfl
@[simp] theorem Chip.charge_spareFor (c : Chip) (t cl n : Nat) : (c.charge t cl n).spareFor = c.spareFor := rfl
@[simp] theorem Chip.charge_capLeft (c : Chip) (t cl n : Nat) : (c.charge t cl n).capLeft = c.capLeft := rfl
@[simp] theorem Chip.charge_guySeed (c : Chip) (t cl n : Nat) : (c.charge t cl n).guySeed = c.guySeed := rfl
@[simp] theorem Chip.charge_trkLive (c : Chip) (t cl n : Nat) : (c.charge t cl n).trkLive = c.trkLive := rfl
@[simp] theorem Chip.charge_hkAvgNew (c : Chip) (t cl n : Nat) : (c.charge t cl n).hkAvgNew = c.hkAvgNew := rfl
@[simp] theorem Chip.charge_toneStart (c : Chip) (t cl n : Nat) : (c.charge t cl n).toneStart = c.toneStart := rfl
@[simp] theorem Chip.charge_toneLog (c : Chip) (t cl n : Nat) : (c.charge t cl n).toneLog = c.toneLog := rfl
@[simp] theorem Chip.charge_trigOld (c : Chip) (t cl n : Nat) : (c.charge t cl n).trigOld = c.trigOld := rfl
@[simp] theorem Chip.charge_pairLink (c : Chip) (t cl n : Nat) : (c.charge t cl n).pairLink = c.pairLink := rfl
@[simp] theorem Chip.charge_slots (c : Chip) (t cl n : Nat) : (c.charge t cl n).slots = c.slots := rfl
@[simp] theorem Chip.charge_radio (c : Chip) (t cl n : Nat) : (c.charge t cl n).radio = c.radio := rfl
@[simp] theorem Chip.charge_recs (c : Chip) (t cl n : Nat) : (c.charge t cl n).recs = c.recs := rfl
@[simp] theorem Chip.charge_loaded (c : Chip) (t cl n : Nat) : (c.charge t cl n).loaded = c.loaded := rfl
@[simp] theorem Chip.charge_cores (c : Chip) (t cl n : Nat) : (c.charge t cl n).cores = c.cores := rfl
@[simp] theorem Chip.charge_arrs (c : Chip) (t cl n : Nat) : (c.charge t cl n).arrs = c.arrs := rfl
@[simp] theorem Chip.charge_velds (c : Chip) (t cl n : Nat) : (c.charge t cl n).velds = c.velds := rfl
@[simp] theorem Chip.charge_tents (c : Chip) (t cl n : Nat) : (c.charge t cl n).tents = c.tents := rfl
@[simp] theorem Chip.charge_tentWaits (c : Chip) (t cl n : Nat) : (c.charge t cl n).tentWaits = c.tentWaits := rfl
@[simp] theorem Chip.charge_passes (c : Chip) (t cl n : Nat) : (c.charge t cl n).passes = c.passes := rfl
@[simp] theorem Chip.charge_bankA (c : Chip) (t cl n : Nat) : (c.charge t cl n).bankA = c.bankA := rfl
@[simp] theorem Chip.charge_bankB (c : Chip) (t cl n : Nat) : (c.charge t cl n).bankB = c.bankB := rfl
@[simp] theorem Chip.charge_current (c : Chip) (t cl n : Nat) : (c.charge t cl n).current = c.current := rfl
@[simp] theorem Chip.charge_fws (c : Chip) (t cl n : Nat) : (c.charge t cl n).fws = c.fws := rfl
@[simp] theorem Chip.charge_rollback (c : Chip) (t cl n : Nat) : (c.charge t cl n).rollback = c.rollback := rfl
@[simp] theorem Chip.charge_drains (c : Chip) (t cl n : Nat) : (c.charge t cl n).drains = c.drains := rfl
@[simp] theorem Chip.charge_boot (c : Chip) (t cl n : Nat) : (c.charge t cl n).boot = c.boot := rfl
@[simp] theorem Chip.charge_coderJobs (c : Chip) (t cl n : Nat) : (c.charge t cl n).coderJobs = c.coderJobs := rfl
@[simp] theorem Chip.charge_coderNext (c : Chip) (t cl n : Nat) : (c.charge t cl n).coderNext = c.coderNext := rfl
@[simp] theorem Chip.charge_submits (c : Chip) (t cl n : Nat) : (c.charge t cl n).submits = c.submits := rfl
@[simp] theorem Chip.charge_harqs (c : Chip) (t cl n : Nat) : (c.charge t cl n).harqs = c.harqs := rfl
@[simp] theorem Chip.charge_sweeps (c : Chip) (t cl n : Nat) : (c.charge t cl n).sweeps = c.sweeps := rfl
@[simp] theorem Chip.charge_decCredit (c : Chip) (t cl n : Nat) : (c.charge t cl n).decCredit = c.decCredit := rfl
@[simp] theorem Chip.charge_encCredit (c : Chip) (t cl n : Nat) : (c.charge t cl n).encCredit = c.encCredit := rfl
@[simp] theorem Chip.charge_msgLast (c : Chip) (t cl n : Nat) : (c.charge t cl n).msgLast = c.msgLast := rfl
@[simp] theorem Chip.charge_valeCals (c : Chip) (t cl n : Nat) : (c.charge t cl n).valeCals = c.valeCals := rfl
@[simp] theorem Chip.charge_hkTrims (c : Chip) (t cl n : Nat) : (c.charge t cl n).hkTrims = c.hkTrims := rfl
@[simp] theorem Chip.charge_hkStamp (c : Chip) (t cl n : Nat) : (c.charge t cl n).hkStamp = c.hkStamp := rfl
@[simp] theorem Chip.charge_heat (c : Chip) (t cl n : Nat) : (c.charge t cl n).heat = c.heat := rfl
@[simp] theorem Chip.charge_actSeq (c : Chip) (t cl n : Nat) : (c.charge t cl n).actSeq = c.actSeq := rfl
@[simp] theorem Chip.charge_cursors (c : Chip) (t cl n : Nat) : (c.charge t cl n).cursors = c.cursors := rfl

/-! ### What replies, messages, event flags and stores do -/

/-- A packet to the host changes what has left the device and the link's end, and nothing else. -/
theorem Chip.out_eq (c : Chip) (x : Out) : ∃ o l, c.out x = { c with outs := o, link := l } := by
  unfold Chip.out Chip.pump
  dsimp only
  split <;> exact ⟨_, _, rfl⟩

theorem Chip.reply_eq (c : Chip) (b : Bool) (r : Reply) : ∃ o l, c.reply b r = { c with outs := o, link := l } := by
  unfold Chip.reply
  split
  · exact ⟨_, _, rfl⟩
  · exact c.out_eq _

theorem Chip.wReply_eq (c : Chip) (w : Writer) (st n : Nat) :
    ∃ o l, c.wReply w st n = { c with outs := o, link := l } := by
  unfold Chip.wReply
  split
  · exact ⟨_, _, rfl⟩
  · exact c.out_eq _

/-- A final reply also ends the command's place among those that run. -/
theorem Chip.finish_eq (c : Chip) (op : Nat) (m : Cmd) (st d : Nat) (ws : List Word) :
    ∃ o l g, c.finish op m st d ws = { c with outs := o, link := l, longs := g } := by
  unfold Chip.finish
  dsimp only
  obtain ⟨o, l, h⟩ := Chip.reply_eq { c with longs := c.longs.filter fun x => !(x.op == op && x.cmd == m) } m.silent
    { op := op, tent := m.tent, tag := m.tag, status := st, detail := d, words := ws }
  rw [h]
  exact ⟨_, _, _, rfl⟩

theorem Chip.answer_eq (c : Chip) (op : Nat) (m : Cmd) (st d : Nat) (ws : List Word) :
    ∃ o l g, c.answer op m st d ws = { c with outs := o, link := l, longs := g } := by
  unfold Chip.answer
  split
  · exact c.finish_eq ..
  · exact ⟨_, _, _, rfl⟩

theorem Chip.accept_eq (c : Chip) (op : Nat) (m : Cmd) :
    ∃ o l g, c.accept op m = { c with outs := o, link := l, longs := g } := by
  unfold Chip.accept
  dsimp only
  obtain ⟨o, l, h⟩ := Chip.reply_eq { c with longs := c.longs ++ [{ op := op, cmd := m }] } m.silent
    { op := op, tent := m.tent, tag := m.tag, status := Status.accepted, final := false }
  rw [h]
  exact ⟨_, _, _, rfl⟩

theorem Chip.acceptFinish_eq (c : Chip) (op : Nat) (m : Cmd) (st d : Nat) (ws : List Word) :
    ∃ o l g, c.acceptFinish op m st d ws = { c with outs := o, link := l, longs := g } := by
  unfold Chip.acceptFinish
  obtain ⟨o, l, g, h⟩ := c.accept_eq op m
  rw [h]
  obtain ⟨o', l', g', h'⟩ := Chip.finish_eq { c with outs := o, link := l, longs := g } op m st d ws
  rw [h']
  exact ⟨_, _, _, rfl⟩

/-- A message changes the queues of messages and their counts of losses. -/
theorem Chip.message_eq (c : Chip) (t k : Nat) (b : List Byte) :
    ∃ r q, c.message t k b = { c with regs := r, msgs := q } := by
  unfold Chip.message Chip.pushMsg
  dsimp only
  split
  · split
    · exact ⟨_, _, rfl⟩
    · split
      · split <;> exact ⟨_, _, rfl⟩
      · exact ⟨_, _, rfl⟩
  · exact ⟨_, _, rfl⟩

/-- An event changes registers, the hidden markers of R33 and the queues of messages. -/
theorem Chip.event_eq (c : Chip) (r : Reg) :
    ∃ g k q, c.event r = { c with regs := g, marks := k, msgs := q } := by
  unfold Chip.event
  dsimp only
  split
  · exact ⟨_, _, _, rfl⟩
  · obtain ⟨g1, q1, h1⟩ := Chip.message_eq { c.put r (BitVec.ofNat 64 (0x100 + min (bitsOf (c.get r).toNat 7 0 + 1) 255)) with
        marks := if (c.put r (BitVec.ofNat 64 (0x100 + min (bitsOf (c.get r).toNat 7 0 + 1) 255))).marks.contains r then
          (c.put r (BitVec.ofNat 64 (0x100 + min (bitsOf (c.get r).toNat 7 0 + 1) 255))).marks
          else r :: (c.put r (BitVec.ofNat 64 (0x100 + min (bitsOf (c.get r).toNat 7 0 + 1) 255))).marks } 0 4
        (leBytes 8 r.addr ++ leBytes 8 (0x100 + min (bitsOf (c.get r).toNat 7 0 + 1) 255))
    rw [h1]
    split
    · split
      · exact ⟨_, _, _, rfl⟩
      · obtain ⟨g2, q2, h2⟩ := Chip.message_eq _ _ 4 _
        rw [h2]
        exact ⟨_, _, _, rfl⟩
    · exact ⟨_, _, _, rfl⟩

theorem Chip.ev_eq (c : Chip) (n : RegName) (idx : List Nat) :
    ∃ g k q, c.ev n idx = { c with regs := g, marks := k, msgs := q } := c.event_eq _

/-- Register words set one after the other change registers alone. -/
theorem Chip.puts_eq (n : RegName) (idx : List Nat) (ps : List (Nat × Word)) (c : Chip) :
    ∃ g, ps.foldl (fun c p => c.put { name := n, idx := idx, w := p.1 } p.2) c = { c with regs := g } := by
  induction ps generalizing c with
  | nil => exact ⟨_, rfl⟩
  | cons p ps ih =>
    obtain ⟨g, h⟩ := ih (c.put { name := n, idx := idx, w := p.1 } p.2)
    exact ⟨g, by rw [List.foldl_cons, h]; rfl⟩

theorem Chip.putWords_eq (c : Chip) (n : RegName) (idx : List Nat) (xs : List Word) :
    ∃ g, c.putWords n idx xs = { c with regs := g } := Chip.puts_eq n idx _ c

/-- Bytes stored change memory alone. -/
theorem Chip.store_eq (c : Chip) (a : Nat) (bs : List Byte) : ∃ m, c.store a bs = { c with mem := m } := by
  induction bs generalizing c a with
  | nil => exact ⟨_, rfl⟩
  | cons b bs ih =>
    obtain ⟨m, h⟩ := ih (c.setByte a b) (a + 1)
    exact ⟨m, by rw [Chip.store, h]; rfl⟩

/-! ### Chip.reply -/

@[simp] theorem Chip.reply_device (c : Chip) (b : Bool) (r : Reply) : (c.reply b r).device = c.device := by
  obtain ⟨_, _, h⟩ := c.reply_eq b r; rw [h]
@[simp] theorem Chip.reply_regs (c : Chip) (b : Bool) (r : Reply) : (c.reply b r).regs = c.regs := by
  obtain ⟨_, _, h⟩ := c.reply_eq b r; rw [h]
@[simp] theorem Chip.reply_marks (c : Chip) (b : Bool) (r : Reply) : (c.reply b r).marks = c.marks := by
  obtain ⟨_, _, h⟩ := c.reply_eq b r; rw [h]
@[simp] theorem Chip.reply_mem (c : Chip) (b : Bool) (r : Reply) : (c.reply b r).mem = c.mem := by
  obtain ⟨_, _, h⟩ := c.reply_eq b r; rw [h]
@[simp] theorem Chip.reply_free (c : Chip) (b : Bool) (r : Reply) : (c.reply b r).free = c.free := by
  obtain ⟨_, _, h⟩ := c.reply_eq b r; rw [h]
@[simp] theorem Chip.reply_boots (c : Chip) (b : Bool) (r : Reply) : (c.reply b r).boots = c.boots := by
  obtain ⟨_, _, h⟩ := c.reply_eq b r; rw [h]
@[simp] theorem Chip.reply_gens (c : Chip) (b : Bool) (r : Reply) : (c.reply b r).gens = c.gens := by
  obtain ⟨_, _, h⟩ := c.reply_eq b r; rw [h]
@[simp] theorem Chip.reply_gclk (c : Chip) (b : Bool) (r : Reply) : (c.reply b r).gclk = c.gclk := by
  obtain ⟨_, _, h⟩ := c.reply_eq b r; rw [h]
@[simp] theorem Chip.reply_bud (c : Chip) (b : Bool) (r : Reply) : (c.reply b r).bud = c.bud := by
  obtain ⟨_, _, h⟩ := c.reply_eq b r; rw [h]
@[simp] theorem Chip.reply_msgs (c : Chip) (b : Bool) (r : Reply) : (c.reply b r).msgs = c.msgs := by
  obtain ⟨_, _, h⟩ := c.reply_eq b r; rw [h]
@[simp] theorem Chip.reply_mpq (c : Chip) (b : Bool) (r : Reply) : (c.reply b r).mpq = c.mpq := by
  obtain ⟨_, _, h⟩ := c.reply_eq b r; rw [h]
@[simp] theorem Chip.reply_longs (c : Chip) (b : Bool) (r : Reply) : (c.reply b r).longs = c.longs := by
  obtain ⟨_, _, h⟩ := c.reply_eq b r; rw [h]
@[simp] theorem Chip.reply_reads (c : Chip) (b : Bool) (r : Reply) : (c.reply b r).reads = c.reads := by
  obtain ⟨_, _, h⟩ := c.reply_eq b r; rw [h]
@[simp] theorem Chip.reply_dales (c : Chip) (b : Bool) (r : Reply) : (c.reply b r).dales = c.dales := by
  obtain ⟨_, _, h⟩ := c.reply_eq b r; rw [h]
@[simp] theorem Chip.reply_banks (c : Chip) (b : Bool) (r : Reply) : (c.reply b r).banks = c.banks := by
  obtain ⟨_, _, h⟩ := c.reply_eq b r; rw [h]
@[simp] theorem Chip.reply_adcs (c : Chip) (b : Bool) (r : Reply) : (c.reply b r).adcs = c.adcs := by
  obtain ⟨_, _, h⟩ := c.reply_eq b r; rw [h]
@[simp] theorem Chip.reply_adcGain (c : Chip) (b : Bool) (r : Reply) : (c.reply b r).adcGain = c.adcGain := by
  obtain ⟨_, _, h⟩ := c.reply_eq b r; rw [h]
@[simp] theorem Chip.reply_throttle (c : Chip) (b : Bool) (r : Reply) : (c.reply b r).throttle = c.throttle := by
  obtain ⟨_, _, h⟩ := c.reply_eq b r; rw [h]
@[simp] theorem Chip.reply_chans (c : Chip) (b : Bool) (r : Reply) : (c.reply b r).chans = c.chans := by
  obtain ⟨_, _, h⟩ := c.reply_eq b r; rw [h]
@[simp] theorem Chip.reply_units (c : Chip) (b : Bool) (r : Reply) : (c.reply b r).units = c.units := by
  obtain ⟨_, _, h⟩ := c.reply_eq b r; rw [h]
@[simp] theorem Chip.reply_tones (c : Chip) (b : Bool) (r : Reply) : (c.reply b r).tones = c.tones := by
  obtain ⟨_, _, h⟩ := c.reply_eq b r; rw [h]
@[simp] theorem Chip.reply_loops (c : Chip) (b : Bool) (r : Reply) : (c.reply b r).loops = c.loops := by
  obtain ⟨_, _, h⟩ := c.reply_eq b r; rw [h]
@[simp] theorem Chip.reply_tests (c : Chip) (b : Bool) (r : Reply) : (c.reply b r).tests = c.tests := by
  obtain ⟨_, _, h⟩ := c.reply_eq b r; rw [h]
@[simp] theorem Chip.reply_ticked (c : Chip) (b : Bool) (r : Reply) : (c.reply b r).ticked = c.ticked := by
  obtain ⟨_, _, h⟩ := c.reply_eq b r; rw [h]
@[simp] theorem Chip.reply_spareFor (c : Chip) (b : Bool) (r : Reply) : (c.reply b r).spareFor = c.spareFor := by
  obtain ⟨_, _, h⟩ := c.reply_eq b r; rw [h]
@[simp] theorem Chip.reply_capLeft (c : Chip) (b : Bool) (r : Reply) : (c.reply b r).capLeft = c.capLeft := by
  obtain ⟨_, _, h⟩ := c.reply_eq b r; rw [h]
@[simp] theorem Chip.reply_guySeed (c : Chip) (b : Bool) (r : Reply) : (c.reply b r).guySeed = c.guySeed := by
  obtain ⟨_, _, h⟩ := c.reply_eq b r; rw [h]
@[simp] theorem Chip.reply_trkLive (c : Chip) (b : Bool) (r : Reply) : (c.reply b r).trkLive = c.trkLive := by
  obtain ⟨_, _, h⟩ := c.reply_eq b r; rw [h]
@[simp] theorem Chip.reply_hkAvgNew (c : Chip) (b : Bool) (r : Reply) : (c.reply b r).hkAvgNew = c.hkAvgNew := by
  obtain ⟨_, _, h⟩ := c.reply_eq b r; rw [h]
@[simp] theorem Chip.reply_toneStart (c : Chip) (b : Bool) (r : Reply) : (c.reply b r).toneStart = c.toneStart := by
  obtain ⟨_, _, h⟩ := c.reply_eq b r; rw [h]
@[simp] theorem Chip.reply_toneLog (c : Chip) (b : Bool) (r : Reply) : (c.reply b r).toneLog = c.toneLog := by
  obtain ⟨_, _, h⟩ := c.reply_eq b r; rw [h]
@[simp] theorem Chip.reply_trigOld (c : Chip) (b : Bool) (r : Reply) : (c.reply b r).trigOld = c.trigOld := by
  obtain ⟨_, _, h⟩ := c.reply_eq b r; rw [h]
@[simp] theorem Chip.reply_pairLink (c : Chip) (b : Bool) (r : Reply) : (c.reply b r).pairLink = c.pairLink := by
  obtain ⟨_, _, h⟩ := c.reply_eq b r; rw [h]
@[simp] theorem Chip.reply_slots (c : Chip) (b : Bool) (r : Reply) : (c.reply b r).slots = c.slots := by
  obtain ⟨_, _, h⟩ := c.reply_eq b r; rw [h]
@[simp] theorem Chip.reply_radio (c : Chip) (b : Bool) (r : Reply) : (c.reply b r).radio = c.radio := by
  obtain ⟨_, _, h⟩ := c.reply_eq b r; rw [h]
@[simp] theorem Chip.reply_recs (c : Chip) (b : Bool) (r : Reply) : (c.reply b r).recs = c.recs := by
  obtain ⟨_, _, h⟩ := c.reply_eq b r; rw [h]
@[simp] theorem Chip.reply_loaded (c : Chip) (b : Bool) (r : Reply) : (c.reply b r).loaded = c.loaded := by
  obtain ⟨_, _, h⟩ := c.reply_eq b r; rw [h]
@[simp] theorem Chip.reply_cores (c : Chip) (b : Bool) (r : Reply) : (c.reply b r).cores = c.cores := by
  obtain ⟨_, _, h⟩ := c.reply_eq b r; rw [h]
@[simp] theorem Chip.reply_arrs (c : Chip) (b : Bool) (r : Reply) : (c.reply b r).arrs = c.arrs := by
  obtain ⟨_, _, h⟩ := c.reply_eq b r; rw [h]
@[simp] theorem Chip.reply_velds (c : Chip) (b : Bool) (r : Reply) : (c.reply b r).velds = c.velds := by
  obtain ⟨_, _, h⟩ := c.reply_eq b r; rw [h]
@[simp] theorem Chip.reply_tents (c : Chip) (b : Bool) (r : Reply) : (c.reply b r).tents = c.tents := by
  obtain ⟨_, _, h⟩ := c.reply_eq b r; rw [h]
@[simp] theorem Chip.reply_tentWaits (c : Chip) (b : Bool) (r : Reply) : (c.reply b r).tentWaits = c.tentWaits := by
  obtain ⟨_, _, h⟩ := c.reply_eq b r; rw [h]
@[simp] theorem Chip.reply_passes (c : Chip) (b : Bool) (r : Reply) : (c.reply b r).passes = c.passes := by
  obtain ⟨_, _, h⟩ := c.reply_eq b r; rw [h]
@[simp] theorem Chip.reply_bankA (c : Chip) (b : Bool) (r : Reply) : (c.reply b r).bankA = c.bankA := by
  obtain ⟨_, _, h⟩ := c.reply_eq b r; rw [h]
@[simp] theorem Chip.reply_bankB (c : Chip) (b : Bool) (r : Reply) : (c.reply b r).bankB = c.bankB := by
  obtain ⟨_, _, h⟩ := c.reply_eq b r; rw [h]
@[simp] theorem Chip.reply_current (c : Chip) (b : Bool) (r : Reply) : (c.reply b r).current = c.current := by
  obtain ⟨_, _, h⟩ := c.reply_eq b r; rw [h]
@[simp] theorem Chip.reply_fws (c : Chip) (b : Bool) (r : Reply) : (c.reply b r).fws = c.fws := by
  obtain ⟨_, _, h⟩ := c.reply_eq b r; rw [h]
@[simp] theorem Chip.reply_rollback (c : Chip) (b : Bool) (r : Reply) : (c.reply b r).rollback = c.rollback := by
  obtain ⟨_, _, h⟩ := c.reply_eq b r; rw [h]
@[simp] theorem Chip.reply_drains (c : Chip) (b : Bool) (r : Reply) : (c.reply b r).drains = c.drains := by
  obtain ⟨_, _, h⟩ := c.reply_eq b r; rw [h]
@[simp] theorem Chip.reply_boot (c : Chip) (b : Bool) (r : Reply) : (c.reply b r).boot = c.boot := by
  obtain ⟨_, _, h⟩ := c.reply_eq b r; rw [h]
@[simp] theorem Chip.reply_coderJobs (c : Chip) (b : Bool) (r : Reply) : (c.reply b r).coderJobs = c.coderJobs := by
  obtain ⟨_, _, h⟩ := c.reply_eq b r; rw [h]
@[simp] theorem Chip.reply_coderNext (c : Chip) (b : Bool) (r : Reply) : (c.reply b r).coderNext = c.coderNext := by
  obtain ⟨_, _, h⟩ := c.reply_eq b r; rw [h]
@[simp] theorem Chip.reply_submits (c : Chip) (b : Bool) (r : Reply) : (c.reply b r).submits = c.submits := by
  obtain ⟨_, _, h⟩ := c.reply_eq b r; rw [h]
@[simp] theorem Chip.reply_harqs (c : Chip) (b : Bool) (r : Reply) : (c.reply b r).harqs = c.harqs := by
  obtain ⟨_, _, h⟩ := c.reply_eq b r; rw [h]
@[simp] theorem Chip.reply_sweeps (c : Chip) (b : Bool) (r : Reply) : (c.reply b r).sweeps = c.sweeps := by
  obtain ⟨_, _, h⟩ := c.reply_eq b r; rw [h]
@[simp] theorem Chip.reply_decCredit (c : Chip) (b : Bool) (r : Reply) : (c.reply b r).decCredit = c.decCredit := by
  obtain ⟨_, _, h⟩ := c.reply_eq b r; rw [h]
@[simp] theorem Chip.reply_encCredit (c : Chip) (b : Bool) (r : Reply) : (c.reply b r).encCredit = c.encCredit := by
  obtain ⟨_, _, h⟩ := c.reply_eq b r; rw [h]
@[simp] theorem Chip.reply_msgLast (c : Chip) (b : Bool) (r : Reply) : (c.reply b r).msgLast = c.msgLast := by
  obtain ⟨_, _, h⟩ := c.reply_eq b r; rw [h]
@[simp] theorem Chip.reply_valeCals (c : Chip) (b : Bool) (r : Reply) : (c.reply b r).valeCals = c.valeCals := by
  obtain ⟨_, _, h⟩ := c.reply_eq b r; rw [h]
@[simp] theorem Chip.reply_hkTrims (c : Chip) (b : Bool) (r : Reply) : (c.reply b r).hkTrims = c.hkTrims := by
  obtain ⟨_, _, h⟩ := c.reply_eq b r; rw [h]
@[simp] theorem Chip.reply_hkStamp (c : Chip) (b : Bool) (r : Reply) : (c.reply b r).hkStamp = c.hkStamp := by
  obtain ⟨_, _, h⟩ := c.reply_eq b r; rw [h]
@[simp] theorem Chip.reply_heat (c : Chip) (b : Bool) (r : Reply) : (c.reply b r).heat = c.heat := by
  obtain ⟨_, _, h⟩ := c.reply_eq b r; rw [h]
@[simp] theorem Chip.reply_act (c : Chip) (b : Bool) (r : Reply) : (c.reply b r).act = c.act := by
  obtain ⟨_, _, h⟩ := c.reply_eq b r; rw [h]
@[simp] theorem Chip.reply_actSeq (c : Chip) (b : Bool) (r : Reply) : (c.reply b r).actSeq = c.actSeq := by
  obtain ⟨_, _, h⟩ := c.reply_eq b r; rw [h]
@[simp] theorem Chip.reply_cursors (c : Chip) (b : Bool) (r : Reply) : (c.reply b r).cursors = c.cursors := by
  obtain ⟨_, _, h⟩ := c.reply_eq b r; rw [h]

/-! ### Chip.finish -/

@[simp] theorem Chip.finish_device (c : Chip) (op : Nat) (m : Cmd) (st d : Nat) (ws : List Word) : (c.finish op m st d ws).device = c.device := by
  obtain ⟨_, _, _, h⟩ := c.finish_eq op m st d ws; rw [h]
@[simp] theorem Chip.finish_regs (c : Chip) (op : Nat) (m : Cmd) (st d : Nat) (ws : List Word) : (c.finish op m st d ws).regs = c.regs := by
  obtain ⟨_, _, _, h⟩ := c.finish_eq op m st d ws; rw [h]
@[simp] theorem Chip.finish_marks (c : Chip) (op : Nat) (m : Cmd) (st d : Nat) (ws : List Word) : (c.finish op m st d ws).marks = c.marks := by
  obtain ⟨_, _, _, h⟩ := c.finish_eq op m st d ws; rw [h]
@[simp] theorem Chip.finish_mem (c : Chip) (op : Nat) (m : Cmd) (st d : Nat) (ws : List Word) : (c.finish op m st d ws).mem = c.mem := by
  obtain ⟨_, _, _, h⟩ := c.finish_eq op m st d ws; rw [h]
@[simp] theorem Chip.finish_free (c : Chip) (op : Nat) (m : Cmd) (st d : Nat) (ws : List Word) : (c.finish op m st d ws).free = c.free := by
  obtain ⟨_, _, _, h⟩ := c.finish_eq op m st d ws; rw [h]
@[simp] theorem Chip.finish_boots (c : Chip) (op : Nat) (m : Cmd) (st d : Nat) (ws : List Word) : (c.finish op m st d ws).boots = c.boots := by
  obtain ⟨_, _, _, h⟩ := c.finish_eq op m st d ws; rw [h]
@[simp] theorem Chip.finish_gens (c : Chip) (op : Nat) (m : Cmd) (st d : Nat) (ws : List Word) : (c.finish op m st d ws).gens = c.gens := by
  obtain ⟨_, _, _, h⟩ := c.finish_eq op m st d ws; rw [h]
@[simp] theorem Chip.finish_gclk (c : Chip) (op : Nat) (m : Cmd) (st d : Nat) (ws : List Word) : (c.finish op m st d ws).gclk = c.gclk := by
  obtain ⟨_, _, _, h⟩ := c.finish_eq op m st d ws; rw [h]
@[simp] theorem Chip.finish_bud (c : Chip) (op : Nat) (m : Cmd) (st d : Nat) (ws : List Word) : (c.finish op m st d ws).bud = c.bud := by
  obtain ⟨_, _, _, h⟩ := c.finish_eq op m st d ws; rw [h]
@[simp] theorem Chip.finish_msgs (c : Chip) (op : Nat) (m : Cmd) (st d : Nat) (ws : List Word) : (c.finish op m st d ws).msgs = c.msgs := by
  obtain ⟨_, _, _, h⟩ := c.finish_eq op m st d ws; rw [h]
@[simp] theorem Chip.finish_mpq (c : Chip) (op : Nat) (m : Cmd) (st d : Nat) (ws : List Word) : (c.finish op m st d ws).mpq = c.mpq := by
  obtain ⟨_, _, _, h⟩ := c.finish_eq op m st d ws; rw [h]
@[simp] theorem Chip.finish_reads (c : Chip) (op : Nat) (m : Cmd) (st d : Nat) (ws : List Word) : (c.finish op m st d ws).reads = c.reads := by
  obtain ⟨_, _, _, h⟩ := c.finish_eq op m st d ws; rw [h]
@[simp] theorem Chip.finish_dales (c : Chip) (op : Nat) (m : Cmd) (st d : Nat) (ws : List Word) : (c.finish op m st d ws).dales = c.dales := by
  obtain ⟨_, _, _, h⟩ := c.finish_eq op m st d ws; rw [h]
@[simp] theorem Chip.finish_banks (c : Chip) (op : Nat) (m : Cmd) (st d : Nat) (ws : List Word) : (c.finish op m st d ws).banks = c.banks := by
  obtain ⟨_, _, _, h⟩ := c.finish_eq op m st d ws; rw [h]
@[simp] theorem Chip.finish_adcs (c : Chip) (op : Nat) (m : Cmd) (st d : Nat) (ws : List Word) : (c.finish op m st d ws).adcs = c.adcs := by
  obtain ⟨_, _, _, h⟩ := c.finish_eq op m st d ws; rw [h]
@[simp] theorem Chip.finish_adcGain (c : Chip) (op : Nat) (m : Cmd) (st d : Nat) (ws : List Word) : (c.finish op m st d ws).adcGain = c.adcGain := by
  obtain ⟨_, _, _, h⟩ := c.finish_eq op m st d ws; rw [h]
@[simp] theorem Chip.finish_throttle (c : Chip) (op : Nat) (m : Cmd) (st d : Nat) (ws : List Word) : (c.finish op m st d ws).throttle = c.throttle := by
  obtain ⟨_, _, _, h⟩ := c.finish_eq op m st d ws; rw [h]
@[simp] theorem Chip.finish_chans (c : Chip) (op : Nat) (m : Cmd) (st d : Nat) (ws : List Word) : (c.finish op m st d ws).chans = c.chans := by
  obtain ⟨_, _, _, h⟩ := c.finish_eq op m st d ws; rw [h]
@[simp] theorem Chip.finish_units (c : Chip) (op : Nat) (m : Cmd) (st d : Nat) (ws : List Word) : (c.finish op m st d ws).units = c.units := by
  obtain ⟨_, _, _, h⟩ := c.finish_eq op m st d ws; rw [h]
@[simp] theorem Chip.finish_tones (c : Chip) (op : Nat) (m : Cmd) (st d : Nat) (ws : List Word) : (c.finish op m st d ws).tones = c.tones := by
  obtain ⟨_, _, _, h⟩ := c.finish_eq op m st d ws; rw [h]
@[simp] theorem Chip.finish_loops (c : Chip) (op : Nat) (m : Cmd) (st d : Nat) (ws : List Word) : (c.finish op m st d ws).loops = c.loops := by
  obtain ⟨_, _, _, h⟩ := c.finish_eq op m st d ws; rw [h]
@[simp] theorem Chip.finish_tests (c : Chip) (op : Nat) (m : Cmd) (st d : Nat) (ws : List Word) : (c.finish op m st d ws).tests = c.tests := by
  obtain ⟨_, _, _, h⟩ := c.finish_eq op m st d ws; rw [h]
@[simp] theorem Chip.finish_ticked (c : Chip) (op : Nat) (m : Cmd) (st d : Nat) (ws : List Word) : (c.finish op m st d ws).ticked = c.ticked := by
  obtain ⟨_, _, _, h⟩ := c.finish_eq op m st d ws; rw [h]
@[simp] theorem Chip.finish_spareFor (c : Chip) (op : Nat) (m : Cmd) (st d : Nat) (ws : List Word) : (c.finish op m st d ws).spareFor = c.spareFor := by
  obtain ⟨_, _, _, h⟩ := c.finish_eq op m st d ws; rw [h]
@[simp] theorem Chip.finish_capLeft (c : Chip) (op : Nat) (m : Cmd) (st d : Nat) (ws : List Word) : (c.finish op m st d ws).capLeft = c.capLeft := by
  obtain ⟨_, _, _, h⟩ := c.finish_eq op m st d ws; rw [h]
@[simp] theorem Chip.finish_guySeed (c : Chip) (op : Nat) (m : Cmd) (st d : Nat) (ws : List Word) : (c.finish op m st d ws).guySeed = c.guySeed := by
  obtain ⟨_, _, _, h⟩ := c.finish_eq op m st d ws; rw [h]
@[simp] theorem Chip.finish_trkLive (c : Chip) (op : Nat) (m : Cmd) (st d : Nat) (ws : List Word) : (c.finish op m st d ws).trkLive = c.trkLive := by
  obtain ⟨_, _, _, h⟩ := c.finish_eq op m st d ws; rw [h]
@[simp] theorem Chip.finish_hkAvgNew (c : Chip) (op : Nat) (m : Cmd) (st d : Nat) (ws : List Word) : (c.finish op m st d ws).hkAvgNew = c.hkAvgNew := by
  obtain ⟨_, _, _, h⟩ := c.finish_eq op m st d ws; rw [h]
@[simp] theorem Chip.finish_toneStart (c : Chip) (op : Nat) (m : Cmd) (st d : Nat) (ws : List Word) : (c.finish op m st d ws).toneStart = c.toneStart := by
  obtain ⟨_, _, _, h⟩ := c.finish_eq op m st d ws; rw [h]
@[simp] theorem Chip.finish_toneLog (c : Chip) (op : Nat) (m : Cmd) (st d : Nat) (ws : List Word) : (c.finish op m st d ws).toneLog = c.toneLog := by
  obtain ⟨_, _, _, h⟩ := c.finish_eq op m st d ws; rw [h]
@[simp] theorem Chip.finish_trigOld (c : Chip) (op : Nat) (m : Cmd) (st d : Nat) (ws : List Word) : (c.finish op m st d ws).trigOld = c.trigOld := by
  obtain ⟨_, _, _, h⟩ := c.finish_eq op m st d ws; rw [h]
@[simp] theorem Chip.finish_pairLink (c : Chip) (op : Nat) (m : Cmd) (st d : Nat) (ws : List Word) : (c.finish op m st d ws).pairLink = c.pairLink := by
  obtain ⟨_, _, _, h⟩ := c.finish_eq op m st d ws; rw [h]
@[simp] theorem Chip.finish_slots (c : Chip) (op : Nat) (m : Cmd) (st d : Nat) (ws : List Word) : (c.finish op m st d ws).slots = c.slots := by
  obtain ⟨_, _, _, h⟩ := c.finish_eq op m st d ws; rw [h]
@[simp] theorem Chip.finish_radio (c : Chip) (op : Nat) (m : Cmd) (st d : Nat) (ws : List Word) : (c.finish op m st d ws).radio = c.radio := by
  obtain ⟨_, _, _, h⟩ := c.finish_eq op m st d ws; rw [h]
@[simp] theorem Chip.finish_recs (c : Chip) (op : Nat) (m : Cmd) (st d : Nat) (ws : List Word) : (c.finish op m st d ws).recs = c.recs := by
  obtain ⟨_, _, _, h⟩ := c.finish_eq op m st d ws; rw [h]
@[simp] theorem Chip.finish_loaded (c : Chip) (op : Nat) (m : Cmd) (st d : Nat) (ws : List Word) : (c.finish op m st d ws).loaded = c.loaded := by
  obtain ⟨_, _, _, h⟩ := c.finish_eq op m st d ws; rw [h]
@[simp] theorem Chip.finish_cores (c : Chip) (op : Nat) (m : Cmd) (st d : Nat) (ws : List Word) : (c.finish op m st d ws).cores = c.cores := by
  obtain ⟨_, _, _, h⟩ := c.finish_eq op m st d ws; rw [h]
@[simp] theorem Chip.finish_arrs (c : Chip) (op : Nat) (m : Cmd) (st d : Nat) (ws : List Word) : (c.finish op m st d ws).arrs = c.arrs := by
  obtain ⟨_, _, _, h⟩ := c.finish_eq op m st d ws; rw [h]
@[simp] theorem Chip.finish_velds (c : Chip) (op : Nat) (m : Cmd) (st d : Nat) (ws : List Word) : (c.finish op m st d ws).velds = c.velds := by
  obtain ⟨_, _, _, h⟩ := c.finish_eq op m st d ws; rw [h]
@[simp] theorem Chip.finish_tents (c : Chip) (op : Nat) (m : Cmd) (st d : Nat) (ws : List Word) : (c.finish op m st d ws).tents = c.tents := by
  obtain ⟨_, _, _, h⟩ := c.finish_eq op m st d ws; rw [h]
@[simp] theorem Chip.finish_tentWaits (c : Chip) (op : Nat) (m : Cmd) (st d : Nat) (ws : List Word) : (c.finish op m st d ws).tentWaits = c.tentWaits := by
  obtain ⟨_, _, _, h⟩ := c.finish_eq op m st d ws; rw [h]
@[simp] theorem Chip.finish_passes (c : Chip) (op : Nat) (m : Cmd) (st d : Nat) (ws : List Word) : (c.finish op m st d ws).passes = c.passes := by
  obtain ⟨_, _, _, h⟩ := c.finish_eq op m st d ws; rw [h]
@[simp] theorem Chip.finish_bankA (c : Chip) (op : Nat) (m : Cmd) (st d : Nat) (ws : List Word) : (c.finish op m st d ws).bankA = c.bankA := by
  obtain ⟨_, _, _, h⟩ := c.finish_eq op m st d ws; rw [h]
@[simp] theorem Chip.finish_bankB (c : Chip) (op : Nat) (m : Cmd) (st d : Nat) (ws : List Word) : (c.finish op m st d ws).bankB = c.bankB := by
  obtain ⟨_, _, _, h⟩ := c.finish_eq op m st d ws; rw [h]
@[simp] theorem Chip.finish_current (c : Chip) (op : Nat) (m : Cmd) (st d : Nat) (ws : List Word) : (c.finish op m st d ws).current = c.current := by
  obtain ⟨_, _, _, h⟩ := c.finish_eq op m st d ws; rw [h]
@[simp] theorem Chip.finish_fws (c : Chip) (op : Nat) (m : Cmd) (st d : Nat) (ws : List Word) : (c.finish op m st d ws).fws = c.fws := by
  obtain ⟨_, _, _, h⟩ := c.finish_eq op m st d ws; rw [h]
@[simp] theorem Chip.finish_rollback (c : Chip) (op : Nat) (m : Cmd) (st d : Nat) (ws : List Word) : (c.finish op m st d ws).rollback = c.rollback := by
  obtain ⟨_, _, _, h⟩ := c.finish_eq op m st d ws; rw [h]
@[simp] theorem Chip.finish_drains (c : Chip) (op : Nat) (m : Cmd) (st d : Nat) (ws : List Word) : (c.finish op m st d ws).drains = c.drains := by
  obtain ⟨_, _, _, h⟩ := c.finish_eq op m st d ws; rw [h]
@[simp] theorem Chip.finish_boot (c : Chip) (op : Nat) (m : Cmd) (st d : Nat) (ws : List Word) : (c.finish op m st d ws).boot = c.boot := by
  obtain ⟨_, _, _, h⟩ := c.finish_eq op m st d ws; rw [h]
@[simp] theorem Chip.finish_coderJobs (c : Chip) (op : Nat) (m : Cmd) (st d : Nat) (ws : List Word) : (c.finish op m st d ws).coderJobs = c.coderJobs := by
  obtain ⟨_, _, _, h⟩ := c.finish_eq op m st d ws; rw [h]
@[simp] theorem Chip.finish_coderNext (c : Chip) (op : Nat) (m : Cmd) (st d : Nat) (ws : List Word) : (c.finish op m st d ws).coderNext = c.coderNext := by
  obtain ⟨_, _, _, h⟩ := c.finish_eq op m st d ws; rw [h]
@[simp] theorem Chip.finish_submits (c : Chip) (op : Nat) (m : Cmd) (st d : Nat) (ws : List Word) : (c.finish op m st d ws).submits = c.submits := by
  obtain ⟨_, _, _, h⟩ := c.finish_eq op m st d ws; rw [h]
@[simp] theorem Chip.finish_harqs (c : Chip) (op : Nat) (m : Cmd) (st d : Nat) (ws : List Word) : (c.finish op m st d ws).harqs = c.harqs := by
  obtain ⟨_, _, _, h⟩ := c.finish_eq op m st d ws; rw [h]
@[simp] theorem Chip.finish_sweeps (c : Chip) (op : Nat) (m : Cmd) (st d : Nat) (ws : List Word) : (c.finish op m st d ws).sweeps = c.sweeps := by
  obtain ⟨_, _, _, h⟩ := c.finish_eq op m st d ws; rw [h]
@[simp] theorem Chip.finish_decCredit (c : Chip) (op : Nat) (m : Cmd) (st d : Nat) (ws : List Word) : (c.finish op m st d ws).decCredit = c.decCredit := by
  obtain ⟨_, _, _, h⟩ := c.finish_eq op m st d ws; rw [h]
@[simp] theorem Chip.finish_encCredit (c : Chip) (op : Nat) (m : Cmd) (st d : Nat) (ws : List Word) : (c.finish op m st d ws).encCredit = c.encCredit := by
  obtain ⟨_, _, _, h⟩ := c.finish_eq op m st d ws; rw [h]
@[simp] theorem Chip.finish_msgLast (c : Chip) (op : Nat) (m : Cmd) (st d : Nat) (ws : List Word) : (c.finish op m st d ws).msgLast = c.msgLast := by
  obtain ⟨_, _, _, h⟩ := c.finish_eq op m st d ws; rw [h]
@[simp] theorem Chip.finish_valeCals (c : Chip) (op : Nat) (m : Cmd) (st d : Nat) (ws : List Word) : (c.finish op m st d ws).valeCals = c.valeCals := by
  obtain ⟨_, _, _, h⟩ := c.finish_eq op m st d ws; rw [h]
@[simp] theorem Chip.finish_hkTrims (c : Chip) (op : Nat) (m : Cmd) (st d : Nat) (ws : List Word) : (c.finish op m st d ws).hkTrims = c.hkTrims := by
  obtain ⟨_, _, _, h⟩ := c.finish_eq op m st d ws; rw [h]
@[simp] theorem Chip.finish_hkStamp (c : Chip) (op : Nat) (m : Cmd) (st d : Nat) (ws : List Word) : (c.finish op m st d ws).hkStamp = c.hkStamp := by
  obtain ⟨_, _, _, h⟩ := c.finish_eq op m st d ws; rw [h]
@[simp] theorem Chip.finish_heat (c : Chip) (op : Nat) (m : Cmd) (st d : Nat) (ws : List Word) : (c.finish op m st d ws).heat = c.heat := by
  obtain ⟨_, _, _, h⟩ := c.finish_eq op m st d ws; rw [h]
@[simp] theorem Chip.finish_act (c : Chip) (op : Nat) (m : Cmd) (st d : Nat) (ws : List Word) : (c.finish op m st d ws).act = c.act := by
  obtain ⟨_, _, _, h⟩ := c.finish_eq op m st d ws; rw [h]
@[simp] theorem Chip.finish_actSeq (c : Chip) (op : Nat) (m : Cmd) (st d : Nat) (ws : List Word) : (c.finish op m st d ws).actSeq = c.actSeq := by
  obtain ⟨_, _, _, h⟩ := c.finish_eq op m st d ws; rw [h]
@[simp] theorem Chip.finish_cursors (c : Chip) (op : Nat) (m : Cmd) (st d : Nat) (ws : List Word) : (c.finish op m st d ws).cursors = c.cursors := by
  obtain ⟨_, _, _, h⟩ := c.finish_eq op m st d ws; rw [h]

/-! ### Chip.answer -/

@[simp] theorem Chip.answer_device (c : Chip) (op : Nat) (m : Cmd) (st d : Nat) (ws : List Word) : (c.answer op m st d ws).device = c.device := by
  obtain ⟨_, _, _, h⟩ := c.answer_eq op m st d ws; rw [h]
@[simp] theorem Chip.answer_regs (c : Chip) (op : Nat) (m : Cmd) (st d : Nat) (ws : List Word) : (c.answer op m st d ws).regs = c.regs := by
  obtain ⟨_, _, _, h⟩ := c.answer_eq op m st d ws; rw [h]
@[simp] theorem Chip.answer_marks (c : Chip) (op : Nat) (m : Cmd) (st d : Nat) (ws : List Word) : (c.answer op m st d ws).marks = c.marks := by
  obtain ⟨_, _, _, h⟩ := c.answer_eq op m st d ws; rw [h]
@[simp] theorem Chip.answer_mem (c : Chip) (op : Nat) (m : Cmd) (st d : Nat) (ws : List Word) : (c.answer op m st d ws).mem = c.mem := by
  obtain ⟨_, _, _, h⟩ := c.answer_eq op m st d ws; rw [h]
@[simp] theorem Chip.answer_free (c : Chip) (op : Nat) (m : Cmd) (st d : Nat) (ws : List Word) : (c.answer op m st d ws).free = c.free := by
  obtain ⟨_, _, _, h⟩ := c.answer_eq op m st d ws; rw [h]
@[simp] theorem Chip.answer_boots (c : Chip) (op : Nat) (m : Cmd) (st d : Nat) (ws : List Word) : (c.answer op m st d ws).boots = c.boots := by
  obtain ⟨_, _, _, h⟩ := c.answer_eq op m st d ws; rw [h]
@[simp] theorem Chip.answer_gens (c : Chip) (op : Nat) (m : Cmd) (st d : Nat) (ws : List Word) : (c.answer op m st d ws).gens = c.gens := by
  obtain ⟨_, _, _, h⟩ := c.answer_eq op m st d ws; rw [h]
@[simp] theorem Chip.answer_gclk (c : Chip) (op : Nat) (m : Cmd) (st d : Nat) (ws : List Word) : (c.answer op m st d ws).gclk = c.gclk := by
  obtain ⟨_, _, _, h⟩ := c.answer_eq op m st d ws; rw [h]
@[simp] theorem Chip.answer_bud (c : Chip) (op : Nat) (m : Cmd) (st d : Nat) (ws : List Word) : (c.answer op m st d ws).bud = c.bud := by
  obtain ⟨_, _, _, h⟩ := c.answer_eq op m st d ws; rw [h]
@[simp] theorem Chip.answer_msgs (c : Chip) (op : Nat) (m : Cmd) (st d : Nat) (ws : List Word) : (c.answer op m st d ws).msgs = c.msgs := by
  obtain ⟨_, _, _, h⟩ := c.answer_eq op m st d ws; rw [h]
@[simp] theorem Chip.answer_mpq (c : Chip) (op : Nat) (m : Cmd) (st d : Nat) (ws : List Word) : (c.answer op m st d ws).mpq = c.mpq := by
  obtain ⟨_, _, _, h⟩ := c.answer_eq op m st d ws; rw [h]
@[simp] theorem Chip.answer_reads (c : Chip) (op : Nat) (m : Cmd) (st d : Nat) (ws : List Word) : (c.answer op m st d ws).reads = c.reads := by
  obtain ⟨_, _, _, h⟩ := c.answer_eq op m st d ws; rw [h]
@[simp] theorem Chip.answer_dales (c : Chip) (op : Nat) (m : Cmd) (st d : Nat) (ws : List Word) : (c.answer op m st d ws).dales = c.dales := by
  obtain ⟨_, _, _, h⟩ := c.answer_eq op m st d ws; rw [h]
@[simp] theorem Chip.answer_banks (c : Chip) (op : Nat) (m : Cmd) (st d : Nat) (ws : List Word) : (c.answer op m st d ws).banks = c.banks := by
  obtain ⟨_, _, _, h⟩ := c.answer_eq op m st d ws; rw [h]
@[simp] theorem Chip.answer_adcs (c : Chip) (op : Nat) (m : Cmd) (st d : Nat) (ws : List Word) : (c.answer op m st d ws).adcs = c.adcs := by
  obtain ⟨_, _, _, h⟩ := c.answer_eq op m st d ws; rw [h]
@[simp] theorem Chip.answer_adcGain (c : Chip) (op : Nat) (m : Cmd) (st d : Nat) (ws : List Word) : (c.answer op m st d ws).adcGain = c.adcGain := by
  obtain ⟨_, _, _, h⟩ := c.answer_eq op m st d ws; rw [h]
@[simp] theorem Chip.answer_throttle (c : Chip) (op : Nat) (m : Cmd) (st d : Nat) (ws : List Word) : (c.answer op m st d ws).throttle = c.throttle := by
  obtain ⟨_, _, _, h⟩ := c.answer_eq op m st d ws; rw [h]
@[simp] theorem Chip.answer_chans (c : Chip) (op : Nat) (m : Cmd) (st d : Nat) (ws : List Word) : (c.answer op m st d ws).chans = c.chans := by
  obtain ⟨_, _, _, h⟩ := c.answer_eq op m st d ws; rw [h]
@[simp] theorem Chip.answer_units (c : Chip) (op : Nat) (m : Cmd) (st d : Nat) (ws : List Word) : (c.answer op m st d ws).units = c.units := by
  obtain ⟨_, _, _, h⟩ := c.answer_eq op m st d ws; rw [h]
@[simp] theorem Chip.answer_tones (c : Chip) (op : Nat) (m : Cmd) (st d : Nat) (ws : List Word) : (c.answer op m st d ws).tones = c.tones := by
  obtain ⟨_, _, _, h⟩ := c.answer_eq op m st d ws; rw [h]
@[simp] theorem Chip.answer_loops (c : Chip) (op : Nat) (m : Cmd) (st d : Nat) (ws : List Word) : (c.answer op m st d ws).loops = c.loops := by
  obtain ⟨_, _, _, h⟩ := c.answer_eq op m st d ws; rw [h]
@[simp] theorem Chip.answer_tests (c : Chip) (op : Nat) (m : Cmd) (st d : Nat) (ws : List Word) : (c.answer op m st d ws).tests = c.tests := by
  obtain ⟨_, _, _, h⟩ := c.answer_eq op m st d ws; rw [h]
@[simp] theorem Chip.answer_ticked (c : Chip) (op : Nat) (m : Cmd) (st d : Nat) (ws : List Word) : (c.answer op m st d ws).ticked = c.ticked := by
  obtain ⟨_, _, _, h⟩ := c.answer_eq op m st d ws; rw [h]
@[simp] theorem Chip.answer_spareFor (c : Chip) (op : Nat) (m : Cmd) (st d : Nat) (ws : List Word) : (c.answer op m st d ws).spareFor = c.spareFor := by
  obtain ⟨_, _, _, h⟩ := c.answer_eq op m st d ws; rw [h]
@[simp] theorem Chip.answer_capLeft (c : Chip) (op : Nat) (m : Cmd) (st d : Nat) (ws : List Word) : (c.answer op m st d ws).capLeft = c.capLeft := by
  obtain ⟨_, _, _, h⟩ := c.answer_eq op m st d ws; rw [h]
@[simp] theorem Chip.answer_guySeed (c : Chip) (op : Nat) (m : Cmd) (st d : Nat) (ws : List Word) : (c.answer op m st d ws).guySeed = c.guySeed := by
  obtain ⟨_, _, _, h⟩ := c.answer_eq op m st d ws; rw [h]
@[simp] theorem Chip.answer_trkLive (c : Chip) (op : Nat) (m : Cmd) (st d : Nat) (ws : List Word) : (c.answer op m st d ws).trkLive = c.trkLive := by
  obtain ⟨_, _, _, h⟩ := c.answer_eq op m st d ws; rw [h]
@[simp] theorem Chip.answer_hkAvgNew (c : Chip) (op : Nat) (m : Cmd) (st d : Nat) (ws : List Word) : (c.answer op m st d ws).hkAvgNew = c.hkAvgNew := by
  obtain ⟨_, _, _, h⟩ := c.answer_eq op m st d ws; rw [h]
@[simp] theorem Chip.answer_toneStart (c : Chip) (op : Nat) (m : Cmd) (st d : Nat) (ws : List Word) : (c.answer op m st d ws).toneStart = c.toneStart := by
  obtain ⟨_, _, _, h⟩ := c.answer_eq op m st d ws; rw [h]
@[simp] theorem Chip.answer_toneLog (c : Chip) (op : Nat) (m : Cmd) (st d : Nat) (ws : List Word) : (c.answer op m st d ws).toneLog = c.toneLog := by
  obtain ⟨_, _, _, h⟩ := c.answer_eq op m st d ws; rw [h]
@[simp] theorem Chip.answer_trigOld (c : Chip) (op : Nat) (m : Cmd) (st d : Nat) (ws : List Word) : (c.answer op m st d ws).trigOld = c.trigOld := by
  obtain ⟨_, _, _, h⟩ := c.answer_eq op m st d ws; rw [h]
@[simp] theorem Chip.answer_pairLink (c : Chip) (op : Nat) (m : Cmd) (st d : Nat) (ws : List Word) : (c.answer op m st d ws).pairLink = c.pairLink := by
  obtain ⟨_, _, _, h⟩ := c.answer_eq op m st d ws; rw [h]
@[simp] theorem Chip.answer_slots (c : Chip) (op : Nat) (m : Cmd) (st d : Nat) (ws : List Word) : (c.answer op m st d ws).slots = c.slots := by
  obtain ⟨_, _, _, h⟩ := c.answer_eq op m st d ws; rw [h]
@[simp] theorem Chip.answer_radio (c : Chip) (op : Nat) (m : Cmd) (st d : Nat) (ws : List Word) : (c.answer op m st d ws).radio = c.radio := by
  obtain ⟨_, _, _, h⟩ := c.answer_eq op m st d ws; rw [h]
@[simp] theorem Chip.answer_recs (c : Chip) (op : Nat) (m : Cmd) (st d : Nat) (ws : List Word) : (c.answer op m st d ws).recs = c.recs := by
  obtain ⟨_, _, _, h⟩ := c.answer_eq op m st d ws; rw [h]
@[simp] theorem Chip.answer_loaded (c : Chip) (op : Nat) (m : Cmd) (st d : Nat) (ws : List Word) : (c.answer op m st d ws).loaded = c.loaded := by
  obtain ⟨_, _, _, h⟩ := c.answer_eq op m st d ws; rw [h]
@[simp] theorem Chip.answer_cores (c : Chip) (op : Nat) (m : Cmd) (st d : Nat) (ws : List Word) : (c.answer op m st d ws).cores = c.cores := by
  obtain ⟨_, _, _, h⟩ := c.answer_eq op m st d ws; rw [h]
@[simp] theorem Chip.answer_arrs (c : Chip) (op : Nat) (m : Cmd) (st d : Nat) (ws : List Word) : (c.answer op m st d ws).arrs = c.arrs := by
  obtain ⟨_, _, _, h⟩ := c.answer_eq op m st d ws; rw [h]
@[simp] theorem Chip.answer_velds (c : Chip) (op : Nat) (m : Cmd) (st d : Nat) (ws : List Word) : (c.answer op m st d ws).velds = c.velds := by
  obtain ⟨_, _, _, h⟩ := c.answer_eq op m st d ws; rw [h]
@[simp] theorem Chip.answer_tents (c : Chip) (op : Nat) (m : Cmd) (st d : Nat) (ws : List Word) : (c.answer op m st d ws).tents = c.tents := by
  obtain ⟨_, _, _, h⟩ := c.answer_eq op m st d ws; rw [h]
@[simp] theorem Chip.answer_tentWaits (c : Chip) (op : Nat) (m : Cmd) (st d : Nat) (ws : List Word) : (c.answer op m st d ws).tentWaits = c.tentWaits := by
  obtain ⟨_, _, _, h⟩ := c.answer_eq op m st d ws; rw [h]
@[simp] theorem Chip.answer_passes (c : Chip) (op : Nat) (m : Cmd) (st d : Nat) (ws : List Word) : (c.answer op m st d ws).passes = c.passes := by
  obtain ⟨_, _, _, h⟩ := c.answer_eq op m st d ws; rw [h]
@[simp] theorem Chip.answer_bankA (c : Chip) (op : Nat) (m : Cmd) (st d : Nat) (ws : List Word) : (c.answer op m st d ws).bankA = c.bankA := by
  obtain ⟨_, _, _, h⟩ := c.answer_eq op m st d ws; rw [h]
@[simp] theorem Chip.answer_bankB (c : Chip) (op : Nat) (m : Cmd) (st d : Nat) (ws : List Word) : (c.answer op m st d ws).bankB = c.bankB := by
  obtain ⟨_, _, _, h⟩ := c.answer_eq op m st d ws; rw [h]
@[simp] theorem Chip.answer_current (c : Chip) (op : Nat) (m : Cmd) (st d : Nat) (ws : List Word) : (c.answer op m st d ws).current = c.current := by
  obtain ⟨_, _, _, h⟩ := c.answer_eq op m st d ws; rw [h]
@[simp] theorem Chip.answer_fws (c : Chip) (op : Nat) (m : Cmd) (st d : Nat) (ws : List Word) : (c.answer op m st d ws).fws = c.fws := by
  obtain ⟨_, _, _, h⟩ := c.answer_eq op m st d ws; rw [h]
@[simp] theorem Chip.answer_rollback (c : Chip) (op : Nat) (m : Cmd) (st d : Nat) (ws : List Word) : (c.answer op m st d ws).rollback = c.rollback := by
  obtain ⟨_, _, _, h⟩ := c.answer_eq op m st d ws; rw [h]
@[simp] theorem Chip.answer_drains (c : Chip) (op : Nat) (m : Cmd) (st d : Nat) (ws : List Word) : (c.answer op m st d ws).drains = c.drains := by
  obtain ⟨_, _, _, h⟩ := c.answer_eq op m st d ws; rw [h]
@[simp] theorem Chip.answer_boot (c : Chip) (op : Nat) (m : Cmd) (st d : Nat) (ws : List Word) : (c.answer op m st d ws).boot = c.boot := by
  obtain ⟨_, _, _, h⟩ := c.answer_eq op m st d ws; rw [h]
@[simp] theorem Chip.answer_coderJobs (c : Chip) (op : Nat) (m : Cmd) (st d : Nat) (ws : List Word) : (c.answer op m st d ws).coderJobs = c.coderJobs := by
  obtain ⟨_, _, _, h⟩ := c.answer_eq op m st d ws; rw [h]
@[simp] theorem Chip.answer_coderNext (c : Chip) (op : Nat) (m : Cmd) (st d : Nat) (ws : List Word) : (c.answer op m st d ws).coderNext = c.coderNext := by
  obtain ⟨_, _, _, h⟩ := c.answer_eq op m st d ws; rw [h]
@[simp] theorem Chip.answer_submits (c : Chip) (op : Nat) (m : Cmd) (st d : Nat) (ws : List Word) : (c.answer op m st d ws).submits = c.submits := by
  obtain ⟨_, _, _, h⟩ := c.answer_eq op m st d ws; rw [h]
@[simp] theorem Chip.answer_harqs (c : Chip) (op : Nat) (m : Cmd) (st d : Nat) (ws : List Word) : (c.answer op m st d ws).harqs = c.harqs := by
  obtain ⟨_, _, _, h⟩ := c.answer_eq op m st d ws; rw [h]
@[simp] theorem Chip.answer_sweeps (c : Chip) (op : Nat) (m : Cmd) (st d : Nat) (ws : List Word) : (c.answer op m st d ws).sweeps = c.sweeps := by
  obtain ⟨_, _, _, h⟩ := c.answer_eq op m st d ws; rw [h]
@[simp] theorem Chip.answer_decCredit (c : Chip) (op : Nat) (m : Cmd) (st d : Nat) (ws : List Word) : (c.answer op m st d ws).decCredit = c.decCredit := by
  obtain ⟨_, _, _, h⟩ := c.answer_eq op m st d ws; rw [h]
@[simp] theorem Chip.answer_encCredit (c : Chip) (op : Nat) (m : Cmd) (st d : Nat) (ws : List Word) : (c.answer op m st d ws).encCredit = c.encCredit := by
  obtain ⟨_, _, _, h⟩ := c.answer_eq op m st d ws; rw [h]
@[simp] theorem Chip.answer_msgLast (c : Chip) (op : Nat) (m : Cmd) (st d : Nat) (ws : List Word) : (c.answer op m st d ws).msgLast = c.msgLast := by
  obtain ⟨_, _, _, h⟩ := c.answer_eq op m st d ws; rw [h]
@[simp] theorem Chip.answer_valeCals (c : Chip) (op : Nat) (m : Cmd) (st d : Nat) (ws : List Word) : (c.answer op m st d ws).valeCals = c.valeCals := by
  obtain ⟨_, _, _, h⟩ := c.answer_eq op m st d ws; rw [h]
@[simp] theorem Chip.answer_hkTrims (c : Chip) (op : Nat) (m : Cmd) (st d : Nat) (ws : List Word) : (c.answer op m st d ws).hkTrims = c.hkTrims := by
  obtain ⟨_, _, _, h⟩ := c.answer_eq op m st d ws; rw [h]
@[simp] theorem Chip.answer_hkStamp (c : Chip) (op : Nat) (m : Cmd) (st d : Nat) (ws : List Word) : (c.answer op m st d ws).hkStamp = c.hkStamp := by
  obtain ⟨_, _, _, h⟩ := c.answer_eq op m st d ws; rw [h]
@[simp] theorem Chip.answer_heat (c : Chip) (op : Nat) (m : Cmd) (st d : Nat) (ws : List Word) : (c.answer op m st d ws).heat = c.heat := by
  obtain ⟨_, _, _, h⟩ := c.answer_eq op m st d ws; rw [h]
@[simp] theorem Chip.answer_act (c : Chip) (op : Nat) (m : Cmd) (st d : Nat) (ws : List Word) : (c.answer op m st d ws).act = c.act := by
  obtain ⟨_, _, _, h⟩ := c.answer_eq op m st d ws; rw [h]
@[simp] theorem Chip.answer_actSeq (c : Chip) (op : Nat) (m : Cmd) (st d : Nat) (ws : List Word) : (c.answer op m st d ws).actSeq = c.actSeq := by
  obtain ⟨_, _, _, h⟩ := c.answer_eq op m st d ws; rw [h]
@[simp] theorem Chip.answer_cursors (c : Chip) (op : Nat) (m : Cmd) (st d : Nat) (ws : List Word) : (c.answer op m st d ws).cursors = c.cursors := by
  obtain ⟨_, _, _, h⟩ := c.answer_eq op m st d ws; rw [h]

/-! ### Chip.accept -/

@[simp] theorem Chip.accept_device (c : Chip) (op : Nat) (m : Cmd) : (c.accept op m).device = c.device := by
  obtain ⟨_, _, _, h⟩ := c.accept_eq op m; rw [h]
@[simp] theorem Chip.accept_regs (c : Chip) (op : Nat) (m : Cmd) : (c.accept op m).regs = c.regs := by
  obtain ⟨_, _, _, h⟩ := c.accept_eq op m; rw [h]
@[simp] theorem Chip.accept_marks (c : Chip) (op : Nat) (m : Cmd) : (c.accept op m).marks = c.marks := by
  obtain ⟨_, _, _, h⟩ := c.accept_eq op m; rw [h]
@[simp] theorem Chip.accept_mem (c : Chip) (op : Nat) (m : Cmd) : (c.accept op m).mem = c.mem := by
  obtain ⟨_, _, _, h⟩ := c.accept_eq op m; rw [h]
@[simp] theorem Chip.accept_free (c : Chip) (op : Nat) (m : Cmd) : (c.accept op m).free = c.free := by
  obtain ⟨_, _, _, h⟩ := c.accept_eq op m; rw [h]
@[simp] theorem Chip.accept_boots (c : Chip) (op : Nat) (m : Cmd) : (c.accept op m).boots = c.boots := by
  obtain ⟨_, _, _, h⟩ := c.accept_eq op m; rw [h]
@[simp] theorem Chip.accept_gens (c : Chip) (op : Nat) (m : Cmd) : (c.accept op m).gens = c.gens := by
  obtain ⟨_, _, _, h⟩ := c.accept_eq op m; rw [h]
@[simp] theorem Chip.accept_gclk (c : Chip) (op : Nat) (m : Cmd) : (c.accept op m).gclk = c.gclk := by
  obtain ⟨_, _, _, h⟩ := c.accept_eq op m; rw [h]
@[simp] theorem Chip.accept_bud (c : Chip) (op : Nat) (m : Cmd) : (c.accept op m).bud = c.bud := by
  obtain ⟨_, _, _, h⟩ := c.accept_eq op m; rw [h]
@[simp] theorem Chip.accept_msgs (c : Chip) (op : Nat) (m : Cmd) : (c.accept op m).msgs = c.msgs := by
  obtain ⟨_, _, _, h⟩ := c.accept_eq op m; rw [h]
@[simp] theorem Chip.accept_mpq (c : Chip) (op : Nat) (m : Cmd) : (c.accept op m).mpq = c.mpq := by
  obtain ⟨_, _, _, h⟩ := c.accept_eq op m; rw [h]
@[simp] theorem Chip.accept_reads (c : Chip) (op : Nat) (m : Cmd) : (c.accept op m).reads = c.reads := by
  obtain ⟨_, _, _, h⟩ := c.accept_eq op m; rw [h]
@[simp] theorem Chip.accept_dales (c : Chip) (op : Nat) (m : Cmd) : (c.accept op m).dales = c.dales := by
  obtain ⟨_, _, _, h⟩ := c.accept_eq op m; rw [h]
@[simp] theorem Chip.accept_banks (c : Chip) (op : Nat) (m : Cmd) : (c.accept op m).banks = c.banks := by
  obtain ⟨_, _, _, h⟩ := c.accept_eq op m; rw [h]
@[simp] theorem Chip.accept_adcs (c : Chip) (op : Nat) (m : Cmd) : (c.accept op m).adcs = c.adcs := by
  obtain ⟨_, _, _, h⟩ := c.accept_eq op m; rw [h]
@[simp] theorem Chip.accept_adcGain (c : Chip) (op : Nat) (m : Cmd) : (c.accept op m).adcGain = c.adcGain := by
  obtain ⟨_, _, _, h⟩ := c.accept_eq op m; rw [h]
@[simp] theorem Chip.accept_throttle (c : Chip) (op : Nat) (m : Cmd) : (c.accept op m).throttle = c.throttle := by
  obtain ⟨_, _, _, h⟩ := c.accept_eq op m; rw [h]
@[simp] theorem Chip.accept_chans (c : Chip) (op : Nat) (m : Cmd) : (c.accept op m).chans = c.chans := by
  obtain ⟨_, _, _, h⟩ := c.accept_eq op m; rw [h]
@[simp] theorem Chip.accept_units (c : Chip) (op : Nat) (m : Cmd) : (c.accept op m).units = c.units := by
  obtain ⟨_, _, _, h⟩ := c.accept_eq op m; rw [h]
@[simp] theorem Chip.accept_tones (c : Chip) (op : Nat) (m : Cmd) : (c.accept op m).tones = c.tones := by
  obtain ⟨_, _, _, h⟩ := c.accept_eq op m; rw [h]
@[simp] theorem Chip.accept_loops (c : Chip) (op : Nat) (m : Cmd) : (c.accept op m).loops = c.loops := by
  obtain ⟨_, _, _, h⟩ := c.accept_eq op m; rw [h]
@[simp] theorem Chip.accept_tests (c : Chip) (op : Nat) (m : Cmd) : (c.accept op m).tests = c.tests := by
  obtain ⟨_, _, _, h⟩ := c.accept_eq op m; rw [h]
@[simp] theorem Chip.accept_ticked (c : Chip) (op : Nat) (m : Cmd) : (c.accept op m).ticked = c.ticked := by
  obtain ⟨_, _, _, h⟩ := c.accept_eq op m; rw [h]
@[simp] theorem Chip.accept_spareFor (c : Chip) (op : Nat) (m : Cmd) : (c.accept op m).spareFor = c.spareFor := by
  obtain ⟨_, _, _, h⟩ := c.accept_eq op m; rw [h]
@[simp] theorem Chip.accept_capLeft (c : Chip) (op : Nat) (m : Cmd) : (c.accept op m).capLeft = c.capLeft := by
  obtain ⟨_, _, _, h⟩ := c.accept_eq op m; rw [h]
@[simp] theorem Chip.accept_guySeed (c : Chip) (op : Nat) (m : Cmd) : (c.accept op m).guySeed = c.guySeed := by
  obtain ⟨_, _, _, h⟩ := c.accept_eq op m; rw [h]
@[simp] theorem Chip.accept_trkLive (c : Chip) (op : Nat) (m : Cmd) : (c.accept op m).trkLive = c.trkLive := by
  obtain ⟨_, _, _, h⟩ := c.accept_eq op m; rw [h]
@[simp] theorem Chip.accept_hkAvgNew (c : Chip) (op : Nat) (m : Cmd) : (c.accept op m).hkAvgNew = c.hkAvgNew := by
  obtain ⟨_, _, _, h⟩ := c.accept_eq op m; rw [h]
@[simp] theorem Chip.accept_toneStart (c : Chip) (op : Nat) (m : Cmd) : (c.accept op m).toneStart = c.toneStart := by
  obtain ⟨_, _, _, h⟩ := c.accept_eq op m; rw [h]
@[simp] theorem Chip.accept_toneLog (c : Chip) (op : Nat) (m : Cmd) : (c.accept op m).toneLog = c.toneLog := by
  obtain ⟨_, _, _, h⟩ := c.accept_eq op m; rw [h]
@[simp] theorem Chip.accept_trigOld (c : Chip) (op : Nat) (m : Cmd) : (c.accept op m).trigOld = c.trigOld := by
  obtain ⟨_, _, _, h⟩ := c.accept_eq op m; rw [h]
@[simp] theorem Chip.accept_pairLink (c : Chip) (op : Nat) (m : Cmd) : (c.accept op m).pairLink = c.pairLink := by
  obtain ⟨_, _, _, h⟩ := c.accept_eq op m; rw [h]
@[simp] theorem Chip.accept_slots (c : Chip) (op : Nat) (m : Cmd) : (c.accept op m).slots = c.slots := by
  obtain ⟨_, _, _, h⟩ := c.accept_eq op m; rw [h]
@[simp] theorem Chip.accept_radio (c : Chip) (op : Nat) (m : Cmd) : (c.accept op m).radio = c.radio := by
  obtain ⟨_, _, _, h⟩ := c.accept_eq op m; rw [h]
@[simp] theorem Chip.accept_recs (c : Chip) (op : Nat) (m : Cmd) : (c.accept op m).recs = c.recs := by
  obtain ⟨_, _, _, h⟩ := c.accept_eq op m; rw [h]
@[simp] theorem Chip.accept_loaded (c : Chip) (op : Nat) (m : Cmd) : (c.accept op m).loaded = c.loaded := by
  obtain ⟨_, _, _, h⟩ := c.accept_eq op m; rw [h]
@[simp] theorem Chip.accept_cores (c : Chip) (op : Nat) (m : Cmd) : (c.accept op m).cores = c.cores := by
  obtain ⟨_, _, _, h⟩ := c.accept_eq op m; rw [h]
@[simp] theorem Chip.accept_arrs (c : Chip) (op : Nat) (m : Cmd) : (c.accept op m).arrs = c.arrs := by
  obtain ⟨_, _, _, h⟩ := c.accept_eq op m; rw [h]
@[simp] theorem Chip.accept_velds (c : Chip) (op : Nat) (m : Cmd) : (c.accept op m).velds = c.velds := by
  obtain ⟨_, _, _, h⟩ := c.accept_eq op m; rw [h]
@[simp] theorem Chip.accept_tents (c : Chip) (op : Nat) (m : Cmd) : (c.accept op m).tents = c.tents := by
  obtain ⟨_, _, _, h⟩ := c.accept_eq op m; rw [h]
@[simp] theorem Chip.accept_tentWaits (c : Chip) (op : Nat) (m : Cmd) : (c.accept op m).tentWaits = c.tentWaits := by
  obtain ⟨_, _, _, h⟩ := c.accept_eq op m; rw [h]
@[simp] theorem Chip.accept_passes (c : Chip) (op : Nat) (m : Cmd) : (c.accept op m).passes = c.passes := by
  obtain ⟨_, _, _, h⟩ := c.accept_eq op m; rw [h]
@[simp] theorem Chip.accept_bankA (c : Chip) (op : Nat) (m : Cmd) : (c.accept op m).bankA = c.bankA := by
  obtain ⟨_, _, _, h⟩ := c.accept_eq op m; rw [h]
@[simp] theorem Chip.accept_bankB (c : Chip) (op : Nat) (m : Cmd) : (c.accept op m).bankB = c.bankB := by
  obtain ⟨_, _, _, h⟩ := c.accept_eq op m; rw [h]
@[simp] theorem Chip.accept_current (c : Chip) (op : Nat) (m : Cmd) : (c.accept op m).current = c.current := by
  obtain ⟨_, _, _, h⟩ := c.accept_eq op m; rw [h]
@[simp] theorem Chip.accept_fws (c : Chip) (op : Nat) (m : Cmd) : (c.accept op m).fws = c.fws := by
  obtain ⟨_, _, _, h⟩ := c.accept_eq op m; rw [h]
@[simp] theorem Chip.accept_rollback (c : Chip) (op : Nat) (m : Cmd) : (c.accept op m).rollback = c.rollback := by
  obtain ⟨_, _, _, h⟩ := c.accept_eq op m; rw [h]
@[simp] theorem Chip.accept_drains (c : Chip) (op : Nat) (m : Cmd) : (c.accept op m).drains = c.drains := by
  obtain ⟨_, _, _, h⟩ := c.accept_eq op m; rw [h]
@[simp] theorem Chip.accept_boot (c : Chip) (op : Nat) (m : Cmd) : (c.accept op m).boot = c.boot := by
  obtain ⟨_, _, _, h⟩ := c.accept_eq op m; rw [h]
@[simp] theorem Chip.accept_coderJobs (c : Chip) (op : Nat) (m : Cmd) : (c.accept op m).coderJobs = c.coderJobs := by
  obtain ⟨_, _, _, h⟩ := c.accept_eq op m; rw [h]
@[simp] theorem Chip.accept_coderNext (c : Chip) (op : Nat) (m : Cmd) : (c.accept op m).coderNext = c.coderNext := by
  obtain ⟨_, _, _, h⟩ := c.accept_eq op m; rw [h]
@[simp] theorem Chip.accept_submits (c : Chip) (op : Nat) (m : Cmd) : (c.accept op m).submits = c.submits := by
  obtain ⟨_, _, _, h⟩ := c.accept_eq op m; rw [h]
@[simp] theorem Chip.accept_harqs (c : Chip) (op : Nat) (m : Cmd) : (c.accept op m).harqs = c.harqs := by
  obtain ⟨_, _, _, h⟩ := c.accept_eq op m; rw [h]
@[simp] theorem Chip.accept_sweeps (c : Chip) (op : Nat) (m : Cmd) : (c.accept op m).sweeps = c.sweeps := by
  obtain ⟨_, _, _, h⟩ := c.accept_eq op m; rw [h]
@[simp] theorem Chip.accept_decCredit (c : Chip) (op : Nat) (m : Cmd) : (c.accept op m).decCredit = c.decCredit := by
  obtain ⟨_, _, _, h⟩ := c.accept_eq op m; rw [h]
@[simp] theorem Chip.accept_encCredit (c : Chip) (op : Nat) (m : Cmd) : (c.accept op m).encCredit = c.encCredit := by
  obtain ⟨_, _, _, h⟩ := c.accept_eq op m; rw [h]
@[simp] theorem Chip.accept_msgLast (c : Chip) (op : Nat) (m : Cmd) : (c.accept op m).msgLast = c.msgLast := by
  obtain ⟨_, _, _, h⟩ := c.accept_eq op m; rw [h]
@[simp] theorem Chip.accept_valeCals (c : Chip) (op : Nat) (m : Cmd) : (c.accept op m).valeCals = c.valeCals := by
  obtain ⟨_, _, _, h⟩ := c.accept_eq op m; rw [h]
@[simp] theorem Chip.accept_hkTrims (c : Chip) (op : Nat) (m : Cmd) : (c.accept op m).hkTrims = c.hkTrims := by
  obtain ⟨_, _, _, h⟩ := c.accept_eq op m; rw [h]
@[simp] theorem Chip.accept_hkStamp (c : Chip) (op : Nat) (m : Cmd) : (c.accept op m).hkStamp = c.hkStamp := by
  obtain ⟨_, _, _, h⟩ := c.accept_eq op m; rw [h]
@[simp] theorem Chip.accept_heat (c : Chip) (op : Nat) (m : Cmd) : (c.accept op m).heat = c.heat := by
  obtain ⟨_, _, _, h⟩ := c.accept_eq op m; rw [h]
@[simp] theorem Chip.accept_act (c : Chip) (op : Nat) (m : Cmd) : (c.accept op m).act = c.act := by
  obtain ⟨_, _, _, h⟩ := c.accept_eq op m; rw [h]
@[simp] theorem Chip.accept_actSeq (c : Chip) (op : Nat) (m : Cmd) : (c.accept op m).actSeq = c.actSeq := by
  obtain ⟨_, _, _, h⟩ := c.accept_eq op m; rw [h]
@[simp] theorem Chip.accept_cursors (c : Chip) (op : Nat) (m : Cmd) : (c.accept op m).cursors = c.cursors := by
  obtain ⟨_, _, _, h⟩ := c.accept_eq op m; rw [h]

/-! ### Chip.acceptFinish -/

@[simp] theorem Chip.acceptFinish_device (c : Chip) (op : Nat) (m : Cmd) (st d : Nat) (ws : List Word) : (c.acceptFinish op m st d ws).device = c.device := by
  obtain ⟨_, _, _, h⟩ := c.acceptFinish_eq op m st d ws; rw [h]
@[simp] theorem Chip.acceptFinish_regs (c : Chip) (op : Nat) (m : Cmd) (st d : Nat) (ws : List Word) : (c.acceptFinish op m st d ws).regs = c.regs := by
  obtain ⟨_, _, _, h⟩ := c.acceptFinish_eq op m st d ws; rw [h]
@[simp] theorem Chip.acceptFinish_marks (c : Chip) (op : Nat) (m : Cmd) (st d : Nat) (ws : List Word) : (c.acceptFinish op m st d ws).marks = c.marks := by
  obtain ⟨_, _, _, h⟩ := c.acceptFinish_eq op m st d ws; rw [h]
@[simp] theorem Chip.acceptFinish_mem (c : Chip) (op : Nat) (m : Cmd) (st d : Nat) (ws : List Word) : (c.acceptFinish op m st d ws).mem = c.mem := by
  obtain ⟨_, _, _, h⟩ := c.acceptFinish_eq op m st d ws; rw [h]
@[simp] theorem Chip.acceptFinish_free (c : Chip) (op : Nat) (m : Cmd) (st d : Nat) (ws : List Word) : (c.acceptFinish op m st d ws).free = c.free := by
  obtain ⟨_, _, _, h⟩ := c.acceptFinish_eq op m st d ws; rw [h]
@[simp] theorem Chip.acceptFinish_boots (c : Chip) (op : Nat) (m : Cmd) (st d : Nat) (ws : List Word) : (c.acceptFinish op m st d ws).boots = c.boots := by
  obtain ⟨_, _, _, h⟩ := c.acceptFinish_eq op m st d ws; rw [h]
@[simp] theorem Chip.acceptFinish_gens (c : Chip) (op : Nat) (m : Cmd) (st d : Nat) (ws : List Word) : (c.acceptFinish op m st d ws).gens = c.gens := by
  obtain ⟨_, _, _, h⟩ := c.acceptFinish_eq op m st d ws; rw [h]
@[simp] theorem Chip.acceptFinish_gclk (c : Chip) (op : Nat) (m : Cmd) (st d : Nat) (ws : List Word) : (c.acceptFinish op m st d ws).gclk = c.gclk := by
  obtain ⟨_, _, _, h⟩ := c.acceptFinish_eq op m st d ws; rw [h]
@[simp] theorem Chip.acceptFinish_bud (c : Chip) (op : Nat) (m : Cmd) (st d : Nat) (ws : List Word) : (c.acceptFinish op m st d ws).bud = c.bud := by
  obtain ⟨_, _, _, h⟩ := c.acceptFinish_eq op m st d ws; rw [h]
@[simp] theorem Chip.acceptFinish_msgs (c : Chip) (op : Nat) (m : Cmd) (st d : Nat) (ws : List Word) : (c.acceptFinish op m st d ws).msgs = c.msgs := by
  obtain ⟨_, _, _, h⟩ := c.acceptFinish_eq op m st d ws; rw [h]
@[simp] theorem Chip.acceptFinish_mpq (c : Chip) (op : Nat) (m : Cmd) (st d : Nat) (ws : List Word) : (c.acceptFinish op m st d ws).mpq = c.mpq := by
  obtain ⟨_, _, _, h⟩ := c.acceptFinish_eq op m st d ws; rw [h]
@[simp] theorem Chip.acceptFinish_reads (c : Chip) (op : Nat) (m : Cmd) (st d : Nat) (ws : List Word) : (c.acceptFinish op m st d ws).reads = c.reads := by
  obtain ⟨_, _, _, h⟩ := c.acceptFinish_eq op m st d ws; rw [h]
@[simp] theorem Chip.acceptFinish_dales (c : Chip) (op : Nat) (m : Cmd) (st d : Nat) (ws : List Word) : (c.acceptFinish op m st d ws).dales = c.dales := by
  obtain ⟨_, _, _, h⟩ := c.acceptFinish_eq op m st d ws; rw [h]
@[simp] theorem Chip.acceptFinish_banks (c : Chip) (op : Nat) (m : Cmd) (st d : Nat) (ws : List Word) : (c.acceptFinish op m st d ws).banks = c.banks := by
  obtain ⟨_, _, _, h⟩ := c.acceptFinish_eq op m st d ws; rw [h]
@[simp] theorem Chip.acceptFinish_adcs (c : Chip) (op : Nat) (m : Cmd) (st d : Nat) (ws : List Word) : (c.acceptFinish op m st d ws).adcs = c.adcs := by
  obtain ⟨_, _, _, h⟩ := c.acceptFinish_eq op m st d ws; rw [h]
@[simp] theorem Chip.acceptFinish_adcGain (c : Chip) (op : Nat) (m : Cmd) (st d : Nat) (ws : List Word) : (c.acceptFinish op m st d ws).adcGain = c.adcGain := by
  obtain ⟨_, _, _, h⟩ := c.acceptFinish_eq op m st d ws; rw [h]
@[simp] theorem Chip.acceptFinish_throttle (c : Chip) (op : Nat) (m : Cmd) (st d : Nat) (ws : List Word) : (c.acceptFinish op m st d ws).throttle = c.throttle := by
  obtain ⟨_, _, _, h⟩ := c.acceptFinish_eq op m st d ws; rw [h]
@[simp] theorem Chip.acceptFinish_chans (c : Chip) (op : Nat) (m : Cmd) (st d : Nat) (ws : List Word) : (c.acceptFinish op m st d ws).chans = c.chans := by
  obtain ⟨_, _, _, h⟩ := c.acceptFinish_eq op m st d ws; rw [h]
@[simp] theorem Chip.acceptFinish_units (c : Chip) (op : Nat) (m : Cmd) (st d : Nat) (ws : List Word) : (c.acceptFinish op m st d ws).units = c.units := by
  obtain ⟨_, _, _, h⟩ := c.acceptFinish_eq op m st d ws; rw [h]
@[simp] theorem Chip.acceptFinish_tones (c : Chip) (op : Nat) (m : Cmd) (st d : Nat) (ws : List Word) : (c.acceptFinish op m st d ws).tones = c.tones := by
  obtain ⟨_, _, _, h⟩ := c.acceptFinish_eq op m st d ws; rw [h]
@[simp] theorem Chip.acceptFinish_loops (c : Chip) (op : Nat) (m : Cmd) (st d : Nat) (ws : List Word) : (c.acceptFinish op m st d ws).loops = c.loops := by
  obtain ⟨_, _, _, h⟩ := c.acceptFinish_eq op m st d ws; rw [h]
@[simp] theorem Chip.acceptFinish_tests (c : Chip) (op : Nat) (m : Cmd) (st d : Nat) (ws : List Word) : (c.acceptFinish op m st d ws).tests = c.tests := by
  obtain ⟨_, _, _, h⟩ := c.acceptFinish_eq op m st d ws; rw [h]
@[simp] theorem Chip.acceptFinish_ticked (c : Chip) (op : Nat) (m : Cmd) (st d : Nat) (ws : List Word) : (c.acceptFinish op m st d ws).ticked = c.ticked := by
  obtain ⟨_, _, _, h⟩ := c.acceptFinish_eq op m st d ws; rw [h]
@[simp] theorem Chip.acceptFinish_spareFor (c : Chip) (op : Nat) (m : Cmd) (st d : Nat) (ws : List Word) : (c.acceptFinish op m st d ws).spareFor = c.spareFor := by
  obtain ⟨_, _, _, h⟩ := c.acceptFinish_eq op m st d ws; rw [h]
@[simp] theorem Chip.acceptFinish_capLeft (c : Chip) (op : Nat) (m : Cmd) (st d : Nat) (ws : List Word) : (c.acceptFinish op m st d ws).capLeft = c.capLeft := by
  obtain ⟨_, _, _, h⟩ := c.acceptFinish_eq op m st d ws; rw [h]
@[simp] theorem Chip.acceptFinish_guySeed (c : Chip) (op : Nat) (m : Cmd) (st d : Nat) (ws : List Word) : (c.acceptFinish op m st d ws).guySeed = c.guySeed := by
  obtain ⟨_, _, _, h⟩ := c.acceptFinish_eq op m st d ws; rw [h]
@[simp] theorem Chip.acceptFinish_trkLive (c : Chip) (op : Nat) (m : Cmd) (st d : Nat) (ws : List Word) : (c.acceptFinish op m st d ws).trkLive = c.trkLive := by
  obtain ⟨_, _, _, h⟩ := c.acceptFinish_eq op m st d ws; rw [h]
@[simp] theorem Chip.acceptFinish_hkAvgNew (c : Chip) (op : Nat) (m : Cmd) (st d : Nat) (ws : List Word) : (c.acceptFinish op m st d ws).hkAvgNew = c.hkAvgNew := by
  obtain ⟨_, _, _, h⟩ := c.acceptFinish_eq op m st d ws; rw [h]
@[simp] theorem Chip.acceptFinish_toneStart (c : Chip) (op : Nat) (m : Cmd) (st d : Nat) (ws : List Word) : (c.acceptFinish op m st d ws).toneStart = c.toneStart := by
  obtain ⟨_, _, _, h⟩ := c.acceptFinish_eq op m st d ws; rw [h]
@[simp] theorem Chip.acceptFinish_toneLog (c : Chip) (op : Nat) (m : Cmd) (st d : Nat) (ws : List Word) : (c.acceptFinish op m st d ws).toneLog = c.toneLog := by
  obtain ⟨_, _, _, h⟩ := c.acceptFinish_eq op m st d ws; rw [h]
@[simp] theorem Chip.acceptFinish_trigOld (c : Chip) (op : Nat) (m : Cmd) (st d : Nat) (ws : List Word) : (c.acceptFinish op m st d ws).trigOld = c.trigOld := by
  obtain ⟨_, _, _, h⟩ := c.acceptFinish_eq op m st d ws; rw [h]
@[simp] theorem Chip.acceptFinish_pairLink (c : Chip) (op : Nat) (m : Cmd) (st d : Nat) (ws : List Word) : (c.acceptFinish op m st d ws).pairLink = c.pairLink := by
  obtain ⟨_, _, _, h⟩ := c.acceptFinish_eq op m st d ws; rw [h]
@[simp] theorem Chip.acceptFinish_slots (c : Chip) (op : Nat) (m : Cmd) (st d : Nat) (ws : List Word) : (c.acceptFinish op m st d ws).slots = c.slots := by
  obtain ⟨_, _, _, h⟩ := c.acceptFinish_eq op m st d ws; rw [h]
@[simp] theorem Chip.acceptFinish_radio (c : Chip) (op : Nat) (m : Cmd) (st d : Nat) (ws : List Word) : (c.acceptFinish op m st d ws).radio = c.radio := by
  obtain ⟨_, _, _, h⟩ := c.acceptFinish_eq op m st d ws; rw [h]
@[simp] theorem Chip.acceptFinish_recs (c : Chip) (op : Nat) (m : Cmd) (st d : Nat) (ws : List Word) : (c.acceptFinish op m st d ws).recs = c.recs := by
  obtain ⟨_, _, _, h⟩ := c.acceptFinish_eq op m st d ws; rw [h]
@[simp] theorem Chip.acceptFinish_loaded (c : Chip) (op : Nat) (m : Cmd) (st d : Nat) (ws : List Word) : (c.acceptFinish op m st d ws).loaded = c.loaded := by
  obtain ⟨_, _, _, h⟩ := c.acceptFinish_eq op m st d ws; rw [h]
@[simp] theorem Chip.acceptFinish_cores (c : Chip) (op : Nat) (m : Cmd) (st d : Nat) (ws : List Word) : (c.acceptFinish op m st d ws).cores = c.cores := by
  obtain ⟨_, _, _, h⟩ := c.acceptFinish_eq op m st d ws; rw [h]
@[simp] theorem Chip.acceptFinish_arrs (c : Chip) (op : Nat) (m : Cmd) (st d : Nat) (ws : List Word) : (c.acceptFinish op m st d ws).arrs = c.arrs := by
  obtain ⟨_, _, _, h⟩ := c.acceptFinish_eq op m st d ws; rw [h]
@[simp] theorem Chip.acceptFinish_velds (c : Chip) (op : Nat) (m : Cmd) (st d : Nat) (ws : List Word) : (c.acceptFinish op m st d ws).velds = c.velds := by
  obtain ⟨_, _, _, h⟩ := c.acceptFinish_eq op m st d ws; rw [h]
@[simp] theorem Chip.acceptFinish_tents (c : Chip) (op : Nat) (m : Cmd) (st d : Nat) (ws : List Word) : (c.acceptFinish op m st d ws).tents = c.tents := by
  obtain ⟨_, _, _, h⟩ := c.acceptFinish_eq op m st d ws; rw [h]
@[simp] theorem Chip.acceptFinish_tentWaits (c : Chip) (op : Nat) (m : Cmd) (st d : Nat) (ws : List Word) : (c.acceptFinish op m st d ws).tentWaits = c.tentWaits := by
  obtain ⟨_, _, _, h⟩ := c.acceptFinish_eq op m st d ws; rw [h]
@[simp] theorem Chip.acceptFinish_passes (c : Chip) (op : Nat) (m : Cmd) (st d : Nat) (ws : List Word) : (c.acceptFinish op m st d ws).passes = c.passes := by
  obtain ⟨_, _, _, h⟩ := c.acceptFinish_eq op m st d ws; rw [h]
@[simp] theorem Chip.acceptFinish_bankA (c : Chip) (op : Nat) (m : Cmd) (st d : Nat) (ws : List Word) : (c.acceptFinish op m st d ws).bankA = c.bankA := by
  obtain ⟨_, _, _, h⟩ := c.acceptFinish_eq op m st d ws; rw [h]
@[simp] theorem Chip.acceptFinish_bankB (c : Chip) (op : Nat) (m : Cmd) (st d : Nat) (ws : List Word) : (c.acceptFinish op m st d ws).bankB = c.bankB := by
  obtain ⟨_, _, _, h⟩ := c.acceptFinish_eq op m st d ws; rw [h]
@[simp] theorem Chip.acceptFinish_current (c : Chip) (op : Nat) (m : Cmd) (st d : Nat) (ws : List Word) : (c.acceptFinish op m st d ws).current = c.current := by
  obtain ⟨_, _, _, h⟩ := c.acceptFinish_eq op m st d ws; rw [h]
@[simp] theorem Chip.acceptFinish_fws (c : Chip) (op : Nat) (m : Cmd) (st d : Nat) (ws : List Word) : (c.acceptFinish op m st d ws).fws = c.fws := by
  obtain ⟨_, _, _, h⟩ := c.acceptFinish_eq op m st d ws; rw [h]
@[simp] theorem Chip.acceptFinish_rollback (c : Chip) (op : Nat) (m : Cmd) (st d : Nat) (ws : List Word) : (c.acceptFinish op m st d ws).rollback = c.rollback := by
  obtain ⟨_, _, _, h⟩ := c.acceptFinish_eq op m st d ws; rw [h]
@[simp] theorem Chip.acceptFinish_drains (c : Chip) (op : Nat) (m : Cmd) (st d : Nat) (ws : List Word) : (c.acceptFinish op m st d ws).drains = c.drains := by
  obtain ⟨_, _, _, h⟩ := c.acceptFinish_eq op m st d ws; rw [h]
@[simp] theorem Chip.acceptFinish_boot (c : Chip) (op : Nat) (m : Cmd) (st d : Nat) (ws : List Word) : (c.acceptFinish op m st d ws).boot = c.boot := by
  obtain ⟨_, _, _, h⟩ := c.acceptFinish_eq op m st d ws; rw [h]
@[simp] theorem Chip.acceptFinish_coderJobs (c : Chip) (op : Nat) (m : Cmd) (st d : Nat) (ws : List Word) : (c.acceptFinish op m st d ws).coderJobs = c.coderJobs := by
  obtain ⟨_, _, _, h⟩ := c.acceptFinish_eq op m st d ws; rw [h]
@[simp] theorem Chip.acceptFinish_coderNext (c : Chip) (op : Nat) (m : Cmd) (st d : Nat) (ws : List Word) : (c.acceptFinish op m st d ws).coderNext = c.coderNext := by
  obtain ⟨_, _, _, h⟩ := c.acceptFinish_eq op m st d ws; rw [h]
@[simp] theorem Chip.acceptFinish_submits (c : Chip) (op : Nat) (m : Cmd) (st d : Nat) (ws : List Word) : (c.acceptFinish op m st d ws).submits = c.submits := by
  obtain ⟨_, _, _, h⟩ := c.acceptFinish_eq op m st d ws; rw [h]
@[simp] theorem Chip.acceptFinish_harqs (c : Chip) (op : Nat) (m : Cmd) (st d : Nat) (ws : List Word) : (c.acceptFinish op m st d ws).harqs = c.harqs := by
  obtain ⟨_, _, _, h⟩ := c.acceptFinish_eq op m st d ws; rw [h]
@[simp] theorem Chip.acceptFinish_sweeps (c : Chip) (op : Nat) (m : Cmd) (st d : Nat) (ws : List Word) : (c.acceptFinish op m st d ws).sweeps = c.sweeps := by
  obtain ⟨_, _, _, h⟩ := c.acceptFinish_eq op m st d ws; rw [h]
@[simp] theorem Chip.acceptFinish_decCredit (c : Chip) (op : Nat) (m : Cmd) (st d : Nat) (ws : List Word) : (c.acceptFinish op m st d ws).decCredit = c.decCredit := by
  obtain ⟨_, _, _, h⟩ := c.acceptFinish_eq op m st d ws; rw [h]
@[simp] theorem Chip.acceptFinish_encCredit (c : Chip) (op : Nat) (m : Cmd) (st d : Nat) (ws : List Word) : (c.acceptFinish op m st d ws).encCredit = c.encCredit := by
  obtain ⟨_, _, _, h⟩ := c.acceptFinish_eq op m st d ws; rw [h]
@[simp] theorem Chip.acceptFinish_msgLast (c : Chip) (op : Nat) (m : Cmd) (st d : Nat) (ws : List Word) : (c.acceptFinish op m st d ws).msgLast = c.msgLast := by
  obtain ⟨_, _, _, h⟩ := c.acceptFinish_eq op m st d ws; rw [h]
@[simp] theorem Chip.acceptFinish_valeCals (c : Chip) (op : Nat) (m : Cmd) (st d : Nat) (ws : List Word) : (c.acceptFinish op m st d ws).valeCals = c.valeCals := by
  obtain ⟨_, _, _, h⟩ := c.acceptFinish_eq op m st d ws; rw [h]
@[simp] theorem Chip.acceptFinish_hkTrims (c : Chip) (op : Nat) (m : Cmd) (st d : Nat) (ws : List Word) : (c.acceptFinish op m st d ws).hkTrims = c.hkTrims := by
  obtain ⟨_, _, _, h⟩ := c.acceptFinish_eq op m st d ws; rw [h]
@[simp] theorem Chip.acceptFinish_hkStamp (c : Chip) (op : Nat) (m : Cmd) (st d : Nat) (ws : List Word) : (c.acceptFinish op m st d ws).hkStamp = c.hkStamp := by
  obtain ⟨_, _, _, h⟩ := c.acceptFinish_eq op m st d ws; rw [h]
@[simp] theorem Chip.acceptFinish_heat (c : Chip) (op : Nat) (m : Cmd) (st d : Nat) (ws : List Word) : (c.acceptFinish op m st d ws).heat = c.heat := by
  obtain ⟨_, _, _, h⟩ := c.acceptFinish_eq op m st d ws; rw [h]
@[simp] theorem Chip.acceptFinish_act (c : Chip) (op : Nat) (m : Cmd) (st d : Nat) (ws : List Word) : (c.acceptFinish op m st d ws).act = c.act := by
  obtain ⟨_, _, _, h⟩ := c.acceptFinish_eq op m st d ws; rw [h]
@[simp] theorem Chip.acceptFinish_actSeq (c : Chip) (op : Nat) (m : Cmd) (st d : Nat) (ws : List Word) : (c.acceptFinish op m st d ws).actSeq = c.actSeq := by
  obtain ⟨_, _, _, h⟩ := c.acceptFinish_eq op m st d ws; rw [h]
@[simp] theorem Chip.acceptFinish_cursors (c : Chip) (op : Nat) (m : Cmd) (st d : Nat) (ws : List Word) : (c.acceptFinish op m st d ws).cursors = c.cursors := by
  obtain ⟨_, _, _, h⟩ := c.acceptFinish_eq op m st d ws; rw [h]

/-! ### Chip.wReply -/

@[simp] theorem Chip.wReply_device (c : Chip) (w : Writer) (st n : Nat) : (c.wReply w st n).device = c.device := by
  obtain ⟨_, _, h⟩ := c.wReply_eq w st n; rw [h]
@[simp] theorem Chip.wReply_regs (c : Chip) (w : Writer) (st n : Nat) : (c.wReply w st n).regs = c.regs := by
  obtain ⟨_, _, h⟩ := c.wReply_eq w st n; rw [h]
@[simp] theorem Chip.wReply_marks (c : Chip) (w : Writer) (st n : Nat) : (c.wReply w st n).marks = c.marks := by
  obtain ⟨_, _, h⟩ := c.wReply_eq w st n; rw [h]
@[simp] theorem Chip.wReply_mem (c : Chip) (w : Writer) (st n : Nat) : (c.wReply w st n).mem = c.mem := by
  obtain ⟨_, _, h⟩ := c.wReply_eq w st n; rw [h]
@[simp] theorem Chip.wReply_free (c : Chip) (w : Writer) (st n : Nat) : (c.wReply w st n).free = c.free := by
  obtain ⟨_, _, h⟩ := c.wReply_eq w st n; rw [h]
@[simp] theorem Chip.wReply_boots (c : Chip) (w : Writer) (st n : Nat) : (c.wReply w st n).boots = c.boots := by
  obtain ⟨_, _, h⟩ := c.wReply_eq w st n; rw [h]
@[simp] theorem Chip.wReply_gens (c : Chip) (w : Writer) (st n : Nat) : (c.wReply w st n).gens = c.gens := by
  obtain ⟨_, _, h⟩ := c.wReply_eq w st n; rw [h]
@[simp] theorem Chip.wReply_gclk (c : Chip) (w : Writer) (st n : Nat) : (c.wReply w st n).gclk = c.gclk := by
  obtain ⟨_, _, h⟩ := c.wReply_eq w st n; rw [h]
@[simp] theorem Chip.wReply_bud (c : Chip) (w : Writer) (st n : Nat) : (c.wReply w st n).bud = c.bud := by
  obtain ⟨_, _, h⟩ := c.wReply_eq w st n; rw [h]
@[simp] theorem Chip.wReply_msgs (c : Chip) (w : Writer) (st n : Nat) : (c.wReply w st n).msgs = c.msgs := by
  obtain ⟨_, _, h⟩ := c.wReply_eq w st n; rw [h]
@[simp] theorem Chip.wReply_mpq (c : Chip) (w : Writer) (st n : Nat) : (c.wReply w st n).mpq = c.mpq := by
  obtain ⟨_, _, h⟩ := c.wReply_eq w st n; rw [h]
@[simp] theorem Chip.wReply_longs (c : Chip) (w : Writer) (st n : Nat) : (c.wReply w st n).longs = c.longs := by
  obtain ⟨_, _, h⟩ := c.wReply_eq w st n; rw [h]
@[simp] theorem Chip.wReply_reads (c : Chip) (w : Writer) (st n : Nat) : (c.wReply w st n).reads = c.reads := by
  obtain ⟨_, _, h⟩ := c.wReply_eq w st n; rw [h]
@[simp] theorem Chip.wReply_dales (c : Chip) (w : Writer) (st n : Nat) : (c.wReply w st n).dales = c.dales := by
  obtain ⟨_, _, h⟩ := c.wReply_eq w st n; rw [h]
@[simp] theorem Chip.wReply_banks (c : Chip) (w : Writer) (st n : Nat) : (c.wReply w st n).banks = c.banks := by
  obtain ⟨_, _, h⟩ := c.wReply_eq w st n; rw [h]
@[simp] theorem Chip.wReply_adcs (c : Chip) (w : Writer) (st n : Nat) : (c.wReply w st n).adcs = c.adcs := by
  obtain ⟨_, _, h⟩ := c.wReply_eq w st n; rw [h]
@[simp] theorem Chip.wReply_adcGain (c : Chip) (w : Writer) (st n : Nat) : (c.wReply w st n).adcGain = c.adcGain := by
  obtain ⟨_, _, h⟩ := c.wReply_eq w st n; rw [h]
@[simp] theorem Chip.wReply_throttle (c : Chip) (w : Writer) (st n : Nat) : (c.wReply w st n).throttle = c.throttle := by
  obtain ⟨_, _, h⟩ := c.wReply_eq w st n; rw [h]
@[simp] theorem Chip.wReply_chans (c : Chip) (w : Writer) (st n : Nat) : (c.wReply w st n).chans = c.chans := by
  obtain ⟨_, _, h⟩ := c.wReply_eq w st n; rw [h]
@[simp] theorem Chip.wReply_units (c : Chip) (w : Writer) (st n : Nat) : (c.wReply w st n).units = c.units := by
  obtain ⟨_, _, h⟩ := c.wReply_eq w st n; rw [h]
@[simp] theorem Chip.wReply_tones (c : Chip) (w : Writer) (st n : Nat) : (c.wReply w st n).tones = c.tones := by
  obtain ⟨_, _, h⟩ := c.wReply_eq w st n; rw [h]
@[simp] theorem Chip.wReply_loops (c : Chip) (w : Writer) (st n : Nat) : (c.wReply w st n).loops = c.loops := by
  obtain ⟨_, _, h⟩ := c.wReply_eq w st n; rw [h]
@[simp] theorem Chip.wReply_tests (c : Chip) (w : Writer) (st n : Nat) : (c.wReply w st n).tests = c.tests := by
  obtain ⟨_, _, h⟩ := c.wReply_eq w st n; rw [h]
@[simp] theorem Chip.wReply_ticked (c : Chip) (w : Writer) (st n : Nat) : (c.wReply w st n).ticked = c.ticked := by
  obtain ⟨_, _, h⟩ := c.wReply_eq w st n; rw [h]
@[simp] theorem Chip.wReply_spareFor (c : Chip) (w : Writer) (st n : Nat) : (c.wReply w st n).spareFor = c.spareFor := by
  obtain ⟨_, _, h⟩ := c.wReply_eq w st n; rw [h]
@[simp] theorem Chip.wReply_capLeft (c : Chip) (w : Writer) (st n : Nat) : (c.wReply w st n).capLeft = c.capLeft := by
  obtain ⟨_, _, h⟩ := c.wReply_eq w st n; rw [h]
@[simp] theorem Chip.wReply_guySeed (c : Chip) (w : Writer) (st n : Nat) : (c.wReply w st n).guySeed = c.guySeed := by
  obtain ⟨_, _, h⟩ := c.wReply_eq w st n; rw [h]
@[simp] theorem Chip.wReply_trkLive (c : Chip) (w : Writer) (st n : Nat) : (c.wReply w st n).trkLive = c.trkLive := by
  obtain ⟨_, _, h⟩ := c.wReply_eq w st n; rw [h]
@[simp] theorem Chip.wReply_hkAvgNew (c : Chip) (w : Writer) (st n : Nat) : (c.wReply w st n).hkAvgNew = c.hkAvgNew := by
  obtain ⟨_, _, h⟩ := c.wReply_eq w st n; rw [h]
@[simp] theorem Chip.wReply_toneStart (c : Chip) (w : Writer) (st n : Nat) : (c.wReply w st n).toneStart = c.toneStart := by
  obtain ⟨_, _, h⟩ := c.wReply_eq w st n; rw [h]
@[simp] theorem Chip.wReply_toneLog (c : Chip) (w : Writer) (st n : Nat) : (c.wReply w st n).toneLog = c.toneLog := by
  obtain ⟨_, _, h⟩ := c.wReply_eq w st n; rw [h]
@[simp] theorem Chip.wReply_trigOld (c : Chip) (w : Writer) (st n : Nat) : (c.wReply w st n).trigOld = c.trigOld := by
  obtain ⟨_, _, h⟩ := c.wReply_eq w st n; rw [h]
@[simp] theorem Chip.wReply_pairLink (c : Chip) (w : Writer) (st n : Nat) : (c.wReply w st n).pairLink = c.pairLink := by
  obtain ⟨_, _, h⟩ := c.wReply_eq w st n; rw [h]
@[simp] theorem Chip.wReply_slots (c : Chip) (w : Writer) (st n : Nat) : (c.wReply w st n).slots = c.slots := by
  obtain ⟨_, _, h⟩ := c.wReply_eq w st n; rw [h]
@[simp] theorem Chip.wReply_radio (c : Chip) (w : Writer) (st n : Nat) : (c.wReply w st n).radio = c.radio := by
  obtain ⟨_, _, h⟩ := c.wReply_eq w st n; rw [h]
@[simp] theorem Chip.wReply_recs (c : Chip) (w : Writer) (st n : Nat) : (c.wReply w st n).recs = c.recs := by
  obtain ⟨_, _, h⟩ := c.wReply_eq w st n; rw [h]
@[simp] theorem Chip.wReply_loaded (c : Chip) (w : Writer) (st n : Nat) : (c.wReply w st n).loaded = c.loaded := by
  obtain ⟨_, _, h⟩ := c.wReply_eq w st n; rw [h]
@[simp] theorem Chip.wReply_cores (c : Chip) (w : Writer) (st n : Nat) : (c.wReply w st n).cores = c.cores := by
  obtain ⟨_, _, h⟩ := c.wReply_eq w st n; rw [h]
@[simp] theorem Chip.wReply_arrs (c : Chip) (w : Writer) (st n : Nat) : (c.wReply w st n).arrs = c.arrs := by
  obtain ⟨_, _, h⟩ := c.wReply_eq w st n; rw [h]
@[simp] theorem Chip.wReply_velds (c : Chip) (w : Writer) (st n : Nat) : (c.wReply w st n).velds = c.velds := by
  obtain ⟨_, _, h⟩ := c.wReply_eq w st n; rw [h]
@[simp] theorem Chip.wReply_tents (c : Chip) (w : Writer) (st n : Nat) : (c.wReply w st n).tents = c.tents := by
  obtain ⟨_, _, h⟩ := c.wReply_eq w st n; rw [h]
@[simp] theorem Chip.wReply_tentWaits (c : Chip) (w : Writer) (st n : Nat) : (c.wReply w st n).tentWaits = c.tentWaits := by
  obtain ⟨_, _, h⟩ := c.wReply_eq w st n; rw [h]
@[simp] theorem Chip.wReply_passes (c : Chip) (w : Writer) (st n : Nat) : (c.wReply w st n).passes = c.passes := by
  obtain ⟨_, _, h⟩ := c.wReply_eq w st n; rw [h]
@[simp] theorem Chip.wReply_bankA (c : Chip) (w : Writer) (st n : Nat) : (c.wReply w st n).bankA = c.bankA := by
  obtain ⟨_, _, h⟩ := c.wReply_eq w st n; rw [h]
@[simp] theorem Chip.wReply_bankB (c : Chip) (w : Writer) (st n : Nat) : (c.wReply w st n).bankB = c.bankB := by
  obtain ⟨_, _, h⟩ := c.wReply_eq w st n; rw [h]
@[simp] theorem Chip.wReply_current (c : Chip) (w : Writer) (st n : Nat) : (c.wReply w st n).current = c.current := by
  obtain ⟨_, _, h⟩ := c.wReply_eq w st n; rw [h]
@[simp] theorem Chip.wReply_fws (c : Chip) (w : Writer) (st n : Nat) : (c.wReply w st n).fws = c.fws := by
  obtain ⟨_, _, h⟩ := c.wReply_eq w st n; rw [h]
@[simp] theorem Chip.wReply_rollback (c : Chip) (w : Writer) (st n : Nat) : (c.wReply w st n).rollback = c.rollback := by
  obtain ⟨_, _, h⟩ := c.wReply_eq w st n; rw [h]
@[simp] theorem Chip.wReply_drains (c : Chip) (w : Writer) (st n : Nat) : (c.wReply w st n).drains = c.drains := by
  obtain ⟨_, _, h⟩ := c.wReply_eq w st n; rw [h]
@[simp] theorem Chip.wReply_boot (c : Chip) (w : Writer) (st n : Nat) : (c.wReply w st n).boot = c.boot := by
  obtain ⟨_, _, h⟩ := c.wReply_eq w st n; rw [h]
@[simp] theorem Chip.wReply_coderJobs (c : Chip) (w : Writer) (st n : Nat) : (c.wReply w st n).coderJobs = c.coderJobs := by
  obtain ⟨_, _, h⟩ := c.wReply_eq w st n; rw [h]
@[simp] theorem Chip.wReply_coderNext (c : Chip) (w : Writer) (st n : Nat) : (c.wReply w st n).coderNext = c.coderNext := by
  obtain ⟨_, _, h⟩ := c.wReply_eq w st n; rw [h]
@[simp] theorem Chip.wReply_submits (c : Chip) (w : Writer) (st n : Nat) : (c.wReply w st n).submits = c.submits := by
  obtain ⟨_, _, h⟩ := c.wReply_eq w st n; rw [h]
@[simp] theorem Chip.wReply_harqs (c : Chip) (w : Writer) (st n : Nat) : (c.wReply w st n).harqs = c.harqs := by
  obtain ⟨_, _, h⟩ := c.wReply_eq w st n; rw [h]
@[simp] theorem Chip.wReply_sweeps (c : Chip) (w : Writer) (st n : Nat) : (c.wReply w st n).sweeps = c.sweeps := by
  obtain ⟨_, _, h⟩ := c.wReply_eq w st n; rw [h]
@[simp] theorem Chip.wReply_decCredit (c : Chip) (w : Writer) (st n : Nat) : (c.wReply w st n).decCredit = c.decCredit := by
  obtain ⟨_, _, h⟩ := c.wReply_eq w st n; rw [h]
@[simp] theorem Chip.wReply_encCredit (c : Chip) (w : Writer) (st n : Nat) : (c.wReply w st n).encCredit = c.encCredit := by
  obtain ⟨_, _, h⟩ := c.wReply_eq w st n; rw [h]
@[simp] theorem Chip.wReply_msgLast (c : Chip) (w : Writer) (st n : Nat) : (c.wReply w st n).msgLast = c.msgLast := by
  obtain ⟨_, _, h⟩ := c.wReply_eq w st n; rw [h]
@[simp] theorem Chip.wReply_valeCals (c : Chip) (w : Writer) (st n : Nat) : (c.wReply w st n).valeCals = c.valeCals := by
  obtain ⟨_, _, h⟩ := c.wReply_eq w st n; rw [h]
@[simp] theorem Chip.wReply_hkTrims (c : Chip) (w : Writer) (st n : Nat) : (c.wReply w st n).hkTrims = c.hkTrims := by
  obtain ⟨_, _, h⟩ := c.wReply_eq w st n; rw [h]
@[simp] theorem Chip.wReply_hkStamp (c : Chip) (w : Writer) (st n : Nat) : (c.wReply w st n).hkStamp = c.hkStamp := by
  obtain ⟨_, _, h⟩ := c.wReply_eq w st n; rw [h]
@[simp] theorem Chip.wReply_heat (c : Chip) (w : Writer) (st n : Nat) : (c.wReply w st n).heat = c.heat := by
  obtain ⟨_, _, h⟩ := c.wReply_eq w st n; rw [h]
@[simp] theorem Chip.wReply_act (c : Chip) (w : Writer) (st n : Nat) : (c.wReply w st n).act = c.act := by
  obtain ⟨_, _, h⟩ := c.wReply_eq w st n; rw [h]
@[simp] theorem Chip.wReply_actSeq (c : Chip) (w : Writer) (st n : Nat) : (c.wReply w st n).actSeq = c.actSeq := by
  obtain ⟨_, _, h⟩ := c.wReply_eq w st n; rw [h]
@[simp] theorem Chip.wReply_cursors (c : Chip) (w : Writer) (st n : Nat) : (c.wReply w st n).cursors = c.cursors := by
  obtain ⟨_, _, h⟩ := c.wReply_eq w st n; rw [h]

/-! ### Chip.message -/

@[simp] theorem Chip.message_device (c : Chip) (t k : Nat) (b : List Byte) : (c.message t k b).device = c.device := by
  obtain ⟨_, _, h⟩ := c.message_eq t k b; rw [h]
@[simp] theorem Chip.message_marks (c : Chip) (t k : Nat) (b : List Byte) : (c.message t k b).marks = c.marks := by
  obtain ⟨_, _, h⟩ := c.message_eq t k b; rw [h]
@[simp] theorem Chip.message_mem (c : Chip) (t k : Nat) (b : List Byte) : (c.message t k b).mem = c.mem := by
  obtain ⟨_, _, h⟩ := c.message_eq t k b; rw [h]
@[simp] theorem Chip.message_outs (c : Chip) (t k : Nat) (b : List Byte) : (c.message t k b).outs = c.outs := by
  obtain ⟨_, _, h⟩ := c.message_eq t k b; rw [h]
@[simp] theorem Chip.message_free (c : Chip) (t k : Nat) (b : List Byte) : (c.message t k b).free = c.free := by
  obtain ⟨_, _, h⟩ := c.message_eq t k b; rw [h]
@[simp] theorem Chip.message_boots (c : Chip) (t k : Nat) (b : List Byte) : (c.message t k b).boots = c.boots := by
  obtain ⟨_, _, h⟩ := c.message_eq t k b; rw [h]
@[simp] theorem Chip.message_gens (c : Chip) (t k : Nat) (b : List Byte) : (c.message t k b).gens = c.gens := by
  obtain ⟨_, _, h⟩ := c.message_eq t k b; rw [h]
@[simp] theorem Chip.message_gclk (c : Chip) (t k : Nat) (b : List Byte) : (c.message t k b).gclk = c.gclk := by
  obtain ⟨_, _, h⟩ := c.message_eq t k b; rw [h]
@[simp] theorem Chip.message_bud (c : Chip) (t k : Nat) (b : List Byte) : (c.message t k b).bud = c.bud := by
  obtain ⟨_, _, h⟩ := c.message_eq t k b; rw [h]
@[simp] theorem Chip.message_mpq (c : Chip) (t k : Nat) (b : List Byte) : (c.message t k b).mpq = c.mpq := by
  obtain ⟨_, _, h⟩ := c.message_eq t k b; rw [h]
@[simp] theorem Chip.message_longs (c : Chip) (t k : Nat) (b : List Byte) : (c.message t k b).longs = c.longs := by
  obtain ⟨_, _, h⟩ := c.message_eq t k b; rw [h]
@[simp] theorem Chip.message_link (c : Chip) (t k : Nat) (b : List Byte) : (c.message t k b).link = c.link := by
  obtain ⟨_, _, h⟩ := c.message_eq t k b; rw [h]
@[simp] theorem Chip.message_reads (c : Chip) (t k : Nat) (b : List Byte) : (c.message t k b).reads = c.reads := by
  obtain ⟨_, _, h⟩ := c.message_eq t k b; rw [h]
@[simp] theorem Chip.message_dales (c : Chip) (t k : Nat) (b : List Byte) : (c.message t k b).dales = c.dales := by
  obtain ⟨_, _, h⟩ := c.message_eq t k b; rw [h]
@[simp] theorem Chip.message_banks (c : Chip) (t k : Nat) (b : List Byte) : (c.message t k b).banks = c.banks := by
  obtain ⟨_, _, h⟩ := c.message_eq t k b; rw [h]
@[simp] theorem Chip.message_adcs (c : Chip) (t k : Nat) (b : List Byte) : (c.message t k b).adcs = c.adcs := by
  obtain ⟨_, _, h⟩ := c.message_eq t k b; rw [h]
@[simp] theorem Chip.message_adcGain (c : Chip) (t k : Nat) (b : List Byte) : (c.message t k b).adcGain = c.adcGain := by
  obtain ⟨_, _, h⟩ := c.message_eq t k b; rw [h]
@[simp] theorem Chip.message_throttle (c : Chip) (t k : Nat) (b : List Byte) : (c.message t k b).throttle = c.throttle := by
  obtain ⟨_, _, h⟩ := c.message_eq t k b; rw [h]
@[simp] theorem Chip.message_chans (c : Chip) (t k : Nat) (b : List Byte) : (c.message t k b).chans = c.chans := by
  obtain ⟨_, _, h⟩ := c.message_eq t k b; rw [h]
@[simp] theorem Chip.message_units (c : Chip) (t k : Nat) (b : List Byte) : (c.message t k b).units = c.units := by
  obtain ⟨_, _, h⟩ := c.message_eq t k b; rw [h]
@[simp] theorem Chip.message_tones (c : Chip) (t k : Nat) (b : List Byte) : (c.message t k b).tones = c.tones := by
  obtain ⟨_, _, h⟩ := c.message_eq t k b; rw [h]
@[simp] theorem Chip.message_loops (c : Chip) (t k : Nat) (b : List Byte) : (c.message t k b).loops = c.loops := by
  obtain ⟨_, _, h⟩ := c.message_eq t k b; rw [h]
@[simp] theorem Chip.message_tests (c : Chip) (t k : Nat) (b : List Byte) : (c.message t k b).tests = c.tests := by
  obtain ⟨_, _, h⟩ := c.message_eq t k b; rw [h]
@[simp] theorem Chip.message_ticked (c : Chip) (t k : Nat) (b : List Byte) : (c.message t k b).ticked = c.ticked := by
  obtain ⟨_, _, h⟩ := c.message_eq t k b; rw [h]
@[simp] theorem Chip.message_spareFor (c : Chip) (t k : Nat) (b : List Byte) : (c.message t k b).spareFor = c.spareFor := by
  obtain ⟨_, _, h⟩ := c.message_eq t k b; rw [h]
@[simp] theorem Chip.message_capLeft (c : Chip) (t k : Nat) (b : List Byte) : (c.message t k b).capLeft = c.capLeft := by
  obtain ⟨_, _, h⟩ := c.message_eq t k b; rw [h]
@[simp] theorem Chip.message_guySeed (c : Chip) (t k : Nat) (b : List Byte) : (c.message t k b).guySeed = c.guySeed := by
  obtain ⟨_, _, h⟩ := c.message_eq t k b; rw [h]
@[simp] theorem Chip.message_trkLive (c : Chip) (t k : Nat) (b : List Byte) : (c.message t k b).trkLive = c.trkLive := by
  obtain ⟨_, _, h⟩ := c.message_eq t k b; rw [h]
@[simp] theorem Chip.message_hkAvgNew (c : Chip) (t k : Nat) (b : List Byte) : (c.message t k b).hkAvgNew = c.hkAvgNew := by
  obtain ⟨_, _, h⟩ := c.message_eq t k b; rw [h]
@[simp] theorem Chip.message_toneStart (c : Chip) (t k : Nat) (b : List Byte) : (c.message t k b).toneStart = c.toneStart := by
  obtain ⟨_, _, h⟩ := c.message_eq t k b; rw [h]
@[simp] theorem Chip.message_toneLog (c : Chip) (t k : Nat) (b : List Byte) : (c.message t k b).toneLog = c.toneLog := by
  obtain ⟨_, _, h⟩ := c.message_eq t k b; rw [h]
@[simp] theorem Chip.message_trigOld (c : Chip) (t k : Nat) (b : List Byte) : (c.message t k b).trigOld = c.trigOld := by
  obtain ⟨_, _, h⟩ := c.message_eq t k b; rw [h]
@[simp] theorem Chip.message_pairLink (c : Chip) (t k : Nat) (b : List Byte) : (c.message t k b).pairLink = c.pairLink := by
  obtain ⟨_, _, h⟩ := c.message_eq t k b; rw [h]
@[simp] theorem Chip.message_slots (c : Chip) (t k : Nat) (b : List Byte) : (c.message t k b).slots = c.slots := by
  obtain ⟨_, _, h⟩ := c.message_eq t k b; rw [h]
@[simp] theorem Chip.message_radio (c : Chip) (t k : Nat) (b : List Byte) : (c.message t k b).radio = c.radio := by
  obtain ⟨_, _, h⟩ := c.message_eq t k b; rw [h]
@[simp] theorem Chip.message_recs (c : Chip) (t k : Nat) (b : List Byte) : (c.message t k b).recs = c.recs := by
  obtain ⟨_, _, h⟩ := c.message_eq t k b; rw [h]
@[simp] theorem Chip.message_loaded (c : Chip) (t k : Nat) (b : List Byte) : (c.message t k b).loaded = c.loaded := by
  obtain ⟨_, _, h⟩ := c.message_eq t k b; rw [h]
@[simp] theorem Chip.message_cores (c : Chip) (t k : Nat) (b : List Byte) : (c.message t k b).cores = c.cores := by
  obtain ⟨_, _, h⟩ := c.message_eq t k b; rw [h]
@[simp] theorem Chip.message_arrs (c : Chip) (t k : Nat) (b : List Byte) : (c.message t k b).arrs = c.arrs := by
  obtain ⟨_, _, h⟩ := c.message_eq t k b; rw [h]
@[simp] theorem Chip.message_velds (c : Chip) (t k : Nat) (b : List Byte) : (c.message t k b).velds = c.velds := by
  obtain ⟨_, _, h⟩ := c.message_eq t k b; rw [h]
@[simp] theorem Chip.message_tents (c : Chip) (t k : Nat) (b : List Byte) : (c.message t k b).tents = c.tents := by
  obtain ⟨_, _, h⟩ := c.message_eq t k b; rw [h]
@[simp] theorem Chip.message_tentWaits (c : Chip) (t k : Nat) (b : List Byte) : (c.message t k b).tentWaits = c.tentWaits := by
  obtain ⟨_, _, h⟩ := c.message_eq t k b; rw [h]
@[simp] theorem Chip.message_passes (c : Chip) (t k : Nat) (b : List Byte) : (c.message t k b).passes = c.passes := by
  obtain ⟨_, _, h⟩ := c.message_eq t k b; rw [h]
@[simp] theorem Chip.message_bankA (c : Chip) (t k : Nat) (b : List Byte) : (c.message t k b).bankA = c.bankA := by
  obtain ⟨_, _, h⟩ := c.message_eq t k b; rw [h]
@[simp] theorem Chip.message_bankB (c : Chip) (t k : Nat) (b : List Byte) : (c.message t k b).bankB = c.bankB := by
  obtain ⟨_, _, h⟩ := c.message_eq t k b; rw [h]
@[simp] theorem Chip.message_current (c : Chip) (t k : Nat) (b : List Byte) : (c.message t k b).current = c.current := by
  obtain ⟨_, _, h⟩ := c.message_eq t k b; rw [h]
@[simp] theorem Chip.message_fws (c : Chip) (t k : Nat) (b : List Byte) : (c.message t k b).fws = c.fws := by
  obtain ⟨_, _, h⟩ := c.message_eq t k b; rw [h]
@[simp] theorem Chip.message_rollback (c : Chip) (t k : Nat) (b : List Byte) : (c.message t k b).rollback = c.rollback := by
  obtain ⟨_, _, h⟩ := c.message_eq t k b; rw [h]
@[simp] theorem Chip.message_drains (c : Chip) (t k : Nat) (b : List Byte) : (c.message t k b).drains = c.drains := by
  obtain ⟨_, _, h⟩ := c.message_eq t k b; rw [h]
@[simp] theorem Chip.message_boot (c : Chip) (t k : Nat) (b : List Byte) : (c.message t k b).boot = c.boot := by
  obtain ⟨_, _, h⟩ := c.message_eq t k b; rw [h]
@[simp] theorem Chip.message_coderJobs (c : Chip) (t k : Nat) (b : List Byte) : (c.message t k b).coderJobs = c.coderJobs := by
  obtain ⟨_, _, h⟩ := c.message_eq t k b; rw [h]
@[simp] theorem Chip.message_coderNext (c : Chip) (t k : Nat) (b : List Byte) : (c.message t k b).coderNext = c.coderNext := by
  obtain ⟨_, _, h⟩ := c.message_eq t k b; rw [h]
@[simp] theorem Chip.message_submits (c : Chip) (t k : Nat) (b : List Byte) : (c.message t k b).submits = c.submits := by
  obtain ⟨_, _, h⟩ := c.message_eq t k b; rw [h]
@[simp] theorem Chip.message_harqs (c : Chip) (t k : Nat) (b : List Byte) : (c.message t k b).harqs = c.harqs := by
  obtain ⟨_, _, h⟩ := c.message_eq t k b; rw [h]
@[simp] theorem Chip.message_sweeps (c : Chip) (t k : Nat) (b : List Byte) : (c.message t k b).sweeps = c.sweeps := by
  obtain ⟨_, _, h⟩ := c.message_eq t k b; rw [h]
@[simp] theorem Chip.message_decCredit (c : Chip) (t k : Nat) (b : List Byte) : (c.message t k b).decCredit = c.decCredit := by
  obtain ⟨_, _, h⟩ := c.message_eq t k b; rw [h]
@[simp] theorem Chip.message_encCredit (c : Chip) (t k : Nat) (b : List Byte) : (c.message t k b).encCredit = c.encCredit := by
  obtain ⟨_, _, h⟩ := c.message_eq t k b; rw [h]
@[simp] theorem Chip.message_msgLast (c : Chip) (t k : Nat) (b : List Byte) : (c.message t k b).msgLast = c.msgLast := by
  obtain ⟨_, _, h⟩ := c.message_eq t k b; rw [h]
@[simp] theorem Chip.message_valeCals (c : Chip) (t k : Nat) (b : List Byte) : (c.message t k b).valeCals = c.valeCals := by
  obtain ⟨_, _, h⟩ := c.message_eq t k b; rw [h]
@[simp] theorem Chip.message_hkTrims (c : Chip) (t k : Nat) (b : List Byte) : (c.message t k b).hkTrims = c.hkTrims := by
  obtain ⟨_, _, h⟩ := c.message_eq t k b; rw [h]
@[simp] theorem Chip.message_hkStamp (c : Chip) (t k : Nat) (b : List Byte) : (c.message t k b).hkStamp = c.hkStamp := by
  obtain ⟨_, _, h⟩ := c.message_eq t k b; rw [h]
@[simp] theorem Chip.message_heat (c : Chip) (t k : Nat) (b : List Byte) : (c.message t k b).heat = c.heat := by
  obtain ⟨_, _, h⟩ := c.message_eq t k b; rw [h]
@[simp] theorem Chip.message_act (c : Chip) (t k : Nat) (b : List Byte) : (c.message t k b).act = c.act := by
  obtain ⟨_, _, h⟩ := c.message_eq t k b; rw [h]
@[simp] theorem Chip.message_actSeq (c : Chip) (t k : Nat) (b : List Byte) : (c.message t k b).actSeq = c.actSeq := by
  obtain ⟨_, _, h⟩ := c.message_eq t k b; rw [h]
@[simp] theorem Chip.message_cursors (c : Chip) (t k : Nat) (b : List Byte) : (c.message t k b).cursors = c.cursors := by
  obtain ⟨_, _, h⟩ := c.message_eq t k b; rw [h]

/-! ### Chip.putWords -/

@[simp] theorem Chip.putWords_device (c : Chip) (n : RegName) (idx : List Nat) (xs : List Word) : (c.putWords n idx xs).device = c.device := by
  obtain ⟨_, h⟩ := c.putWords_eq n idx xs; rw [h]
@[simp] theorem Chip.putWords_marks (c : Chip) (n : RegName) (idx : List Nat) (xs : List Word) : (c.putWords n idx xs).marks = c.marks := by
  obtain ⟨_, h⟩ := c.putWords_eq n idx xs; rw [h]
@[simp] theorem Chip.putWords_mem (c : Chip) (n : RegName) (idx : List Nat) (xs : List Word) : (c.putWords n idx xs).mem = c.mem := by
  obtain ⟨_, h⟩ := c.putWords_eq n idx xs; rw [h]
@[simp] theorem Chip.putWords_outs (c : Chip) (n : RegName) (idx : List Nat) (xs : List Word) : (c.putWords n idx xs).outs = c.outs := by
  obtain ⟨_, h⟩ := c.putWords_eq n idx xs; rw [h]
@[simp] theorem Chip.putWords_free (c : Chip) (n : RegName) (idx : List Nat) (xs : List Word) : (c.putWords n idx xs).free = c.free := by
  obtain ⟨_, h⟩ := c.putWords_eq n idx xs; rw [h]
@[simp] theorem Chip.putWords_boots (c : Chip) (n : RegName) (idx : List Nat) (xs : List Word) : (c.putWords n idx xs).boots = c.boots := by
  obtain ⟨_, h⟩ := c.putWords_eq n idx xs; rw [h]
@[simp] theorem Chip.putWords_gens (c : Chip) (n : RegName) (idx : List Nat) (xs : List Word) : (c.putWords n idx xs).gens = c.gens := by
  obtain ⟨_, h⟩ := c.putWords_eq n idx xs; rw [h]
@[simp] theorem Chip.putWords_gclk (c : Chip) (n : RegName) (idx : List Nat) (xs : List Word) : (c.putWords n idx xs).gclk = c.gclk := by
  obtain ⟨_, h⟩ := c.putWords_eq n idx xs; rw [h]
@[simp] theorem Chip.putWords_bud (c : Chip) (n : RegName) (idx : List Nat) (xs : List Word) : (c.putWords n idx xs).bud = c.bud := by
  obtain ⟨_, h⟩ := c.putWords_eq n idx xs; rw [h]
@[simp] theorem Chip.putWords_msgs (c : Chip) (n : RegName) (idx : List Nat) (xs : List Word) : (c.putWords n idx xs).msgs = c.msgs := by
  obtain ⟨_, h⟩ := c.putWords_eq n idx xs; rw [h]
@[simp] theorem Chip.putWords_mpq (c : Chip) (n : RegName) (idx : List Nat) (xs : List Word) : (c.putWords n idx xs).mpq = c.mpq := by
  obtain ⟨_, h⟩ := c.putWords_eq n idx xs; rw [h]
@[simp] theorem Chip.putWords_longs (c : Chip) (n : RegName) (idx : List Nat) (xs : List Word) : (c.putWords n idx xs).longs = c.longs := by
  obtain ⟨_, h⟩ := c.putWords_eq n idx xs; rw [h]
@[simp] theorem Chip.putWords_link (c : Chip) (n : RegName) (idx : List Nat) (xs : List Word) : (c.putWords n idx xs).link = c.link := by
  obtain ⟨_, h⟩ := c.putWords_eq n idx xs; rw [h]
@[simp] theorem Chip.putWords_reads (c : Chip) (n : RegName) (idx : List Nat) (xs : List Word) : (c.putWords n idx xs).reads = c.reads := by
  obtain ⟨_, h⟩ := c.putWords_eq n idx xs; rw [h]
@[simp] theorem Chip.putWords_dales (c : Chip) (n : RegName) (idx : List Nat) (xs : List Word) : (c.putWords n idx xs).dales = c.dales := by
  obtain ⟨_, h⟩ := c.putWords_eq n idx xs; rw [h]
@[simp] theorem Chip.putWords_banks (c : Chip) (n : RegName) (idx : List Nat) (xs : List Word) : (c.putWords n idx xs).banks = c.banks := by
  obtain ⟨_, h⟩ := c.putWords_eq n idx xs; rw [h]
@[simp] theorem Chip.putWords_adcs (c : Chip) (n : RegName) (idx : List Nat) (xs : List Word) : (c.putWords n idx xs).adcs = c.adcs := by
  obtain ⟨_, h⟩ := c.putWords_eq n idx xs; rw [h]
@[simp] theorem Chip.putWords_adcGain (c : Chip) (n : RegName) (idx : List Nat) (xs : List Word) : (c.putWords n idx xs).adcGain = c.adcGain := by
  obtain ⟨_, h⟩ := c.putWords_eq n idx xs; rw [h]
@[simp] theorem Chip.putWords_throttle (c : Chip) (n : RegName) (idx : List Nat) (xs : List Word) : (c.putWords n idx xs).throttle = c.throttle := by
  obtain ⟨_, h⟩ := c.putWords_eq n idx xs; rw [h]
@[simp] theorem Chip.putWords_chans (c : Chip) (n : RegName) (idx : List Nat) (xs : List Word) : (c.putWords n idx xs).chans = c.chans := by
  obtain ⟨_, h⟩ := c.putWords_eq n idx xs; rw [h]
@[simp] theorem Chip.putWords_units (c : Chip) (n : RegName) (idx : List Nat) (xs : List Word) : (c.putWords n idx xs).units = c.units := by
  obtain ⟨_, h⟩ := c.putWords_eq n idx xs; rw [h]
@[simp] theorem Chip.putWords_tones (c : Chip) (n : RegName) (idx : List Nat) (xs : List Word) : (c.putWords n idx xs).tones = c.tones := by
  obtain ⟨_, h⟩ := c.putWords_eq n idx xs; rw [h]
@[simp] theorem Chip.putWords_loops (c : Chip) (n : RegName) (idx : List Nat) (xs : List Word) : (c.putWords n idx xs).loops = c.loops := by
  obtain ⟨_, h⟩ := c.putWords_eq n idx xs; rw [h]
@[simp] theorem Chip.putWords_tests (c : Chip) (n : RegName) (idx : List Nat) (xs : List Word) : (c.putWords n idx xs).tests = c.tests := by
  obtain ⟨_, h⟩ := c.putWords_eq n idx xs; rw [h]
@[simp] theorem Chip.putWords_ticked (c : Chip) (n : RegName) (idx : List Nat) (xs : List Word) : (c.putWords n idx xs).ticked = c.ticked := by
  obtain ⟨_, h⟩ := c.putWords_eq n idx xs; rw [h]
@[simp] theorem Chip.putWords_spareFor (c : Chip) (n : RegName) (idx : List Nat) (xs : List Word) : (c.putWords n idx xs).spareFor = c.spareFor := by
  obtain ⟨_, h⟩ := c.putWords_eq n idx xs; rw [h]
@[simp] theorem Chip.putWords_capLeft (c : Chip) (n : RegName) (idx : List Nat) (xs : List Word) : (c.putWords n idx xs).capLeft = c.capLeft := by
  obtain ⟨_, h⟩ := c.putWords_eq n idx xs; rw [h]
@[simp] theorem Chip.putWords_guySeed (c : Chip) (n : RegName) (idx : List Nat) (xs : List Word) : (c.putWords n idx xs).guySeed = c.guySeed := by
  obtain ⟨_, h⟩ := c.putWords_eq n idx xs; rw [h]
@[simp] theorem Chip.putWords_trkLive (c : Chip) (n : RegName) (idx : List Nat) (xs : List Word) : (c.putWords n idx xs).trkLive = c.trkLive := by
  obtain ⟨_, h⟩ := c.putWords_eq n idx xs; rw [h]
@[simp] theorem Chip.putWords_hkAvgNew (c : Chip) (n : RegName) (idx : List Nat) (xs : List Word) : (c.putWords n idx xs).hkAvgNew = c.hkAvgNew := by
  obtain ⟨_, h⟩ := c.putWords_eq n idx xs; rw [h]
@[simp] theorem Chip.putWords_toneStart (c : Chip) (n : RegName) (idx : List Nat) (xs : List Word) : (c.putWords n idx xs).toneStart = c.toneStart := by
  obtain ⟨_, h⟩ := c.putWords_eq n idx xs; rw [h]
@[simp] theorem Chip.putWords_toneLog (c : Chip) (n : RegName) (idx : List Nat) (xs : List Word) : (c.putWords n idx xs).toneLog = c.toneLog := by
  obtain ⟨_, h⟩ := c.putWords_eq n idx xs; rw [h]
@[simp] theorem Chip.putWords_trigOld (c : Chip) (n : RegName) (idx : List Nat) (xs : List Word) : (c.putWords n idx xs).trigOld = c.trigOld := by
  obtain ⟨_, h⟩ := c.putWords_eq n idx xs; rw [h]
@[simp] theorem Chip.putWords_pairLink (c : Chip) (n : RegName) (idx : List Nat) (xs : List Word) : (c.putWords n idx xs).pairLink = c.pairLink := by
  obtain ⟨_, h⟩ := c.putWords_eq n idx xs; rw [h]
@[simp] theorem Chip.putWords_slots (c : Chip) (n : RegName) (idx : List Nat) (xs : List Word) : (c.putWords n idx xs).slots = c.slots := by
  obtain ⟨_, h⟩ := c.putWords_eq n idx xs; rw [h]
@[simp] theorem Chip.putWords_radio (c : Chip) (n : RegName) (idx : List Nat) (xs : List Word) : (c.putWords n idx xs).radio = c.radio := by
  obtain ⟨_, h⟩ := c.putWords_eq n idx xs; rw [h]
@[simp] theorem Chip.putWords_recs (c : Chip) (n : RegName) (idx : List Nat) (xs : List Word) : (c.putWords n idx xs).recs = c.recs := by
  obtain ⟨_, h⟩ := c.putWords_eq n idx xs; rw [h]
@[simp] theorem Chip.putWords_loaded (c : Chip) (n : RegName) (idx : List Nat) (xs : List Word) : (c.putWords n idx xs).loaded = c.loaded := by
  obtain ⟨_, h⟩ := c.putWords_eq n idx xs; rw [h]
@[simp] theorem Chip.putWords_cores (c : Chip) (n : RegName) (idx : List Nat) (xs : List Word) : (c.putWords n idx xs).cores = c.cores := by
  obtain ⟨_, h⟩ := c.putWords_eq n idx xs; rw [h]
@[simp] theorem Chip.putWords_arrs (c : Chip) (n : RegName) (idx : List Nat) (xs : List Word) : (c.putWords n idx xs).arrs = c.arrs := by
  obtain ⟨_, h⟩ := c.putWords_eq n idx xs; rw [h]
@[simp] theorem Chip.putWords_velds (c : Chip) (n : RegName) (idx : List Nat) (xs : List Word) : (c.putWords n idx xs).velds = c.velds := by
  obtain ⟨_, h⟩ := c.putWords_eq n idx xs; rw [h]
@[simp] theorem Chip.putWords_tents (c : Chip) (n : RegName) (idx : List Nat) (xs : List Word) : (c.putWords n idx xs).tents = c.tents := by
  obtain ⟨_, h⟩ := c.putWords_eq n idx xs; rw [h]
@[simp] theorem Chip.putWords_tentWaits (c : Chip) (n : RegName) (idx : List Nat) (xs : List Word) : (c.putWords n idx xs).tentWaits = c.tentWaits := by
  obtain ⟨_, h⟩ := c.putWords_eq n idx xs; rw [h]
@[simp] theorem Chip.putWords_passes (c : Chip) (n : RegName) (idx : List Nat) (xs : List Word) : (c.putWords n idx xs).passes = c.passes := by
  obtain ⟨_, h⟩ := c.putWords_eq n idx xs; rw [h]
@[simp] theorem Chip.putWords_bankA (c : Chip) (n : RegName) (idx : List Nat) (xs : List Word) : (c.putWords n idx xs).bankA = c.bankA := by
  obtain ⟨_, h⟩ := c.putWords_eq n idx xs; rw [h]
@[simp] theorem Chip.putWords_bankB (c : Chip) (n : RegName) (idx : List Nat) (xs : List Word) : (c.putWords n idx xs).bankB = c.bankB := by
  obtain ⟨_, h⟩ := c.putWords_eq n idx xs; rw [h]
@[simp] theorem Chip.putWords_current (c : Chip) (n : RegName) (idx : List Nat) (xs : List Word) : (c.putWords n idx xs).current = c.current := by
  obtain ⟨_, h⟩ := c.putWords_eq n idx xs; rw [h]
@[simp] theorem Chip.putWords_fws (c : Chip) (n : RegName) (idx : List Nat) (xs : List Word) : (c.putWords n idx xs).fws = c.fws := by
  obtain ⟨_, h⟩ := c.putWords_eq n idx xs; rw [h]
@[simp] theorem Chip.putWords_rollback (c : Chip) (n : RegName) (idx : List Nat) (xs : List Word) : (c.putWords n idx xs).rollback = c.rollback := by
  obtain ⟨_, h⟩ := c.putWords_eq n idx xs; rw [h]
@[simp] theorem Chip.putWords_drains (c : Chip) (n : RegName) (idx : List Nat) (xs : List Word) : (c.putWords n idx xs).drains = c.drains := by
  obtain ⟨_, h⟩ := c.putWords_eq n idx xs; rw [h]
@[simp] theorem Chip.putWords_boot (c : Chip) (n : RegName) (idx : List Nat) (xs : List Word) : (c.putWords n idx xs).boot = c.boot := by
  obtain ⟨_, h⟩ := c.putWords_eq n idx xs; rw [h]
@[simp] theorem Chip.putWords_coderJobs (c : Chip) (n : RegName) (idx : List Nat) (xs : List Word) : (c.putWords n idx xs).coderJobs = c.coderJobs := by
  obtain ⟨_, h⟩ := c.putWords_eq n idx xs; rw [h]
@[simp] theorem Chip.putWords_coderNext (c : Chip) (n : RegName) (idx : List Nat) (xs : List Word) : (c.putWords n idx xs).coderNext = c.coderNext := by
  obtain ⟨_, h⟩ := c.putWords_eq n idx xs; rw [h]
@[simp] theorem Chip.putWords_submits (c : Chip) (n : RegName) (idx : List Nat) (xs : List Word) : (c.putWords n idx xs).submits = c.submits := by
  obtain ⟨_, h⟩ := c.putWords_eq n idx xs; rw [h]
@[simp] theorem Chip.putWords_harqs (c : Chip) (n : RegName) (idx : List Nat) (xs : List Word) : (c.putWords n idx xs).harqs = c.harqs := by
  obtain ⟨_, h⟩ := c.putWords_eq n idx xs; rw [h]
@[simp] theorem Chip.putWords_sweeps (c : Chip) (n : RegName) (idx : List Nat) (xs : List Word) : (c.putWords n idx xs).sweeps = c.sweeps := by
  obtain ⟨_, h⟩ := c.putWords_eq n idx xs; rw [h]
@[simp] theorem Chip.putWords_decCredit (c : Chip) (n : RegName) (idx : List Nat) (xs : List Word) : (c.putWords n idx xs).decCredit = c.decCredit := by
  obtain ⟨_, h⟩ := c.putWords_eq n idx xs; rw [h]
@[simp] theorem Chip.putWords_encCredit (c : Chip) (n : RegName) (idx : List Nat) (xs : List Word) : (c.putWords n idx xs).encCredit = c.encCredit := by
  obtain ⟨_, h⟩ := c.putWords_eq n idx xs; rw [h]
@[simp] theorem Chip.putWords_msgLast (c : Chip) (n : RegName) (idx : List Nat) (xs : List Word) : (c.putWords n idx xs).msgLast = c.msgLast := by
  obtain ⟨_, h⟩ := c.putWords_eq n idx xs; rw [h]
@[simp] theorem Chip.putWords_valeCals (c : Chip) (n : RegName) (idx : List Nat) (xs : List Word) : (c.putWords n idx xs).valeCals = c.valeCals := by
  obtain ⟨_, h⟩ := c.putWords_eq n idx xs; rw [h]
@[simp] theorem Chip.putWords_hkTrims (c : Chip) (n : RegName) (idx : List Nat) (xs : List Word) : (c.putWords n idx xs).hkTrims = c.hkTrims := by
  obtain ⟨_, h⟩ := c.putWords_eq n idx xs; rw [h]
@[simp] theorem Chip.putWords_hkStamp (c : Chip) (n : RegName) (idx : List Nat) (xs : List Word) : (c.putWords n idx xs).hkStamp = c.hkStamp := by
  obtain ⟨_, h⟩ := c.putWords_eq n idx xs; rw [h]
@[simp] theorem Chip.putWords_heat (c : Chip) (n : RegName) (idx : List Nat) (xs : List Word) : (c.putWords n idx xs).heat = c.heat := by
  obtain ⟨_, h⟩ := c.putWords_eq n idx xs; rw [h]
@[simp] theorem Chip.putWords_act (c : Chip) (n : RegName) (idx : List Nat) (xs : List Word) : (c.putWords n idx xs).act = c.act := by
  obtain ⟨_, h⟩ := c.putWords_eq n idx xs; rw [h]
@[simp] theorem Chip.putWords_actSeq (c : Chip) (n : RegName) (idx : List Nat) (xs : List Word) : (c.putWords n idx xs).actSeq = c.actSeq := by
  obtain ⟨_, h⟩ := c.putWords_eq n idx xs; rw [h]
@[simp] theorem Chip.putWords_cursors (c : Chip) (n : RegName) (idx : List Nat) (xs : List Word) : (c.putWords n idx xs).cursors = c.cursors := by
  obtain ⟨_, h⟩ := c.putWords_eq n idx xs; rw [h]

/-! ### Chip.ev -/

@[simp] theorem Chip.ev_device (c : Chip) (n : RegName) (idx : List Nat) : (c.ev n idx).device = c.device := by
  obtain ⟨_, _, _, h⟩ := c.ev_eq n idx; rw [h]
@[simp] theorem Chip.ev_mem (c : Chip) (n : RegName) (idx : List Nat) : (c.ev n idx).mem = c.mem := by
  obtain ⟨_, _, _, h⟩ := c.ev_eq n idx; rw [h]
@[simp] theorem Chip.ev_outs (c : Chip) (n : RegName) (idx : List Nat) : (c.ev n idx).outs = c.outs := by
  obtain ⟨_, _, _, h⟩ := c.ev_eq n idx; rw [h]
@[simp] theorem Chip.ev_free (c : Chip) (n : RegName) (idx : List Nat) : (c.ev n idx).free = c.free := by
  obtain ⟨_, _, _, h⟩ := c.ev_eq n idx; rw [h]
@[simp] theorem Chip.ev_boots (c : Chip) (n : RegName) (idx : List Nat) : (c.ev n idx).boots = c.boots := by
  obtain ⟨_, _, _, h⟩ := c.ev_eq n idx; rw [h]
@[simp] theorem Chip.ev_gens (c : Chip) (n : RegName) (idx : List Nat) : (c.ev n idx).gens = c.gens := by
  obtain ⟨_, _, _, h⟩ := c.ev_eq n idx; rw [h]
@[simp] theorem Chip.ev_gclk (c : Chip) (n : RegName) (idx : List Nat) : (c.ev n idx).gclk = c.gclk := by
  obtain ⟨_, _, _, h⟩ := c.ev_eq n idx; rw [h]
@[simp] theorem Chip.ev_bud (c : Chip) (n : RegName) (idx : List Nat) : (c.ev n idx).bud = c.bud := by
  obtain ⟨_, _, _, h⟩ := c.ev_eq n idx; rw [h]
@[simp] theorem Chip.ev_mpq (c : Chip) (n : RegName) (idx : List Nat) : (c.ev n idx).mpq = c.mpq := by
  obtain ⟨_, _, _, h⟩ := c.ev_eq n idx; rw [h]
@[simp] theorem Chip.ev_longs (c : Chip) (n : RegName) (idx : List Nat) : (c.ev n idx).longs = c.longs := by
  obtain ⟨_, _, _, h⟩ := c.ev_eq n idx; rw [h]
@[simp] theorem Chip.ev_link (c : Chip) (n : RegName) (idx : List Nat) : (c.ev n idx).link = c.link := by
  obtain ⟨_, _, _, h⟩ := c.ev_eq n idx; rw [h]
@[simp] theorem Chip.ev_reads (c : Chip) (n : RegName) (idx : List Nat) : (c.ev n idx).reads = c.reads := by
  obtain ⟨_, _, _, h⟩ := c.ev_eq n idx; rw [h]
@[simp] theorem Chip.ev_dales (c : Chip) (n : RegName) (idx : List Nat) : (c.ev n idx).dales = c.dales := by
  obtain ⟨_, _, _, h⟩ := c.ev_eq n idx; rw [h]
@[simp] theorem Chip.ev_banks (c : Chip) (n : RegName) (idx : List Nat) : (c.ev n idx).banks = c.banks := by
  obtain ⟨_, _, _, h⟩ := c.ev_eq n idx; rw [h]
@[simp] theorem Chip.ev_adcs (c : Chip) (n : RegName) (idx : List Nat) : (c.ev n idx).adcs = c.adcs := by
  obtain ⟨_, _, _, h⟩ := c.ev_eq n idx; rw [h]
@[simp] theorem Chip.ev_adcGain (c : Chip) (n : RegName) (idx : List Nat) : (c.ev n idx).adcGain = c.adcGain := by
  obtain ⟨_, _, _, h⟩ := c.ev_eq n idx; rw [h]
@[simp] theorem Chip.ev_throttle (c : Chip) (n : RegName) (idx : List Nat) : (c.ev n idx).throttle = c.throttle := by
  obtain ⟨_, _, _, h⟩ := c.ev_eq n idx; rw [h]
@[simp] theorem Chip.ev_chans (c : Chip) (n : RegName) (idx : List Nat) : (c.ev n idx).chans = c.chans := by
  obtain ⟨_, _, _, h⟩ := c.ev_eq n idx; rw [h]
@[simp] theorem Chip.ev_units (c : Chip) (n : RegName) (idx : List Nat) : (c.ev n idx).units = c.units := by
  obtain ⟨_, _, _, h⟩ := c.ev_eq n idx; rw [h]
@[simp] theorem Chip.ev_tones (c : Chip) (n : RegName) (idx : List Nat) : (c.ev n idx).tones = c.tones := by
  obtain ⟨_, _, _, h⟩ := c.ev_eq n idx; rw [h]
@[simp] theorem Chip.ev_loops (c : Chip) (n : RegName) (idx : List Nat) : (c.ev n idx).loops = c.loops := by
  obtain ⟨_, _, _, h⟩ := c.ev_eq n idx; rw [h]
@[simp] theorem Chip.ev_tests (c : Chip) (n : RegName) (idx : List Nat) : (c.ev n idx).tests = c.tests := by
  obtain ⟨_, _, _, h⟩ := c.ev_eq n idx; rw [h]
@[simp] theorem Chip.ev_ticked (c : Chip) (n : RegName) (idx : List Nat) : (c.ev n idx).ticked = c.ticked := by
  obtain ⟨_, _, _, h⟩ := c.ev_eq n idx; rw [h]
@[simp] theorem Chip.ev_spareFor (c : Chip) (n : RegName) (idx : List Nat) : (c.ev n idx).spareFor = c.spareFor := by
  obtain ⟨_, _, _, h⟩ := c.ev_eq n idx; rw [h]
@[simp] theorem Chip.ev_capLeft (c : Chip) (n : RegName) (idx : List Nat) : (c.ev n idx).capLeft = c.capLeft := by
  obtain ⟨_, _, _, h⟩ := c.ev_eq n idx; rw [h]
@[simp] theorem Chip.ev_guySeed (c : Chip) (n : RegName) (idx : List Nat) : (c.ev n idx).guySeed = c.guySeed := by
  obtain ⟨_, _, _, h⟩ := c.ev_eq n idx; rw [h]
@[simp] theorem Chip.ev_trkLive (c : Chip) (n : RegName) (idx : List Nat) : (c.ev n idx).trkLive = c.trkLive := by
  obtain ⟨_, _, _, h⟩ := c.ev_eq n idx; rw [h]
@[simp] theorem Chip.ev_hkAvgNew (c : Chip) (n : RegName) (idx : List Nat) : (c.ev n idx).hkAvgNew = c.hkAvgNew := by
  obtain ⟨_, _, _, h⟩ := c.ev_eq n idx; rw [h]
@[simp] theorem Chip.ev_toneStart (c : Chip) (n : RegName) (idx : List Nat) : (c.ev n idx).toneStart = c.toneStart := by
  obtain ⟨_, _, _, h⟩ := c.ev_eq n idx; rw [h]
@[simp] theorem Chip.ev_toneLog (c : Chip) (n : RegName) (idx : List Nat) : (c.ev n idx).toneLog = c.toneLog := by
  obtain ⟨_, _, _, h⟩ := c.ev_eq n idx; rw [h]
@[simp] theorem Chip.ev_trigOld (c : Chip) (n : RegName) (idx : List Nat) : (c.ev n idx).trigOld = c.trigOld := by
  obtain ⟨_, _, _, h⟩ := c.ev_eq n idx; rw [h]
@[simp] theorem Chip.ev_pairLink (c : Chip) (n : RegName) (idx : List Nat) : (c.ev n idx).pairLink = c.pairLink := by
  obtain ⟨_, _, _, h⟩ := c.ev_eq n idx; rw [h]
@[simp] theorem Chip.ev_slots (c : Chip) (n : RegName) (idx : List Nat) : (c.ev n idx).slots = c.slots := by
  obtain ⟨_, _, _, h⟩ := c.ev_eq n idx; rw [h]
@[simp] theorem Chip.ev_radio (c : Chip) (n : RegName) (idx : List Nat) : (c.ev n idx).radio = c.radio := by
  obtain ⟨_, _, _, h⟩ := c.ev_eq n idx; rw [h]
@[simp] theorem Chip.ev_recs (c : Chip) (n : RegName) (idx : List Nat) : (c.ev n idx).recs = c.recs := by
  obtain ⟨_, _, _, h⟩ := c.ev_eq n idx; rw [h]
@[simp] theorem Chip.ev_loaded (c : Chip) (n : RegName) (idx : List Nat) : (c.ev n idx).loaded = c.loaded := by
  obtain ⟨_, _, _, h⟩ := c.ev_eq n idx; rw [h]
@[simp] theorem Chip.ev_cores (c : Chip) (n : RegName) (idx : List Nat) : (c.ev n idx).cores = c.cores := by
  obtain ⟨_, _, _, h⟩ := c.ev_eq n idx; rw [h]
@[simp] theorem Chip.ev_arrs (c : Chip) (n : RegName) (idx : List Nat) : (c.ev n idx).arrs = c.arrs := by
  obtain ⟨_, _, _, h⟩ := c.ev_eq n idx; rw [h]
@[simp] theorem Chip.ev_velds (c : Chip) (n : RegName) (idx : List Nat) : (c.ev n idx).velds = c.velds := by
  obtain ⟨_, _, _, h⟩ := c.ev_eq n idx; rw [h]
@[simp] theorem Chip.ev_tents (c : Chip) (n : RegName) (idx : List Nat) : (c.ev n idx).tents = c.tents := by
  obtain ⟨_, _, _, h⟩ := c.ev_eq n idx; rw [h]
@[simp] theorem Chip.ev_tentWaits (c : Chip) (n : RegName) (idx : List Nat) : (c.ev n idx).tentWaits = c.tentWaits := by
  obtain ⟨_, _, _, h⟩ := c.ev_eq n idx; rw [h]
@[simp] theorem Chip.ev_passes (c : Chip) (n : RegName) (idx : List Nat) : (c.ev n idx).passes = c.passes := by
  obtain ⟨_, _, _, h⟩ := c.ev_eq n idx; rw [h]
@[simp] theorem Chip.ev_bankA (c : Chip) (n : RegName) (idx : List Nat) : (c.ev n idx).bankA = c.bankA := by
  obtain ⟨_, _, _, h⟩ := c.ev_eq n idx; rw [h]
@[simp] theorem Chip.ev_bankB (c : Chip) (n : RegName) (idx : List Nat) : (c.ev n idx).bankB = c.bankB := by
  obtain ⟨_, _, _, h⟩ := c.ev_eq n idx; rw [h]
@[simp] theorem Chip.ev_current (c : Chip) (n : RegName) (idx : List Nat) : (c.ev n idx).current = c.current := by
  obtain ⟨_, _, _, h⟩ := c.ev_eq n idx; rw [h]
@[simp] theorem Chip.ev_fws (c : Chip) (n : RegName) (idx : List Nat) : (c.ev n idx).fws = c.fws := by
  obtain ⟨_, _, _, h⟩ := c.ev_eq n idx; rw [h]
@[simp] theorem Chip.ev_rollback (c : Chip) (n : RegName) (idx : List Nat) : (c.ev n idx).rollback = c.rollback := by
  obtain ⟨_, _, _, h⟩ := c.ev_eq n idx; rw [h]
@[simp] theorem Chip.ev_drains (c : Chip) (n : RegName) (idx : List Nat) : (c.ev n idx).drains = c.drains := by
  obtain ⟨_, _, _, h⟩ := c.ev_eq n idx; rw [h]
@[simp] theorem Chip.ev_boot (c : Chip) (n : RegName) (idx : List Nat) : (c.ev n idx).boot = c.boot := by
  obtain ⟨_, _, _, h⟩ := c.ev_eq n idx; rw [h]
@[simp] theorem Chip.ev_coderJobs (c : Chip) (n : RegName) (idx : List Nat) : (c.ev n idx).coderJobs = c.coderJobs := by
  obtain ⟨_, _, _, h⟩ := c.ev_eq n idx; rw [h]
@[simp] theorem Chip.ev_coderNext (c : Chip) (n : RegName) (idx : List Nat) : (c.ev n idx).coderNext = c.coderNext := by
  obtain ⟨_, _, _, h⟩ := c.ev_eq n idx; rw [h]
@[simp] theorem Chip.ev_submits (c : Chip) (n : RegName) (idx : List Nat) : (c.ev n idx).submits = c.submits := by
  obtain ⟨_, _, _, h⟩ := c.ev_eq n idx; rw [h]
@[simp] theorem Chip.ev_harqs (c : Chip) (n : RegName) (idx : List Nat) : (c.ev n idx).harqs = c.harqs := by
  obtain ⟨_, _, _, h⟩ := c.ev_eq n idx; rw [h]
@[simp] theorem Chip.ev_sweeps (c : Chip) (n : RegName) (idx : List Nat) : (c.ev n idx).sweeps = c.sweeps := by
  obtain ⟨_, _, _, h⟩ := c.ev_eq n idx; rw [h]
@[simp] theorem Chip.ev_decCredit (c : Chip) (n : RegName) (idx : List Nat) : (c.ev n idx).decCredit = c.decCredit := by
  obtain ⟨_, _, _, h⟩ := c.ev_eq n idx; rw [h]
@[simp] theorem Chip.ev_encCredit (c : Chip) (n : RegName) (idx : List Nat) : (c.ev n idx).encCredit = c.encCredit := by
  obtain ⟨_, _, _, h⟩ := c.ev_eq n idx; rw [h]
@[simp] theorem Chip.ev_msgLast (c : Chip) (n : RegName) (idx : List Nat) : (c.ev n idx).msgLast = c.msgLast := by
  obtain ⟨_, _, _, h⟩ := c.ev_eq n idx; rw [h]
@[simp] theorem Chip.ev_valeCals (c : Chip) (n : RegName) (idx : List Nat) : (c.ev n idx).valeCals = c.valeCals := by
  obtain ⟨_, _, _, h⟩ := c.ev_eq n idx; rw [h]
@[simp] theorem Chip.ev_hkTrims (c : Chip) (n : RegName) (idx : List Nat) : (c.ev n idx).hkTrims = c.hkTrims := by
  obtain ⟨_, _, _, h⟩ := c.ev_eq n idx; rw [h]
@[simp] theorem Chip.ev_hkStamp (c : Chip) (n : RegName) (idx : List Nat) : (c.ev n idx).hkStamp = c.hkStamp := by
  obtain ⟨_, _, _, h⟩ := c.ev_eq n idx; rw [h]
@[simp] theorem Chip.ev_heat (c : Chip) (n : RegName) (idx : List Nat) : (c.ev n idx).heat = c.heat := by
  obtain ⟨_, _, _, h⟩ := c.ev_eq n idx; rw [h]
@[simp] theorem Chip.ev_act (c : Chip) (n : RegName) (idx : List Nat) : (c.ev n idx).act = c.act := by
  obtain ⟨_, _, _, h⟩ := c.ev_eq n idx; rw [h]
@[simp] theorem Chip.ev_actSeq (c : Chip) (n : RegName) (idx : List Nat) : (c.ev n idx).actSeq = c.actSeq := by
  obtain ⟨_, _, _, h⟩ := c.ev_eq n idx; rw [h]
@[simp] theorem Chip.ev_cursors (c : Chip) (n : RegName) (idx : List Nat) : (c.ev n idx).cursors = c.cursors := by
  obtain ⟨_, _, _, h⟩ := c.ev_eq n idx; rw [h]

/-! ### Chip.store -/

@[simp] theorem Chip.store_device (c : Chip) (a : Nat) (bs : List Byte) : (c.store a bs).device = c.device := by
  obtain ⟨_, h⟩ := c.store_eq a bs; rw [h]
@[simp] theorem Chip.store_regs (c : Chip) (a : Nat) (bs : List Byte) : (c.store a bs).regs = c.regs := by
  obtain ⟨_, h⟩ := c.store_eq a bs; rw [h]
@[simp] theorem Chip.store_marks (c : Chip) (a : Nat) (bs : List Byte) : (c.store a bs).marks = c.marks := by
  obtain ⟨_, h⟩ := c.store_eq a bs; rw [h]
@[simp] theorem Chip.store_outs (c : Chip) (a : Nat) (bs : List Byte) : (c.store a bs).outs = c.outs := by
  obtain ⟨_, h⟩ := c.store_eq a bs; rw [h]
@[simp] theorem Chip.store_free (c : Chip) (a : Nat) (bs : List Byte) : (c.store a bs).free = c.free := by
  obtain ⟨_, h⟩ := c.store_eq a bs; rw [h]
@[simp] theorem Chip.store_boots (c : Chip) (a : Nat) (bs : List Byte) : (c.store a bs).boots = c.boots := by
  obtain ⟨_, h⟩ := c.store_eq a bs; rw [h]
@[simp] theorem Chip.store_gens (c : Chip) (a : Nat) (bs : List Byte) : (c.store a bs).gens = c.gens := by
  obtain ⟨_, h⟩ := c.store_eq a bs; rw [h]
@[simp] theorem Chip.store_gclk (c : Chip) (a : Nat) (bs : List Byte) : (c.store a bs).gclk = c.gclk := by
  obtain ⟨_, h⟩ := c.store_eq a bs; rw [h]
@[simp] theorem Chip.store_bud (c : Chip) (a : Nat) (bs : List Byte) : (c.store a bs).bud = c.bud := by
  obtain ⟨_, h⟩ := c.store_eq a bs; rw [h]
@[simp] theorem Chip.store_msgs (c : Chip) (a : Nat) (bs : List Byte) : (c.store a bs).msgs = c.msgs := by
  obtain ⟨_, h⟩ := c.store_eq a bs; rw [h]
@[simp] theorem Chip.store_mpq (c : Chip) (a : Nat) (bs : List Byte) : (c.store a bs).mpq = c.mpq := by
  obtain ⟨_, h⟩ := c.store_eq a bs; rw [h]
@[simp] theorem Chip.store_longs (c : Chip) (a : Nat) (bs : List Byte) : (c.store a bs).longs = c.longs := by
  obtain ⟨_, h⟩ := c.store_eq a bs; rw [h]
@[simp] theorem Chip.store_link (c : Chip) (a : Nat) (bs : List Byte) : (c.store a bs).link = c.link := by
  obtain ⟨_, h⟩ := c.store_eq a bs; rw [h]
@[simp] theorem Chip.store_reads (c : Chip) (a : Nat) (bs : List Byte) : (c.store a bs).reads = c.reads := by
  obtain ⟨_, h⟩ := c.store_eq a bs; rw [h]
@[simp] theorem Chip.store_dales (c : Chip) (a : Nat) (bs : List Byte) : (c.store a bs).dales = c.dales := by
  obtain ⟨_, h⟩ := c.store_eq a bs; rw [h]
@[simp] theorem Chip.store_banks (c : Chip) (a : Nat) (bs : List Byte) : (c.store a bs).banks = c.banks := by
  obtain ⟨_, h⟩ := c.store_eq a bs; rw [h]
@[simp] theorem Chip.store_adcs (c : Chip) (a : Nat) (bs : List Byte) : (c.store a bs).adcs = c.adcs := by
  obtain ⟨_, h⟩ := c.store_eq a bs; rw [h]
@[simp] theorem Chip.store_adcGain (c : Chip) (a : Nat) (bs : List Byte) : (c.store a bs).adcGain = c.adcGain := by
  obtain ⟨_, h⟩ := c.store_eq a bs; rw [h]
@[simp] theorem Chip.store_throttle (c : Chip) (a : Nat) (bs : List Byte) : (c.store a bs).throttle = c.throttle := by
  obtain ⟨_, h⟩ := c.store_eq a bs; rw [h]
@[simp] theorem Chip.store_chans (c : Chip) (a : Nat) (bs : List Byte) : (c.store a bs).chans = c.chans := by
  obtain ⟨_, h⟩ := c.store_eq a bs; rw [h]
@[simp] theorem Chip.store_units (c : Chip) (a : Nat) (bs : List Byte) : (c.store a bs).units = c.units := by
  obtain ⟨_, h⟩ := c.store_eq a bs; rw [h]
@[simp] theorem Chip.store_tones (c : Chip) (a : Nat) (bs : List Byte) : (c.store a bs).tones = c.tones := by
  obtain ⟨_, h⟩ := c.store_eq a bs; rw [h]
@[simp] theorem Chip.store_loops (c : Chip) (a : Nat) (bs : List Byte) : (c.store a bs).loops = c.loops := by
  obtain ⟨_, h⟩ := c.store_eq a bs; rw [h]
@[simp] theorem Chip.store_tests (c : Chip) (a : Nat) (bs : List Byte) : (c.store a bs).tests = c.tests := by
  obtain ⟨_, h⟩ := c.store_eq a bs; rw [h]
@[simp] theorem Chip.store_ticked (c : Chip) (a : Nat) (bs : List Byte) : (c.store a bs).ticked = c.ticked := by
  obtain ⟨_, h⟩ := c.store_eq a bs; rw [h]
@[simp] theorem Chip.store_spareFor (c : Chip) (a : Nat) (bs : List Byte) : (c.store a bs).spareFor = c.spareFor := by
  obtain ⟨_, h⟩ := c.store_eq a bs; rw [h]
@[simp] theorem Chip.store_capLeft (c : Chip) (a : Nat) (bs : List Byte) : (c.store a bs).capLeft = c.capLeft := by
  obtain ⟨_, h⟩ := c.store_eq a bs; rw [h]
@[simp] theorem Chip.store_guySeed (c : Chip) (a : Nat) (bs : List Byte) : (c.store a bs).guySeed = c.guySeed := by
  obtain ⟨_, h⟩ := c.store_eq a bs; rw [h]
@[simp] theorem Chip.store_trkLive (c : Chip) (a : Nat) (bs : List Byte) : (c.store a bs).trkLive = c.trkLive := by
  obtain ⟨_, h⟩ := c.store_eq a bs; rw [h]
@[simp] theorem Chip.store_hkAvgNew (c : Chip) (a : Nat) (bs : List Byte) : (c.store a bs).hkAvgNew = c.hkAvgNew := by
  obtain ⟨_, h⟩ := c.store_eq a bs; rw [h]
@[simp] theorem Chip.store_toneStart (c : Chip) (a : Nat) (bs : List Byte) : (c.store a bs).toneStart = c.toneStart := by
  obtain ⟨_, h⟩ := c.store_eq a bs; rw [h]
@[simp] theorem Chip.store_toneLog (c : Chip) (a : Nat) (bs : List Byte) : (c.store a bs).toneLog = c.toneLog := by
  obtain ⟨_, h⟩ := c.store_eq a bs; rw [h]
@[simp] theorem Chip.store_trigOld (c : Chip) (a : Nat) (bs : List Byte) : (c.store a bs).trigOld = c.trigOld := by
  obtain ⟨_, h⟩ := c.store_eq a bs; rw [h]
@[simp] theorem Chip.store_pairLink (c : Chip) (a : Nat) (bs : List Byte) : (c.store a bs).pairLink = c.pairLink := by
  obtain ⟨_, h⟩ := c.store_eq a bs; rw [h]
@[simp] theorem Chip.store_slots (c : Chip) (a : Nat) (bs : List Byte) : (c.store a bs).slots = c.slots := by
  obtain ⟨_, h⟩ := c.store_eq a bs; rw [h]
@[simp] theorem Chip.store_radio (c : Chip) (a : Nat) (bs : List Byte) : (c.store a bs).radio = c.radio := by
  obtain ⟨_, h⟩ := c.store_eq a bs; rw [h]
@[simp] theorem Chip.store_recs (c : Chip) (a : Nat) (bs : List Byte) : (c.store a bs).recs = c.recs := by
  obtain ⟨_, h⟩ := c.store_eq a bs; rw [h]
@[simp] theorem Chip.store_loaded (c : Chip) (a : Nat) (bs : List Byte) : (c.store a bs).loaded = c.loaded := by
  obtain ⟨_, h⟩ := c.store_eq a bs; rw [h]
@[simp] theorem Chip.store_cores (c : Chip) (a : Nat) (bs : List Byte) : (c.store a bs).cores = c.cores := by
  obtain ⟨_, h⟩ := c.store_eq a bs; rw [h]
@[simp] theorem Chip.store_arrs (c : Chip) (a : Nat) (bs : List Byte) : (c.store a bs).arrs = c.arrs := by
  obtain ⟨_, h⟩ := c.store_eq a bs; rw [h]
@[simp] theorem Chip.store_velds (c : Chip) (a : Nat) (bs : List Byte) : (c.store a bs).velds = c.velds := by
  obtain ⟨_, h⟩ := c.store_eq a bs; rw [h]
@[simp] theorem Chip.store_tents (c : Chip) (a : Nat) (bs : List Byte) : (c.store a bs).tents = c.tents := by
  obtain ⟨_, h⟩ := c.store_eq a bs; rw [h]
@[simp] theorem Chip.store_tentWaits (c : Chip) (a : Nat) (bs : List Byte) : (c.store a bs).tentWaits = c.tentWaits := by
  obtain ⟨_, h⟩ := c.store_eq a bs; rw [h]
@[simp] theorem Chip.store_passes (c : Chip) (a : Nat) (bs : List Byte) : (c.store a bs).passes = c.passes := by
  obtain ⟨_, h⟩ := c.store_eq a bs; rw [h]
@[simp] theorem Chip.store_bankA (c : Chip) (a : Nat) (bs : List Byte) : (c.store a bs).bankA = c.bankA := by
  obtain ⟨_, h⟩ := c.store_eq a bs; rw [h]
@[simp] theorem Chip.store_bankB (c : Chip) (a : Nat) (bs : List Byte) : (c.store a bs).bankB = c.bankB := by
  obtain ⟨_, h⟩ := c.store_eq a bs; rw [h]
@[simp] theorem Chip.store_current (c : Chip) (a : Nat) (bs : List Byte) : (c.store a bs).current = c.current := by
  obtain ⟨_, h⟩ := c.store_eq a bs; rw [h]
@[simp] theorem Chip.store_fws (c : Chip) (a : Nat) (bs : List Byte) : (c.store a bs).fws = c.fws := by
  obtain ⟨_, h⟩ := c.store_eq a bs; rw [h]
@[simp] theorem Chip.store_rollback (c : Chip) (a : Nat) (bs : List Byte) : (c.store a bs).rollback = c.rollback := by
  obtain ⟨_, h⟩ := c.store_eq a bs; rw [h]
@[simp] theorem Chip.store_drains (c : Chip) (a : Nat) (bs : List Byte) : (c.store a bs).drains = c.drains := by
  obtain ⟨_, h⟩ := c.store_eq a bs; rw [h]
@[simp] theorem Chip.store_boot (c : Chip) (a : Nat) (bs : List Byte) : (c.store a bs).boot = c.boot := by
  obtain ⟨_, h⟩ := c.store_eq a bs; rw [h]
@[simp] theorem Chip.store_coderJobs (c : Chip) (a : Nat) (bs : List Byte) : (c.store a bs).coderJobs = c.coderJobs := by
  obtain ⟨_, h⟩ := c.store_eq a bs; rw [h]
@[simp] theorem Chip.store_coderNext (c : Chip) (a : Nat) (bs : List Byte) : (c.store a bs).coderNext = c.coderNext := by
  obtain ⟨_, h⟩ := c.store_eq a bs; rw [h]
@[simp] theorem Chip.store_submits (c : Chip) (a : Nat) (bs : List Byte) : (c.store a bs).submits = c.submits := by
  obtain ⟨_, h⟩ := c.store_eq a bs; rw [h]
@[simp] theorem Chip.store_harqs (c : Chip) (a : Nat) (bs : List Byte) : (c.store a bs).harqs = c.harqs := by
  obtain ⟨_, h⟩ := c.store_eq a bs; rw [h]
@[simp] theorem Chip.store_sweeps (c : Chip) (a : Nat) (bs : List Byte) : (c.store a bs).sweeps = c.sweeps := by
  obtain ⟨_, h⟩ := c.store_eq a bs; rw [h]
@[simp] theorem Chip.store_decCredit (c : Chip) (a : Nat) (bs : List Byte) : (c.store a bs).decCredit = c.decCredit := by
  obtain ⟨_, h⟩ := c.store_eq a bs; rw [h]
@[simp] theorem Chip.store_encCredit (c : Chip) (a : Nat) (bs : List Byte) : (c.store a bs).encCredit = c.encCredit := by
  obtain ⟨_, h⟩ := c.store_eq a bs; rw [h]
@[simp] theorem Chip.store_msgLast (c : Chip) (a : Nat) (bs : List Byte) : (c.store a bs).msgLast = c.msgLast := by
  obtain ⟨_, h⟩ := c.store_eq a bs; rw [h]
@[simp] theorem Chip.store_valeCals (c : Chip) (a : Nat) (bs : List Byte) : (c.store a bs).valeCals = c.valeCals := by
  obtain ⟨_, h⟩ := c.store_eq a bs; rw [h]
@[simp] theorem Chip.store_hkTrims (c : Chip) (a : Nat) (bs : List Byte) : (c.store a bs).hkTrims = c.hkTrims := by
  obtain ⟨_, h⟩ := c.store_eq a bs; rw [h]
@[simp] theorem Chip.store_hkStamp (c : Chip) (a : Nat) (bs : List Byte) : (c.store a bs).hkStamp = c.hkStamp := by
  obtain ⟨_, h⟩ := c.store_eq a bs; rw [h]
@[simp] theorem Chip.store_heat (c : Chip) (a : Nat) (bs : List Byte) : (c.store a bs).heat = c.heat := by
  obtain ⟨_, h⟩ := c.store_eq a bs; rw [h]
@[simp] theorem Chip.store_act (c : Chip) (a : Nat) (bs : List Byte) : (c.store a bs).act = c.act := by
  obtain ⟨_, h⟩ := c.store_eq a bs; rw [h]
@[simp] theorem Chip.store_actSeq (c : Chip) (a : Nat) (bs : List Byte) : (c.store a bs).actSeq = c.actSeq := by
  obtain ⟨_, h⟩ := c.store_eq a bs; rw [h]
@[simp] theorem Chip.store_cursors (c : Chip) (a : Nat) (bs : List Byte) : (c.store a bs).cursors = c.cursors := by
  obtain ⟨_, h⟩ := c.store_eq a bs; rw [h]

/-! ### Registers through updates that are not of registers -/

theorem Chip.get_congr {a b : Chip} (h : a.regs = b.regs) (h' : a.loaded = b.loaded) (r : Reg) : a.get r = b.get r := by
  simp only [Chip.get, h, h']

theorem Chip.f_congr {a b : Chip} (h : a.regs = b.regs) (h' : a.loaded = b.loaded) (fl : Fld) (idx : List Nat) :
    a.f fl idx = b.f fl idx := by
  simp only [Chip.f, Chip.get_congr h h']

@[simp] theorem Chip.setGen_get (c : Chip) (i : GenId) (g : Gen) (q : Reg) : (c.setGen i g).get q = c.get q :=
  Chip.get_congr (by simp) (by simp) q
@[simp] theorem Chip.setGen_f (c : Chip) (i : GenId) (g : Gen) (q : Fld) (ix : List Nat) : (c.setGen i g).f q ix = c.f q ix :=
  Chip.f_congr (by simp) (by simp) q ix
@[simp] theorem Chip.setByte_get (c : Chip) (a : Nat) (b : Byte) (q : Reg) : (c.setByte a b).get q = c.get q :=
  Chip.get_congr (by simp) (by simp) q
@[simp] theorem Chip.setByte_f (c : Chip) (a : Nat) (b : Byte) (q : Fld) (ix : List Nat) : (c.setByte a b).f q ix = c.f q ix :=
  Chip.f_congr (by simp) (by simp) q ix
@[simp] theorem Chip.setDale_get (c : Chip) (k : Nat) (d : Dale) (q : Reg) : (c.setDale k d).get q = c.get q :=
  Chip.get_congr (by simp) (by simp) q
@[simp] theorem Chip.setDale_f (c : Chip) (k : Nat) (d : Dale) (q : Fld) (ix : List Nat) : (c.setDale k d).f q ix = c.f q ix :=
  Chip.f_congr (by simp) (by simp) q ix
@[simp] theorem Chip.setBank_get (c : Chip) (v b : Nat) (x : Bank) (q : Reg) : (c.setBank v b x).get q = c.get q :=
  Chip.get_congr (by simp) (by simp) q
@[simp] theorem Chip.setBank_f (c : Chip) (v b : Nat) (x : Bank) (q : Fld) (ix : List Nat) : (c.setBank v b x).f q ix = c.f q ix :=
  Chip.f_congr (by simp) (by simp) q ix
@[simp] theorem Chip.setAdc_get (c : Chip) (v l : Nat) (a : Adc) (q : Reg) : (c.setAdc v l a).get q = c.get q :=
  Chip.get_congr (by simp) (by simp) q
@[simp] theorem Chip.setAdc_f (c : Chip) (v l : Nat) (a : Adc) (q : Fld) (ix : List Nat) : (c.setAdc v l a).f q ix = c.f q ix :=
  Chip.f_congr (by simp) (by simp) q ix
@[simp] theorem Chip.setTent_get (c : Chip) (t : Nat) (x : Tent) (q : Reg) : (c.setTent t x).get q = c.get q :=
  Chip.get_congr (by simp) (by simp) q
@[simp] theorem Chip.setTent_f (c : Chip) (t : Nat) (x : Tent) (q : Fld) (ix : List Nat) : (c.setTent t x).f q ix = c.f q ix :=
  Chip.f_congr (by simp) (by simp) q ix
@[simp] theorem Chip.setSlot_get (c : Chip) (t k : Nat) (x : WSlot) (q : Reg) : (c.setSlot t k x).get q = c.get q :=
  Chip.get_congr (by simp) (by simp) q
@[simp] theorem Chip.setSlot_f (c : Chip) (t k : Nat) (x : WSlot) (q : Fld) (ix : List Nat) : (c.setSlot t k x).f q ix = c.f q ix :=
  Chip.f_congr (by simp) (by simp) q ix
@[simp] theorem Chip.setCore_get (c : Chip) (i : Nat) (x : Core) (q : Reg) : (c.setCore i x).get q = c.get q :=
  Chip.get_congr (by simp) (by simp) q
@[simp] theorem Chip.setCore_f (c : Chip) (i : Nat) (x : Core) (q : Fld) (ix : List Nat) : (c.setCore i x).f q ix = c.f q ix :=
  Chip.f_congr (by simp) (by simp) q ix
@[simp] theorem Chip.setArr_get (c : Chip) (n p : Nat) (x : Arr) (q : Reg) : (c.setArr n p x).get q = c.get q :=
  Chip.get_congr (by simp) (by simp) q
@[simp] theorem Chip.setArr_f (c : Chip) (n p : Nat) (x : Arr) (q : Fld) (ix : List Nat) : (c.setArr n p x).f q ix = c.f q ix :=
  Chip.f_congr (by simp) (by simp) q ix
@[simp] theorem Chip.setVeld_get (c : Chip) (n : Nat) (x : Veld) (q : Reg) : (c.setVeld n x).get q = c.get q :=
  Chip.get_congr (by simp) (by simp) q
@[simp] theorem Chip.setVeld_f (c : Chip) (n : Nat) (x : Veld) (q : Fld) (ix : List Nat) : (c.setVeld n x).f q ix = c.f q ix :=
  Chip.f_congr (by simp) (by simp) q ix
@[simp] theorem Chip.setThread_get (c : Chip) (h : Hart) (t : Thread) (q : Reg) : (c.setThread h t).get q = c.get q :=
  Chip.get_congr (by simp) (by simp) q
@[simp] theorem Chip.setThread_f (c : Chip) (h : Hart) (t : Thread) (q : Fld) (ix : List Nat) : (c.setThread h t).f q ix = c.f q ix :=
  Chip.f_congr (by simp) (by simp) q ix
@[simp] theorem Chip.setXr_get (c : Chip) (h : Hart) (r : BitVec 5) (x : Word) (q : Reg) : (c.setXr h r x).get q = c.get q :=
  Chip.get_congr (by simp) (by simp) q
@[simp] theorem Chip.setXr_f (c : Chip) (h : Hart) (r : BitVec 5) (x : Word) (q : Fld) (ix : List Nat) : (c.setXr h r x).f q ix = c.f q ix :=
  Chip.f_congr (by simp) (by simp) q ix
@[simp] theorem Chip.charge_get (c : Chip) (t cl n : Nat) (q : Reg) : (c.charge t cl n).get q = c.get q :=
  Chip.get_congr (by simp) (by simp) q
@[simp] theorem Chip.charge_f (c : Chip) (t cl n : Nat) (q : Fld) (ix : List Nat) : (c.charge t cl n).f q ix = c.f q ix :=
  Chip.f_congr (by simp) (by simp) q ix
@[simp] theorem Chip.reply_get (c : Chip) (b : Bool) (r : Reply) (q : Reg) : (c.reply b r).get q = c.get q :=
  Chip.get_congr (by simp) (by simp) q
@[simp] theorem Chip.reply_f (c : Chip) (b : Bool) (r : Reply) (q : Fld) (ix : List Nat) : (c.reply b r).f q ix = c.f q ix :=
  Chip.f_congr (by simp) (by simp) q ix
@[simp] theorem Chip.finish_get (c : Chip) (op : Nat) (m : Cmd) (st d : Nat) (ws : List Word) (q : Reg) : (c.finish op m st d ws).get q = c.get q :=
  Chip.get_congr (by simp) (by simp) q
@[simp] theorem Chip.finish_f (c : Chip) (op : Nat) (m : Cmd) (st d : Nat) (ws : List Word) (q : Fld) (ix : List Nat) : (c.finish op m st d ws).f q ix = c.f q ix :=
  Chip.f_congr (by simp) (by simp) q ix
@[simp] theorem Chip.answer_get (c : Chip) (op : Nat) (m : Cmd) (st d : Nat) (ws : List Word) (q : Reg) : (c.answer op m st d ws).get q = c.get q :=
  Chip.get_congr (by simp) (by simp) q
@[simp] theorem Chip.answer_f (c : Chip) (op : Nat) (m : Cmd) (st d : Nat) (ws : List Word) (q : Fld) (ix : List Nat) : (c.answer op m st d ws).f q ix = c.f q ix :=
  Chip.f_congr (by simp) (by simp) q ix
@[simp] theorem Chip.accept_get (c : Chip) (op : Nat) (m : Cmd) (q : Reg) : (c.accept op m).get q = c.get q :=
  Chip.get_congr (by simp) (by simp) q
@[simp] theorem Chip.accept_f (c : Chip) (op : Nat) (m : Cmd) (q : Fld) (ix : List Nat) : (c.accept op m).f q ix = c.f q ix :=
  Chip.f_congr (by simp) (by simp) q ix
@[simp] theorem Chip.acceptFinish_get (c : Chip) (op : Nat) (m : Cmd) (st d : Nat) (ws : List Word) (q : Reg) : (c.acceptFinish op m st d ws).get q = c.get q :=
  Chip.get_congr (by simp) (by simp) q
@[simp] theorem Chip.acceptFinish_f (c : Chip) (op : Nat) (m : Cmd) (st d : Nat) (ws : List Word) (q : Fld) (ix : List Nat) : (c.acceptFinish op m st d ws).f q ix = c.f q ix :=
  Chip.f_congr (by simp) (by simp) q ix
@[simp] theorem Chip.wReply_get (c : Chip) (w : Writer) (st n : Nat) (q : Reg) : (c.wReply w st n).get q = c.get q :=
  Chip.get_congr (by simp) (by simp) q
@[simp] theorem Chip.wReply_f (c : Chip) (w : Writer) (st n : Nat) (q : Fld) (ix : List Nat) : (c.wReply w st n).f q ix = c.f q ix :=
  Chip.f_congr (by simp) (by simp) q ix
@[simp] theorem Chip.store_get (c : Chip) (a : Nat) (bs : List Byte) (q : Reg) : (c.store a bs).get q = c.get q :=
  Chip.get_congr (by simp) (by simp) q
@[simp] theorem Chip.store_f (c : Chip) (a : Nat) (bs : List Byte) (q : Fld) (ix : List Nat) : (c.store a bs).f q ix = c.f q ix :=
  Chip.f_congr (by simp) (by simp) q ix

end Sys2Proof.Machine
end

