-- ==== Sys2Proof/Laws/Commands.lean ====
section
/-!
SUPPORT. Sys2Proof/Laws/Commands.lean: what receiving a host command comes to once its checks have passed, and what a
reply leaves sent.
-/

namespace Sys2Proof.Machine

/-- The MP runs the body of a command it takes at once. -/
theorem mp_runs {op : Nat} {m : Cmd} {meas : List Int} {body : Chip → Chip} {s : State} {c' : Chip}
    (h : MpTakes s.chip op m c') :
    onHost m s (fun c => c.mpReceive op m meas body) = .next { s with chip := body c' } := by
  obtain ⟨⟨h1, h2, h3⟩, h4, h5, a, h6, rfl⟩ := h
  simp [onHost, onUnits, onChip, tentOk, h1, h2, Chip.mpReceive, h3, h4, h5, h6]

/-- The hardware path runs the body of a command that passes the checks. -/
theorem hw_runs {op : Nat} {m : Cmd} {body : Chip → Chip} {s : State} (h : Passes4 s.chip op m) :
    onHost m s (fun c => c.hwReceive op m body) = .next { s with chip := body s.chip } := by
  obtain ⟨h1, h2, h3⟩ := h
  simp [onHost, onUnits, onChip, tentOk, h1, h2, Chip.hwReceive, h3]

/-- A register write that is admitted does what the register does, and is answered. -/
theorem reg_runs {w : Writer} {r : Reg} {x : Word} {body : Chip → Nat × Chip} {s : State} (h : RegAdmits s.chip w r x) :
    onReg w r x s body =
      .next { s with chip := (body s.chip).2.wReply w (body s.chip).1 r.name.desc.words } := by
  obtain ⟨h1, h2, h3, h4⟩ := h
  simp [onReg, onUnits, onChip, h1, h2, h3, Chip.regWrite, h4]

/-- A thread instruction that issues does what its row's meaning does. -/
theorem thread_runs {h : Hart} {i : Instr} {s : State} {body : Chip → Chip} {release : Bool}
    {touch : Chip → Option Touch} {d : Chip} (hi : Issues s.chip h i release (touch s.chip) d) :
    onThread h i s body release touch = .next { s with chip := body d } := by
  obtain ⟨h1, h2, h3, h4, h5, h6, w, fill, need, a, e1, e2, e3, e4, rfl⟩ := hi
  have e2' : (decodeThread h w).isNone = false := by cases hd : decodeThread h w <;> simp_all
  have h6' : ¬ (release = true ∧ (s.chip.thread h).storing false = true) := fun ⟨x, y⟩ => by
    rw [h6 x] at y; exact Bool.noConfusion y
  simp only [onThread, onUnits, onChip, h1, if_true, e1, Chip.issue, h2, h3, h4, h5, e3, e2', h6', Chip.charged, e4]
  simp
  all_goals cases fill <;> rfl

/-- Nothing the device has sent is taken back. -/
theorem Chip.out_sent (c : Chip) (x : Out) : Sent c (c.out x) x := by
  unfold Chip.out Chip.pump Sent
  dsimp only
  split
  · exact ⟨[], _, by simp; rfl⟩
  · exact ⟨[], [], by simp⟩

theorem Chip.wReply_told (c : Chip) (w : Writer) (n : Nat) : Told c (c.wReply w Status.ok n) w Status.ok n := by
  cases w with
  | thread h => trivial
  | host t tag => exact c.out_sent _

theorem Chip.reply_sent (c : Chip) (b : Bool) (r : Reply) (h : ¬ (b = true ∧ r.final = true ∧ r.status = 0)) :
    Sent c (c.reply b r) (.reply r) := by
  have : ¬ (b ∧ r.final ∧ r.status = 0) := h
  simp only [Chip.reply, this, if_false]
  exact c.out_sent _

theorem Chip.finish_answered (c : Chip) (op : Nat) (m : Cmd) (st d : Nat) (ws : List Word) :
    Answered c (c.finish op m st d ws) op m st d ws := by
  by_cases h : m.silent = true ∧ st = 0
  · exact .inl h
  · refine .inr ?_
    unfold Chip.finish
    exact Chip.reply_sent _ _ _ (by simpa using h)

/-- What was sent before a later reply stays sent. -/
theorem Sent.mono {a b c : Chip} {o : Out} (h : Sent b c o) (hx : ∃ x, b.outs = a.outs ++ x) : Sent a c o := by
  obtain ⟨p, q, e⟩ := h
  obtain ⟨x, hx⟩ := hx
  exact ⟨x ++ p, q, by simp [e, hx]⟩

theorem Answered.mono {a b c : Chip} {op : Nat} {m : Cmd} {st d : Nat} {ws : List Word}
    (h : Answered b c op m st d ws) (hx : ∃ x, b.outs = a.outs ++ x) : Answered a c op m st d ws :=
  h.imp id fun h => h.mono hx

theorem Chip.out_grows (c : Chip) (x : Out) : ∃ y, (c.out x).outs = c.outs ++ y := by
  obtain ⟨a, b, e⟩ := c.out_sent x
  exact ⟨a ++ x :: b, by simp [e]⟩

theorem Chip.reply_grows (c : Chip) (b : Bool) (r : Reply) : ∃ x, (c.reply b r).outs = c.outs ++ x := by
  unfold Chip.reply
  split
  · exact ⟨[], by simp⟩
  · exact c.out_grows _

theorem Chip.accept_grows (c : Chip) (op : Nat) (m : Cmd) : ∃ x, (c.accept op m).outs = c.outs ++ x := by
  unfold Chip.accept
  exact Chip.reply_grows _ _ _

theorem Chip.finish_grows (c : Chip) (op : Nat) (m : Cmd) (st d : Nat) (ws : List Word) :
    ∃ x, (c.finish op m st d ws).outs = c.outs ++ x := by
  unfold Chip.finish
  exact Chip.reply_grows _ _ _

theorem Chip.acceptFinish_answered (c : Chip) (op : Nat) (m : Cmd) (st d : Nat) (ws : List Word) :
    Answered c (c.acceptFinish op m st d ws) op m st d ws :=
  (Chip.finish_answered _ op m st d ws).mono (c.accept_grows op m)

/-- The accepted reply of a long command is sent, silent or not. -/
theorem Chip.accept_sent (c : Chip) (op : Nat) (m : Cmd) :
    Sent c (c.accept op m)
      (.reply { op := op, tent := m.tent, tag := m.tag, status := Status.accepted, final := false }) := by
  unfold Chip.accept
  exact Chip.reply_sent _ _ _ (by simp)

end Sys2Proof.Machine
end

