-- ==== Sys2Proof/Laws/Memory.lean ====
section
/-!
SUPPORT. Sys2Proof/Laws/Memory.lean: reading after writing memory, and every memory operation keeps its canonical form.
-/

namespace Sys2Proof.Machine

/-! ### Reading after writing -/

theorem Mem.read_low (m : List Host.Cell) (lo x : Nat) (h : Mem.wfFrom lo m = true) (hx : x < lo) :
    Mem.read m x = memDefault := by
  induction m generalizing lo with
  | nil => rfl
  | cons p t ih =>
    obtain ⟨a, b⟩ := p
    simp only [Mem.wfFrom, Bool.and_eq_true, decide_eq_true_eq] at h
    simp only [Mem.read]
    rw [if_neg (by omega)]
    exact ih (a + 1) h.2 (by omega)

theorem Mem.read_write_from (m : List Host.Cell) (lo x y : Nat) (b : Byte) (h : Mem.wfFrom lo m = true) :
    Mem.read (Mem.write m x b) y = if y = x then b else Mem.read m y := by
  induction m generalizing lo with
  | nil =>
    simp only [Mem.write]
    by_cases hb : b = memDefault
    · simp [hb, Mem.read]
    · by_cases hy : y = x
      · simp [hb, Mem.read, hy]
      · simp [hb, Mem.read, hy, Ne.symm hy]
  | cons p t ih =>
    obtain ⟨a, b'⟩ := p
    simp only [Mem.wfFrom, Bool.and_eq_true, decide_eq_true_eq] at h
    simp only [Mem.write]
    by_cases h1 : x < a
    · rw [if_pos h1]
      by_cases hb : b = memDefault
      · rw [if_pos hb]
        by_cases hy : y = x
        · rw [if_pos hy, hy, hb]
          simp only [Mem.read]
          rw [if_neg (by omega)]
          exact Mem.read_low t (a + 1) x h.2 (by omega)
        · rw [if_neg hy]
      · rw [if_neg hb]
        simp only [Mem.read]
        by_cases hy : y = x
        · rw [if_pos hy.symm, if_pos hy]
        · rw [if_neg (Ne.symm hy), if_neg hy]
    · rw [if_neg h1]
      by_cases h2 : x = a
      · subst h2
        rw [if_pos rfl]
        by_cases hb : b = memDefault
        · rw [if_pos hb]
          by_cases hy : y = x
          · rw [if_pos hy, hy, hb]
            exact Mem.read_low t (x + 1) x h.2 (by omega)
          · rw [if_neg hy]
            simp only [Mem.read]
            rw [if_neg (Ne.symm hy)]
        · rw [if_neg hb]
          simp only [Mem.read]
          by_cases hy : y = x
          · rw [if_pos hy.symm, if_pos hy]
          · rw [if_neg (Ne.symm hy), if_neg hy, if_neg (Ne.symm hy)]
      · rw [if_neg h2]
        simp only [Mem.read]
        rw [ih (a + 1) h.2]
        by_cases hy : y = x
        · rw [if_neg (by omega)]
          simp [hy]
        · simp [hy]

/-- A byte reads as it was last written, and every other byte as before. -/
theorem Chip.byte_setByte (c : Chip) (x y : Nat) (b : Byte) (h : Memory.wf c.mem = true) :
    (c.setByte x b).byte y = if y = x then b else c.byte y := Mem.read_write_from c.mem 0 x y b h

/-! ### The canonical form -/

theorem Mem.wfFrom_le (m : List Host.Cell) (lo lo' : Nat) (hl : lo' ≤ lo) (h : Mem.wfFrom lo m = true) :
    Mem.wfFrom lo' m = true := by
  cases m with
  | nil => rfl
  | cons p t =>
    simp only [Mem.wfFrom, Bool.and_eq_true, decide_eq_true_eq] at h ⊢
    exact ⟨⟨by omega, h.1.2⟩, h.2⟩

theorem Mem.wfFrom_write (m : List Host.Cell) (lo x : Nat) (b : Byte) (hx : lo ≤ x) (h : Mem.wfFrom lo m = true) :
    Mem.wfFrom lo (Mem.write m x b) = true := by
  induction m generalizing lo with
  | nil => simp only [Mem.write]; split <;> simp_all [Mem.wfFrom]
  | cons p t ih =>
    obtain ⟨a, b'⟩ := p
    have h' := h
    simp only [Mem.wfFrom, Bool.and_eq_true, decide_eq_true_eq] at h
    simp only [Mem.write]
    split
    · split
      · exact h'
      · simp only [Mem.wfFrom, Bool.and_eq_true, decide_eq_true_eq]
        exact ⟨⟨hx, ‹_›⟩, ⟨by omega, h.1.2⟩, h.2⟩
    · split
      · split
        · exact Mem.wfFrom_le t (a + 1) lo (by omega) h.2
        · simp only [Mem.wfFrom, Bool.and_eq_true, decide_eq_true_eq]
          exact ⟨⟨hx, ‹_›⟩, Mem.wfFrom_le t (a + 1) (x + 1) (by omega) h.2⟩
      · simp only [Mem.wfFrom, Bool.and_eq_true, decide_eq_true_eq]
        exact ⟨h.1, ih (a + 1) (by omega) h.2⟩

theorem Mem.wfFrom_filter (m : List Host.Cell) (lo : Nat) (p : Host.Cell → Bool) (h : Mem.wfFrom lo m = true) :
    Mem.wfFrom lo (m.filter p) = true := by
  induction m generalizing lo with
  | nil => rfl
  | cons q t ih =>
    obtain ⟨a, b⟩ := q
    simp only [Mem.wfFrom, Bool.and_eq_true, decide_eq_true_eq] at h
    simp only [List.filter]
    split
    · simp only [Mem.wfFrom, Bool.and_eq_true, decide_eq_true_eq]
      exact ⟨h.1, ih (a + 1) h.2⟩
    · exact ih lo (Mem.wfFrom_le t (a + 1) lo (by omega) h.2)

theorem Memory.wf_setByte (c : Chip) (a : Nat) (b : Byte) (h : Memory.wf c.mem = true) :
    Memory.wf (c.setByte a b).mem = true := Mem.wfFrom_write c.mem 0 a b (Nat.zero_le a) h

theorem Memory.wf_store (bs : List Byte) (c : Chip) (a : Nat) (h : Memory.wf c.mem = true) :
    Memory.wf (c.store a bs).mem = true := by
  induction bs generalizing c a with
  | nil => exact h
  | cons b bs ih => exact ih _ _ (Memory.wf_setByte c a b h)

theorem Memory.wf_zeroStore (c : Chip) (i : Nat) (h : Memory.wf c.mem = true) :
    Memory.wf (c.zeroStore i).mem = true := Mem.wfFrom_filter c.mem 0 _ h

theorem Memory.wf_reset : Memory.wf State.reset.chip.mem = true := rfl

/-- A byte outside the range stored to reads as before. -/
theorem Chip.byte_store_other (bs : List Byte) (c : Chip) (a x : Nat) (h : Memory.wf c.mem = true)
    (hx : x < a ∨ a + bs.length ≤ x) : (c.store a bs).byte x = c.byte x := by
  induction bs generalizing c a with
  | nil => rfl
  | cons b bs ih =>
    simp only [List.length_cons] at hx
    show ((c.setByte a b).store (a + 1) bs).byte x = _
    rw [ih _ _ (Memory.wf_setByte c a b h) (by omega), Chip.byte_setByte c a x b h, if_neg (by omega)]

end Sys2Proof.Machine
end

