-- ==== Sys2Proof/Tests/Slice0.lean ====
section
/-!
SUPPORT. Sys2Proof/Tests/Slice0.lean: ill-formed commands that WellFormed refuses, words decoded as file 10 of spec/ writes them,
worked examples of spec/, and for each statement states that meet its hypotheses.
-/

namespace Sys2Proof.Tests

set_option Elab.async false

open Sys2Proof.Machine

/-! ### States and commands -/

/-- A device in SERVICE with the registers listed. -/
def on (regs : Tab Reg Word := []) : State := { chip := { device := .service, regs := regs } }

/-- A device in SERVICE with the registers listed and what `f` sets. -/
def onWith (regs : Tab Reg Word) (f : Chip → Chip) : State := { chip := f { device := .service, regs := regs } }

def reg (n : RegName) (idx : List Nat) (x : Word) : Reg × Word := ({ name := n, idx := idx }, x)

/-- Every quadrant quarter with credits for its GDDR7 channels. -/
def granted : Tab Reg Word := (List.range 4).map fun q => reg .budGroupState [48 + q] 20

/-- Tent 0 as a host. -/
def host : Writer := .host 0 0

def cmd (p : Word := 0) (ws : List Word := []) : Cmd := { tent := 0, param := p, words := ws }

/-! ### What the premises of the statements compute to -/

/-- The device as the MP takes a command. -/
def taken (c : Chip) (m : Cmd) : Chip := ((c.spend .mp m.tent mpSlice).map fun a => a.mpTaken m.tent).getD c

def takeOk (c : Chip) (op : Nat) (m : Cmd) : Bool :=
  decide (m.tent < 64) && c.powered && (c.checks op m).isNone && (c.mpQueue m.tent).isEmpty &&
    c.boot.switching.isNone && (c.spend .mp m.tent mpSlice).isSome

theorem mpTakes {c : Chip} {op : Nat} {m : Cmd} (h : takeOk c op m = true) : MpTakes c op m (taken c m) := by
  simp only [takeOk, Bool.and_eq_true, decide_eq_true_eq, Option.isNone_iff_eq_none, List.isEmpty_iff,
    Option.isSome_iff_exists] at h
  obtain ⟨⟨⟨⟨⟨h1, h2⟩, h3⟩, h4⟩, h5⟩, a, ha⟩ := h
  exact ⟨⟨h1, h2, h3⟩, h4, h5, a, ha, by simp [taken, ha]⟩

/-- The device as a thread's instruction begins. -/
def issued (c : Chip) (h : Hart) (touch : Option Touch) : Chip :=
  match c.fetch h with
  | .word _ fill need =>
    let a := (c.admitCharges (.core h.i) ((c.siteTent h.i, .core h.i, 1) :: (need ++ c.touchCharges h touch)) c).1
    let b := match fill with
      | some line => a.fillLine h.i ((a.thread h).pc / 64 * 64) line
      | none => a
    b.setCore h.i { b.core h.i with last := h.t }
  | _ => c

def issueOk (c : Chip) (h : Hart) (i : Instr) (release : Bool) (touch : Option Touch) : Bool :=
  h.ok && c.powered && decide ((c.thread h).state = 1) && c.turn h && (c.thread h).late.isNone &&
  (!release || !(c.thread h).storing false) &&
  match encodeThread i, c.fetch h with
  | some w, .word x _ need => decide (x = w) && (decodeThread h w).isSome &&
    (c.admitCharges (.core h.i) ((c.siteTent h.i, .core h.i, 1) :: (need ++ c.touchCharges h touch)) c).2
  | _, _ => false

theorem issues {c : Chip} {h : Hart} {i : Instr} {release : Bool} {touch : Option Touch}
    (ok : issueOk c h i release touch = true) : Issues c h i release touch (issued c h touch) := by
  unfold issueOk at ok
  split at ok
  · rename_i w x fill need he hf
    simp only [Bool.and_eq_true, decide_eq_true_eq, Option.isNone_iff_eq_none, Bool.or_eq_true,
      Bool.not_eq_true'] at ok
    obtain ⟨⟨⟨⟨⟨⟨h1, h2⟩, h3⟩, h4⟩, h5⟩, h6⟩, ⟨h7, h8⟩, h9⟩ := ok
    subst h7
    refine ⟨h1, h2, h3, h4, h5, fun hr => ?_, x, fill, need, _, he, h8, hf, Prod.ext rfl h9, ?_⟩
    · rcases h6 with h6 | h6
      · simp [h6] at hr
      · exact h6
    · unfold issued
      rw [hf]
      all_goals rfl
  · simp at ok

/-- Thread 0 of logical site 0 is READY at the start of its store, where the words lie; its registers. -/
def thread0 (ws : List (BitVec 32)) (x : Tab Nat Word := []) : State :=
  { chip := ({ device := .service, cores := [(0, { threads := [(0, { state := 1, x := x, pc := storeBase 0 })] })] } :
      Chip).store (storeBase 0) (ws.flatMap fun w => leBytes 4 w.toNat) }

/-- The same on a site that holds Tent 0's set of slot 0, active, with array context 0 open. -/
def site0 (ws : List (BitVec 32)) (x : Tab Nat Word := []) (steps : List StepItem := []) (run : Option StepRun := none) :
    State :=
  let c := (thread0 ws x).chip
  { chip := { c with
      regs := [reg .veldLmap [0, 0] 0x80000000, reg .siteId [0, 0] 0, reg .siteAstate [0, 0] 0x102,
        reg .wsetSlot [0, 0] 0x100000004]
      arrs := [((0, 0), { epoch := 1 })]
      cores := c.cores.map fun p => (p.1, { p.2 with ctx := [(0, { live := true })], steps := steps, run := run }) } }

def h0 : Hart := ⟨0, 0⟩

/-- A sparse table that lists no register of a name answers the default for each. -/
theorem tab_absent {c : Tab Reg Word} {r : Reg} {d : Word} (h : c.all (fun p => p.1.name != r.name) = true) :
    Tab.get c r d = d := by
  induction c with
  | nil => rfl
  | cons p t ih =>
    simp only [List.all_cons, Bool.and_eq_true, bne_iff_ne] at h
    have : r ≠ p.1 := fun e => h.1 (by rw [e])
    obtain ⟨k, a⟩ := p
    simp only [Tab.get]
    rw [if_neg this]
    exact ih h.2

/-- No site has been written to a Tent: no rank of a Tent but 0 is taken. -/
theorem rankFree {c : Chip} {o : Nat} (rank first n : Nat)
    (h : (!c.loaded && c.regs.all (fun p => p.1.name != .tentSite) && o != 0) = true) :
    c.rankTaken o rank first n = false := by
  simp only [Bool.and_eq_true, Bool.not_eq_true', bne_iff_ne] at h
  obtain ⟨⟨h1, h2⟩, h3⟩ := h
  have : ∀ j, j < 27648 → c.f Fld.tentSite_owner [j] = 0 := fun j hj => by
    unfold Chip.f Chip.get
    rw [tab_absent h2, h1]
    simp only [fldReg, Fld.tentSite_owner, Reg.resetValue, bitsOf, BitVec.toNat_ofNat, if_false, Bool.false_eq_true]
    omega
  simp only [Chip.rankTaken, List.any_eq_false, List.mem_range, Bool.and_eq_true, beq_iff_eq]
  rintro j hj ⟨⟨_, ho⟩, _⟩
  rw [this j hj] at ho
  exact h3 ho.symm

theorem noneOf {α : Type} {l : List α} {p : α → Bool} (h : l.all (fun x => !p x) = true) : ∀ x, x ∈ l → p x = false := by
  simpa using h

theorem pairOf {α β : Type} {p : α × β} {a : α} (h : p.1 = a) : p = (a, p.2) := Prod.ext h rfl

theorem pairOf2 {α β : Type} {p : α × β} {b : β} (h : p.2 = b) : p = (p.1, b) := Prod.ext rfl h

theorem noneIn {α : Type} {l : List α} {p : α → Prop} (h : l = []) : ∀ x, x ∈ l → p x := by
  subst h; simp

theorem noneSome {α : Type} {o : Option α} {p : α → Prop} (h : o = none) : ∀ a, o = some a → p a := by
  subst h; simp

/-- A frame to a module. -/
def frameTo (dest kind : Nat) (addr : Word := 0) (length : Nat := 0) (payload : List Byte := []) : PassFrame :=
  ⟨dest, 0, 0, kind, 0, length, addr, 0, 0, payload, true⟩

theorem noFrames {c : Chip} (h : c.passes = {}) : ∀ k, c.framesFor k = false := by
  intro k; simp [Chip.framesFor, h]

/-- An Ethernet frame. -/
def ether (ty : Nat) (payload : List Byte) : List Byte := List.replicate 12 0 ++ beBytes 2 ty ++ payload

/-- A second in which nothing is drawn. -/
def quiet : CairnNow := ⟨1, 0, 0, 0, 0⟩

/-- The Cairn of a device in SERVICE. -/
def withCairn (k : Cairn) : State := { chip := { device := .service }, cairn := k }

/-- What the bytes of a flit say before its CRC. -/
def flitFields (bs : List Byte) : Flit :=
  let n (k len : Nat) : Nat := leNat ((bs.drop k).take len)
  { ftype := bitsOf (n 0 2) 15 14, cls := bitsOf (n 0 2) 13 12, seq := bitsOf (n 0 2) 11 0,
    ack := bitsOf (n 2 2) 11 0, credLo := n 4 2, credHi := n 6 2, payload := (bs.drop 9).take (min (n 8 1) 243) }

/-- The bytes of a flit are received as the flit: their CRC holds. -/
theorem flitRead {f : Flit} (h1 : f.body.length = 252) (h2 : flitFields f.toBytes = f) :
    Flit.ofBytes f.toBytes = some f := by
  have hc : crc32 f.body < 2 ^ 32 := BitVec.isLt _
  have h : leNat (((f.toBytes).drop 252).take 4) = crc32 f.body := by
    have : (f.toBytes).drop 252 = leBytes 4 (crc32 f.body) := by
      unfold Flit.toBytes
      rw [← h1]
      exact List.drop_left
    rw [this]
    simp only [leBytes, List.take, leNat, BitVec.toNat_ofNat]
    omega
  have ht : (f.toBytes).take 252 = f.body := by
    unfold Flit.toBytes
    rw [← h1]
    exact List.take_left
  have hl : (f.toBytes).length = 256 := by simp [Flit.toBytes, h1, leBytes]
  have e : Flit.ofBytes f.toBytes =
      if (f.toBytes).length ≠ 256 ∨ leNat (((f.toBytes).drop 252).take 4) ≠ crc32 ((f.toBytes).take 252) then none
      else some (flitFields f.toBytes) := rfl
  rw [e, h, ht, h2]
  simp [hl]

def nexts (o : Outcome) : Bool :=
  match o with
  | .next _ => true
  | _ => false

def afterOf (o : Outcome) (s : State) : State :=
  match o with
  | .next t => t
  | _ => s

theorem nextOf {o : Outcome} (s : State) (h : nexts o = true) : o = .next (afterOf o s) := by
  cases o <;> simp_all [nexts, afterOf]

/-- A tile of zeros. -/
def tile0 : Tile := { bytes := [], wmode := 0, sw := 0 }

/-- A descriptor of Dale 0 on bank 0: one vector in, one out, absolute tile. -/
def job0 : DaleJob :=
  { tent := 0, desc := [0, 0x1000, 0x2000, 0x3000, 0x4000, 0x5000, 0x100010000, 0x6000, 1, 0, 0, 0, 0x9000, 0, 0, 0] }

def run0 : DaleRun := { job := job0, phase := .prepare, rows := 1 }

/-- Dale 0 as given, on a lit bank and locked. -/
def withDale (d : Dale) (f : Chip → Chip := id) : State :=
  onWith (granted ++ [reg .daleState [0, 0] 0x80000000, reg .valeBank [0, 0] 0x30]) fun c => f { c with dales := [(0, d)] }

/-- Veld 0 as given. -/
def withVeld (v : Veld) (f : Chip → Chip := id) (regs : Tab Reg Word := []) : State :=
  onWith ([reg .veldImgBase [0] 0x80000000, reg .siteWrites [0, 5] 0, reg .veldLmap [0, 0] 0x80000005] ++ regs)
    fun c => f { c with velds := [(0, v)] }

theorem stuckKept {codes : List Byte} {hot : Bool} {g : List Nat} {st : ProgStep} (h : st.prog.iters ≠ 31) :
    (progIterate codes hot g st).stuck = st.stuck := by
  unfold progIterate
  dsimp only
  split
  · rfl
  · split
    · rfl
    · split
      · exfalso; omega
      · rfl

theorem consOf {α : Type} {l : List α} (h : l ≠ []) : l = l.head h :: l.tail := (List.cons_head_tail h).symm

theorem someOf {o : Option Chip} (h : o.isSome = true) : o = some (o.getD {}) := by
  cases o <;> simp_all

theorem stuckOne {codes : List Byte} {hot : Bool} {g : List Nat} {st : ProgStep} (h : st.prog.iters ≠ 31 ∧ st.stuck = []) :
    ([g].foldl (fun st g => progIterate codes hot g st) st).stuck = [] := by
  rw [List.foldl, List.foldl, stuckKept h.1, h.2]

/-- Site 0 of a Veld is a free spare. -/
theorem spare0 {c : Chip} {n : Nat} (h : (c.f Fld.siteAstate_state [n, 0] == 0 && (c.logicalOf n 0).isNone &&
    (c.prog n 0).isNone && decide (c.f Fld.siteWrites_writes [n, 0] < 100000)) = true) : c.freeSpares n ≠ [] :=
  List.ne_nil_of_mem (List.mem_filter.mpr ⟨by simp, h⟩)

theorem tab_listed {α : Type} (f : Nat → α) (l : List Nat) (k : Nat) (d : α) (h : k ∈ l) :
    Tab.get (l.map fun s => (s, f s)) k d = f k := by
  induction l with
  | nil => cases h
  | cons a t ih =>
    simp only [List.map_cons, Tab.get]
    by_cases e : k = a
    · simp [e]
    · simp [e, ih ((List.mem_cons.mp h).resolve_left e)]

/-- Every site of a Veld but site 5 is being programmed, as `x`. -/
def allBut5 (x : Prog) : Tab Nat Prog := ((List.range 800).filter fun s => s != 5).map fun s => (s, x)

theorem noSpare {c : Chip} {n : Nat} {x : Prog} (h : (c.f Fld.siteAstate_state [n, 5] != 0) = true)
    (hp : (c.veld n).progs = allBut5 x) : c.freeSpares n = [] := by
  refine List.filter_eq_nil_iff.mpr fun s hs => ?_
  by_cases e : s = 5
  · subst e; simp_all
  · have : c.prog n s = some x := by
      unfold Chip.prog
      rw [hp, allBut5, List.map_map]
      exact tab_listed (fun _ => some x) _ s none (by simp_all)
    simp [this]

theorem bytes_length (c : Chip) (a n : Nat) : (c.bytes a n).length = n := by simp [Chip.bytes]

/-- A shard of one site's set in BF16, at `src` of device memory, whose hash is right. -/
def shard0 (c : Chip) : Shard :=
  ⟨0, 0, 1, 0, 0, 0, 0, [], 0, false, 0x10000, 262144, Config.sha3 (c.bytes 0x10000 262144), none⟩

def units0 (c : Chip) (q : Quant) : List (List Byte) × Quant :=
  (decodeShard (shard0 c) (c.bytes 0x10000 262144) q).getD ([], q)

theorem decode0 (c d : Chip) (q : Quant) (h : d.mem = c.mem) :
    decodeShard (shard0 c) (d.bytes 0x10000 262144) q = some ((units0 c q).1, (units0 c q).2) := by
  have hb : d.bytes 0x10000 262144 = c.bytes 0x10000 262144 := by
    simp only [Chip.bytes, Chip.byte, h]
  rw [hb]
  have : (decodeShard (shard0 c) (c.bytes 0x10000 262144) q).isSome = true := by
    simp [decodeShard, shard0, payloadUnit, bytes_length]
  unfold units0
  revert this
  cases decodeShard (shard0 c) (c.bytes 0x10000 262144) q <;> simp

/-! ### States that meet the hypotheses of the statements -/

/-- Obligations.StepRunsTheFront: states that meet its hypotheses. -/
theorem test_step_runs_the_front_hypotheses :
    (∃ (s : State) (c : Instr) (rest : List Instr), s.pending = c :: rest) ∧
    (∃ (s : State), s.pending = []) := by
  refine ⟨?_, ?_⟩
  · exact ⟨{ pending := [.idleAck, .retrain] }, .idleAck, [.retrain], by decide +kernel⟩
  · exact ⟨on, by decide +kernel⟩

/-- Obligations.EveryCommandCompletes: states that meet its hypotheses. -/
theorem test_every_command_completes_hypotheses :
    (∃ (i : Instr), i.wf = true) :=
  ⟨.sourceLocked 127, by decide +kernel⟩

/-- Obligations.ResetIsAsTabled: states that meet its hypotheses. -/
theorem test_reset_is_as_tabled_hypotheses :
    (∃ (t : Nat) (k : Nat), ¬ (t = 0 ∧ k = 0)) ∧
    (∃ (t : Nat), t ≠ 0) := by
  refine ⟨?_, ?_⟩
  · exact ⟨63, 63, by decide +kernel⟩
  · exact ⟨63, by decide +kernel⟩

/-- Obligations.ThreadWordsRoundTrip: states that meet its hypotheses. -/
theorem test_thread_words_round_trip_hypotheses :
    (∃ (i : Instr) (w : BitVec 32), i.wf = true ∧ encodeThread i = some w) :=
  ⟨.jal h0 31 0x100000, 0x800007E6, by decide +kernel⟩

/-- Obligations.ArbiterServesInOrder: states that meet its hypotheses. -/
theorem test_arbiter_serves_in_order_hypotheses :
    (∃ (a : Asker) (s : State), askerExists a = true ∧ s.chip.neverGranted (askerGroup a) (askerStep a) = false ∧ (∀
      r, r ∈ s.chip.bud.requests → r.who ≠ a)) ∧
    (∃ (s : State) (pre : List CreditReq) (r : CreditReq) (post : List CreditReq), s.chip.bud.requests = pre ++ r ::
      post ∧ (∀ x, x ∈ pre → s.chip.fits x = false ∧ x.passed < 8) ∧ s.chip.fits r = true) ∧
    (∃ (s : State) (pre : List CreditReq) (r : CreditReq) (post : List CreditReq), s.chip.bud.requests = pre ++ r ::
      post ∧ (∀ x, x ∈ pre → s.chip.fits x = false) ∧ s.chip.fits r = false ∧ 8 ≤ r.passed) ∧
    (∃ (s : State), (∀ x, x ∈ s.chip.bud.requests → s.chip.fits x = false)) := by
  refine ⟨?_, ?_, ?_, ?_⟩
  · exact ⟨.dale 143, on, by decide +kernel, by decide +kernel, (noneIn rfl)⟩
  · exact ⟨onWith [reg .budGroupCfg [0] 0] fun c =>
    { c with bud := { c.bud with requests := [{ who := .dale 0, group := 0, step := 4, passed := 7 },
                                 { who := .dale 143, group := 11, step := 4 }] } },
    [{ who := .dale 0, group := 0, step := 4, passed := 7 }], { who := .dale 143, group := 11, step := 4 }, [], by
    decide +kernel, (by simp; decide +kernel), by decide +kernel⟩
  · exact ⟨onWith [reg .budGroupCfg [0] 0] fun c =>
    { c with bud := { c.bud with requests := [{ who := .dale 0, group := 0, step := 4, passed := 8 }] } }, [],
    { who := .dale 0, group := 0, step := 4, passed := 8 }, [], by decide +kernel, (noneIn rfl), by decide +kernel⟩
  · exact ⟨onWith [reg .budGroupCfg [0] 0] fun c =>
    { c with bud := { c.bud with requests := [{ who := .dale 0, group := 0, step := 4, passed := 8 }] } },
    (noneOf (by decide +kernel))⟩

/-- Obligations.LoweredBudgetStopsGrants: states that meet its hypotheses. -/
theorem test_lowered_budget_stops_grants_hypotheses :
    (∃ (w : Writer) (x : Word) (s : State) (n : _), RegAdmits s.chip w { name := .budCredBudget } x ∧ n = bitsOf
      x.toNat 10 0 ∧ 400 ≤ n ∧ n ≤ 1500 ∧ s.chip.floorsAll ≤ n ∧ n < s.chip.grantedAll) ∧
    (∃ (s : State), s.chip.f Fld.budCredBudget_budget ≤ s.chip.grantedAll ∧ (∀ r, r ∈ s.chip.bud.requests → 0 <
      r.step)) := by
  refine ⟨?_, ?_⟩
  · exact ⟨host, 1499, on [reg .budGroupState [0] 1500], _, ⟨by decide +kernel, by decide +kernel, by decide +kernel,
    by decide +kernel⟩, rfl, by decide +kernel⟩
  · exact ⟨on [reg .budGroupState [0] 1200], by decide +kernel, (noneIn rfl)⟩

/-- Obligations.PitchesBoundTheFrame: states that meet its hypotheses. -/
theorem test_pitches_bound_the_frame_hypotheses :
    (∃ (w : Writer) (x : Word) (s : State) (t : _) (k : _) (a : _) (c1 : Chip), writerOk w = true ∧ s.chip.powered =
      true ∧ regAt a = some { name := .budPitch, idx := [t, k] } ∧ regBase ≤ a ∧ a < regBase + 2 ^ 32 ∧
      s.chip.mayWrite (s.chip.writerTent w) { name := .budPitch, idx := [t, k] } x = true ∧ s.chip.regSet
      { name := .budPitch, idx := [t, k] } [x] = (Status.ok, c1)) ∧
    (∃ (s : State) (t : _) (k : _) (n : _), t < 64 ∧ k < 8 ∧ n = s.chip.f Fld.budPitch_pitch [t, k]) ∧
    (∃ (g : Gate) (t : _) (s : State), gateExists g = true ∧ t < 64 ∧ s.chip.pitch t (gateClass g) = 0) := by
  refine ⟨?_, ?_, ?_⟩
  · exact ⟨host, 0xFFFFF, on, 63, 7, 263882791723000, _, by decide +kernel, by decide +kernel, by decide +kernel, by
    decide +kernel, by decide +kernel, by decide +kernel, pairOf (by decide +kernel)⟩
  · exact ⟨on, 63, 7, _, by decide +kernel, by decide +kernel, rfl⟩
  · exact ⟨.dale 143, 63, on, by decide +kernel⟩

/-- Obligations.CairnViewIsReadOnly: states that meet its hypotheses. -/
theorem test_cairn_view_is_read_only_hypotheses :
    (∃ (m : Cmd) (s : State) (r : _), Passes4 s.chip 0x0E01 m ∧ m.p < 2 ^ 48 ∧ m.p % 8 = 0 ∧ regAt m.p = some r ∧
      r.name.block = .cairn) ∧
    (∃ (m : Cmd) (s : State) (r : _), Passes4 s.chip 0x0E02 m ∧ regParamBad m.p = false ∧ m.words.length = regCount
      m.p ∧ regAt (bitsOf m.p 47 0) = some r ∧ r.name.block = .cairn) ∧
    (∃ (h : Hart) (a : _) (r : _), regAt a = some r ∧ r.name.block = .cairn ∧ writerOk (.thread h) = true ∧ a <
      regBase + 2 ^ 32) ∧
    (∃ (a : _) (bs : List Byte) (r : _), regAt a = some r ∧ r.name.block = .cairn ∧ a % 8 = 0 ∧ bs.length ≤ 8) := by
  refine ⟨?_, ?_, ?_, ?_⟩
  · exact ⟨cmd 263883595977208, on, ⟨.cairnTent, [63], 0⟩, ⟨by decide +kernel, by decide +kernel, by decide +kernel⟩,
    by decide +kernel⟩
  · exact ⟨cmd 263883595977208 [0], on, ⟨.cairnTent, [63], 0⟩, ⟨by decide +kernel, by decide +kernel, by
    decide +kernel⟩, by decide +kernel⟩
  · exact ⟨h0, 263883595977208, ⟨.cairnTent, [63], 0⟩, by decide +kernel⟩
  · exact ⟨263883595977208, [1, 2], ⟨.cairnTent, [63], 0⟩, by decide +kernel⟩

/-- Obligations.ClearsNeverEraseNewerEvents: states that meet its hypotheses. -/
theorem test_clears_never_erase_newer_events_hypotheses :
    (∃ (c : Chip) (r : Reg) (x : Word) (n : _), r.name.desc.tc = true ∧ n = bitsOf (c.get r).toNat 7 0 ∧ n < 255 ∧
      bitOf x.toNat 31 = true ∧ bitsOf x.toNat 7 0 = n) ∧
    (∃ (c : Chip) (r : Reg) (x : Word), r.name.desc.tc = true ∧ r ∉ c.marks ∧ bitOf x.toNat 31 = true ∧ bitsOf
      x.toNat 7 0 = bitsOf (c.get r).toNat 7 0) ∧
    (∃ (c : Chip) (r : Reg), r ∈ c.marks) ∧
    (∃ (r : Reg), r.name.desc.tc = true) ∧
    (∃ (w : Writer) (a : _) (x : Word) (s : State) (r : _), regAt a = some r ∧ r.name.desc.tc = true ∧ RegAdmits
      s.chip w r x) := by
  refine ⟨?_, ?_, ?_, ?_, ?_⟩
  · exact ⟨(on [reg .budEvWait [63] 0x1FE]).chip, ⟨.budEvWait, [63], 0⟩, 0x800000FE, _, by decide +kernel, rfl, by
    decide +kernel⟩
  · exact ⟨(on [reg .budEvWait [63] 0x1FE]).chip, ⟨.budEvWait, [63], 0⟩, 0x800000FE, by decide +kernel⟩
  · exact ⟨(onWith [reg .budEvWait [63] 0x1FF] fun c => { c with marks := [⟨.budEvWait, [63], 0⟩] }).chip,
    ⟨.budEvWait, [63], 0⟩, by decide +kernel⟩
  · exact ⟨⟨.budEvWait, [63], 0⟩, by decide +kernel⟩
  · exact ⟨host, 263882791736824, 0x80000000, on, ⟨.budEvWait, [63], 0⟩, by decide +kernel, by decide +kernel, ⟨by
    decide +kernel, by decide +kernel, by decide +kernel, by decide +kernel⟩⟩

/-- Obligations.SysCommandsAnswer: states that meet its hypotheses. -/
theorem test_sys_commands_answer_hypotheses :
    (∃ (m : Cmd) (s : State) (c' : Chip), MpTakes s.chip 0x0101 m c' ∧ m.param = 0) ∧
    (∃ (m : Cmd) (s : State), Passes4 s.chip 0x0102 m) ∧
    (∃ (op : _) (m : Cmd) (s : State), m.tent < 64 ∧ s.chip.powered ∧ opcodes.contains (op % 65536) = false) ∧
    (∃ (s : State), s.chip.powered ∧ s.chip.flag Fld.sysBoot_recovery = false) ∧
    (∃ (m : Cmd) (s : State) (c' : Chip), MpTakes s.chip 0x0C04 m c' ∧ m.stray (2 ^ 48 - 1) = false ∧ m.word 1 < 2 ^
      32 ∧ m.word 2 < 2 ∧ m.word 2 ≠ c'.f Fld.sysState_mpSlot ∧ c'.boot.trial = none ∧ c'.admits m.tent .r m.p
      (m.word 1)) ∧
    (∃ (m : Cmd) (s : State) (c' : Chip), MpTakes s.chip 0x0C05 m c' ∧ m.stray 3 = false ∧ bitsOf m.p 0 0 ≠ c'.f
      Fld.sysState_mpSlot ∧ c'.boot.trial = none) ∧
    (∃ (s : State) (m : _) (b : _), s.chip.powered ∧ s.chip.boot.trial = some (m, b)) := by
  refine ⟨?_, ?_, ?_, ?_, ?_, ?_, ?_⟩
  · exact ⟨cmd, on, _, mpTakes (by decide +kernel), by decide +kernel⟩
  · exact ⟨cmd 5 [1, 2], on, ⟨by decide +kernel, by decide +kernel, by decide +kernel⟩⟩
  · exact ⟨0xFFFF, cmd, on, by decide +kernel⟩
  · exact ⟨on, by decide +kernel⟩
  · exact ⟨cmd 0x1000 [0x100, 1], on, _, mpTakes (by decide +kernel), by decide +kernel⟩
  · exact ⟨cmd 3, on, _, mpTakes (by decide +kernel), by decide +kernel⟩
  · exact ⟨onWith [] fun c => { c with boot := { c.boot with trial := some (cmd, true) } }, cmd, true, by
    decide +kernel⟩

/-- Obligations.TrustCommandsAct: states that meet its hypotheses. -/
theorem test_trust_commands_act_hypotheses :
    (∃ (m : Cmd) (s : State) (c' : Chip), MpTakes s.chip 0x0C02 m c' ∧ m.stray 0x33F = false ∧ m.word 1 < 2 ^ 48 ∧
      Tab.get (c'.tent (bitsOf m.p 5 0)).keys (bitsOf m.p 9 8) [] = [] ∧ c'.admits m.tent .r (m.word 1) 1984) ∧
    (∃ (m : Cmd) (s : State) (c' : Chip), MpTakes s.chip 0x0C03 m c' ∧ m.stray 0x33F = false) ∧
    (∃ (m : Cmd) (s : State) (c' : Chip) (body : _) (rep : _), MpTakes s.chip 0x0C01 m c' ∧ m.stray (2 ^ 48 - 1) =
      false ∧ bitsOf (m.word 1) 63 38 = 0 ∧ c'.flag Fld.sysBoot_idOk = true ∧ (m.tent = 0 ∨ bitsOf (m.word 1) 37 32 =
      m.tent) ∧ c'.admits m.tent .w m.p (bitsOf (m.word 1) 31 0) ∧ body = c'.attestBody (bitsOf (m.word 1) 37 32)
      ((List.range 4).flatMap fun w => leBytes 8 (m.word (w + 2))) ∧ rep = Cbor.putArray [Cbor.putUint 1,
      Cbor.putBytes body, Cbor.putBytes (Config.signs 0 (ascii "GXAT" ++ body)), Cbor.putBytes (Config.signs 1 (ascii
      "GXAT" ++ body))]) := by
  refine ⟨?_, ?_, ?_⟩
  · exact ⟨cmd 0x33F [0xFFFFFF000000 - 0x1000], on, _, mpTakes (by decide +kernel), by decide +kernel⟩
  · exact ⟨cmd 0x33F, on, _, mpTakes (by decide +kernel), by decide +kernel⟩
  · exact ⟨cmd 0x1000 [0x3F00001000, 1, 2, 3, 4], on [reg .sysBoot [] 0x20000000], _, _, _, mpTakes (by
    decide +kernel), by decide +kernel, by decide +kernel, by decide +kernel, by decide +kernel, by decide +kernel,
    rfl, rfl⟩

/-- Obligations.TentActionsChangeState: states that meet its hypotheses. -/
theorem test_tent_actions_change_state_hypotheses :
    (∃ (w : Writer) (t : _) (s : State) (x : Word), x = BitVec.ofNat 64 (2 ^ 31) ∧ RegAdmits s.chip w
      { name := .tentCtl, idx := [t] } x ∧ t ≠ 0 ∧ (s.chip.f Fld.tentCtl_state [t] = 0 ∨ s.chip.f Fld.tentCtl_state
      [t] = 3)) ∧
    (∃ (m : Cmd) (s : State) (c' : Chip), MpTakes s.chip 0x0201 m c' ∧ m.stray 0x33F = false ∧ bitsOf m.p 9 8 = 1 ∧
      bitsOf m.p 5 0 ≠ 0 ∧ (c'.f Fld.tentCtl_state [bitsOf m.p 5 0] = 0 ∨ c'.f Fld.tentCtl_state [bitsOf m.p 5 0] =
      3)) ∧
    (∃ (w : Writer) (t : _) (s : State) (x : Word) (c1 : Chip), x = BitVec.ofNat 64 (2 ^ 30) ∧ RegAdmits s.chip w
      { name := .tentCtl, idx := [t] } x ∧ t ≠ 0 ∧ s.chip.f Fld.tentCtl_state [t] = 1 ∧ c1 = s.chip.setF
      Fld.tentCtl_state [t] 2) ∧
    (∃ (m : Cmd) (s : State) (c' : Chip), MpTakes s.chip 0x0201 m c' ∧ m.stray 0x33F = false ∧ bitsOf m.p 9 8 = 2 ∧
      bitsOf m.p 5 0 ≠ 0 ∧ c'.f Fld.tentCtl_state [bitsOf m.p 5 0] = 1 ∧ (c'.setF Fld.tentCtl_state [bitsOf m.p 5 0]
      2).tentBusy (bitsOf m.p 5 0) = true) ∧
    (∃ (t : _) (s : State), t < 64 ∧ s.chip.f Fld.tentCtl_state [t] = 2 ∧ s.chip.tentBusy t = false) ∧
    (∃ (w : Writer) (t : _) (s : State) (x : Word), x = BitVec.ofNat 64 (2 ^ 29) ∧ RegAdmits s.chip w
      { name := .tentCtl, idx := [t] } x ∧ s.chip.f Fld.tentCtl_state [t] = 3 ∧ s.chip.slotState t 0 = 0 ∧
      s.chip.slotState t 1 = 0) ∧
    (∃ (m : Cmd) (s : State) (c' : Chip), MpTakes s.chip 0x0201 m c' ∧ m.stray 0x33F = false ∧ bitsOf m.p 9 8 = 3 ∧
      c'.f Fld.tentCtl_state [bitsOf m.p 5 0] = 3 ∧ c'.slotState (bitsOf m.p 5 0) 0 = 0 ∧ c'.slotState (bitsOf m.p 5
      0) 1 = 0) := by
  refine ⟨?_, ?_, ?_, ?_, ?_, ?_, ?_⟩
  · exact ⟨host, 63, on, _, rfl, ⟨by decide +kernel, by decide +kernel, by decide +kernel, by decide +kernel⟩, by
    decide +kernel⟩
  · exact ⟨cmd 0x13F, on, _, mpTakes (by decide +kernel), by decide +kernel⟩
  · exact ⟨host, 1, on [reg .tentCtl [1] 1], _, _, rfl, ⟨by decide +kernel, by decide +kernel, by decide +kernel, by
    decide +kernel⟩, by decide +kernel, by decide +kernel, rfl⟩
  · exact ⟨cmd 0x201, onWith [reg .tentCtl [1] 1] fun c =>
    { c with dales := [(0, { queue := [{ tent := 1, desc := [] }] })] }, _, mpTakes (by decide +kernel), by
    decide +kernel⟩
  · exact ⟨0, on [reg .tentCtl [0] 2], by decide +kernel⟩
  · exact ⟨host, 1, on [reg .tentCtl [1] 3], _, rfl, ⟨by decide +kernel, by decide +kernel, by decide +kernel, by
    decide +kernel⟩, by decide +kernel⟩
  · exact ⟨cmd 0x301, on [reg .tentCtl [1] 3], _, mpTakes (by decide +kernel), by decide +kernel⟩

/-- Obligations.AssignmentsTakeEffect: states that meet its hypotheses. -/
theorem test_assignments_take_effect_hypotheses :
    (∃ (w : Writer) (k : _) (x : Word) (s : State), RegAdmits s.chip w { name := .tentDale, idx := [k] } x ∧ bitsOf
      x.toNat 5 0 ≠ s.chip.daleOwner k) ∧
    (∃ (k : _) (o : _) (s : State), k < 144 ∧ (s.chip.dale k).newOwner = some o ∧ o < 64 ∧ s.chip.daleFree k = true) ∧
    (∃ (w : Writer) (i : _) (x : Word) (s : State), RegAdmits s.chip w { name := .tentSite, idx := [i] } x ∧ bitsOf
      x.toNat 14 0 ≤ 27647 ∧ s.chip.rankTaken (bitsOf x.toNat 29 24) (bitsOf x.toNat 14 0) i 1 = false) ∧
    (∃ (i : _) (o : _) (s : State), i < 27648 ∧ (s.chip.core i).newOwner = some o ∧ s.chip.siteFree i = true) ∧
    (∃ (w : Writer) (v : _) (b : _) (x : Word) (s : State), RegAdmits s.chip w { name := .valeBank, idx := [v, b] } x
      ∧ bitsOf x.toNat 29 24 ≠ s.chip.f Fld.valeBank_owner [v, b] ∧ s.chip.f Fld.valeBank_state [v, b] = 0) ∧
    (∃ (w : Writer) (v : _) (b : _) (x : Word) (s : State), RegAdmits s.chip w { name := .valeBank, idx := [v, b] } x
      ∧ bitsOf x.toNat 29 24 ≠ s.chip.f Fld.valeBank_owner [v, b] ∧ s.chip.f Fld.valeBank_state [v, b] ≠ 0 ∧
      (s.chip.bank v b).carries ≠ none) := by
  refine ⟨?_, ?_, ?_, ?_, ?_, ?_⟩
  · exact ⟨host, 143, 5, on, ⟨by decide +kernel, by decide +kernel, by decide +kernel, by decide +kernel⟩, by
    decide +kernel⟩
  · exact ⟨143, 63, onWith [] fun c => { c with dales := [(143, { newOwner := some 63 })] }, by decide +kernel⟩
  · exact ⟨host, 27647, 0x01006BFF, on, ⟨by decide +kernel, by decide +kernel, by decide +kernel, by decide +kernel⟩,
    by decide +kernel, (rankFree _ _ _ (by decide +kernel))⟩
  · exact ⟨27647, 63, onWith [] fun c => { c with cores := [(27647, { newOwner := some 63 })] }, by decide +kernel⟩
  · exact ⟨host, 11, 15, 0x05000000, on, ⟨by decide +kernel, by decide +kernel, by decide +kernel, by
    decide +kernel⟩, by decide +kernel⟩
  · exact ⟨host, 0, 0, 0x05000000, onWith [reg .valeBank [0, 0] 0x10] fun c =>
    { c with banks := [((0, 0), { carries := some 0 })] }, ⟨by decide +kernel, by decide +kernel, by decide +kernel,
    by decide +kernel⟩, by decide +kernel⟩

/-- Obligations.TentTablesAreWritten: states that meet its hypotheses. -/
theorem test_tent_tables_are_written_hypotheses :
    (∃ (m : Cmd) (s : State) (c' : Chip) (ks : _), MpTakes s.chip 0x0202 m c' ∧ m.stray 0x3F = false ∧ bitsOf (m.word
      3) 63 16 = 0 ∧ ks = (List.range 144).filter (fun k => bitOf (m.word 1 + m.word 2 * 2 ^ 64 + m.word 3 * 2 ^ 128)
      k)) ∧
    (∃ (m : Cmd) (s : State) (c' : Chip) (o : _) (first : _) (n : _), MpTakes s.chip 0x0203 m c' ∧ m.stray
      0x3F7FFF7FFF = false ∧ o = bitsOf m.p 37 32 ∧ first = bitsOf m.p 14 0 ∧ n = bitsOf m.p 30 16 + 1 ∧ first + n ≤
      27648 ∧ m.word 1 + n ≤ 27648 ∧ (∀ k, k < n → c'.rankTaken o (m.word 1 + k) first n = false)) ∧
    (∃ (m : Cmd) (s : State) (c' : Chip), MpTakes s.chip 0x0204 m c' ∧ m.stray 0x3F = false ∧ (∀ x, x ∈ m.words →
      segmentBad x.toNat = false)) ∧
    (∃ (m : Cmd) (s : State) (c' : Chip), MpTakes s.chip 0x0205 m c' ∧ m.stray 0x3F = false ∧ (∀ k, k < 8 →
      (m.words.getD k 0).toNat ≤ 0xFFFFF) ∧ m.word 9 ≤ 0xFF) := by
  refine ⟨?_, ?_, ?_, ?_⟩
  · exact ⟨cmd 63 [1, 0, 0x8000], on, _, _, mpTakes (by decide +kernel), by decide +kernel, by decide +kernel, rfl⟩
  · exact ⟨cmd 0x16BFF0000 [0], on, _, 1, 0, 27648, mpTakes (by decide +kernel), by decide +kernel, by
    decide +kernel, by decide +kernel, by decide +kernel, by decide +kernel, by decide +kernel,
    (fun k _ => rankFree _ _ _ (by decide +kernel))⟩
  · exact ⟨cmd 63 (List.replicate 64 0x8030000000000000), on, _, mpTakes (by decide +kernel), by decide +kernel,
    (noneOf (by decide +kernel))⟩
  · exact ⟨cmd 63 [0, 0, 0, 0, 0, 0, 0, 0xFFFFF, 0xFF], on, _, mpTakes (by decide +kernel), by decide +kernel⟩

/-- Obligations.WeightSetCommandsAct: states that meet its hypotheses. -/
theorem test_weight_set_commands_act_hypotheses :
    (∃ (m : Cmd) (s : State) (c' : Chip) (k : _) (role : _), MpTakes s.chip 0x0301 m c' ∧ m.stray (2 ^ 48 - 1) =
      false ∧ bitsOf (m.word 1) 63 35 = 0 ∧ k = bitsOf (m.word 1) 32 32 ∧ role = bitsOf (m.word 1) 34 33 ∧ role ≠ 3 ∧
      m.word 2 < 2 ^ 48 ∧ m.word 3 < 2 ^ 48 ∧ (role = 0 ∨ c'.flag Fld.tentCtl_priv [m.tent] = true) ∧ c'.slotTakes
      m.tent k = true ∧ c'.admits m.tent .r m.p (bitsOf (m.word 1) 31 0) = true ∧ (m.word 3 = 0 ∨ (c'.admits m.tent
      .r (m.word 2) (m.word 3) = true ∧ c'.admits m.tent .w (m.word 2) (m.word 3) = true)) ∧ (∀ v, v < 12 → bitsOf
      (m.word (v + 4)) 63 48 ≠ 0 → c'.admits m.tent .r (bitsOf (m.word (v + 4)) 47 0) (bitsOf (m.word (v + 4)) 63 48
      * 65536) = true ∧ c'.admits m.tent .w (bitsOf (m.word (v + 4)) 47 0) (bitsOf (m.word (v + 4)) 63 48 * 65536) =
      true)) ∧
    (∃ (m : Cmd) (s : State) (c' : Chip), MpTakes s.chip 0x0302 m c' ∧ m.p < 2 ∧ c'.slotState m.tent m.p = 3 ∧
      c'.flag Fld.wsetSlot_releasePend [m.tent, m.p] = false) ∧
    (∃ (w : Writer) (t : _) (x : Word) (s : State), RegAdmits s.chip w { name := .wsetActive, idx := [t] } x ∧ bitsOf
      x.toNat 1 0 = 3) ∧
    (∃ (w : Writer) (t : _) (x : Word) (k : _) (s : State), RegAdmits s.chip w { name := .wsetActive, idx := [t] } x
      ∧ bitsOf x.toNat 1 0 = k ∧ k < 2 ∧ s.chip.slotState t k = 3 ∧ s.chip.flag Fld.wsetSlot_releasePend [t, k] =
      false) ∧
    (∃ (m : Cmd) (s : State) (c' : Chip), MpTakes s.chip 0x0303 m c' ∧ m.p < 2 ∧ c'.f Fld.wsetActive_slot [m.tent] ≠
      m.p ∧ c'.slotState m.tent m.p ≠ 0) ∧
    (∃ (t : _) (k : _) (s : State), t < 64 ∧ k < 2 ∧ s.chip.flag Fld.wsetSlot_releasePend [t, k] = true ∧
      s.chip.inUse t k = false) := by
  refine ⟨?_, ?_, ?_, ?_, ?_, ?_⟩
  · exact ⟨cmd 0x1000 ([0x100000100, 0x4000, 0x1000, 0x1000000010000] ++ List.replicate 11 0), on, _, 1, 0, mpTakes
    (by decide +kernel), by decide +kernel⟩
  · exact ⟨cmd 1, onWith [reg .wsetSlot [0, 1] 3] id, _, mpTakes (by decide +kernel), by decide +kernel⟩
  · exact ⟨host, 63, 3, on, ⟨by decide +kernel, by decide +kernel, by decide +kernel, by decide +kernel⟩, by
    decide +kernel⟩
  · exact ⟨host, 63, 1, 1, on [reg .wsetSlot [63, 1] 3], ⟨by decide +kernel, by decide +kernel, by decide +kernel, by
    decide +kernel⟩, by decide +kernel⟩
  · exact ⟨cmd 1, on [reg .wsetSlot [0, 1] 3, reg .wsetActive [0] 0], _, mpTakes (by decide +kernel), by
    decide +kernel⟩
  · exact ⟨63, 1, on [reg .wsetSlot [63, 1] 0x84], by decide +kernel⟩

/-- Obligations.ShardsArePlaced: states that meet its hypotheses. -/
theorem test_shards_are_placed_hypotheses :
    (∃ (t : _) (k : _) (j : _) (s : State) (w : WSlot) (sh : Shard) (bs : List Byte) (us : List (List Byte)) (q : _)
      (c1 : Chip) (c2 : Chip) (c3 : Chip) (c4 : Chip), t < 64 ∧ k < 2 ∧ w = s.chip.slotInfo t k ∧ w.shards[j]? = some
      sh ∧ s.chip.slotState t k = 1 ∧ s.chip.payload t k j sh = some bs ∧ Config.sha3 bs = sh.hash ∧ decodeShard sh
      bs { gen := s.chip.gen .basecamp, free := s.chip.free } = some (us, q) ∧ (sh.target = 0 → ∃ i, s.chip.rankSite
      t sh.index = some i ∧ s.chip.lmapValid i = true) ∧ s.chip.admitAll t (s.chip.placeGrains t k sh us) = (c1,
      true) ∧ c2 = ({ c1 with free := q.free } : Chip) ∧ c3 = ((c2.setGen .basecamp q.gen).slotCount Fld.wsetSlot_sat
      t k q.sat).slotCount Fld.wsetSlot_nonfinite t k q.nonf ∧
      c4 = (match w.role, sh.bcast with | 1, some g => c3.bcastShard t g j (bitsOf (c3.get { name := .wsetSlot, idx := [t, k], w := 4 }).toNat 31 0) bs | _, _ => c3)) ∧
    (∃ (t : _) (k : _) (j : _) (s : State), t < 64 ∧ k < 2 ∧ s.chip.slotState t k = 1 ∧ ((s.chip.slotInfo t
      k).shardSt j = .fetch ∨ (s.chip.slotInfo t k).shardSt j = .bcast)) ∧
    (∃ (t : _) (k : _) (j : _) (s : State), t < 64 ∧ k < 2 ∧ s.chip.slotState t k = 1 ∧ (s.chip.slotInfo t k).shardSt
      j = .bcast) ∧
    (∃ (t : _) (k : _) (j : _) (off : _) (s : State) (sh : Shard), t < 64 ∧ k < 2 ∧ (s.chip.slotInfo t k).shards[j]?
      = some sh ∧ s.chip.slotState t k = 1 ∧ (s.chip.slotInfo t k).shardSt j = .fetch ∧ sh.host = true ∧ off < sh.len
      ∧ off % 4096 = 0 ∧ (∀ p, p ∈ Tab.get (s.chip.slotInfo t k).parts j [] → p.1 ≠ off) ∧ (∀ r, r ∈ s.chip.reads → ¬
      (r.tent = t ∧ r.slot = k ∧ r.shard = j ∧ r.off = off)) ∧ s.chip.reads.length < 64) ∧
    (∃ (tag : _) (data : List Byte) (r : HostRead) (s : State), s.chip.reads.find? (fun r => r.tag == tag) = some r ∧
      data.length = r.len) ∧
    (∃ (tag : _) (r : HostRead) (s : State), s.chip.reads.find? (fun r => r.tag == tag) = some r) ∧
    (∃ (t : _) (k : _) (s : State) (tol : Nat) (vs : List (List Byte)) (i : _) (nz : List Int) (c1 : Chip) (c2 :
      Chip), t < 64 ∧ k < 2 ∧ s.chip.slotState t k = 2 ∧ (s.chip.slotInfo t k).fprint = some (tol, vs) ∧
      (s.chip.slotInfo t k).sites.filter (fun i => !(s.chip.slotInfo t k).passed.contains i) = [i] ∧ s.chip.admitAll
      t (vs.map fun _ => (.array i, 32)) = (c1, true) ∧ c1.fingerSite i tol vs nz = (true, c2) ∧ (c2.slotInfo t
      k).passed.length + 1 = (s.chip.slotInfo t k).sites.length) := by
  refine ⟨?_, ?_, ?_, ?_, ?_, ?_, ?_⟩
  · exact ⟨0, 0, 0, (onWith (granted ++ [reg .wsetSlot [0, 0] 1, reg .veldLmap [0, 0] 0x80000000]) fun c =>
    { c with slots := [((0, 0), { shards := [shard0 on.chip], st := [(0, .fetch)] })], gens := [(.basecamp,
             { s := 1 })] }), _, shard0 on.chip, _, _, _, _, _, _, _, by decide +kernel, by decide +kernel, rfl,
    (rfl), (rfl), (rfl), (rfl), (decode0 on.chip _ _ rfl), (fun _ => ⟨0, by decide +kernel, by decide +kernel⟩),
    (pairOf2 (by decide +kernel)), rfl, rfl, rfl⟩
  · exact ⟨0, 0, 0, onWith [reg .wsetSlot [0, 0] 1] fun c => { c with slots := [((0, 0), { st := [(0, .bcast)] })] },
    by decide +kernel⟩
  · exact ⟨0, 0, 0, onWith [reg .wsetSlot [0, 0] 1] fun c => { c with slots := [((0, 0), { st := [(0, .bcast)] })] },
    by decide +kernel⟩
  · exact ⟨0, 0, 0, 258048, onWith [reg .wsetSlot [0, 0] 1] fun c =>
    { c with slots := [((0, 0), { shards := [{ shard0 on.chip with host := true }], st := [(0, .fetch)] })] },
    { shard0 on.chip with host := true }, by decide +kernel, by decide +kernel, (rfl), by decide +kernel, by
    decide +kernel, by decide +kernel, by decide +kernel, by decide +kernel, (noneIn rfl), (noneIn rfl), by
    decide +kernel⟩
  · exact ⟨65535, [1, 2, 3, 4], ⟨65535, 63, 0, 4, 1, 7, 0⟩, onWith [] fun c =>
    { c with reads := [⟨65535, 63, 0, 4, 1, 7, 0⟩] }, by decide +kernel⟩
  · exact ⟨65535, ⟨65535, 63, 0, 4, 1, 7, 0⟩, onWith [] fun c => { c with reads := [⟨65535, 63, 0, 4, 1, 7, 0⟩] }, by
    decide +kernel⟩
  · exact ⟨0, 0, onWith [reg .wsetSlot [0, 0] 2] fun c =>
    { c with slots := [((0, 0), { fprint := some (0, []), sites := [0] })] }, 0, [], 0, [], _, _, by decide +kernel,
    by decide +kernel, by decide +kernel, by decide +kernel, by decide +kernel, (pairOf2 (by decide +kernel)),
    (pairOf (by decide +kernel)), by decide +kernel⟩

/-- Obligations.JobCommandsEnqueue: states that meet its hypotheses. -/
theorem test_job_commands_enqueue_hypotheses :
    (∃ (m : Cmd) (s : State) (j : _) (k : _), Passes4 s.chip 0x0401 m ∧ m.p % 32 = 0 ∧ (m.p ≠ 0 ∨ m.msgcpl = true) ∧
      j = (⟨m.tent, m.tag, m.msgcpl, if m.p = 0 then none else some m.p, m.words⟩ : DaleJob) ∧ k = (Desc.ofWords
      m.words).index ∧ (s.chip.enqueueDale j).1 = Status.ok) ∧
    (∃ (m : Cmd) (s : State) (j : _), Passes4 s.chip 0x0402 m ∧ m.param = 0 ∧ j =
      ({ id := 0, tent := m.tent, tag := m.tag, msgcpl := m.msgcpl, desc := m.words } : CoderJob) ∧
      (s.chip.enqueueCoder j).1 = Status.ok) ∧
    (∃ (m : Cmd) (s : State) (st : _), Passes4 s.chip 0x0403 m ∧ st =
      ({ pc := m.word 1, arg := BitVec.ofNat 64 (m.word 2), src := 0 } : Start) ∧ m.p < 27648 ∧ st.pc % 4 = 0 ∧ st.pc
      < 2 ^ 48 ∧ s.chip.siteTent m.p = m.tent ∧ s.chip.fetchOk m.p st.pc = true ∧ (s.chip.veld (m.p / 768)).drained =
      false) ∧
    (∃ (m : Cmd) (s : State) (c' : Chip) (bs : _) (ss : _) (rs : _) (c2 : Chip), MpTakes s.chip 0x0304 m c' ∧ m.p < 2
      ^ 48 ∧ m.word 1 < 2 ^ 32 ∧ m.word 4 < 4 ∧ c'.admits m.tent .r m.p (m.word 1) = true ∧ bs = c'.bytes m.p (m.word
      1) ∧ sectionsOf (leNat ((bs.drop 6).take 2)) (bs.drop 64) = some ss ∧ ss.all (fun x => c'.sectionOk m.tent x) =
      true ∧ c'.relocateAll m.tent (m.word 2) (m.word 3) ss = some rs ∧ (bitOf (m.word 4) 0 = true → (c'.slotInfo
      m.tent (bitsOf (m.word 4) 1 1)).images.contains (Config.sha3 bs) = true) ∧ (rs.filter fun x => x.typ == 1).all
      (fun x => inMemory (m.word 2 + x.off) x.pay.length && c'.admits m.tent .w (m.word 2 + x.off) x.pay.length) =
      true ∧ c2 = c'.setTent m.tent { c'.tent m.tent with images := (c'.tent m.tent).images ++ [Config.sha3 bs] }) :=
      by
  refine ⟨?_, ?_, ?_, ?_⟩
  · exact
    ⟨{ cmd 0x9000 [0, 0x1000, 0x2000, 0x3000, 0x4000, 0x5000, 0x100010000, 0x6000, 1, 0, 0x7000, 0x8000, 0x9000, 0,
       0, 0] with flags := 0 }, on, _, _, ⟨by decide +kernel, by decide +kernel, by decide +kernel⟩, by
    decide +kernel, by decide +kernel, rfl, rfl, by decide +kernel⟩
  · exact ⟨cmd 0 [2, 0xC0000000C, 0, 0x1000, 0x2000, 0x3000, 0, 0x4000], on, _, ⟨by decide +kernel, by
    decide +kernel, by decide +kernel⟩, by decide +kernel, rfl, by decide +kernel⟩
  · exact ⟨cmd 27647 [0xFFFFFFFFFFFC, 7], on, _, ⟨by decide +kernel, by decide +kernel, by decide +kernel⟩, rfl, by
    decide +kernel⟩
  · exact ⟨cmd 0x1000 [64, 0x2000, 0x3000, 2], on, _, _, [], [], _, mpTakes (by decide +kernel), by decide +kernel,
    by decide +kernel, by decide +kernel, by decide +kernel, rfl, by decide +kernel, by decide +kernel, by
    decide +kernel, by decide +kernel, by decide +kernel, rfl⟩

/-- Obligations.HostAccessesComplete: states that meet its hypotheses. -/
theorem test_host_accesses_complete_hypotheses :
    (∃ (m : Cmd) (s : State) (r : _), Passes4 s.chip 0x0E01 m ∧ m.p < 2 ^ 48 ∧ m.p % 8 = 0 ∧ regAt m.p = some r ∧
      s.chip.mayRead m.tent r = true) ∧
    (∃ (m : Cmd) (s : State) (r : _) (c1 : Chip), Passes4 s.chip 0x0E02 m ∧ regParamBad m.p = false ∧ m.words.length
      = regCount m.p ∧ regAt (bitsOf m.p 47 0) = some r ∧ r.w = 0 ∧ m.words.length = r.name.desc.words ∧
      s.chip.mayWrite m.tent r (m.words.headD 0) = true ∧ s.chip.regSet r m.words = (Status.ok, c1)) ∧
    (∃ (m : Cmd) (s : State) (a : _) (n : _) (c1 : Chip), Passes4 s.chip 0x0E03 m ∧ a = m.p ∧ n = m.word 1 ∧ 0 < n ∧
      n ≤ 4096 ∧ inMemory a n = true ∧ s.chip.admits m.tent .r a n = true ∧ (∀ x, x ∈ s.chip.passes.serves →
      Serve.after { who := .cmd 0x0E03 m, addr := a, len := n, tent := m.tent } x = false) ∧ s.chip.admitAll m.tent
      (memAccess a n) = (c1, true)) ∧
    (∃ (m : Cmd) (s : State) (a : _) (n : _) (c1 : Chip), Passes4 s.chip 0x0E04 m ∧ a = m.p ∧ n = m.word 1 ∧ 0 < n ∧
      n ≤ 4096 ∧ m.words.length = 1 + (n + 7) / 8 ∧ inMemory a n = true ∧ s.chip.admits m.tent .w a n = true ∧ (∀ x,
      x ∈ s.chip.passes.serves → Serve.after { who := .cmd 0x0E04 m, addr := a, len := n, tent := m.tent } x = false)
      ∧ s.chip.admitAll m.tent (memAccess a n) = (c1, true)) ∧
    (∃ (w : Writer) (a : _) (xs : _) (s : State) (r : _) (c1 : Chip), writerOk w = true ∧ regBase ≤ a ∧ a < regBase +
      2 ^ 32 ∧ s.chip.powered = true ∧ regAt a = some r ∧ r.w = 0 ∧ xs.length = r.name.desc.words ∧ s.chip.mayWrite
      (s.chip.writerTent w) r (xs.headD 0) = true ∧ s.chip.regSet r xs = (Status.ok, c1)) ∧
    (∃ (w : Writer) (a : _) (x : Word) (s : State) (r : _), regAt a = some r ∧ r.name.desc.tc = true ∧ r.name ≠
      .lantEvRec ∧ RegAdmits s.chip w r x ∧ bitOf x.toNat 31 = true ∧ bitsOf x.toNat 7 0 = bitsOf (s.chip.get
      r).toNat 7 0 ∧ s.chip.marks.contains r = false) := by
  refine ⟨?_, ?_, ?_, ?_, ?_, ?_⟩
  · exact ⟨cmd 263882791719416, on, ⟨.budPitch, [7, 7], 0⟩, ⟨by decide +kernel, by decide +kernel, by
    decide +kernel⟩, by decide +kernel⟩
  · exact ⟨cmd 263882800104184 [3], on, ⟨.wsetActive, [63], 0⟩, _, ⟨by decide +kernel, by decide +kernel, by
    decide +kernel⟩, by decide +kernel, by decide +kernel, by decide +kernel, by decide +kernel, by decide +kernel,
    by decide +kernel, pairOf (by decide +kernel)⟩
  · exact ⟨cmd 0x1000 [4096], on granted, 0x1000, 4096, _, ⟨by decide +kernel, by decide +kernel, by decide +kernel⟩,
    by decide +kernel, by decide +kernel, by decide +kernel, by decide +kernel, by decide +kernel, by decide +kernel,
    (noneIn rfl), pairOf2 (by decide +kernel)⟩
  · exact ⟨cmd 0x1001 [7, 5], on granted, 0x1001, 7, _, ⟨by decide +kernel, by decide +kernel, by decide +kernel⟩, by
    decide +kernel, by decide +kernel, by decide +kernel, by decide +kernel, by decide +kernel, by decide +kernel,
    ⟨by decide +kernel, (noneIn rfl), pairOf2 (by decide +kernel)⟩⟩
  · exact ⟨host, 263882800104184, [3], on, ⟨.wsetActive, [63], 0⟩, _, by decide +kernel, by decide +kernel, by
    decide +kernel, by decide +kernel, by decide +kernel, by decide +kernel, ⟨by decide +kernel, by decide +kernel,
    pairOf (by decide +kernel)⟩⟩
  · exact ⟨host, 263882791736824, 0x800000FF, on [reg .budEvWait [63] 0x801234FF], ⟨.budEvWait, [63], 0⟩, by
    decide +kernel, by decide +kernel, by decide +kernel, ⟨by decide +kernel, by decide +kernel, by decide +kernel,
    by decide +kernel⟩, by decide +kernel⟩

/-- Obligations.IntegerResultsAreWritten: states that meet its hypotheses. -/
theorem test_integer_results_are_written_hypotheses :
    (∃ (h : Hart) (rd : _) (ra : _) (rb : _) (fn : _) (s : State) (d : Chip), Issues s.chip h (.alu h rd ra rb fn)
      false none d) ∧
    (∃ (h : Hart) (rd : _) (ra : _) (imm : _) (s : State) (d : Chip), Issues s.chip h (.addi h rd ra imm) false none
      d) ∧
    (∃ (h : Hart) (rd : _) (ra : _) (imm : _) (s : State) (d : Chip), Issues s.chip h (.andi h rd ra imm) false none
      d) ∧
    (∃ (h : Hart) (rd : _) (ra : _) (imm : _) (s : State) (d : Chip), Issues s.chip h (.ori h rd ra imm) false none
      d) ∧
    (∃ (h : Hart) (rd : _) (ra : _) (imm : _) (s : State) (d : Chip), Issues s.chip h (.xori h rd ra imm) false none
      d) ∧
    (∃ (h : Hart) (rd : _) (ra : _) (imm : _) (s : State) (d : Chip), Issues s.chip h (.shi h rd ra imm) false none
      d) ∧
    (∃ (h : Hart) (rd : _) (ra : _) (imm : _) (s : State) (d : Chip), Issues s.chip h (.slti h rd ra imm) false none
      d) ∧
    (∃ (h : Hart) (rd : _) (ra : _) (imm : _) (s : State) (d : Chip), Issues s.chip h (.lih h rd ra imm) false none
      d) ∧
    (∃ (h : Hart) (rd : _) (ra : _) (imm : _) (s : State) (d : Chip), Issues s.chip h (.addpc h rd ra imm) false none
      d) ∧
    (∃ (h : Hart) (rd : _) (ra : _) (imm : _) (s : State) (d : Chip), Issues s.chip h (.gets h rd ra imm) false none
      d ∧ imm ≠ 6) ∧
    (∃ (h : Hart) (rd : _) (ra : _) (s : State) (d : Chip) (g : _), Issues s.chip h (.gets h rd ra 6) false none d ∧
      g = d.gen (.core (h.i / 768) (d.physOf h.i))) := by
  refine ⟨?_, ?_, ?_, ?_, ?_, ?_, ?_, ?_, ?_, ⟨?_, ?_⟩⟩
  · exact ⟨h0, 31, 1, 2, 6, thread0 [(encodeThread (.alu h0 31 1 2 6)).getD 0] [], _, issues (by decide +kernel)⟩
  · exact ⟨h0, 31, 31, 0x8000, thread0 [(encodeThread (.addi h0 31 31 0x8000)).getD 0] [], _, issues (by
    decide +kernel)⟩
  · exact ⟨h0, 31, 31, 0x8000, thread0 [(encodeThread (.andi h0 31 31 0x8000)).getD 0] [], _, issues (by
    decide +kernel)⟩
  · exact ⟨h0, 31, 31, 0x8000, thread0 [(encodeThread (.ori h0 31 31 0x8000)).getD 0] [], _, issues (by
    decide +kernel)⟩
  · exact ⟨h0, 31, 31, 0x8000, thread0 [(encodeThread (.xori h0 31 31 0x8000)).getD 0] [], _, issues (by
    decide +kernel)⟩
  · exact ⟨h0, 31, 31, 63, thread0 [(encodeThread (.shi h0 31 31 63)).getD 0] [], _, issues (by decide +kernel)⟩
  · exact ⟨h0, 31, 31, 0x8000, thread0 [(encodeThread (.slti h0 31 31 0x8000)).getD 0] [], _, issues (by
    decide +kernel)⟩
  · exact ⟨h0, 31, 3, 0x8000, thread0 [(encodeThread (.lih h0 31 3 0x8000)).getD 0] [], _, issues (by decide +kernel)⟩
  · exact ⟨h0, 31, 0, 0x8000, thread0 [(encodeThread (.addpc h0 31 0 0x8000)).getD 0] [], _, issues (by
    decide +kernel)⟩
  · exact ⟨h0, 5, 0, 7, thread0 [(encodeThread (.gets h0 5 0 7)).getD 0] [], _, issues (by decide +kernel), by
    decide +kernel⟩
  · exact ⟨h0, 5, 0, thread0 [(encodeThread (.gets h0 5 0 6)).getD 0] [], _, _, issues (by decide +kernel), rfl⟩

/-- Obligations.ControlFlowFollowsTheSpec: states that meet its hypotheses. -/
theorem test_control_flow_follows_the_spec_hypotheses :
    (∃ (h : Hart) (ra : _) (rb : _) (off : _) (s : State) (d : Chip), Issues s.chip h (.beq h ra rb off) false none
      d) ∧
    (∃ (h : Hart) (ra : _) (rb : _) (off : _) (s : State) (d : Chip), Issues s.chip h (.bne h ra rb off) false none
      d) ∧
    (∃ (h : Hart) (ra : _) (rb : _) (off : _) (s : State) (d : Chip), Issues s.chip h (.blt h ra rb off) false none
      d) ∧
    (∃ (h : Hart) (ra : _) (rb : _) (off : _) (s : State) (d : Chip), Issues s.chip h (.bge h ra rb off) false none
      d) ∧
    (∃ (h : Hart) (ra : _) (rb : _) (off : _) (s : State) (d : Chip), Issues s.chip h (.bltu h ra rb off) false none
      d) ∧
    (∃ (h : Hart) (ra : _) (rb : _) (off : _) (s : State) (d : Chip), Issues s.chip h (.bgeu h ra rb off) false none
      d) ∧
    (∃ (h : Hart) (rd : _) (off : _) (s : State) (d : Chip), Issues s.chip h (.jal h rd off) false none d) ∧
    (∃ (h : Hart) (rd : _) (ra : _) (imm : _) (s : State) (d : Chip), Issues s.chip h (.jalr h rd ra imm) false none
      d ∧ d.addrOf h ra imm % 4 = 0) ∧
    (∃ (h : Hart) (s : State) (d : Chip), Issues s.chip h (.halt h) false none d) ∧
    (∃ (h : Hart) (w : _) (s : State) (fill : _) (need : _) (a : _), h.ok = true ∧ s.chip.powered = true ∧
      (s.chip.thread h).state = 1 ∧ s.chip.turn h = true ∧ (s.chip.thread h).late = none ∧ decodeThread h w = none ∧
      s.chip.fetch h = .word w fill need ∧ s.chip.admitCharges (.core h.i) ((s.chip.siteTent h.i, .core h.i, 1) ::
      need) s.chip = (a, true)) := by
  refine ⟨?_, ?_, ?_, ?_, ?_, ?_, ?_, ?_, ?_, ?_⟩
  · exact ⟨h0, 1, 2, 0xFFFF, thread0 [(encodeThread (.beq h0 1 2 0xFFFF)).getD 0] [], _, issues (by decide +kernel)⟩
  · exact ⟨h0, 1, 2, 0xFFFF, thread0 [(encodeThread (.bne h0 1 2 0xFFFF)).getD 0] [], _, issues (by decide +kernel)⟩
  · exact ⟨h0, 1, 2, 0xFFFF, thread0 [(encodeThread (.blt h0 1 2 0xFFFF)).getD 0] [], _, issues (by decide +kernel)⟩
  · exact ⟨h0, 1, 2, 0xFFFF, thread0 [(encodeThread (.bge h0 1 2 0xFFFF)).getD 0] [], _, issues (by decide +kernel)⟩
  · exact ⟨h0, 1, 2, 0xFFFF, thread0 [(encodeThread (.bltu h0 1 2 0xFFFF)).getD 0] [], _, issues (by decide +kernel)⟩
  · exact ⟨h0, 1, 2, 0xFFFF, thread0 [(encodeThread (.bgeu h0 1 2 0xFFFF)).getD 0] [], _, issues (by decide +kernel)⟩
  · exact ⟨h0, 1, 0x1FFFFF, thread0 [(encodeThread (.jal h0 1 0x1FFFFF)).getD 0] [], _, issues (by decide +kernel)⟩
  · exact ⟨h0, 1, 2, 0xFFFC, thread0 [(encodeThread (.jalr h0 1 2 0xFFFC)).getD 0] [], _, issues (by decide +kernel),
    by decide +kernel⟩
  · exact ⟨h0, thread0 [(encodeThread (.halt h0)).getD 0] [], _, issues (by decide +kernel)⟩
  · exact ⟨h0, 0, thread0 [0], (some (List.replicate 64 0)), [], _, by decide +kernel, by decide +kernel, by
    decide +kernel, by decide +kernel, by decide +kernel, by decide +kernel, ⟨by decide +kernel, pairOf2 (by
    decide +kernel)⟩⟩

/-- Obligations.LoadsReadTheOwnStore: states that meet its hypotheses. -/
theorem test_loads_read_the_own_store_hypotheses :
    (∃ (h : Hart) (rd : _) (ra : _) (imm : _) (s : State) (d : Chip) (a : _), Issues s.chip h (.ld8s h rd ra imm)
      false (some ⟨.r, s.chip.addrOf h ra imm, 1⟩) d ∧ a = d.addrOf h ra imm ∧ a = s.chip.addrOf h ra imm ∧ a % 1 = 0
      ∧ inStore h.i a 1 = true) ∧
    (∃ (h : Hart) (rd : _) (ra : _) (imm : _) (s : State) (d : Chip) (a : _), Issues s.chip h (.ld8u h rd ra imm)
      false (some ⟨.r, s.chip.addrOf h ra imm, 1⟩) d ∧ a = d.addrOf h ra imm ∧ a = s.chip.addrOf h ra imm ∧ a % 1 = 0
      ∧ inStore h.i a 1 = true) ∧
    (∃ (h : Hart) (rd : _) (ra : _) (imm : _) (s : State) (d : Chip) (a : _), Issues s.chip h (.ld16s h rd ra imm)
      false (some ⟨.r, s.chip.addrOf h ra imm, 2⟩) d ∧ a = d.addrOf h ra imm ∧ a = s.chip.addrOf h ra imm ∧ a % 2 = 0
      ∧ inStore h.i a 2 = true) ∧
    (∃ (h : Hart) (rd : _) (ra : _) (imm : _) (s : State) (d : Chip) (a : _), Issues s.chip h (.ld16u h rd ra imm)
      false (some ⟨.r, s.chip.addrOf h ra imm, 2⟩) d ∧ a = d.addrOf h ra imm ∧ a = s.chip.addrOf h ra imm ∧ a % 2 = 0
      ∧ inStore h.i a 2 = true) ∧
    (∃ (h : Hart) (rd : _) (ra : _) (imm : _) (s : State) (d : Chip) (a : _), Issues s.chip h (.ld32s h rd ra imm)
      false (some ⟨.r, s.chip.addrOf h ra imm, 4⟩) d ∧ a = d.addrOf h ra imm ∧ a = s.chip.addrOf h ra imm ∧ a % 4 = 0
      ∧ inStore h.i a 4 = true) ∧
    (∃ (h : Hart) (rd : _) (ra : _) (imm : _) (s : State) (d : Chip) (a : _), Issues s.chip h (.ld32u h rd ra imm)
      false (some ⟨.r, s.chip.addrOf h ra imm, 4⟩) d ∧ a = d.addrOf h ra imm ∧ a = s.chip.addrOf h ra imm ∧ a % 4 = 0
      ∧ inStore h.i a 4 = true) ∧
    (∃ (h : Hart) (rd : _) (ra : _) (imm : _) (s : State) (d : Chip) (a : _), Issues s.chip h (.ld64 h rd ra imm)
      false (some ⟨.r, s.chip.addrOf h ra imm, 8⟩) d ∧ a = d.addrOf h ra imm ∧ a = s.chip.addrOf h ra imm ∧ a % 8 = 0
      ∧ inStore h.i a 8 = true) ∧
    (∃ (h : Hart) (v : _) (ra : _) (off : _) (s : State) (d : Chip) (a : _), Issues s.chip h (.vld h v ra off) false
      (some ⟨.r, s.chip.addrOf h ra off 16, 16⟩) d ∧ a = d.addrOf h ra off 16 ∧ a = s.chip.addrOf h ra off 16 ∧ a %
      16 = 0 ∧ inStore h.i a 16 = true) := by
  refine ⟨?_, ?_, ?_, ?_, ?_, ?_, ?_, ?_⟩
  · exact ⟨h0, 31, 1, 15, thread0 [(encodeThread (.ld8s h0 31 1 15)).getD 0] [(1, BitVec.ofNat 64 (storeBase 0 +
    0x7FF0))], _, storeBase 0 + 0x7FF0 + 15, issues (by decide +kernel), by decide +kernel⟩
  · exact ⟨h0, 31, 1, 15, thread0 [(encodeThread (.ld8u h0 31 1 15)).getD 0] [(1, BitVec.ofNat 64 (storeBase 0 +
    0x7FF0))], _, storeBase 0 + 0x7FF0 + 15, issues (by decide +kernel), by decide +kernel⟩
  · exact ⟨h0, 31, 1, 14, thread0 [(encodeThread (.ld16s h0 31 1 14)).getD 0] [(1, BitVec.ofNat 64 (storeBase 0 +
    0x7FF0))], _, storeBase 0 + 0x7FF0 + 14, issues (by decide +kernel), by decide +kernel⟩
  · exact ⟨h0, 31, 1, 14, thread0 [(encodeThread (.ld16u h0 31 1 14)).getD 0] [(1, BitVec.ofNat 64 (storeBase 0 +
    0x7FF0))], _, storeBase 0 + 0x7FF0 + 14, issues (by decide +kernel), by decide +kernel⟩
  · exact ⟨h0, 31, 1, 12, thread0 [(encodeThread (.ld32s h0 31 1 12)).getD 0] [(1, BitVec.ofNat 64 (storeBase 0 +
    0x7FF0))], _, storeBase 0 + 0x7FF0 + 12, issues (by decide +kernel), by decide +kernel⟩
  · exact ⟨h0, 31, 1, 12, thread0 [(encodeThread (.ld32u h0 31 1 12)).getD 0] [(1, BitVec.ofNat 64 (storeBase 0 +
    0x7FF0))], _, storeBase 0 + 0x7FF0 + 12, issues (by decide +kernel), by decide +kernel⟩
  · exact ⟨h0, 31, 1, 8, thread0 [(encodeThread (.ld64 h0 31 1 8)).getD 0] [(1, BitVec.ofNat 64 (storeBase 0 +
    0x7FF0))], _, storeBase 0 + 0x7FF0 + 8, issues (by decide +kernel), by decide +kernel⟩
  · exact ⟨h0, 15, 1, 0, thread0 [(encodeThread (.vld h0 15 1 0)).getD 0] [(1, BitVec.ofNat 64 (storeBase 0 +
    0x7FF0))], _, storeBase 0 + 0x7FF0, issues (by decide +kernel), by decide +kernel⟩

/-- Obligations.StoresWriteTheOwnStore: states that meet its hypotheses. -/
theorem test_stores_write_the_own_store_hypotheses :
    (∃ (h : Hart) (rb : _) (ra : _) (imm : _) (s : State) (d : Chip) (a : _), Issues s.chip h (.st8 h rb ra imm)
      false (some ⟨.w, s.chip.addrOf h ra imm, 1⟩) d ∧ a = d.addrOf h ra imm ∧ a = s.chip.addrOf h ra imm ∧ a % 1 = 0
      ∧ inStore h.i a 1 = true) ∧
    (∃ (h : Hart) (rb : _) (ra : _) (imm : _) (s : State) (d : Chip) (a : _), Issues s.chip h (.st16 h rb ra imm)
      false (some ⟨.w, s.chip.addrOf h ra imm, 2⟩) d ∧ a = d.addrOf h ra imm ∧ a = s.chip.addrOf h ra imm ∧ a % 2 = 0
      ∧ inStore h.i a 2 = true) ∧
    (∃ (h : Hart) (rb : _) (ra : _) (imm : _) (s : State) (d : Chip) (a : _), Issues s.chip h (.st32 h rb ra imm)
      false (some ⟨.w, s.chip.addrOf h ra imm, 4⟩) d ∧ a = d.addrOf h ra imm ∧ a = s.chip.addrOf h ra imm ∧ a % 4 = 0
      ∧ inStore h.i a 4 = true) ∧
    (∃ (h : Hart) (rb : _) (ra : _) (imm : _) (s : State) (d : Chip) (a : _), Issues s.chip h (.st64 h rb ra imm)
      false (some ⟨.w, s.chip.addrOf h ra imm, 8⟩) d ∧ a = d.addrOf h ra imm ∧ a = s.chip.addrOf h ra imm ∧ a % 8 = 0
      ∧ inStore h.i a 8 = true) ∧
    (∃ (h : Hart) (v : _) (ra : _) (off : _) (s : State) (d : Chip) (a : _), Issues s.chip h (.vst h v ra off) false
      (some ⟨.w, s.chip.addrOf h ra off 16, 16⟩) d ∧ a = d.addrOf h ra off 16 ∧ a = s.chip.addrOf h ra off 16 ∧ a %
      16 = 0 ∧ inStore h.i a 16 = true) ∧
    (∃ (h : Hart) (rd : _) (ra : _) (rb : _) (fn : _) (s : State) (d : Chip) (a : _) (n : _), n = (if bitOf fn.toNat
      4 then 8 else 4) ∧ Issues s.chip h (.amo h rd ra rb fn) (bitOf fn.toNat 6) (some ⟨.a, (s.chip.x h ra).toNat,
      n⟩) d ∧ a = (d.x h ra).toNat ∧ a = (s.chip.x h ra).toNat ∧ a % n = 0 ∧ inStore h.i a n = true) ∧
    (∃ (h : Hart) (n : Nat) (s : State) (a : Access) (bs : List Byte), h.ok = true ∧ (s.chip.thread h).out[n]? = some
      a ∧ a.tag = none ∧ a.kind = .store bs ∧ a.home < regBase ∧ (∀ b, b ∈ (s.chip.thread h).out.take n → b.tag =
      none → b.meets a = false)) := by
  refine ⟨?_, ?_, ?_, ?_, ?_, ?_, ?_⟩
  · exact ⟨h0, 31, 1, 15, thread0 [(encodeThread (.st8 h0 31 1 15)).getD 0] [(1, BitVec.ofNat 64 (storeBase 0 +
    0x7FF0))], _, storeBase 0 + 0x7FF0 + 15, issues (by decide +kernel), by decide +kernel⟩
  · exact ⟨h0, 31, 1, 14, thread0 [(encodeThread (.st16 h0 31 1 14)).getD 0] [(1, BitVec.ofNat 64 (storeBase 0 +
    0x7FF0))], _, storeBase 0 + 0x7FF0 + 14, issues (by decide +kernel), by decide +kernel⟩
  · exact ⟨h0, 31, 1, 12, thread0 [(encodeThread (.st32 h0 31 1 12)).getD 0] [(1, BitVec.ofNat 64 (storeBase 0 +
    0x7FF0))], _, storeBase 0 + 0x7FF0 + 12, issues (by decide +kernel), by decide +kernel⟩
  · exact ⟨h0, 31, 1, 8, thread0 [(encodeThread (.st64 h0 31 1 8)).getD 0] [(1, BitVec.ofNat 64 (storeBase 0 +
    0x7FF0))], _, storeBase 0 + 0x7FF0 + 8, issues (by decide +kernel), by decide +kernel⟩
  · exact ⟨h0, 15, 1, 0, thread0 [(encodeThread (.vst h0 15 1 0)).getD 0] [(1, BitVec.ofNat 64 (storeBase 0 +
    0x7FF0))], _, storeBase 0 + 0x7FF0, issues (by decide +kernel), by decide +kernel⟩
  · exact ⟨h0, 5, 1, 2, 0x10, thread0 [(encodeThread (.amo h0 5 1 2 0x10)).getD 0] [(1, BitVec.ofNat 64 (storeBase 0
    + 0x7FF0))], _, storeBase 0 + 0x7FF0, 8, by decide +kernel, issues (by decide +kernel), by decide +kernel⟩
  · exact ⟨h0, 0, onWith [] fun c =>
    { c with cores := [(0,
            
    { threads := [(0,
      { state := 2, out := [{ kind := .store [7], addr := 0x1000, len := 1, home := 0x1000, tent := 0 }] })] })] },
    { kind := .store [7], addr := 0x1000, len := 1, home := 0x1000, tent := 0 }, [7], by decide +kernel, by
    decide +kernel, by decide +kernel, by decide +kernel, by decide +kernel, (by simp)⟩

/-- Obligations.VectorResultsAreWritten: states that meet its hypotheses. -/
theorem test_vector_results_are_written_hypotheses :
    (∃ (h : Hart) (vd : _) (va : _) (vb : _) (p : _) (fn : _) (s : State) (d : Chip), Issues s.chip h (.vi h vd va vb
      p fn) false none d) ∧
    (∃ (h : Hart) (vd : _) (va : _) (vb : _) (p : _) (fn : _) (s : State) (d : Chip), Issues s.chip h (.vb h vd va vb
      p fn) false none d) ∧
    (∃ (h : Hart) (vd : _) (va : _) (vb : _) (p : _) (fn : _) (s : State) (d : Chip), Issues s.chip h (.vf h vd va vb
      p fn) false none d) ∧
    (∃ (h : Hart) (vd : _) (va : _) (vb : _) (p : _) (fn : _) (s : State) (d : Chip), Issues s.chip h (.vred h vd va
      vb p fn) false none d) ∧
    (∃ (h : Hart) (vd : _) (va : _) (vb : _) (p : _) (fn : _) (s : State) (d : Chip), Issues s.chip h (.vperm h vd va
      vb p fn) false none d) ∧
    (∃ (h : Hart) (vd : _) (va : _) (vb : _) (p : _) (fn : _) (s : State) (d : Chip), Issues s.chip h (.vcvt h vd va
      vb p fn) false none d) ∧
    (∃ (h : Hart) (vd : _) (va : _) (vb : _) (p : _) (fn : _) (s : State) (d : Chip), Issues s.chip h (.vnq h vd va
      vb p fn) false none d) ∧
    (∃ (h : Hart) (vd : _) (va : _) (vb : _) (p : _) (fn : _) (s : State) (d : Chip), Issues s.chip h (.vdq h vd va
      vb p fn) false none d) ∧
    (∃ (h : Hart) (vd : _) (va : _) (vb : _) (p : _) (fn : _) (s : State) (d : Chip), Issues s.chip h (.vu8 h vd va
      vb p fn) false none d) ∧
    (∃ (h : Hart) (vd : _) (va : _) (vb : _) (p : _) (fn : _) (s : State) (d : Chip), Issues s.chip h (.vsc h vd va
      vb p fn) false none d) ∧
    (∃ (h : Hart) (vd : _) (va : _) (vb : _) (p : _) (fn : _) (s : State) (d : Chip), Issues s.chip h (.vrand h vd va
      vb p fn) false none d) ∧
    (∃ (h : Hart) (vd : _) (va : _) (vb : _) (p : _) (fn : _) (s : State) (d : Chip), Issues s.chip h (.vcmp h vd va
      vb p fn) false none d) ∧
    (∃ (h : Hart) (vd : _) (x : _) (lane : _) (fn : _) (s : State) (d : Chip), Issues s.chip h (.vmov h vd x lane fn)
      false none d) := by
  refine ⟨?_, ?_, ?_, ?_, ?_, ?_, ?_, ?_, ?_, ⟨?_, ?_, ?_, ?_⟩⟩
  · exact ⟨h0, 3, 1, 2, 0, 0, thread0 [(encodeThread (.vi h0 3 1 2 0 0)).getD 0] [], _, issues (by decide +kernel)⟩
  · exact ⟨h0, 3, 1, 2, 0, 0, thread0 [(encodeThread (.vb h0 3 1 2 0 0)).getD 0] [], _, issues (by decide +kernel)⟩
  · exact ⟨h0, 3, 1, 2, 0, 0, thread0 [(encodeThread (.vf h0 3 1 2 0 0)).getD 0] [], _, issues (by decide +kernel)⟩
  · exact ⟨h0, 3, 1, 2, 0, 0, thread0 [(encodeThread (.vred h0 3 1 2 0 0)).getD 0] [], _, issues (by decide +kernel)⟩
  · exact ⟨h0, 3, 1, 2, 0, 0, thread0 [(encodeThread (.vperm h0 3 1 2 0 0)).getD 0] [], _, issues (by decide +kernel)⟩
  · exact ⟨h0, 3, 1, 2, 0, 0, thread0 [(encodeThread (.vcvt h0 3 1 2 0 0)).getD 0] [], _, issues (by decide +kernel)⟩
  · exact ⟨h0, 3, 1, 2, 0, 0, thread0 [(encodeThread (.vnq h0 3 1 2 0 0)).getD 0] [], _, issues (by decide +kernel)⟩
  · exact ⟨h0, 3, 1, 2, 0, 0, thread0 [(encodeThread (.vdq h0 3 1 2 0 0)).getD 0] [], _, issues (by decide +kernel)⟩
  · exact ⟨h0, 3, 1, 2, 0, 0, thread0 [(encodeThread (.vu8 h0 3 1 2 0 0)).getD 0] [], _, issues (by decide +kernel)⟩
  · exact ⟨h0, 3, 1, 2, 0, 0, thread0 [(encodeThread (.vsc h0 3 1 2 0 0)).getD 0] [], _, issues (by decide +kernel)⟩
  · exact ⟨h0, 3, 0, 0, 0, 0, thread0 [(encodeThread (.vrand h0 3 0 0 0 0)).getD 0] [], _, issues (by decide +kernel)⟩
  · exact ⟨h0, 3, 1, 2, 0, 0, thread0 [(encodeThread (.vcmp h0 3 1 2 0 0)).getD 0] [], _, issues (by decide +kernel)⟩
  · exact ⟨h0, 3, 4, 7, 0, thread0 [(encodeThread (.vmov h0 3 4 7 0)).getD 0] [], _, issues (by decide +kernel)⟩

/-- Obligations.ThreadsWaitAndSpawn: states that meet its hypotheses. -/
theorem test_threads_wait_and_spawn_hypotheses :
    (∃ (h : Hart) (rd : _) (ra : _) (rb : _) (fn : _) (s : State) (d : Chip) (e : _), Issues s.chip h (.fence h rd ra
      rb fn) false none d ∧ e = (if bitOf fn.toNat 3 then d.flushCache h.i else d)) ∧
    (∃ (h : Hart) (rd : _) (ra : _) (rb : _) (fn : _) (s : State) (d : Chip) (a : _) (d1 : Chip) (d2 : Chip) (bs : _)
      (st : _) (i : _), Issues s.chip h (.spawn h rd ra rb fn) true (some ⟨.r, (s.chip.x h ra).toNat, 24⟩) d ∧ a =
      (d.x h ra).toNat ∧ a = (s.chip.x h ra).toNat ∧ a % 8 = 0 ∧ inStore h.i a 24 = true ∧ bs = d.bytes a 24 ∧ leNat
      ((bs.drop 4).take 4) = 0 ∧ i = (if leNat (bs.take 4) = 0xFFFFFFFF then h.i else leNat (bs.take 4)) ∧ st =
      (⟨leNat ((bs.drop 8).take 8), BitVec.ofNat 64 (leNat ((bs.drop 16).take 8)), BitVec.ofNat 64 (8 * h.i + h.t)⟩ :
      Start) ∧ d1 = d.setThread h ((d.thread h).answered ⟨.spawn rd.toNat, a, 24, a, d.siteTent h.i, none⟩) ∧
      d1.requestStart (d1.siteTent h.i) i st = (Status.ok, d2)) ∧
    (∃ (i : _) (h : _) (x : Start) (rest : _) (s : State), i < 27648 ∧ s.chip.freeHart i = some h ∧ (s.chip.core
      i).spawnq = x :: rest) ∧
    (∃ (h : Hart) (rd : _) (ra : _) (rb : _) (fn : _) (s : State) (d : Chip) (a : _) (w : _), Issues s.chip h (.waitm
      h rd ra rb fn) false (some ⟨.r, (s.chip.x h ra).toNat, 8⟩) d ∧ a = (d.x h ra).toNat ∧ a = (s.chip.x h ra).toNat
      ∧ a % 8 = 0 ∧ inStore h.i a 8 = true ∧ w = BitVec.ofNat 64 (d.num a 8) ∧ (d.thread h).stopping = false) ∧
    (∃ (h : Hart) (rd : _) (a : _) (old : _) (last : _) (timed : _) (s : State) (w : _), h.ok = true ∧ s.chip.powered
      = true ∧ (s.chip.thread h).state = 3 ∧ (s.chip.thread h).wait = .watch rd a old last timed ∧ inStore h.i a 8 =
      true ∧ w = BitVec.ofNat 64 (s.chip.num a 8) ∧ w ≠ old ∧ (s.chip.thread h).stopping = false) ∧
    (∃ (h : Hart) (rd : _) (a : _) (old : _) (last : _) (timed : _) (s : State) (c1 : Chip), h.ok = true ∧
      s.chip.powered = true ∧ (s.chip.thread h).state = 3 ∧ (s.chip.thread h).wait = .watch rd a old last timed ∧
      inStore h.i a 8 = false ∧ (∀ x, x ∈ (s.chip.thread h).out → x.kind ≠ .watch) ∧ s.chip.admitCharges (.core h.i)
      (s.chip.touchCharges h (some ⟨.r, a, 8⟩)) s.chip = (c1, true)) ∧
    (∃ (h : Hart) (rd : _) (a : _) (old : _) (last : _) (s : State), h.ok = true ∧ s.chip.powered = true ∧
      (s.chip.thread h).state = 3 ∧ (s.chip.thread h).wait = .watch rd a old last true ∧ (s.chip.thread h).stopping =
      false) ∧
    (∃ (h : Hart) (rd : _) (ra : _) (rb : _) (fn : _) (s : State) (d : Chip), Issues s.chip h (.tickw h rd ra rb fn)
      false none d) ∧
    (∃ (w : Writer) (n : _) (p : _) (t : _) (s : State) (i : _), RegAdmits s.chip w
      { name := .siteThreadCtl, idx := [n, p, t] } 0x80000000 ∧ s.chip.logicalOf n p = some i ∧ (s.chip.thread ⟨i,
      t⟩).state ≠ 0 ∧ (s.chip.thread ⟨i, t⟩).wait = .none) := by
  refine ⟨?_, ?_, ?_, ?_, ?_, ?_, ?_, ?_, ?_⟩
  · exact ⟨h0, 0, 0, 0, 0xF, thread0 [(encodeThread (.fence h0 0 0 0 0xF)).getD 0] [], _, _, issues (by
    decide +kernel), rfl⟩
  · exact ⟨h0, 5, 1, 0, 0, thread0 [(encodeThread (.spawn h0 5 1 0 0)).getD 0] [(1, BitVec.ofNat 64 (storeBase 0 +
    0x7F80)), (2, 0x20000)], _, storeBase 0 + 0x7F80, _, _, _, _, 0, issues (by decide +kernel), by decide +kernel,
    by decide +kernel, by decide +kernel, by decide +kernel, rfl, by decide +kernel, by decide +kernel, rfl, rfl,
    pairOf (by decide +kernel)⟩
  · exact ⟨27647, ⟨27647, 0⟩, ⟨8, 1, 2⟩, [], onWith [] fun c =>
    { c with cores := [(27647, { spawnq := [⟨8, 1, 2⟩] })] }, by decide +kernel⟩
  · exact ⟨h0, 5, 1, 2, 0, thread0 [(encodeThread (.waitm h0 5 1 2 0)).getD 0] [(1, BitVec.ofNat 64 (storeBase 0 +
    0x7F80)), (2, 0x20000)], _, storeBase 0 + 0x7F80, _, issues (by decide +kernel), by decide +kernel, by
    decide +kernel, by decide +kernel, by decide +kernel, rfl, by decide +kernel⟩
  · exact ⟨h0, 5, storeBase 0, 1, 1, true, onWith [] fun c =>
    { c with cores := [(0, { threads := [(0, { state := 3, wait := .watch 5 (storeBase 0) 1 1 true })] })] }, _, by
    decide +kernel, by decide +kernel, by decide +kernel, by decide +kernel, by decide +kernel, rfl, by
    decide +kernel⟩
  · exact ⟨h0, 5, 0x1000, 0, 0, true, onWith granted fun c =>
    { c with cores := [(0, { threads := [(0, { state := 3, wait := .watch 5 0x1000 0 0 true })] })] }, _, by
    decide +kernel, by decide +kernel, by decide +kernel, by decide +kernel, by decide +kernel, (noneIn rfl), pairOf2
    (by decide +kernel)⟩
  · exact ⟨h0, 5, 0x1000, 0, 7, onWith [] fun c =>
    { c with cores := [(0, { threads := [(0, { state := 3, wait := .watch 5 0x1000 0 7 true })] })] }, by
    decide +kernel⟩
  · exact ⟨h0, 5, 0, 0, 1, thread0 [(encodeThread (.tickw h0 5 0 0 1)).getD 0] [], _, issues (by decide +kernel)⟩
  · exact ⟨host, 0, 0, 7, onWith [reg .siteId [0, 0] 0] fun c =>
    { c with cores := [(0, { threads := [(7, { state := 1 })] })] }, 0, ⟨by decide +kernel, by decide +kernel, by
    decide +kernel, by decide +kernel⟩, by decide +kernel⟩

/-- Obligations.ThreadsEnqueueWork: states that meet its hypotheses. -/
theorem test_threads_enqueue_work_hypotheses :
    (∃ (h : Hart) (rd : _) (ra : _) (rb : _) (fn : _) (s : State) (d : Chip) (a : _) (d1 : Chip) (d2 : Chip) (bs :
      _), Issues s.chip h (.denq h rd ra rb fn) true (some ⟨.r, (s.chip.x h ra).toNat, 128⟩) d ∧ a = (d.x h ra).toNat
      ∧ a = (s.chip.x h ra).toNat ∧ a % 8 = 0 ∧ inStore h.i a 128 = true ∧ bs = d.bytes a 128 ∧ (d.x h rb).toNat % 32
      = 0 ∧ d1 = d.setThread h ((d.thread h).answered ⟨.denq rd.toNat (d.x h rb), a, 128, a, d.siteTent h.i, none⟩) ∧
      d1.enqueueDale { tent := d1.siteTent h.i, compl := some (d.x h rb).toNat, desc := wordsOfBytes 16 bs } =
      (Status.ok, d2)) ∧
    (∃ (h : Hart) (rd : _) (ra : _) (rb : _) (fn : _) (s : State) (d : Chip) (a : _) (d1 : Chip) (ctx : _) (vecs :
      _), Issues s.chip h (.astep h rd ra rb fn) true none d ∧ a = (d.x h ra).toNat ∧ ctx = fn.toNat % 4 ∧ vecs =
      bitsOf fn.toNat 6 2 + 1 ∧ d.lmapValid h.i = true ∧ inStore h.i a 16 = true ∧ a % 16 = 0 ∧ d.stepRefused h.i ctx
      vecs (a - storeBase h.i) = none ∧ d1 = d.setCore h.i
      { d.core h.i with steps := (d.core h.i).steps ++ [.step h.t ctx vecs (a - storeBase h.i)] }) ∧
    (∃ (i : _) (s : State) (run : StepRun) (t : _) (ctx : _) (vecs : _) (base : _) (rest : _), i < 27648 ∧
      (s.chip.core i).run = some run ∧ (s.chip.core i).steps = .step t ctx vecs base :: rest) ∧
    (∃ (i : _) (s : State) (run : StepRun) (t : _) (ctx : _) (vecs : _) (base : _) (rd : _), i < 27648 ∧ (s.chip.core
      i).run = some run ∧ (s.chip.core i).steps = [.step t ctx vecs base] ∧ (s.chip.thread ⟨i, t⟩).wait = .step rd ∧
      rd ≠ 0 ∧ (s.chip.thread ⟨i, t⟩).stopping = false ∧ run.skew = none) ∧
    (∃ (h : Hart) (rd : _) (ra : _) (rb : _) (fn : _) (s : State) (d : Chip), Issues s.chip h (.aclose h rd ra rb fn)
      false none d ∧ d.lmapValid h.i = true) ∧
    (∃ (w : Writer) (n : _) (p : _) (a : _) (x : Word) (s : State) (i : _) (c1 : Chip), RegAdmits s.chip w
      { name := .siteActxCfg, idx := [n, p, a] } x ∧ s.chip.logicalOf n p = some i ∧ s.chip.actxRefused i (bitsOf
      (s.chip.actxReg .siteActxTable i a) 14 0) (bitsOf x.toNat 31 0) = false ∧ c1 = s.chip.put
      { name := .siteActxCfg, idx := [n, p, a] } (BitVec.ofNat 64 (bitsOf x.toNat 31 0))) ∧
    (∃ (w : Writer) (n : _) (p : _) (x : Word) (s : State) (seed : _), RegAdmits s.chip w
      { name := .siteCoreRseedHi, idx := [n, p] } x ∧ seed = BitVec.ofNat 64 (bitsOf x.toNat 31 0 * 2 ^ 32 + s.chip.f
      Fld.siteCoreRseedLo_seed [n, p])) := by
  refine ⟨?_, ?_, ?_, ?_, ?_, ?_, ?_⟩
  · exact ⟨h0, 5, 1, 2, 0, let c := (thread0 [(encodeThread (.denq h0 5 1 2 0)).getD 0] [(1, BitVec.ofNat 64
    (storeBase 0 + 0x7F80)), (2, 0x20000)]).chip
{ chip := c.store (storeBase 0 + 0x7F80) (([0, 0x1000, 0x2000, 0x3000, 0x4000, 0x5000, 0x100010000, 0x6000, 1, 0,
  0x7000, 0x8000, 0x9000, 0, 0, 0] : List Word).flatMap fun w => leBytes 8 w.toNat) }, _, storeBase 0 + 0x7F80, _, _,
  _, issues (by decide +kernel), by decide +kernel, by decide +kernel, by decide +kernel, by decide +kernel, rfl, by
  decide +kernel, rfl, pairOf (by decide +kernel)⟩
  · exact ⟨h0, 5, 1, 0, 0x0, site0 [(encodeThread (.astep h0 5 1 0 0)).getD 0] [(1, BitVec.ofNat 64 (storeBase 0 +
    0x7F80)), (2, 0x20000)], _, storeBase 0 + 0x7F80, _, 0, 1, issues (by decide +kernel), by decide +kernel, by
    decide +kernel, by decide +kernel, by decide +kernel, by decide +kernel, by decide +kernel, ⟨by decide +kernel,
    rfl⟩⟩
  · exact ⟨0, site0 [] [] [.step 0 0 1 0x7F80] (some { ks := [], changed := 0 }), { ks := [], changed := 0 }, 0, 0,
    1, 0x7F80, [], by decide +kernel⟩
  · exact ⟨0, let c := (site0 [] [] [.step 0 0 1 0x7F80] (some { ks := [], changed := 0 })).chip
{ chip := c.mapThread h0 fun t => { t with state := 3, wait := .step 5 } }, { ks := [], changed := 0 }, 0, 0, 1,
  0x7F80, 5, by decide +kernel⟩
  · exact ⟨h0, 5, 0, 0, 0, site0 [(encodeThread (.aclose h0 5 0 0 0)).getD 0] [(1, BitVec.ofNat 64 (storeBase 0 +
    0x7F80)), (2, 0x20000)], _, issues (by decide +kernel), by decide +kernel⟩
  · exact ⟨host, 0, 0, 3, 0, onWith [reg .siteId [0, 0] 0, reg .veldLmap [0, 0] 0x80000000] id, 0, _, ⟨by
    decide +kernel, by decide +kernel, by decide +kernel, by decide +kernel⟩, by decide +kernel, by decide +kernel,
    rfl⟩
  · exact ⟨host, 35, 779, 0xFFFFFFFF, on, _, ⟨by decide +kernel, by decide +kernel, by decide +kernel, by
    decide +kernel⟩, rfl⟩

/-- Obligations.BudgetRegistersAreSet: states that meet its hypotheses. -/
theorem test_budget_registers_are_set_hypotheses :
    (∃ (w : Writer) (x : Word) (s : State) (n : _), RegAdmits s.chip w { name := .budFrameCfg } x ∧ n = bitsOf
      x.toNat 5 0 ∧ n ≠ 0 ∧ (32 / 2 ^ s.chip.f Fld.fhCfg_numerology) % n = 0) ∧
    (∃ (w : Writer) (x : Word) (s : State) (n : _), RegAdmits s.chip w { name := .budCredBudget } x ∧ n = bitsOf
      x.toNat 10 0 ∧ 400 ≤ n ∧ n ≤ 1500 ∧ s.chip.floorsAll ≤ n) ∧
    (∃ (w : Writer) (g : _) (x : Word) (s : State), g < 58 ∧ RegAdmits s.chip w { name := .budGroupCfg, idx := [g] }
      x ∧ s.chip.floorOf g ≤ bitsOf x.toNat 21 11 ∧ bitsOf x.toNat 21 11 ≤ 1500) ∧
    (∃ (m : Cmd) (s : State) (c' : Chip), MpTakes s.chip 0x0903 m c' ∧ m.stray 0x7FF = false ∧ 400 ≤ m.p ∧ m.p ≤ 1500
      ∧ c'.floorsAll ≤ m.p) := by
  refine ⟨?_, ?_, ?_, ?_⟩
  · exact ⟨host, 16, on, 16, ⟨by decide +kernel, by decide +kernel, by decide +kernel, by decide +kernel⟩, by
    decide +kernel⟩
  · exact ⟨host, 1500, on, 1500, ⟨by decide +kernel, by decide +kernel, by decide +kernel, by decide +kernel⟩, by
    decide +kernel⟩
  · exact ⟨host, 57, 3072000, on, by decide +kernel, ⟨by decide +kernel, by decide +kernel, by decide +kernel, by
    decide +kernel⟩, by decide +kernel⟩
  · exact ⟨cmd 1500, on, _, mpTakes (by decide +kernel), by decide +kernel⟩

/-- Obligations.LeasesFollowTheAllowance: states that meet its hypotheses. -/
theorem test_leases_follow_the_allowance_hypotheses :
    (∃ (g : Gate) (t : _) (q : _) (s : State) (n : _), gateExists g = true ∧ t < 64 ∧ (∀ a, s.chip.allowance t
      (gateClass g) = some a → s.chip.usedOf t (gateClass g) < a) ∧ n = max (classUnit (gateClass g)) q) ∧
    (∃ (g : Gate) (t : _) (s : State) (a : _), gateExists g = true ∧ t < 64 ∧ s.chip.allowance t (gateClass g) = some
      a ∧ a ≤ s.chip.usedOf t (gateClass g)) ∧
    (∃ (g : Gate) (t : _) (s : State) (w : Waiting) (c1 : Chip), gateExists g = true ∧ t < 64 ∧ s.chip.f
      Fld.budWaitLimit_waitFrames [t] ≠ 0 ∧ (s.chip.waitingAt g t).filter (fun w => decide (s.chip.f
      Fld.budWaitLimit_waitFrames [t] ≠ 0 ∧ s.chip.f Fld.budWaitLimit_waitFrames [t] + 1 ≤ w.met)) = [w] ∧
      s.chip.endWaiting (w.job.getD g) t = (c1, true)) := by
  refine ⟨?_, ?_, ?_⟩
  · exact ⟨.dale 143, 0, 5, on, _, by decide +kernel, by decide +kernel, (noneSome (by decide +kernel)), rfl⟩
  · exact ⟨.core 27647, 63, on, 0, by decide +kernel⟩
  · exact ⟨.coder false, 63, onWith [reg .budWaitLimit [63] 1] fun c =>
    { c with coderJobs := [{ id := 0, tent := 63, desc := [0, 0x6400000064] }],
             bud :=
    { c.bud with waiting := [{ gate := .coder false, tent := 63, qty := 1, credit := false, met := 2 }] } },
    { gate := .coder false, tent := 63, qty := 1, credit := false, met := 2 }, _, by decide +kernel, by
    decide +kernel, by decide +kernel, by decide +kernel, pairOf2 (by decide +kernel)⟩

/-- Obligations.ArbiterKeepsItsAccounts: states that meet its hypotheses. -/
theorem test_arbiter_keeps_its_accounts_hypotheses :
    (∃ (a : Asker) (s : State), askerExists a = true ∧ s.chip.neverGranted (askerGroup a) (askerStep a) = false ∧ (∀
      r, r ∈ s.chip.bud.requests → r.who ≠ a)) ∧
    (∃ (s : State) (r : CreditReq) (c1 : Chip), firstFit s.chip.fits s.chip.bud.requests = some r ∧ c1 =
      ({ s.chip with bud := { s.chip.bud with requests := passOver r s.chip.bud.requests } } : Chip)) ∧
    (∃ (g : _) (s : State), g < 58 ∧ s.chip.f Fld.budGroupCfg_ramp [g] ≠ 0) ∧
    (∃ (k : _) (s : State), k < 144 ∧ (s.chip.dale k).active = true ∧ (s.chip.dale k).run = none) ∧
    (∃ (n : _) (s : State), n < 36 ∧ 0 < (s.chip.veld n).reads ∧ s.chip.reading n ≤ 64 * ((s.chip.veld n).reads - 1))
      ∧
    (∃ (n : _) (p : _) (s : State), n < 36 ∧ p < 800 ∧ 0 < (s.chip.veld n).pairs ∧ s.chip.programming n ≤ 2 *
      ((s.chip.veld n).pairs - 1)) ∧
    (∃ (q : _) (s : State), q < 4 ∧ s.chip.floorOf (48 + q) < s.chip.granted (48 + q)) ∧
    (∃ (s : State), s.chip.coderBusy 0 < s.chip.decCredit) ∧
    (∃ (s : State), s.chip.coderBusy 1 < s.chip.encCredit) ∧
    (∃ (k : _) (s : State), k < 12 ∧ bitOf (s.chip.f Fld.passPort_boostOn) k = true ∧ s.chip.bud.shed.contains
      (.booster k) = true) := by
  refine ⟨?_, ?_, ?_, ?_, ?_, ?_, ?_, ?_, ?_, ?_⟩
  · exact ⟨.dale 143, on, by decide +kernel, by decide +kernel, (noneIn rfl)⟩
  · exact ⟨onWith [] fun c =>
    { c with bud := { c.bud with requests := [{ who := .dale 143, group := 11, step := 4 }] } },
    { who := .dale 143, group := 11, step := 4 }, _, by decide +kernel, rfl⟩
  · exact ⟨57, on [reg .budGroupCfg [57] 0x1000000], by decide +kernel⟩
  · exact ⟨143, onWith [] fun c => { c with dales := [(143, { active := true })] }, by decide +kernel⟩
  · exact ⟨35, onWith [] fun c => { c with velds := [(35, { reads := 1 })] }, by decide +kernel⟩
  · exact ⟨35, 799, onWith [] fun c => { c with velds := [(35, { pairs := 1 })] }, by decide +kernel⟩
  · exact ⟨3, on [reg .budGroupState [51] 1500], by decide +kernel⟩
  · exact ⟨onWith [] fun c => { c with decCredit := 1 }, by decide +kernel⟩
  · exact ⟨onWith [] fun c => { c with encCredit := 1 }, by decide +kernel⟩
  · exact ⟨11, onWith [reg .passPort [] 0xFFFFFFFF] fun c => { c with bud := { c.bud with shed := [.booster 11] } },
    by decide +kernel⟩

/-- Obligations.MatrixRegistersAreSet: states that meet its hypotheses. -/
theorem test_matrix_registers_are_set_hypotheses :
    (∃ (w : Writer) (v : _) (d : _) (x : Word) (s : State) (a : _) (b : _), RegAdmits s.chip w
      { name := .daleRowmap, idx := [v, d] } x ∧ a = bitsOf x.toNat 6 0 ∧ b = bitsOf x.toNat 14 8 ∧ a ≠ b ∧ a ≤ 65 ∧
      b ≤ 65 ∧ (s.chip.dale (12 * v + d)).run = none ∧ (s.chip.dale (12 * v + d)).tile = none ∧ (s.chip.dale (12 * v
      + d)).staging = none) ∧
    (∃ (w : Writer) (v : _) (d : _) (x : Word) (s : State) (p : _), RegAdmits s.chip w
      { name := .daleColmap, idx := [v, d] } x ∧ p = bitsOf x.toNat 14 8 ∧ p ≤ 65 ∧ p ≠ s.chip.calCol (12 * v + d)) ∧
    (∃ (w : Writer) (v : _) (d : _) (x : Word) (s : State) (c1 : Chip), RegAdmits s.chip w
      { name := .daleSide, idx := [v, d] } x ∧ c1 = s.chip.count Fld.daleSide_ready [v, d] (bitsOf x.toNat 15 0)) ∧
    (∃ (w : Writer) (n : _) (x : Word) (s : State) (base : _), RegAdmits s.chip w
      { name := .veldImgBase, idx := [n] } x ∧ base = bitsOf x.toNat 22 0 ∧ bitOf x.toNat 31 = true ∧ base * 65536 +
      0x6000000 ≤ 0x4800000000 ∧ (∀ m, m < 36 → m ≠ n → s.chip.flag Fld.veldImgBase_valid [m] = true → s.chip.f
      Fld.veldImgBase_base [m] + 0x600 ≤ base ∨ base + 0x600 ≤ s.chip.f Fld.veldImgBase_base [m]) ∧ (s.chip.flag
      Fld.veldImgBase_valid [n] = true → base = s.chip.f Fld.veldImgBase_base [n])) := by
  refine ⟨?_, ?_, ?_, ?_⟩
  · exact ⟨host, 11, 11, 0x4041, on, 65, 64, ⟨by decide +kernel, by decide +kernel, by decide +kernel, by
    decide +kernel⟩, by decide +kernel⟩
  · exact ⟨host, 11, 11, 0x4000, on, 64, ⟨by decide +kernel, by decide +kernel, by decide +kernel, by
    decide +kernel⟩, by decide +kernel⟩
  · exact ⟨host, 11, 11, 0xFFFF, on, _, ⟨by decide +kernel, by decide +kernel, by decide +kernel, by decide +kernel⟩,
    rfl⟩
  · exact ⟨host, 35, 0x80000000, on, 0, ⟨by decide +kernel, by decide +kernel, by decide +kernel, by decide +kernel⟩,
    by decide +kernel⟩

/-- Obligations.ConverterRegistersAct: states that meet its hypotheses. -/
theorem test_converter_registers_act_hypotheses :
    (∃ (w : Writer) (v : _) (l : _) (x : Word) (s : State) (y : _), y = x ||| 0x80000000 ∧ RegAdmits s.chip w
      { name := .convCtl, idx := [v, l] } x ∧ bitOf y.toNat 30 = false ∧ s.chip.flag Fld.convCtl_active [v, l] =
      false) ∧
    (∃ (w : Writer) (v : _) (l : _) (x : Word) (s : State) (e : _) (q : _) (b : _), RegAdmits s.chip w
      { name := .convCtl, idx := [v, l] } x ∧ bitOf x.toNat 31 = false ∧ s.chip.flag Fld.convCtl_active [v, l] = true
      ∧ (s.chip.adc v l).run = .entry e q b) ∧
    (∃ (w : Writer) (v : _) (l : _) (x : Word) (s : State), RegAdmits s.chip w { name := .convTrkClr, idx := [v, l] }
      x) ∧
    (∃ (w : Writer) (k : _) (x : Word) (s : State), RegAdmits s.chip w { name := .pwrHkTrkClr, idx := [k] } x) ∧
    (∃ (w : Writer) (v : _) (l : _) (x : Word) (s : State), RegAdmits s.chip w { name := .convInj, idx := [v, l] } x
      ∧ injRefused x.toNat = false ∧ s.chip.f Fld.convCtl_injPend [v, l] < 8) ∧
    (∃ (w : Writer) (v : _) (l : _) (e : _) (x : Word) (s : State), RegAdmits s.chip w
      { name := .convSeq, idx := [v, l, e] } x ∧ seqRefused x.toNat = false) ∧
    (∃ (w : Writer) (v : _) (k : _) (x : Word) (s : State), RegAdmits s.chip w { name := .convTrig, idx := [v, k] } x
      ∧ (bitOf x.toNat 31 = true → 50 ≤ bitsOf x.toNat 10 0 ∧ bitsOf x.toNat 10 0 ≤ 2000 ∧ bitsOf x.toNat 26 16 <
      bitsOf x.toNat 10 0)) ∧
    (∃ (w : Writer) (e : _) (x : Word) (s : State), RegAdmits s.chip w { name := .pwrHkSeq, idx := [e] } x ∧
      hkRefused x.toNat = false ∧ (∀ k, k < 4 → roundLoad (s.chip.hkEntries k e x.toNat) ≤ 1000)) := by
  refine ⟨?_, ?_, ?_, ?_, ?_, ?_, ?_, ?_⟩
  · exact ⟨host, 11, 70, 0, on, 0x80000000, by decide +kernel, ⟨by decide +kernel, by decide +kernel, by
    decide +kernel, by decide +kernel⟩, by decide +kernel⟩
  · exact ⟨host, 0, 0, 0, onWith [reg .convCtl [0, 0] 0xFFFFFFFF] fun c =>
    { c with adcs := [((0, 0), { run := .entry 63 0 false })] }, 63, 0, false, ⟨by decide +kernel, by decide +kernel,
    by decide +kernel, by decide +kernel⟩, by decide +kernel⟩
  · exact ⟨host, 11, 70, 0, on, ⟨by decide +kernel, by decide +kernel, by decide +kernel, by decide +kernel⟩⟩
  · exact ⟨host, 3, 0, on, ⟨by decide +kernel, by decide +kernel, by decide +kernel, by decide +kernel⟩⟩
  · exact ⟨host, 11, 70, 0x80000200, on, ⟨by decide +kernel, by decide +kernel, by decide +kernel, by
    decide +kernel⟩, by decide +kernel⟩
  · exact ⟨host, 11, 70, 63, 0x3F80000200, on, ⟨by decide +kernel, by decide +kernel, by decide +kernel, by
    decide +kernel⟩, by decide +kernel⟩
  · exact ⟨host, 11, 3, 0x803107D0, on, ⟨by decide +kernel, by decide +kernel, by decide +kernel, by decide +kernel⟩,
    by decide +kernel⟩
  · exact ⟨host, 255, 0x80000200, on, ⟨by decide +kernel, by decide +kernel, by decide +kernel, by decide +kernel⟩,
    by decide +kernel⟩

/-- Obligations.LoopRegistersAct: states that meet its hypotheses. -/
theorem test_loop_registers_act_hypotheses :
    (∃ (w : Writer) (v : _) (n : _) (x : Word) (s : State), RegAdmits s.chip w { name := .drvCh, idx := [v, n] } x ∧
      s.chip.flag Fld.drvCh_assigned [v, n] = false) ∧
    (∃ (w : Writer) (v : _) (x : Word) (s : State), RegAdmits s.chip w { name := .drvPair, idx := [v] } x) ∧
    (∃ (w : Writer) (v : _) (t : _) (x : Word) (s : State), RegAdmits s.chip w { name := .drvToneCtl, idx := [v, t] }
      x) ∧
    (∃ (w : Writer) (v : _) (n : _) (xs : _) (s : State), RegAdmits s.chip w { name := .guyLoop, idx := [v, n] }
      (xs.headD 0) ∧ xs.length = 8 ∧ s.chip.loopRefused v n xs = false) ∧
    (∃ (w : Writer) (v : _) (n : _) (k : _) (xs : _) (s : State) (r : _), RegAdmits s.chip w
      { name := .guyCoef, idx := [v, n, k] } (xs.headD 0) ∧ xs.length = 8 ∧ coefsWellFormed xs = true ∧
      s.chip.loopState v n = 0 ∧ r = normaliseCoefs (s.chip.gen (.guyline v)) xs) ∧
    (∃ (w : Writer) (v : _) (x : Word) (s : State), RegAdmits s.chip w { name := .guySeedHi, idx := [v] } x) ∧
    (∃ (w : Writer) (v : _) (x : Word) (s : State) (n : _), RegAdmits s.chip w { name := .guyTestCtl, idx := [v] } x
      ∧ n = (x ||| 0x80000000).toNat ∧ bitOf n 30 = false ∧ bitsOf n 25 24 ≠ 3 ∧ bitsOf n 25 24 ≠ 2 ∧ (bitOf n 23 =
      true → s.chip.f Fld.guyTestAmp_amp [v] * 2 ^ s.chip.f Fld.guyTestAmp_shift [v] ≤ 2 ^ 23) ∧ s.chip.flag
      Fld.guyTestCtl_active [v] = false ∧ s.chip.loopState v (bitsOf n 10 0) ≠ 0) ∧
    (∃ (w : Writer) (v : _) (x : Word) (s : State) (n : _), RegAdmits s.chip w { name := .guyTestCtl, idx := [v] } x
      ∧ n = (x ||| 0x40000000).toNat ∧ bitOf n 31 = false ∧ bitsOf n 25 24 ≠ 3 ∧ bitOf n 23 = false ∧ bitsOf n 10 0 =
      s.chip.f Fld.guyTestCtl_loop [v]) ∧
    (∃ (w : Writer) (v : _) (x : Word) (s : State) (n : _), RegAdmits s.chip w { name := .guyCapCtl, idx := [v] } x ∧
      n = (x ||| 0x8000000000000000).toNat ∧ bitOf n 62 = false ∧ bitsOf n 60 44 ≤ 65536 ∧ s.chip.flag
      Fld.guyCapState_active [v] = false ∧ capBaseOk v (s.chip.f Fld.guyCapBase_base [v]) = true) ∧
    (∃ (w : Writer) (v : _) (x : Word) (s : State) (n : _), RegAdmits s.chip w { name := .guyCapCtl, idx := [v] } x ∧
      n = (x ||| 0x4000000000000000).toNat ∧ bitOf n 63 = false ∧ bitsOf n 60 44 ≤ 65536) := by
  refine ⟨?_, ?_, ?_, ?_, ?_, ?_, ?_, ?_, ?_, ?_⟩
  · exact ⟨host, 11, 1919, 0x3FFF, on, ⟨by decide +kernel, by decide +kernel, by decide +kernel, by decide +kernel⟩,
    by decide +kernel⟩
  · exact ⟨host, 11, 0x3F, on, ⟨by decide +kernel, by decide +kernel, by decide +kernel, by decide +kernel⟩⟩
  · exact ⟨host, 11, 15, 0x80000FFF, on, ⟨by decide +kernel, by decide +kernel, by decide +kernel, by decide +kernel⟩⟩
  · exact ⟨host, 11, 2047, [18691700948993, 70, 4194175, 144106392251269120, 0, 0, 0, 0], on (([18691700948993, 70,
    4194175, 144106392251269120, 0, 0, 0, 0] : List Word).mapIdx fun k x => (⟨.guyLoop, [11, 2047], k⟩, x)), ⟨by
    decide +kernel, by decide +kernel, by decide +kernel, by decide +kernel⟩, by decide +kernel⟩
  · exact ⟨host, 11, 2047, 1, [0, 0, 0, 0, 0, 0, 0, 0], on, _, ⟨by decide +kernel, by decide +kernel, by
    decide +kernel, by decide +kernel⟩, by decide +kernel, by decide +kernel, by decide +kernel, rfl⟩
  · exact ⟨host, 11, 0xFFFFFFFF, on, ⟨by decide +kernel, by decide +kernel, by decide +kernel, by decide +kernel⟩⟩
  · exact ⟨host, 11, 0x80000A, on [reg .guyTestAmp [11] 0x17000001, reg .guyLstate [11, 10] 4], _, ⟨by
    decide +kernel, by decide +kernel, by decide +kernel, by decide +kernel⟩, rfl, by decide +kernel⟩
  · exact ⟨host, 11, 0x400007FF, on [reg .guyTestCtl [11] 0x200007FF], _, ⟨by decide +kernel, by decide +kernel, by
    decide +kernel, by decide +kernel⟩, rfl, by decide +kernel⟩
  · exact ⟨host, 11, 1152921504606846976, on [reg .guyCapBase [11] 0x81000580], _, ⟨by decide +kernel, by
    decide +kernel, by decide +kernel, by decide +kernel⟩, rfl, by decide +kernel⟩
  · exact ⟨host, 11, 1152921504606846976, on, _, ⟨by decide +kernel, by decide +kernel, by decide +kernel, by
    decide +kernel⟩, rfl, by decide +kernel⟩

/-- Obligations.RadioRegistersAct: states that meet its hypotheses. -/
theorem test_radio_registers_act_hypotheses :
    (∃ (w : Writer) (x : Word) (s : State) (y : _), RegAdmits s.chip w { name := .fhCfg } x ∧ y = x.toNat ∧ bitsOf y
      27 24 ≠ 0 ∧ 24 ≤ bitsOf y 22 16 ∧ bitsOf y 22 16 ≤ 43 ∧ bitsOf y 5 4 ≠ 3 ∧ bitsOf y 2 0 ≤ 4 ∧ (bitsOf y 2 0 =
      s.chip.f Fld.fhCfg_numerology ∨ s.chip.anyEaxc = false)) ∧
    (∃ (w : Writer) (x : Word) (s : State) (v : _), RegAdmits s.chip w { name := .fhOffset } x ∧ v = signedOf 32
      (bitsOf x.toNat 31 0) ∧ -10000000 ≤ v ∧ v ≤ 10000000) ∧
    (∃ (w : Writer) (x : Word) (s : State) (y : _), RegAdmits s.chip w { name := .fhWin } x ∧ y = x.toNat ∧ bitsOf y
      29 20 < bitsOf y 9 0 ∧ bitsOf y 39 30 ≠ 0 ∧ bitsOf y 29 20 ≠ 0 ∧ bitsOf y 19 10 ≠ 0) ∧
    (∃ (w : Writer) (k : _) (x0 : Word) (x1 : Word) (s : State) (e : _), RegAdmits s.chip w
      { name := .fhEaxc, idx := [k] } x0 ∧ e = Eaxc.ofWords (x0.toNat, x1.toNat) ∧ bitsOf x0.toNat 26 16 = 0 ∧ bitsOf
      x1.toNat 63 48 = 0 ∧ e.nPrb ≠ 0 ∧ e.nPrb ≤ 275 ∧ (e.mDl = 0 → e.wDl = 16) ∧ (e.mUl = 0 → e.wUl = 16) ∧ e.base %
      64 = 0 ∧ s.chip.admits e.tent .r e.base e.bufBytes = true ∧ s.chip.admits e.tent .w e.base e.bufBytes = true) ∧
    (∃ (w : Writer) (x : Word) (s : State), RegAdmits s.chip w { name := .fhSfnSet } x) ∧
    (∃ (w : Writer) (t : _) (x : Word) (s : State) (a : _) (ws : _) (c1 : Chip) (c2 : Chip), RegAdmits s.chip w
      { name := .decSubmit, idx := [t] } x ∧ a = bitsOf x.toNat 47 0 ∧ a % 64 = 0 ∧ inMemory a 64 = true ∧
      s.chip.admits t .r a 64 = true ∧ (∀ p, p ∈ s.chip.submits → p.1 ≠ t) ∧
      ({ s.chip with submits := s.chip.submits ++ [(t, a)] } : Chip).admitAll t (memAccess a 64) = (c1, true) ∧ ws =
      (List.range 8).map (fun k => BitVec.ofNat 64 (s.chip.num (a + 8 * k) 8)) ∧
      ({ c1 with submits := c1.submits.erase (t, a) } : Chip).enqueueCoder { id := 0, tent := t, desc := ws } =
      (Status.ok, c2)) ∧
    (∃ (w : Writer) (t : _) (x : Word) (s : State) (a : _) (c1 : Chip), RegAdmits s.chip w
      { name := .decSubmit, idx := [t] } x ∧ a = bitsOf x.toNat 47 0 ∧ a % 64 = 0 ∧ inMemory a 64 = true ∧
      s.chip.admits t .r a 64 = true ∧ (∀ p, p ∈ s.chip.submits → p.1 ≠ t) ∧
      ({ s.chip with submits := s.chip.submits ++ [(t, a)] } : Chip).admitAll t (memAccess a 64) = (c1, false)) ∧
    (∃ (w : Writer) (t : _) (x0 : Word) (x1 : Word) (s : State) (first : _) (count : _) (kib : _) (pool : _) (rs :
      _), RegAdmits s.chip w { name := .decHarqCfg, idx := [t] } x0 ∧ first = bitsOf x0.toNat 19 0 ∧ count = bitsOf
      x0.toNat 40 20 ∧ kib = bitsOf x0.toNat 55 44 ∧ pool = bitsOf x1.toNat 47 0 ∧ kib ≠ 0 ∧ first + count ≤ 1048576
      ∧ pool % 256 = 0 ∧ (∀ v, v < 64 → v ≠ t → rangesMeet (first, count) (s.chip.f Fld.decHarqCfg_first [v],
      s.chip.f Fld.decHarqCfg_count [v]) = false) ∧ (count * kib * 1024 ≠ 0 → inGddr (pool + count * kib * 1024 - 1)
      = true ∧ s.chip.admits t .r pool (count * kib * 1024) = true ∧ s.chip.admits t .w pool (count * kib * 1024) =
      true) ∧ rs = [(s.chip.f Fld.decHarqCfg_first [t], s.chip.f Fld.decHarqCfg_count [t]), (first, count)]) ∧
    (∃ (w : Writer) (x : Word) (s : State) (h : _), RegAdmits s.chip w { name := .decHarqClr } x ∧ h = bitsOf x.toNat
      19 0) := by
  refine ⟨?_, ?_, ?_, ?_, ?_, ?_, ?_, ?_, ?_⟩
  · exact ⟨host, 0x12B0001, on, _, ⟨by decide +kernel, by decide +kernel, by decide +kernel, by decide +kernel⟩, rfl,
    by decide +kernel⟩
  · exact ⟨host, 4284967296, on, -10000000, ⟨by decide +kernel, by decide +kernel, by decide +kernel, by
    decide +kernel⟩, by decide +kernel⟩
  · exact ⟨host, 1074791427, on, _, ⟨by decide +kernel, by decide +kernel, by decide +kernel, by decide +kernel⟩,
    rfl, by decide +kernel⟩
  · exact ⟨host, 4095, 36909875200, 0x40, on, _, ⟨by decide +kernel, by decide +kernel, by decide +kernel, by
    decide +kernel⟩, rfl, by decide +kernel⟩
  · exact ⟨host, 1023, on, ⟨by decide +kernel, by decide +kernel, by decide +kernel, by decide +kernel⟩⟩
  · exact ⟨host, 0, 0x40, onWith granted fun c => c.store 0x40 (([2, 0xC0000000C, 0, 0x1000, 0x2000, 0x3000, 0,
    0x4000] : List Word).flatMap fun w => leBytes 8 w.toNat), _, _, _, _, ⟨by decide +kernel, by decide +kernel, by
    decide +kernel, by decide +kernel⟩, rfl, by decide +kernel, by decide +kernel, by decide +kernel, (noneIn rfl),
    pairOf2 (by decide +kernel), rfl, pairOf (by decide +kernel)⟩
  · exact ⟨host, 0, 0x40, on, _, _, ⟨by decide +kernel, by decide +kernel, by decide +kernel, by decide +kernel⟩,
    rfl, by decide +kernel, by decide +kernel, by decide +kernel, (noneIn rfl), (pairOf2 (by decide +kernel))⟩
  · exact ⟨host, 0, 17592188141567, 0x100, on, 0xFFFFF, 1, 1, _, _, ⟨by decide +kernel, by decide +kernel, by
    decide +kernel, by decide +kernel⟩, by decide +kernel, by decide +kernel, by decide +kernel, rfl, by
    decide +kernel, by decide +kernel, by decide +kernel, by decide +kernel, by decide +kernel, rfl⟩
  · exact ⟨host, 0xFFFFF, on, _, ⟨by decide +kernel, by decide +kernel, by decide +kernel, by decide +kernel⟩, rfl⟩

/-- Obligations.MessageAndPassRegistersAct: states that meet its hypotheses. -/
theorem test_message_and_pass_registers_act_hypotheses :
    (∃ (w : Writer) (t : _) (x : Word) (s : State) (a : _) (p : _), RegAdmits s.chip w
      { name := .sysMsgPost, idx := [t] } x ∧ a = bitsOf x.toNat 47 0 ∧ a % 32 = 0 ∧ s.chip.admits t .r a 32 = true ∧
      p = ({ addr := s.chip.num a 8, len := s.chip.num (a + 8) 4, done := s.chip.num (a + 16) 8 } : Post) ∧ (p.done =
      0 ∨ (p.done % 8 = 0 ∧ s.chip.admits t .w p.done 8 = true)) ∧ 0 < p.len ∧ p.len ≤ 65536 ∧ s.chip.num (a + 24) 8
      = 0 ∧ s.chip.admits t .r p.addr p.len = true ∧ bitOf (s.chip.get { name := .sysMsgMask, idx := [t] }).toNat 5 =
      true ∧ (s.chip.msgQ t).q.length < 256 ∧ s.chip.f Fld.sysMsgq_lost [t] = 0) ∧
    (∃ (w : Writer) (x : Word) (s : State), RegAdmits s.chip w { name := .passCfg } x ∧ bitsOf x.toNat 23 16 ≠ 0 ∧
      (bitsOf x.toNat 15 0 = s.chip.moduleId ∨ s.chip.anyCircuit = false)) ∧
    (∃ (w : Writer) (x : Word) (s : State) (en : _) (c1 : Chip), RegAdmits s.chip w { name := .passPort } x ∧ en =
      bitsOf x.toNat 11 0 ∧ c1 = s.chip.setF Fld.passPort_boostEn [] en ∧ (∀ k, k < 12 → bitOf en k = true)) ∧
    (∃ (w : Writer) (x : Word) (s : State) (k : _), RegAdmits s.chip w { name := .passPort } x ∧ bitsOf x.toNat 11 0
      = 0 ∧ k < 12) ∧
    (∃ (w : Writer) (m : _) (x : Word) (s : State), RegAdmits s.chip w { name := .passRoute, idx := [m] } x ∧
      s.chip.routeRefused x.toNat = false ∧ s.chip.passes.routes = [] ∧ s.chip.framesFor m = false) ∧
    (∃ (w : Writer) (m : _) (x : Word) (s : State), RegAdmits s.chip w { name := .passRoute, idx := [m] } x ∧
      s.chip.routeRefused x.toNat = false ∧ s.chip.passes.routes = [] ∧ s.chip.framesFor m = true) ∧
    (∃ (w : Writer) (k : _) (x0 : Word) (x1 : Word) (s : State) (e : _), RegAdmits s.chip w
      { name := .passExport, idx := [k] } x0 ∧ e = Export.ofWords x0.toNat x1.toNat ∧ 12 ≤ e.size ∧ e.size ≤ 28 ∧
      e.base % 2 ^ e.size = 0 ∧ e.off % 2 ^ e.size = 0 ∧ (e.valid = true → e.r = true → s.chip.admits e.tent .r
      e.base (2 ^ e.size) = true) ∧ (e.valid = true → e.w = true → s.chip.admits e.tent .w e.base (2 ^ e.size) =
      true) ∧ (e.valid = true → e.a = true → s.chip.admits e.tent .a e.base (2 ^ e.size) = true)) ∧
    (∃ (w : Writer) (x : Word) (s : State), RegAdmits s.chip w { name := .lantSec } x) := by
  refine ⟨?_, ?_, ?_, ?_, ?_, ?_, ?_, ?_⟩
  · exact ⟨host, 0, 0x20, onWith [reg .sysMsgMask [0] 0x20] fun c => c.store 0x28 [1], _, _, ⟨by decide +kernel, by
    decide +kernel, by decide +kernel, by decide +kernel⟩, rfl, by decide +kernel, by decide +kernel, rfl, by
    decide +kernel⟩
  · exact ⟨host, 0x10001, on, ⟨by decide +kernel, by decide +kernel, by decide +kernel, by decide +kernel⟩, by
    decide +kernel⟩
  · exact ⟨host, 0xFFF, on, 0xFFF, _, ⟨by decide +kernel, by decide +kernel, by decide +kernel, by decide +kernel⟩,
    by decide +kernel, rfl, by decide +kernel⟩
  · exact ⟨host, 0, on, 11, ⟨by decide +kernel, by decide +kernel, by decide +kernel, by decide +kernel⟩, by
    decide +kernel⟩
  · exact ⟨host, 65535, 0, on, ⟨by decide +kernel, by decide +kernel, by decide +kernel, by decide +kernel⟩, by
    decide +kernel⟩
  · exact ⟨host, 65535, 0, onWith [] fun c =>
    { c with passes := { c.passes with gate := [{ lane := 0, frame := frameTo 65535 0 }] } }, ⟨by decide +kernel, by
    decide +kernel, by decide +kernel, by decide +kernel⟩, by decide +kernel⟩
  · exact ⟨host, 63, 0xF00C000000000000, 0, on, _, ⟨by decide +kernel, by decide +kernel, by decide +kernel, by
    decide +kernel⟩, rfl, by decide +kernel⟩
  · exact ⟨host, 0xFFFFFFFFFFFF, on, ⟨by decide +kernel, by decide +kernel, by decide +kernel, by decide +kernel⟩⟩

/-- Obligations.MaintenanceCommandsAct: states that meet its hypotheses. -/
theorem test_maintenance_commands_act_hypotheses :
    (∃ (m : Cmd) (s : State) (c' : Chip) (n : _), MpTakes s.chip 0x0103 m c' ∧ m.stray 0xFFFF = false ∧ bitsOf m.p 7
      0 = 0 ∧ n = bitsOf m.p 15 8 ∧ n < 12 ∧ c'.drainOf 0 n = none ∧ c'.valeRuns n = true) ∧
    (∃ (m : Cmd) (s : State) (c' : Chip) (n : _) (c1 : Chip), MpTakes s.chip 0x0103 m c' ∧ m.stray 0xFFFF = false ∧
      bitsOf m.p 7 0 = 0 ∧ n = bitsOf m.p 15 8 ∧ n < 12 ∧ c'.drainOf 0 n = none ∧ c'.valeRuns n = false ∧ c1 =
      ((c'.accept 0x0103 m).setDrain 0 n { cmds := [m] }).drainUnitBegin 0 n) ∧
    (∃ (m : Cmd) (s : State) (c' : Chip) (n : _) (c1 : Chip), MpTakes s.chip 0x0103 m c' ∧ m.stray 0xFFFF = false ∧
      bitsOf m.p 7 0 = 1 ∧ n = bitsOf m.p 15 8 ∧ n < 36 ∧ c'.drainOf 1 n = none ∧ c1 = ((c'.accept 0x0103 m).setDrain
      1 n { cmds := [m] }).drainUnitBegin 1 n) ∧
    (∃ (m : Cmd) (s : State) (c' : Chip) (k : _) (n : _) (d : _), MpTakes s.chip 0x0104 m c' ∧ m.stray 0xFFFF = false
      ∧ k = bitsOf m.p 7 0 ∧ n = bitsOf m.p 15 8 ∧ drainUnit k n = true ∧ c'.drainOf k n = some d ∧ d.fault = false ∧
      d.done = true) ∧
    (∃ (k : _) (n : _) (s : State) (d : Drain) (c1 : Chip), drainUnit k n = true ∧ s.chip.drainOf k n = some d ∧
      d.done = false ∧ d.resume = [] ∧ c1 = (s.chip.setDrain k n { d with done := true }).drainUnitEnd k n d.fault) ∧
    (∃ (die : _) (i : _) (ch : _) (k : _) (n : _) (s : State) (c1 : Chip) (c2 : Chip), die < 4 ∧ drainUnit k n = true
      ∧ s.chip.powered = true ∧ s.chip.drainOf k n = none ∧ c1 = (s.chip.put { name := .sysChanfaultLoc }
      (BitVec.ofNat 64 (die * 2 ^ 24 + i % 256 * 2 ^ 16 + ch % 65536))).ev .sysEvChanfault ∧ c2 = (c1.setDrain k n
      { fault := true }).drainUnitBegin k n) ∧
    (∃ (m : Cmd) (s : State) (c' : Chip) (c1 : Chip), MpTakes s.chip 0x0901 m c' ∧ m.stray 0 = false ∧ c'.device =
      .hold ∧ 60 * 32768 ≤ c'.boot.holdTicks ∧ c'.flag Fld.lantCmp_coolantHot = false ∧ c1 =
      ({ c' with device := .starting, boot := { c'.boot with release := true } } : Chip)) ∧
    (∃ (m : Cmd) (s : State) (c' : Chip), MpTakes s.chip 0x0902 m c' ∧ m.stray 0 = false) := by
  refine ⟨?_, ?_, ?_, ?_, ?_, ?_, ?_, ?_⟩
  · exact ⟨cmd 0xB00, onWith [] fun c =>
    { c with dales := [(143, { run := some { job := { tent := 0, desc := [] }, phase := .credit } })] }, _, 11,
    mpTakes (by decide +kernel), by decide +kernel⟩
  · exact ⟨cmd 0xB00, on, _, 11, _, mpTakes (by decide +kernel), by decide +kernel, by decide +kernel, by
    decide +kernel, by decide +kernel, by decide +kernel, by decide +kernel, rfl⟩
  · exact ⟨cmd 0x2301, on, _, 35, _, mpTakes (by decide +kernel), by decide +kernel, by decide +kernel, by
    decide +kernel, by decide +kernel, by decide +kernel, rfl⟩
  · exact ⟨cmd 0x2301, onWith [] fun c => { c with drains := [((1, 35), { done := true })] }, _, 1, 35,
    { done := true }, mpTakes (by decide +kernel), by decide +kernel⟩
  · exact ⟨1, 35, onWith [] fun c => { c with drains := [((1, 35), {})] }, {}, _, by decide +kernel, by
    decide +kernel, by decide +kernel, by decide +kernel, rfl⟩
  · exact ⟨3, 65535, 65535, 1, 35, on, _, _, by decide +kernel, by decide +kernel, by decide +kernel, by
    decide +kernel, rfl, rfl⟩
  · exact ⟨cmd, onWith [] fun c => { c with device := .hold, boot := { c.boot with holdTicks := 60 * 32768 } }, _, _,
    mpTakes (by decide +kernel), by decide +kernel, by decide +kernel, by decide +kernel, by decide +kernel, rfl⟩
  · exact ⟨cmd, on, _, mpTakes (by decide +kernel), by decide +kernel⟩

/-- Obligations.EngineCommandsAct: states that meet its hypotheses. -/
theorem test_engine_commands_act_hypotheses :
    (∃ (m : Cmd) (s : State) (c' : Chip) (v : _) (l : _), MpTakes s.chip 0x0701 m c' ∧ v = bitsOf m.p 3 0 ∧ l =
      bitsOf m.p 14 8 ∧ m.stray 0x7F0F = false ∧ v < 12 ∧ l < 71 ∧ injRefused (m.word 1) = false ∧ c'.f
      Fld.convCtl_injPend [v, l] < 8) ∧
    (∃ (m : Cmd) (s : State) (c' : Chip) (v : _) (l : _) (first : _), MpTakes s.chip 0x0702 m c' ∧ v = bitsOf m.p 3 0
      ∧ l = bitsOf m.p 14 8 ∧ first = bitsOf m.p 21 16 ∧ m.stray 0x3F3F7F0F = false ∧ v < 12 ∧ l < 71 ∧
      m.words.length = bitsOf m.p 29 24 + 1 ∧ first + m.words.length ≤ 64 ∧ (∀ x, x ∈ m.words → seqRefused x.toNat =
      false)) ∧
    (∃ (m : Cmd) (s : State) (c' : Chip) (v : _) (n : _), MpTakes s.chip 0x0801 m c' ∧ v = bitsOf m.p 3 0 ∧ n =
      bitsOf m.p 26 16 ∧ m.stray 0x7FF000F = false ∧ chanOk v n = true ∧ c'.flag Fld.drvCh_assigned [v, n] = false) ∧
    (∃ (m : Cmd) (s : State) (c' : Chip) (v : _) (d : _), MpTakes s.chip 0x0802 m c' ∧ v = bitsOf m.p 3 0 ∧ d =
      bitsOf m.p 11 8 ∧ m.stray 0xF0F = false ∧ v < 12 ∧ d < 12 ∧ bitsOf (m.word 4) 15 0 = 0 ∧ bitsOf (m.word 13) 63
      32 = 0) ∧
    (∃ (m : Cmd) (s : State) (c' : Chip) (v : _) (n : _) (c1 : Chip), MpTakes s.chip 0x0601 m c' ∧ v = bitsOf m.p 3 0
      ∧ n = bitsOf m.p 26 16 ∧ m.stray 0x7FF000F = false ∧ v ≤ 11 ∧ c'.wGuyLoop v n m.words = (Status.ok, c1)) ∧
    (∃ (m : Cmd) (s : State) (c' : Chip) (v : _) (n : _) (k : _) (r : _), MpTakes s.chip 0x0602 m c' ∧ v = bitsOf m.p
      3 0 ∧ n = bitsOf m.p 26 16 ∧ k = bitsOf m.p 32 32 ∧ m.stray 0x307FF000F = false ∧ v ≤ 11 ∧ coefsWellFormed
      m.words = true ∧ c'.loopState v n = 0 ∧ r = normaliseCoefs (c'.gen (.guyline v)) m.words) ∧
    (∃ (m : Cmd) (s : State) (c' : Chip) (v : _), MpTakes s.chip 0x0603 m c' ∧ v = bitsOf m.p 3 0 ∧ m.stray 0xF =
      false ∧ v ≤ 11) := by
  refine ⟨?_, ?_, ?_, ?_, ?_, ?_, ?_⟩
  · exact ⟨cmd 0x460B [0x80000200], on, _, 11, 70, mpTakes (by decide +kernel), by decide +kernel⟩
  · exact ⟨cmd 0x13E460B [0x80000200, 0x80000200], on, _, 11, 70, 62, mpTakes (by decide +kernel), by decide +kernel,
    by decide +kernel, by decide +kernel, by decide +kernel, by decide +kernel, by decide +kernel, ⟨by
    decide +kernel, by decide +kernel, (noneOf (by decide +kernel))⟩⟩
  · exact ⟨cmd 0x77F000B [0], on, _, 11, 1919, mpTakes (by decide +kernel), by decide +kernel⟩
  · exact ⟨cmd 0xB0B (List.replicate 13 0), on, _, 11, 11, mpTakes (by decide +kernel), by decide +kernel⟩
  · exact ⟨cmd 0x7FF000B [18691700948993, 70, 4194175, 144106392251269120, 0, 0, 0, 0], on, _, 11, 2047, _, mpTakes
    (by decide +kernel), by decide +kernel, by decide +kernel, by decide +kernel, by decide +kernel, pairOf (by
    decide +kernel)⟩
  · exact ⟨cmd 0x107FF000B (List.replicate 8 0), on, _, 11, 2047, 1, _, mpTakes (by decide +kernel), by
    decide +kernel, by decide +kernel, by decide +kernel, by decide +kernel, by decide +kernel, by decide +kernel,
    ⟨by decide +kernel, rfl⟩⟩
  · exact ⟨cmd 0xB, on, _, 11, mpTakes (by decide +kernel), by decide +kernel⟩

/-- Obligations.CalibrationCommandsAct: states that meet its hypotheses. -/
theorem test_calibration_commands_act_hypotheses :
    (∃ (m : Cmd) (s : State) (c' : Chip), MpTakes s.chip 0x0501 m c' ∧ m.stray (2 ^ 48 - 1) = false ∧ trimLength ≤
      m.word 1 ∧ c'.admits m.tent .w m.p trimLength = true) ∧
    (∃ (m : Cmd) (s : State) (c' : Chip), MpTakes s.chip 0x0502 m c' ∧ m.stray (2 ^ 48 - 1) = false ∧ m.word 1 < 2 ^
      48 ∧ c'.admits m.tent .r m.p (m.word 1) = true) ∧
    (∃ (m : Cmd) (xs : List Int) (s : State) (c' : Chip) (v : _) (d : _) (r : _), MpTakes s.chip 0x0503 m c' ∧
      m.stray 0xF0FFF = false ∧ d = bitsOf m.p 11 8 ∧ v = bitsOf m.p 19 16 ∧ v ≤ 11 ∧ d ≤ 11 ∧ bitsOf m.p 7 0 = 0 ∧ r
      = (c'.accept 0x0503 m).calKernels v d xs ∧ r.1 = Status.ok) ∧
    (∃ (m : Cmd) (xs : List Int) (s : State) (c' : Chip) (v : _) (r : _), MpTakes s.chip 0x0503 m c' ∧ m.stray
      0xF0FFF = false ∧ bitsOf m.p 11 8 ≤ 11 ∧ v = bitsOf m.p 19 16 ∧ v ≤ 11 ∧ bitsOf m.p 7 0 = 1 ∧ r = (c'.accept
      0x0503 m).calSpares v xs ∧ r.1 = Status.ok) ∧
    (∃ (m : Cmd) (xs : List Int) (s : State) (c' : Chip) (r : _), MpTakes s.chip 0x0503 m c' ∧ m.stray 0xF0FFF =
      false ∧ bitsOf m.p 11 8 ≤ 11 ∧ bitsOf m.p 19 16 ≤ 11 ∧ bitsOf m.p 7 0 = 2 ∧ r = (c'.accept 0x0503 m).calHk xs ∧
      r.1 = Status.ok) ∧
    (∃ (s : State), s.chip.device = .starting ∧ s.chip.flag Fld.sysStart_importExpected = true) ∧
    (∃ (bs : _) (n : _) (s : State) (ss : _), parseSecs n bs = some ss ∧ s.chip.passRuns = true) := by
  refine ⟨?_, ?_, ?_, ?_, ?_, ?_, ?_⟩
  · exact ⟨cmd 0x1000 [0x2000000], on, _, mpTakes (by decide +kernel), by decide +kernel⟩
  · exact ⟨cmd 0x1000 [0x2000000], on, _, mpTakes (by decide +kernel), by decide +kernel⟩
  · exact ⟨cmd 0xB0B00, [], onWith [] fun c => { c with gens := [(.monitor 11, { s := 1 })] }, _, 11, 11, _, mpTakes
    (by decide +kernel), by decide +kernel, by decide +kernel, by decide +kernel, by decide +kernel, by
    decide +kernel, by decide +kernel, rfl, by decide +kernel⟩
  · exact ⟨cmd 0xB0B01, List.replicate 134 65536, on, _, 11, _, mpTakes (by decide +kernel), by decide +kernel, by
    decide +kernel, by decide +kernel, by decide +kernel, by decide +kernel, rfl, by decide +kernel⟩
  · exact ⟨cmd 0xB0B02, (List.replicate 8 [0, 16384]).flatten, on, _, _, mpTakes (by decide +kernel), by
    decide +kernel, by decide +kernel, by decide +kernel, by decide +kernel, rfl, by decide +kernel⟩
  · exact ⟨onWith [reg .sysStart [] 0x100] fun c => { c with device := .starting }, by decide +kernel⟩
  · exact ⟨[], 0, onWith [reg .azlState [] 2] fun c => { c with device := .starting, loaded := true }, [], by
    decide +kernel⟩

/-- Obligations.PassCommandsAct: states that meet its hypotheses. -/
theorem test_pass_commands_act_hypotheses :
    (∃ (m : Cmd) (s : State) (c' : Chip) (n : _), MpTakes s.chip 0x0A01 m c' ∧ bitOf m.p 0 = true ∧ n = passEnd m.p ∧
      passReserved m.p = false ∧ c'.f Fld.passRx_state [n] = 0 ∧ c'.moduleId ≠ 0xFFFF) ∧
    (∃ (m : Cmd) (s : State) (c' : Chip) (n : _), MpTakes s.chip 0x0A01 m c' ∧ bitOf m.p 0 = false ∧ n = passEnd m.p
      ∧ passReserved m.p = false ∧ c'.colourTaken n (bitsOf m.p 8 4) = false ∧ c'.flag Fld.passTx_open [n] = false ∧
      c'.moduleId ≠ 0xFFFF ∧ c'.firstDark n (bitsOf m.p 8 4) = false) ∧
    (∃ (m : Cmd) (s : State) (c' : Chip) (n : _), MpTakes s.chip 0x0A02 m c' ∧ bitOf m.p 0 = true ∧ n = passEnd m.p ∧
      passReserved m.p = false ∧ (c'.sink n).cmd = none) ∧
    (∃ (m : Cmd) (s : State) (c' : Chip) (n : _), MpTakes s.chip 0x0A02 m c' ∧ bitOf m.p 0 = false ∧ n = passEnd m.p
      ∧ passReserved m.p = false ∧ c'.laneNamed n = false ∧ c'.laneBusy n = false ∧ (c'.source n).cmd = none) ∧
    (∃ (m : Cmd) (s : State) (c' : Chip) (e : _), MpTakes s.chip 0x0A03 m c' ∧ m.stray 0x3F = false ∧ e =
      Export.ofWords (m.words.getD 0 0).toNat (m.words.getD 1 0).toNat ∧ 12 ≤ e.size ∧ e.size ≤ 28 ∧ e.base % 2 ^
      e.size = 0 ∧ e.off % 2 ^ e.size = 0 ∧ e.valid = false) ∧
    (∃ (m : Cmd) (s : State) (c' : Chip) (first : _), MpTakes s.chip 0x0A04 m c' ∧ first = bitsOf m.p 15 0 ∧ m.stray
      0x107FFFFFF = false ∧ m.words.length = bitsOf m.p 26 16 + 1 ∧ m.words.length ≤ 2047 ∧ bitOf m.p 32 = true ∧
      first + m.words.length ≤ 256) ∧
    (∃ (m : Cmd) (s : State) (c' : Chip) (first : _), MpTakes s.chip 0x0A04 m c' ∧ first = bitsOf m.p 15 0 ∧ m.stray
      0x107FFFFFF = false ∧ m.words.length = bitsOf m.p 26 16 + 1 ∧ m.words.length ≤ 2047 ∧ bitOf m.p 32 = false ∧
      first + m.words.length ≤ 65536 ∧ (∀ x, x ∈ m.words → c'.routeRefused x.toNat = false) ∧ c'.passes.routes = [] ∧
      (∀ k, c'.framesFor k = false)) := by
  refine ⟨?_, ?_, ?_, ?_, ?_, ?_, ?_⟩
  · exact ⟨cmd 0x1FF, on [reg .passCfg [] 0xA0001], _, 255, mpTakes (by decide +kernel), by decide +kernel⟩
  · exact ⟨cmd 7694, on [reg .passCfg [] 0xA0001], _, 127, mpTakes (by decide +kernel), by decide +kernel⟩
  · exact ⟨cmd 0x1FF, on, _, 255, mpTakes (by decide +kernel), by decide +kernel⟩
  · exact ⟨cmd 7694, on, _, 127, mpTakes (by decide +kernel), by decide +kernel⟩
  · exact ⟨cmd 63 [0xC000000000000, 0], on, _, _, mpTakes (by decide +kernel), by decide +kernel, rfl, by
    decide +kernel⟩
  · exact ⟨cmd 4295033086 [0, 0], on, _, 254, mpTakes (by decide +kernel), by decide +kernel⟩
  · exact ⟨cmd 131070 [0, 0], on, _, 65534, mpTakes (by decide +kernel), by decide +kernel, by decide +kernel, by
    decide +kernel, by decide +kernel, by decide +kernel, by decide +kernel, (noneOf (by decide +kernel)), by
    decide +kernel, (noFrames (by decide +kernel))⟩

/-- Obligations.LanesAndSinksAct: states that meet its hypotheses. -/
theorem test_lanes_and_sinks_act_hypotheses :
    (∃ (n : _) (s : State), n < 128 ∧ s.chip.flag Fld.passTx_open [n] = true ∧ s.chip.flag Fld.passTx_locked [n] =
      false ∧ s.chip.passesLit = true ∧ s.chip.source n = {} ∧ s.chip.passes.routes = []) ∧
    (∃ (n : _) (s : State), n < 128 ∧ s.chip.flag Fld.passTx_open [n] = true ∧ s.chip.flag Fld.passTx_locked [n] =
      true) ∧
    (∃ (n : _) (k : _) (s : State), n < 256 ∧ s.chip.f Fld.passRx_state [n] = 1 ∧ k ≤ 15 ∧ (s.chip.sink n).good <
      1023) ∧
    (∃ (n : _) (s : State), n < 256 ∧ (s.chip.f Fld.passRx_state [n] = 1 ∨ s.chip.f Fld.passRx_state [n] = 2) ∧
      (s.chip.sink n).bad < 63) ∧
    (∃ (n : _) (s : State), n < 256 ∧ s.chip.f Fld.passRx_state [n] = 2 ∧ 63 ≤ (s.chip.sink n).bad) ∧
    (∃ (n : _) (s : State), n < 256 ∧ s.chip.f Fld.passRx_state [n] ≠ 0) ∧
    (∃ (n : _) (s : State), n < 256 ∧ s.chip.f Fld.passRx_state [n] = 2) ∧
    (∃ (n : _) (s : State) (m : Cmd), n < 256 ∧ (s.chip.sink n).cmd = some m) ∧
    (∃ (tag : _) (s : State) (r : Remote) (op : _) (m : Cmd) (c1 : Chip), s.chip.passes.remotes = [r] ∧ r.sent = true
      ∧ r.frame.tag = tag ∧ r.who = .mem op m ∧ c1 = ({ s.chip with passes := { s.chip.passes with remotes := [] } }
      : Chip)) := by
  refine ⟨?_, ?_, ?_, ?_, ?_, ?_, ?_, ?_, ?_⟩
  · exact ⟨127, on [reg .passTx [127] 0x80000000], by decide +kernel⟩
  · exact ⟨127, on [reg .passTx [127] 0xC0000000], by decide +kernel⟩
  · exact ⟨255, 15, on [reg .passRx [255] 0x40000000], by decide +kernel⟩
  · exact ⟨255, on [reg .passRx [255] 0x80000000], by decide +kernel⟩
  · exact ⟨255, onWith [reg .passRx [255] 0x80000000] fun c =>
    { c with passes := { c.passes with sinks := [(255, { bad := 63 })] } }, by decide +kernel⟩
  · exact ⟨255, on [reg .passRx [255] 0x80000000], by decide +kernel⟩
  · exact ⟨255, on [reg .passRx [255] 0x80000000], by decide +kernel⟩
  · exact ⟨255, onWith [] fun c => { c with passes := { c.passes with sinks := [(255, { cmd := some (cmd 7) })] } },
    cmd 7, by decide +kernel⟩
  · exact ⟨0, onWith [] fun c =>
    { c with passes := { c.passes with remotes := [{ frame := frameTo 5 1, who := .mem 0x0E03 (cmd 7),
                                                     sent := true }] } },
    { frame := frameTo 5 1, who := .mem 0x0E03 (cmd 7), sent := true }, 0x0E03, cmd 7, _, by decide +kernel, by
    decide +kernel, by decide +kernel, by decide +kernel, rfl⟩

/-- Obligations.SinkFramesAreServed: states that meet its hypotheses. -/
theorem test_sink_frames_are_served_hypotheses :
    (∃ (n : _) (f : PassFrame) (s : State) (c1 : Chip), n < 256 ∧ f.kind = 7 ∧ s.chip.f Fld.passRx_state [n] = 2 ∧
      f.source = s.chip.f Fld.passRx_peer [n] ∧ bitsOf f.addr.toNat 7 0 = n % 32 ∧ c1 = s.chip.setSink n
      { s.chip.sink n with hunting := false, tagged := true }) ∧
    (∃ (n : _) (f : PassFrame) (s : State), n < 256 ∧ f.kind = 7 ∧ s.chip.f Fld.passRx_state [n] = 2 ∧ f.source ≠
      s.chip.f Fld.passRx_peer [n] ∧ (s.chip.sink n).cmd = none) ∧
    (∃ (n : _) (f : PassFrame) (s : State) (c1 : Chip) (lane : _), n < 256 ∧ f.kind ≤ 5 ∧ s.chip.f Fld.passRx_state
      [n] = 2 ∧ s.chip.moduleId ≠ 0xFFFF ∧ f.dest ≠ s.chip.moduleId ∧ f.dest ≠ 0xFFFF ∧ f.hop < 7 ∧ s.chip.routeLane
      f.dest (frameOffset f) = some lane ∧ c1 = s.chip.setSink n { s.chip.sink n with hunting := false }) ∧
    (∃ (n : _) (f : PassFrame) (s : State) (c1 : Chip) (e : _) (a : _), n < 256 ∧ (f.kind = 0 ∨ f.kind = 1) ∧
      s.chip.f Fld.passRx_state [n] = 2 ∧ s.chip.moduleId ≠ 0xFFFF ∧ f.dest = s.chip.moduleId ∧ f.crcOk = true ∧ 0 <
      frameLen f ∧ frameLen f ≤ 4096 ∧ c1 = s.chip.setSink n { s.chip.sink n with hunting := false } ∧ c1.exportFor
      f.source f.tent (bitsOf f.addr.toNat 27 0) (frameLen f) (if f.kind = 0 then .w else .r) = some e ∧ a = e.base +
      (bitsOf f.addr.toNat 27 0 - e.off) ∧ inMemory a (frameLen f) = true) ∧
    (∃ (n : _) (f : PassFrame) (s : State) (c1 : Chip) (r : Remote) (op : _) (m : Cmd), n < 256 ∧ f.kind = 2 ∧
      f.status = Status.ok ∧ op = 0x0E03 ∧ s.chip.f Fld.passRx_state [n] = 2 ∧ s.chip.moduleId ≠ 0xFFFF ∧ f.dest =
      s.chip.moduleId ∧ f.crcOk = true ∧ s.chip.passes.remotes = [r] ∧ r.sent = true ∧ r.frame.tag = f.tag ∧
      r.frame.kind = 1 ∧ r.frame.dest = f.source ∧ r.who = .mem op m ∧ c1 = s.chip.setSink n
      { s.chip.sink n with hunting := false }) := by
  refine ⟨?_, ?_, ?_, ?_, ?_⟩
  · exact ⟨255, frameTo 1 7 31, on [reg .passRx [255] 0x80000000], _, by decide +kernel, by decide +kernel, by
    decide +kernel, by decide +kernel, by decide +kernel, rfl⟩
  · exact ⟨255, frameTo 1 7 31, on [reg .passRx [255] 0x8000FFFF], by decide +kernel⟩
  · exact ⟨255, frameTo 5 1 31, on [reg .passRx [255] 0x80000000, reg .passCfg [] 0xA0001, reg .passRoute [5]
    0x8000000000000000], _, 0, by decide +kernel, by decide +kernel, by decide +kernel, by decide +kernel, by
    decide +kernel, by decide +kernel, ⟨by decide +kernel, by decide +kernel, rfl⟩⟩
  · exact ⟨255, frameTo 1 1 0 4096, on [reg .passRx [255] 0x80000000, reg .passCfg [] 0xA0001, (⟨.passExport, [0],
    0⟩, 0xF00C000000001000), (⟨.passExport, [0], 1⟩, 0x20000000000)], _, Export.ofWords 0xF00C000000001000
    0x20000000000, 0x1000, by decide +kernel, by decide +kernel, by decide +kernel, by decide +kernel, by
    decide +kernel, by decide +kernel, ⟨by decide +kernel, by decide +kernel, rfl, by decide +kernel⟩⟩
  · exact ⟨255, frameTo 1 2, onWith [reg .passRx [255] 0x80000000, reg .passCfg [] 0xA0001] fun c =>
    { c with passes := { c.passes with remotes := [{ frame := frameTo 0 1, who := .mem 0x0E03 (cmd 7),
                                                     sent := true }] } }, _,
    { frame := frameTo 0 1, who := .mem 0x0E03 (cmd 7), sent := true }, 0x0E03, cmd 7, by decide +kernel, by
    decide +kernel, by decide +kernel, by decide +kernel, by decide +kernel, by decide +kernel, ⟨by decide +kernel,
    by decide +kernel, by decide +kernel, by decide +kernel, by decide +kernel, by decide +kernel, ⟨by
    decide +kernel, by decide +kernel, rfl⟩⟩⟩

/-- Obligations.RadioAndCairnCommandsAct: states that meet its hypotheses. -/
theorem test_radio_and_cairn_commands_act_hypotheses :
    (∃ (m : Cmd) (now : Nat) (s : State) (n : _) (rs : _), Passes4 s.chip 0x0B01 m ∧ n = bitsOf m.p 15 0 ∧ m.stray
      0xFFFF = false ∧ 0 < n ∧ n ≤ 256 ∧ m.words.length = 4 * n ∧ rs = (List.range n).map (fun k => (m.words.drop (4
      * k)).take 4) ∧ (∀ r, r ∈ rs → s.chip.sectionStatus m.tent now r = Status.ok)) ∧
    (∃ (m : Cmd) (s : State) (c' : Chip), MpTakes s.chip 0x0D01 m c' ∧ m.stray 0 = false) ∧
    (∃ (m : Cmd) (s : State) (c' : Chip) (first : _) (n : _) (rs : _), MpTakes s.chip 0x0D02 m c' ∧ m.stray
      0x3FFFFFFFF = false ∧ first = bitsOf m.p 31 0 ∧ n = bitsOf m.p 33 32 + 1 ∧ rs = s.cairn.recs.filter (fun r =>
      decide (first ≤ r.num ∧ r.num < first + n))) ∧
    (∃ (m : Cmd) (s : State) (c' : Chip) (first : _) (n : _) (es : _), MpTakes s.chip 0x0D03 m c' ∧ m.stray
      0x3FFFFFFFFF = false ∧ first = bitsOf m.p 31 0 ∧ n = bitsOf m.p 37 32 + 1 ∧ es = s.cairn.evts.filter (fun e =>
      decide (first ≤ e.num ∧ e.num < first + n))) := by
  refine ⟨?_, ?_, ?_, ?_⟩
  · exact ⟨cmd 1 [0x10100000, 0, 1, 0], 0, on [reg .fhState [] 2, (⟨.fhEaxc, [0], 0⟩, 0x8000000008000000)], _, _, ⟨by
    decide +kernel, by decide +kernel, by decide +kernel⟩, rfl, by decide +kernel, by decide +kernel, by
    decide +kernel, by decide +kernel, rfl, by decide +kernel⟩
  · exact ⟨cmd, on, _, mpTakes (by decide +kernel), by decide +kernel⟩
  · exact ⟨cmd 0x3FFFFFFFF, on, _, 0xFFFFFFFF, 4, _, mpTakes (by decide +kernel), by decide +kernel, by
    decide +kernel, by decide +kernel, rfl⟩
  · exact ⟨cmd 0x3FFFFFFFFF, on, _, 0xFFFFFFFF, 64, _, mpTakes (by decide +kernel), by decide +kernel, by
    decide +kernel, by decide +kernel, rfl⟩

/-- Obligations.RadioTimeGoesOn: states that meet its hypotheses. -/
theorem test_radio_time_goes_on_hypotheses :
    (∃ (t : Nat) (s : State) (n : _) (e : _), s.chip.locked = true ∧ s.chip.f Fld.fhCfg_tsrc ≠ 2 ∧ n = s.chip.f
      Fld.fhCfg_numerology ∧ n ≤ 4 ∧ s.chip.radio.numerology = n ∧ e = (t : Int) - s.chip.sf Fld.fhOffset_offset ∧
      s.chip.eaxcWritten = []) ∧
    (∃ (s : State), s.chip.locked = false) ∧
    (∃ (s : State) (e : _) (m : _), s.chip.f Fld.fhCfg_tsrc = 2 ∧ s.chip.radio.pps = some (e, m) ∧
      s.chip.radio.sfnSet = none) ∧
    (∃ (s : State) (n : _), s.chip.f Fld.fhCfg_tsrc = 2 ∧ s.chip.radio.sfnSet = some n) ∧
    (∃ (s : State), s.chip.f Fld.fhState_state = 1) ∧
    (∃ (s : State), s.chip.f Fld.fhState_state = 2) ∧
    (∃ (s : State), s.chip.f Fld.fhState_state = 3) := by
  refine ⟨?_, ?_, ?_, ?_, ?_, ?_, ?_⟩
  · exact ⟨1000, on [reg .fhState [] 2], _, _, by decide +kernel, by decide +kernel, rfl, by decide +kernel, by
    decide +kernel, rfl, by decide +kernel⟩
  · exact ⟨on, by decide +kernel⟩
  · exact ⟨onWith [reg .fhCfg [] 0x5180021] fun c => { c with radio := { c.radio with pps := some (0, 0) } }, 0, 0,
    by decide +kernel⟩
  · exact ⟨onWith [reg .fhCfg [] 0x5180021] fun c => { c with radio := { c.radio with sfnSet := some 1023 } }, 1023,
    by decide +kernel⟩
  · exact ⟨on [reg .fhState [] 1], by decide +kernel⟩
  · exact ⟨on [reg .fhState [] 2], by decide +kernel⟩
  · exact ⟨on [reg .fhState [] 3], by decide +kernel⟩

/-- Obligations.FronthaulMessagesAct: states that meet its hypotheses. -/
theorem test_fronthaul_messages_act_hypotheses :
    (∃ (port : _) (bs : List Byte) (after : _) (s : State) (body : List Byte) (msg : List Byte) (a : _) (e : _) (h :
      _) (prbs : _) (n : _), port < 8 ∧ s.chip.flag Fld.fhPortMac_en [port] = true ∧ etherParts bs = some (0xAEFE,
      body) ∧ ecpriParts body = some (0, msg) ∧ a = beNat (msg.take 2) ∧ e = Eaxc.ofWords (s.chip.eaxc (a % 4096)) ∧
      h = beNat ((msg.drop 4).take 4) ∧ s.chip.locked = true ∧ 8 ≤ msg.length ∧ e.valid = true ∧ e.port = port ∧
      e.idHi = a / 4096 ∧ bitsOf h 31 28 = 1 ∧ rxSections msg.length e (bitsOf h 5 0) (msg.drop 8) = some prbs ∧
      after ≤ (bitsOf s.chip.fhWin 39 30 : Int) * 1000 ∧ n = ((s.chip.radio.slots : Int) + s.chip.slotAhead (bitsOf h
      23 16) (bitsOf h 15 12) (bitsOf h 11 6)).toNat) ∧
    (∃ (port : _) (bs : List Byte) (after : _) (s : State) (body : List Byte) (msg : List Byte) (a : _) (e : _) (h :
      _) (prbs : _), port < 8 ∧ s.chip.flag Fld.fhPortMac_en [port] = true ∧ etherParts bs = some (0xAEFE, body) ∧
      ecpriParts body = some (0, msg) ∧ a = beNat (msg.take 2) ∧ e = Eaxc.ofWords (s.chip.eaxc (a % 4096)) ∧ h =
      beNat ((msg.drop 4).take 4) ∧ s.chip.locked = true ∧ 8 ≤ msg.length ∧ e.valid = true ∧ e.port = port ∧ e.idHi =
      a / 4096 ∧ bitsOf h 31 28 = 1 ∧ rxSections msg.length e (bitsOf h 5 0) (msg.drop 8) = some prbs ∧ (bitsOf
      s.chip.fhWin 39 30 : Int) * 1000 < after) ∧
    (∃ (s : State), s.chip.locked = true) ∧
    (∃ (s : State), s.chip.locked = true) ∧
    (∃ (k : _) (l : _) (s : State) (x : CSection) (e : _) (left : _), l < 14 ∧ s.chip.locked = true ∧
      s.chip.sectionsOf k true = [x] ∧ e = Eaxc.ofWords (s.chip.eaxc (x.eaxc % 4096)) ∧ x.start ≤ l ∧ l < x.start +
      x.num ∧ e.valid = true ∧ left = e.nPrb - x.prb0) ∧
    (∃ (port : _) (bs : List Byte) (s : State) (msg : List Byte), port < 8 ∧ s.chip.f Fld.fhCfg_tsrc = 1 ∧ s.chip.f
      Fld.fhCfg_ptpPort = port ∧ s.chip.flag Fld.fhPortMac_en [port] = true ∧ etherParts bs = some (0x88F7, msg) ∧
      byteAt msg 0 % 16 = 0 ∧ byteAt msg 1 % 16 = 2 ∧ byteAt msg 4 = s.chip.f Fld.fhCfg_domain) ∧
    (∃ (port : _) (bs : List Byte) (s : State) (msg : List Byte), port < 8 ∧ s.chip.f Fld.fhCfg_tsrc = 1 ∧ s.chip.f
      Fld.fhCfg_ptpPort = port ∧ s.chip.flag Fld.fhPortMac_en [port] = true ∧ etherParts bs = some (0x8809, msg)) ∧
    (∃ (port : _) (bs : List Byte) (s : State) (body : List Byte) (msg : List Byte), port < 8 ∧ s.chip.flag
      Fld.fhPortMac_en [port] = true ∧ etherParts bs = some (0xAEFE, body) ∧ ecpriParts body = some (5, msg) ∧ 20 ≤
      msg.length ∧ byteAt msg 1 ≤ 1) := by
  refine ⟨?_, ?_, ?_, ?_, ?_, ?_, ?_, ?_⟩
  · exact ⟨7, ether 0xAEFE (ecpri 0 [0, 0, 0, 0, 0x10, 0, 0, 0]), 100000, on [reg .fhState [] 2, reg .fhPortMac [7]
    0x8000000000000000, (⟨.fhEaxc, [0], 0⟩, 0xF000000008000000)], ecpri 0 [0, 0, 0, 0, 0x10, 0, 0, 0], [0, 0, 0, 0,
    0x10, 0, 0, 0], _, _, _, [], _, by decide +kernel, by decide +kernel, by decide +kernel, by decide +kernel, rfl,
    rfl, rfl, by decide +kernel, by decide +kernel, by decide +kernel, by decide +kernel, by decide +kernel, by
    decide +kernel, ⟨by decide +kernel, by decide +kernel, rfl⟩⟩
  · exact ⟨7, ether 0xAEFE (ecpri 0 [0, 0, 0, 0, 0x10, 0, 0, 0]), 100001, on [reg .fhState [] 2, reg .fhPortMac [7]
    0x8000000000000000, (⟨.fhEaxc, [0], 0⟩, 0xF000000008000000)], ecpri 0 [0, 0, 0, 0, 0x10, 0, 0, 0], [0, 0, 0, 0,
    0x10, 0, 0, 0], _, _, _, [], by decide +kernel, by decide +kernel, by decide +kernel, by decide +kernel, rfl,
    rfl, rfl, by decide +kernel⟩
  · exact ⟨on [reg .fhState [] 2], by decide +kernel⟩
  · exact ⟨on [reg .fhState [] 2], by decide +kernel⟩
  · exact ⟨5, 0, onWith [reg .fhState [] 2, (⟨.fhEaxc, [0], 0⟩, 0xF000000008000000)] fun c =>
    { c with radio := { c.radio with recs := [(5, [0x10110000, 0, 0, 0])] } }, CSection.ofWords [0x10110000, 0, 0,
    0], _, _, by decide +kernel, by decide +kernel, by decide +kernel, rfl, by decide +kernel, by decide +kernel, by
    decide +kernel, rfl⟩
  · exact ⟨7, ether 0x88F7 [0, 2, 0, 44, 24], on [reg .fhCfg [] 0x5180711, reg .fhPortMac [7] 0x8000000000000000],
    [0, 2, 0, 44, 24], by decide +kernel⟩
  · exact ⟨7, ether 0x8809 [10], on [reg .fhCfg [] 0x5180711, reg .fhPortMac [7] 0x8000000000000000], [10], by
    decide +kernel⟩
  · exact ⟨7, ether 0xAEFE (ecpri 5 (List.replicate 20 0)), on [reg .fhPortMac [7] 0x8000000000000000], ecpri 5
    (List.replicate 20 0), List.replicate 20 0, by decide +kernel⟩

/-- Obligations.CoderBlocksRun: states that meet its hypotheses. -/
theorem test_coder_blocks_run_hypotheses :
    (∃ (t : Nat) (now : Nat) (s : State) (j : CoderJob) (d : _) (mem : _) (c0 : Chip) (c1 : Chip), t < 64 ∧ c0 =
      s.chip.takeSubmit t ∧ d = CoderDesc.ofWords j.desc ∧ d.kind ≠ 0 ∧ c0.coderJobs.find? (fun x => x.tent == t &&
      x.status.isNone && decide (x.started < (CoderDesc.ofWords x.desc).blocks)) = some j ∧ c0.coderBusy d.kind <
      coderUnits d.kind ∧ c0.device = .service ∧ c0.deadlineReached d.deadline now = false ∧ c0.coderCredit d.kind =
      none ∧ mem = (if j.started = 0 then memAccess d.inp d.inBytes ++ memAccess d.out d.outBytes ++ memAccess
      d.report 32 ++ memAccess d.done 32 else []) ∧ c0.admitAll t ((.coder (d.kind == 2), 1) :: mem) (some (.coder
      (d.kind == 2))) = (c1, true)) ∧
    (∃ (t : Nat) (now : Nat) (s : State) (j : CoderJob) (d : _) (mem : _) (c0 : Chip) (c1 : Chip), t < 64 ∧ c0 =
      s.chip.takeSubmit t ∧ d = CoderDesc.ofWords j.desc ∧ d.kind = 0 ∧ c0.coderJobs.find? (fun x => x.tent == t &&
      x.status.isNone && decide (x.started < (CoderDesc.ofWords x.desc).blocks)) = some j ∧ (j.started = 0 → (c0.harq
      d.hidx).busy = false) ∧ c0.coderBusy 0 < 16 ∧ c0.device = .service ∧ c0.deadlineReached d.deadline now = false
      ∧ c0.coderCredit 0 = none ∧ mem = (if j.started = 0 then memAccess d.inp d.inBytes ++ memAccess d.out
      d.outBytes ++ memAccess d.report 32 ++ memAccess d.done 32 ++ c0.harqReads t d else []) ∧ c0.admitAll t
      ((.coder false, d.iter) :: mem) (some (.coder false)) = (c1, true)) ∧
    (∃ (t : Nat) (now : Nat) (s : State) (j : CoderJob) (d : _) (c0 : Chip), t < 64 ∧ c0 = s.chip.takeSubmit t ∧ d =
      CoderDesc.ofWords j.desc ∧ c0.coderJobs.find? (fun x => x.tent == t && x.status.isNone && decide (x.started <
      (CoderDesc.ofWords x.desc).blocks)) = some j ∧ c0.harqWaits j = false ∧ c0.coderBusy d.kind < coderUnits d.kind
      ∧ c0.device = .service ∧ c0.deadlineReached d.deadline now = true) ∧
    (∃ (id : Nat) (b : Nat) (s : State) (j : CoderJob) (fr : Nat), s.chip.coderJob id = some j ∧ j.running.find? (fun
      p => p.1 == b) = some (b, fr)) ∧
    (∃ (id : Nat) (s : State) (j : CoderJob) (d : _) (c1 : Chip), s.chip.coderJob id = some j ∧ d = CoderDesc.ofWords
      j.desc ∧ d.kind = 1 ∧ j.running = [] ∧ j.ended.length = d.blocks ∧ c1 = ((s.chip.store d.report (coderReport j
      d 0xFF j.flags)).complete (coderRecord j.tent j.tag (j.status.getD Status.ok) d) (some d.done)
      j.msgcpl).unwaitJob (.coder false) j.tent) := by
  refine ⟨?_, ?_, ?_, ?_, ?_⟩
  · exact ⟨0, 0, onWith granted fun c =>
    { c with coderJobs := [{ id := 0, tent := 0, desc := [2, 0x6400000064, 0, 0x1000, 0x2000, 0x3000, 0,
                             0x4000] }] },
    { id := 0, tent := 0, desc := [2, 0x6400000064, 0, 0x1000, 0x2000, 0x3000, 0, 0x4000] }, _, _, _, _, by
    decide +kernel, rfl, rfl, by decide +kernel, by decide +kernel, by decide +kernel, by decide +kernel, by
    decide +kernel, by decide +kernel, rfl, pairOf2 (by decide +kernel)⟩
  · exact ⟨0, 0, onWith granted fun c =>
    { c with coderJobs := [{ id := 0, tent := 0, desc := [0, 0x6400000064, 0, 0x1000, 0x2000, 0x3000, 0, 0x4000] }],
             decCredit := 1 },
    { id := 0, tent := 0, desc := [0, 0x6400000064, 0, 0x1000, 0x2000, 0x3000, 0, 0x4000] }, _, _, _, _, by
    decide +kernel, rfl, rfl, by decide +kernel, by decide +kernel, by decide +kernel, by decide +kernel, by
    decide +kernel, by decide +kernel, ⟨by decide +kernel, rfl, pairOf2 (by decide +kernel)⟩⟩
  · exact ⟨0, 16, onWith granted fun c =>
    { c with coderJobs := [{ id := 0, tent := 0, desc := [2, 0x6400000064, 0, 0x1000, 0x2000, 0x3000, 1,
                             0x4000] }] },
    { id := 0, tent := 0, desc := [2, 0x6400000064, 0, 0x1000, 0x2000, 0x3000, 1, 0x4000] }, _, _, by decide +kernel,
    rfl, rfl, by decide +kernel⟩
  · exact ⟨0, 0, onWith granted fun c =>
    { c with coderJobs := [{ id := 0, tent := 0, desc := [2, 0x6400000064, 0, 0x1000, 0x2000, 0x3000, 0, 0x4000],
                             running := [(0, 0)] }] },
    { id := 0, tent := 0, desc := [2, 0x6400000064, 0, 0x1000, 0x2000, 0x3000, 0, 0x4000], running := [(0, 0)] }, 0,
    by decide +kernel⟩
  · exact ⟨0, onWith granted fun c =>
    { c with coderJobs := [{ id := 0, tent := 0, desc := [1, 0x6400000064, 0, 0x1000, 0x2000, 0x3000, 0, 0x4000],
                             ended := [0] }] },
    { id := 0, tent := 0, desc := [1, 0x6400000064, 0, 0x1000, 0x2000, 0x3000, 0, 0x4000], ended := [0] }, _, _, by
    decide +kernel, rfl, by decide +kernel, by decide +kernel, by decide +kernel, rfl⟩

/-- Obligations.LinkEventsAct: states that meet its hypotheses. -/
theorem test_link_events_act_hypotheses :
    (∃ (bs : List Byte) (s : State), s.chip.powered = true ∧ s.chip.f Fld.azlState_state = 2 ∧ Flit.ofBytes bs =
      none) ∧
    (∃ (bs : List Byte) (s : State) (f : Flit) (c1 : Chip), s.chip.powered = true ∧ s.chip.f Fld.azlState_state = 2 ∧
      Flit.ofBytes bs = some f ∧ f.ftype = 1 ∧ f.seq = (s.chip.link.rxSeq + 1) % 4096 ∧ c1 = s.chip.setLink
      { s.chip.link with replay := takeAck f.ack s.chip.link.replay, credit2 := unwrap s.chip.link.credit2 f.credLo,
                         credit3 := unwrap s.chip.link.credit3 f.credHi, rxSeq := f.seq, retrying := false }) ∧
    (∃ (bs : List Byte) (s : State) (f : Flit) (c1 : Chip), s.chip.powered = true ∧ s.chip.f Fld.azlState_state = 2 ∧
      Flit.ofBytes bs = some f ∧ f.ftype = 2 ∧ c1 = s.chip.setLink
      { s.chip.link with replay := takeAck f.ack s.chip.link.replay, credit2 := unwrap s.chip.link.credit2 f.credLo,
                         credit3 := unwrap s.chip.link.credit3 f.credHi }) ∧
    (∃ (s : State), s.chip.powered = true ∧ s.chip.f Fld.azlState_state = 2 ∧ s.chip.link.retrying = true) ∧
    (∃ (s : State), s.chip.powered = true ∧ s.chip.f Fld.azlState_state = 2) ∧
    (∃ (s : State), s.chip.powered = true ∧ s.chip.f Fld.azlState_state = 2 ∧ s.chip.link.replay ≠ [] ∧ (∀ h, h ∈
      s.chip.link.replay → h.again < 7)) ∧
    (∃ (s : State), s.chip.powered = true ∧ s.chip.f Fld.azlState_state = 2) ∧
    (∃ (s : State), s.chip.powered = true ∧ s.chip.f Fld.azlState_state = 1) ∧
    (∃ (s : State), s.chip.powered = true ∧ s.chip.loaded = true ∧ s.chip.f Fld.azlState_state = 1) ∧
    (∃ (bs : List Byte) (s : State) (f : Flit), s.chip.powered = true ∧ s.chip.loaded = true ∧ s.chip.f
      Fld.azlState_state = 0 ∧ Flit.ofBytes bs = some f ∧ f.ftype = 3 ∧ leNat (f.payload.take 2) = 1) ∧
    (∃ (s : State) (t : _) (x : Msg) (rest : _), s.chip.powered = true ∧ s.chip.f Fld.azlState_state = 2 ∧ t =
      (s.chip.msgLast + 1) % 64 ∧ (s.chip.msgQ t).q = x :: rest ∧ x.post = none) := by
  refine ⟨?_, ?_, ?_, ?_, ?_, ?_, ?_, ?_, ?_, ⟨?_, ?_⟩⟩
  · exact ⟨[], on [reg .azlState [] 2], by decide +kernel⟩
  · exact ⟨Flit.toBytes { ftype := 1 }, on [reg .azlState [] 2], { ftype := 1 }, _, by decide +kernel, by
    decide +kernel, (flitRead (by decide +kernel) (by decide +kernel)), by decide +kernel, by decide +kernel, rfl⟩
  · exact ⟨Flit.toBytes { ftype := 2 }, on [reg .azlState [] 2], { ftype := 2 }, _, by decide +kernel, by
    decide +kernel, (flitRead (by decide +kernel) (by decide +kernel)), by decide +kernel, rfl⟩
  · exact ⟨onWith [reg .azlState [] 2] fun c => { c with link := { c.link with retrying := true } }, by
    decide +kernel⟩
  · exact ⟨on [reg .azlState [] 2], by decide +kernel⟩
  · exact ⟨onWith [reg .azlState [] 2] fun c =>
    { c with link := { c.link with replay := [{ flit := { ftype := 1 }, again := 6 }] } }, by decide +kernel, by
    decide +kernel, by decide +kernel, (by decide +kernel)⟩
  · exact ⟨on [reg .azlState [] 2], by decide +kernel⟩
  · exact ⟨on [reg .azlState [] 1], by decide +kernel⟩
  · exact ⟨onWith [reg .azlState [] 1] fun c => { c with loaded := true }, by decide +kernel⟩
  · exact ⟨Flit.toBytes { ftype := 3, payload := [1, 0] }, onWith [] fun c => { c with loaded := true },
    { ftype := 3, payload := [1, 0] }, by decide +kernel, by decide +kernel, by decide +kernel,
    (flitRead (by decide +kernel) (by decide +kernel)), by decide +kernel⟩
  · exact ⟨onWith [reg .azlState [] 2] fun c => { c with msgs := [(0, { q := [{ kind := 1, body := [] }] })] }, 0,
    { kind := 1, body := [] }, [], by decide +kernel⟩

/-- Obligations.PowerEventsAct: states that meet its hypotheses. -/
theorem test_power_events_act_hypotheses :
    (∃ (ten : _) (s : State) (c1 : Chip), s.chip.device = .lantern ∧ c1 = s.chip.pins true ten ∧ c1.cmpClear = true ∧
      s.chip.boot.faultWait = false ∧ s.chip.boot.backup = false) ∧
    (∃ (s : State), s.chip.powered = true) ∧
    (∃ (s : State), s.chip.powered = true ∧ s.chip.boot.shutting = true) ∧
    (∃ (k : _) (cause : _) (s : State), k < 48 ∧ 1 ≤ cause ∧ cause ≤ 3 ∧ s.chip.powered = true) ∧
    (∃ (s : State), s.chip.device = .lantern ∧ s.chip.boot.wake = false ∧ s.chip.flag Fld.lantCfg_autoWake = false) ∧
    (∃ (s : State), s.chip.powered = true ∧ s.chip.boot.backup = false) ∧
    (∃ (s : State), s.chip.powered = true ∧ s.chip.boot.backup = false) ∧
    (∃ (s : State), s.chip.device = .off) ∧
    (∃ (s : State), s.chip.device = .lantern) ∧
    (∃ (s : State), s.chip.powered = true ∧ s.chip.boot.backup = false) ∧
    (∃ (s : State), s.chip.device = .service ∧ s.chip.boot.backup = false) ∧
    (∃ (s : State), s.chip.powered = true ∧ s.chip.loaded = true) ∧
    (∃ (ss : List HkSample) (c : Chip) (c1 : Chip), c1 = ((List.range 48).foldl (fun c k => c.setF Fld.pwrStage_vout
      [k] (min 0xFFFF (c.stageVolts k))) (c.hkRound ss).measureInput)) ∧
    (∃ (s : State), s.chip.device = .starting ∧ s.chip.loaded = true ∧ s.chip.boot.restored = true ∧
      s.chip.boot.release = true) ∧
    (∃ (s : State), s.chip.device = .starting ∧ s.chip.loaded = true ∧ s.chip.calDone = true ∧ s.chip.boot.restored =
      false ∧ s.chip.bankNow.slots = []) ∧
    (∃ (s : State), s.chip.powered = true ∧ s.chip.loaded = true) := by
  refine ⟨?_, ?_, ?_, ?_, ?_, ?_, ?_, ?_, ?_, ⟨?_, ?_, ?_, ?_, ?_, ?_, ?_⟩⟩
  · exact ⟨false, onWith [] fun c => { c with device := .lantern }, _, by decide +kernel, rfl, by decide +kernel⟩
  · exact ⟨on, by decide +kernel⟩
  · exact ⟨onWith [] fun c => { c with boot := { c.boot with shutting := true } }, by decide +kernel⟩
  · exact ⟨47, 3, on, by decide +kernel⟩
  · exact ⟨onWith [] fun c => { c with device := .lantern, boot := { c.boot with wake := false } }, by decide +kernel⟩
  · exact ⟨on, by decide +kernel⟩
  · exact ⟨on, by decide +kernel⟩
  · exact ⟨onWith [] fun c => { c with device := .off }, by decide +kernel⟩
  · exact ⟨onWith [] fun c => { c with device := .lantern }, by decide +kernel⟩
  · exact ⟨on, by decide +kernel⟩
  · exact ⟨on, by decide +kernel⟩
  · exact ⟨onWith [] fun c => { c with loaded := true }, by decide +kernel⟩
  · exact ⟨[], on.chip, _, rfl⟩
  · exact ⟨onWith [] fun c =>
    { c with device := .starting, loaded := true, boot := { c.boot with release := true, restored := true } }, by
    decide +kernel⟩
  · exact ⟨onWith [] fun c => { c with device := .starting, loaded := true, boot := { c.boot with passed := true } },
    by decide +kernel⟩
  · exact ⟨onWith [] fun c => { c with loaded := true }, by decide +kernel⟩

/-- Obligations.TestPortShifts: states that meet its hypotheses. -/
theorem test_test_port_shifts_hypotheses :
    (∃ (s : State), s.chip.powered = true) ∧
    (∃ (s : State), s.chip.powered = true) ∧
    (∃ (s : State), s.chip.powered = true) ∧
    (∃ (s : State), s.chip.powered = true ∧ s.chip.boot.testStop = true) ∧
    (∃ (s : State), s.chip.powered = true ∧ s.chip.boot.testStop = true) ∧
    (∃ (s : State), s.chip.powered = true ∧ s.chip.boot.testStop = true) ∧
    (∃ (s : State), s.chip.device ≠ .off ∧ s.chip.boot.backup = false) := by
  refine ⟨?_, ?_, ?_, ?_, ?_, ?_, ?_⟩
  · exact ⟨on, by decide +kernel⟩
  · exact ⟨on, by decide +kernel⟩
  · exact ⟨on, by decide +kernel⟩
  · exact ⟨onWith [] fun c => { c with boot := { c.boot with testStop := true } }, by decide +kernel⟩
  · exact ⟨onWith [] fun c => { c with boot := { c.boot with testStop := true } }, by decide +kernel⟩
  · exact ⟨onWith [] fun c => { c with boot := { c.boot with testStop := true } }, by decide +kernel⟩
  · exact ⟨on, by decide +kernel⟩

/-- Obligations.CairnEventsAct: states that meet its hypotheses. -/
theorem test_cairn_events_act_hypotheses :
    (∃ (x : CairnNow) (s : State) (k : _), s.chip.powered = true ∧ k = s.cairn.advance x ∧ k.input = true ∧ k.valid =
      true ∧ k.follows s.chip.actFrame.seq = true ∧ (k.frame = none ∨ ∃ g, k.frame = some g ∧ g.boot =
      s.chip.actFrame.boot)) ∧
    (∃ (x : CairnNow) (s : State) (k : _), k = s.cairn.advance x ∧ k.input = true ∧ k.valid = true ∧ k.atBoundary =
      true ∧ k.clockDiff.natAbs ≤ 2 * 32768 ∧ s.cairn.recs.length < 10000) ∧
    (∃ (x : CairnNow) (s : State) (k : _), k = s.cairn.advance x ∧ k.input = true ∧ k.valid = true ∧
      k.clockDiff.natAbs ≤ 2 * 32768) ∧
    (∃ (x : CairnNow) (s : State) (k : _), k = s.cairn.advance x ∧ k.input = false) ∧
    (∃ (x : CairnNow) (s : State) (k : _), k = s.cairn.advance x) ∧
    (∃ (x : CairnNow) (sum : _) (s : State) (k : _), k = s.cairn.advance x ∧ k.input = true ∧ sum ≠ Config.cairnSum) ∧
    (∃ (x : CairnNow) (s : State) (k : _), k = s.cairn.advance x ∧ k.input = true) ∧
    (∃ (x : CairnNow) (s : State) (k : _), k = s.cairn.advance x ∧ k.input = true ∧ k.overload = false) ∧
    (∃ (x : CairnNow) (s : State) (k : _), k = s.cairn.advance x ∧ k.input = true ∧ k.overload = true) ∧
    (∃ (x : CairnNow) (s : State) (k : _), k = s.cairn.advance x ∧ k.input = true ∧ k.linkLost = false) ∧
    (∃ (x : CairnNow) (s : State) (k : _), k = s.cairn.advance x ∧ k.input = true ∧ k.linkLost = true ∧ k.lastSeq ≠
      k.lostSeq) ∧
    (∃ (x : CairnNow) (s : State) (k : _), k = s.cairn.advance x ∧ k.input = true ∧ k.fault = false ∧ k.pulses <
      k.mwh / 100) := by
  refine ⟨?_, ?_, ?_, ?_, ?_, ?_, ?_, ?_, ?_, ⟨?_, ?_, ?_⟩⟩
  · exact ⟨quiet, on, _, by decide +kernel, rfl, by decide +kernel, by decide +kernel, by decide +kernel, (.inl rfl)⟩
  · exact ⟨{ quiet with dt := 0 }, on, _, rfl, by decide +kernel⟩
  · exact ⟨quiet, on, _, rfl, by decide +kernel⟩
  · exact ⟨quiet, withCairn { input := false }, _, rfl, by decide +kernel⟩
  · exact ⟨quiet, on, _, rfl⟩
  · exact ⟨quiet, 0 :: Config.cairnSum, on, _, rfl, by decide +kernel, (List.cons_ne_self _ _)⟩
  · exact ⟨quiet, on, _, rfl, by decide +kernel⟩
  · exact ⟨quiet, on, _, rfl, by decide +kernel⟩
  · exact ⟨quiet, withCairn { overload := true }, _, rfl, by decide +kernel⟩
  · exact ⟨quiet, on, _, rfl, by decide +kernel⟩
  · exact ⟨quiet, withCairn { linkLost := true, lostSeq := 1 }, _, rfl, by decide +kernel⟩
  · exact ⟨{ quiet with uj := 360000000 }, on, _, rfl, by decide +kernel⟩

/-- Obligations.DaleJobsPrepare: states that meet its hypotheses. -/
theorem test_dale_jobs_prepare_hypotheses :
    (∃ (v : _) (d : _) (s : State) (k : _) (j : DaleJob) (c1 : Chip), daleOk v d = true ∧ k = 12 * v + d ∧
      (s.chip.dale k).run = none ∧ s.chip.daleServes k = true ∧ nextJob (s.chip.dale k).lastTent (s.chip.dale
      k).queue = some j ∧ c1 = ((s.chip.latchPair k).setDale k
      { s.chip.dale k with run := some (newRun j (s.chip.jobSeeds j)), queue := (s.chip.dale k).queue.erase j }).setF
      Fld.daleSide_ready [k / 12, k % 12] 0 ∧ (j.tent = 0 ∨ c1.f Fld.valeBank_owner [k / 12, (Desc.ofWords
      j.desc).bank] = j.tent) ∧ (c1.f Fld.daleCtl_lockWait [k / 12, k % 12] ≠ 0 ∨ c1.flag Fld.daleState_lockGood [k /
      12, k % 12] = true)) ∧
    (∃ (v : _) (d : _) (s : State) (k : _) (j : DaleJob) (c1 : Chip), daleOk v d = true ∧ k = 12 * v + d ∧
      (s.chip.dale k).run = none ∧ s.chip.daleServes k = true ∧ nextJob (s.chip.dale k).lastTent (s.chip.dale
      k).queue = some j ∧ c1 = ((s.chip.latchPair k).setDale k
      { s.chip.dale k with run := some (newRun j (s.chip.jobSeeds j)), queue := (s.chip.dale k).queue.erase j }).setF
      Fld.daleSide_ready [k / 12, k % 12] 0 ∧ j.tent ≠ 0 ∧ c1.f Fld.valeBank_owner [k / 12, (Desc.ofWords
      j.desc).bank] ≠ j.tent) ∧
    (∃ (v : _) (d : _) (s : State) (k : _) (r : DaleRun), daleOk v d = true ∧ k = 12 * v + d ∧ (s.chip.dale k).run =
      some r ∧ r.lockWait = true ∧ r.phase ≠ .ended ∧ r.stop = none ∧ s.chip.flag Fld.daleState_lockGood [k / 12, k %
      12] = true) ∧
    (∃ (v : _) (d : _) (s : State) (k : _) (r : DaleRun), daleOk v d = true ∧ k = 12 * v + d ∧ (s.chip.dale k).run =
      some r ∧ r.lockWait = true ∧ r.phase ≠ .ended ∧ r.stop = none ∧ s.chip.flag Fld.daleState_lockGood [k / 12, k %
      12] = false) ∧
    (∃ (v : _) (d : _) (s : State) (k : _), daleOk v d = true ∧ k = 12 * v + d ∧ (s.chip.dale k).staging ≠ none ∧
      (s.chip.dale k).staged = false) ∧
    (∃ (v : _) (d : _) (s : State) (k : _) (t : Tile), daleOk v d = true ∧ k = 12 * v + d ∧ s.chip.linked k = none ∧
      s.chip.atBoundary k = true ∧ (s.chip.dale k).staging = some t ∧ (s.chip.dale k).staged = true ∧ (s.chip.dale
      k).slew = false) ∧
    (∃ (v : _) (d : _) (s : State) (k : _), daleOk v d = true ∧ k = 12 * v + d ∧ s.chip.linked k = none ∧
      s.chip.atBoundary k = true ∧ (s.chip.dale k).staging = none) ∧
    (∃ (v : _) (d : _) (s : State) (k : _) (k2 : _), daleOk v d = true ∧ k = 12 * v + d ∧ s.chip.linked k = some k2 ∧
      s.chip.strobeReady k = true ∧ s.chip.strobeReady k2 = true) ∧
    (∃ (v : _) (d : _) (s : State) (k : _), daleOk v d = true ∧ k = 12 * v + d ∧ (s.chip.dale k).settling = true) ∧
    (∃ (v : _) (d : _) (p : _) (s : State) (k : _), daleOk v d = true ∧ k = 12 * v + d ∧ p < 132 ∧ (s.chip.dale
      k).ramping = false) ∧
    (∃ (v : _) (d : _) (p : _) (s : State) (k : _), daleOk v d = true ∧ k = 12 * v + d ∧ p < 132 ∧ (s.chip.dale
      k).ramping = true) := by
  refine ⟨?_, ?_, ?_, ?_, ?_, ?_, ?_, ?_, ?_, ⟨?_, ?_⟩⟩
  · exact ⟨0, 0, withDale { queue := [job0], active := true }, 0, job0, _, by decide +kernel, by decide +kernel, by
    decide +kernel, by decide +kernel, by decide +kernel, rfl, by decide +kernel⟩
  · exact ⟨0, 0, withDale { queue := [{ job0 with tent := 1 }] }, 0, { job0 with tent := 1 }, _, by decide +kernel,
    by decide +kernel, by decide +kernel, by decide +kernel, by decide +kernel, rfl, by decide +kernel⟩
  · exact ⟨0, 0, withDale { run := some run0 }, 0, run0, by decide +kernel⟩
  · exact ⟨11, 11, onWith [] fun c => { c with dales := [(143, { run := some run0 })] }, 143, run0, by decide +kernel⟩
  · exact ⟨0, 0, withDale { staging := some tile0 }, 0, by decide +kernel⟩
  · exact ⟨0, 0, withDale { staging := some tile0, staged := true }, 0, tile0, by decide +kernel⟩
  · exact ⟨11, 11, on, 143, by decide +kernel⟩
  · exact ⟨11, 11, onWith [reg .drvPair [11] 0x3F] fun c =>
    { c with dales := [(143, { staging := some tile0, staged := true })] }, 143, 142, by decide +kernel⟩
  · exact ⟨0, 0, withDale { settling := true }, 0, by decide +kernel⟩
  · exact ⟨11, 11, 131, on, 143, by decide +kernel⟩
  · exact ⟨0, 0, 131, withDale { ramping := true }, 0, by decide +kernel⟩

/-- Obligations.BatchesRun: states that meet its hypotheses. -/
theorem test_batches_run_hypotheses :
    (∃ (v : _) (d : _) (now : Nat) (bad : List (Nat × Option Tag)) (s : State) (k : _) (r : DaleRun) (ds : _) (t :
      Tile) (rows : _) (ks : _) (changed : _) (due : _) (pre : Nat) (c1 : Chip), daleOk v d = true ∧ k = 12 * v + d ∧
      (s.chip.dale k).run = some r ∧ ds = Desc.ofWords r.job.desc ∧ s.chip.batchReady k r = true ∧ s.chip.wantedTile
      r.job = some t ∧ s.chip.needsReload k r.job t = false ∧ s.chip.deadlineReached ds.deadline now = false ∧ rows =
      min ds.batch (ds.nVec - r.row) ∧ 0 < rows ∧ ks = wantedRanges ds r ∧ changed = (if r.switched then 64 else
      (changedReceivers (s.chip.rangesNow k ds.nOut) ks (s.chip.dueSubsts k)).length) ∧ due = (!r.tagged ||
      r.tagFrame != s.chip.seenOf (.dale k)) ∧ pre = (if changed ≠ 0 then 48 else if due = true then 32 else 0) ∧
      s.chip.bud.shed.contains (.dale k) = false ∧ (s.chip.dale k).active = true ∧ s.chip.admitAll r.job.tent ((.dale
      k, pre + rows * ds.vecSymbols) :: batchReads ds r.row rows) (some (.dale k)) = (c1, true) ∧ c1.skewRow ds r.row
      rows = none ∧ (due = true → tagAccepted (jobTag ds r.job.tent (if r.tagged then 1 else 0)) bad = true)) ∧
    (∃ (v : _) (d : _) (now : Nat) (s : State) (k : _) (r : DaleRun) (ds : _) (t : Tile) (c1 : Chip), daleOk v d =
      true ∧ k = 12 * v + d ∧ (s.chip.dale k).run = some r ∧ ds = Desc.ofWords r.job.desc ∧ s.chip.batchReady k r =
      true ∧ s.chip.wantedTile r.job = some t ∧ s.chip.needsReload k r.job t = false ∧ s.chip.deadlineReached
      ds.deadline now = true ∧ s.chip.admitAll r.job.tent (memAccess (ds.inScale + 4 * blockOf ds.inKind r.row) 4)
      (some (.dale k)) = (c1, true)) ∧
    (∃ (v : _) (d : _) (noise : List Int) (s : State) (k : _) (r : DaleRun) (ds : _) (t : Tile) (c1 : Chip) (c2 :
      Chip) (ks : _) (a : _) (ovr : _), daleOk v d = true ∧ k = 12 * v + d ∧ (s.chip.dale k).run = some r ∧
      (s.chip.dale k).tile = some t ∧ r.phase = .batch ∧ ds = Desc.ofWords r.job.desc ∧ s.chip.admitAll r.job.tent
      (batchWrites ds r.row r.rows) (some (.dale k)) = (c1, true) ∧ ks = c1.rangesNow k ds.nOut ∧ a =
      c1.accumulateBatch k ds t ks r noise ∧ ovr = (a.1.map fun x => (x.1.map fun y => y.ovr).sum).sum ∧ c2 =
      c1.setGen (.requantDale k) a.2) ∧
    (∃ (v : _) (d : _) (s : State) (k : _) (r : DaleRun) (c1 : Chip), daleOk v d = true ∧ k = 12 * v + d ∧
      (s.chip.dale k).run = some r ∧ r.phase = .ended ∧ runStatus r ≠ Status.budgetWaitLimit ∧
      s.chip.admitAll r.job.tent (memAccess (Desc.ofWords r.job.desc).stat 32 ++ (match r.job.compl with | some a => memAccess a 32 | none => [])) (some (.dale k)) = (c1, true)) ∧
    (∃ (v : _) (p : _) (tag : Tag) (s : State) (f : TagFields), v < 12 ∧ p < 16 ∧ tagFields tag = some f ∧ f.vale = v
      ∧ f.port = p ∧ tag = s.chip.relockTag v f.bank ∧ s.chip.f Fld.valeBank_state [v, f.bank] = 2) ∧
    (∃ (v : _) (p : _) (tag : Tag) (f : TagFields), v < 12 ∧ p < 12 ∧ tagFields tag = some f ∧ f.port ≠ p ∧ f.vale =
      v) ∧
    (∃ (v : _) (d : _) (s : State) (k : _) (r : DaleRun) (n : _) (c1 : Chip), daleOk v d = true ∧ k = 12 * v + d ∧
      (s.chip.dale k).run = some r ∧ r.intruded ≠ 0 ∧ r.phase = .prepare ∧ r.stop = none ∧ r.tagFrame = s.chip.seenOf
      (.dale k) ∧ s.chip.bud.shed.contains (.dale k) = false ∧ (s.chip.dale k).active = true ∧ n = r.intruded *
      (Desc.ofWords r.job.desc).vecSymbols ∧ s.chip.spend (.dale k) r.job.tent n = some c1 ∧ c1.dales = s.chip.dales)
      ∧
    (∃ (v : _) (d : _) (s : State) (k : _) (r : DaleRun), daleOk v d = true ∧ k = 12 * v + d ∧ (s.chip.dale k).run =
      some r ∧ r.intruded ≠ 0 ∧ r.phase = .prepare ∧ r.stop = none ∧ r.tagFrame ≠ s.chip.seenOf (.dale k)) ∧
    (∃ (v : _) (b : _) (s : State), v < 12 ∧ b < 16 ∧ (s.chip.bank v b).lossWait = true) := by
  refine ⟨?_, ?_, ?_, ?_, ?_, ?_, ?_, ?_, ?_⟩
  · exact ⟨0, 0, 0, [], withDale { run := some { run0 with bound := true }, tile := some tile0, active := true }, 0,
    { run0 with bound := true }, _, _, 1, _, _, _, _, _, by decide +kernel, by decide +kernel, by decide +kernel,
    rfl, by decide +kernel, (rfl), by decide +kernel, by decide +kernel, by decide +kernel, by decide +kernel, rfl,
    rfl, rfl, rfl, by decide +kernel, by decide +kernel, pairOf2 (by decide +kernel), by decide +kernel⟩
  · exact ⟨0, 0, 16, withDale
    { run := some { run0 with bound := true, job := { job0 with desc := job0.desc.set 13 1 } }, tile := some tile0,
      active := true }, 0, { run0 with bound := true, job := { job0 with desc := job0.desc.set 13 1 } }, _, _, _, by
    decide +kernel, by decide +kernel, by decide +kernel, rfl, by decide +kernel, (rfl), by decide +kernel, by
    decide +kernel, pairOf2 (by decide +kernel)⟩
  · exact ⟨0, 0, [], withDale { run := some { run0 with phase := .batch }, tile := some tile0 }, 0,
    { run0 with phase := .batch }, _, tile0, _, _, _, _, _, by decide +kernel, by decide +kernel, by decide +kernel,
    by decide +kernel, by decide +kernel, rfl, pairOf2 (by decide +kernel), rfl, rfl, rfl, rfl⟩
  · exact ⟨0, 0, withDale { run := some { run0 with phase := .ended } }, 0, { run0 with phase := .ended }, _, by
    decide +kernel, by decide +kernel, by decide +kernel, by decide +kernel, by decide +kernel, pairOf2 (by
    decide +kernel)⟩
  · exact ⟨11, 15, tagOf { vale := 11, port := 15, bank := 3, tent := 63, kind := 2 }, on [reg .valeBank [11, 3]
    0x3F0F0020], { vale := 11, port := 15, bank := 3, tent := 63, kind := 2 }, by decide +kernel⟩
  · exact ⟨11, 11, tagOf { vale := 11, port := 15, bank := 3, tent := 63, kind := 2 },
    { vale := 11, port := 15, bank := 3, tent := 63, kind := 2 }, by decide +kernel⟩
  · exact ⟨0, 0, withDale { run := some { run0 with intruded := 1 }, active := true }, 0,
    { run0 with intruded := 1 }, _, _, by decide +kernel, by decide +kernel, by decide +kernel, by decide +kernel, by
    decide +kernel, by decide +kernel, ⟨by decide +kernel, by decide +kernel, by decide +kernel, rfl,
    (someOf (by decide +kernel)), by decide +kernel⟩⟩
  · exact ⟨0, 0, withDale { run := some { run0 with intruded := 1, tagFrame := 1 } }, 0,
    { run0 with intruded := 1, tagFrame := 1 }, by decide +kernel⟩
  · exact ⟨11, 15, onWith [] fun c => { c with banks := [((11, 15), { lossWait := true })] }, by decide +kernel⟩

/-- Obligations.RotationsStep: states that meet its hypotheses. -/
theorem test_rotations_step_hypotheses :
    (∃ (v : _) (d : _) (s : State) (k : _) (c1 : Chip), daleOk v d = true ∧ k = 12 * v + d ∧ s.chip.device = .service
      ∧ (s.chip.dale k).drained = false ∧ s.chip.flag Fld.calCfg_rotEn [k / 12] = true ∧ (s.chip.dale k).rot.next =
      .measure ∧ s.chip.rotationHeld k = false ∧ s.chip.spend (.cal (k / 12)) 0 1 = some c1) ∧
    (∃ (v : _) (d : _) (s : State) (k : _), daleOk v d = true ∧ k = 12 * v + d ∧ s.chip.device = .service ∧
      (s.chip.dale k).drained = false ∧ s.chip.flag Fld.calCfg_rotEn [k / 12] = true ∧ (s.chip.dale k).rot.next =
      .stage) ∧
    (∃ (v : _) (d : _) (s : State) (k : _), daleOk v d = true ∧ k = 12 * v + d ∧ s.chip.device = .service ∧
      (s.chip.dale k).drained = false ∧ s.chip.flag Fld.calCfg_rotEn [k / 12] = true ∧ (s.chip.dale k).rot.next =
      .compare ∧ s.chip.atBoundary k = true) ∧
    (∃ (v : _) (d : _) (s : State) (k : _), daleOk v d = true ∧ k = 12 * v + d ∧ (s.chip.dale k).rot.next = .strobe ∧
      s.chip.atBoundary k = true ∧ (s.chip.dale k).staging = none) ∧
    (∃ (v : _) (b : _) (s : State) (c1 : Chip), v < 12 ∧ b < 16 ∧ (s.chip.bank v b).calRun = false ∧ s.chip.device =
      .service ∧ (s.chip.dale (12 * v)).drained = false ∧ s.chip.flag Fld.calCfg_selEn [v] = true ∧ s.chip.f
      Fld.calState_selBank [v] = 0x1F ∧ s.chip.f Fld.valeBank_state [v, b] = 0 ∧ (s.chip.bank v b).carries = none ∧
      s.chip.spend (.cal v) 0 1 = some c1 ∧ (∀ x, x < 16 → x ≠ b → c1.f Fld.valeBank_port [v, x] ≠ 12)) ∧
    (∃ (v : _) (b : _) (s : State), v < 12 ∧ b < 16 ∧ (s.chip.bank v b).calRun = true) ∧
    (∃ (v : _) (s : State) (c1 : Chip), v < 12 ∧ s.chip.device = .service ∧ (s.chip.dale (12 * v)).drained = false ∧
      s.chip.flag Fld.calCfg_adcEn [v] = true ∧ s.chip.flag Fld.calState_adcFault [v] = false ∧ (s.chip.valeCal
      v).adc = none ∧ s.chip.spend (.cal v) 0 1 = some c1 ∧ c1.flag Fld.convRot_dir [v] = false ∧ c1.f
      Fld.convRot_calAdc [v] < 71) ∧
    (∃ (v : _) (l : _) (xs : List Int) (s : State) (req : _) (x : AdcCal) (c0 : Chip) (sx : _) (o : _) (c1 : Chip) (y
      : AdcCal), v < 12 ∧ l < 71 ∧ (s.chip.adc v l).run = .cal req ∧ (s.chip.valeCal v).adc = some x ∧ c0 =
      s.chip.discsDone v l ∧ sx = c0.trimMonitor v x.phys (seqGain req.toNat) (2 ^ seqAvg req.toNat) xs ∧ o =
      outputValue (sx.2.gen (.monitor v)) (seqAvg req.toNat) sx.1 ∧ c1 = ((sx.2.setGen (.monitor v) o.2).setRun v l
      .idle).injectionRun v l 0 ∧ (c1.valeCal v).adc = some y ∧ y.results.length = 7) ∧
    (∃ (g : Gate) (s : State), gateExists g = true ∧ s.chip.powered = true ∧ s.chip.seenOf g ≠ s.chip.bud.frame) := by
  refine ⟨?_, ?_, ?_, ?_, ?_, ?_, ?_, ?_, ?_⟩
  · exact ⟨0, 0, onWith [reg .calCfg [0] 7, reg .valeBank [0, 0] 0x20, reg .guyGood [0] 0xFFF00000, reg .calState [0]
    0xF800, reg .convRot [0] 0] fun c => { c with dales := [(0, { rot := { next := .measure } })] }, 0, _, by
    decide +kernel, by decide +kernel, by decide +kernel, by decide +kernel, by decide +kernel, by decide +kernel,
    ⟨by decide +kernel, (someOf (by decide +kernel))⟩⟩
  · exact ⟨0, 0, onWith [reg .calCfg [0] 7, reg .valeBank [0, 0] 0x20, reg .guyGood [0] 0xFFF00000, reg .calState [0]
    0xF800, reg .convRot [0] 0] fun c => { c with dales := [(0, { rot := { next := .stage } })] }, 0, by
    decide +kernel⟩
  · exact ⟨0, 0, onWith [reg .calCfg [0] 7, reg .valeBank [0, 0] 0x20, reg .guyGood [0] 0xFFF00000, reg .calState [0]
    0xF800, reg .convRot [0] 0] fun c => { c with dales := [(0, { rot := { next := .compare } })] }, 0, by
    decide +kernel⟩
  · exact ⟨0, 0, onWith [reg .calCfg [0] 7, reg .valeBank [0, 0] 0x20, reg .guyGood [0] 0xFFF00000, reg .calState [0]
    0xF800, reg .convRot [0] 0] fun c => { c with dales := [(0, { rot := { next := .strobe } })] }, 0, by
    decide +kernel⟩
  · exact ⟨0, 15, onWith [reg .calCfg [0] 7, reg .valeBank [0, 0] 0x20, reg .guyGood [0] 0xFFF00000, reg .calState
    [0] 0xF800, reg .convRot [0] 0] fun c => { c with dales := [(0, { rot := { next := .measure } })] }, _, by
    decide +kernel, by decide +kernel, by decide +kernel, by decide +kernel, by decide +kernel, by decide +kernel,
    ⟨by decide +kernel, by decide +kernel, by decide +kernel, (someOf (by decide +kernel)), (by decide +kernel)⟩⟩
  · exact ⟨11, 15, onWith [] fun c => { c with banks := [((11, 15), { calRun := true })] }, by decide +kernel⟩
  · exact ⟨0, onWith [reg .calCfg [0] 7, reg .valeBank [0, 0] 0x20, reg .guyGood [0] 0xFFF00000, reg .calState [0]
    0xF800, reg .convRot [0] 0] fun c => { c with dales := [(0, { rot := { next := .measure } })] }, _, by
    decide +kernel, by decide +kernel, by decide +kernel, by decide +kernel, by decide +kernel, by decide +kernel,
    (someOf (by decide +kernel)), by decide +kernel⟩
  · exact ⟨11, 70, [], onWith [] fun c =>
    { c with adcs := [((11, 70), { run := .cal 7 })], valeCals := [(11,
             { adc := some { phys := 71, logical := 70, results := [0, 0, 0, 0, 0, 0, 0] } })] }, 7,
    { phys := 71, logical := 70, results := [0, 0, 0, 0, 0, 0, 0] }, _, _, _, _,
    { phys := 71, logical := 70, results := [0, 0, 0, 0, 0, 0, 0] }, by decide +kernel, by decide +kernel, by
    decide +kernel, by decide +kernel, rfl, rfl, rfl, rfl, by decide +kernel⟩
  · exact ⟨.dale 143, onWith [] fun c => { c with bud := { c.bud with frame := 1 } }, by decide +kernel⟩

/-- Obligations.SitesAreProgrammedAndChecked: states that meet its hypotheses. -/
theorem test_sites_are_programmed_and_checked_hypotheses :
    (∃ (n : _) (ps : _) (reads : List (List Nat)) (s : State) (p : Prog) (c1 : Chip) (c2 : Chip) (r : _), siteOk n ps
      = true ∧ s.chip.prog n ps = some p ∧ p.group < progGroups ∧ reads ≠ [] ∧ reads.length ≤ 64 ∧ s.chip.flag
      Fld.veldImgBase_valid [n] = true ∧ s.chip.f Fld.siteWrites_writes [n, ps] < 100000 ∧ s.chip.device = .service ∧
      (s.chip.flag Fld.veldCfg_wwinEn [n] = true → s.chip.inWindow n = true) ∧ s.chip.mayProgram n ps p = true ∧
      (s.chip.creditMet p.gate (some (progJob n))).spend p.gate p.tent reads.length (some (progJob n)) = some c1 ∧ r
      = reads.foldl (fun st g => progIterate (c1.image p.logical) (!c1.inWindow n) g st)
      ({ prog := { p with credit := true, paused := false } } : ProgStep) ∧ c2 = c1.setProg n ps r.prog) ∧
    (∃ (n : _) (ps : _) (reads : List (List Nat)) (s : State) (p : Prog), siteOk n ps = true ∧ s.chip.prog n ps =
      some p ∧ p.group < progGroups ∧ reads ≠ [] ∧ reads.length ≤ 64 ∧ s.chip.flag Fld.veldImgBase_valid [n] = true ∧
      s.chip.f Fld.siteWrites_writes [n, ps] < 100000 ∧ s.chip.device = .service ∧ (s.chip.flag Fld.veldCfg_wwinEn
      [n] = true → s.chip.inWindow n = true) ∧ s.chip.mayProgram n ps p = false) ∧
    (∃ (n : _) (ps : _) (reads : List (List Nat)) (s : State) (p : Prog), siteOk n ps = true ∧ s.chip.prog n ps =
      some p ∧ p.group < progGroups ∧ reads ≠ [] ∧ reads.length ≤ 64 ∧ s.chip.flag Fld.veldImgBase_valid [n] = true ∧
      s.chip.f Fld.siteWrites_writes [n, ps] < 100000 ∧ s.chip.device = .service ∧ s.chip.flag Fld.veldCfg_wwinEn [n]
      = true ∧ s.chip.inWindow n = false ∧ p.noted = false) ∧
    (∃ (n : _) (ps : _) (s : State) (p : Prog) (t : _) (k : _) (sw : _) (so : _) (sd : _), siteOk n ps = true ∧
      s.chip.prog n ps = some p ∧ p.what = .set t k sw so sd ∧ p.paused = true) ∧
    (∃ (n : _) (ps : _) (s : State) (p : Prog) (t : _) (k : _) (sw : _) (so : _) (sd : _), siteOk n ps = true ∧
      s.chip.prog n ps = some p ∧ progGroups ≤ p.group ∧ p.what = .set t k sw so sd) ∧
    (∃ (n : _) (ps : _) (noise : List Int) (s : State) (p : Prog) (o : Refresh) (c1 : Chip), siteOk n ps = true ∧
      s.chip.prog n ps = some p ∧ progGroups ≤ p.group ∧ p.what = .refresh ∧ c1 = (s.chip.programEnd n ps p
      noise).saveRecord n ps ∧ (c1.veld n).op = some o) ∧
    (∃ (n : _) (ps : _) (noise : List Int) (s : State) (p : Prog) (c1 : Chip), siteOk n ps = true ∧ s.chip.prog n ps
      = some p ∧ progGroups ≤ p.group ∧ p.what = .inPlace ∧ c1 = (s.chip.programEnd n ps p noise).setF
      Fld.siteAstate_state [n, ps] 2) ∧
    (∃ (n : _) (ph : _) (seen : CheckSeen) (s : State) (i : _) (c0 : Chip) (c1 : Chip) (c2 : Chip) (x : Nat) (k :
      CheckRun), veldOk n = true ∧ x = s.chip.f Fld.veldState_checkSite [n] ∧ s.chip.logicalOf n x = some i ∧
      s.chip.flag Fld.veldCfg_checkEn [n] = true ∧ s.chip.flag Fld.veldImgBase_valid [n] = true ∧ s.chip.f
      Fld.siteAstate_state [n, x] = 2 ∧ s.chip.prog n x = none ∧ (s.chip.veld n).drained = false ∧ s.chip.device =
      .service ∧ (s.chip.core i).run = none ∧ (s.chip.core i).steps = [] ∧ s.chip.useImage i = (c0, true) ∧ c0.spend
      (.cal (12 + n)) 0 (max 1 ph) = some c1 ∧ c2 = c1.noteFaults i seen ∧ k = (c2.veld n).check.getD {}) ∧
    (∃ (n : _) (s : State) (i : _) (x : Nat), veldOk n = true ∧ x = s.chip.f Fld.veldState_checkSite [n] ∧
      s.chip.logicalOf n x = some i ∧ s.chip.f Fld.siteAstate_state [n, x] = 2 ∧ s.chip.prog n x = none ∧
      (s.chip.core i).steps ≠ []) := by
  refine ⟨?_, ?_, ?_, ?_, ?_, ?_, ?_, ?_, ?_⟩
  · exact ⟨0, 5, [[0, 0, 0, 0, 0, 0, 0, 0]], withVeld
    { progs := [(5, { what := .refresh, logical := 0, credit := true })], pairs := 1 } (f := id) (regs := [reg
    .thmNode [25, 0] 0x640]), { what := .refresh, logical := 0, credit := true }, _, _, _, by decide +kernel, by
    decide +kernel, by decide +kernel, by decide +kernel, by decide +kernel, by decide +kernel, ⟨by decide +kernel,
    by decide +kernel, by decide +kernel, by decide +kernel, (someOf (by decide +kernel)), rfl, rfl⟩⟩
  · exact ⟨0, 5, [[0]], withVeld { progs := [(5, { what := .refresh, logical := 0 })], pairs := 0 } (f := id)
    (regs := [reg .thmNode [25, 0] 0x640]), { what := .refresh, logical := 0 }, by decide +kernel⟩
  · exact ⟨0, 5, [[0]], withVeld { progs := [(5, { what := .refresh, logical := 0, credit := true })] } (f := id)
    (regs := [reg .veldCfg [0] 1, reg .thmNode [25, 0] 0, reg .thmNode [25, 1] 0, reg .thmNode [25, 2] 0]),
    { what := .refresh, logical := 0, credit := true }, by decide +kernel⟩
  · exact ⟨0, 5, withVeld { progs := [(5, { what := .set 63 1 0 0 [], logical := 0, paused := true })] },
    { what := .set 63 1 0 0 [], logical := 0, paused := true }, 63, 1, 0, 0, [], by decide +kernel⟩
  · exact ⟨0, 5, withVeld { progs := [(5, { what := .set 63 1 0 0 [], logical := 0, group := 33280 })] },
    { what := .set 63 1 0 0 [], logical := 0, group := 33280 }, 63, 1, 0, 0, [], by decide +kernel⟩
  · exact ⟨0, 5, [], withVeld
    { progs := [(5, { what := .refresh, logical := 0, group := 33280 })],
      op := some { logical := 0, why := .refresh, old := 6, spare := some 5, stage := 3 } } (f := id) (regs := [reg
    .siteId [0, 5] 0x7FFF0000]), { what := .refresh, logical := 0, group := 33280 },
    { logical := 0, why := .refresh, old := 6, spare := some 5, stage := 3 }, _, by decide +kernel, by
    decide +kernel, by decide +kernel, by decide +kernel, rfl, by decide +kernel⟩
  · exact ⟨0, 5, [], withVeld { progs := [(5, { what := .inPlace, logical := 0, group := 33280 })] },
    { what := .inPlace, logical := 0, group := 33280 }, _, by decide +kernel, by decide +kernel, by decide +kernel,
    by decide +kernel, rfl⟩
  · exact ⟨0, 0, {}, withVeld {} (fun c => { c with arrs := [((0, 5), { present := true })] }) [reg .veldCfg [0] 2,
    reg .veldState [0] 0x5000, reg .siteId [0, 5] 0, reg .siteAstate [0, 5] 2], 0, _, _, _, _, _, by decide +kernel,
    rfl, by decide +kernel, by decide +kernel, by decide +kernel, by decide +kernel, by decide +kernel, by
    decide +kernel, ⟨by decide +kernel, by decide +kernel, by decide +kernel, (pairOf2 (by decide +kernel)),
    (someOf (by decide +kernel)), rfl, rfl⟩⟩
  · exact ⟨0, withVeld {} (fun c => { c with cores := [(0, { steps := [.step 0 0 1 0] })] }) [reg .veldCfg [0] 2, reg
    .veldState [0] 0x5000, reg .siteId [0, 5] 0, reg .siteAstate [0, 5] 2], 0, _, by decide +kernel, rfl, by
    decide +kernel⟩

/-- Obligations.SitesAreRefreshed: states that meet its hypotheses. -/
theorem test_sites_are_refreshed_hypotheses :
    (∃ (n : _) (s : State) (i : _) (why : RepairFor) (rest : List (Nat × RepairFor)) (ps : _) (sp : _) (fr : _) (c0 :
      Chip) (c1 : Chip) (c2 : Chip), veldOk n = true ∧ (s.chip.veld n).op = none ∧ (s.chip.veld n).queue = (i, why)
      :: rest ∧ s.chip.flag Fld.veldImgBase_valid [n] = true ∧ (s.chip.veld n).drained = false ∧ s.chip.device =
      .service ∧ ps = s.chip.physOf i ∧ c0 = s.chip.setVeld n { s.chip.veld n with queue := rest } ∧ c0.prog n ps =
      none ∧ c0.lmapValid i = true ∧ c0.repairMoot n ps why = false ∧ c0.useImage i = (c1, true) ∧ c1.freeSpares n =
      sp :: fr ∧ c1.repairMap n ps why = some c2) ∧
    (∃ (n : _) (s : State) (i : _) (why : RepairFor) (rest : List (Nat × RepairFor)) (ps : _) (c0 : Chip) (c1 : Chip)
      (c2 : Chip), veldOk n = true ∧ (s.chip.veld n).op = none ∧ (s.chip.veld n).queue = (i, why) :: rest ∧
      s.chip.flag Fld.veldImgBase_valid [n] = true ∧ (s.chip.veld n).drained = false ∧ s.chip.device = .service ∧ ps
      = s.chip.physOf i ∧ c0 = s.chip.setVeld n { s.chip.veld n with queue := rest } ∧ c0.prog n ps = none ∧
      c0.lmapValid i = true ∧ c0.repairMoot n ps why = false ∧ c0.useImage i = (c1, true) ∧ c1.freeSpares n = [] ∧
      c1.repairMap n ps why = some c2) ∧
    (∃ (n : _) (s : State) (o : Refresh) (sp : _), veldOk n = true ∧ (s.chip.veld n).op = some o ∧ o.spare = some sp
      ∧ o.stage = 5 ∧ (s.chip.core o.logical).run = none ∧ (s.chip.core o.logical).steps = [] ∧ sp ≠ o.old ∧ sp <
      800) ∧
    (∃ (n : _) (noise : List Int) (s : State) (o : Refresh) (p : Prog) (c1 : Chip), veldOk n = true ∧ (s.chip.veld
      n).op = some o ∧ o.stage = 7 ∧ s.chip.prog n o.old = some p ∧ progGroups ≤ p.group ∧ c1 = s.chip.programEnd n
      o.old p noise ∧ c1.f Fld.siteWrites_writes [n, o.old] < 100000) ∧
    (∃ (n : _) (s : State) (o : Refresh), veldOk n = true ∧ (s.chip.veld n).op = some o ∧ o.stage = 7 ∧ s.chip.prog n
      o.old = none) ∧
    (∃ (n : _) (s : State) (i : _) (why : RepairFor), veldOk n = true ∧ (s.chip.veld n).queue = [(i, why)] ∧
      s.chip.logicalOf n (s.chip.f Fld.veldState_checkSite [n]) = none ∧ (s.chip.siteArr i).missed = true) := by
  refine ⟨?_, ?_, ?_, ?_, ?_, ?_⟩
  · exact ⟨0, withVeld { queue := [(0, .refresh)] } (fun c => { c with arrs := [((0, 5), { present := true })] })
    [reg .siteAstate [0, 5] 2, reg .siteId [0, 0] 0x7FFF0000, reg .siteWrites [0, 0] 0], 0, .refresh, [], _, _, _, _,
    _, _, by decide +kernel, by decide +kernel, by decide +kernel, by decide +kernel, by decide +kernel, by
    decide +kernel, rfl, rfl, by decide +kernel, by decide +kernel, by decide +kernel, (pairOf2 (by decide +kernel)),
    (consOf (spare0 (by decide +kernel))), (rfl)⟩
  · exact ⟨0, withVeld { queue := [(0, .refresh)], progs := allBut5 { what := .inPlace, logical := 1 } } (fun c =>
    { c with arrs := [((0, 5), { present := true })] }) [reg .siteAstate [0, 5] 2], 0, .refresh, [], _, _, _, _, by
    decide +kernel, by decide +kernel, by decide +kernel, by decide +kernel, by decide +kernel, by decide +kernel,
    rfl, rfl, by decide +kernel, by decide +kernel, by decide +kernel, (pairOf2 (by decide +kernel)),
    (noSpare (x := { what := .inPlace, logical := 1 }) (by decide +kernel) (by decide +kernel)), (rfl)⟩
  · exact ⟨35, onWith [] fun c =>
    { c with velds := [(35,
             { op := some { logical := 767, why := .refresh, old := 0, spare := some 799, stage := 5 } })] },
    { logical := 767, why := .refresh, old := 0, spare := some 799, stage := 5 }, 799, by decide +kernel⟩
  · exact ⟨0, [], withVeld
    { op := some { logical := 0, why := .refresh, old := 5, spare := some 6, stage := 7 }, progs := [(5,
      { what := .rewrite, logical := 0, group := 33280 })] } (regs := [reg .siteId [0, 5] 0x7FFF0000]),
    { logical := 0, why := .refresh, old := 5, spare := some 6, stage := 7 },
    { what := .rewrite, logical := 0, group := 33280 }, _, by decide +kernel, by decide +kernel, by decide +kernel,
    by decide +kernel, by decide +kernel, rfl, by decide +kernel⟩
  · exact ⟨0, withVeld { op := some { logical := 0, why := .refresh, old := 5, spare := some 6, stage := 7 } },
    { logical := 0, why := .refresh, old := 5, spare := some 6, stage := 7 }, by decide +kernel⟩
  · exact ⟨0, withVeld { queue := [(0, .refresh)] } (fun c => { c with arrs := [((0, 5), { missed := true })] }) [reg
    .veldState [0] 0x5000, reg .siteId [0, 5] 0x7FFF0000], 0, .refresh, by decide +kernel⟩

/-- Obligations.ConvertersRun: states that meet its hypotheses. -/
theorem test_converters_run_hypotheses :
    (∃ (v : _) (k : _) (s : State) (x : Nat), v < 12 ∧ 1 ≤ k ∧ k < 8 ∧ x = s.chip.trigWord v k) ∧
    (∃ (c : Chip) (v : _) (k : _) (l : _) (e : _) (w : Word), (c.adc v l).run = .trig e ∧ c.flag Fld.convCtl_active
      [v, l] = true ∧ w = c.seqWord v l e ∧ seqTrig w.toNat = k ∧ seqValid w.toNat = true ∧ (c.adc v l).began +
      startDiscards w.toNat (c.lastGain v (c.physAdc v l)) ≤ c.gclk) ∧
    (∃ (v : _) (l : _) (s : State) (x : _), v < 12 ∧ l < 71 ∧ (s.chip.adc v l).run = .idle ∧ s.chip.flag
      Fld.convCtl_active [v, l] = true ∧ (s.chip.adc v l).queue = [] ∧ (s.chip.adc v l).cal = none ∧ (s.chip.adc v
      l).next < 64 ∧ x = s.chip.seqWord v l (s.chip.adc v l).next) ∧
    (∃ (v : _) (l : _) (xs : List Int) (fired : List Nat) (s : State) (e : _) (w : Word) (c0 : Chip) (o : _), v < 12
      ∧ l < 71 ∧ (s.chip.adc v l).run = .entry e w false ∧ seqStop w.toNat = false ∧ (s.chip.adc v l).halting = false
      ∧ c0 = s.chip.discsDone v l ∧ o = c0.monitorOutput v l (c0.toneOf v l e w.toNat) w.toNat (firedSamples fired
      xs)) ∧
    (∃ (v : _) (l : _) (s : State) (i : Inj) (q : _) (e : _) (w : Word) (b : _), v < 12 ∧ l < 71 ∧ (s.chip.adc v
      l).queue = i :: q ∧ (s.chip.adc v l).run = .entry e w b) ∧
    (∃ (v : _) (l : _) (s : State) (x : Word), v < 12 ∧ l < 71 ∧ (s.chip.adc v l).cal = some x ∧ (s.chip.adc v l).run
      = .idle ∧ (s.chip.adc v l).queue = []) ∧
    (∃ (v : _) (l : _) (s : State) (x : Word) (m : Cmd), v < 12 ∧ l < 71 ∧ (s.chip.adc v l).run = .inj ⟨x, .cmd m⟩ ∧
      s.chip.longs = [{ op := 0x0701, cmd := m }]) := by
  refine ⟨?_, ?_, ?_, ?_, ?_, ?_, ?_⟩
  · exact ⟨11, 7, on [reg .convTrig [11, 7] 0x80000032], _, by decide +kernel, by decide +kernel, by decide +kernel,
    rfl⟩
  · exact ⟨(onWith [reg .convCtl [11, 70] 0x20000000, reg .convSeq [11, 70, 63] 0x80070000] fun c =>
    { c with adcs := [((11, 70), { run := .trig 63 })], gclk := 1000 }).chip, 11, 7, 70, 63, _, by decide +kernel, by
    decide +kernel, rfl, by decide +kernel⟩
  · exact ⟨11, 70, onWith [reg .convCtl [11, 70] 0x20000000] fun c =>
    { c with adcs := [((11, 70), { next := 63 })] }, _, by decide +kernel, by decide +kernel, by decide +kernel, by
    decide +kernel, by decide +kernel, by decide +kernel, ⟨by decide +kernel, rfl⟩⟩
  · exact ⟨11, 70, [], [], onWith [] fun c => { c with adcs := [((11, 70), { run := .entry 63 0x80000200 false })] },
    63, 0x80000200, _, _, by decide +kernel, by decide +kernel, by decide +kernel, by decide +kernel, by
    decide +kernel, rfl, rfl⟩
  · exact ⟨11, 70, onWith [] fun c =>
    { c with adcs := [((11, 70), { run := .entry 63 0x80000200 false, queue := [⟨0x80000200, .host⟩] })] },
    ⟨0x80000200, .host⟩, [], 63, 0x80000200, false, by decide +kernel⟩
  · exact ⟨11, 70, onWith [] fun c => { c with adcs := [((11, 70), { cal := some 0x80000200 })] }, 0x80000200, by
    decide +kernel⟩
  · exact ⟨11, 70, onWith [] fun c =>
    { c with adcs := [((11, 70), { run := .inj ⟨0x80000200, .cmd (cmd 0x460B)⟩ })],
             longs := [{ op := 0x0701, cmd := cmd 0x460B }] }, 0x80000200, cmd 0x460B, by decide +kernel⟩

/-- Obligations.LoopsAndChannelsTick: states that meet its hypotheses. -/
theorem test_loops_and_channels_tick_hypotheses :
    (∃ (v : _) (n : _) (s : State), chanOk v n = true ∧ (s.chip.chan v n).held = true ∧ (s.chip.chan v n).ranging =
      none) ∧
    (∃ (v : _) (n : _) (s : State) (i0 : _), chanOk v n = true ∧ (s.chip.chan v n).ranging = some i0 ∧ i0 ≤ 16384 *
      rangeLsb (s.chip.chan v n).range ∧ s.chip.f Fld.drvCh_code [v, n] = (s.chip.chan v n).out) ∧
    (∃ (v : _) (n : _) (s : State), loopOk v n = true ∧ s.chip.ticksNow v n = false) ∧
    (∃ (v : _) (n : _) (s : State) (c0 : Chip) (c1 : Chip), loopOk v n = true ∧ s.chip.valeDrained v = false ∧
      s.chip.ticksNow v n = true ∧ s.chip.loopState v n = 0 ∧ (s.chip.loop v n).fresh = true ∧ (s.chip.loopWritten v
      n).kind ≠ 0 ∧ c0 = { s.chip with ticked := Tab.set s.chip.ticked v (some (s.chip.gclk, n)) } ∧ c1 =
      c0.startLoop v n (c0.loopWords v n)) ∧
    (∃ (v : _) (n : _) (s : State) (c0 : Chip) (c1 : Chip) (c2 : Chip) (e : _) (q : _) (m : _), loopOk v n = true ∧
      s.chip.valeDrained v = false ∧ s.chip.ticksNow v n = true ∧ s.chip.loopState v n ≠ 0 ∧ (s.chip.loop v n).fresh
      = false ∧ c0 = { s.chip with ticked := Tab.set s.chip.ticked v (some (s.chip.gclk, n)) } ∧ c1 = c0.count
      Fld.guyLstate_ticks [v, n] ∧ e = c0.loopE v n ∧ e.kind ≠ 6 ∧ c1.latest v e.adc e.errEnt = some (q, m) ∧
      (c1.loop v n).lastSeq = some (e.errEnt, (c1.adc v e.adc).goes, q) ∧ c2 = (c1.staleTick v n).capture v n (c1.sf
      Fld.guyLstate_err [v, n])) ∧
    (∃ (v : _) (n : _) (s : State) (c0 : Chip) (c1 : Chip) (e : _) (q : _) (m : _), loopOk v n = true ∧
      s.chip.valeDrained v = false ∧ s.chip.ticksNow v n = true ∧ s.chip.loopState v n ≠ 0 ∧ (s.chip.loop v n).fresh
      = false ∧ c0 = { s.chip with ticked := Tab.set s.chip.ticked v (some (s.chip.gclk, n)) } ∧ c1 = c0.count
      Fld.guyLstate_ticks [v, n] ∧ e = c0.loopE v n ∧ e.kind ≠ 6 ∧ c1.latest v e.adc e.errEnt = some (q, m) ∧
      (c1.loop v n).lastSeq ≠ some (e.errEnt, (c1.adc v e.adc).goes, q)) ∧
    (∃ (v : _) (b : _) (s : State), v < 12 ∧ b < 16 ∧ s.chip.loopState v (1040 + 2 * b) = 6) ∧
    (∃ (v : _) (n : _) (s : State), loopOk v n = true ∧ s.chip.loopState v n = 2 ∧ (s.chip.loop v n).timing = true) ∧
    (∃ (v : _) (s : State), v < 12 ∧ s.chip.flag Fld.guyTestCtl_active [v] = true ∧ s.chip.f Fld.guyTestCtl_sig [v] =
      2 ∧ s.chip.f Fld.guyTestDwell_steps [v] * s.chip.f Fld.guyTestDwell_dwell [v] ≤ (s.chip.loopTest v).ticks) := by
  refine ⟨?_, ?_, ?_, ?_, ?_, ?_, ?_, ?_, ?_⟩
  · exact ⟨11, 1919, onWith [] fun c => { c with chans := [((11, 1919), { held := true })] }, by decide +kernel⟩
  · exact ⟨11, 1919, onWith [] fun c => { c with chans := [((11, 1919), { ranging := some 65536, range := 1 })] },
    65536, by decide +kernel⟩
  · exact ⟨11, 2047, onWith [] fun c => { c with gclk := 1 }, by decide +kernel⟩
  · exact ⟨0, 0, onWith [(⟨.guyLoop, [0, 0], 0⟩, 1)] fun c => { c with loops := [((0, 0), { fresh := true })] }, _,
    _, by decide +kernel, by decide +kernel, by decide +kernel, by decide +kernel, by decide +kernel, by
    decide +kernel, rfl, rfl⟩
  · exact ⟨0, 0, onWith [reg .guyLstate [0, 0] 4, reg .convAcc [0, 70, 0] 21508390912] fun c =>
    { c with loops := [((0, 0), { entry := [1, 70], lastSeq := some (0, 0, 5) })] }, _, _, _, _, 5, 0, by
    decide +kernel, by decide +kernel, by decide +kernel, by decide +kernel, by decide +kernel, rfl, rfl, rfl, by
    decide +kernel, by decide +kernel, by decide +kernel, rfl⟩
  · exact ⟨0, 0, onWith [reg .guyLstate [0, 0] 4, reg .convAcc [0, 70, 0] 21508390912] fun c =>
    { c with loops := [((0, 0), { entry := [1, 70], lastSeq := some (0, 0, 4) })] }, _, _, _, 5, 0, by
    decide +kernel, by decide +kernel, by decide +kernel, by decide +kernel, by decide +kernel, rfl, rfl, rfl, by
    decide +kernel⟩
  · exact ⟨11, 15, on [reg .guyLstate [11, 1070] 6], by decide +kernel⟩
  · exact ⟨11, 2047, onWith [reg .guyLstate [11, 2047] 2] fun c =>
    { c with loops := [((11, 2047), { timing := true })] }, by decide +kernel⟩
  · exact ⟨11, on [reg .guyTestCtl [11] 0x22000000], by decide +kernel⟩

/-! ### The statements about every command of a kind -/

/-- ADDI x1, x2, -1 on thread 0, whose x2 holds 2^63. -/
def addi0 : State := thread0 [0xFFFF1042] [(2, 0x8000000000000000)]

/-- ST16 and LD32S at 0x4FFE past x1, which lies in the thread's own store. -/
def st0 : State := thread0 [0x4FFE0899] [(1, BitVec.ofNat 64 (storeBase 0)), (2, 0xABCD)]

def ld0 : State := thread0 [0x4FFC0894] [(1, BitVec.ofNat 64 (storeBase 0))]

/-- Obligations.MemoryStaysCanonical: a state that meets its hypotheses. -/
theorem test_memory_stays_canonical_hypotheses : ∃ s t : State, s.wf ∧ step s = .next t :=
  ⟨{ st0 with pending := [.st16 h0 2 1 0x4FFE] }, _, (by decide +kernel : Memory.wf st0.chip.mem = true), nextOf st0 (by decide +kernel)⟩

/-- Obligations.CairnIsIsolated: states that meet the hypotheses of its clauses. -/
theorem test_cairn_is_isolated_hypotheses :
    (∃ (i : Instr) (s t : State), i.ofCairn = false ∧ exec i s = .next t) ∧
    (∃ (i : Instr) (s t : State), exec i s = .next t) ∧
    (∃ (x : CairnNow) (ok : Bool) (s t : State), exec (.activityFrame x ok) s = .next t) := by
  refine ⟨?_, ?_, ?_⟩
  · exact ⟨.addi h0 1 2 0xFFFF, addi0, _, by decide, nextOf addi0 (by decide +kernel)⟩
  · exact ⟨.metrologyPulse quiet, on, _, nextOf on (by decide +kernel)⟩
  · exact ⟨quiet, false, withCairn {}, _, nextOf on (by decide +kernel)⟩

/-- Obligations.RegisterFormsKeepTheRest: a state that meets its hypotheses. -/
theorem test_register_forms_keep_the_rest_hypotheses :
    ∃ (i : Instr) (h : Hart) (ds : List Dest) (s t : State), i.registerForm = some (h, ds) ∧ exec i s = .next t ∧
      (s.chip.thread h).stopping = false ∧ (t.chip.thread h).state ≠ 4 ∧ Dest.x 31 ∉ ds ∧ Dest.v 0 ∉ ds ∧ Dest.p 0 ∉ ds :=
  ⟨.addi h0 1 2 0xFFFF, h0, _, addi0, _, rfl, nextOf addi0 (by decide +kernel), by decide +kernel⟩

/-- The ADDI runs: x1 is x2 less one and the thread is at its second word. -/
theorem test_addi_wraps : let t := (afterOf (exec (.addi h0 1 2 0xFFFF) addi0) on).chip.thread h0
    (t.getX 1, t.pc) = (0x7FFFFFFFFFFFFFFF, storeBase 0 + 4) := by decide +kernel

/-- Obligations.AccessesKeepOtherBytes: states that meet the hypotheses of its clauses. -/
theorem test_accesses_keep_other_bytes_hypotheses :
    (∃ (i : Instr) (s t : State), loadForm i = true ∧ exec i s = .next t) ∧
    (∃ (i : Instr) (s t : State) (a n : Nat), storeForm s.chip i = some (a, n) ∧ exec i s = .next t ∧
      (t.chip.byte a, t.chip.byte (a + 1)) = (0xCD, 0xAB)) := by
  refine ⟨?_, ?_⟩
  · exact ⟨.ld32s h0 2 1 0x4FFC, ld0, _, rfl, nextOf ld0 (by decide +kernel)⟩
  · exact ⟨.st16 h0 2 1 0x4FFE, st0, _, storeBase 0 + 0x4FFE, 2, by decide +kernel, nextOf st0 (by decide +kernel),
      by decide +kernel⟩

/-- Obligations.RegisterCommandsKeepMemory: a state that meets its hypotheses. -/
theorem test_register_commands_keep_memory_hypotheses :
    ∃ (i : Instr) (s t : State), registersOnly i = true ∧ exec i s = .next t :=
  ⟨.frameLenWrite host 32, on, _, rfl, nextOf on (by decide +kernel)⟩

/-- Obligations.ThreadWordsRoundTrip: words that meet the hypotheses of its second and third clause. -/
theorem test_thread_words_round_trip_decodes :
    (∃ (h : Hart) (w : BitVec 32) (i : Instr), decodeThread h w = some i) ∧
    (∃ (h : Hart) (w : BitVec 32) (i : Instr), h.ok = true ∧ decodeThread h w = some i) := by
  refine ⟨?_, ?_⟩
  · exact ⟨h0, 0xFFFF1042, .addi h0 1 2 0xFFFF, rfl⟩
  · exact ⟨⟨27647, 7⟩, 0xFFFF8FF8, .vld ⟨27647, 7⟩ 15 3 0x1FFFF, by decide +kernel, rfl⟩

/-! ### Ill-formed commands -/

/-- Ill-formed commands, each refused. -/
theorem test_ill_formed_1 : ((
    [.sysInfo { cmd with tent := 64 }, .sysEcho { cmd with tent := 64 }, .sysDrainVale { cmd with tent := 64 },
     .sysDrainVeld { cmd with tent := 64 }, .sysResume { cmd with tent := 64 },
     .tentOpen (.cmd { cmd with tent := 64 }), .tentOpen (.reg host 64), .tentOpen (.reg (.host 64 0) 0),
     .tentQuiesce (.cmd { cmd with tent := 64 }), .tentQuiesce (.reg host 64), .tentQuiesce (.reg (.host 64 0) 0),
     .tentClose (.cmd { cmd with tent := 64 }), .tentClose (.reg host 64), .tentClose (.reg (.host 64 0) 0),
     .quiesceDone 64, .tentDales { cmd with tent := 64 }, .tentSites { cmd with tent := 64 },
     .tentWindows { cmd with tent := 64 }, .tentBudget { cmd with tent := 64 }, .wsetLoad { cmd with tent := 64 },
     .wsetPoint { cmd with tent := 64 }, .wsetRelease { cmd with tent := 64 }, .releaseComplete 64 0,
     .releaseComplete 0 2, .imageLoad { cmd with tent := 64 }, .jobDale { cmd with tent := 64 },
     .jobCoder { cmd with tent := 64 }, .jobLaunch { cmd with tent := 64 }, .calExport { cmd with tent := 64 },
     .calImport { cmd with tent := 64 } [], .calRun { cmd with tent := 64 } [], .guyLoop { cmd with tent := 64 },
     .guyCoef { cmd with tent := 64 }, .guyStd { cmd with tent := 64 }, .convInject { cmd with tent := 64 },
     .convTable { cmd with tent := 64 }, .drvCh { cmd with tent := 64 }, .drvXt { cmd with tent := 64 },
     .thermalRelease { cmd with tent := 64 }, .thmRecord { cmd with tent := 64 },
     .pwrBudget { cmd with tent := 64 }, .passOpen { cmd with tent := 64 }, .passClose { cmd with tent := 64 },
     .passExport { cmd with tent := 64 }, .passRoute { cmd with tent := 64 },
     .radioSections { cmd with tent := 64 } 0, .attest { cmd with tent := 64 },
     .keyInstall { cmd with tent := 64 }, .keyRemove { cmd with tent := 64 }, .fwLoad { cmd with tent := 64 },
     .fwSwitch { cmd with tent := 64 }, .cairnIdent { cmd with tent := 64 }, .cairnRecords { cmd with tent := 64 },
     .cairnEvents { cmd with tent := 64 }, .regRead { cmd with tent := 64 }, .regWrite { cmd with tent := 64 },
     .memRead { cmd with tent := 64 }, .memWrite { cmd with tent := 64 }, .alu ⟨27648, 0⟩ 0 0 0 0,
     .alu h0 0 0 0 21, .addi ⟨27648, 0⟩ 0 0 0, .addi ⟨0, 8⟩ 0 0 0, .andi ⟨27648, 0⟩ 0 0 0, .ori ⟨27648, 0⟩ 0 0 0,
     .xori ⟨27648, 0⟩ 0 0 0, .shi ⟨27648, 0⟩ 0 0 0, .shi h0 0 0 192, .slti ⟨27648, 0⟩ 0 0 0, .lih ⟨27648, 0⟩ 0 0 0,
     .lih h0 0 4 0] : List Instr).all fun i => !i.wf) = true := by decide +kernel

/-- Ill-formed commands, each refused. -/
theorem test_ill_formed_2 : ((
    [.addpc ⟨27648, 0⟩ 0 0 0, .ld8s ⟨27648, 0⟩ 0 0 0, .ld8u ⟨27648, 0⟩ 0 0 0, .ld16s ⟨27648, 0⟩ 0 0 0,
     .ld16u ⟨27648, 0⟩ 0 0 0, .ld32s ⟨27648, 0⟩ 0 0 0, .ld32u ⟨27648, 0⟩ 0 0 0, .ld64 ⟨27648, 0⟩ 0 0 0,
     .st8 ⟨27648, 0⟩ 0 0 0, .st16 ⟨27648, 0⟩ 0 0 0, .st32 ⟨27648, 0⟩ 0 0 0, .st64 ⟨27648, 0⟩ 0 0 0,
     .amo ⟨27648, 0⟩ 0 0 0 0, .amo h0 0 0 0 10, .amo h0 0 0 0 128, .fence ⟨27648, 0⟩ 0 0 0 0, .fence h0 1 0 0 0,
     .fence h0 0 1 0 0, .fence h0 0 0 1 0, .fence h0 0 0 0 16, .beq ⟨27648, 0⟩ 0 0 0, .bne ⟨27648, 0⟩ 0 0 0,
     .blt ⟨27648, 0⟩ 0 0 0, .bge ⟨27648, 0⟩ 0 0 0, .bltu ⟨27648, 0⟩ 0 0 0, .bgeu ⟨27648, 0⟩ 0 0 0,
     .jal ⟨27648, 0⟩ 0 0, .jalr ⟨27648, 0⟩ 0 0 0, .gets ⟨27648, 0⟩ 0 0 0, .gets h0 0 1 0, .gets h0 0 0 11,
     .halt ⟨27648, 0⟩, .spawn ⟨27648, 0⟩ 0 0 0 0, .spawn h0 0 0 0 1, .spawnDequeue 27648,
     .waitm ⟨27648, 0⟩ 0 0 0 0, .waitmWake ⟨27648, 0⟩, .waitmPoll ⟨27648, 0⟩, .waitmTimeout ⟨27648, 0⟩,
     .tickw ⟨27648, 0⟩ 0 0 0 0, .tickw h0 0 1 0 0, .tickw h0 0 0 1 0, .tickw h0 0 0 0 2, .denq ⟨27648, 0⟩ 0 0 0 0,
     .denq h0 0 0 0 1, .astep ⟨27648, 0⟩ 0 0 0 0, .astep h0 0 0 0 128, .astepEnd 27648 [],
     .aclose ⟨27648, 0⟩ 0 0 0 0, .aclose h0 0 1 0 0, .aclose h0 0 0 1 0, .aclose h0 0 0 0 4,
     .vi ⟨27648, 0⟩ 0 0 0 0 0, .vi h0 0 0 0 0 15, .vb ⟨27648, 0⟩ 0 0 0 0 0, .vb h0 0 0 0 0 12,
     .vf ⟨27648, 0⟩ 0 0 0 0 0, .vf h0 0 0 0 0 8, .vcmp ⟨27648, 0⟩ 0 0 0 0 0, .vcmp h0 0 0 0 0 8,
     .vcmp h0 8 0 0 0 0, .vred ⟨27648, 0⟩ 0 0 0 0 0, .vred h0 0 0 0 0 5, .vmov ⟨27648, 0⟩ 0 0 0 0,
     .vmov h0 0 0 0 7, .vperm ⟨27648, 0⟩ 0 0 0 0 0, .vperm h0 0 0 0 0 1, .vcvt ⟨27648, 0⟩ 0 0 0 0 0,
     .vcvt h0 0 0 0 0 8, .vld ⟨27648, 0⟩ 0 0 0] : List Instr).all fun i => !i.wf) = true := by decide +kernel

/-- Ill-formed commands, each refused. -/
theorem test_ill_formed_3 : ((
    [.vst ⟨27648, 0⟩ 0 0 0, .vnq ⟨27648, 0⟩ 0 0 0 0 0, .vnq h0 0 0 0 0 6, .vdq ⟨27648, 0⟩ 0 0 0 0 0,
     .vdq h0 0 0 0 0 6, .vu8 ⟨27648, 0⟩ 0 0 0 0 0, .vu8 h0 0 0 0 0 2, .vsc ⟨27648, 0⟩ 0 0 0 0 0, .vsc h0 0 0 0 0 2,
     .vrand ⟨27648, 0⟩ 0 0 0 0 0, .vrand h0 0 1 0 0 0, .vrand h0 0 0 1 0 0, .vrand h0 0 0 0 0 1,
     .memAccessResponse ⟨27648, 0⟩ 0, .threadStop (.host 64 0) 0 0 0, .threadStop (.thread ⟨27648, 0⟩) 0 0 0,
     .threadStop host 36 0 0, .threadStop host 0 800 0, .threadStop host 0 0 8,
     .ticketClear (.host 64 0) 263882791736320 0, .ticketClear host 0xF00000000000 0,
     .frameLenWrite (.host 64 0) 0, .credBudgetWrite (.host 64 0) 0, .groupCfgWrite (.host 64 0) 0 0,
     .groupCfgWrite host 58 0, .daleRowmapWrite (.host 64 0) 0 0 0, .daleRowmapWrite host 12 0 0,
     .daleRowmapWrite host 0 12 0, .parkColWrite (.host 64 0) 0 0 0, .parkColWrite host 12 0 0,
     .parkColWrite host 0 12 0, .daleSideAdd (.host 64 0) 0 0 0, .daleSideAdd host 12 0 0,
     .daleSideAdd host 0 12 0, .valeBankOwnerWrite (.host 64 0) 0 0 0, .valeBankOwnerWrite host 12 0 0,
     .valeBankOwnerWrite host 0 16 0, .veldImgBaseWrite (.host 64 0) 0 0, .veldImgBaseWrite host 36 0,
     .actxCreate (.host 64 0) 0 0 0 0, .actxCreate host 36 0 0 0, .actxCreate host 0 800 0 0,
     .actxCreate host 0 0 4 0, .coreRseedLoad (.host 64 0) 0 0 0, .coreRseedLoad host 36 0 0,
     .coreRseedLoad host 0 800 0, .guySeedLoad (.host 64 0) 0 0, .guySeedLoad host 12 0,
     .tableGo (.host 64 0) 0 0 0, .tableGo host 12 0 0, .tableGo host 0 71 0, .tableHalt (.host 64 0) 0 0 0,
     .tableHalt host 12 0 0, .tableHalt host 0 71 0, .trackerClear (.host 64 0) 0 0 0, .trackerClear host 12 0 0,
     .trackerClear host 0 71 0, .hkTrackerClear (.host 64 0) 0 0, .hkTrackerClear host 4 0,
     .injectRequest (.host 64 0) 0 0 0, .injectRequest host 12 0 0, .injectRequest host 0 71 0,
     .convSeqWrite (.host 64 0) 0 0 0 0, .convSeqWrite host 12 0 0 0, .convSeqWrite host 0 71 0 0,
     .convSeqWrite host 0 0 64 0, .convTrigWrite (.host 64 0) 0 1 0, .convTrigWrite host 12 1 0,
     .convTrigWrite host 0 8 0, .convTrigWrite host 0 0 0] : List Instr).all fun i => !i.wf) = true := by decide +kernel

/-- Ill-formed commands, each refused. -/
theorem test_ill_formed_4 : ((
    [.hkSeqWrite (.host 64 0) 0 0, .hkSeqWrite host 256 0, .drvChWrite (.host 64 0) 0 0 0, .drvChWrite host 12 0 0,
     .drvChWrite host 0 1920 0, .rangeHoldRelease 12 0, .rangeHoldRelease 0 1920, .deglitchRelease 12 0,
     .deglitchRelease 0 1920, .drvPairWrite (.host 64 0) 0 0, .drvPairWrite host 12 0,
     .toneCtlWrite (.host 64 0) 0 0 0, .toneCtlWrite host 12 0 0, .toneCtlWrite host 0 16 0,
     .guyLoopWrite (.host 64 0) 0 0 [], .guyLoopWrite host 12 0 [], .guyLoopWrite host 0 2048 [],
     .guyCoefWrite (.host 64 0) 0 0 0 [], .guyCoefWrite host 12 0 0 [], .guyCoefWrite host 0 2048 0 [],
     .guyCoefWrite host 0 0 2 [], .testGo (.host 64 0) 0 0, .testGo host 12 0, .testStop (.host 64 0) 0 0,
     .testStop host 12 0, .testEnd 12, .captureGo (.host 64 0) 0 0, .captureGo host 12 0,
     .captureStop (.host 64 0) 0 0, .captureStop host 12 0, .tentDaleWrite (.host 64 0) 0 0,
     .tentDaleWrite host 144 0, .daleOwnerChange 144, .tentSiteWrite (.host 64 0) 0 0, .tentSiteWrite host 27648 0,
     .siteOwnerChange 27648, .wsetActiveWrite (.host 64 0) 0 0, .wsetActiveWrite host 64 0,
     .fhCfgWrite (.host 64 0) 0, .fhOffsetWrite (.host 64 0) 0, .fhEaxcWrite (.host 64 0) 0 0 0,
     .fhEaxcWrite host 4096 0 0, .fhWinWrite (.host 64 0) 0, .fhSfnSet (.host 64 0) 0, .decSubmit (.host 64 0) 0 0,
     .decSubmit host 64 0, .decHarqCfgWrite (.host 64 0) 0 0 0, .decHarqCfgWrite host 64 0 0,
     .decHarqClr (.host 64 0) 0, .sysMsgPost (.host 64 0) 0 0, .sysMsgPost host 64 0,
     .moduleIdWrite (.host 64 0) 0, .boostEnWrite (.host 64 0) 0, .passRouteWrite (.host 64 0) 0 0,
     .passRouteWrite host 65536 0, .passExportWrite (.host 64 0) 0 0 0, .passExportWrite host 64 0 0,
     .lantSecWrite (.host 64 0) 0, .registerWrite (.host 64 0) 0xF00000000000 [],
     .registerWrite host 0xEFFFFFFFFFFF [], .registerWrite host 0xF00100000000 [], .gateFrameChange (.dale 144),
     .gateFrameChange (.array 27648), .gateFrameChange (.core 27648), .gateFrameChange (.quad 4),
     .gateFrameChange (.pass 8), .gateFrameChange (.cal 48), .waitLimitExpire (.dale 0) 64,
     .waitLimitExpire (.dale 144) 0, .leaseRequest (.dale 0) 64 0] : List Instr).all fun i => !i.wf) = true := by decide +kernel

/-- Ill-formed commands, each refused. -/
theorem test_ill_formed_5 : ((
    [.leaseRequest (.dale 144) 0 0, .creditRequest (.dale 144), .creditRequest (.reading 36),
     .creditRequest (.program 36 0), .creditRequest (.program 0 800), .creditRequest (.quarter 4),
     .creditRequest (.booster 12), .rampRefill 58 0, .creditRelease (.dale 144), .channelFault 4 0 0 [],
     .channelFault 0 0 0 [(1, 36)], .channelFault 4 0 0 [], .jobStart 12 0, .jobStart 0 12, .lockWaitExpire 12 0,
     .lockWaitExpire 0 12, .reloadStaged 12 0, .reloadStaged 0 12, .loadStrobe 12 0, .loadStrobe 0 12,
     .heaterSettled 12 0, .heaterSettled 0 12, .columnStrobe 12 0, .columnStrobe 0 12, .holdCellRefresh 12 0 0,
     .holdCellRefresh 0 12 0, .holdCellRefresh 0 0 132, .batchStart 12 0 0 [], .batchStart 0 12 0 [],
     .batchEnd 12 0 [], .batchEnd 0 12 [], .jobComplete 12 0, .jobComplete 0 12, .tagDecode 12 0 0,
     .tagDecode 0 16 0, .batchReissue 12 0, .batchReissue 0 12, .tagLossTimeout 12 0, .tagLossTimeout 0 16,
     .rotationStep 12 0 ⟨[], [], 0, [], ⟨0, 0, 0⟩, ⟨0, 0, 0⟩, 0, 0⟩,
     .rotationStep 0 12 ⟨[], [], 0, [], ⟨0, 0, 0⟩, ⟨0, 0, 0⟩, 0, 0⟩, .selectorCal 12 0 0 0 0 0,
     .selectorCal 0 16 0 0 0 0, .triggerTick 12 1, .triggerTick 0 8, .triggerTick 0 0, .entryStart 12 0,
     .entryStart 0 71, .entryOutput 12 0 [] [], .entryOutput 0 71 [] [], .injectionRun 12 0 0, .injectionRun 0 71 0,
     .calConvStart 12 0 0 true, .calConvStart 0 71 0 true, .adcRotationStep 12, .loopTick 12 0, .loopTick 0 2048,
     .lineStepExpire 12 0, .lineStepExpire 0 16, .acqFail 12 0, .acqFail 0 2048, .programGrain 36 0 [],
     .programGrain 0 800 [], .writeWindowTimeout 36 0, .writeWindowTimeout 0 800, .programmingDone 36 0 [],
     .programmingDone 0 800 [], .siteCheck 36 0 [] {}, .refreshStart 36, .migration 36] : List Instr).all fun i => !i.wf) = true := by decide +kernel

/-- Ill-formed commands, each refused. -/
theorem test_ill_formed_6 : ((
    [.oldSiteRewritten 36 [], .shardArrival 64 0 0, .shardArrival 0 2 0, .shardTimeout 64 0 0, .shardTimeout 0 2 0,
     .bcastWaitExpire 64 0 0, .bcastWaitExpire 0 2 0, .fingerprintVerify 64 0 [], .fingerprintVerify 0 2 [],
     .uplaneReceive 8 [] 0, .dlUplaneSend 0 14, .ptpMessage 8 [] 0, .delayMeasurement 8 [] 0 0,
     .codeBlockStart 64 0, .hostReadRequest 64 0 0 0, .hostReadRequest 0 2 0 0,
     .sinkFrameReceive 256 (frameTo 0 0), .sinkDarkTimeout 256, .sinkWaitExpire 256, .sourceLocked 128,
     .tagFrameSend 128, .stageFault 48 1, .stageFault 0 0, .stageFault 0 4, .drainWaitExpire 0 12,
     .drainWaitExpire 1 36, .drainWaitExpire 2 0, .imageCheckRetry 36, .illegalInstruction ⟨27648, 0⟩ 0,
     .unassignedOpcode 0 { cmd with tent := 64 }, .injectedOutput 12 0 [] [], .injectedOutput 0 71 [] [],
     .calibrationConversionEnd 12 0 [], .calibrationConversionEnd 0 71 [], .codewordReceive 256 none 0,
     .headerHunt 256] : List Instr).all fun i => !i.wf) = true := by decide +kernel

/-- The same commands with every operand in range. -/
theorem test_well_formed_1 : ((
    [.sysInfo cmd, .sysEcho cmd, .sysDrainVale cmd, .sysDrainVeld cmd, .sysResume cmd, .tentOpen (.cmd cmd),
     .tentQuiesce (.cmd cmd), .tentClose (.cmd cmd), .quiesceDone 0, .tentDales cmd, .tentSites cmd,
     .tentWindows cmd, .tentBudget cmd, .wsetLoad cmd, .wsetPoint cmd, .wsetRelease cmd, .releaseComplete 0 0,
     .imageLoad cmd, .jobDale cmd, .jobCoder cmd, .jobLaunch cmd, .calExport cmd, .calImport cmd [],
     .calRun cmd [], .guyLoop cmd, .guyCoef cmd, .guyStd cmd, .convInject cmd, .convTable cmd, .drvCh cmd,
     .drvXt cmd, .thermalRelease cmd, .thmRecord cmd, .pwrBudget cmd, .passOpen cmd, .passClose cmd,
     .passExport cmd, .passRoute cmd, .radioSections cmd 0, .attest cmd, .keyInstall cmd, .keyRemove cmd,
     .fwLoad cmd, .fwSwitch cmd, .fwTrialEnd, .cairnIdent cmd, .cairnRecords cmd, .cairnEvents cmd, .regRead cmd,
     .regWrite cmd, .memRead cmd, .memWrite cmd, .alu h0 0 0 0 0, .addi h0 0 0 0, .andi h0 0 0 0, .ori h0 0 0 0,
     .xori h0 0 0 0, .shi h0 0 0 0, .slti h0 0 0 0, .lih h0 0 0 0, .addpc h0 0 0 0, .ld8s h0 0 0 0, .ld8u h0 0 0 0,
     .ld16s h0 0 0 0, .ld16u h0 0 0 0, .ld32s h0 0 0 0, .ld32u h0 0 0 0, .ld64 h0 0 0 0, .st8 h0 0 0 0,
     .st16 h0 0 0 0, .st32 h0 0 0 0, .st64 h0 0 0 0, .amo h0 0 0 0 0, .fence h0 0 0 0 0, .beq h0 0 0 0,
     .bne h0 0 0 0, .blt h0 0 0 0, .bge h0 0 0 0, .bltu h0 0 0 0, .bgeu h0 0 0 0, .jal h0 0 0, .jalr h0 0 0 0,
     .gets h0 0 0 0, .halt h0, .spawn h0 0 0 0 0, .spawnDequeue 0, .waitm h0 0 0 0 0, .waitmWake h0, .waitmPoll h0,
     .waitmTimeout h0, .tickw h0 0 0 0 0, .denq h0 0 0 0 0, .astep h0 0 0 0 0, .astepEnd 0 [], .aclose h0 0 0 0 0,
     .vi h0 0 0 0 0 0, .vb h0 0 0 0 0 0, .vf h0 0 0 0 0 0, .vcmp h0 0 0 0 0 0, .vred h0 0 0 0 0 0] : List Instr).all fun i => i.wf) = true := by decide +kernel

/-- The same commands with every operand in range. -/
theorem test_well_formed_2 : ((
    [.vmov h0 0 0 0 0, .vperm h0 0 0 0 0 0, .vcvt h0 0 0 0 0 0, .vld h0 0 0 0, .vst h0 0 0 0, .vnq h0 0 0 0 0 0,
     .vdq h0 0 0 0 0 0, .vu8 h0 0 0 0 0 0, .vsc h0 0 0 0 0 0, .vrand h0 0 0 0 0 0, .memAccessResponse h0 0,
     .threadStop host 0 0 0, .ticketClear host 263882791736320 0, .frameLenWrite host 0, .credBudgetWrite host 0,
     .groupCfgWrite host 0 0, .daleRowmapWrite host 0 0 0, .parkColWrite host 0 0 0, .daleSideAdd host 0 0 0,
     .valeBankOwnerWrite host 0 0 0, .veldImgBaseWrite host 0 0, .actxCreate host 0 0 0 0,
     .coreRseedLoad host 0 0 0, .guySeedLoad host 0 0, .tableGo host 0 0 0, .tableHalt host 0 0 0,
     .trackerClear host 0 0 0, .hkTrackerClear host 0 0, .injectRequest host 0 0 0, .convSeqWrite host 0 0 0 0,
     .convTrigWrite host 0 1 0, .hkSeqWrite host 0 0, .drvChWrite host 0 0 0, .rangeHoldRelease 0 0,
     .deglitchRelease 0 0, .drvPairWrite host 0 0, .toneCtlWrite host 0 0 0, .guyLoopWrite host 0 0 [],
     .guyCoefWrite host 0 0 0 [], .testGo host 0 0, .testStop host 0 0, .testEnd 0, .captureGo host 0 0,
     .captureStop host 0 0, .tentDaleWrite host 0 0, .daleOwnerChange 0, .tentSiteWrite host 0 0,
     .siteOwnerChange 0, .wsetActiveWrite host 0 0, .fhCfgWrite host 0, .fhOffsetWrite host 0,
     .fhEaxcWrite host 0 0 0, .fhWinWrite host 0, .fhSfnSet host 0, .decSubmit host 0 0,
     .decHarqCfgWrite host 0 0 0, .decHarqClr host 0, .sysMsgPost host 0 0, .moduleIdWrite host 0,
     .boostEnWrite host 0, .passRouteWrite host 0 0, .passExportWrite host 0 0 0, .lantSecWrite host 0,
     .registerWrite host 0xF00000000000 [], .slotTick 0, .freeRunningTick, .frameBoundary,
     .gateFrameChange (.dale 0), .waitLimitExpire (.dale 0) 0, .leaseRequest (.dale 0) 0 0,
     .creditRequest (.dale 0), .creditGrant, .rampRefill 0 0, .creditRelease (.dale 0), .channelFault 0 0 0 [],
     .jobStart 0 0, .lockWaitExpire 0 0, .reloadStaged 0 0, .loadStrobe 0 0, .heaterSettled 0 0, .columnStrobe 0 0,
     .holdCellRefresh 0 0 0, .batchStart 0 0 0 [], .batchEnd 0 0 [], .jobComplete 0 0, .tagDecode 0 0 0,
     .batchReissue 0 0, .tagLossTimeout 0 0, .rotationStep 0 0 ⟨[], [], 0, [], ⟨0, 0, 0⟩, ⟨0, 0, 0⟩, 0, 0⟩,
     .selectorCal 0 0 0 0 0 0, .triggerTick 0 1, .entryStart 0 0, .entryOutput 0 0 [] [], .injectionRun 0 0 0,
     .calConvStart 0 0 0 true, .adcRotationStep 0, .hkRound [], .coolantComparator true, .loopTick 0 0,
     .lineStepExpire 0 0] : List Instr).all fun i => i.wf) = true := by decide +kernel

/-- The same commands with every operand in range. -/
theorem test_well_formed_3 : ((
    [.acqFail 0 0, .programGrain 0 0 [], .writeWindowTimeout 0 0, .programmingDone 0 0 [], .siteCheck 0 0 [] {},
     .refreshStart 0, .migration 0, .oldSiteRewritten 0 [], .shardArrival 0 0 0, .shardTimeout 0 0 0,
     .bcastWaitExpire 0 0 0, .fingerprintVerify 0 0 [], .uplaneReceive 0 [] 0, .cplaneSend 0 true,
     .dlUplaneSend 0 0, .ptpMessage 0 [] 0, .delayMeasurement 0 [] 0 0, .syncLocked, .syncLossTimeout,
     .syncSourceReturn, .ppsEdge 0, .codeBlockStart 0 0, .codeBlockEnd 0 0, .coderComplete 0, .flitReceive [],
     .retryRepeat, .idleAck, .replayTimeout, .retrain, .linkDown, .linkUp [], .hostReadRequest 0 0 0 0,
     .hostReadResponse 0 true [], .hostReadTimeout 0, .messageSend, .watchdogRestart,
     .sinkFrameReceive 0 (frameTo 0 0), .sinkDarkTimeout 0, .sinkWaitExpire 0, .sourceLocked 0, .tagFrameSend 0,
     .remoteTimeout 0, .wakeRequest true true, .wakeWithdrawn, .wakeShutdown, .stageFault 0 1, .stageFaultWaitEnd,
     .inputUndervoltage true, .inputOvervoltage true, .lanternPowerUp true, .lanternPowerLoss, .importWaitExpire,
     .firstFullPass [] 0 [] [], .enterService [], .drainWaitExpire 0 0, .imageCheckRetry 0, .storeUpdate,
     .activityFrame quiet true, .intervalClose quiet, .cairnInputLoss quiet, .cairnInputReturn quiet,
     .sealOpened quiet 0, .selfTest quiet true [], .overloadBegin quiet 0, .overloadEnd quiet 0,
     .activityLinkLost quiet, .activityLinkRestored quiet, .metrologyPulse quiet, .sidebandRequest 0, .bypass [],
     .idcode [], .samplePreload [] [], .extest [] [], .clamp [], .highz [], .illegalInstruction h0 0,
     .unassignedOpcode 0 cmd, .injectedOutput 0 0 [] [], .calibrationConversionEnd 0 0 [], .sampleClockCycle,
     .codewordReceive 0 none 0, .headerHunt 0, .lanternOnBackup] : List Instr).all fun i => i.wf) = true := by decide +kernel

/-! ### Words of thread instructions -/

/-- Words put together from the formats of R322 and the codes of R324. -/
theorem test_words_1 (h : Hart) :
    decodeThread h 0x02900FC1 = some (.alu h 31 1 16 20) ∧
    decodeThread h 0x80010F82 = some (.addi h 30 1 32769) ∧
    decodeThread h 0x80021743 = some (.andi h 29 2 32770) ∧
    decodeThread h 0x80031F04 = some (.ori h 28 3 32771) ∧
    decodeThread h 0x800426C5 = some (.xori h 27 4 32772) ∧
    decodeThread h 0x00BF8046 = some (.shi h 1 16 191) ∧
    decodeThread h 0xFFFF1047 = some (.slti h 1 2 65535) ∧
    decodeThread h 0x01F41948 = some (.lih h 5 3 500) ∧
    decodeThread h 0xFFFC0109 = some (.addpc h 4 0 65532) ∧
    decodeThread h 0xFFFF4410 = some (.ld8s h 16 8 65535) ∧
    decodeThread h 0xFFF74451 = some (.ld8u h 17 8 65527) ∧
    decodeThread h 0xFFEF4492 = some (.ld16s h 18 8 65519) ∧
    decodeThread h 0xFFE744D3 = some (.ld16u h 19 8 65511) ∧
    decodeThread h 0xFFDF4514 = some (.ld32s h 20 8 65503) ∧
    decodeThread h 0xFFD74555 = some (.ld32u h 21 8 65495) ∧
    decodeThread h 0xFFCF4596 = some (.ld64 h 22 8 65487) ∧
    decodeThread h 0x7FF08898 = some (.st8 h 2 17 32752) ∧
    decodeThread h 0x7FF188D9 = some (.st16 h 3 17 32753) :=
  ⟨rfl, rfl, rfl, rfl, rfl, rfl, rfl, rfl, rfl, rfl, rfl, rfl, rfl, rfl, rfl, rfl, rfl, rfl⟩

/-- Words put together from the formats of R322 and the codes of R324. -/
theorem test_words_2 (h : Hart) :
    decodeThread h 0x7FF2891A = some (.st32 h 4 17 32754) ∧
    decodeThread h 0x7FF3895B = some (.st64 h 5 17 32755) ∧
    decodeThread h 0x0F2B525C = some (.amo h 9 10 11 121) ∧
    decodeThread h 0x01E0001D = some (.fence h 0 0 0 15) ∧
    decodeThread h 0xFFFFF860 = some (.beq h 1 31 65535) ∧
    decodeThread h 0xFFFEF0A1 = some (.bne h 2 30 65534) ∧
    decodeThread h 0xFFFDE8E2 = some (.blt h 3 29 65533) ∧
    decodeThread h 0xFFFCE123 = some (.bge h 4 28 65532) ∧
    decodeThread h 0xFFFBD964 = some (.bltu h 5 27 65531) ∧
    decodeThread h 0xFFFAD1A5 = some (.bgeu h 6 26 65530) ∧
    decodeThread h 0xFFFFF066 = some (.jal h 1 2097150) ∧
    decodeThread h 0x00040827 = some (.jalr h 0 1 4) ∧
    decodeThread h 0x000A01E8 = some (.gets h 7 0 10) ∧
    decodeThread h 0x00000029 = some (.halt h) ∧
    decodeThread h 0x000520EA = some (.spawn h 3 4 5 0) ∧
    decodeThread h 0x000520EB = some (.waitm h 3 4 5 0) ∧
    decodeThread h 0x002001AC = some (.tickw h 6 0 0 1) ∧
    decodeThread h 0x000839AD = some (.denq h 6 7 8 0) :=
  ⟨rfl, rfl, rfl, rfl, rfl, rfl, rfl, rfl, rfl, rfl, rfl, rfl, rfl, rfl, rfl, rfl, rfl, rfl⟩

/-- Words put together from the formats of R322 and the codes of R324. -/
theorem test_words_3 (h : Hart) :
    decodeThread h 0x0F2029AE = some (.astep h 6 5 0 121) ∧
    decodeThread h 0x0060006F = some (.aclose h 1 0 0 3) ∧
    decodeThread h 0x01D63C70 = some (.vi h 1 15 8 5 14) ∧
    decodeThread h 0x017638B1 = some (.vb h 2 14 8 5 11) ∧
    decodeThread h 0x00F634F2 = some (.vf h 3 13 8 5 7) ∧
    decodeThread h 0x00F63133 = some (.vcmp h 4 12 8 5 7) ∧
    decodeThread h 0x00962D74 = some (.vred h 5 11 8 5 4) ∧
    decodeThread h 0x00C34675 = some (.vmov h 9 17 6 6) ∧
    decodeThread h 0x0000C876 = some (.vperm h 1 2 3 0 0) ∧
    decodeThread h 0x00FD9537 = some (.vcvt h 4 5 6 7 7) ∧
    decodeThread h 0xFFFFFFF8 = some (.vld h 15 31 131071) ∧
    decodeThread h 0x7FFF88F9 = some (.vst h 3 2 65535) ∧
    decodeThread h 0x00A1087A = some (.vnq h 1 2 4 0 5) ∧
    decodeThread h 0x008210FB = some (.vdq h 3 4 8 0 4) ∧
    decodeThread h 0x0021D97C = some (.vu8 h 5 6 7 0 1) ∧
    decodeThread h 0x0022A63D = some (.vsc h 8 9 10 0 1) ∧
    decodeThread h 0x001C03FE = some (.vrand h 15 0 0 7 0) :=
  ⟨rfl, rfl, rfl, rfl, rfl, rfl, rfl, rfl, rfl, rfl, rfl, rfl, rfl, rfl, rfl, rfl, rfl⟩

/-- Illegal words (R323): all zeros, codes the tables do not assign, and reserved fields that are not zero. -/
theorem test_illegal_words : ([0x00000000, 0x02A00001, 0x0000000A, 0x00000017, 0x0000001E, 0x0000003F, 0xC0000006, 0x00002008,
    0x02000 * 0x10000 + 0x1D, 0x00000069, 0x0020002A, 0x00400028 + 0x800, 0x00000233, 0x00040035] : List (BitVec 32)).all
    (fun w => (decodeThread h0 w).isNone) = true := by decide +kernel

/-! ### Worked examples of spec/ -/

/-- File 01, "three addresses": the GUY_ block of Vale 7 and the store of logical site 1,000, on Veld 1. -/
theorem test_three_addresses : regAt 0xF00017C00000 = some ⟨.guyCfg, [7], 0⟩ ∧ storeBase 1000 = 0x800001F40000 ∧
    (⟨1000, 0⟩ : Hart).veld = 1 := by decide +kernel

/-- File 02, "a clear that loses the race": ticket 3 at count 4 changes nothing. -/
theorem test_clear_loses : (afterOf (exec (.ticketClear host (0xF00000105400 + 8 * 5) 0x80000003)
    (on [reg .budEvWait [5] 0x104])) on).chip.get ⟨.budEvWait, [5], 0⟩ = 0x104 := by decide +kernel

/-- The same example: ticket 4 clears the flag and the count. -/
theorem test_clear_wins : (afterOf (exec (.ticketClear host (0xF00000105400 + 8 * 5) 0x80000004)
    (on [reg .budEvWait [5] 0x104])) on).chip.get ⟨.budEvWait, [5], 0⟩ = 0 := by decide +kernel

/-- File 03, "one row to A4": the scale is 1.96875 × 2^-4, SC16 0x7BF8. -/
theorem test_row_scale : (requantiseRow
    ⟨[1200, -350, 77, 0, -1410, 512, 96, -8], { num := 5, exp := -13 }, { num := 15, den := 36 }, 4, [], false⟩
    ⟨1, none⟩).1.scale = 0x7BF8 := by decide +kernel

/-- The same example: the drawn codes pack into 0xE6, 0x00, 0x39, 0x00. -/
theorem test_row_packs : Fmt.a4.pack [6, -2, 0, 0, -7, 3, 0, 0] = [0xE6, 0x00, 0x39, 0x00] := by decide +kernel

def zeros (n : Nat) : List Byte := List.replicate n 0

/-- File 04, "an A4 dot product on one column": 291 with one LSB of noise on plane 2. -/
theorem test_dot_product : ((accumulateRow { tile0 with bytes := [12] ++ zeros 63 ++ [0x2C] ++ zeros 63 ++ [25] }
    { Desc.ofWords job0.desc with inFmt := some .a4, nIn := 3, nOut := 1 } [12] [[5, -3, 7]] [0, 0, -65536, 0]).1.map
    fun a => (a.ai, a.m)) = [(291, 826)] := by
  decide +kernel

/-- File 09, "one cell accepted, one refused": element 984 of Dale 4 of Vale 2. -/
theorem test_element_addresses : regAt 0xF00012F69EC0 = some ⟨.calMap, [2, 4, 984, 0], 0⟩ ∧
    regAt 0xF00012F69EC4 = some ⟨.calMap, [2, 4, 984, 1], 0⟩ := by decide +kernel

/-- File 17, "one site, one vector": 400,000 / 127 rounds up to SC16 0x8A8A. -/
theorem test_fingerprint_scale : sc16Ceil { num := 400000, den := 127 } = 0x8A8A := by decide +kernel

/-- File 02, R45: a MEM_READ of Tent 1 that has met one boundary more than its limit of 1 ends BUDGET_WAIT_LIMIT. -/
def memWaits : State := onWith [reg .budWaitLimit [1] 1] fun c => { c with
  passes := { serves := [{ who := .cmd 0x0E03 { cmd 0x1000 [0x1000, 8] with tent := 1 }, addr := 0x1000, len := 8,
                           tent := 1, met := 2 }] }
  bud := { c.bud with waiting := [{ gate := .quad 0, tent := 1, qty := 8, credit := false, met := 2 }] } }

theorem test_mem_wait_limit : let t := (afterOf (exec (.waitLimitExpire (.quad 0) 1) memWaits) on).chip
    (t.passes.serves, t.bud.waiting, t.get ⟨.budEvWait, [1], 0⟩,
      t.outs.map fun o => match o with
        | .reply r => r.status
        | _ => 0) = ([], [], 0x101, [Status.budgetWaitLimit]) := by decide +kernel

end Sys2Proof.Tests
end

section
/-!
Handshakes and budgets (file 02 of spec/): what the current arbiter's search, the budget, the pitches of a frame and the
event flags do, and the statements O11, O12, O13 and O15 settled from it.
-/

namespace Sys2Proof.Machine

/-! ### The arbiter's search (R53) -/

/-- The search goes on behind requests that do not fit and may still be passed. -/
theorem firstFit_append_of_passable (fits : CreditReq → Bool) (pre rest : List CreditReq)
    (h : ∀ x, x ∈ pre → fits x = false ∧ x.passed < 8) : firstFit fits (pre ++ rest) = firstFit fits rest := by
  induction pre with
  | nil => rfl
  | cons x xs ih =>
    obtain ⟨⟨hx, hlt⟩, hxs⟩ := List.forall_mem_cons.mp h
    simpa [firstFit, hx, Nat.not_le.mpr hlt] using ih hxs

theorem firstFit_of_none_fits (fits : CreditReq → Bool) (l : List CreditReq)
    (h : ∀ x, x ∈ l → fits x = false) : firstFit fits l = none := by
  induction l with
  | nil => rfl
  | cons x xs ih =>
    obtain ⟨hx, hxs⟩ := List.forall_mem_cons.mp h
    simp [firstFit, hx, ih hxs]

/-- A request passed 8 times that does not fit ends the search, whatever stands behind it. -/
theorem firstFit_of_stopped (fits : CreditReq → Bool) (pre post : List CreditReq) (r : CreditReq)
    (hpre : ∀ x, x ∈ pre → fits x = false) (hr : fits r = false) (hp : 8 ≤ r.passed) :
    firstFit fits (pre ++ r :: post) = none := by
  induction pre with
  | nil => simp [firstFit, hr, hp]
  | cons x xs ih =>
    obtain ⟨hx, hxs⟩ := List.forall_mem_cons.mp hpre
    simp [firstFit, hx, ih hxs]

/-- The granted request leaves the list, and those before it have been passed once more. -/
theorem passOver_append (r : CreditReq) (pre post : List CreditReq) (h : r ∉ pre) :
    passOver r (pre ++ r :: post) = pre.map (fun x => { x with passed := x.passed + 1 }) ++ post := by
  induction pre with
  | nil => simp [passOver]
  | cons x xs ih =>
    obtain ⟨hx, hxs⟩ := not_or.mp (List.mem_cons.not.mp h)
    simp [passOver, Ne.symm hx, ih hxs]

/-! ### Requests and grants (R50, R52) -/

theorem Chip.askCredits_requests (c : Chip) (a : Asker) (hg : c.neverGranted (askerGroup a) (askerStep a) = false)
    (hnew : ∀ r, r ∈ c.bud.requests → r.who ≠ a) :
    (c.askCredits a).bud.requests = c.bud.requests ++ [⟨a, askerGroup a, askerStep a, 0⟩] := by
  have hany : c.bud.requests.any (fun r => r.who == a) = false := by simpa using hnew
  simp [Chip.askCredits, hg, hany]

theorem exec_creditRequest (a : Asker) (s : State) (h : askerExists a = true) :
    exec (.creditRequest a) s = .next { s with chip := s.chip.askCredits a } := by
  change execCreditRequest a s = _
  simp [execCreditRequest, onUnits, onChip, h]

theorem exec_creditGrant (s : State) : exec .creditGrant s = .next { s with chip := s.chip.creditGrant } := rfl

theorem Chip.creditGrant_of_none (c : Chip) (h : firstFit c.fits c.bud.requests = none) : c.creditGrant = c := by
  simp [Chip.creditGrant, h]

theorem Chip.creditGrant_of_some (c : Chip) (r : CreditReq) (h : firstFit c.fits c.bud.requests = some r) :
    c.creditGrant =
      (((({ c with bud := { c.bud with requests := passOver r c.bud.requests } } : Chip).addCredits r.group
        r.step).grantForecast r.group r.step).answerCredits r.who Status.ok).granted1 r.who := by
  simp [Chip.creditGrant, h]

theorem exec_creditGrant_of_none (s : State) (h : firstFit s.chip.fits s.chip.bud.requests = none) :
    exec .creditGrant s = .next s := by
  rw [exec_creditGrant, Chip.creditGrant_of_none _ h]

/-- Settles O11: the search of the arbiter, case by case of where it ends. -/
theorem arbiterServesInOrder : Obligations.ArbiterServesInOrder := by
  unfold Obligations.ArbiterServesInOrder
  refine ⟨?joins, ?grants, ?stops, ?nothingFits⟩
  case joins =>
    intro a s ha hg hnew
    exact ⟨_, exec_creditRequest a s ha, s.chip.askCredits_requests a hg hnew⟩
  case grants =>
    intro s pre r post hl hpre hr
    have hfirst : firstFit s.chip.fits s.chip.bud.requests = some r := by
      rw [hl, firstFit_append_of_passable _ _ _ hpre]
      simp [firstFit, hr]
    have hr_pre : r ∉ pre := fun hmem => by simp [(hpre r hmem).1] at hr
    refine ⟨_, rfl, ?_⟩
    rw [exec_creditGrant, Chip.creditGrant_of_some _ _ hfirst, hl, passOver_append _ _ _ hr_pre]
  case stops =>
    intro s pre r post hl hpre hr hp
    exact exec_creditGrant_of_none s (hl ▸ firstFit_of_stopped _ _ _ _ hpre hr hp)
  case nothingFits =>
    intro s h
    exact exec_creditGrant_of_none s (firstFit_of_none_fits _ _ h)

/-! ### The budget (R49, R50) -/

theorem Chip.setBudget_of_admitted (c : Chip) (n : Nat) (hlo : 400 ≤ n) (hhi : n ≤ 1500) (hfl : c.floorsAll ≤ n) :
    c.setBudget n = (Status.ok, c.setF Fld.budCredBudget_budget [] n) := by
  have h : ¬ (n < 400 ∨ 1500 < n ∨ n < c.floorsAll) := by omega
  simp only [Chip.setBudget, h, if_false]

theorem Chip.grantedAll_congr {c d : Chip} (h : ∀ g, d.granted g = c.granted g) : d.grantedAll = c.grantedAll := by
  simp only [Chip.grantedAll, funext h]

/-- The budget lies in a register of its own. -/
theorem Chip.grantedAll_setBudgetField (c : Chip) (n : Nat) :
    (c.setF Fld.budCredBudget_budget [] n).grantedAll = c.grantedAll :=
  Chip.grantedAll_congr fun _ => Chip.f_setF_other _ _ _ _ _ _ (by decide) (by decide)
    (.inl fun h => RegName.noConfusion (congrArg Reg.name h))

@[simp] theorem Chip.wReply_grantedAll (c : Chip) (w : Writer) (st n : Nat) :
    (c.wReply w st n).grantedAll = c.grantedAll :=
  Chip.grantedAll_congr fun _ => Chip.wReply_f ..

theorem exec_credBudgetWrite (w : Writer) (x : Word) (s : State) (d : Chip)
    (h : RegAdmits s.chip w { name := .budCredBudget } x)
    (hset : s.chip.setBudget (bitsOf x.toNat 10 0) = (Status.ok, d)) :
    exec (.credBudgetWrite w x) s = .next { s with chip := d.wReply w Status.ok 1 } := by
  change execCredBudgetWrite w x s = _
  rw [execCredBudgetWrite, reg_runs h, hset]
  rfl

/-- A step asks for room below the budget, and there is none. -/
theorem Chip.fits_of_budget_spent (c : Chip) (r : CreditReq)
    (h : c.f Fld.budCredBudget_budget ≤ c.grantedAll) (hr : 0 < r.step) : c.fits r = false := by
  have hover : ¬ c.grantedAll + r.step ≤ c.f Fld.budCredBudget_budget := by omega
  simp [Chip.fits, hover]

/-- Settles O12: the budget field is not a group's account, and every step is at least one credit. -/
theorem loweredBudgetStopsGrants : Obligations.LoweredBudgetStopsGrants := by
  unfold Obligations.LoweredBudgetStopsGrants
  refine ⟨?keeps, ?stops⟩
  case keeps =>
    intro w x s n hadm hn hlo hhi hfl _
    have hset : s.chip.setBudget (bitsOf x.toNat 10 0) = (Status.ok, s.chip.setF Fld.budCredBudget_budget [] n) := by
      rw [← hn, Chip.setBudget_of_admitted _ _ hlo hhi hfl]
    refine ⟨_, exec_credBudgetWrite w x s _ hadm hset, ?_, ?_⟩
    · rw [Chip.wReply_f, Chip.f_setF_same _ _ _ _ (by decide) (by decide)]
      exact Nat.mod_eq_of_lt (show n < 2 ^ 11 by omega)
    · rw [Chip.wReply_grantedAll, Chip.grantedAll_setBudgetField]
  case stops =>
    intro s hspent hstep
    exact exec_creditGrant_of_none s
      (firstFit_of_none_fits _ _ fun r hr => s.chip.fits_of_budget_spent r hspent (hstep r hr))

/-! ### Pitches and the allowance of a frame (R40, R41) -/

/-- A table made entry by entry from another: the entries of key `r` become those of key `k`, and no other does. -/
theorem Tab.get_filterMap {κ κ' α β : Type} [DecidableEq κ] [DecidableEq κ'] (f : κ × α → Option (κ' × β))
    (g : α → β) (r : κ) (k : κ') (hsame : ∀ a, f (r, a) = some (k, g a))
    (hother : ∀ p q, p.1 ≠ r → f p = some q → q.1 ≠ k) (t : Tab κ α) (d : α) :
    Tab.get (List.filterMap f t) k (g d) = g (Tab.get t r d) := by
  induction t with
  | nil => rfl
  | cons p t ih =>
    obtain ⟨r', a⟩ := p
    by_cases hr : r = r'
    · subst hr
      simp [hsame, Tab.get]
    · cases hf : f (r', a) with
      | none => simpa [List.filterMap_cons, hf, Tab.get, hr] using ih
      | some q =>
        have hq : k ≠ q.1 := (hother _ _ (Ne.symm hr) hf).symm
        simpa [List.filterMap_cons, hf, Tab.get, hr, hq] using ih

/-- The pitches of reset fit their field, and no record store holds them (R181). -/
theorem budPitch_default (t k : Nat) (b : Bool) :
    ({ name := .budPitch, idx := [t, k] } : Reg).resetValue.toNat =
      bitsOf (if b then ({ name := .budPitch, idx := [t, k] } : Reg).recordValue
        else ({ name := .budPitch, idx := [t, k] } : Reg).resetValue).toNat 19 0 := by
  have hrec : ({ name := .budPitch, idx := [t, k] } : Reg).recordValue =
      ({ name := .budPitch, idx := [t, k] } : Reg).resetValue := rfl
  have hreset : ({ name := .budPitch, idx := [t, k] } : Reg).resetValue = if t = 0 then 0xFFFFF else 0 := rfl
  rw [hrec, ite_self, hreset]
  by_cases h : t = 0 <;> simp [h, bitsOf]

/-- The pitches in force in a new frame are those last written. -/
theorem Chip.newFrame_pitch (c : Chip) (t k : Nat) : c.newFrame.pitch t k = c.f Fld.budPitch_pitch [t, k] := by
  change Tab.get (List.filterMap _ c.regs) (t, k) _ = bitsOf (Tab.get c.regs _ _).toNat 19 0
  rw [budPitch_default t k c.loaded]
  refine Tab.get_filterMap _ (fun x : Word => bitsOf x.toNat 19 0) _ _ (fun _ => rfl) ?_ _ _
  intro ⟨⟨n, ix, w⟩, x⟩ q hne hq hkey
  refine hne ?_
  dsimp only at hq
  split at hq
  next =>
    obtain rfl := Option.some.inj hq
    obtain ⟨rfl, rfl⟩ := Prod.mk.inj hkey
    rfl
  next => cases hq

theorem Chip.allowance_congr {c d : Chip} (h : d.bud = c.bud) (t k : Nat) : d.allowance t k = c.allowance t k := by
  unfold Chip.allowance Chip.pitch
  rw [h]

theorem Chip.regSet_budPitch_bud (c : Chip) (t k : Nat) (xs : List Word) :
    (c.regSet { name := .budPitch, idx := [t, k] } xs).2.bud = c.bud := by
  change (c.wPitch t k _).2.bud = c.bud
  unfold Chip.wPitch
  split <;> rfl

theorem exec_registerWrite (w : Writer) (a : Nat) (xs : List Word) (s : State) (hw : writerOk w = true)
    (hp : s.chip.powered = true) (hlo : regBase ≤ a) (hhi : a < regBase + 2 ^ 32) :
    exec (.registerWrite w a xs) s = .next { s with chip := s.chip.registerWrite w a xs } := by
  change execRegisterWrite w a xs s = _
  have hunit : (writerOk w && decide (regBase ≤ a ∧ a < regBase + 2 ^ 32)) = true := by
    rw [hw, decide_eq_true ⟨hlo, hhi⟩, Bool.and_self]
  simp only [execRegisterWrite, onUnits, onChip, hunit, hp, if_true]

/-- A write of a register of one word that is admitted and taken does what the register does, and is answered OK. -/
theorem Chip.registerWrite_of_ok (c c1 : Chip) (w : Writer) (a : Nat) (r : Reg) (x : Word)
    (hr : regAt a = some r) (hw0 : r.w = 0) (hwords : r.name.desc.words = 1)
    (hm : c.mayWrite (c.writerTent w) r x = true) (hset : c.regSet r [x] = (Status.ok, c1)) :
    c.registerWrite w a [x] = c1.wReply w Status.ok 1 := by
  simp [Chip.registerWrite, Chip.regWriteAt, hr, hw0, hwords, hm, hset]

theorem exec_leaseRequest (g : Gate) (t q : Nat) (s : State) (hg : gateExists g = true) (ht : t < 64) :
    exec (.leaseRequest g t q) s = .next { s with chip := s.chip.leaseRequest g t q } := by
  change execLeaseRequest g t q s = _
  simp [execLeaseRequest, onUnits, onChip, tentOk, hg, ht]

theorem Chip.leaseRequest_of_pitch_zero (c : Chip) (g : Gate) (t q : Nat) (h : c.pitch t (gateClass g) = 0) :
    c.leaseRequest g t q = c := by
  have hnone : c.requestLease g t q = none := by simp [Chip.requestLease, Chip.allowance, h]
  simp [Chip.leaseRequest, hnone]

/-- Settles O13: a write of a pitch sets a register, and the allowance reads the pitches the last boundary took. -/
theorem pitchesBoundTheFrame : Obligations.PitchesBoundTheFrame := by
  unfold Obligations.PitchesBoundTheFrame
  refine ⟨?write, ?boundary, ?zero⟩
  case write =>
    intro w x s t k a c1 hw hp hr hlo hhi hm hset
    refine ⟨_, exec_registerWrite w a [x] s hw hp hlo hhi, Chip.allowance_congr ?_⟩
    have hbud : c1.bud = s.chip.bud := by
      simpa [hset] using s.chip.regSet_budPitch_bud t k [x]
    simpa [Chip.registerWrite_of_ok _ c1 w a _ x hr rfl rfl hm hset] using hbud
  case boundary =>
    intro s t k n _ _ hn
    refine ⟨_, rfl, _, rfl, ?_, ?_, rfl⟩
    · intro hlim
      simp [Chip.allowance, Chip.newFrame_pitch, ← hn, hlim]
    · intro hfree
      simp [Chip.allowance, Chip.newFrame_pitch, ← hn, hfree]
  case zero =>
    intro g t q s hg ht hz
    rw [exec_leaseRequest g t q s hg ht, Chip.leaseRequest_of_pitch_zero _ _ _ _ hz]

/-! ### Event flags and ticketed clears (R13, R31 to R33) -/

theorem Chip.get_setF_other (c : Chip) (fl : Fld) (idx : List Nat) (n : Nat) (r : Reg) (h : r ≠ fldReg fl idx) :
    (c.setF fl idx n).get r = c.get r := c.get_put_other _ _ _ h

theorem ne_fldReg_of_name_ne {r : Reg} {fl : Fld} (idx : List Nat) (h : r.name ≠ fl.name) : r ≠ fldReg fl idx :=
  fun e => h (congrArg Reg.name e)

/-- A message writes no register but the count of those lost. -/
theorem Chip.message_get (c : Chip) (t k : Nat) (b : List Byte) (r : Reg) (h : r.name ≠ .sysMsgq) :
    (c.message t k b).get r = c.get r := by
  have hne : r ≠ fldReg Fld.sysMsgq_lost [t] := ne_fldReg_of_name_ne _ h
  unfold Chip.message
  split
  case isFalse => rfl
  unfold Chip.pushMsg
  dsimp only
  split
  · exact c.get_setF_other _ _ _ _ hne
  · split
    · split
      · exact c.get_setF_other _ _ _ _ hne
      · exact (Chip.get_setF_other _ _ _ _ _ hne).trans (c.get_setF_other _ _ _ _ hne)
    · rfl

theorem Reg.name_ne_sysMsgq_of_tc {r : Reg} (h : r.name.desc.tc = true) : r.name ≠ .sysMsgq :=
  fun e => by rw [e] at h; exact Bool.noConfusion h

/-- What an event does to its register before it is told: the flag, the count one higher up to 255, and the hidden
marker (R13, R33). -/
def Chip.flagged (c : Chip) (r : Reg) : Chip :=
  { c.put r (BitVec.ofNat 64 (0x100 + min (bitsOf (c.get r).toNat 7 0 + 1) 255)) with
    marks := if c.marks.contains r then c.marks else r :: c.marks }

theorem Chip.flagged_get (c : Chip) (r : Reg) :
    (c.flagged r).get r = BitVec.ofNat 64 (0x100 + min (bitsOf (c.get r).toNat 7 0 + 1) 255) :=
  c.get_put_same r _

theorem Chip.mem_flagged_marks (c : Chip) (r : Reg) : r ∈ (c.flagged r).marks := by
  by_cases h : r ∈ c.marks <;> simp [Chip.flagged, h]

/-- After the flag an event sends messages and no more: what they keep of the flagged device holds of the event. -/
theorem Chip.event_of_messages {P : Chip → Prop} (c : Chip) (r : Reg) (hflag : P (c.flagged r))
    (hmsg : ∀ (d : Chip) t b, P d → P (d.message t 4 b)) : P (c.event r) := by
  have htold : ∀ b, P ((c.flagged r).message 0 4 b) := fun b => hmsg _ _ _ hflag
  unfold Chip.event
  dsimp only
  split
  · exact hflag
  · split
    · split
      · exact htold _
      · exact hmsg _ _ _ (htold _)
    · exact htold _

theorem Chip.event_get (c : Chip) (r : Reg) (h : r.name ≠ .sysMsgq) :
    (c.event r).get r = BitVec.ofNat 64 (0x100 + min (bitsOf (c.get r).toNat 7 0 + 1) 255) :=
  c.event_of_messages r (c.flagged_get r) fun d t b hd => (d.message_get t 4 b r h).trans hd

theorem Chip.mem_event_marks (c : Chip) (r : Reg) : r ∈ (c.event r).marks :=
  c.event_of_messages r (P := fun d => r ∈ d.marks) (c.mem_flagged_marks r) fun d t b hd => by
    rwa [d.message_marks t 4 b]

/-- R33: with the hidden marker set a clear has no effect. -/
theorem Chip.ticketClear_of_marked (c : Chip) (r : Reg) (x : Word) (h : r ∈ c.marks) : c.ticketClear r x = c := by
  simp [Chip.ticketClear, h]

theorem Chip.ticketClear_of_current (c : Chip) (r : Reg) (x : Word) (hm : r ∉ c.marks) (hx : bitOf x.toNat 31 = true)
    (ht : bitsOf x.toNat 7 0 = bitsOf (c.get r).toNat 7 0) : c.ticketClear r x = c.put r 0 := by
  simp [Chip.ticketClear, hm, hx, ht]

/-- R33: a read of a flag register clears its hidden marker. -/
theorem Chip.not_mem_readWord_marks (c : Chip) (r : Reg) (h : r.name.desc.tc = true) :
    r ∉ (c.readWord r).2.marks := by
  have hfilter : r ∉ c.marks.filter fun m => m != r := by simp
  unfold Chip.readWord
  simp only [h, if_true]
  split <;> exact hfilter

/-- The memory of old records is no register. -/
theorem Chip.wFlag_get (c : Chip) (r q : Reg) (x : Word) : (c.wFlag r x).2.get q = (c.ticketClear r x).get q := by
  unfold Chip.wFlag
  dsimp only
  split <;> rfl

theorem exec_ticketClear (w : Writer) (a : Nat) (x : Word) (s : State) (r : Reg) (hr : regAt a = some r)
    (ht : r.name.desc.tc = true) (hadm : RegAdmits s.chip w r x) :
    exec (.ticketClear w a x) s =
      .next { s with chip := (s.chip.wFlag r x).2.wReply w (s.chip.wFlag r x).1 r.name.desc.words } := by
  change execTicketClear w a x s = _
  simp [execTicketClear, hr, ht, reg_runs hadm]

/-- Settles O15: an event leaves its marker, which no clear passes, and a cleared register counts from zero. -/
theorem clearsNeverEraseNewerEvents : Obligations.ClearsNeverEraseNewerEvents := by
  unfold Obligations.ClearsNeverEraseNewerEvents
  refine ⟨?eventFirst, ?clearFirst, Chip.ticketClear_of_marked, Chip.mem_event_marks, Chip.not_mem_readWord_marks,
    ?command⟩
  case eventFirst =>
    intro c r x n htc hn hlt _ _
    refine ⟨?_, Chip.ticketClear_of_marked _ _ _ (c.mem_event_marks r)⟩
    rw [c.event_get r (Reg.name_ne_sysMsgq_of_tc htc), ← hn, BitVec.toNat_ofNat, bitsOf]
    omega
  case clearFirst =>
    intro c r x htc hm hx ht
    rw [c.ticketClear_of_current r x hm hx ht]
    refine ⟨c.get_put_same r 0, ?_⟩
    rw [Chip.event_get _ _ (Reg.name_ne_sysMsgq_of_tc htc), Chip.get_put_same]
    rfl
  case command =>
    intro w a x s r hr htc hadm
    refine ⟨_, exec_ticketClear w a x s r hr htc hadm, ?_⟩
    rw [Chip.wReply_get, Chip.wFlag_get]

end Sys2Proof.Machine
end

section
/-!
The CAIRN_ view (file 16 of spec/): what a register found at an address is, what a write of a CAIRN_ register comes to,
and the statement O14 settled from it.
-/

namespace Sys2Proof

/-! ### The register at an address (R22 to R24) -/

/-- A register found at an offset is a word of the row that was asked for it. -/
theorem RegName.name_and_word_of_at {n : RegName} {off : Nat} {r : Reg} (h : n.at off = some r) :
    r.name = n ∧ r.w < n.desc.words := by
  simp only [RegName.at, Option.ite_none_left_eq_some] at h
  obtain ⟨_, h⟩ := h
  split at h
  case h_1 => nomatch h
  case h_2 idx rest _ =>
    simp only [Option.ite_none_right_eq_some, Bool.and_eq_true, decide_eq_true_eq, Option.some.injEq] at h
    obtain ⟨⟨_, hword⟩, _, rfl⟩ := h
    exact ⟨rfl, hword⟩

theorem regBase_le_of_regAt {a : Nat} {r : Reg} (h : regAt a = some r) : regBase ≤ a := by
  simp only [regAt, Option.ite_none_left_eq_some] at h
  exact Nat.le_of_not_lt h.1

theorem word_lt_of_regAt {a : Nat} {r : Reg} (h : regAt a = some r) : r.w < r.name.desc.words := by
  simp only [regAt, Option.ite_none_left_eq_some] at h
  obtain ⟨n, _, hat⟩ := List.exists_of_findSome?_eq_some h.2
  obtain ⟨rfl, hword⟩ := RegName.name_and_word_of_at hat
  exact hword

/-- The table's rows of the view: every CAIRN_ register is one word, and none is an event flag. -/
theorem RegName.desc_of_cairn {n : RegName} (h : n.block = .cairn) : n.desc.words = 1 ∧ n.desc.tc = false := by
  revert h; cases n <;> decide

theorem cairn_words_of_regAt {a : Nat} {r : Reg} (hr : regAt a = some r) (hb : r.name.block = .cairn) :
    r.name.desc.words = 1 ∧ r.w = 0 := by
  obtain ⟨hwords, _⟩ := RegName.desc_of_cairn hb
  have hword := word_lt_of_regAt hr
  omega

end Sys2Proof

namespace Sys2Proof.Machine

/-! ### Reading the view -/

theorem Chip.mayRead_cairn (c : Chip) (t : Nat) (r : Reg) (h : r.name.block = .cairn) : c.mayRead t r = true := by
  simp [Chip.mayRead, h]

/-- A read of what is no event flag and no pin changes nothing. -/
theorem Chip.readWord_device (c : Chip) (r : Reg) (ht : r.name.desc.tc = false) (hg : r.name ≠ .sysGpioIn) :
    (c.readWord r).2 = c := by
  simp [Chip.readWord, ht, hg]

theorem Chip.readWord_device_cairn (c : Chip) (r : Reg) (h : r.name.block = .cairn) : (c.readWord r).2 = c :=
  c.readWord_device r (RegName.desc_of_cairn h).2 fun e => by rw [e] at h; exact Block.noConfusion h

/-- REG_READ of one register that the Tent may read. -/
theorem Chip.hwRegRead_one (c : Chip) (m : Cmd) (r : Reg) (hp : m.p < 2 ^ 48) (ha : m.p % 8 = 0)
    (hr : regAt m.p = some r) (hm : c.mayRead m.tent r = true) :
    c.hwRegRead m = (c.readWord r).2.finish 0x0E01 m Status.ok 0 [(c.readWord r).1] := by
  have haddr : bitsOf m.p 47 0 = m.p := by simp only [bitsOf]; omega
  have hcount : regCount m.p = 1 := by simp only [regCount, bitsOf]; omega
  have hgood : regParamBad m.p = false := by
    have hhigh : bitsOf m.p 63 52 = 0 := by simp only [bitsOf]; omega
    simp [regParamBad, hhigh, haddr, ha]
  simp [Chip.hwRegRead, hgood, hcount, haddr, Chip.regRead, hr, hm]

theorem exec_regRead_one (m : Cmd) (s : State) (r : Reg) (h : Passes4 s.chip 0x0E01 m) (hp : m.p < 2 ^ 48)
    (ha : m.p % 8 = 0) (hr : regAt m.p = some r) (hm : s.chip.mayRead m.tent r = true) :
    exec (.regRead m) s =
      .next { s with chip := (s.chip.readWord r).2.finish 0x0E01 m Status.ok 0 [(s.chip.readWord r).1] } := by
  change execRegRead m s = _
  rw [execRegRead, hw_runs h, s.chip.hwRegRead_one m r hp ha hr hm]

/-! ### Writing the view -/

theorem Chip.mayWrite_cairn (c : Chip) (t : Nat) (r : Reg) (x : Word) (h : r.name.block = .cairn) :
    c.mayWrite t r x = false := by
  simp [Chip.mayWrite, h]

/-- A write that begins in the view takes no word and changes nothing; where it brings a word it is not permitted. -/
theorem Chip.regWriteAt_cairn (c : Chip) (t a : Nat) (xs : List Word) (r : Reg) (hr : regAt a = some r)
    (hb : r.name.block = .cairn) :
    c.regWriteAt t a xs = (if xs = [] then Status.badParam else Status.notPermitted, 0, c) := by
  obtain ⟨hwords, hw0⟩ := cairn_words_of_regAt hr hb
  cases xs with
  | nil => simp [Chip.regWriteAt, hr, hwords]
  | cons x xs => simp [Chip.regWriteAt, hr, hwords, hw0, c.mayWrite_cairn t r x hb]

/-- A thread is told nothing, so its write leaves the device as it was. -/
theorem Chip.registerWrite_cairn (c : Chip) (h : Hart) (a : Nat) (xs : List Word) (r : Reg) (hr : regAt a = some r)
    (hb : r.name.block = .cairn) : c.registerWrite (.thread h) a xs = c := by
  simp only [Chip.registerWrite, c.regWriteAt_cairn _ a xs r hr hb, Chip.wReply]

/-- A register write without effect on the device is one without effect on the state, powered or not. -/
theorem exec_registerWrite_of_unchanged (w : Writer) (a : Nat) (xs : List Word) (s : State) (hw : writerOk w = true)
    (hlo : regBase ≤ a) (hhi : a < regBase + 2 ^ 32) (h : s.chip.registerWrite w a xs = s.chip) :
    exec (.registerWrite w a xs) s = .next s := by
  change execRegisterWrite w a xs s = _
  have hunit : (writerOk w && decide (regBase ≤ a ∧ a < regBase + 2 ^ 32)) = true := by
    rw [hw, decide_eq_true ⟨hlo, hhi⟩, Bool.and_self]
  simp only [execRegisterWrite, onUnits, onChip, hunit, h, ite_self, if_true]

/-- A refusal at the first register ends a REG_WRITE with nothing written. -/
theorem Chip.regWrites_of_refused (k : Nat) (c : Chip) (t a st : Nat) (xs : List Word) (hxs : xs ≠ [])
    (h : c.regWriteAt t a xs = (st, 0, c)) (hst : st ≠ Status.ok) :
    Chip.regWrites (k + 1) c t a xs 0 = (st, 0, c) := by
  simp [Chip.regWrites, hxs, h, hst]

/-- REG_WRITE that begins in the view. -/
theorem Chip.hwRegWrite_cairn (c : Chip) (m : Cmd) (r : Reg) (hp : regParamBad m.p = false)
    (hlen : m.words.length = regCount m.p) (hr : regAt (bitsOf m.p 47 0) = some r) (hb : r.name.block = .cairn) :
    c.hwRegWrite m = c.finish 0x0E02 m Status.notPermitted := by
  have hne : m.words ≠ [] := List.ne_nil_of_length_pos (by rw [hlen]; exact Nat.succ_pos _)
  have hat : c.regWriteAt m.tent (bitsOf m.p 47 0) m.words = (Status.notPermitted, 0, c) := by
    rw [c.regWriteAt_cairn _ _ _ r hr hb, if_neg hne]
  simp [Chip.hwRegWrite, hp, hlen, Chip.regWrites_of_refused 15 c _ _ _ _ hne hat (by decide)]

theorem exec_regWrite_cairn (m : Cmd) (s : State) (r : Reg) (h : Passes4 s.chip 0x0E02 m)
    (hp : regParamBad m.p = false) (hlen : m.words.length = regCount m.p) (hr : regAt (bitsOf m.p 47 0) = some r)
    (hb : r.name.block = .cairn) :
    exec (.regWrite m) s = .next { s with chip := s.chip.finish 0x0E02 m Status.notPermitted } := by
  change execRegWrite m s = _
  rw [execRegWrite, hw_runs h, s.chip.hwRegWrite_cairn m r hp hlen hr hb]

/-- Words stored to one slot, which refuses them or takes none. -/
theorem Chip.slotWrites_one_cairn (c : Chip) (t a : Nat) (xs : List Word) (r : Reg) (hr : regAt a = some r)
    (hb : r.name.block = .cairn) : Chip.slotWrites 1 c t a xs = c := by
  cases xs with
  | nil => rfl
  | cons x xs => simp [Chip.slotWrites, c.regWriteAt_cairn t a _ r hr hb, Status.notPermitted, Status.ok]

/-- A store within one slot of the view. -/
theorem Chip.regStore_cairn (c : Chip) (t a : Nat) (bs : List Byte) (r : Reg) (hr : regAt a = some r)
    (hb : r.name.block = .cairn) (ha : a % 8 = 0) (hlen : bs.length ≤ 8) : c.regStore t a bs = c := by
  have hslot : a / 8 * 8 = a := by omega
  have hcount : (a % 8 + bs.length + 7) / 8 = 0 ∨ (a % 8 + bs.length + 7) / 8 = 1 := by omega
  unfold Chip.regStore
  rw [hslot]
  obtain h | h := hcount
  · rw [h]; rfl
  · rw [h]; exact c.slotWrites_one_cairn t a _ r hr hb

/-- Settles O14: a CAIRN_ register is readable by all, holds no marker a read could clear, and admits no write. -/
theorem cairnViewIsReadOnly : Obligations.CairnViewIsReadOnly := by
  unfold Obligations.CairnViewIsReadOnly
  refine ⟨?read, ?write, ?thread, Chip.regStore_cairn⟩
  case read =>
    intro m s r h hp ha hr hb
    refine ⟨_, exec_regRead_one m s r h hp ha hr (s.chip.mayRead_cairn m.tent r hb), rfl, ?_,
      Chip.finish_answered ..⟩
    rw [Chip.finish_regs, s.chip.readWord_device_cairn r hb]
  case write =>
    intro m s r h hp hlen hr hb
    exact ⟨_, exec_regWrite_cairn m s r h hp hlen hr hb, rfl, Chip.finish_regs .., Chip.finish_answered ..⟩
  case thread =>
    intro h a xs s r hr hb hw hhi
    exact exec_registerWrite_of_unchanged _ a xs s hw (regBase_le_of_regAt hr) hhi
      (s.chip.registerWrite_cairn h a xs r hr hb)

end Sys2Proof.Machine
end

section
/-!
Words of thread instructions (file 10 of spec/): the fields of each format, the word made again from its fields, and the
statements O4 and O5 settled from them.
-/

namespace Sys2Proof

open BitVec (extractLsb'_append_eq_of_le extractLsb'_append_eq_of_add_le extractLsb'_eq_self
  extractLsb'_append_extractLsb'_eq_extractLsb')

/-! ### The parts of a word -/

/-- The part of a word that starts at bit `w`. -/
theorem extractLsb'_part {u v w : Nat} (hi : BitVec u) (x : BitVec v) (lo : BitVec w) :
    (hi ++ x ++ lo).extractLsb' w v = x := by
  rw [extractLsb'_append_eq_of_le (Nat.le_refl w), Nat.sub_self, extractLsb'_append_eq_of_add_le (by omega),
    extractLsb'_eq_self]

theorem extractLsb'_top {v w : Nat} (x : BitVec v) (lo : BitVec w) : (x ++ lo).extractLsb' w v = x := by
  rw [extractLsb'_append_eq_of_le (Nat.le_refl w), Nat.sub_self, extractLsb'_eq_self]

theorem extractLsb'_bottom {u v : Nat} (hi : BitVec u) (x : BitVec v) : (hi ++ x).extractLsb' 0 v = x := by
  rw [extractLsb'_append_eq_of_add_le (by omega), extractLsb'_eq_self]

/-- What lies above the lowest part of a word. -/
theorem extractLsb'_above {u w s n : Nat} (hi : BitVec u) (lo : BitVec w) :
    (hi ++ lo).extractLsb' (w + s) n = hi.extractLsb' s n := by
  rw [extractLsb'_append_eq_of_le (Nat.le_add_right w s), Nat.add_sub_cancel_left]

/-! ### The fields of each format (R322) -/

section Fields

variable (op : BitVec 6) (a b d : BitVec 5) (fn : BitVec 11) (imm : BitVec 16)

@[simp] theorem rWord_op : (rWord op a b d fn).extractLsb' 0 6 = op := extractLsb'_bottom ..
@[simp] theorem rWord_a : (rWord op a b d fn).extractLsb' 6 5 = a := extractLsb'_part ..
@[simp] theorem rWord_b : (rWord op a b d fn).extractLsb' 11 5 = b :=
  (extractLsb'_above (s := 5) ..).trans (extractLsb'_part ..)
@[simp] theorem rWord_d : (rWord op a b d fn).extractLsb' 16 5 = d :=
  (extractLsb'_above (s := 10) ..).trans ((extractLsb'_above (s := 5) ..).trans (extractLsb'_part ..))
@[simp] theorem rWord_fn : (rWord op a b d fn).extractLsb' 21 11 = fn :=
  (extractLsb'_above (s := 15) ..).trans
    ((extractLsb'_above (s := 10) ..).trans ((extractLsb'_above (s := 5) ..).trans (extractLsb'_top ..)))

@[simp] theorem iWord_op : (iWord op a b imm).extractLsb' 0 6 = op := extractLsb'_bottom ..
@[simp] theorem iWord_a : (iWord op a b imm).extractLsb' 6 5 = a := extractLsb'_part ..
@[simp] theorem iWord_b : (iWord op a b imm).extractLsb' 11 5 = b :=
  (extractLsb'_above (s := 5) ..).trans (extractLsb'_part ..)
@[simp] theorem iWord_imm : (iWord op a b imm).extractLsb' 16 16 = imm :=
  (extractLsb'_above (s := 10) ..).trans ((extractLsb'_above (s := 5) ..).trans (extractLsb'_top ..))

variable (off : BitVec 21)

@[simp] theorem jWord_op : (jWord op a off).extractLsb' 0 6 = op := extractLsb'_bottom ..
@[simp] theorem jWord_rd : (jWord op a off).extractLsb' 6 5 = a := extractLsb'_part ..
@[simp] theorem jWord_off : (jWord op a off).extractLsb' 11 21 = off :=
  (extractLsb'_above (s := 5) ..).trans (extractLsb'_top ..)

variable (vd va vb : BitVec 4) (p lane : BitVec 3) (x : BitVec 5) (off17 : BitVec 17)

@[simp] theorem vWord_op : (vWord op vd va vb p fn).extractLsb' 0 6 = op := extractLsb'_bottom ..
@[simp] theorem vWord_vd : (vWord op vd va vb p fn).extractLsb' 6 4 = vd := extractLsb'_part ..
@[simp] theorem vWord_va : (vWord op vd va vb p fn).extractLsb' 10 4 = va :=
  (extractLsb'_above (s := 4) ..).trans (extractLsb'_part ..)
@[simp] theorem vWord_vb : (vWord op vd va vb p fn).extractLsb' 14 4 = vb :=
  (extractLsb'_above (s := 8) ..).trans ((extractLsb'_above (s := 4) ..).trans (extractLsb'_part ..))
@[simp] theorem vWord_p : (vWord op vd va vb p fn).extractLsb' 18 3 = p :=
  (extractLsb'_above (s := 12) ..).trans
    ((extractLsb'_above (s := 8) ..).trans ((extractLsb'_above (s := 4) ..).trans (extractLsb'_part ..)))
@[simp] theorem vWord_fn : (vWord op vd va vb p fn).extractLsb' 21 11 = fn :=
  (extractLsb'_above (s := 15) ..).trans ((extractLsb'_above (s := 11) ..).trans
    ((extractLsb'_above (s := 7) ..).trans ((extractLsb'_above (s := 3) ..).trans (extractLsb'_top ..))))

@[simp] theorem vxWord_op : (vxWord op vd x lane fn).extractLsb' 0 6 = op := extractLsb'_bottom ..
@[simp] theorem vxWord_vd : (vxWord op vd x lane fn).extractLsb' 6 4 = vd := extractLsb'_part ..
@[simp] theorem vxWord_x : (vxWord op vd x lane fn).extractLsb' 10 5 = x :=
  (extractLsb'_above (s := 4) ..).trans (extractLsb'_part ..)
@[simp] theorem vxWord_lane : (vxWord op vd x lane fn).extractLsb' 15 3 = lane :=
  (extractLsb'_above (s := 9) ..).trans ((extractLsb'_above (s := 5) ..).trans (extractLsb'_part ..))
@[simp] theorem vxWord_zero : (vxWord op vd x lane fn).extractLsb' 18 3 = 0 :=
  (extractLsb'_above (s := 12) ..).trans
    ((extractLsb'_above (s := 8) ..).trans ((extractLsb'_above (s := 3) ..).trans (extractLsb'_part ..)))
@[simp] theorem vxWord_fn : (vxWord op vd x lane fn).extractLsb' 21 11 = fn :=
  (extractLsb'_above (s := 15) ..).trans ((extractLsb'_above (s := 11) ..).trans
    ((extractLsb'_above (s := 6) ..).trans ((extractLsb'_above (s := 3) ..).trans (extractLsb'_top ..))))

@[simp] theorem vmWord_op : (vmWord op vd x off17).extractLsb' 0 6 = op := extractLsb'_bottom ..
@[simp] theorem vmWord_v : (vmWord op vd x off17).extractLsb' 6 4 = vd := extractLsb'_part ..
@[simp] theorem vmWord_ra : (vmWord op vd x off17).extractLsb' 10 5 = x :=
  (extractLsb'_above (s := 4) ..).trans (extractLsb'_part ..)
@[simp] theorem vmWord_off : (vmWord op vd x off17).extractLsb' 15 17 = off17 :=
  (extractLsb'_above (s := 9) ..).trans ((extractLsb'_above (s := 5) ..).trans (extractLsb'_top ..))

end Fields

/-! ### A word made again from its fields -/

section Words

variable {w : BitVec 32} {op : BitVec 6}

/-- Two neighbouring fields are one. -/
theorem extractLsb'_join {n l₂ : Nat} (s l : Nat) (x : BitVec n) :
    x.extractLsb' (s + l) l₂ ++ x.extractLsb' s l = x.extractLsb' s (l₂ + l) :=
  extractLsb'_append_extractLsb'_eq_extractLsb' rfl

theorem rWord_fields (h : w.extractLsb' 0 6 = op) :
    rWord op (w.extractLsb' 6 5) (w.extractLsb' 11 5) (w.extractLsb' 16 5) (w.extractLsb' 21 11) = w := by
  subst h
  rw [rWord, extractLsb'_join 16 5, extractLsb'_join 11 5, extractLsb'_join 6 5, extractLsb'_join 0 6]
  exact extractLsb'_eq_self

theorem iWord_fields (h : w.extractLsb' 0 6 = op) :
    iWord op (w.extractLsb' 6 5) (w.extractLsb' 11 5) (w.extractLsb' 16 16) = w := by
  subst h
  rw [iWord, extractLsb'_join 11 5, extractLsb'_join 6 5, extractLsb'_join 0 6]
  exact extractLsb'_eq_self

theorem jWord_fields (h : w.extractLsb' 0 6 = op) : jWord op (w.extractLsb' 6 5) (w.extractLsb' 11 21) = w := by
  subst h
  rw [jWord, extractLsb'_join 6 5, extractLsb'_join 0 6]
  exact extractLsb'_eq_self

theorem vWord_fields (h : w.extractLsb' 0 6 = op) :
    vWord op (w.extractLsb' 6 4) (w.extractLsb' 10 4) (w.extractLsb' 14 4) (w.extractLsb' 18 3)
      (w.extractLsb' 21 11) = w := by
  subst h
  rw [vWord, extractLsb'_join 18 3, extractLsb'_join 14 4, extractLsb'_join 10 4, extractLsb'_join 6 4, extractLsb'_join 0 6]
  exact extractLsb'_eq_self

theorem vxWord_fields (h : w.extractLsb' 0 6 = op) (hz : w.extractLsb' 18 3 = 0) :
    vxWord op (w.extractLsb' 6 4) (w.extractLsb' 10 5) (w.extractLsb' 15 3) (w.extractLsb' 21 11) = w := by
  subst h
  rw [vxWord, ← hz, extractLsb'_join 18 3, extractLsb'_join 15 3, extractLsb'_join 10 5, extractLsb'_join 6 4, extractLsb'_join 0 6]
  exact extractLsb'_eq_self

theorem vmWord_fields (h : w.extractLsb' 0 6 = op) :
    vmWord op (w.extractLsb' 6 4) (w.extractLsb' 10 5) (w.extractLsb' 15 17) = w := by
  subst h
  rw [vmWord, extractLsb'_join 10 5, extractLsb'_join 6 4, extractLsb'_join 0 6]
  exact extractLsb'_eq_self

/-- The word of HALT, whose fields are all zero. -/
theorem haltWord_fields (h : w.extractLsb' 0 6 = op) (hz : w.extractLsb' 6 26 = 0) : iWord op 0 0 0 = w := by
  subst h
  calc iWord (w.extractLsb' 0 6) 0 0 0 = (0 : BitVec 26) ++ w.extractLsb' 0 6 := by unfold iWord; rfl
    _ = w := by rw [← hz, extractLsb'_join 0 6]; exact extractLsb'_eq_self

end Words

/-! ### Decoding and encoding (R323, R324) -/

/-- The word of HALT is zero above its op. -/
@[simp] theorem haltWord_above : (iWord 41#6 0#5 0#5 0#16).extractLsb' 6 26 = 0 := by decide

/-- The word of an instruction that is well-formed decodes to it: the fields read back what they were made of. -/
theorem decode_of_encode {i : Instr} {w : BitVec 32} (hi : i.wf = true) (he : encodeThread i = some w) :
    ∃ h, decodeThread h w = some i := by
  unfold encodeThread at he
  split at he
  all_goals
    simp only [Option.some.injEq, reduceCtorEq] at he
  all_goals
    subst he
    simp only [Instr.wf, Bool.and_eq_true, decide_eq_true_eq] at hi
    exact ⟨_, by simp [decodeThread, hi]; rfl⟩

/-- An op read as a number is the op. -/
theorem op_of_toNat {w : BitVec 32} {n : Nat} (h : (w.extractLsb' 0 6).toNat = n) :
    w.extractLsb' 0 6 = BitVec.ofNat 6 n := by
  rw [← h, BitVec.ofNat_toNat, BitVec.setWidth_eq]

theorem some_eq_some_iff {α : Type} {x y : α} : some x = some y ↔ True ∧ x = y := by simp

theorem ite_some_eq_some_iff {α : Type} {p : Prop} [Decidable p] {x y : α} :
    (if p then some x else none) = some y ↔ p ∧ x = y := by simp

/-- A word that decodes is the word of what it decodes to, which is well-formed: every branch of the decoder keeps the
fields it read and the check it made. -/
theorem decodeThread_spec {h : Hart} {w : BitVec 32} {i : Instr} (hd : decodeThread h w = some i) :
    encodeThread i = some w ∧ (h.ok = true → i.wf = true) := by
  unfold decodeThread at hd
  dsimp only at hd
  split at hd
  all_goals
    rename_i hop
    simp only [ite_some_eq_some_iff, some_eq_some_iff, reduceCtorEq] at hd
  all_goals
    obtain ⟨hp, rfl⟩ := hd
    have hop := op_of_toNat hop
    refine ⟨?_, fun hok => by simp only [Instr.wf, hok, hp, decide_true, and_self, Bool.and_self]⟩
  case h_32 => exact congrArg some (haltWord_fields hop hp)
  case h_44 => exact congrArg some (vxWord_fields hop hp.1)
  all_goals
    simp only [encodeThread, BitVec.ofNat_eq_ofNat, rWord_fields hop, iWord_fields hop, jWord_fields hop,
      vWord_fields hop, vmWord_fields hop]

/-- Settles O5. -/
theorem threadWordsRoundTrip : Obligations.ThreadWordsRoundTrip := by
  unfold Obligations.ThreadWordsRoundTrip
  exact ⟨fun i w hi he => decode_of_encode hi he, fun h w i hd => (decodeThread_spec hd).1,
    fun h w i hok hd => (decodeThread_spec hd).2 hok⟩

/-- Settles O4. -/
theorem wordsDecodeAsTabled : Obligations.WordsDecodeAsTabled := by
  unfold Obligations.WordsDecodeAsTabled
  intro h
  exact ⟨rfl, rfl, rfl, rfl, rfl, rfl, rfl⟩

end Sys2Proof
end

section
/-!
The functions of the model that leave memory alone: for each, the memory of what it answers is the memory it was given.
-/

namespace Sys2Proof.Machine

/-- Updates made one after the other that each leave memory alone. -/
@[simp] theorem Chip.foldl_mem {α : Type} (f : Chip → α → Chip) (l : List α) (c : Chip)
    (h : ∀ c x, (f c x).mem = c.mem) : (l.foldl f c).mem = c.mem := by
  induction l generalizing c with
  | nil => rfl
  | cons x l ih => rw [List.foldl_cons, ih, h]

@[simp] theorem Chip.takeFree_mem (c : Chip) : (c.takeFree).2.mem = c.mem := by simp [Chip.takeFree]
@[simp] theorem Chip.pump_mem (c : Chip) : c.pump.mem = c.mem := by
  simp [Chip.pump, apply_ite Chip.mem]
@[simp] theorem Chip.out_mem (c : Chip) (o : Out) : (c.out o).mem = c.mem := by simp [Chip.out]
@[simp] theorem Chip.pushMsg_mem (c : Chip) (t : Nat) (m : Msg) : (c.pushMsg t m).mem = c.mem := by
  simp [Chip.pushMsg, apply_ite Chip.mem]
@[simp] theorem Chip.event_mem (c : Chip) (r : Reg) : (c.event r).mem = c.mem := by
  unfold Chip.event
  repeat' split
  all_goals simp [apply_ite Chip.mem]
@[simp] theorem Chip.ticketClear_mem (c : Chip) (r : Reg) (x : Word) : (c.ticketClear r x).mem = c.mem := by
  simp [Chip.ticketClear, apply_ite Chip.mem]
@[simp] theorem Chip.setRamp_mem (c : Chip) (g : Nat) (x : Int) :
    (c.setRamp g x).mem = c.mem := by simp [Chip.setRamp]
@[simp] theorem Chip.addCredits_mem (c : Chip) (g step : Nat) : (c.addCredits g step).mem = c.mem := by
  simp [Chip.addCredits, apply_ite Chip.mem]
@[simp] theorem Chip.dropCredits_mem (c : Chip) (g step : Nat) :
    (c.dropCredits g step).mem = c.mem := by simp [Chip.dropCredits]
@[simp] theorem Chip.answerCredits_mem (c : Chip) (a : Asker) (status : Nat) :
    (c.answerCredits a status).mem = c.mem := by simp [Chip.answerCredits]
@[simp] theorem Chip.askCredits_mem (c : Chip) (a : Asker) : (c.askCredits a).mem = c.mem := by
  simp [Chip.askCredits, apply_ite Chip.mem]
@[simp] theorem Chip.withdraw_mem (c : Chip) (g : Nat) : (c.withdraw g).mem = c.mem := by simp [Chip.withdraw]
@[simp] theorem Chip.toFloor_mem (c : Chip) (g : Nat) : (c.toFloor g).mem = c.mem := by simp [Chip.toFloor]
@[simp] theorem Chip.setLease_mem (c : Chip) (g : Gate) (t fr n : Nat) :
    (c.setLease g t fr n).mem = c.mem := by simp [Chip.setLease]

/-- Steps over a list whose device each leaves memory alone. -/
theorem foldl_mem_of {σ α : Type} (π : σ → Chip) (f : σ → α → σ) (l : List α) (s : σ)
    (h : ∀ s a, (π (f s a)).mem = (π s).mem) : (π (l.foldl f s)).mem = (π s).mem := by
  induction l generalizing s with
  | nil => rfl
  | cons a l ih => rw [List.foldl_cons, ih, h]

/-- What holds of the memory of an answer holds of it where it is given at all. -/
theorem mem_of_ite_some {p : Prop} [Decidable p] {x d : Chip} (h : (if p then some x else none) = some d) :
    d.mem = x.mem := by
  obtain ⟨_, rfl⟩ := Option.ite_none_right_eq_some.mp h |>.imp_right Option.some.inj
  rfl

/-- What a run over a list hands on as its device, if each step of it leaves memory alone. -/
theorem mem_of_foldl_eq {σ α : Type} {f : σ → α → σ} {l : List α} {s r : σ} {d : Chip} {m : List Host.Cell}
    (h : l.foldl f s = r) (π : σ → Option Chip) (hr : π r = some d) (hs : ∀ e, π s = some e → e.mem = m)
    (hf : ∀ s a, (∀ e, π s = some e → e.mem = m) → ∀ e, π (f s a) = some e → e.mem = m) : d.mem = m := by
  subst h
  exact List.foldlRecOn (motive := fun s => ∀ e, π s = some e → e.mem = m) l f hs (fun s hs a _ => hf s a hs) d hr

theorem Chip.requestLease_mem {c d : Chip} {g : Gate} {t q : Nat} (h : c.requestLease g t q = some d) :
    d.mem = c.mem := by
  have hmem := mem_of_ite_some h
  exact hmem

@[simp] theorem Chip.wait_mem (c : Chip) (g : Gate) (t qty : Nat) (credit : Bool) (job : Option Gate) :
    (c.wait g t qty credit job).mem = c.mem := by
  simp [Chip.wait, apply_ite Chip.mem]
@[simp] theorem Chip.unwait_mem (c : Chip) (g : Gate) (t : Nat) (job : Option Gate) :
    (c.unwait g t job).mem = c.mem := by simp [Chip.unwait]
@[simp] theorem Chip.creditMet_mem (c : Chip) (g : Gate) (job : Option Gate) :
    (c.creditMet g job).mem = c.mem := by simp [Chip.creditMet]
@[simp] theorem Chip.unwaitJob_mem (c : Chip) (g : Gate) (t : Nat) :
    (c.unwaitJob g t).mem = c.mem := by simp [Chip.unwaitJob]
/-- A grain that is admitted changes accounts alone. -/
theorem Chip.spend_mem {c d : Chip} {g : Gate} {t q : Nat} {job : Option Gate} (h : c.spend g t q job = some d) :
    d.mem = c.mem := by
  unfold Chip.spend at h
  obtain ⟨_, h⟩ := Option.ite_none_left_eq_some.mp h
  split at h
  next hnow =>
    obtain rfl := Option.some.inj h
    have hmem := mem_of_ite_some hnow
    exact hmem
  next =>
    obtain ⟨a, ha, hb⟩ := Option.bind_eq_some_iff.mp h
    have hlease := Chip.requestLease_mem ha
    have hmem := mem_of_ite_some hb
    exact hmem.trans hlease

@[simp] theorem Chip.waitGrain_mem (c : Chip) (g : Gate) (t qty : Nat) (job : Option Gate) :
    (c.waitGrain g t qty job).mem = c.mem := by
  unfold Chip.waitGrain
  repeat' split
  all_goals simp
/-- Grains that are admitted, or the first that waits, change accounts alone. -/
@[simp] theorem Chip.admitAll_mem (c : Chip) (t : Nat) (gs : List (Gate × Nat)) (job : Option Gate) :
    (c.admitAll t gs job).1.mem = c.mem := by
  unfold Chip.admitAll
  dsimp only
  split
  next d hd =>
    refine mem_of_foldl_eq hd Prod.fst rfl (fun e he => congrArg Chip.mem (Option.some.inj he).symm) ?_
    intro s g hs e he
    split at he
    next a hfst _ =>
      split at he
      next b hb =>
        obtain rfl := Option.some.inj he
        exact (Chip.spend_mem hb).trans (hs a hfst)
      next => exact hs e (hfst.trans he)
    next => exact hs e he
  next => exact Chip.waitGrain_mem ..
  next => rfl

@[simp] theorem Chip.newFrame_mem (c : Chip) : c.newFrame.mem = c.mem := by simp [Chip.newFrame]
@[simp] theorem Chip.gateBoundary_mem (c : Chip) (g : Gate) : (c.gateBoundary g).mem = c.mem := by
  unfold Chip.gateBoundary
  split
  next => rfl
  next =>
    refine Chip.foldl_mem _ _ _ fun d w => ?_
    dsimp only
    split
    next => rfl
    next =>
      split
      next e he =>
        have hmem := Chip.requestLease_mem he
        exact hmem
      next => rfl

@[simp] theorem Chip.setMpQueue_mem (c : Chip) (t : Nat) (q : List MpItem) :
    (c.setMpQueue t q).mem = c.mem := by simp [Chip.setMpQueue]
@[simp] theorem Chip.mpTaken_mem (c : Chip) (t : Nat) : (c.mpTaken t).mem = c.mem := by simp [Chip.mpTaken]
/-- What the MP does with a command beside serving it changes no memory. -/
theorem Chip.mpReceive_mem (c : Chip) (op : Nat) (m : Cmd) (meas : List Int) (body : Chip → Chip)
    (h : ∀ c, (body c).mem = c.mem) : (c.mpReceive op m meas body).mem = c.mem := by
  unfold Chip.mpReceive
  split
  next => simp
  next =>
    dsimp only
    split
    next => simp
    next =>
      split
      next =>
        split
        next d hd => simpa [h] using Chip.spend_mem hd
        next => simp
      next => simp

theorem Chip.hwReceive_mem (c : Chip) (op : Nat) (m : Cmd) (body : Chip → Chip)
    (h : ∀ c, (body c).mem = c.mem) : (c.hwReceive op m body).mem = c.mem := by
  unfold Chip.hwReceive
  split
  · simp
  · exact h c

@[simp] theorem Chip.takeUnits_mem (c : Chip) (v dac : Nat) :
    (c.takeUnits v dac).mem = c.mem := by simp [Chip.takeUnits]
@[simp] theorem Chip.setChan_mem (c : Chip) (v n : Nat) (x : Chan) : (c.setChan v n x).mem = c.mem := by
  simp [Chip.setChan, apply_ite Chip.mem]
@[simp] theorem Chip.release_mem (c : Chip) (v n : Nat) : (c.release v n).mem = c.mem := by
  simp [Chip.release]
@[simp] theorem Chip.driveCode_mem (c : Chip) (v n code : Nat) : (c.driveCode v n code).mem = c.mem := by
  simp [Chip.driveCode, apply_ite Chip.mem]
@[simp] theorem Chip.changeRange_mem (c : Chip) (v n range : Nat) :
    (c.changeRange v n range).mem = c.mem := by simp [Chip.changeRange]
@[simp] theorem Chip.endRange_mem (c : Chip) (v n : Nat) : (c.endRange v n).mem = c.mem := by
  unfold Chip.endRange
  dsimp only
  repeat' split
  all_goals simp
@[simp] theorem Chip.writeChannel_mem (c : Chip) (v n : Nat) (x : Nat) : (c.writeChannel v n x).mem = c.mem := by
  simp [Chip.writeChannel, apply_ite Chip.mem]
@[simp] theorem Chip.channelTone_mem (c : Chip) (v n : Nat) : (c.channelTone v n).2.mem = c.mem := by
  unfold Chip.channelTone
  repeat' split
  all_goals simp
@[simp] theorem Chip.channelCycle_mem (c : Chip) (v n : Nat) : (c.channelCycle v n).mem = c.mem := by
  simp [Chip.channelCycle]
@[simp] theorem Chip.stageTile_mem (c : Chip) (k : Nat) (t : Tile) :
    (c.stageTile k t).mem = c.mem := by simp [Chip.stageTile]
@[simp] theorem Chip.setDaleState_mem (c : Chip) (k n : Nat) :
    (c.setDaleState k n).mem = c.mem := by simp [Chip.setDaleState]
@[simp] theorem Chip.mapRun_mem (c : Chip) (k : Nat) (f : DaleRun → DaleRun) :
    (c.mapRun k f).mem = c.mem := by simp [Chip.mapRun]
@[simp] theorem Chip.setIdle_mem (c : Chip) (k : Nat) : (c.setIdle k).mem = c.mem := by
  simp [Chip.setIdle]
@[simp] theorem Chip.stopRun_mem (c : Chip) (k row status : Nat) : (c.stopRun k row status).mem = c.mem := by
  unfold Chip.stopRun
  dsimp only
  repeat' split
  all_goals simp
@[simp] theorem Chip.dropRows_mem (c : Chip) (k : Nat) : (c.dropRows k).mem = c.mem := by simp [Chip.dropRows]
@[simp] theorem Chip.setLoop_mem (c : Chip) (v n : Nat) (x : Loop) :
    (c.setLoop v n x).mem = c.mem := by simp [Chip.setLoop]
@[simp] theorem Chip.goDark_mem (c : Chip) (v b : Nat) : (c.goDark v b).mem = c.mem := by
  unfold Chip.goDark
  dsimp only
  repeat' split
  all_goals simp
@[simp] theorem Chip.darken_mem (c : Chip) (v b : Nat) : (c.darken v b).mem = c.mem := by simp [Chip.darken]
@[simp] theorem Chip.startTagging_mem (c : Chip) (v b : Nat) :
    (c.startTagging v b).mem = c.mem := by simp [Chip.startTagging]
@[simp] theorem Chip.bankEdge_mem (c : Chip) (v b : Nat) (rose : Bool) : (c.bankEdge v b rose).mem = c.mem := by
  simp [Chip.bankEdge, apply_ite Chip.mem]
@[simp] theorem Chip.daleFall_mem (c : Chip) (k div : Nat) : (c.daleFall k div).mem = c.mem := by
  unfold Chip.daleFall
  repeat' split
  all_goals simp
@[simp] theorem Chip.syncGood_mem (c : Chip) (v div : Nat) : (c.syncGood v div).mem = c.mem := by
  simp [Chip.syncGood, apply_ite Chip.mem]
@[simp] theorem Chip.capTrigger_mem (c : Chip) (v n : Nat) : (c.capTrigger v n).mem = c.mem := by
  simp [Chip.capTrigger, apply_ite Chip.mem]
@[simp] theorem Chip.loopFall_mem (c : Chip) (v n cause : Nat) : (c.loopFall v n cause).mem = c.mem := by
  simp [Chip.loopFall, apply_ite Chip.mem]
@[simp] theorem Chip.unparkRings_mem (c : Chip) (v b : Nat) : (c.unparkRings v b).mem = c.mem := by
  simp [Chip.unparkRings, apply_ite Chip.mem]
@[simp] theorem Chip.loopTo_mem (c : Chip) (v n st cause : Nat) : (c.loopTo v n st cause).mem = c.mem := by
  unfold Chip.loopTo
  repeat' split
  all_goals simp
@[simp] theorem Chip.driveDac_mem (c : Chip) (v out code : Nat) :
    (c.driveDac v out code).mem = c.mem := by simp [Chip.driveDac]
@[simp] theorem Chip.ringCode_mem (c : Chip) (v p ratio : Nat) (p2 : Option Nat) :
    (c.ringCode v p ratio p2).2.mem = c.mem := by simp [Chip.ringCode]
@[simp] theorem Chip.driveCodes_mem (c : Chip) (v n : Nat) (e : LoopE) (p code : Nat) (p2 : Option Nat) :
    (c.driveCodes v n e p code p2).mem = c.mem := by
  simp [Chip.driveCodes, apply_ite Chip.mem]
@[simp] theorem Chip.driveBoth_mem (c : Chip) (v n : Nat) (e : LoopE) (p : Nat) (p2 : Option Nat) :
    (c.driveBoth v n e p p2).mem = c.mem := by simp [Chip.driveBoth]
@[simp] theorem Chip.drivePower_mem (c : Chip) (v n : Nat) (e : LoopE) (p : Nat) :
    (c.drivePower v n e p).mem = c.mem := by simp [Chip.drivePower]
@[simp] theorem Chip.enterSettle_mem (c : Chip) (v n pAcq cause : Nat) :
    (c.enterSettle v n pAcq cause).mem = c.mem := by simp [Chip.enterSettle]
@[simp] theorem Chip.startSearch_mem (c : Chip) (v n cause : Nat) : (c.startSearch v n cause).mem = c.mem := by
  simp [Chip.startSearch, apply_ite Chip.mem]
@[simp] theorem Chip.applyRatio_mem (c : Chip) (v b : Nat) : (c.applyRatio v b).mem = c.mem := by
  unfold Chip.applyRatio
  repeat' split
  all_goals simp
@[simp] theorem Chip.driveLine_mem (c : Chip) (v b : Nat) : (c.driveLine v b).mem = c.mem := by simp [Chip.driveLine]
@[simp] theorem Chip.lineStep_mem (c : Chip) (v b L : Nat) : (c.lineStep v b L).mem = c.mem := by
  simp [Chip.lineStep, apply_ite Chip.mem]
@[simp] theorem Chip.colourChange_mem (c : Chip) (v b L : Nat) :
    (c.colourChange v b L).mem = c.mem := by simp [Chip.colourChange]
@[simp] theorem Chip.park_mem (c : Chip) (v b : Nat) : (c.park v b).mem = c.mem := by
  simp [Chip.park, apply_ite Chip.mem]
@[simp] theorem Chip.parkStray_mem (c : Chip) (v b : Nat) : (c.parkStray v b).mem = c.mem := by
  simp [Chip.parkStray, apply_ite Chip.mem]
@[simp] theorem Chip.wrongLine_mem (c : Chip) (v b port reached : Nat) :
    (c.wrongLine v b port reached).mem = c.mem := by
  unfold Chip.wrongLine
  split
  · rfl
  · simp only [Chip.ev_mem, Chip.lineStep_mem, Chip.setBank_mem, Chip.setLoop_mem]
    exact Chip.foldl_mem _ _ _ fun _ _ => rfl

@[simp] theorem Chip.tagLossSearch_mem (c : Chip) (v b : Nat) : (c.tagLossSearch v b).mem = c.mem := by
  unfold Chip.tagLossSearch
  dsimp only
  rw [Chip.startSearch_mem, Chip.setBank_mem, Chip.foldl_mem]
  intros
  rfl

@[simp] theorem Chip.syncDepth_mem (c : Chip) (k : Nat) : (c.syncDepth k).mem = c.mem := by simp [Chip.syncDepth]
@[simp] theorem Chip.enqueueDale_mem (c : Chip) (j : DaleJob) : (c.enqueueDale j).2.mem = c.mem := by
  unfold Chip.enqueueDale
  dsimp only
  repeat' split
  all_goals simp
@[simp] theorem Chip.recordTag_mem (c : Chip) (k : Nat) (sent : Tag) (bad : List (Nat × Option Tag)) :
    (c.recordTag k sent bad).mem = c.mem := by simp [Chip.recordTag]
@[simp] theorem Chip.beginReload_mem (c : Chip) (k t : Nat) (tile : Tile) : (c.beginReload k t tile).mem = c.mem := by
  simp [Chip.beginReload, apply_ite Chip.mem]
@[simp] theorem Chip.abandonSel_mem (c : Chip) (v b : Nat) : (c.abandonSel v b).mem = c.mem := by
  simp [Chip.abandonSel, apply_ite Chip.mem]
@[simp] theorem Chip.bindBank_mem (c : Chip) (k b : Nat) : (c.bindBank k b).mem = c.mem := by
  simp [Chip.bindBank, apply_ite Chip.mem]
@[simp] theorem Chip.prepareRun_mem (c : Chip) (k : Nat) : (c.prepareRun k).mem = c.mem := by
  unfold Chip.prepareRun
  dsimp only
  repeat' split
  all_goals simp
@[simp] theorem Chip.setRanges_mem (c : Chip) (k : Nat) (d : Desc) (ks : List Nat) :
    (c.setRanges k d ks).mem = c.mem := Chip.foldl_mem _ _ _ fun _ _ => rfl

@[simp] theorem Chip.settleRun_mem (c : Chip) (k : Nat) : (c.settleRun k).mem = c.mem := by
  unfold Chip.settleRun
  repeat' split
  all_goals simp [apply_ite Chip.mem]
@[simp] theorem Chip.releaseBank_mem (c : Chip) (k b : Nat) : (c.releaseBank k b).mem = c.mem := by
  simp [Chip.releaseBank, apply_ite Chip.mem]
@[simp] theorem Chip.mapThread_mem (c : Chip) (h : Hart) (f : Thread → Thread) :
    (c.mapThread h f).mem = c.mem := by simp [Chip.mapThread]
@[simp] theorem Chip.freeThread_mem (c : Chip) (h : Hart) : (c.freeThread h).mem = c.mem := by simp [Chip.freeThread]
@[simp] theorem Chip.countInstr_mem (c : Chip) (i : Nat) : (c.countInstr i).mem = c.mem := by simp [Chip.countInstr]
@[simp] theorem Chip.retireTo_mem (c : Chip) (h : Hart) (pc : Nat) : (c.retireTo h pc).mem = c.mem := by
  simp [Chip.retireTo, apply_ite Chip.mem]
@[simp] theorem Chip.retire_mem (c : Chip) (h : Hart) : (c.retire h).mem = c.mem := by simp [Chip.retire]
@[simp] theorem Chip.threadFault_mem (c : Chip) (h : Hart) (w : Cause) (addr : Nat) :
    (c.threadFault h w addr).mem = c.mem := by
  simp [Chip.threadFault, apply_ite Chip.mem]
@[simp] theorem Chip.stopThread_mem (c : Chip) (h : Hart) : (c.stopThread h).mem = c.mem := by
  unfold Chip.stopThread
  dsimp only
  repeat' split
  all_goals simp
@[simp] theorem Chip.startThread_mem (c : Chip) (h : Hart) (s : Start) :
    (c.startThread h s).mem = c.mem := by simp [Chip.startThread]
@[simp] theorem Chip.spawn_mem (c : Chip) (i : Nat) (s : Start) : (c.spawn i s).2.mem = c.mem := by
  unfold Chip.spawn
  dsimp only
  repeat' split
  all_goals simp
@[simp] theorem Chip.requestStart_mem (c : Chip) (tent i : Nat) (s : Start) :
    (c.requestStart tent i s).2.mem = c.mem := by
  unfold Chip.requestStart
  repeat' split
  all_goals simp
@[simp] theorem Chip.setActx_mem (c : Chip) (i a : Nat) (x : Actx) :
    (c.setActx i a x).mem = c.mem := by simp [Chip.setActx]
theorem Chip.queueCtx_mem (c : Chip) (i : Nat) (x : StepItem) (a : Nat) (now : Chip → Chip)
    (h : (now c).mem = c.mem) : (c.queueCtx i x a now).mem = c.mem := by
  unfold Chip.queueCtx
  dsimp only
  split
  · rfl
  · exact h

@[simp] theorem Chip.queueRepair_mem (c : Chip) (i : Nat) (why : RepairFor) : (c.queueRepair i why).mem = c.mem := by
  simp [Chip.queueRepair, apply_ite Chip.mem]
@[simp] theorem Chip.keepPhases_mem (c : Chip) (n s : Nat) (p : PhaseSt) : (c.keepPhases n s p).mem = c.mem := by
  unfold Chip.keepPhases
  dsimp only
  repeat' split
  all_goals simp
@[simp] theorem Chip.referencePhases_mem (c : Chip) (n s : Nat) (noise : List Int) :
    (c.referencePhases n s noise).1.mem = c.mem := by
  unfold Chip.referencePhases
  dsimp only
  rw [Chip.setArr_mem, Chip.keepPhases_mem]

theorem Chip.regWrite_mem (c : Chip) (w : Writer) (r : Reg) (x : Word) (body : Chip → Nat × Chip)
    (h : (body c).2.mem = c.mem) : (c.regWrite w r x body).mem = c.mem := by
  unfold Chip.regWrite
  split <;> simp [h]

@[simp] theorem Chip.saveRecord_mem (c : Chip) (n s : Nat) :
    (c.saveRecord n s).mem = c.mem := by simp [Chip.saveRecord]
@[simp] theorem Chip.setProg_mem (c : Chip) (n s : Nat) (p : Prog) :
    (c.setProg n s p).mem = c.mem := by simp [Chip.setProg]
@[simp] theorem Chip.dropProg_mem (c : Chip) (n s : Nat) : (c.dropProg n s).mem = c.mem := by simp [Chip.dropProg]
@[simp] theorem Chip.noteStuck_mem (c : Chip) (n s i : Nat) (good stuck : List (Nat × Nat)) :
    (c.noteStuck n s i good stuck).mem = c.mem := by
  simp [Chip.noteStuck, apply_ite Chip.mem]
@[simp] theorem Chip.programGrain_mem (c : Chip) (n s : Nat) (reads : List (List Nat)) :
    (c.programGrain n s reads).mem = c.mem := by
  unfold Chip.programGrain
  split
  next => rfl
  next p _ =>
    dsimp only
    split
    next => rfl
    next =>
      split
      next => simp [apply_ite Chip.mem]
      next =>
        split
        next => simp
        next =>
          split
          next => simp
          next d hd => simpa [apply_ite Chip.mem] using Chip.spend_mem hd

@[simp] theorem Chip.programEnd_mem (c : Chip) (n s : Nat) (p : Prog) (noise : List Int) :
    (c.programEnd n s p noise).mem = c.mem := by
  simp [Chip.programEnd, apply_ite Chip.mem]
@[simp] theorem Chip.useImage_mem (c : Chip) (i : Nat) : (c.useImage i).1.mem = c.mem := by
  unfold Chip.useImage
  dsimp only
  repeat' split
  all_goals simp
@[simp] theorem Chip.adcFault_mem (c : Chip) (n s i a : Nat) : (c.adcFault n s i a).mem = c.mem := by
  simp [Chip.adcFault, apply_ite Chip.mem]
@[simp] theorem Chip.siteOffsets_mem (c : Chip) (n s i : Nat) (offs : List (Nat × Nat × Int)) :
    (c.siteOffsets n s i offs).mem = c.mem := by
  simp [Chip.siteOffsets, apply_ite Chip.mem]
@[simp] theorem Chip.checkDone_mem (c : Chip) (n s i : Nat) (k : CheckRun) : (c.checkDone n s i k).mem = c.mem := by
  simp [Chip.checkDone, apply_ite Chip.mem]
@[simp] theorem Chip.nextCheck_mem (c : Chip) (n : Nat) : (c.nextCheck n).mem = c.mem := by simp [Chip.nextCheck]
@[simp] theorem Chip.noteFaults_mem (c : Chip) (i : Nat) (x : CheckSeen) : (c.noteFaults i x).mem = c.mem := by
  simp [Chip.noteFaults, apply_ite Chip.mem]
@[simp] theorem Chip.siteCheck_mem (c : Chip) (n phases : Nat) (off : List (Nat × Nat × Nat)) (seen : CheckSeen) :
    (c.siteCheck n phases off seen).mem = c.mem := by
  unfold Chip.siteCheck
  dsimp only
  split
  next => rfl
  next =>
    split
    next => simp
    next i _ =>
      split
      next => simp
      next =>
        split
        next => rfl
        next =>
          split
          next => simp
          next =>
            split
            next => simp
            next d hd => split <;> simpa using Chip.spend_mem hd

@[simp] theorem Chip.retireSite_mem (c : Chip) (n s : Nat) :
    (c.retireSite n s).mem = c.mem := by simp [Chip.retireSite]
@[simp] theorem Chip.wornOut_mem (c : Chip) (n s : Nat) : (c.wornOut n s).mem = c.mem := by
  unfold Chip.wornOut
  repeat' split
  all_goals simp
@[simp] theorem Chip.abortProg_mem (c : Chip) (n s : Nat) : (c.abortProg n s).mem = c.mem := by
  unfold Chip.abortProg
  repeat' split
  all_goals simp
@[simp] theorem Chip.cutProgs_mem (c : Chip) : c.cutProgs.mem = c.mem := by
  simp [Chip.cutProgs, apply_ite Chip.mem]
@[simp] theorem Chip.requeueOp_mem (c : Chip) (n : Nat) (o : Refresh) (why : RepairFor) :
    (c.requeueOp n o why).mem = c.mem := by simp [Chip.requeueOp]
@[simp] theorem Chip.mapElement_mem (c : Chip) (r : RegName) (cnt : Fld) (n s k failed : Nat) :
    (c.mapElement r cnt n s k failed).mem = c.mem := by simp [Chip.mapElement]
@[simp] theorem Chip.cellsReplaced_mem (c : Chip) (n s : Nat) (gone : Nat × Nat → Bool) :
    (c.cellsReplaced n s gone).mem = c.mem := by simp [Chip.cellsReplaced]
/-- Spare rows and columns are taken in maps and records (R150, R178). -/
theorem Chip.repairCells_mem {k : Nat} {c d : Chip} {n s : Nat} (h : Chip.repairCells k c n s = some d) :
    d.mem = c.mem := by
  induction k generalizing c with
  | zero =>
    obtain rfl := Option.some.inj h
    rfl
  | succ k ih =>
    unfold Chip.repairCells at h
    split at h
    next =>
      obtain rfl := Option.some.inj h
      rfl
    next =>
      dsimp only at h
      split at h
      all_goals
        obtain ⟨e, _, he⟩ := Option.bind_eq_some_iff.mp h
        simpa using ih he

theorem Chip.repairMap_mem {c d : Chip} {n s : Nat} {why : RepairFor} (h : c.repairMap n s why = some d) :
    d.mem = c.mem := by
  cases why with
  | refresh => exact congrArg Chip.mem (Option.some.inj h).symm
  | stuck _ _ => exact Chip.repairCells_mem h
  | row r =>
    obtain ⟨k, _, rfl⟩ := Option.map_eq_some_iff.mp h
    simp
  | adc a =>
    obtain ⟨_, h⟩ := Option.ite_none_left_eq_some.mp h
    obtain rfl := Option.some.inj h
    simp
  | site => cases h

@[simp] theorem Chip.invalidate_mem (c : Chip) (i : Nat) : (c.invalidate i).mem = c.mem := by simp [Chip.invalidate]
@[simp] theorem Chip.beginProg_mem (c : Chip) (n s : Nat) (p : Prog) :
    (c.beginProg n s p).mem = c.mem := by simp [Chip.beginProg]
@[simp] theorem Chip.refreshStart_mem (c : Chip) (n : Nat) : (c.refreshStart n).mem = c.mem := by
  unfold Chip.refreshStart
  dsimp only
  split
  next i why rest _ _ =>
    split
    next => rfl
    next =>
      split
      next => rfl
      next =>
        split
        next => rfl
        next =>
          split
          next => simp
          next =>
            split
            next hd => simpa using Chip.repairMap_mem hd
            next => simp
            next hd => simpa using Chip.repairMap_mem hd
            next => simp
  next => rfl

@[simp] theorem Chip.oldRewritten_mem (c : Chip) (n : Nat) (noise : List Int) :
    (c.oldRewritten n noise).mem = c.mem := by
  unfold Chip.oldRewritten
  dsimp only
  split
  next o _ =>
    split
    next => rfl
    next =>
      split
      next p _ =>
        split
        next => rfl
        next =>
          rw [Chip.setF_mem, Chip.setVeld_mem]
          split
          · rw [Chip.retireSite_mem, Chip.programEnd_mem]
          · rw [Chip.saveRecord_mem, Chip.setArr_mem, Chip.setF_mem, Chip.programEnd_mem]
      next => rw [Chip.setF_mem, Chip.setVeld_mem, Chip.retireSite_mem]
  next => rfl

@[simp] theorem Chip.wVeldImgBase_mem (c : Chip) (n : Nat) (x : Word) : (c.wVeldImgBase n x).2.mem = c.mem := by
  unfold Chip.wVeldImgBase
  dsimp only
  repeat' split
  all_goals simp
@[simp] theorem Chip.setSource_mem (c : Chip) (n : Nat) (x : Source) :
    (c.setSource n x).mem = c.mem := by simp [Chip.setSource]
@[simp] theorem Chip.setSink_mem (c : Chip) (n : Nat) (x : Sink) :
    (c.setSink n x).mem = c.mem := by simp [Chip.setSink]
@[simp] theorem Chip.sendOn_mem (c : Chip) (lane : Nat) (f : PassFrame) : (c.sendOn lane f).mem = c.mem := by
  simp [Chip.sendOn, apply_ite Chip.mem]
@[simp] theorem Chip.settleLane_mem (c : Chip) (lane : Nat) : (c.settleLane lane).mem = c.mem := by
  simp [Chip.settleLane, apply_ite Chip.mem]
@[simp] theorem Chip.settleRoutes_mem (c : Chip) : c.settleRoutes.mem = c.mem := by
  unfold Chip.settleRoutes
  exact Chip.foldl_mem _ _ _ fun _ _ => rfl

@[simp] theorem Chip.markSent_mem (c : Chip) (f : PassFrame) : (c.markSent f).mem = c.mem := by
  simp [Chip.markSent]
@[simp] theorem Chip.originate_mem (c : Chip) (lane : Nat) (f : PassFrame) (met : Nat) :
    (c.originate lane f met).mem = c.mem := by
  unfold Chip.originate
  dsimp only
  split
  next => simp
  next =>
    split
    next => rfl
    next =>
      split
      next d hd => simpa using Chip.spend_mem hd
      next => simp

@[simp] theorem Chip.passRetry_mem (c : Chip) (p : Nat) : (c.passRetry p).mem = c.mem := by simp [Chip.passRetry]
@[simp] theorem Chip.syncWait_mem (c : Chip) (g : Gate) (t : Nat) (mets : List Nat) :
    (c.syncWait g t mets).mem = c.mem := by
  simp [Chip.syncWait, apply_ite Chip.mem]
@[simp] theorem Chip.syncPass_mem (c : Chip) (p t : Nat) : (c.syncPass p t).mem = c.mem := by simp [Chip.syncPass]
@[simp] theorem Chip.syncServes_mem (c : Chip) (q t : Nat) :
    (c.syncServes q t).mem = c.mem := by simp [Chip.syncServes]
@[simp] theorem Chip.meetBoundary_mem (c : Chip) (g : Gate) : (c.meetBoundary g).mem = c.mem := by
  unfold Chip.meetBoundary
  repeat' split
  all_goals simp
@[simp] theorem Chip.takeTag_mem (c : Chip) : (c.takeTag).2.mem = c.mem := by simp [Chip.takeTag]
theorem Chip.remoteRequest_mem {c d : Chip} {who : RemoteWho} {t a k l f n : Nat} {p : List Byte}
    (h : c.remoteRequest who t a k l f p = some (n, d)) : d.mem = c.mem := by
  unfold Chip.remoteRequest at h
  dsimp only at h
  split at h
  next => cases h
  next =>
    obtain ⟨_, rfl⟩ := Prod.mk.inj (Option.some.inj h)
    simp

@[simp] theorem Chip.sinkDown_mem (c : Chip) (n : Nat) : (c.sinkDown n).mem = c.mem := by
  simp [Chip.sinkDown, apply_ite Chip.mem]
@[simp] theorem Chip.sinkUp_mem (c : Chip) (n : Nat) : (c.sinkUp n).mem = c.mem := by
  unfold Chip.sinkUp
  dsimp only
  repeat' split
  all_goals simp
@[simp] theorem Chip.sinkTag_mem (c : Chip) (n : Nat) (f : PassFrame) : (c.sinkTag n f).mem = c.mem := by
  unfold Chip.sinkTag
  dsimp only
  repeat' split
  all_goals simp
@[simp] theorem Chip.dropFrame_mem (c : Chip) : c.dropFrame.mem = c.mem := by simp [Chip.dropFrame]
@[simp] theorem Chip.passesHold_mem (c : Chip) : c.passesHold.mem = c.mem := by
  simp [Chip.passesHold, apply_ite Chip.mem]
@[simp] theorem Chip.askBoosters_mem (c : Chip) : c.askBoosters.mem = c.mem := by
  simp [Chip.askBoosters, apply_ite Chip.mem]
@[simp] theorem Chip.passesResume_mem (c : Chip) : c.passesResume.mem = c.mem := by
  simp [Chip.passesResume, apply_ite Chip.mem]
@[simp] theorem Chip.wPassCfg_mem (c : Chip) (x : Word) : (c.wPassCfg x).2.mem = c.mem := by
  unfold Chip.wPassCfg
  dsimp only
  repeat' split
  all_goals simp
@[simp] theorem Chip.wPassPort_mem (c : Chip) (x : Word) : (c.wPassPort x).2.mem = c.mem := by
  simp [Chip.wPassPort, apply_ite Chip.mem]
@[simp] theorem Chip.wPassRoute_mem (c : Chip) (m : Nat) (x : Word) : (c.wPassRoute m x).2.mem = c.mem := by
  unfold Chip.wPassRoute
  repeat' split
  all_goals simp
@[simp] theorem Chip.wPassBcast_mem (c : Chip) (g : Nat) (x : Word) :
    (c.wPassBcast g x).2.mem = c.mem := by simp [Chip.wPassBcast]
@[simp] theorem Chip.wPassExport_mem (c : Chip) (k : Nat) (x0 x1 : Word) : (c.wPassExport k x0 x1).2.mem = c.mem := by
  unfold Chip.wPassExport
  dsimp only
  repeat' split
  all_goals simp
@[simp] theorem Chip.bcastOn_mem (c : Chip) (g : Nat) (f : PassFrame) (own : Bool) :
    (c.bcastOn g f own).mem = c.mem := by
  simp [Chip.bcastOn, apply_ite Chip.mem]
@[simp] theorem Chip.bcastShard_mem (c : Chip) (t g shard : Nat) (hash4 : Nat) (payload : List Byte) :
    (c.bcastShard t g shard hash4 payload).mem = c.mem := by simp [Chip.bcastShard]
@[simp] theorem Chip.clearSite_mem (c : Chip) (i : Nat) : (c.clearSite i).mem = c.mem := by
  unfold Chip.clearSite
  dsimp only
  repeat' split
  all_goals simp
@[simp] theorem Chip.loadReply_mem (c : Chip) (t k status : Nat) : (c.loadReply t k status).mem = c.mem := by
  unfold Chip.loadReply
  dsimp only
  repeat' split
  all_goals simp
@[simp] theorem Chip.dropFetches_mem (c : Chip) (t k : Nat) :
    (c.dropFetches t k).mem = c.mem := by simp [Chip.dropFetches]
@[simp] theorem Chip.failSet_mem (c : Chip) (t k status : Nat) (shard : Option Nat) :
    (c.failSet t k status shard).mem = c.mem := by
  unfold Chip.failSet
  repeat' split
  all_goals simp
@[simp] theorem Chip.emptySlot_mem (c : Chip) (t k : Nat) : (c.emptySlot t k).mem = c.mem := by simp [Chip.emptySlot]
@[simp] theorem Chip.slotReady_mem (c : Chip) (t k : Nat) : (c.slotReady t k).mem = c.mem := by
  simp [Chip.slotReady, apply_ite Chip.mem]
@[simp] theorem Chip.slotPlaced_mem (c : Chip) (t k : Nat) : (c.slotPlaced t k).mem = c.mem := by
  simp [Chip.slotPlaced, apply_ite Chip.mem]
@[simp] theorem Chip.nextShards_mem (c : Chip) (t k : Nat) : (c.nextShards t k).mem = c.mem := by
  simp [Chip.nextShards]
@[simp] theorem Chip.shardPlaced_mem (c : Chip) (t k j : Nat) : (c.shardPlaced t k j).mem = c.mem := by
  simp [Chip.shardPlaced, apply_ite Chip.mem]
@[simp] theorem Chip.failCopy_mem (c : Chip) (t k j : Nat) : (c.failCopy t k j).mem = c.mem := by
  simp [Chip.failCopy, apply_ite Chip.mem]
@[simp] theorem Chip.dropRepairs_mem (c : Chip) (i : Nat) : (c.dropRepairs i).mem = c.mem := by
  unfold Chip.dropRepairs
  dsimp only
  repeat' split
  all_goals simp
@[simp] theorem Chip.slotCount_mem (c : Chip) (fl : Fld) (t k n : Nat) :
    (c.slotCount fl t k n).mem = c.mem := by simp [Chip.slotCount]
@[simp] theorem Chip.shardTimeout_mem (c : Chip) (t k j : Nat) : (c.shardTimeout t k j).mem = c.mem := by
  simp [Chip.shardTimeout, apply_ite Chip.mem]
@[simp] theorem Chip.bcastExpire_mem (c : Chip) (t k j : Nat) : (c.bcastExpire t k j).mem = c.mem := by
  simp [Chip.bcastExpire, apply_ite Chip.mem]
@[simp] theorem Chip.offerPiece_mem (c : Chip) (hash4 j off : Nat) (bs : List Byte) :
    (c.offerPiece hash4 j off bs).mem = c.mem := by
  simp [Chip.offerPiece, apply_ite Chip.mem]
@[simp] theorem Chip.hostReadRequest_mem (c : Chip) (t k j off : Nat) :
    (c.hostReadRequest t k j off).mem = c.mem := by
  unfold Chip.hostReadRequest
  dsimp only
  repeat' split
  all_goals simp
@[simp] theorem Chip.hostReadResponse_mem (c : Chip) (tag : Nat) (ok : Bool) (data : List Byte) :
    (c.hostReadResponse tag ok data).mem = c.mem := by
  unfold Chip.hostReadResponse
  repeat' split
  all_goals simp
@[simp] theorem Chip.hostReadTimeout_mem (c : Chip) (tag : Nat) : (c.hostReadTimeout tag).mem = c.mem := by
  unfold Chip.hostReadTimeout
  repeat' split
  all_goals simp
@[simp] theorem Chip.mpWsetLoad_mem (c : Chip) (m : Cmd) : (c.mpWsetLoad m).mem = c.mem := by
  unfold Chip.mpWsetLoad
  dsimp only
  repeat' split
  all_goals simp
@[simp] theorem Chip.wWsetActive_mem (c : Chip) (t : Nat) (x : Word) : (c.wWsetActive t x).2.mem = c.mem := by
  unfold Chip.wWsetActive
  dsimp only
  repeat' split
  all_goals simp
@[simp] theorem Chip.mpWsetPoint_mem (c : Chip) (m : Cmd) : (c.mpWsetPoint m).mem = c.mem := by
  simp [Chip.mpWsetPoint, apply_ite Chip.mem]
@[simp] theorem Chip.mpWsetRelease_mem (c : Chip) (m : Cmd) : (c.mpWsetRelease m).mem = c.mem := by
  simp [Chip.mpWsetRelease, apply_ite Chip.mem]
@[simp] theorem Chip.releaseComplete_mem (c : Chip) (t k : Nat) : (c.releaseComplete t k).mem = c.mem := by
  simp [Chip.releaseComplete, apply_ite Chip.mem]
@[simp] theorem Chip.fingerRun_mem (c : Chip) (i : Nat) (v : List Int) (sk tol : Nat) (stored : List Int)
    (noise : List Int) :
    (c.fingerRun i v sk tol stored noise).2.2.mem = c.mem := by
  simp [Chip.fingerRun]
@[simp] theorem Chip.fingerSite_mem (c : Chip) (i tol : Nat) (vs : List (List Byte)) (noise : List Int) :
    (c.fingerSite i tol vs noise).2.mem = c.mem := by
  unfold Chip.fingerSite
  extract_lets n s codes prints _ c1 r
  have hc1 : c1.mem = c.mem := Chip.setArr_mem ..
  refine mem_of_foldl_eq (r := r) rfl (fun r => some r.2.2) rfl (fun e he => ?_) fun r p hs e he => ?_
  · exact (congrArg Chip.mem (Option.some.inj he)).symm.trans hc1
  · have hr := hs r.2.2 rfl
    have hrun := (r.2.2.fingerRun_mem i (fingerVector p.1) p.2.1 tol p.2.2 r.2.1).trans hr
    exact (congrArg Chip.mem (Option.some.inj he)).symm.trans hrun

@[simp] theorem Chip.fingerVerify_mem (c : Chip) (t k : Nat) (noise : List (List Int)) :
    (c.fingerVerify t k noise).mem = c.mem := by
  unfold Chip.fingerVerify
  dsimp only
  split
  next tol vs _ _ =>
    generalize hr : List.foldl _ _ _ = r
    have hmem : ∀ b d, r = some (b, d) → d.mem = c.mem := by
      rintro b d rfl
      refine mem_of_foldl_eq hr (Option.map Prod.snd) rfl (fun e he => congrArg Chip.mem (Option.some.inj he).symm) ?_
      intro s p hs e he
      split at he
      next => cases he
      next d => exact hs e he
      next d =>
        have hd := hs d rfl
        split at he
        · obtain rfl := Option.some.inj he
          exact (Chip.admitAll_mem ..).trans hd
        · split at he <;> obtain rfl := Option.some.inj he <;> simpa using hd
    split
    next d =>
      split
      · simpa using hmem _ _ rfl
      · exact hmem _ _ rfl
    next d => simpa using hmem _ _ rfl
    next => rfl
  next => rfl

@[simp] theorem Chip.settleQuiesce_mem (c : Chip) (t : Nat) : (c.settleQuiesce t).mem = c.mem := by
  simp [Chip.settleQuiesce, apply_ite Chip.mem]
@[simp] theorem Chip.openTent_mem (c : Chip) (t : Nat) : (c.openTent t).2.mem = c.mem := by
  simp [Chip.openTent, apply_ite Chip.mem]
@[simp] theorem Chip.quiesceTent_mem (c : Chip) (t : Nat) : (c.quiesceTent t).2.mem = c.mem := by
  simp [Chip.quiesceTent, apply_ite Chip.mem]
@[simp] theorem Chip.closeTent_mem (c : Chip) (t : Nat) : (c.closeTent t).2.mem = c.mem := by
  unfold Chip.closeTent
  repeat' split
  all_goals simp
@[simp] theorem Chip.wTentCtl_mem (c : Chip) (t : Nat) (x : Word) : (c.wTentCtl t x).2.mem = c.mem := by
  unfold Chip.wTentCtl
  dsimp only
  repeat' split
  all_goals simp
theorem Chip.mpTentCtl_mem (c : Chip) (m : Cmd) (act : Nat) (f : Chip → Nat → Nat × Chip)
    (h : ∀ t, (f c t).2.mem = c.mem) : (c.mpTentCtl m act f).mem = c.mem := by
  unfold Chip.mpTentCtl
  dsimp only
  repeat' split
  all_goals simp [h]

@[simp] theorem Chip.settleAssign_mem (c : Chip) (op : Nat) (pending : Chip → Nat → Bool) :
    (c.settleAssign op pending).mem = c.mem := by simp [Chip.settleAssign]
@[simp] theorem Chip.settleDale_mem (c : Chip) (k : Nat) : (c.settleDale k).mem = c.mem := by
  unfold Chip.settleDale
  repeat' split
  all_goals simp
@[simp] theorem Chip.wTentDale_mem (c : Chip) (k : Nat) (x : Word) : (c.wTentDale k x).2.mem = c.mem := by
  unfold Chip.wTentDale
  dsimp only
  repeat' split
  all_goals simp
@[simp] theorem Chip.mpTentDales_mem (c : Chip) (m : Cmd) : (c.mpTentDales m).mem = c.mem := by
  simp [Chip.mpTentDales, apply_ite Chip.mem]
@[simp] theorem Chip.wValeBank_mem (c : Chip) (v b : Nat) (x : Word) : (c.wValeBank v b x).2.mem = c.mem := by
  unfold Chip.wValeBank
  dsimp only
  repeat' split
  all_goals simp
@[simp] theorem Chip.wTentWin_mem (c : Chip) (t s : Nat) (x : Word) : (c.wTentWin t s x).2.mem = c.mem := by
  unfold Chip.wTentWin
  repeat' split
  all_goals simp
@[simp] theorem Chip.mpTentWindows_mem (c : Chip) (m : Cmd) : (c.mpTentWindows m).mem = c.mem := by
  simp [Chip.mpTentWindows, apply_ite Chip.mem]
@[simp] theorem Chip.mpTentBudget_mem (c : Chip) (m : Cmd) : (c.mpTentBudget m).mem = c.mem := by
  simp [Chip.mpTentBudget, apply_ite Chip.mem]
@[simp] theorem Chip.hwJobDale_mem (c : Chip) (m : Cmd) : (c.hwJobDale m).mem = c.mem := by
  simp [Chip.hwJobDale, apply_ite Chip.mem]
@[simp] theorem Chip.hwJobLaunch_mem (c : Chip) (m : Cmd) :
    (c.hwJobLaunch m).mem = c.mem := by simp [Chip.hwJobLaunch]
@[simp] theorem Chip.enqueueCoder_mem (c : Chip) (j : CoderJob) : (c.enqueueCoder j).2.mem = c.mem := by
  unfold Chip.enqueueCoder
  dsimp only
  repeat' split
  all_goals simp
@[simp] theorem Chip.hwJobCoder_mem (c : Chip) (m : Cmd) : (c.hwJobCoder m).mem = c.mem := by
  simp [Chip.hwJobCoder, apply_ite Chip.mem]
@[simp] theorem Chip.setHarq_mem (c : Chip) (h : Nat) (e : Harq) :
    (c.setHarq h e).mem = c.mem := by simp [Chip.setHarq]
@[simp] theorem Chip.invalidateHarq_mem (c : Chip) (h : Nat) : (c.invalidateHarq h).mem = c.mem := by
  simp [Chip.invalidateHarq, apply_ite Chip.mem]
@[simp] theorem Chip.clearHarqs_mem (c : Chip) : c.clearHarqs.mem = c.mem := by
  simp [Chip.clearHarqs]
@[simp] theorem Chip.settleSweeps_mem (c : Chip) : c.settleSweeps.mem = c.mem := by simp [Chip.settleSweeps]
@[simp] theorem Chip.wHarqCfg_mem (c : Chip) (t : Nat) (x0 x1 : Word) : (c.wHarqCfg t x0 x1).2.mem = c.mem := by
  unfold Chip.wHarqCfg
  dsimp only
  repeat' split
  all_goals simp
@[simp] theorem Chip.wHarqClr_mem (c : Chip) (x : Word) : (c.wHarqClr x).2.mem = c.mem := by simp [Chip.wHarqClr]
@[simp] theorem Chip.setCoderJob_mem (c : Chip) (j : CoderJob) : (c.setCoderJob j).mem = c.mem := by
  simp [Chip.setCoderJob]
@[simp] theorem Chip.coderBegin_mem (c : Chip) (j : CoderJob) : (c.coderBegin j).1.mem = c.mem := by
  unfold Chip.coderBegin
  dsimp only
  repeat' split
  all_goals simp
@[simp] theorem Chip.returnIters_mem (c : Chip) (t frame n : Nat) : (c.returnIters t frame n).mem = c.mem := by
  simp [Chip.returnIters, apply_ite Chip.mem]
@[simp] theorem Chip.latchPair_mem (c : Chip) (k : Nat) : (c.latchPair k).mem = c.mem := by simp [Chip.latchPair]
@[simp] theorem Chip.jobStart_mem (c : Chip) (k : Nat) : (c.jobStart k).mem = c.mem := by
  unfold Chip.jobStart
  dsimp only
  repeat' split
  all_goals simp
@[simp] theorem Chip.lockWaitExpire_mem (c : Chip) (k : Nat) : (c.lockWaitExpire k).mem = c.mem := by
  unfold Chip.lockWaitExpire
  repeat' split
  all_goals simp
@[simp] theorem Chip.reloadStaged_mem (c : Chip) (k : Nat) : (c.reloadStaged k).mem = c.mem := by
  simp [Chip.reloadStaged, apply_ite Chip.mem]
@[simp] theorem Chip.strobe_mem (c : Chip) (k : Nat) : (c.strobe k).mem = c.mem := by
  unfold Chip.strobe
  dsimp only
  repeat' split
  all_goals rfl

@[simp] theorem Chip.loadStrobe_mem (c : Chip) (k : Nat) : (c.loadStrobe k).mem = c.mem := by
  unfold Chip.loadStrobe
  repeat' split
  all_goals simp
@[simp] theorem Chip.heaterSettled_mem (c : Chip) (k : Nat) : (c.heaterSettled k).mem = c.mem := by
  simp [Chip.heaterSettled, apply_ite Chip.mem]
@[simp] theorem Chip.holdRefresh_mem (c : Chip) (k p : Nat) : (c.holdRefresh k p).mem = c.mem := by
  simp [Chip.holdRefresh, apply_ite Chip.mem]
@[simp] theorem Chip.stopAtBlock_mem (c : Chip) (k : Nat) (r : DaleRun) (status : Nat) :
    (c.stopAtBlock k r status).mem = c.mem := by
  simp [Chip.stopAtBlock, apply_ite Chip.mem]
@[simp] theorem Chip.tagRefused_mem (c : Chip) (k : Nat) (r : DaleRun) (sent : Tag) (bad : List (Nat × Option Tag)) :
    (c.tagRefused k r sent bad).mem = c.mem := by
  simp [Chip.tagRefused, apply_ite Chip.mem]
@[simp] theorem Chip.setQuad_mem (c : Chip) (v d j q : Nat) : (c.setQuad v d j q).mem = c.mem := by
  simp [Chip.setQuad, apply_ite Chip.mem]
@[simp] theorem Chip.issueBatch_mem (c : Chip) (k : Nat) (r : DaleRun) (d : Desc) (ks : List Nat)
    (rows pre changed : Nat) :
    (c.issueBatch k r d ks rows pre changed).mem = c.mem := by
  simp [Chip.issueBatch, apply_ite Chip.mem]
@[simp] theorem Chip.batchStart_mem (c : Chip) (k now : Nat) (bad : List (Nat × Option Tag)) :
    (c.batchStart k now bad).mem = c.mem := by
  unfold Chip.batchStart
  split
  next => rfl
  next r _ =>
    extract_lets d c0 rows ks changed frame due pre m c1 skew n sent c2 c3
    have hm : m.1.mem = c.mem := Chip.admitAll_mem ..
    have h1 : c1.mem = c.mem := hm
    clear_value skew
    have h2 : c2.mem = c1.mem := by simp only [c2, apply_ite Chip.mem, Chip.mapRun_mem, ite_self]
    have h3 : c3.mem = c2.mem := by cases skew <;> rfl
    repeat' split
    all_goals simp only [Chip.settleRun_mem, Chip.stopRun_mem, Chip.tagRefused_mem, Chip.issueBatch_mem,
      Chip.mapRun_mem, Chip.wait_mem, Chip.askCredits_mem, Chip.stopAtBlock_mem, Chip.beginReload_mem, c0, hm, h1, h2, h3]

@[simp] theorem Chip.intrude_mem (c : Chip) (k b : Nat) (reported : Bool) : (c.intrude k b reported).mem = c.mem := by
  unfold Chip.intrude
  dsimp only
  repeat' split
  all_goals simp
@[simp] theorem Chip.tagDecode_mem (c : Chip) (v port : Nat) (tag : Tag) : (c.tagDecode v port tag).mem = c.mem := by
  unfold Chip.tagDecode
  repeat' split
  all_goals simp [apply_ite Chip.mem]
@[simp] theorem Chip.batchReissue_mem (c : Chip) (k : Nat) : (c.batchReissue k).mem = c.mem := by
  unfold Chip.batchReissue
  split
  next => rfl
  next r _ =>
    dsimp only
    split
    next => rfl
    next =>
      split
      next => simp
      next =>
        split
        next => simp
        next =>
          split
          next => simp
          next =>
            split
            next => simp
            next d hd => simpa using Chip.spend_mem hd

@[simp] theorem Chip.showAdc_mem (c : Chip) (v l : Nat) : (c.showAdc v l).mem = c.mem := by simp [Chip.showAdc]
@[simp] theorem Chip.setRun_mem (c : Chip) (v l : Nat) (r : AdcRun) : (c.setRun v l r).mem = c.mem := by
  simp [Chip.setRun]
@[simp] theorem Chip.startConv_mem (c : Chip) (v l x : Nat) :
    (c.startConv v l x).mem = c.mem := by simp [Chip.startConv]
@[simp] theorem Chip.discsDone_mem (c : Chip) (v l : Nat) : (c.discsDone v l).mem = c.mem := by simp [Chip.discsDone]
@[simp] theorem Chip.abandon_mem (c : Chip) (v l taken : Nat) : (c.abandon v l taken).mem = c.mem := by
  unfold Chip.abandon
  dsimp only
  repeat' split
  all_goals simp
@[simp] theorem Chip.endTable_mem (c : Chip) (v l : Nat) : (c.endTable v l).mem = c.mem := by simp [Chip.endTable]
@[simp] theorem Chip.waitOver_mem (c : Chip) (v l : Nat) : (c.waitOver v l).mem = c.mem := by
  unfold Chip.waitOver
  repeat' split
  all_goals simp
@[simp] theorem Chip.entryStart_mem (c : Chip) (v l : Nat) : (c.entryStart v l).mem = c.mem := by
  simp [Chip.entryStart, apply_ite Chip.mem]
@[simp] theorem Chip.tickAdc_mem (c : Chip) (v k l : Nat) : (c.tickAdc v k l).mem = c.mem := by
  unfold Chip.tickAdc
  dsimp only
  repeat' split
  all_goals simp
@[simp] theorem Chip.trimMonitor_mem (c : Chip) (v p gain n : Nat) (xs : List Int) :
    (c.trimMonitor v p gain n xs).2.mem = c.mem := by simp [Chip.trimMonitor]
@[simp] theorem Chip.keptSamples_mem (c : Chip) (v l t w : Nat) (xs : List Int) :
    (c.keptSamples v l t w xs).2.mem = c.mem := by
  simp [Chip.keptSamples]
@[simp] theorem Chip.monitorOutput_mem (c : Chip) (v l t w : Nat) (xs : List Int) :
    (c.monitorOutput v l t w xs).2.mem = c.mem := by simp [Chip.monitorOutput]
@[simp] theorem Chip.track_mem (c : Chip) (r : Reg) (value : Int) : (c.track r value).mem = c.mem := by
  simp [Chip.track, apply_ite Chip.mem]
@[simp] theorem Chip.clearTracker_mem (c : Chip) (r : Reg) :
    (c.clearTracker r).mem = c.mem := by simp [Chip.clearTracker]
@[simp] theorem Chip.entryOutput_mem (c : Chip) (v l : Nat) (xs : List Int) : (c.entryOutput v l xs).mem = c.mem := by
  unfold Chip.entryOutput
  repeat' split
  all_goals simp [apply_ite Chip.mem]
@[simp] theorem Chip.injectionRun_mem (c : Chip) (v l taken : Nat) : (c.injectionRun v l taken).mem = c.mem := by
  unfold Chip.injectionRun
  dsimp only
  repeat' split
  all_goals simp
@[simp] theorem Chip.calConvStart_mem (c : Chip) (v l taken : Nat) (bound : Bool) :
    (c.calConvStart v l taken bound).mem = c.mem := by
  unfold Chip.calConvStart
  dsimp only
  repeat' split
  all_goals simp
theorem Chip.inject_mem {c d : Chip} {v l : Nat} {i : Inj} (h : c.inject v l i = some d) : d.mem = c.mem := by
  unfold Chip.inject at h
  obtain ⟨_, h⟩ := Option.ite_none_left_eq_some.mp h
  obtain rfl := Option.some.inj h
  simp

@[simp] theorem Chip.engineInject_mem (c : Chip) (v l : Nat) (i : Inj) : (c.engineInject v l i).mem = c.mem := by
  unfold Chip.engineInject
  split
  next d hd => exact Chip.inject_mem hd
  next => rfl

@[simp] theorem Chip.takeHeld_mem (c : Chip) (v l : Nat) : (c.takeHeld v l).mem = c.mem := by
  unfold Chip.takeHeld
  dsimp only
  split
  next => rfl
  next i rest _ =>
    generalize h : Chip.inject _ v l i = d
    cases d with
    | none => rfl
    | some d =>
      have hmem := Chip.inject_mem h
      exact hmem

theorem Chip.injectedValue_mem {c d : Chip} {v l : Nat} {xs : List Int} {i : Inj}
    (h : c.injectedValue v l xs = some (i, d)) : d.mem = c.mem := by
  unfold Chip.injectedValue at h
  split at h
  next =>
    obtain ⟨_, rfl⟩ := Prod.mk.inj (Option.some.inj h)
    simp [apply_ite Chip.mem]
  next => cases h

@[simp] theorem Chip.wConvSeq_mem (c : Chip) (v l e : Nat) (x : Word) : (c.wConvSeq v l e x).2.mem = c.mem := by
  unfold Chip.wConvSeq
  repeat' split
  all_goals simp [apply_ite Chip.mem]
@[simp] theorem Chip.wConvTrig_mem (c : Chip) (v k : Nat) (x : Word) : (c.wConvTrig v k x).2.mem = c.mem := by
  unfold Chip.wConvTrig
  dsimp only
  repeat' split
  all_goals simp
@[simp] theorem Chip.goTable_mem (c : Chip) (v l : Nat) : (c.goTable v l).mem = c.mem := by
  simp [Chip.goTable, apply_ite Chip.mem]
@[simp] theorem Chip.haltTable_mem (c : Chip) (v l : Nat) : (c.haltTable v l).mem = c.mem := by
  unfold Chip.haltTable
  dsimp only
  repeat' split
  all_goals simp
@[simp] theorem Chip.wConvCtl_mem (c : Chip) (v l : Nat) (x : Word) : (c.wConvCtl v l x).2.mem = c.mem := by
  simp [Chip.wConvCtl, apply_ite Chip.mem]
@[simp] theorem Chip.wTrkClr_mem (c : Chip) (v l : Nat) (x : Word) : (c.wTrkClr v l x).2.mem = c.mem := by
  simp [Chip.wTrkClr, apply_ite Chip.mem]
@[simp] theorem Chip.wHkTrkClr_mem (c : Chip) (k : Nat) (x : Word) : (c.wHkTrkClr k x).2.mem = c.mem := by
  simp [Chip.wHkTrkClr, apply_ite Chip.mem]
@[simp] theorem Chip.wConvInj_mem (c : Chip) (v l : Nat) (x : Word) : (c.wConvInj v l x).2.mem = c.mem := by
  unfold Chip.wConvInj
  split
  next => rfl
  next =>
    split
    next d hd => exact Chip.inject_mem hd
    next => simp

@[simp] theorem Chip.wHkSeq_mem (c : Chip) (e : Nat) (x : Word) : (c.wHkSeq e x).2.mem = c.mem := by
  unfold Chip.wHkSeq
  dsimp only
  split
  next => rfl
  next =>
    dsimp only
    rw [Chip.foldl_mem]
    · simp [apply_ite Chip.mem]
    · intros; rfl

@[simp] theorem Chip.hkOutput_mem (c : Chip) (e prev : Nat) (s : Option HkSample) :
    (c.hkOutput e prev s).mem = c.mem := by
  unfold Chip.hkOutput
  repeat' split
  all_goals simp [apply_ite Chip.mem]
@[simp] theorem Chip.hkConverter_mem (c : Chip) (conv : Nat) (ss : List HkSample) :
    (c.hkConverter conv ss).mem = c.mem := by
  unfold Chip.hkConverter
  exact List.foldlRecOn (motive := fun p : Chip × Nat => p.1.mem = c.mem) _ _ rfl fun p hp e _ =>
    (Chip.hkOutput_mem ..).trans hp

@[simp] theorem Chip.hkRound_mem (c : Chip) (ss : List HkSample) :
    (c.hkRound ss).mem = c.mem := by simp [Chip.hkRound]
@[simp] theorem Chip.measureInput_mem (c : Chip) : c.measureInput.mem = c.mem := by simp [Chip.measureInput]
@[simp] theorem Chip.installHk_mem (c : Chip) : c.installHk.mem = c.mem := by
  unfold Chip.installHk
  dsimp only
  rw [Chip.foldl_mem, Chip.foldl_mem, Chip.foldl_mem]
  · intros; rfl
  · intros; exact Chip.foldl_mem _ _ _ fun _ _ => rfl
  · intros; rfl

@[simp] theorem Chip.senseRail_mem (c : Chip) (j : Nat) : (c.senseRail j).mem = c.mem := by
  simp [Chip.senseRail, apply_ite Chip.mem]
@[simp] theorem Chip.senseCoolant_mem (c : Chip) : c.senseCoolant.mem = c.mem := by
  simp [Chip.senseCoolant, apply_ite Chip.mem]
@[simp] theorem Chip.forecast_mem (c : Chip) : c.forecast.mem = c.mem := by
  unfold Chip.forecast
  dsimp only
  rw [Chip.foldl_mem, Chip.setF_mem]
  intros
  rfl

@[simp] theorem Chip.grantForecast_mem (c : Chip) (g step : Nat) :
    (c.grantForecast g step).mem = c.mem := by simp [Chip.grantForecast]
@[simp] theorem Chip.advanceNodes_mem (c : Chip) : c.advanceNodes.mem = c.mem := by
  unfold Chip.advanceNodes
  dsimp only
  rw [Chip.foldl_mem, Chip.setF_mem]
  intros
  exact Chip.foldl_mem _ _ _ fun _ _ => rfl

@[simp] theorem Chip.settleShed_mem (c : Chip) (g : Nat) : (c.settleShed g).mem = c.mem := by simp [Chip.settleShed]
@[simp] theorem Chip.throttleRound_mem (c : Chip) : c.throttleRound.mem = c.mem := by
  simp [Chip.throttleRound, apply_ite Chip.mem]
@[simp] theorem Chip.lantRecord_mem (c : Chip) (cause : Nat) (running : Bool) :
    (c.lantRecord cause running).mem = c.mem := by
  unfold Chip.lantRecord
  repeat' split
  all_goals simp
@[simp] theorem Chip.launch_mem (c : Chip) (t : Nat) (e : LaunchEntry) : (c.launch t e).mem = c.mem := by
  unfold Chip.launch
  repeat' split
  all_goals simp [apply_ite Chip.mem]
@[simp] theorem Chip.launchAll_mem (c : Chip) (trigger : Nat) : (c.launchAll trigger).mem = c.mem := by
  simp [Chip.launchAll, apply_ite Chip.mem]
@[simp] theorem Chip.wakeTicks_mem (c : Chip) (frame : Bool) : (c.wakeTicks frame).mem = c.mem := by
  refine Chip.foldl_mem _ _ _ fun c p => Chip.foldl_mem _ _ _ fun c h => ?_
  dsimp only
  split
  · rfl
  · split <;> simp
  · rfl

@[simp] theorem Chip.frameBoundary_mem (c : Chip) : c.frameBoundary.mem = c.mem := by simp [Chip.frameBoundary]
@[simp] theorem Chip.applyFrameLen_mem (c : Chip) (old : Nat) : (c.applyFrameLen old).mem = c.mem := by
  simp [Chip.applyFrameLen, apply_ite Chip.mem]
@[simp] theorem Chip.setNumerology_mem (c : Chip) (n : Nat) :
    (c.setNumerology n).mem = c.mem := by simp [Chip.setNumerology]
@[simp] theorem Chip.startSlot_mem (c : Chip) : c.startSlot.mem = c.mem := by simp [Chip.startSlot]
@[simp] theorem Chip.freeTick_mem (c : Chip) : c.freeTick.mem = c.mem := by
  simp [Chip.freeTick, apply_ite Chip.mem]
@[simp] theorem Chip.ppsEdge_mem (c : Chip) (t : Nat) : (c.ppsEdge t).mem = c.mem := by
  simp [Chip.ppsEdge, apply_ite Chip.mem]
@[simp] theorem Chip.setSync_mem (c : Chip) (st : Nat) : (c.setSync st).mem = c.mem := by
  simp [Chip.setSync, apply_ite Chip.mem]
@[simp] theorem Chip.passSync_mem (c : Chip) (old new : Nat) : (c.passSync old new).mem = c.mem := by
  simp [Chip.passSync, apply_ite Chip.mem]
@[simp] theorem Chip.wFhCfg_mem (c : Chip) (x : Word) : (c.wFhCfg x).2.mem = c.mem := by
  unfold Chip.wFhCfg
  dsimp only
  repeat' split
  all_goals simp
@[simp] theorem Chip.wFhOffset_mem (c : Chip) (x : Word) : (c.wFhOffset x).2.mem = c.mem := by
  unfold Chip.wFhOffset
  dsimp only
  repeat' split
  all_goals simp
@[simp] theorem Chip.wFhWin_mem (c : Chip) (x : Word) : (c.wFhWin x).2.mem = c.mem := by
  unfold Chip.wFhWin
  dsimp only
  repeat' split
  all_goals simp
@[simp] theorem Chip.wFhSfnSet_mem (c : Chip) (x : Word) : (c.wFhSfnSet x).2.mem = c.mem := by
  unfold Chip.wFhSfnSet
  repeat' split
  all_goals simp
@[simp] theorem Chip.wFhEaxc_mem (c : Chip) (k : Nat) (x0 x1 : Word) : (c.wFhEaxc k x0 x1).2.mem = c.mem := by
  unfold Chip.wFhEaxc
  dsimp only
  repeat' split
  all_goals simp
@[simp] theorem Chip.wFrameCfg_mem (c : Chip) (x : Word) : (c.wFrameCfg x).2.mem = c.mem := by
  unfold Chip.wFrameCfg
  dsimp only
  repeat' split
  all_goals simp
@[simp] theorem Chip.wPitch_mem (c : Chip) (t cl : Nat) (x : Word) : (c.wPitch t cl x).2.mem = c.mem := by
  unfold Chip.wPitch
  repeat' split
  all_goals simp
@[simp] theorem Chip.setBudget_mem (c : Chip) (n : Nat) : (c.setBudget n).2.mem = c.mem := by
  unfold Chip.setBudget
  repeat' split
  all_goals simp
@[simp] theorem Chip.wGroupCfg_mem (c : Chip) (g : Nat) (x : Word) : (c.wGroupCfg g x).2.mem = c.mem := by
  unfold Chip.wGroupCfg
  dsimp only
  repeat' split
  all_goals simp
@[simp] theorem Chip.mpPwrBudget_mem (c : Chip) (m : Cmd) : (c.mpPwrBudget m).mem = c.mem := by
  simp [Chip.mpPwrBudget, apply_ite Chip.mem]
@[simp] theorem Chip.leaseRequest_mem (c : Chip) (g : Gate) (t qty : Nat) : (c.leaseRequest g t qty).mem = c.mem := by
  unfold Chip.leaseRequest
  cases h : c.requestLease g t qty with
  | none => rfl
  | some d => exact Chip.requestLease_mem h

@[simp] theorem Chip.rampRefill_mem (c : Chip) (g us : Nat) : (c.rampRefill g us).mem = c.mem := by
  simp [Chip.rampRefill, apply_ite Chip.mem]
@[simp] theorem Chip.creditRelease_mem (c : Chip) (a : Asker) : (c.creditRelease a).mem = c.mem := by
  unfold Chip.creditRelease
  repeat' split
  all_goals simp [apply_ite Chip.mem]
@[simp] theorem Chip.deglitchRelease_mem (c : Chip) (v n : Nat) : (c.deglitchRelease v n).mem = c.mem := by
  simp [Chip.deglitchRelease, apply_ite Chip.mem]
@[simp] theorem Chip.toneCycle_mem (c : Chip) (v t : Nat) : (c.toneCycle v t).mem = c.mem := by
  simp [Chip.toneCycle, apply_ite Chip.mem]
@[simp] theorem Chip.loadGuySeeds_mem (c : Chip) : c.loadGuySeeds.mem = c.mem := by
  simp [Chip.loadGuySeeds, apply_ite Chip.mem]
@[simp] theorem Chip.sampleCycle_mem (c : Chip) : c.sampleCycle.mem = c.mem := by simp [Chip.sampleCycle]
@[simp] theorem Chip.wDrvCh_mem (c : Chip) (v n : Nat) (x : Word) : (c.wDrvCh v n x).2.mem = c.mem := by
  unfold Chip.wDrvCh
  repeat' split
  all_goals simp
@[simp] theorem Chip.wDrvDaleCfg_mem (c : Chip) (v d : Nat) (x : Word) : (c.wDrvDaleCfg v d x).2.mem = c.mem := by
  unfold Chip.wDrvDaleCfg
  dsimp only
  repeat' split
  all_goals simp
@[simp] theorem Chip.wDrvPair_mem (c : Chip) (v : Nat) (x : Word) :
    (c.wDrvPair v x).2.mem = c.mem := by simp [Chip.wDrvPair]
@[simp] theorem Chip.wToneFcw_mem (c : Chip) (v t : Nat) (x : Word) : (c.wToneFcw v t x).2.mem = c.mem := by
  unfold Chip.wToneFcw
  dsimp only
  repeat' split
  all_goals simp
@[simp] theorem Chip.wToneCtl_mem (c : Chip) (v t : Nat) (x : Word) : (c.wToneCtl v t x).2.mem = c.mem := by
  simp [Chip.wToneCtl, apply_ite Chip.mem]
@[simp] theorem Chip.wDrvBank_mem (c : Chip) (v b : Nat) (x : Word) : (c.wDrvBank v b x).2.mem = c.mem := by
  unfold Chip.wDrvBank
  dsimp only
  repeat' split
  all_goals simp
@[simp] theorem Chip.wDrvXt_mem (c : Chip) (v d k : Nat) (x : Word) : (c.wDrvXt v d k x).2.mem = c.mem := by
  unfold Chip.wDrvXt
  dsimp only
  repeat' split
  all_goals simp
@[simp] theorem Chip.clampAll_mem (c : Chip) : c.clampAll.mem = c.mem := by
  simp [Chip.clampAll]
@[simp] theorem Chip.mpDrvCh_mem (c : Chip) (m : Cmd) : (c.mpDrvCh m).mem = c.mem := by
  simp [Chip.mpDrvCh, apply_ite Chip.mem]
@[simp] theorem Chip.mpDrvXt_mem (c : Chip) (m : Cmd) : (c.mpDrvXt m).mem = c.mem := by
  simp [Chip.mpDrvXt, apply_ite Chip.mem]
@[simp] theorem Chip.injection_mem (c : Chip) (v n : Nat) : (c.injection v n).2.2.mem = c.mem := by
  unfold Chip.injection
  dsimp only
  repeat' split
  all_goals simp
@[simp] theorem Chip.advanceForecast_mem (c : Chip) (v n : Nat) (e : LoopE) :
    (c.advanceForecast v n e).mem = c.mem := by
  simp [Chip.advanceForecast, apply_ite Chip.mem]
@[simp] theorem Chip.acqFail_mem (c : Chip) (v n : Nat) : (c.acqFail v n).mem = c.mem := by simp [Chip.acqFail]
@[simp] theorem Chip.sweepFail_mem (c : Chip) (v n : Nat) : (c.sweepFail v n).mem = c.mem := by
  unfold Chip.sweepFail
  dsimp only
  rw [Chip.acqFail_mem]
  split
  · exact Chip.foldl_mem _ _ _ fun _ _ => rfl
  · rfl

@[simp] theorem Chip.recordLine_mem (c : Chip) (v n b line p : Nat) :
    (c.recordLine v n b line p).mem = c.mem := by simp [Chip.recordLine]
@[simp] theorem Chip.passband_mem (c : Chip) (v n b p : Nat) (level : Int) :
    (c.passband v n b p level).mem = c.mem := by
  unfold Chip.passband
  dsimp only
  repeat' split
  all_goals simp
@[simp] theorem Chip.sweepUp_mem (c : Chip) (v n p : Nat) : (c.sweepUp v n p).mem = c.mem := by
  simp [Chip.sweepUp, apply_ite Chip.mem]
@[simp] theorem Chip.askConversion_mem (c : Chip) (v n : Nat) (e : LoopE) : (c.askConversion v n e).mem = c.mem := by
  simp [Chip.askConversion, apply_ite Chip.mem]
@[simp] theorem Chip.searchTick_mem (c : Chip) (v n : Nat) (m : Int) : (c.searchTick v n m).mem = c.mem := by
  unfold Chip.searchTick
  dsimp only
  repeat' split
  all_goals simp
@[simp] theorem Chip.showInteg_mem (c : Chip) (v n : Nat) : (c.showInteg v n).mem = c.mem := by simp [Chip.showInteg]
@[simp] theorem Chip.runLaw_mem (c : Chip) (v n : Nat) (err ff pLast : Int) :
    (c.runLaw v n err ff pLast).2.mem = c.mem := by
  unfold Chip.runLaw
  dsimp only
  repeat' split
  all_goals simp
@[simp] theorem Chip.clampSat_mem (c : Chip) (v n : Nat) (u : Dy) (err : Int) :
    (c.clampSat v n u err).2.mem = c.mem := by
  unfold Chip.clampSat
  dsimp only
  repeat' split
  all_goals simp
@[simp] theorem Chip.lockTick_mem (c : Chip) (v n st : Nat) (err : Int) : (c.lockTick v n st err).mem = c.mem := by
  simp [Chip.lockTick, apply_ite Chip.mem]
@[simp] theorem Chip.flankTick_mem (c : Chip) (v n : Nat) (m : Int) : (c.flankTick v n m).mem = c.mem := by
  simp [Chip.flankTick, apply_ite Chip.mem]
@[simp] theorem Chip.modeOne_mem (c : Chip) (v n : Nat) : (c.modeOne v n).mem = c.mem := by simp [Chip.modeOne]
@[simp] theorem Chip.requestMode_mem (c : Chip) (v n : Nat) : (c.requestMode v n).mem = c.mem := by
  simp [Chip.requestMode, apply_ite Chip.mem]
@[simp] theorem Chip.assignDacs_mem (c : Chip) (v : Nat) (e : LoopE) (on : Bool) :
    (c.assignDacs v e on).mem = c.mem := by
  unfold Chip.assignDacs
  exact Chip.foldl_mem _ _ _ fun _ _ => rfl

@[simp] theorem Chip.freeLoop_mem (c : Chip) (v n : Nat) : (c.freeLoop v n).mem = c.mem := by simp [Chip.freeLoop]
@[simp] theorem Chip.startLoop_mem (c : Chip) (v n : Nat) (ws : List Word) : (c.startLoop v n ws).mem = c.mem := by
  unfold Chip.startLoop
  dsimp only
  repeat' split
  all_goals simp
@[simp] theorem Chip.takeEntry_mem (c : Chip) (v n : Nat) : (c.takeEntry v n).mem = c.mem := by
  simp [Chip.takeEntry, apply_ite Chip.mem]
@[simp] theorem Chip.swapCoefs_mem (c : Chip) (v n : Nat) (err : Int) : (c.swapCoefs v n err).mem = c.mem := by
  simp [Chip.swapCoefs, apply_ite Chip.mem]
@[simp] theorem Chip.stateTick_mem (c : Chip) (v n : Nat) (m err inj : Int) :
    (c.stateTick v n m err inj).mem = c.mem := by
  unfold Chip.stateTick
  repeat' split
  all_goals simp [apply_ite Chip.mem]
@[simp] theorem Chip.staleTick_mem (c : Chip) (v n : Nat) : (c.staleTick v n).mem = c.mem := by
  simp [Chip.staleTick, apply_ite Chip.mem]
@[simp] theorem Chip.lineStepEnd_mem (c : Chip) (v b : Nat) : (c.lineStepEnd v b).mem = c.mem := by
  simp [Chip.lineStepEnd, apply_ite Chip.mem]
@[simp] theorem Chip.freezeVale_mem (c : Chip) (v : Nat) : (c.freezeVale v).mem = c.mem := by
  simp [Chip.freezeVale, apply_ite Chip.mem]
@[simp] theorem Chip.thawVale_mem (c : Chip) (v : Nat) : (c.thawVale v).mem = c.mem := by
  unfold Chip.thawVale
  refine Chip.foldl_mem _ _ _ fun c n => ?_
  dsimp only
  repeat' split
  all_goals simp

@[simp] theorem Chip.importLines_mem (c : Chip) (v : Nat) : (c.importLines v).mem = c.mem := by
  simp [Chip.importLines, apply_ite Chip.mem]
@[simp] theorem Chip.showLoad_mem (c : Chip) (v : Nat) : (c.showLoad v).mem = c.mem := by simp [Chip.showLoad]
@[simp] theorem Chip.wGuyLoop_mem (c : Chip) (v n : Nat) (ws : List Word) : (c.wGuyLoop v n ws).2.mem = c.mem := by
  unfold Chip.wGuyLoop
  repeat' split
  all_goals simp
@[simp] theorem Chip.wGuyCoef_mem (c : Chip) (v n k : Nat) (ws : List Word) :
    (c.wGuyCoef v n k ws).2.mem = c.mem := by
  unfold Chip.wGuyCoef
  dsimp only
  repeat' split
  all_goals simp
@[simp] theorem Chip.wSeedHi_mem (c : Chip) (v : Nat) (x : Word) :
    (c.wSeedHi v x).2.mem = c.mem := by simp [Chip.wSeedHi]
@[simp] theorem Chip.wTestAmp_mem (c : Chip) (v : Nat) (x : Word) : (c.wTestAmp v x).2.mem = c.mem := by
  unfold Chip.wTestAmp
  dsimp only
  repeat' split
  all_goals simp
@[simp] theorem Chip.wTestFreq_mem (c : Chip) (v : Nat) (x : Word) : (c.wTestFreq v x).2.mem = c.mem := by
  unfold Chip.wTestFreq
  dsimp only
  repeat' split
  all_goals simp
@[simp] theorem Chip.testGo_mem (c : Chip) (v : Nat) : (c.testGo v).2.mem = c.mem := by
  unfold Chip.testGo
  repeat' split
  all_goals simp
@[simp] theorem Chip.wTestCtl_mem (c : Chip) (v : Nat) (x : Word) : (c.wTestCtl v x).2.mem = c.mem := by
  unfold Chip.wTestCtl
  dsimp only
  repeat' split
  all_goals simp
@[simp] theorem Chip.captureGo_mem (c : Chip) (v : Nat) : (c.captureGo v).2.mem = c.mem := by
  unfold Chip.captureGo
  repeat' split
  all_goals simp
@[simp] theorem Chip.wCapCtl_mem (c : Chip) (v : Nat) (x : Word) : (c.wCapCtl v x).2.mem = c.mem := by
  unfold Chip.wCapCtl
  dsimp only
  repeat' split
  all_goals simp
/-- One loop of the standard set takes its entry. -/
theorem Chip.stdLoop_mem (c : Chip) (v n : Nat) (ws : List Word) :
    (let e := LoopE.ofWords ws
    let c := (c.putWords .guyLoop [v, n] ws).assignDacs v e true
    let c := c.putWords .guyLstate [v, n] [0, 0, 0, 0]
    let c := c.setLoop v n { entry := ws }
    if e.mode = 3 then c.setF Fld.guyLstate_state [v, n] 5 else c.startSearch v n 4).mem = c.mem := by
  dsimp only
  split <;> simp

@[simp] theorem Chip.installStd_mem (c : Chip) (v : Nat) : (c.installStd v).mem = c.mem := by
  unfold Chip.installStd
  extract_lets c1 c2
  have h1 : c1.mem = c.mem := Chip.foldl_mem _ _ _ fun d n => Chip.freeLoop_mem d v n
  have h2 : c2.mem = c1.mem := Chip.foldl_mem _ _ _ fun d n => Chip.putWords_mem d ..
  clear_value c1 c2
  rw [Chip.showLoad_mem, Chip.foldl_mem, h2, h1]
  exact fun d n => Chip.stdLoop_mem d v n (stdEntry n)

@[simp] theorem Chip.acqTimeout_mem (c : Chip) (v n : Nat) : (c.acqTimeout v n).mem = c.mem := by
  simp [Chip.acqTimeout, apply_ite Chip.mem]
@[simp] theorem Chip.testEnd_mem (c : Chip) (v : Nat) : (c.testEnd v).mem = c.mem := by
  simp [Chip.testEnd, apply_ite Chip.mem]
@[simp] theorem Chip.mpGuyLoop_mem (c : Chip) (m : Cmd) : (c.mpGuyLoop m).mem = c.mem := by
  simp [Chip.mpGuyLoop, apply_ite Chip.mem]
@[simp] theorem Chip.mpGuyCoef_mem (c : Chip) (m : Cmd) : (c.mpGuyCoef m).mem = c.mem := by
  simp [Chip.mpGuyCoef, apply_ite Chip.mem]
@[simp] theorem Chip.mpGuyStd_mem (c : Chip) (m : Cmd) : (c.mpGuyStd m).mem = c.mem := by
  simp [Chip.mpGuyStd, apply_ite Chip.mem]
@[simp] theorem Chip.stopThreads_mem (c : Chip) (which : Nat → Bool) :
    (c.stopThreads which).mem = c.mem := by simp [Chip.stopThreads]
@[simp] theorem Chip.failLoads_mem (c : Chip) (status : Nat) (which : Nat × Nat → Bool) :
    (c.failLoads status which).mem = c.mem := by
  simp [Chip.failLoads, apply_ite Chip.mem]
@[simp] theorem Chip.stopRefresh_mem (c : Chip) (n : Nat) : (c.stopRefresh n).mem = c.mem := by
  unfold Chip.stopRefresh
  repeat' split
  all_goals simp
@[simp] theorem Chip.groupToFloor_mem (c : Chip) (g : Nat) : (c.groupToFloor g).mem = c.mem := by
  simp [Chip.groupToFloor, apply_ite Chip.mem]
@[simp] theorem Chip.darkenVale_mem (c : Chip) (v : Nat) : (c.darkenVale v).mem = c.mem := by
  simp [Chip.darkenVale, apply_ite Chip.mem]
@[simp] theorem Chip.dropTile_mem (c : Chip) (k : Nat) : (c.dropTile k).mem = c.mem := by simp [Chip.dropTile]
@[simp] theorem Chip.mpThermalRelease_mem (c : Chip) (m : Cmd) : (c.mpThermalRelease m).mem = c.mem := by
  simp [Chip.mpThermalRelease, apply_ite Chip.mem]
@[simp] theorem Chip.mpThmRecord_mem (c : Chip) (m : Cmd) : (c.mpThmRecord m).mem = c.mem := by
  simp [Chip.mpThmRecord, apply_ite Chip.mem]
@[simp] theorem Chip.lantTick_mem (c : Chip) : c.lantTick.mem = c.mem := by
  simp [Chip.lantTick, apply_ite Chip.mem]
@[simp] theorem Chip.wLantSec_mem (c : Chip) (x : Word) : (c.wLantSec x).2.mem = c.mem := by simp [Chip.wLantSec]
@[simp] theorem Chip.setLink_mem (c : Chip) (l : Link) : (c.setLink l).mem = c.mem := by simp [Chip.setLink]
@[simp] theorem Chip.sendFlit_mem (c : Chip) (f : Flit) : (c.sendFlit f).mem = c.mem := by simp [Chip.sendFlit]
@[simp] theorem Chip.sendRetry_mem (c : Chip) : c.sendRetry.mem = c.mem := by simp [Chip.sendRetry]
@[simp] theorem Chip.retrain_mem (c : Chip) : c.retrain.mem = c.mem := by
  simp [Chip.retrain, apply_ite Chip.mem]
@[simp] theorem Chip.linkDown_mem (c : Chip) : c.linkDown.mem = c.mem := by simp [Chip.linkDown]
@[simp] theorem Chip.resend_mem (c : Chip) : c.resend.mem = c.mem := by
  simp [Chip.resend, apply_ite Chip.mem]
@[simp] theorem Chip.refuseLong_mem (c : Chip) (p : List Byte) : (c.refuseLong p).mem = c.mem := by
  simp [Chip.refuseLong, apply_ite Chip.mem]
@[simp] theorem Chip.takePayload_mem (c : Chip) (f : Flit) : (c.takePayload f).mem = c.mem := by
  simp [Chip.takePayload, apply_ite Chip.mem]
@[simp] theorem Chip.flit_mem (c : Chip) (bytes : List Byte) : (c.flit bytes).mem = c.mem := by
  unfold Chip.flit
  repeat' split
  all_goals simp [apply_ite Chip.mem]
theorem Chip.whenUp_mem (c : Chip) (f : Chip → Chip) (h : (f c).mem = c.mem) : (c.whenUp f).mem = c.mem := by
  unfold Chip.whenUp
  split
  · exact h
  · rfl

@[simp] theorem Chip.linkUp_mem (c : Chip) (bytes : List Byte) : (c.linkUp bytes).mem = c.mem := by
  unfold Chip.linkUp
  repeat' split
  all_goals simp
@[simp] theorem Chip.showFw_mem (c : Chip) : c.showFw.mem = c.mem := by simp [Chip.showFw]
@[simp] theorem Chip.mpFwLoad_mem (c : Chip) (m : Cmd) : (c.mpFwLoad m).mem = c.mem := by
  unfold Chip.mpFwLoad
  dsimp only
  repeat' split
  all_goals simp
@[simp] theorem Chip.settleSwitch_mem (c : Chip) : c.settleSwitch.mem = c.mem := by
  unfold Chip.settleSwitch
  repeat' split
  all_goals simp
@[simp] theorem Chip.mpFwSwitch_mem (c : Chip) (m : Cmd) : (c.mpFwSwitch m).mem = c.mem := by
  simp [Chip.mpFwSwitch, apply_ite Chip.mem]
@[simp] theorem Chip.trialEnd_mem (c : Chip) : c.trialEnd.mem = c.mem := by
  unfold Chip.trialEnd
  repeat' split
  all_goals simp
@[simp] theorem Chip.overload_mem (c : Chip) (x : MpItem) : (c.overload x).mem = c.mem := by
  unfold Chip.overload
  dsimp only
  repeat' split
  all_goals simp
@[simp] theorem Chip.watchdog_mem (c : Chip) : c.watchdog.mem = c.mem := by
  unfold Chip.watchdog
  dsimp only
  repeat' split
  all_goals simp
@[simp] theorem Chip.mpSysInfo_mem (c : Chip) (m : Cmd) : (c.mpSysInfo m).mem = c.mem := by
  simp [Chip.mpSysInfo, apply_ite Chip.mem]
@[simp] theorem Chip.hwSysEcho_mem (c : Chip) (m : Cmd) : (c.hwSysEcho m).mem = c.mem := by simp [Chip.hwSysEcho]
@[simp] theorem Chip.unassigned_mem (c : Chip) (op : Nat) (m : Cmd) : (c.unassigned op m).mem = c.mem := by
  simp [Chip.unassigned, apply_ite Chip.mem]
@[simp] theorem Chip.showKey_mem (c : Chip) (t k : Nat) : (c.showKey t k).mem = c.mem := by
  simp [Chip.showKey, apply_ite Chip.mem]
@[simp] theorem Chip.mpKeyInstall_mem (c : Chip) (m : Cmd) : (c.mpKeyInstall m).mem = c.mem := by
  simp [Chip.mpKeyInstall, apply_ite Chip.mem]
@[simp] theorem Chip.mpKeyRemove_mem (c : Chip) (m : Cmd) : (c.mpKeyRemove m).mem = c.mem := by
  simp [Chip.mpKeyRemove, apply_ite Chip.mem]
@[simp] theorem Chip.storeUpdate_mem (c : Chip) : c.storeUpdate.mem = c.mem := by
  simp [Chip.storeUpdate, apply_ite Chip.mem]
@[simp] theorem Chip.startUp_mem (c : Chip) : c.startUp.mem = c.mem := by
  unfold Chip.startUp
  extract_lets c1
  have h1 : c1.mem = c.mem := Chip.foldl_mem _ _ _ fun d k => Chip.put_mem d ..
  clear_value c1
  exact h1

@[simp] theorem Chip.tryStart_mem (c : Chip) : c.tryStart.mem = c.mem := by
  simp [Chip.tryStart, apply_ite Chip.mem]
@[simp] theorem Chip.pins_mem (c : Chip) (wake ten : Bool) : (c.pins wake ten).mem = c.mem := by simp [Chip.pins]
@[simp] theorem Chip.wakeRequest_mem (c : Chip) (asks ten : Bool) : (c.wakeRequest asks ten).mem = c.mem := by
  simp [Chip.wakeRequest, apply_ite Chip.mem]
@[simp] theorem Chip.lanternUp_mem (c : Chip) (backup : Bool) : (c.lanternUp backup).mem = c.mem := by
  simp [Chip.lanternUp, apply_ite Chip.mem]
@[simp] theorem Chip.giveFloors_mem (c : Chip) (which : Nat → Bool) : (c.giveFloors which).mem = c.mem := by
  unfold Chip.giveFloors
  exact Chip.foldl_mem _ _ _ fun _ _ => rfl

@[simp] theorem Chip.loadStore_mem (c : Chip) : c.loadStore.mem = c.mem := by
  unfold Chip.loadStore
  dsimp only
  rw [Chip.foldl_mem, Chip.foldl_mem, Chip.foldl_mem, Chip.foldl_mem]
  · intro c p
    split <;> rfl
  · intro c p
    split <;> rfl
  · intros
    rfl
  · intros
    simp

@[simp] theorem Chip.bootUp_mem (c : Chip) : c.bootUp.mem = c.mem := by
  unfold Chip.bootUp
  dsimp only
  split
  · rfl
  · split
    · simp [apply_ite Chip.mem]
    · rw [Chip.foldl_mem _ _ _ Chip.installStd_mem, Chip.giveFloors_mem, Chip.installHk_mem, Chip.loadStore_mem,
        Chip.foldl_mem]
      · simp [apply_ite Chip.mem]
      · intros
        rfl

@[simp] theorem Chip.fingerAgain_mem (c : Chip) (i : Nat) (noise : List Int) :
    (c.fingerAgain i noise).2.mem = c.mem := by
  unfold Chip.fingerAgain
  extract_lets a r
  have hr : r.2.2.mem = c.mem := by
    refine List.foldlRecOn (motive := fun r : Bool × List Int × Chip => r.2.2.mem = c.mem) _ _ rfl ?_
    intro r hr p _
    show (r.2.2.fingerRun i (fingerVector p.1) p.2.1 a.tol p.2.2 r.2.1).2.2.mem = c.mem
    rw [Chip.fingerRun_mem, hr]
  clear_value r
  exact hr

@[simp] theorem Chip.showSlot_mem (c : Chip) (t k : Nat) (x : SlotItem) (state status : Nat) :
    (c.showSlot t k x state status).mem = c.mem := by simp [Chip.showSlot]
@[simp] theorem Chip.loseSet_mem (c : Chip) (t k : Nat) (x : SlotItem) : (c.loseSet t k x).mem = c.mem := by
  simp [Chip.loseSet, apply_ite Chip.mem]
@[simp] theorem Chip.setDrain_mem (c : Chip) (u n : Nat) (d : Drain) :
    (c.setDrain u n d).mem = c.mem := by simp [Chip.setDrain]
@[simp] theorem Chip.moveSites_mem (c : Chip) (n old new : Nat) : (c.moveSites n old new).mem = c.mem := by
  simp [Chip.moveSites, apply_ite Chip.mem]
@[simp] theorem Chip.resumeUnit_mem (c : Chip) (u n : Nat) : (c.resumeUnit u n).mem = c.mem := by
  simp [Chip.resumeUnit, apply_ite Chip.mem]
@[simp] theorem Chip.mpResume_mem (c : Chip) (m : Cmd) : (c.mpResume m).mem = c.mem := by
  unfold Chip.mpResume
  dsimp only
  repeat' split
  all_goals simp
@[simp] theorem Chip.setValeCal_mem (c : Chip) (v : Nat) (x : ValeCal) :
    (c.setValeCal v x).mem = c.mem := by simp [Chip.setValeCal]
@[simp] theorem Chip.calRound_mem (c : Chip) (v : Nat) (num : Int) (den : Nat) :
    (c.calRound v num den).2.mem = c.mem := by simp [Chip.calRound]
@[simp] theorem Chip.selectUnits_mem (c : Chip) (v dac : Nat) (xs : List Nat) :
    (c.selectUnits v dac xs).2.mem = c.mem := by
  unfold Chip.selectUnits
  repeat' split
  all_goals simp
@[simp] theorem Chip.setMapValue_mem (c : Chip) (k e w n : Nat) :
    (c.setMapValue k e w n).mem = c.mem := by simp [Chip.setMapValue]
@[simp] theorem Chip.referPhase_mem (c : Chip) (v : Nat) (p0 : Int) (e1 : Nat) (phi : Int) :
    (c.referPhase v p0 e1 phi).2.mem = c.mem := by
  simp [Chip.referPhase]
@[simp] theorem Chip.setFolded_mem (c : Chip) (k e : Nat) (phi : Int) :
    (c.setFolded k e phi).mem = c.mem := by simp [Chip.setFolded]
@[simp] theorem Chip.referCell_mem (c : Chip) (k col j r : Nat) :
    (c.referCell k col j r).mem = c.mem := by simp [Chip.referCell]
@[simp] theorem Chip.referCols_mem (c : Chip) (k : Nat) (xs : List (Nat × Nat)) :
    (c.referCols k xs).mem = c.mem := by simp [Chip.referCols]
@[simp] theorem Chip.mapImported_mem (c : Chip) (k : Nat) :
    (c.mapImported k).mem = c.mem := by simp [Chip.mapImported]
@[simp] theorem Chip.commitCell_mem (c : Chip) (k j r : Nat) (ma mb : CellMeas) :
    (c.commitCell k j r ma mb).2.mem = c.mem := by
  unfold Chip.commitCell
  dsimp only
  repeat' split
  all_goals simp
@[simp] theorem Chip.stageStep_mem (c : Chip) (k : Nat) : (c.stageStep k).mem = c.mem := by simp [Chip.stageStep]
@[simp] theorem Chip.measureStep_mem (c : Chip) (k : Nat) (m : StepMeas) : (c.measureStep k m).mem = c.mem := by
  unfold Chip.measureStep
  extract_lets v d col j r bad u0 u1 c1 run result c2 c3
  have hr : r.2.mem = c.mem := foldl_mem_of (fun r : Nat × Chip => r.2) _ _ _ fun r _ => Chip.commitCell_mem r.2 ..
  have h1 : c1.mem = c.mem := by
    simp only [c1, u1, u0, apply_ite Chip.mem, Chip.ev_mem, Chip.selectUnits_mem, hr, ite_self]
  rw [Chip.stageStep_mem, Chip.setDale_mem, Chip.put_mem, h1]

@[simp] theorem Chip.compareReceiver_mem (c : Chip) (k j : Nat) (m : StepMeas) :
    (c.compareReceiver k j m).mem = c.mem := by
  simp [Chip.compareReceiver, apply_ite Chip.mem]
@[simp] theorem Chip.cycleEnd_mem (c : Chip) (k : Nat) (m : StepMeas) : (c.cycleEnd k m).mem = c.mem := by
  simp [Chip.cycleEnd, apply_ite Chip.mem]
@[simp] theorem Chip.emptyColumn_mem (c : Chip) (k col : Nat) :
    (c.emptyColumn k col).mem = c.mem := by simp [Chip.emptyColumn]
@[simp] theorem Chip.applyPark_mem (c : Chip) (k park : Nat) : (c.applyPark k park).mem = c.mem := by
  unfold Chip.applyPark
  dsimp only
  repeat' split
  all_goals simp
@[simp] theorem Chip.compareStep_mem (c : Chip) (k : Nat) (m : StepMeas) : (c.compareStep k m).mem = c.mem := by
  unfold Chip.compareStep
  dsimp only
  repeat' split
  all_goals simp
@[simp] theorem Chip.rotationStep_mem (c : Chip) (k : Nat) (m : StepMeas) : (c.rotationStep k m).mem = c.mem := by
  unfold Chip.rotationStep
  dsimp only
  split
  next => rfl
  next =>
    split
    next =>
      split
      next => simp
      next =>
        split
        next => simp
        next d hd => simpa using Chip.spend_mem hd
    next => simp
    next => rfl
    next => split <;> simp

@[simp] theorem Chip.columnStrobe_mem (c : Chip) (k : Nat) : (c.columnStrobe k).mem = c.mem := by
  simp [Chip.columnStrobe, apply_ite Chip.mem]
@[simp] theorem Chip.wParkCol_mem (c : Chip) (k : Nat) (x : Word) : (c.wParkCol k x).2.mem = c.mem := by
  unfold Chip.wParkCol
  dsimp only
  repeat' split
  all_goals simp
@[simp] theorem Chip.triggerTick_mem (c : Chip) (v k : Nat) : (c.triggerTick v k).mem = c.mem := by
  simp [Chip.triggerTick, apply_ite Chip.mem]
@[simp] theorem Chip.injectedOutput_mem (c : Chip) (v l : Nat) (xs : List Int) :
    (c.injectedOutput v l xs).mem = c.mem := by
  unfold Chip.injectedOutput
  split
  next => rfl
  next i d hd => split <;> simpa using Chip.injectedValue_mem hd

@[simp] theorem Chip.mpConvInject_mem (c : Chip) (m : Cmd) : (c.mpConvInject m).mem = c.mem := by
  unfold Chip.mpConvInject
  dsimp only
  split
  next => simp
  next =>
    split
    next => simp
    next d hd => simpa using Chip.inject_mem hd

@[simp] theorem Chip.mpConvTable_mem (c : Chip) (m : Cmd) : (c.mpConvTable m).mem = c.mem := by
  simp [Chip.mpConvTable, apply_ite Chip.mem]
@[simp] theorem Chip.selBegin_mem (c : Chip) (v b : Nat) : (c.selBegin v b).mem = c.mem := by
  unfold Chip.selBegin
  dsimp only
  split
  next => rfl
  next =>
    split
    next => simp
    next d hd =>
      rw [Chip.syncGood_mem, Chip.colourChange_mem, Chip.setF_mem, Chip.setF_mem, Chip.setBank_mem, Chip.foldl_mem,
        Chip.spend_mem hd]
      intro c x
      split <;> simp

@[simp] theorem Chip.selEnd_mem (c : Chip) (v b r1 p1 r2 p2 : Nat) : (c.selEnd v b r1 p1 r2 p2).mem = c.mem := by
  simp [Chip.selEnd, apply_ite Chip.mem]
@[simp] theorem Chip.selectorCal_mem (c : Chip) (v b r1 p1 r2 p2 : Nat) :
    (c.selectorCal v b r1 p1 r2 p2).mem = c.mem := by
  simp [Chip.selectorCal, apply_ite Chip.mem]
@[simp] theorem Chip.adcStep_mem (c : Chip) (v : Nat) : (c.adcStep v).mem = c.mem := by
  unfold Chip.adcStep
  dsimp only
  split
  next => rfl
  next =>
    split
    next => simp
    next d hd => simpa [apply_ite Chip.mem] using Chip.spend_mem hd

@[simp] theorem Chip.adcTrim_mem (c : Chip) (v p g : Nat) (seen : Bool) (zero ref : Int) :
    (c.adcTrim v p g seen zero ref).2.mem = c.mem := by
  unfold Chip.adcTrim
  dsimp only
  repeat' split
  all_goals simp
@[simp] theorem Chip.judgeAdc_mem (c : Chip) (v p : Nat) (xs : List Int) : (c.judgeAdc v p xs).mem = c.mem := by
  unfold Chip.judgeAdc
  extract_lets src vc seen r ts c1 c2 d2 n c3
  have h1 : c1.mem = c.mem :=
    foldl_mem_of (fun r : List (Int × Nat) × Chip => r.2) _ _ _ fun r _ => Chip.adcTrim_mem r.2 ..
  have h2 : c2.mem = c1.mem := Chip.foldl_mem _ _ _ fun d q => Chip.put_mem d ..
  have h3 : c3.mem = c1.mem := by rw [Chip.ev_mem, Chip.setValeCal_mem]
  clear_value r c1 c2 c3
  split
  · rw [Chip.put_mem, Chip.count_mem, Chip.setValeCal_mem, h2, h1]
  · split
    · rw [Chip.setF_mem, h3, h1]
    · rw [h3, h1]

@[simp] theorem Chip.calConvEnd_mem (c : Chip) (v l : Nat) (samples : List Int) :
    (c.calConvEnd v l samples).mem = c.mem := by
  unfold Chip.calConvEnd
  dsimp only
  repeat' split
  all_goals simp
@[simp] theorem Chip.putKernels_mem (c : Chip) (v d : Nat) (k : List Int) : (c.putKernels v d k).mem = c.mem := by
  unfold Chip.putKernels
  exact Chip.foldl_mem _ _ _ fun _ _ => rfl

@[simp] theorem Chip.calKernels_mem (c : Chip) (v d : Nat) (xs : List Int) : (c.calKernels v d xs).2.mem = c.mem := by
  unfold Chip.calKernels
  extract_lets get m
  have hm : m.2.mem = c.mem := foldl_mem_of (fun r : List Int × Chip => r.2) _ _ _ fun _ _ => Chip.calRound_mem ..
  split
  · simp
  · split <;> simpa using hm

@[simp] theorem Chip.placeSpare_mem (c : Chip) (v dac : Nat) (bad : Int) : (c.placeSpare v dac bad).mem = c.mem := by
  simp [Chip.placeSpare]
@[simp] theorem Chip.calSpares_mem (c : Chip) (v : Nat) (xs : List Int) : (c.calSpares v xs).2.mem = c.mem := by
  simp [Chip.calSpares, apply_ite Chip.mem]
@[simp] theorem Chip.calHk_mem (c : Chip) (xs : List Int) : (c.calHk xs).2.mem = c.mem := by
  simp [Chip.calHk, apply_ite Chip.mem]
@[simp] theorem Chip.mpCalRun_mem (c : Chip) (m : Cmd) (results : List Int) : (c.mpCalRun m results).mem = c.mem := by
  unfold Chip.mpCalRun
  dsimp only
  repeat' split
  all_goals simp
@[simp] theorem Chip.applySec_mem (c : Chip) (s : TrimSec) : (c.applySec s).mem = c.mem := by
  unfold Chip.applySec
  dsimp only
  split
  · exact Chip.foldl_mem _ _ _ fun _ _ => by simp
  · exact Chip.foldl_mem _ _ _ fun _ _ => rfl
  · exact Chip.foldl_mem _ _ _ fun _ _ => rfl
  · rw [apply_ite Chip.mem, Chip.importLines_mem, ite_self]
    exact Chip.foldl_mem _ _ _ fun _ _ => rfl

@[simp] theorem Chip.applySecs_mem (c : Chip) (ss : List TrimSec) :
    (c.applySecs ss).mem = c.mem := by simp [Chip.applySecs]
@[simp] theorem Chip.secRefused_mem (c : Chip) (s : TrimSec) : (c.secRefused s).mem = c.mem := by
  unfold Chip.secRefused
  repeat' split
  all_goals simp
@[simp] theorem Chip.mpCalImport_mem (c : Chip) (m : Cmd) (bad : List Nat) : (c.mpCalImport m bad).mem = c.mem := by
  unfold Chip.mpCalImport
  repeat' split
  all_goals simp [apply_ite Chip.mem]
@[simp] theorem Chip.importWaitExpire_mem (c : Chip) : c.importWaitExpire.mem = c.mem := by
  simp [Chip.importWaitExpire, apply_ite Chip.mem]
@[simp] theorem Chip.passColumns_mem (steps : List PassDale) (c : Chip) (k : Nat) :
    (Chip.passColumns steps c k).mem = c.mem := by
  unfold Chip.passColumns
  refine Chip.foldl_mem _ _ _ fun c x => ?_
  dsimp only
  split
  · rfl
  · exact (Chip.foldl_mem _ _ _ fun _ _ => Chip.ev_mem ..).trans (Chip.put_mem ..)

@[simp] theorem Chip.passFailed_mem (c : Chip) (ran : Nat → Bool) (failed : List Nat) :
    (c.passFailed ran failed).mem = c.mem := by
  unfold Chip.passFailed
  exact Chip.foldl_mem _ _ _ fun _ _ => rfl

@[simp] theorem Chip.firstPass_mem (c : Chip) (secs : List Byte) (n : Nat) (failed : List Nat)
    (steps : List PassDale) :
    (c.firstPass secs n failed steps).mem = c.mem := by
  unfold Chip.firstPass
  split
  next => rfl
  next ss _ =>
    extract_lets starting dales ran bad c1 rest c2 c3 c4 c5 c6
    have h1 : c1.mem = c.mem := (Chip.foldl_mem _ _ _ Chip.secRefused_mem).trans (Chip.applySecs_mem ..)
    have h2 : c2.mem = c1.mem := Chip.foldl_mem _ _ _ fun _ _ => Chip.ev_mem ..
    have h3 : c3.mem = c2.mem := (Chip.foldl_mem _ _ _ (Chip.passColumns_mem steps)).trans (Chip.passFailed_mem ..)
    have h4 : c4.mem = c3.mem := Chip.foldl_mem _ _ _ fun _ _ => rfl
    have h5 : c5.mem = c4.mem := Chip.foldl_mem _ _ _ fun _ _ => Chip.foldl_mem _ _ _ fun _ _ => rfl
    have h6 : c6.mem = c5.mem := by
      dsimp only [c6]
      split <;> rfl
    have hall : c6.mem = c.mem := by rw [h6, h5, h4, h3, h2, h1]
    split
    · rfl
    · split
      · exact hall
      · exact hall

@[simp] theorem Chip.sendEther_mem (c : Chip) (port tci ty : Nat) (payload : List Byte) :
    (c.sendEther port tci ty payload).mem = c.mem := by
  simp [Chip.sendEther, apply_ite Chip.mem]
@[simp] theorem Chip.dropEther_mem (c : Chip) (port : Nat) :
    (c.dropEther port).mem = c.mem := by simp [Chip.dropEther]
@[simp] theorem Chip.hwSections_mem (c : Chip) (m : Cmd) (now : Nat) : (c.hwSections m now).mem = c.mem := by
  unfold Chip.hwSections
  dsimp only
  repeat' split
  all_goals simp
@[simp] theorem Chip.sendCplane_mem (c : Chip) (g : List CSection) : (c.sendCplane g).mem = c.mem := by
  unfold Chip.sendCplane
  repeat' split
  all_goals simp
@[simp] theorem Chip.cplane_mem (c : Chip) (slot : Nat) (down : Bool) : (c.cplane slot down).mem = c.mem := by
  simp [Chip.cplane, apply_ite Chip.mem]
@[simp] theorem Chip.delayReq_mem (c : Chip) (port : Nat) : (c.delayReq port).mem = c.mem := by
  simp [Chip.delayReq, apply_ite Chip.mem]
@[simp] theorem Chip.ptp_mem (c : Chip) (port : Nat) (bytes : List Byte) (te : Int) :
    (c.ptp port bytes te).mem = c.mem := by
  unfold Chip.ptp
  repeat' split
  all_goals simp [apply_ite Chip.mem]
@[simp] theorem Chip.delayMeas_mem (c : Chip) (port : Nat) (bytes : List Byte) (ts comp : Nat) :
    (c.delayMeas port bytes ts comp).mem = c.mem := by
  unfold Chip.delayMeas
  repeat' split
  all_goals simp
@[simp] theorem Chip.publish_mem (c : Chip) (k : Cairn) : (c.publish k).mem = c.mem := by
  unfold Chip.publish
  split
  · exact Chip.foldl_mem _ _ _ fun _ _ => rfl
  · rfl

@[simp] theorem Chip.mpCairnIdent_mem (c : Chip) (m : Cmd) : (c.mpCairnIdent m).mem = c.mem := by
  simp [Chip.mpCairnIdent, apply_ite Chip.mem]
@[simp] theorem Chip.mpCairnRecords_mem (c : Chip) (k : Cairn) (m : Cmd) : (c.mpCairnRecords k m).mem = c.mem := by
  simp [Chip.mpCairnRecords, apply_ite Chip.mem]
@[simp] theorem Chip.mpCairnEvents_mem (c : Chip) (k : Cairn) (m : Cmd) : (c.mpCairnEvents k m).mem = c.mem := by
  simp [Chip.mpCairnEvents, apply_ite Chip.mem]
@[simp] theorem Chip.mpPassOpen_mem (c : Chip) (m : Cmd) : (c.mpPassOpen m).mem = c.mem := by
  simp [Chip.mpPassOpen, apply_ite Chip.mem]
@[simp] theorem Chip.mpPassClose_mem (c : Chip) (m : Cmd) : (c.mpPassClose m).mem = c.mem := by
  unfold Chip.mpPassClose
  dsimp only
  repeat' split
  all_goals simp
@[simp] theorem Chip.mpPassExport_mem (c : Chip) (m : Cmd) : (c.mpPassExport m).mem = c.mem := by
  simp [Chip.mpPassExport, apply_ite Chip.mem]
@[simp] theorem Chip.mpPassRoute_mem (c : Chip) (m : Cmd) : (c.mpPassRoute m).mem = c.mem := by
  simp [Chip.mpPassRoute, apply_ite Chip.mem]
@[simp] theorem Chip.sourceLocked_mem (c : Chip) (n : Nat) : (c.sourceLocked n).mem = c.mem := by
  unfold Chip.sourceLocked
  dsimp only
  repeat' split
  all_goals simp
@[simp] theorem Chip.tagSend_mem (c : Chip) (n : Nat) : (c.tagSend n).mem = c.mem := by
  simp [Chip.tagSend, apply_ite Chip.mem]
@[simp] theorem Chip.codeword_mem (c : Chip) (n : Nat) (corrected : Option Nat) (frames : Nat) :
    (c.codeword n corrected frames).mem = c.mem := by
  unfold Chip.codeword
  repeat' split
  all_goals simp [apply_ite Chip.mem]
@[simp] theorem Chip.headerHunt_mem (c : Chip) (n : Nat) : (c.headerHunt n).mem = c.mem := by
  simp [Chip.headerHunt, apply_ite Chip.mem]
@[simp] theorem Chip.sinkDark_mem (c : Chip) (n : Nat) : (c.sinkDark n).mem = c.mem := by simp [Chip.sinkDark]
@[simp] theorem Chip.sinkWaitExpire_mem (c : Chip) (n : Nat) : (c.sinkWaitExpire n).mem = c.mem := by
  unfold Chip.sinkWaitExpire
  repeat' split
  all_goals simp
@[simp] theorem Chip.gpioView_mem (c : Chip) : (c.gpioView).2.mem = c.mem := by simp [Chip.gpioView]
@[simp] theorem Chip.readWord_mem (c : Chip) (r : Reg) : (c.readWord r).2.mem = c.mem := by
  unfold Chip.readWord
  repeat' split
  all_goals simp [apply_ite Chip.mem]
@[simp] theorem Chip.regRead_mem (c : Chip) (t addr : Nat) : (c.regRead t addr).2.2.mem = c.mem := by
  unfold Chip.regRead
  repeat' split
  all_goals simp
@[simp] theorem Chip.plainWrite_mem (c : Chip) (r : Reg) (x : Word) : (c.plainWrite r x).mem = c.mem := by
  simp [Chip.plainWrite, apply_ite Chip.mem]
@[simp] theorem Chip.wFlag_mem (c : Chip) (r : Reg) (x : Word) : (c.wFlag r x).2.mem = c.mem := by
  simp [Chip.wFlag, apply_ite Chip.mem]
@[simp] theorem Chip.wRowmap_mem (c : Chip) (v d : Nat) (x : Word) : (c.wRowmap v d x).2.mem = c.mem := by
  unfold Chip.wRowmap
  dsimp only
  repeat' split
  all_goals simp
@[simp] theorem Chip.wCoreSeed_mem (c : Chip) (n s : Nat) (x : Word) : (c.wCoreSeed n s x).2.mem = c.mem := by
  simp [Chip.wCoreSeed, apply_ite Chip.mem]
@[simp] theorem Chip.wThreadCtl_mem (c : Chip) (n s t : Nat) (x : Word) : (c.wThreadCtl n s t x).2.mem = c.mem := by
  unfold Chip.wThreadCtl
  repeat' split
  all_goals simp
@[simp] theorem Chip.wLantCfg_mem (c : Chip) (x : Word) : (c.wLantCfg x).2.mem = c.mem := by
  unfold Chip.wLantCfg
  dsimp only
  repeat' split
  all_goals simp
@[simp] theorem Chip.slotReads_mem (n : Nat) (c : Chip) (t base : Nat) :
    (Chip.slotReads n c t base).2.mem = c.mem := by
  induction n generalizing c base with
  | zero => rfl
  | succ n ih => exact (ih ..).trans (Chip.regRead_mem ..)

@[simp] theorem Chip.regLoad_mem (c : Chip) (t addr n : Nat) :
    (c.regLoad t addr n).2.mem = c.mem := by simp [Chip.regLoad]
@[simp] theorem Chip.hwRegRead_mem (c : Chip) (m : Cmd) : (c.hwRegRead m).mem = c.mem := by
  unfold Chip.hwRegRead
  split
  · simp
  · extract_lets r
    have hr : r.2.2.mem = c.mem := foldl_mem_of (fun r : Option (Nat × Nat) × List Word × Chip => r.2.2) _ _ _
      fun _ _ => Chip.regRead_mem ..
    split <;> simpa using hr

@[simp] theorem Chip.homeLoad_mem (c : Chip) (tent home len : Nat) : (c.homeLoad tent home len).2.mem = c.mem := by
  unfold Chip.homeLoad
  repeat' split
  all_goals simp
@[simp] theorem Chip.fillLine_mem (c : Chip) (i line : Nat) (bs : List Byte) :
    (c.fillLine i line bs).mem = c.mem := by
  simp [Chip.fillLine, apply_ite Chip.mem]
@[simp] theorem Chip.flushCache_mem (c : Chip) (i : Nat) : (c.flushCache i).mem = c.mem := by simp [Chip.flushCache]
@[simp] theorem Chip.settleThread_mem (c : Chip) (h : Hart) : (c.settleThread h).mem = c.mem := by
  unfold Chip.settleThread
  dsimp only
  repeat' split
  all_goals simp
@[simp] theorem Chip.answerStatus_mem (c : Chip) (h : Hart) (rd status : Nat) :
    (c.answerStatus h rd status).mem = c.mem := by simp [Chip.answerStatus]
@[simp] theorem Chip.spawnRecord_mem (c : Chip) (h : Hart) (rd : Nat) (bs : List Byte) :
    (c.spawnRecord h rd bs).mem = c.mem := by
  simp [Chip.spawnRecord, apply_ite Chip.mem]
@[simp] theorem Chip.denqRecord_mem (c : Chip) (h : Hart) (rd : Nat) (compl : Word) (bs : List Byte) :
    (c.denqRecord h rd compl bs).mem = c.mem := by
  simp [Chip.denqRecord, apply_ite Chip.mem]
@[simp] theorem Chip.dropRegen_mem (c : Chip) : c.dropRegen.mem = c.mem := by simp [Chip.dropRegen]
@[simp] theorem Chip.regenerate_mem (c : Chip) (f : PassFrame) : (c.regenerate f).mem = c.mem := by
  unfold Chip.regenerate
  repeat' split
  all_goals simp
@[simp] theorem Chip.bcastFrame_mem (c : Chip) (f : PassFrame) : (c.bcastFrame f).mem = c.mem := by
  simp [Chip.bcastFrame, apply_ite Chip.mem]
@[simp] theorem Chip.answerFrame_mem (c : Chip) (f : PassFrame) (status : Nat) (payload : List Byte) :
    (c.answerFrame f status payload).mem = c.mem := by
  unfold Chip.answerFrame
  repeat' split
  all_goals simp
@[simp] theorem Chip.failCmd_mem (c : Chip) (op : Nat) (m : Cmd) :
    (c.failCmd op m).mem = c.mem := by simp [Chip.failCmd]
@[simp] theorem Chip.dropRemote_mem (c : Chip) (r : Remote) :
    (c.dropRemote r).mem = c.mem := by simp [Chip.dropRemote]
@[simp] theorem Chip.mpTurn_mem (c : Chip) (ts : List Nat) : (c.mpTurn ts).1.mem = c.mem := by
  induction ts generalizing c with
  | nil => rfl
  | cons t ts ih =>
    unfold Chip.mpTurn
    split
    next => exact ih c
    next =>
      split
      next d hd => exact Chip.spend_mem hd
      next => rw [ih, Chip.wait_mem]

@[simp] theorem Chip.tdo_mem (c : Chip) (bits : List Bool) : (c.tdo bits).mem = c.mem := by simp [Chip.tdo]
@[simp] theorem Chip.bypass_mem (c : Chip) (tdi : List Bool) (driven : Nat) :
    (c.bypass tdi driven).mem = c.mem := by simp [Chip.bypass]
@[simp] theorem Chip.boundaryScan_mem (c : Chip) (tdi pins : List Bool) (driven : Nat) :
    (c.boundaryScan tdi pins driven).mem = c.mem := by simp [Chip.boundaryScan]
@[simp] theorem Chip.stall_mem (c : Chip) (h : Hart) (w : ThreadWait) :
    (c.stall h w).mem = c.mem := by simp [Chip.stall]
/-- Charges that are admitted, or the first that waits, change accounts alone. -/
theorem Chip.admitCharges_mem {c0 : Chip} (job : Gate) (cs : List Charge) (c : Chip) (h : c.mem = c0.mem) :
    (c0.admitCharges job cs c).1.mem = c0.mem := by
  induction cs generalizing c with
  | nil => exact h
  | cons x cs ih =>
    unfold Chip.admitCharges
    dsimp only
    split
    next d hd => exact ih d ((Chip.spend_mem hd).trans h)
    next => exact Chip.waitGrain_mem ..

@[simp] theorem Chip.fence_mem (c : Chip) (h : Hart) (fn : Nat) : (c.fence h fn).mem = c.mem := by
  simp [Chip.fence, apply_ite Chip.mem]
@[simp] theorem Chip.watchTimeout_mem (c : Chip) (h : Hart) : (c.watchTimeout h).mem = c.mem := by
  unfold Chip.watchTimeout
  dsimp only
  repeat' split
  all_goals simp
@[simp] theorem Chip.gets_mem (c : Chip) (h : Hart) (rd : BitVec 5) (n : Nat) : (c.gets h rd n).mem = c.mem := by
  simp [Chip.gets, apply_ite Chip.mem]
@[simp] theorem Chip.vector_mem (c : Chip) (h : Hart) (vd va vb : BitVec 4) (p : BitVec 3)
    (f : VIn → Draws → BitVec 128 × Draws) :
    (c.vector h vd va vb p f).mem = c.mem := by
  simp [Chip.vector, apply_ite Chip.mem]
@[simp] theorem Chip.vcmp_mem (c : Chip) (h : Hart) (vd va vb : BitVec 4) (p : BitVec 3) (fn : Nat) :
    (c.vcmp h vd va vb p fn).mem = c.mem := by
  simp [Chip.vcmp]
@[simp] theorem Chip.writeWindowTimeout_mem (c : Chip) (n ps : Nat) : (c.writeWindowTimeout n ps).mem = c.mem := by
  unfold Chip.writeWindowTimeout
  repeat' split
  all_goals simp
@[simp] theorem Chip.failInvalid_mem (c : Chip) : c.failInvalid.mem = c.mem := by
  simp [Chip.failInvalid, apply_ite Chip.mem]
@[simp] theorem Chip.imageRetry_mem (c : Chip) (n : Nat) : (c.imageRetry n).mem = c.mem := by
  simp [Chip.imageRetry, apply_ite Chip.mem]
@[simp] theorem Chip.spawnDequeue_mem (c : Chip) (i : Nat) : (c.spawnDequeue i).mem = c.mem := by
  unfold Chip.spawnDequeue
  dsimp only
  repeat' split
  all_goals simp
end Sys2Proof.Machine
end

section
/-!
What every command answers (R16, R17): a next state that differs in the chip alone, or the fault of a unit that does not
exist; and the statements O1, O2 and O3.
-/

namespace Sys2Proof.Machine

/-- A command that leaves the Cairn and the queue alone answers a chip of which `P` holds; one that is not well-formed may
answer the fault of a unit that does not exist. -/
def Answers (s : State) (wf : Bool) (P : Chip → Prop) (o : Outcome) : Prop :=
  (∃ c, o = .next { s with chip := c } ∧ P c) ∨ (o = .fault .noSuchUnit ∧ wf = false)

theorem Answers.next {s t : State} {wf : Bool} {P : Chip → Prop} {o : Outcome} (h : Answers s wf P o) (ho : o = .next t) :
    ∃ c, t = { s with chip := c } ∧ P c := by
  obtain ⟨c, hc, hP⟩ | ⟨hf, _⟩ := h
  · exact ⟨c, Host.Outcome.next.inj (ho.symm.trans hc), hP⟩
  · cases ho.symm.trans hf

section
variable {s : State} {wf : Bool} {P : Chip → Prop} {f : Chip → Chip}

theorem onChip_answers (h : P (f s.chip)) : Answers s wf P (onChip s f) := .inl ⟨f s.chip, rfl, h⟩

theorem onUnits_answers {ok : Bool} (hok : wf = true → ok = true) (h : P (f s.chip)) :
    Answers s wf P (onUnits ok s f) := by
  cases ok with
  | true => exact onChip_answers h
  | false => exact .inr ⟨rfl, by simpa using hok⟩

theorem onHost_answers {m : Cmd} (hok : wf = true → tentOk m.tent = true) (hs : P s.chip) (h : P (f s.chip)) :
    Answers s wf P (onHost m s f) := by
  refine onUnits_answers hok ?_
  split
  · exact h
  · exact hs

theorem onPort_answers (hs : P s.chip) (h : P (f s.chip)) : Answers s wf P (onPort s f) := by
  refine onChip_answers ?_
  split
  · exact h
  · exact hs

theorem onReg_answers {w : Writer} {r : Reg} {x : Word} {body : Chip → Nat × Chip}
    (hok : wf = true → (writerOk w && r.inTable) = true) (hs : P s.chip) (h : P (s.chip.regWrite w r x body)) :
    Answers s wf P (onReg w r x s body) := by
  refine onUnits_answers hok ?_
  split
  · exact h
  · exact hs

theorem onThread_answers {h : Hart} {i : Instr} {body : Chip → Chip} {release : Bool} {touch : Chip → Option Touch}
    (hok : wf = true → h.ok = true) (hs : P s.chip) (hi : ∀ w, P (s.chip.issue h w release (touch s.chip) body)) :
    Answers s wf P (onThread h i s body release touch) := by
  refine onUnits_answers hok ?_
  split
  · exact hi _
  · exact hs

theorem onAccess_answers {h : Hart} {i : Instr} {k : Chip → AccessKind} {p : Perm} {addr : Chip → Nat} {len align : Nat}
    {release : Bool} (hok : wf = true → h.ok = true) (hs : P s.chip)
    (hi : ∀ w release touch, P (s.chip.issue h w release touch fun c => c.access h (k c) p (addr c) len align)) :
    Answers s wf P (onAccess h i s k p addr len align release) :=
  onThread_answers hok hs fun _ => hi ..

theorem onLoad_answers {h : Hart} {i : Instr} {rd ra : BitVec 5} {imm : BitVec 16} {n : Nat} {sgn : Bool}
    (hok : wf = true → h.ok = true) (hs : P s.chip)
    (hi : ∀ w release touch (k : Chip → AccessKind) (addr : Chip → Nat), P (s.chip.issue h w release touch fun c => c.access h (k c) .r (addr c) n n)) :
    Answers s wf P (onLoad h i rd ra imm n sgn s) :=
  onAccess_answers hok hs fun _ _ _ => hi ..

theorem onStore_answers {h : Hart} {i : Instr} {rb ra : BitVec 5} {imm : BitVec 16} {n : Nat}
    (hok : wf = true → h.ok = true) (hs : P s.chip)
    (hi : ∀ w release touch (k : Chip → AccessKind) (addr : Chip → Nat), P (s.chip.issue h w release touch fun c => c.access h (k c) .w (addr c) n n)) :
    Answers s wf P (onStore h i rb ra imm n s) :=
  onAccess_answers hok hs fun _ _ _ => hi ..

theorem onResult_answers {h : Hart} {i : Instr} {rd : BitVec 5} {val : Chip → Word} (hok : wf = true → h.ok = true)
    (hs : P s.chip)
    (hi : ∀ w release touch, P (s.chip.issue h w release touch fun c => (c.setXr h rd (val c)).retire h)) :
    Answers s wf P (onResult h i rd s val) :=
  onThread_answers hok hs fun _ => hi ..

theorem onBranch_answers {h : Hart} {i : Instr} {ra rb : BitVec 5} {off : BitVec 16} {test : Word → Word → Bool}
    (hok : wf = true → h.ok = true) (hs : P s.chip)
    (hi : ∀ w release touch, P (s.chip.issue h w release touch fun c =>
      if test (c.x h ra) (c.x h rb) then c.retireTo h (pcOf (c.target h off)) else c.retire h)) :
    Answers s wf P (onBranch h i ra rb off s test) :=
  onThread_answers hok hs fun _ => hi ..

theorem onVector_answers {h : Hart} {i : Instr} {vd va vb : BitVec 4} {p : BitVec 3}
    {g : VIn → Draws → BitVec 128 × Draws} (hok : wf = true → h.ok = true) (hs : P s.chip)
    (hi : ∀ w release touch, P (s.chip.issue h w release touch fun c => c.vector h vd va vb p g)) :
    Answers s wf P (onVector h i vd va vb p s g) :=
  onThread_answers hok hs fun _ => hi ..

theorem tentAction_answers {a : Ask} {act bit : Nat} {g : Chip → Nat → Nat × Chip} (hok : wf = true → a.wf = true)
    (hs : P s.chip) (hm : ∀ m, P (s.chip.mpReceive 0x0201 m [] fun c => c.mpTentCtl m act g))
    (hr : ∀ w t, P (s.chip.regWrite w { name := .tentCtl, idx := [t] } (BitVec.ofNat 64 (2 ^ bit)) fun c => g c t)) :
    Answers s wf P (tentAction a act bit g s) := by
  cases a with
  | cmd m => exact onHost_answers hok hs (hm m)
  | reg w t => exact onReg_answers hok hs (hr w t)

theorem ticketClear_answers {w : Writer} {addr : Nat} {x : Word} (hok : wf = true → (writerOk w && flagAt addr) = true)
    (hs : P s.chip) (h : ∀ r, P (s.chip.regWrite w r x fun c => c.wFlag r x)) :
    Answers s wf P (execTicketClear w addr x s) := by
  unfold execTicketClear
  split
  next r hr =>
    split
    next htc => exact onReg_answers (fun hw => by simpa [flagAt, hr, htc] using hok hw) hs (h r)
    next => exact .inl ⟨s.chip, rfl, hs⟩
  next => exact .inl ⟨s.chip, rfl, hs⟩

/-- The groups are the entries of their table. -/
theorem groupCfg_inTable {g : Nat} (h : groupOk g = true) : ({ name := .budGroupCfg, idx := [g] } : Reg).inTable = true := by
  have hg : g < 58 := by simpa [groupOk] using h
  simp [Reg.inTable, RegName.desc, hg]

theorem groupCfg_answers {w : Writer} {g : Nat} {x : Word} (hok : wf = true → (groupOk g && writerOk w) = true)
    (hs : P s.chip)
    (h : P (s.chip.regWrite w { name := .budGroupCfg, idx := [g] } x fun c => c.wGroupCfg g x)) :
    Answers s wf P (execGroupCfgWrite w g x s) := by
  unfold execGroupCfgWrite
  split
  next hg =>
    refine onReg_answers (fun hw => ?_) hs h
    rw [(Bool.and_eq_true _ _).mp (hok hw) |>.2, groupCfg_inTable hg]
    rfl
  next hg => exact .inr ⟨rfl, by simpa [hg] using hok⟩

end

/-- R16, R17: what a command of the device, of the host or of a thread answers. -/
theorem exec_answers (i : Instr) (s : State) (hk : i.ofCairn = false) : Answers s i.wf (fun _ => True) (exec i s) := by
  have left {a b : Bool} (h : (a && b) = true) : a = true := ((Bool.and_eq_true _ _).mp h).1
  cases i
  case intervalClose | cairnInputLoss | cairnInputReturn | sealOpened | selfTest | overloadBegin | overloadEnd |
      activityLinkLost | activityLinkRestored | activityFrame | metrologyPulse => cases hk
  all_goals dsimp only [exec]
  case sysInfo | sysEcho | sysDrainVale | sysDrainVeld | sysResume | tentDales | tentSites | tentWindows |
      tentBudget | wsetLoad | wsetPoint | wsetRelease | imageLoad | jobDale | jobCoder | jobLaunch | calExport |
      calImport | calRun | guyLoop | guyCoef | guyStd | convInject | convTable | drvCh | drvXt | thermalRelease |
      thmRecord | pwrBudget | passOpen | passClose | passExport | passRoute | radioSections | attest | keyInstall |
      keyRemove | fwLoad | fwSwitch | cairnIdent | cairnRecords | cairnEvents | regRead | regWrite | memRead |
      memWrite | unassignedOpcode =>
    exact onHost_answers (P := fun _ => True) id trivial trivial
  case quiesceDone | releaseComplete | spawnDequeue | waitmWake | waitmPoll | waitmTimeout | astepEnd |
      memAccessResponse | rangeHoldRelease | deglitchRelease | testEnd | daleOwnerChange | siteOwnerChange |
      registerWrite | gateFrameChange | waitLimitExpire | leaseRequest | creditRequest | rampRefill |
      creditRelease | channelFault | jobStart | lockWaitExpire | reloadStaged | loadStrobe | heaterSettled |
      columnStrobe | holdCellRefresh | batchStart | batchEnd | jobComplete | tagDecode | batchReissue |
      tagLossTimeout | rotationStep | selectorCal | triggerTick | entryStart | entryOutput | injectionRun |
      calConvStart | adcRotationStep | loopTick | lineStepExpire | acqFail | programGrain | writeWindowTimeout |
      programmingDone | siteCheck | refreshStart | migration | oldSiteRewritten | shardArrival | shardTimeout |
      bcastWaitExpire | fingerprintVerify | uplaneReceive | dlUplaneSend | ptpMessage | delayMeasurement |
      codeBlockStart | hostReadRequest | sinkFrameReceive | sinkDarkTimeout | sinkWaitExpire | sourceLocked |
      tagFrameSend | stageFault | drainWaitExpire | imageCheckRetry | illegalInstruction | injectedOutput |
      calibrationConversionEnd | codewordReceive | headerHunt =>
    exact onUnits_answers (P := fun _ => True) id trivial
  case fwTrialEnd | slotTick | freeRunningTick | frameBoundary | creditGrant | hkRound | coolantComparator |
      cplaneSend | syncLocked | syncLossTimeout | syncSourceReturn | ppsEdge | codeBlockEnd | coderComplete |
      flitReceive | retryRepeat | idleAck | replayTimeout | retrain | linkDown | linkUp | hostReadResponse |
      hostReadTimeout | messageSend | watchdogRestart | remoteTimeout | wakeRequest | wakeWithdrawn | wakeShutdown |
      stageFaultWaitEnd | inputUndervoltage | inputOvervoltage | lanternPowerUp | lanternPowerLoss |
      importWaitExpire | firstFullPass | enterService | storeUpdate | sidebandRequest | sampleClockCycle |
      lanternOnBackup =>
    exact onChip_answers (P := fun _ => True) trivial
  case threadStop | frameLenWrite | credBudgetWrite | daleRowmapWrite | parkColWrite | daleSideAdd |
      valeBankOwnerWrite | veldImgBaseWrite | actxCreate | coreRseedLoad | guySeedLoad | tableGo | tableHalt |
      trackerClear | hkTrackerClear | injectRequest | convSeqWrite | convTrigWrite | hkSeqWrite | drvChWrite |
      drvPairWrite | toneCtlWrite | guyLoopWrite | guyCoefWrite | testGo | testStop | captureGo | captureStop |
      tentDaleWrite | tentSiteWrite | wsetActiveWrite | fhCfgWrite | fhOffsetWrite | fhEaxcWrite | fhWinWrite |
      fhSfnSet | decSubmit | decHarqCfgWrite | decHarqClr | sysMsgPost | moduleIdWrite | boostEnWrite |
      passRouteWrite | passExportWrite | lantSecWrite =>
    exact onReg_answers (P := fun _ => True) id trivial trivial
  case bypass | idcode | samplePreload | extest | clamp | highz =>
    exact onPort_answers (P := fun _ => True) trivial trivial
  case jal | jalr | halt | waitm =>
    exact onThread_answers (P := fun _ => True) id trivial fun _ => trivial
  case fence | gets | tickw | astep | aclose | vcmp | vmov =>
    exact onThread_answers (P := fun _ => True) left trivial fun _ => trivial
  case addi | andi | ori | xori | slti | addpc =>
    exact onResult_answers (P := fun _ => True) id trivial fun _ _ _ => trivial
  case alu | shi | lih =>
    exact onResult_answers (P := fun _ => True) left trivial fun _ _ _ => trivial
  case beq | bne | blt | bge | bltu | bgeu =>
    exact onBranch_answers (P := fun _ => True) id trivial fun _ _ _ => trivial
  case vi | vb | vf | vred | vperm | vcvt | vnq | vdq | vu8 | vsc | vrand =>
    exact onVector_answers (P := fun _ => True) left trivial fun _ _ _ => trivial
  case ld8s | ld8u | ld16s | ld16u | ld32s | ld32u | ld64 =>
    exact onLoad_answers (P := fun _ => True) id trivial fun _ _ _ _ _ => trivial
  case st8 | st16 | st32 | st64 =>
    exact onStore_answers (P := fun _ => True) id trivial fun _ _ _ _ _ => trivial
  case vld | vst =>
    exact onAccess_answers (P := fun _ => True) id trivial fun _ _ _ => trivial
  case spawn | denq =>
    exact onAccess_answers (P := fun _ => True) left trivial fun _ _ _ => trivial
  case amo =>
    exact onAccess_answers (P := fun _ => True) left trivial fun _ _ _ => trivial
  case tentOpen | tentQuiesce | tentClose =>
    exact tentAction_answers (P := fun _ => True) id trivial (fun _ => trivial) fun _ _ => trivial
  case ticketClear => exact ticketClear_answers (P := fun _ => True) id trivial fun _ => trivial
  case groupCfgWrite => exact groupCfg_answers (P := fun _ => True) id trivial trivial

section
variable {s : State}

/-! ### The Cairn's own events -/

/-- What never falls in the Cairn, and the seal that stays broken (R483, R489, R494, R496). -/
structure Cairn.Grows (k l : Cairn) : Prop where
  energy : k.energy ≤ l.energy
  nextRec : k.nextRec ≤ l.nextRec
  nextEvt : k.nextEvt ≤ l.nextEvt
  pulses : k.pulses ≤ l.pulses
  broken : k.sealBroken = true → l.sealBroken = true

theorem Cairn.Grows.refl (k : Cairn) : k.Grows k := ⟨le_rfl, le_rfl, le_rfl, le_rfl, id⟩

theorem Cairn.Grows.trans {k l m : Cairn} (h : k.Grows l) (g : l.Grows m) : k.Grows m :=
  ⟨h.energy.trans g.energy, h.nextRec.trans g.nextRec, h.nextEvt.trans g.nextEvt, h.pulses.trans g.pulses, g.broken ∘ h.broken⟩

theorem Cairn.event_grows (k : Cairn) (code a b : Nat) : k.Grows (k.event code a b) := by
  unfold Cairn.event
  exact ⟨le_rfl, le_rfl, Nat.le_succ _, le_rfl, id⟩

/-- An event of a Cairn that differs from `k` in nothing that grows. -/
theorem Cairn.Grows.event {k l : Cairn} (h : k.Grows l) (code a b : Nat) : k.Grows (l.event code a b) :=
  h.trans (l.event_grows code a b)

theorem Cairn.advance_grows (k : Cairn) (x : CairnNow) : k.Grows (k.advance x) := by
  unfold Cairn.advance
  dsimp only
  split
  · exact ⟨Nat.le_add_right .., le_rfl, le_rfl, le_rfl, id⟩
  · exact ⟨le_rfl, le_rfl, le_rfl, le_rfl, id⟩

theorem Cairn.setClock_grows (k : Cairn) (f : ActFrame) : k.Grows (k.setClock f) := by
  unfold Cairn.setClock
  split
  · exact .refl k
  · exact .event (by exact ⟨le_rfl, le_rfl, le_rfl, le_rfl, id⟩) ..

theorem Cairn.takeFrame_grows (k : Cairn) (f : ActFrame) (ok : Bool) : k.Grows (k.takeFrame f ok) := by
  unfold Cairn.takeFrame
  split
  · exact .refl k
  · extract_lets g again old base l m
    have hl : k.Grows l := ⟨le_rfl, le_rfl, le_rfl, le_rfl, id⟩
    exact (hl.trans (l.setClock_grows g)).trans ⟨le_rfl, le_rfl, le_rfl, le_rfl, id⟩

theorem Cairn.close_grows (k : Cairn) : k.Grows k.close := ⟨le_rfl, Nat.le_succ _, le_rfl, le_rfl, id⟩

theorem Cairn.closeNow_grows (k : Cairn) : k.Grows k.closeNow := by
  unfold Cairn.closeNow
  split
  · exact .refl k
  · extract_lets off step d l m old new m' m''
    have hl : k.Grows l := ⟨le_rfl, le_rfl, le_rfl, le_rfl, id⟩
    have hm : k.Grows m := hl.trans l.close_grows
    split
    · exact .event (hm.trans (by exact ⟨le_rfl, le_rfl, le_rfl, le_rfl, id⟩)) ..
    · split
      · exact .event (hm.trans (by exact ⟨le_rfl, le_rfl, le_rfl, le_rfl, id⟩)) ..
      · exact hm

theorem Cairn.lose_grows (k : Cairn) : k.Grows k.lose := by
  unfold Cairn.lose
  split
  · exact .refl k
  · extract_lets l m
    have hl : k.Grows l := ⟨le_rfl, le_rfl, le_rfl, le_rfl, id⟩
    exact .event ((hl.trans l.closeNow_grows).trans (by exact ⟨le_rfl, le_rfl, le_rfl, le_rfl, id⟩)) ..

theorem Cairn.comeBack_grows (k : Cairn) : k.Grows k.comeBack := by
  unfold Cairn.comeBack
  split
  · exact .refl k
  · exact .event (by exact ⟨le_rfl, le_rfl, le_rfl, le_rfl, id⟩) ..

theorem Cairn.openSeal_grows (k : Cairn) (state : Nat) : k.Grows (k.openSeal state) :=
  .event (k := k) (l := { k with sealBroken := true }) ⟨le_rfl, le_rfl, le_rfl, le_rfl, fun _ => rfl⟩ ..

theorem Cairn.selfTest_grows (k : Cairn) (start : Bool) (sum : List Byte) : k.Grows (k.selfTest start sum) := by
  unfold Cairn.selfTest
  split
  · exact .refl k
  · split
    · split
      · exact ⟨le_rfl, le_rfl, le_rfl, le_rfl, id⟩
      · exact .refl k
    · exact .event (by exact ⟨le_rfl, le_rfl, le_rfl, le_rfl, id⟩) ..

theorem Cairn.overloads_grows (k : Cairn) (on : Bool) (peak : Nat) : k.Grows (k.overloads on peak) := by
  unfold Cairn.overloads
  split
  · exact .refl k
  · exact .event (by exact ⟨le_rfl, le_rfl, le_rfl, le_rfl, id⟩) ..

theorem Cairn.loseLink_grows (k : Cairn) : k.Grows k.loseLink := by
  unfold Cairn.loseLink
  split
  · exact .refl k
  · exact .event (by exact ⟨le_rfl, le_rfl, le_rfl, le_rfl, id⟩) ..

theorem Cairn.findLink_grows (k : Cairn) : k.Grows k.findLink := by
  unfold Cairn.findLink
  split
  · exact .refl k
  · exact .event (by exact ⟨le_rfl, le_rfl, le_rfl, le_rfl, id⟩) ..

/-- What an event of the Cairn's own answers: the Cairn has grown, and memory and the queue are as they were. -/
def CairnAnswers (s : State) (o : Outcome) : Prop :=
  ∃ k c, o = .next { s with cairn := k, chip := c } ∧ s.cairn.Grows k ∧ c.mem = s.chip.mem

theorem onCairn_answers {f : Cairn → Cairn} (h : s.cairn.Grows (f s.cairn)) : CairnAnswers s (onCairn s f) :=
  ⟨f s.cairn, _, rfl, h, Chip.publish_mem ..⟩

theorem activityFrame_answers (x : CairnNow) (ok : Bool) : CairnAnswers s (execActivityFrame x ok s) := by
  unfold execActivityFrame
  dsimp only
  split
  · exact ⟨_, _, rfl, (s.cairn.advance_grows x).trans (Cairn.takeFrame_grows ..), Chip.publish_mem ..⟩
  · exact ⟨_, _, rfl, s.cairn.advance_grows x, rfl⟩

theorem metrologyPulse_answers (x : CairnNow) : CairnAnswers s (execMetrologyPulse x s) := by
  unfold execMetrologyPulse
  dsimp only
  split
  · exact ⟨_, _, rfl, (s.cairn.advance_grows x).trans ⟨le_rfl, le_rfl, le_rfl, Nat.le_succ _, id⟩, Chip.publish_mem ..⟩
  · exact ⟨_, _, rfl, s.cairn.advance_grows x, Chip.publish_mem ..⟩

theorem intervalClose_answers (x : CairnNow) : CairnAnswers s (execIntervalClose x s) := by
  refine onCairn_answers ?_
  have h := s.cairn.advance_grows x
  dsimp only
  split
  · exact h.trans (Cairn.closeNow_grows _)
  · exact h

/-- R481: what an event of the Cairn's own answers. -/
theorem exec_cairnAnswers (i : Instr) (s : State) (hk : i.ofCairn = true) : CairnAnswers s (exec i s) := by
  have h := s.cairn.advance_grows
  cases i
  all_goals dsimp only [exec]
  case activityFrame x ok => exact activityFrame_answers x ok
  case intervalClose x => exact intervalClose_answers x
  case cairnInputLoss x => exact onCairn_answers ((h x).trans (Cairn.lose_grows _))
  case cairnInputReturn x => exact onCairn_answers ((h x).trans (Cairn.comeBack_grows _))
  case sealOpened x _ => exact onCairn_answers ((h x).trans (Cairn.openSeal_grows ..))
  case selfTest x _ _ => exact onCairn_answers ((h x).trans (Cairn.selfTest_grows ..))
  case overloadBegin x _ => exact onCairn_answers ((h x).trans (Cairn.overloads_grows ..))
  case overloadEnd x _ => exact onCairn_answers ((h x).trans (Cairn.overloads_grows ..))
  case activityLinkLost x => exact onCairn_answers ((h x).trans (Cairn.loseLink_grows _))
  case activityLinkRestored x => exact onCairn_answers ((h x).trans (Cairn.findLink_grows _))
  case metrologyPulse x => exact metrologyPulse_answers x
  all_goals cases hk

/-! ### An activity frame -/

theorem mem_of_mem_lastN {α : Type} {n : Nat} {l : List α} {a : α} (h : a ∈ lastN n l) : a ∈ l := List.mem_of_mem_drop h

/-- The entries of a log after an event: those before, and one with the next number. -/
theorem Cairn.mem_event_evts {k : Cairn} {code a b : Nat} {e : CairnEvt} (h : e ∈ (k.event code a b).evts) :
    e ∈ k.evts ∨ e.num = k.nextEvt := by
  simp only [Cairn.event] at h
  obtain he | he := List.mem_append.mp (mem_of_mem_lastN h)
  · exact .inl he
  · exact .inr (congrArg CairnEvt.num (List.mem_singleton.mp he))

theorem Cairn.takeFrame_keeps (k : Cairn) (f : ActFrame) (ok : Bool) :
    (k.takeFrame f ok).recs = k.recs ∧ (k.takeFrame f ok).energy = k.energy ∧
      ∀ e ∈ (k.takeFrame f ok).evts, e ∈ k.evts ∨ k.nextEvt ≤ e.num := by
  unfold Cairn.takeFrame
  split
  · exact ⟨rfl, rfl, fun e he => .inl he⟩
  · extract_lets g again old base l m
    have hm : m.recs = k.recs ∧ m.energy = k.energy ∧ ∀ e ∈ m.evts, e ∈ k.evts ∨ k.nextEvt ≤ e.num := by
      simp only [m, Cairn.setClock]
      split
      · exact ⟨rfl, rfl, fun e he => .inl he⟩
      · exact ⟨rfl, rfl, fun e he => (Cairn.mem_event_evts he).imp_right fun h => h.ge⟩
    exact hm

theorem Cairn.advance_keeps (k : Cairn) (x : CairnNow) :
    (k.advance x).recs = k.recs ∧ (k.advance x).evts = k.evts ∧ (k.advance x).nextEvt = k.nextEvt := by
  unfold Cairn.advance
  dsimp only
  split <;> exact ⟨rfl, rfl, rfl⟩

/-- R485: what a frame does to the Cairn's records, energy and log. -/
theorem exec_activityFrame_cairn {x : CairnNow} {ok : Bool} {t : State} (h : exec (.activityFrame x ok) s = .next t) :
    t.cairn = s.cairn.advance x ∨ ∃ f, t.cairn = (s.cairn.advance x).takeFrame f ok := by
  change execActivityFrame x ok s = _ at h
  unfold execActivityFrame at h
  dsimp only at h
  split at h
  · obtain rfl := Host.Outcome.next.inj h
    exact .inr ⟨_, rfl⟩
  · obtain rfl := Host.Outcome.next.inj h
    exact .inl rfl

end

/-! ### The statements -/

/-- Settles O1: a step is `exec` of the front, and without one a tick of the Lantern's clock, which stores nothing. -/
theorem stepRunsTheFront : Obligations.StepRunsTheFront := by
  unfold Obligations.StepRunsTheFront
  refine ⟨fun s c rest h => ?_, fun s h => ?_⟩
  · unfold step
    rw [h]
  · refine ⟨s.idle, ?_, h, rfl, Chip.lantTick_mem s.chip⟩
    unfold step
    rw [h]

/-- Settles O2, from what the commands of the device and the Cairn's own events answer. -/
theorem everyCommandCompletes : Obligations.EveryCommandCompletes := by
  unfold Obligations.EveryCommandCompletes
  refine ⟨fun i s => ?_, fun i s hw => ?_⟩
  · cases hk : i.ofCairn with
    | true =>
      obtain ⟨k, c, hn, _⟩ := exec_cairnAnswers i s hk
      exact .inr ⟨_, hn, rfl⟩
    | false =>
      obtain ⟨c, hn, _⟩ | ⟨hf, _⟩ := exec_answers i s hk
      · exact .inr ⟨_, hn, rfl⟩
      · exact .inl hf
  · cases hk : i.ofCairn with
    | true =>
      obtain ⟨k, c, hn, _⟩ := exec_cairnAnswers i s hk
      exact ⟨_, hn⟩
    | false =>
      obtain ⟨c, hn, _⟩ | ⟨_, hf⟩ := exec_answers i s hk
      · exact ⟨_, hn⟩
      · cases hw.symm.trans hf

theorem Chip.get_reset (r : Reg) : State.reset.chip.get r = r.resetValue := rfl

/-- A Tent's segment at reset: one of Tent 0 is valid (R311). -/
theorem segment_reset (t k : Nat) : State.reset.chip.segment t k = if t = 0 ∧ k = 0 then 0xF830000000000000 else 0 := by
  change (Reg.resetValue { name := .tentWin, idx := [t, k] }).toNat = _
  unfold Reg.resetValue
  dsimp only
  split <;> rfl

theorem tentState_reset (t : Nat) : State.reset.chip.f Fld.tentCtl_state [t] = if t = 0 then 1 else 0 := by
  change bitsOf (Reg.resetValue { name := .tentCtl, idx := [t] }).toNat _ _ = _
  unfold Reg.resetValue
  dsimp only
  split <;> rfl

/-- Settles O3 from the reset values of the register tables. -/
theorem resetIsAsTabled : Obligations.ResetIsAsTabled := by
  unfold Obligations.ResetIsAsTabled
  refine ⟨Memory.wf_reset, rfl, Chip.get_reset, by decide, by rw [segment_reset]; rfl, fun t k h => ?_,
    by rw [tentState_reset]; rfl, fun t h => ?_, fun h => ⟨rfl, fun k => ?_, fun k => rfl, fun k hk => if_neg hk⟩⟩
  · rw [segment_reset, if_neg h]
  · rw [tentState_reset, if_neg h]
  · exact ite_self _

/-- Settles O7: every other command answers a state that differs in the chip alone, and the Cairn's own events let it
grow. -/
theorem cairnIsIsolated : Obligations.CairnIsIsolated := by
  unfold Obligations.CairnIsIsolated
  have other (i : Instr) (s t : State) (hk : i.ofCairn = false) (h : exec i s = .next t) : t.cairn = s.cairn := by
    obtain ⟨c, rfl, _⟩ := (exec_answers i s hk).next h
    rfl
  refine ⟨other, fun i s t h => ?_, fun x ok s t h => ?_⟩
  · have hg : s.cairn.Grows t.cairn := by
      cases hk : i.ofCairn with
      | true =>
        obtain ⟨k, c, hn, hg, _⟩ := exec_cairnAnswers i s hk
        obtain rfl := Host.Outcome.next.inj (h.symm.trans hn)
        exact hg
      | false => exact other i s t hk h ▸ .refl _
    exact ⟨hg.energy, hg.nextRec, hg.nextEvt, hg.pulses, hg.broken⟩
  · obtain ⟨hr, he, hn⟩ := s.cairn.advance_keeps x
    obtain ht | ⟨f, ht⟩ := exec_activityFrame_cairn h
    · rw [ht, hr, he]
      exact ⟨rfl, rfl, fun e h => .inl h⟩
    · obtain ⟨hr', he', hv⟩ := (s.cairn.advance x).takeFrame_keeps f ok
      rw [ht, hr', hr, he']
      rw [he, hn] at hv
      exact ⟨rfl, rfl, hv⟩

end Sys2Proof.Machine
end

section
/-!
Commands of registers, queues and engines leave memory alone (R22): the statement O10.
-/

namespace Sys2Proof.Machine

section
variable {s : State}

/-- The command answers a state with the memory of `s`. -/
def KeepsMem (s : State) (o : Outcome) : Prop := Answers s false (fun c => c.mem = s.chip.mem) o

theorem mp_keepsMem {op : Nat} {m : Cmd} {meas : List Int} {body : Chip → Chip} (hb : ∀ d, (body d).mem = d.mem) :
    KeepsMem s (onHost m s fun c => c.mpReceive op m meas body) :=
  onHost_answers nofun rfl (Chip.mpReceive_mem _ op m meas body hb)

theorem hw_keepsMem {op : Nat} {m : Cmd} {body : Chip → Chip} (hb : ∀ d, (body d).mem = d.mem) :
    KeepsMem s (onHost m s fun c => c.hwReceive op m body) :=
  onHost_answers nofun rfl (Chip.hwReceive_mem _ op m body hb)

theorem reg_keepsMem {w : Writer} {r : Reg} {x : Word} {body : Chip → Nat × Chip}
    (hb : (body s.chip).2.mem = s.chip.mem) : KeepsMem s (onReg w r x s body) :=
  onReg_answers nofun rfl (Chip.regWrite_mem _ w r x body hb)

/-- R22: what a command of the list, not one of the Cairn's own events, answers. -/
theorem exec_keepsMem (i : Instr) (hr : registersOnly i = true) (hk : i.ofCairn = false) : KeepsMem s (exec i s) := by
  cases i
  all_goals dsimp only [exec]
  case sysInfo | tentWindows | tentBudget | convInject | convTable | drvCh | drvXt | thmRecord | pwrBudget |
      keyInstall | keyRemove | cairnIdent | cairnRecords | cairnEvents =>
    exact mp_keepsMem fun d => by simp
  case sysEcho | regRead =>
    exact hw_keepsMem fun d => by simp
  case unassignedOpcode => exact onHost_answers nofun rfl (by simp)
  case frameLenWrite | credBudgetWrite | daleRowmapWrite | valeBankOwnerWrite | coreRseedLoad | guySeedLoad |
      tableGo | tableHalt | trackerClear | hkTrackerClear | injectRequest | convSeqWrite | convTrigWrite |
      hkSeqWrite | drvChWrite | drvPairWrite | toneCtlWrite | fhOffsetWrite | fhSfnSet | decHarqCfgWrite |
      decHarqClr | lantSecWrite =>
    exact reg_keepsMem (by simp)
  case groupCfgWrite => exact groupCfg_answers nofun rfl (Chip.regWrite_mem _ _ _ _ _ (by simp))
  case rampRefill | leaseRequest | deglitchRelease | rangeHoldRelease | triggerTick | entryStart | entryOutput |
      injectionRun | calConvStart | injectedOutput | tagFrameSend | headerHunt =>
    exact onUnits_answers nofun (by simp)
  case sampleClockCycle | syncLocked | syncLossTimeout | syncSourceReturn | ppsEdge =>
    exact onChip_answers (by simp)
  case sidebandRequest =>
    
    refine onChip_answers ?_
    split <;> simp
  case bypass | idcode | samplePreload | clamp | highz =>
    exact onPort_answers rfl (by simp)
  case extest =>
    refine onPort_answers rfl ?_
    split <;> simp
  all_goals cases hr.symm.trans hk

end

/-- Settles O10: equal memories read alike. -/
theorem registerCommandsKeepMemory : Obligations.RegisterCommandsKeepMemory := by
  unfold Obligations.RegisterCommandsKeepMemory
  intro i s t hr ht a
  have hm : t.chip.mem = s.chip.mem := by
    cases hk : i.ofCairn with
    | true =>
      obtain ⟨k, c, hn, _, hm⟩ := exec_cairnAnswers i s hk
      obtain rfl := Host.Outcome.next.inj (ht.symm.trans hn)
      exact hm
    | false =>
      obtain ⟨c, rfl, hc⟩ := (exec_keepsMem i hr hk).next ht
      exact hc
  rw [Chip.byte, Chip.byte, hm]

end Sys2Proof.Machine
end

section
/-!
Memory in canonical form (R22) through the operations that store: one lemma for each function of the model that writes
memory, or calls one that does.
-/

namespace Sys2Proof.Machine

theorem foldl_wf_of {σ α : Type} (π : σ → Chip) (f : σ → α → σ) (l : List α) (s : σ)
    (h : ∀ s a, Memory.wf (π s).mem = true → Memory.wf (π (f s a)).mem = true) (hs : Memory.wf (π s).mem = true) :
    Memory.wf (π (l.foldl f s)).mem = true := by
  induction l generalizing s with
  | nil => exact hs
  | cons a l ih => exact ih _ (h s a hs)

@[simp] theorem Chip.wf_foldl {α : Type} (f : Chip → α → Chip) (l : List α) (c : Chip)
    (h : ∀ c x, Memory.wf c.mem = true → Memory.wf (f c x).mem = true) (hc : Memory.wf c.mem = true) :
    Memory.wf (l.foldl f c).mem = true := foldl_wf_of id f l c h hc

@[simp] theorem Chip.wf_setByte (c : Chip) (a : Nat) (b : Byte) (h : Memory.wf c.mem = true) :
    Memory.wf (c.setByte a b).mem = true := Memory.wf_setByte c a b h
@[simp] theorem Chip.wf_store (c : Chip) (a : Nat) (bs : List Byte) (h : Memory.wf c.mem = true) :
    Memory.wf (c.store a bs).mem = true := Memory.wf_store bs c a h
@[simp] theorem Chip.wf_zeroStore (c : Chip) (i : Nat) (h : Memory.wf c.mem = true) :
    Memory.wf (c.zeroStore i).mem = true := Memory.wf_zeroStore c i h

@[simp] theorem Chip.wf_setNum (c : Chip) (a n x : Nat) (hc : Memory.wf c.mem = true) :
    Memory.wf (c.setNum a n x).mem = true := by simp [Chip.setNum, hc]

@[simp] theorem Chip.wf_complete (c : Chip) (r : Completion) (addr : Option Nat) (msg : Bool)
    (hc : Memory.wf c.mem = true) :
    Memory.wf (c.complete r addr msg).mem = true := by
  unfold Chip.complete
  repeat' split
  all_goals simp [hc]

@[simp] theorem Chip.wf_deliverRow (c : Chip) (k : Nat) (d : Desc) (a : AccRow) (hc : Memory.wf c.mem = true) :
    Memory.wf (c.deliverRow k d a).mem = true := by
  unfold Chip.deliverRow
  extract_lets vals sIn g f rec0 put s c1 o c2 c3 c4 c5
  have hput (d : Chip) (xs : List Int) (hd : Memory.wf d.mem = true) : Memory.wf (put d xs).mem = true :=
    Chip.wf_store d _ _ hd
  clear_value put
  rw [Chip.mapRun_mem]
  simp only [c5]
  split
  · exact hput _ _ (by simp [c1, hc])
  · exact hput _ _ (by simp [c4, c3, c2, hc])

@[simp] theorem Chip.wf_deliverReady (fuel : Nat) (c : Chip) (k : Nat) (hc : Memory.wf c.mem = true) :
    Memory.wf (Chip.deliverReady fuel c k).mem = true := by
  induction fuel generalizing c with
  | zero => exact hc
  | succ n ih =>
    unfold Chip.deliverReady
    split
    next => exact hc
    next r _ =>
      split
      next => exact hc
      next a rest _ =>
        extract_lets d ready m c1 c2 c3
        have hm : m.1.mem = c.mem := Chip.admitAll_mem ..
        have h2 : c2.mem = c.mem := by
          simp only [c2, c1]
          split
          · exact (Chip.setF_mem ..).trans hm
          · exact hm
        split
        · exact hc
        · split
          · rwa [hm]
          · exact ih _ (Chip.wf_deliverRow _ _ _ _ (by rwa [Chip.mapRun_mem, h2]))

@[simp] theorem Chip.wf_finishRun (c : Chip) (k : Nat) (hc : Memory.wf c.mem = true) :
    Memory.wf (c.finishRun k).mem = true := by
  unfold Chip.finishRun
  split
  next => exact hc
  next r _ =>
    dsimp only
    refine Chip.wf_foldl _ _ _ (fun d k hd => ?_) (by simp [hc])
    split
    · split <;> simpa using hd
    · exact hd

@[simp] theorem Chip.wf_retryRows (c : Chip) (k : Nat) (hc : Memory.wf c.mem = true) :
    Memory.wf (c.retryRows k).mem = true := by
  unfold Chip.retryRows
  repeat' split
  all_goals simp [hc]

@[simp] theorem Chip.wf_writeStat (c : Chip) (i a : Nat) (hc : Memory.wf c.mem = true) :
    Memory.wf (c.writeStat i a).mem = true := by simp [Chip.writeStat, hc]

@[simp] theorem Chip.wf_actxCreate (c : Chip) (i a cfg : Nat) (hc : Memory.wf c.mem = true) :
    Memory.wf (c.actxCreate i a cfg).mem = true := by
  unfold Chip.actxCreate
  repeat' split
  all_goals simp [hc]

@[simp] theorem Chip.wf_actxClose (c : Chip) (i a : Nat) (hc : Memory.wf c.mem = true) :
    Memory.wf (c.actxClose i a).mem = true := by
  unfold Chip.actxClose
  repeat' split
  all_goals simp [hc]

theorem Chip.wf_queueCtx (c : Chip) (i : Nat) (x : StepItem) (a : Nat) (now : Chip → Chip)
    (hc : Memory.wf c.mem = true) (hn : Memory.wf (now c).mem = true) :
    Memory.wf (c.queueCtx i x a now).mem = true := by
  unfold Chip.queueCtx
  dsimp only
  split
  · simpa using hc
  · exact hn

@[simp] theorem Chip.wf_startStep (fuel : Nat) (c : Chip) (i : Nat) (hc : Memory.wf c.mem = true) :
    Memory.wf (Chip.startStep fuel c i).mem = true := by
  induction fuel generalizing c with
  | zero => exact hc
  | succ n ih =>
    generalize hs : Chip.startStep (n + 1) c i = s
    unfold Chip.startStep at hs
    extract_lets k at hs
    split at hs
    · rwa [← hs]
    · rwa [← hs]
    · rw [← hs]
      exact ih _ (Chip.wf_actxCreate _ _ _ _ (by rwa [Chip.setCore_mem]))
    · rw [← hs]
      exact ih _ (Chip.wf_actxClose _ _ _ (by rwa [Chip.setCore_mem]))
    · split at hs
      · rwa [← hs]
      · extract_lets x epoch x1 cfg ks old changed at hs
        split at hs
        · rwa [← hs, Chip.wait_mem, Chip.askCredits_mem]
        · split at hs
          next => rwa [← hs, Chip.wait_mem]
          next d hd =>
            extract_lets d1 seed d2 k1 at hs
            rwa [← hs, Chip.setCore_mem, Chip.foldl_mem _ _ _ fun e p => (Chip.setF_mem ..).trans (Chip.setF_mem e ..),
              Chip.setActx_mem, Chip.spend_mem hd]

@[simp] theorem Chip.wf_nextStep (c : Chip) (i : Nat) (hc : Memory.wf c.mem = true) :
    Memory.wf (c.nextStep i).mem = true := by simp [Chip.nextStep, hc]

@[simp] theorem Chip.wf_endStep (c : Chip) (i status rows : Nat) (hc : Memory.wf c.mem = true) :
    Memory.wf (c.endStep i status rows).mem = true := by
  unfold Chip.endStep
  dsimp only
  repeat' split
  all_goals simp [hc]

@[simp] theorem Chip.wf_siteRow (c : Chip) (i ci : Nat) (r : StepRec) (ks : List Nat) (clipped : Bool)
    (row word : Nat) (y : SiteAcc) (hc : Memory.wf c.mem = true) :
    Memory.wf (c.siteRow i ci r ks clipped row word y).mem = true := by
  unfold Chip.siteRow
  extract_lets n s x a base vals sIn g f seeded rec0 z c1 z2 c2 c3 y c4
  clear_value vals sIn rec0
  split
  · simp [c1, hc]
  · refine Chip.wf_store _ _ _ ?_
    rw [Chip.setActx_mem]
    simp [c3, c2, hc]

@[simp] theorem Chip.wf_stepEnd (c : Chip) (i : Nat) (noise : List Int) (hc : Memory.wf c.mem = true) :
    Memory.wf (c.stepEnd i noise).mem = true := by
  unfold Chip.stepEnd
  split
  next run _ ci vecs base _ _ _ =>
    extract_lets n s q c1 a r rows o c2 ovr before c3 x trackers c4 clip
    have h1 : Memory.wf c1.mem = true := by
      simp only [c1, q]
      split <;> split <;> simpa using hc
    have h2 : Memory.wf c2.mem = true := by
      simp only [c2]
      simpa using h1
    have h3 : Memory.wf c3.mem = true := Chip.wf_foldl _ _ _ (fun d p hd => Chip.wf_siteRow d _ _ _ _ _ _ _ _ hd) h2
    have h4 : Memory.wf c4.mem = true := by
      simp only [c4]
      simpa using h3
    clear_value c4 o
    split <;> exact Chip.wf_endStep _ _ _ _ h4
  next => exact hc

@[simp] theorem Chip.wf_migrate (c : Chip) (n : Nat) (hc : Memory.wf c.mem = true) :
    Memory.wf (c.migrate n).mem = true := by
  unfold Chip.migrate
  extract_lets v
  split
  next o _ =>
    split
    next => exact hc
    next sp _ =>
      split
      · exact hc
      · extract_lets i a b c1 b' c2 c3 c4 c5 c6 c7 src c8 c9
        have h1 : c1.mem = c.mem := Chip.foldl_mem _ _ _ fun d r => Chip.put_mem d ..
        have h2 : c2.mem = c.mem := (Chip.setArr_mem c1 ..).trans h1
        have h6 : c6.mem = c2.mem :=
          (Chip.setF_mem c5 ..).trans ((Chip.setF_mem ..).trans ((Chip.setF_mem c4 ..).trans ((Chip.setF_mem ..).trans
            ((Chip.setF_mem c3 ..).trans ((Chip.setF_mem ..).trans ((Chip.setF_mem ..).trans (Chip.setF_mem c2 ..)))))))
        have h8 : c8.mem = c.mem :=
          (Chip.setVeld_mem c7 ..).trans ((Chip.saveRecord_mem ..).trans ((Chip.saveRecord_mem c6 ..).trans (h6.trans h2)))
        have h9 : c9.mem = c.mem := by
          simp only [c9]
          split
          · exact h8
          · exact (Chip.setProg_mem ..).trans h8
        clear_value c9
        exact Chip.wf_nextStep _ _ (h9 ▸ hc)
  next => exact hc

@[simp] theorem Chip.wf_placeTiles (c : Chip) (t k : Nat) (s : Shard) (us : List (List Byte))
    (hc : Memory.wf c.mem = true) :
    Memory.wf (c.placeTiles t k s us).mem = true := by
  unfold Chip.placeTiles
  exact Chip.wf_foldl _ _ _ (fun d p hd => by simp [hd]) hc

@[simp] theorem Chip.wf_placeSite (c : Chip) (t k j : Nat) (s : Shard) (i : Nat) (codes : List Byte)
    (hc : Memory.wf c.mem = true) :
    Memory.wf (c.placeSite t k j s i codes).mem = true := by simp [Chip.placeSite, hc]

@[simp] theorem Chip.wf_shardArrival (c : Chip) (t k j : Nat) (hc : Memory.wf c.mem = true) :
    Memory.wf (c.shardArrival t k j).mem = true := by
  unfold Chip.shardArrival
  dsimp only
  repeat' split
  all_goals simp [hc]

@[simp] theorem Chip.wf_settleSite (c : Chip) (i : Nat) (hc : Memory.wf c.mem = true) :
    Memory.wf (c.settleSite i).mem = true := by
  unfold Chip.settleSite
  split
  next => exact hc
  next o _ =>
    split
    · exact hc
    · dsimp only
      rw [Chip.settleAssign_mem, Chip.count_mem, Chip.setF_mem, Chip.saveRecord_mem, Chip.setF_mem, Chip.setF_mem,
        Chip.setF_mem, Chip.setArr_mem, Chip.setCore_mem]
      exact Memory.wf_zeroStore c i hc

@[simp] theorem Chip.wf_assignSite (c : Chip) (i o rank : Nat) (hc : Memory.wf c.mem = true) :
    Memory.wf (c.assignSite i o rank).mem = true := by
  unfold Chip.assignSite
  dsimp only
  repeat' split
  all_goals simp [hc]

@[simp] theorem Chip.wf_wTentSite (c : Chip) (i : Nat) (x : Word) (hc : Memory.wf c.mem = true) :
    Memory.wf (c.wTentSite i x).2.mem = true := by
  unfold Chip.wTentSite
  dsimp only
  repeat' split
  all_goals simp [hc]

@[simp] theorem Chip.wf_mpTentSites (c : Chip) (m : Cmd) (hc : Memory.wf c.mem = true) :
    Memory.wf (c.mpTentSites m).mem = true := by
  unfold Chip.mpTentSites
  dsimp only
  split
  · simpa using hc
  · rw [Chip.settleAssign_mem]
    exact Chip.wf_foldl _ _ _ (fun d i hd => Chip.wf_assignSite d _ _ _ hd) (by simpa using hc)

@[simp] theorem Chip.wf_wActxCfg (c : Chip) (n s a : Nat) (x : Word) (hc : Memory.wf c.mem = true) :
    Memory.wf (c.wActxCfg n s a x).2.mem = true := by
  unfold Chip.wActxCfg
  split
  next => exact hc
  next i _ =>
    dsimp only
    split
    · exact hc
    · exact Chip.wf_queueCtx _ _ _ _ _ (by simpa using hc) (Chip.wf_actxCreate _ _ _ _ (by simpa using hc))

@[simp] theorem Chip.wf_loadSection (c : Chip) (t code : Nat) (x : Section) (hc : Memory.wf c.mem = true) :
    Memory.wf (c.loadSection t code x).mem = true := by
  unfold Chip.loadSection
  split
  · simp [hc]
  · simp [hc]
  · simpa using hc
  · exact Chip.wf_foldl _ _ _ (fun d a hd => Chip.wf_wActxCfg _ _ _ _ _ (by simpa using hd)) hc
  · exact hc

@[simp] theorem Chip.wf_mpImageLoad (c : Chip) (m : Cmd) (hc : Memory.wf c.mem = true) :
    Memory.wf (c.mpImageLoad m).mem = true := by
  unfold Chip.mpImageLoad
  extract_lets t len code data slot bs hash src c1
  split
  · simpa using hc
  · split
    · simpa using hc
    · split
      · simpa using hc
      · split
        · simpa using hc
        · split
          · simpa using hc
          · split
            · simpa using hc
            · extract_lets codes
              split
              · simpa using hc
              · split
                · simpa using hc
                · rw [Chip.acceptFinish_mem]
                  exact Chip.wf_foldl _ _ _ (fun d x hd => Chip.wf_loadSection d _ _ _ hd) (by simpa [c1] using hc)

@[simp] theorem Chip.wf_submitCoder (c : Chip) (t a : Nat) (hc : Memory.wf c.mem = true) :
    Memory.wf (c.submitCoder t a).mem = true := by
  unfold Chip.submitCoder
  dsimp only
  repeat' split
  all_goals simp [hc]

@[simp] theorem Chip.wf_takeSubmit (c : Chip) (t : Nat) (hc : Memory.wf c.mem = true) :
    Memory.wf (c.takeSubmit t).mem = true := by
  unfold Chip.takeSubmit
  dsimp only
  repeat' split
  all_goals simp [hc]

@[simp] theorem Chip.wf_wDecSubmit (c : Chip) (t : Nat) (x : Word) (hc : Memory.wf c.mem = true) :
    Memory.wf (c.wDecSubmit t x).2.mem = true := by
  unfold Chip.wDecSubmit
  dsimp only
  repeat' split
  all_goals simp [hc]

@[simp] theorem Chip.wf_codeBlockStart (c : Chip) (t now : Nat) (hc : Memory.wf c.mem = true) :
    Memory.wf (c.codeBlockStart t now).mem = true := by
  unfold Chip.codeBlockStart
  dsimp only
  repeat' split
  all_goals simp [hc]

@[simp] theorem Chip.wf_codeBlockEnd (c : Chip) (id b : Nat) (hc : Memory.wf c.mem = true) :
    Memory.wf (c.codeBlockEnd id b).mem = true := by
  unfold Chip.codeBlockEnd
  repeat' split
  all_goals simp [hc]

@[simp] theorem Chip.wf_harqStore (c : Chip) (j : CoderJob) (pass : Bool) (hc : Memory.wf c.mem = true) :
    Memory.wf (c.harqStore j pass).1.mem = true := by
  unfold Chip.harqStore
  dsimp only
  repeat' split
  all_goals simp [hc]

@[simp] theorem Chip.wf_coderComplete (c : Chip) (id : Nat) (hc : Memory.wf c.mem = true) :
    Memory.wf (c.coderComplete id).mem = true := by
  unfold Chip.coderComplete
  split
  next => exact hc
  next j _ =>
    extract_lets d whole m c1 pass crc e h1 c2 c3 c4
    have hm : Memory.wf m.1.mem = true := by
      simp only [m]
      split <;> simpa using hc
    have hh : Memory.wf h1.1.mem = true := by
      simp only [h1, c1]
      split
      · exact hm
      · split
        · exact Chip.wf_harqStore _ _ _ hm
        · simpa using hm
    clear_value h1 m
    split
    · exact hc
    · split
      · exact hm
      · simp [c4, c3, c2, hh]

@[simp] theorem Chip.wf_endCoders (c : Chip) (status : Nat) (hc : Memory.wf c.mem = true) :
    Memory.wf (c.endCoders status).mem = true := by
  unfold Chip.endCoders
  exact Chip.wf_foldl _ _ _ (fun d p hd => Chip.wf_submitCoder d _ _ hd) hc

@[simp] theorem Chip.wf_batchEnd (c : Chip) (k : Nat) (noise : List Int) (hc : Memory.wf c.mem = true) :
    Memory.wf (c.batchEnd k noise).mem = true := by
  unfold Chip.batchEnd
  dsimp only
  repeat' split
  all_goals simp [hc]

@[simp] theorem Chip.wf_jobComplete (c : Chip) (k : Nat) (hc : Memory.wf c.mem = true) :
    Memory.wf (c.jobComplete k).mem = true := by
  unfold Chip.jobComplete
  dsimp only
  repeat' split
  all_goals simp [hc]

@[simp] theorem Chip.wf_clearPresent (c : Chip) (addr : Nat) (hc : Memory.wf c.mem = true) :
    Memory.wf (c.clearPresent addr).mem = true := by simp [Chip.clearPresent, hc]

@[simp] theorem Chip.wf_clearUplink (c : Chip) (e : Eaxc) (n : Nat) (hc : Memory.wf c.mem = true) :
    Memory.wf (c.clearUplink e n).mem = true := by
  unfold Chip.clearUplink
  exact Chip.wf_foldl _ _ _ (fun d j hd => Chip.wf_clearPresent d _ hd) hc

@[simp] theorem Chip.wf_slotOpens (c : Chip) (t : Nat) (hc : Memory.wf c.mem = true) :
    Memory.wf (c.slotOpens t).mem = true := by
  unfold Chip.slotOpens
  extract_lets ft want old c1 sfn slot c2 c3 src radio c4
  have h1 : Memory.wf c1.mem = true := by
    simp only [c1]
    split <;> simpa using hc
  have h4 : Memory.wf c4.mem = true := by
    simpa [c4, c3, c2] using h1
  clear_value c4
  refine Chip.wf_foldl _ _ _ (fun d k hd => ?_) h4
  dsimp only
  split
  · exact Chip.wf_clearUplink d _ _ hd
  · exact hd

@[simp] theorem Chip.wf_slotTick (c : Chip) (t : Nat) (hc : Memory.wf c.mem = true) :
    Memory.wf (c.slotTick t).mem = true := by
  unfold Chip.slotTick
  repeat' split
  all_goals simp [hc]

@[simp] theorem Chip.wf_endWaiting (c : Chip) (owner : Gate) (t : Nat) (hc : Memory.wf c.mem = true) :
    Memory.wf (c.endWaiting owner t).1.mem = true := by
  unfold Chip.endWaiting
  dsimp only
  repeat' split
  all_goals simp [hc]

@[simp] theorem Chip.wf_waitLimit (c : Chip) (g : Gate) (t : Nat) (hc : Memory.wf c.mem = true) :
    Memory.wf (c.waitLimit g t).mem = true := by
  unfold Chip.waitLimit
  refine Chip.wf_foldl _ _ _ (fun d w hd => ?_) hc
  have hr := Chip.wf_endWaiting d (w.job.getD g) t hd
  dsimp only
  split
  · simpa using hr
  · exact hd

@[simp] theorem Chip.wf_capture (c : Chip) (v n : Nat) (e : Int) (hc : Memory.wf c.mem = true) :
    Memory.wf (c.capture v n e).mem = true := by
  unfold Chip.capture
  dsimp only
  repeat' split
  all_goals simp [hc]

@[simp] theorem Chip.wf_freshTick (c : Chip) (v n : Nat) (seq : Nat × Nat × Nat) (m : Int)
    (hc : Memory.wf c.mem = true) :
    Memory.wf (c.freshTick v n seq m).mem = true := by
  unfold Chip.freshTick
  dsimp only
  repeat' split
  all_goals simp [hc]

@[simp] theorem Chip.wf_computeTick (c : Chip) (v n : Nat) (hc : Memory.wf c.mem = true) :
    Memory.wf (c.computeTick v n).mem = true := by
  unfold Chip.computeTick
  dsimp only
  repeat' split
  all_goals simp [hc]

@[simp] theorem Chip.wf_loopTick (c : Chip) (v n : Nat) (hc : Memory.wf c.mem = true) :
    Memory.wf (c.loopTick v n).mem = true := by
  unfold Chip.loopTick
  dsimp only
  repeat' split
  all_goals simp [hc]

@[simp] theorem Chip.wf_endDale (c : Chip) (k status : Nat) (hc : Memory.wf c.mem = true) :
    Memory.wf (c.endDale k status).mem = true := by
  unfold Chip.endDale
  extract_lets c1 c2 c3 dl c4
  have h1 : Memory.wf c1.mem = true := by
    simp only [c1]
    split
    · split <;> simpa using hc
    · exact hc
  have h3 : Memory.wf c3.mem = true :=
    Chip.wf_foldl _ _ _ (fun d j hd => Chip.wf_finishRun _ _ (by simpa using hd)) (Chip.wf_finishRun c1 k h1)
  clear_value c3
  simpa [c4, dl] using h3

@[simp] theorem Chip.wf_endJobs (c : Chip) (status : Nat) (hc : Memory.wf c.mem = true) :
    Memory.wf (c.endJobs status).mem = true := by
  unfold Chip.endJobs
  extract_lets ds c1 c2
  have h1 : Memory.wf c1.mem = true := Chip.wf_foldl _ _ _ (fun d k hd => Chip.wf_endDale d _ _ hd) hc
  refine Chip.wf_foldl _ _ _ (fun d i hd => ?_) (Chip.wf_endCoders c1 _ h1)
  split
  · exact Chip.wf_coderComplete _ _ (by simpa using hd)
  · exact hd

@[simp] theorem Chip.wf_enterHold (c : Chip) (cause : Nat) (hc : Memory.wf c.mem = true) :
    Memory.wf (c.enterHold cause).mem = true := by
  unfold Chip.enterHold
  dsimp only
  repeat' split
  all_goals simp [hc]

@[simp] theorem Chip.wf_hkTick (c : Chip) (ss : List HkSample) (hc : Memory.wf c.mem = true) :
    Memory.wf (c.hkTick ss).mem = true := by
  unfold Chip.hkTick
  extract_lets c1 c2 c3 power src c4 c5
  have h2 : c2.mem = c.mem := (Chip.foldl_mem _ _ _ fun d k => Chip.setF_mem d ..).trans (by simp [c1])
  have h3 : c3.mem = c.mem := by
    rw [Chip.senseCoolant_mem, Chip.foldl_mem _ _ _ fun d k => Chip.senseRail_mem d k, h2]
  have h5 : c5.mem = c.mem := by
    simpa [c5, c4] using h3
  clear_value c5
  split
  · exact Chip.wf_enterHold _ _ (h5 ▸ hc)
  · exact h5 ▸ hc

theorem Chip.wf_whenUp (c : Chip) (f : Chip → Chip) (hn : Memory.wf (f c).mem = true)
    (hc : Memory.wf c.mem = true) : Memory.wf (c.whenUp f).mem = true := by
  unfold Chip.whenUp
  split
  · exact hn
  · exact hc

@[simp] theorem Chip.wf_postDone (c : Chip) (p : Post) (status : Nat) (hc : Memory.wf c.mem = true) :
    Memory.wf (c.postDone p status).mem = true := by
  unfold Chip.postDone
  repeat' split
  all_goals simp [hc]

@[simp] theorem Chip.wf_wMsgPost (c : Chip) (t : Nat) (x : Word) (hc : Memory.wf c.mem = true) :
    Memory.wf (c.wMsgPost t x).2.mem = true := by
  unfold Chip.wMsgPost
  dsimp only
  repeat' split
  all_goals simp [hc]

@[simp] theorem Chip.wf_sendFirst (c : Chip) (t : Nat) (hc : Memory.wf c.mem = true) :
    Memory.wf (c.sendFirst t).1.mem = true := by
  unfold Chip.sendFirst
  dsimp only
  repeat' split
  all_goals simp [hc]

@[simp] theorem Chip.wf_sendAny (c : Chip) (ts : List Nat) (hc : Memory.wf c.mem = true) :
    Memory.wf (c.sendAny ts).mem = true := by
  induction ts generalizing c with
  | nil => exact hc
  | cons t ts ih =>
    have hr := Chip.wf_sendFirst c t hc
    unfold Chip.sendAny
    dsimp only
    split
    · exact hr
    · exact ih _ hr

@[simp] theorem Chip.wf_messageSend (c : Chip) (hc : Memory.wf c.mem = true) :
    Memory.wf c.messageSend.mem = true := by
  unfold Chip.messageSend
  exact Chip.wf_whenUp _ _ (Chip.wf_sendAny _ _ hc) hc

@[simp] theorem Chip.wf_mpAttest (c : Chip) (m : Cmd) (hc : Memory.wf c.mem = true) :
    Memory.wf (c.mpAttest m).mem = true := by
  unfold Chip.mpAttest
  dsimp only
  repeat' split
  all_goals simp [hc]

@[simp] theorem Chip.wf_powerOff (c : Chip) : Memory.wf c.powerOff.mem = true := rfl

@[simp] theorem Chip.wf_trip (c : Chip) (cause : Nat) (hc : Memory.wf c.mem = true) :
    Memory.wf (c.trip cause).mem = true := by
  unfold Chip.trip
  repeat' split
  all_goals simp [hc]

@[simp] theorem Chip.wf_wakeWithdrawn (c : Chip) (hc : Memory.wf c.mem = true) :
    Memory.wf c.wakeWithdrawn.mem = true := by
  unfold Chip.wakeWithdrawn
  dsimp only
  repeat' split
  all_goals simp [hc]

@[simp] theorem Chip.wf_stageFault (c : Chip) (k cause : Nat) (hc : Memory.wf c.mem = true) :
    Memory.wf (c.stageFault k cause).mem = true := by
  unfold Chip.stageFault
  repeat' split
  all_goals simp [hc]

@[simp] theorem Chip.wf_inputTrip (c : Chip) (f : Fld) (fired : Bool) (cause : Nat) (hc : Memory.wf c.mem = true) :
    Memory.wf (c.inputTrip f fired cause).mem = true := by
  unfold Chip.inputTrip
  repeat' split
  all_goals simp [hc]

@[simp] theorem Chip.wf_coolantComparator (c : Chip) (hot : Bool) (hc : Memory.wf c.mem = true) :
    Memory.wf (c.coolantComparator hot).mem = true := by
  unfold Chip.coolantComparator
  repeat' split
  all_goals simp [hc]

@[simp] theorem Chip.wf_onBackup (c : Chip) (hc : Memory.wf c.mem = true) :
    Memory.wf c.onBackup.mem = true := by
  unfold Chip.onBackup
  repeat' split
  all_goals simp [hc]

@[simp] theorem Chip.wf_lanternLoss (c : Chip) (hc : Memory.wf c.mem = true) :
    Memory.wf c.lanternLoss.mem = true := by simp [Chip.lanternLoss, hc]

@[simp] theorem Chip.wf_hkEvent (c : Chip) (ss : List HkSample) (hc : Memory.wf c.mem = true) :
    Memory.wf (c.hkEvent ss).mem = true := by
  unfold Chip.hkEvent
  dsimp only
  repeat' split
  all_goals simp [hc]

@[simp] theorem Chip.wf_restoreSlot (c : Chip) (t k : Nat) (x : SlotItem) (noise : List (Nat × List Int))
    (hc : Memory.wf c.mem = true) :
    Memory.wf (c.restoreSlot t k x noise).mem = true := by
  unfold Chip.restoreSlot
  split
  · exact hc
  · split
    · simpa using hc
    · split
      · simpa using hc
      · split
        · simpa using hc
        · extract_lets is r c1 c2
          have hr : r.2.mem = c.mem :=
            foldl_mem_of (fun r : Bool × Chip => r.2) _ _ _ fun r i => Chip.fingerAgain_mem r.2 ..
          clear_value r
          split
          · simpa [c2, c1, hr] using hc
          · simpa [c1, hr] using hc

@[simp] theorem Chip.wf_enterService (c : Chip) (noise : List (Nat × List Int)) (hc : Memory.wf c.mem = true) :
    Memory.wf (c.enterService noise).mem = true := by
  unfold Chip.enterService
  split
  · exact hc
  · extract_lets c1 c2 src c3
    have h1 : Memory.wf c1.mem = true := by
      simp only [c1]
      split
      · rwa [Chip.foldl_mem _ _ _ fun d k => Chip.settleQuiesce_mem d k]
      · exact Chip.wf_foldl _ _ _ (fun d p hd => Chip.wf_restoreSlot d _ _ _ _ hd) hc
    have h3 : c3.mem = c1.mem := Chip.clearHarqs_mem c1
    clear_value c3
    rwa [Chip.askBoosters_mem, Chip.giveFloors_mem, h3]

@[simp] theorem Chip.wf_flushSteps (c : Chip) (i : Nat) (hc : Memory.wf c.mem = true) :
    Memory.wf (c.flushSteps i).mem = true := by
  unfold Chip.flushSteps
  extract_lets k keep rest credit c1
  refine foldl_wf_of (fun r : Chip × Bool => r.1) _ _ _ (fun r x hr => ?_) (by simpa [c1] using hc)
  split
  · exact Chip.wf_actxCreate _ _ _ _ hr
  · exact Chip.wf_actxClose _ _ _ hr
  · dsimp only
    split
    · simpa using hr
    · exact hr

@[simp] theorem Chip.wf_drainUnitEnd (c : Chip) (u n : Nat) (fault : Bool) (hc : Memory.wf c.mem = true) :
    Memory.wf (c.drainUnitEnd u n fault).mem = true := by
  unfold Chip.drainUnitEnd
  split
  · extract_lets c1 c2 regs c3 c4
    have h1 : Memory.wf c1.mem = true := Chip.wf_foldl _ _ _ (fun d k hd => Chip.wf_endDale d _ _ hd) hc
    have h4 : c4.mem = c1.mem := (Chip.foldl_mem _ _ _ fun d k => by simp).trans (by simp [c3, c2])
    clear_value c4
    rw [Chip.groupToFloor_mem, h4]
    exact h1
  · extract_lets c1 c2 c3
    have h1 : Memory.wf c1.mem = true := Chip.wf_foldl _ _ _ (fun d i hd => Chip.wf_flushSteps d i hd) hc
    clear_value c1
    simpa [c3, c2] using h1

@[simp] theorem Chip.wf_drainUnitBegin (c : Chip) (u n : Nat) (hc : Memory.wf c.mem = true) :
    Memory.wf (c.drainUnitBegin u n).mem = true := by
  generalize hd : c.drainUnitBegin u n = d
  unfold Chip.drainUnitBegin at hd
  split at hd
  · rw [← hd]
    exact Chip.wf_foldl _ _ _ (fun d k hd => by rwa [Chip.setDale_mem]) hc
  · extract_lets src c1 at hd
    have h1 : c1.mem = c.mem := (Chip.moveSites_mem _ n 2 6).trans (Chip.setVeld_mem c ..)
    clear_value c1
    rw [← hd]
    exact Chip.wf_foldl _ _ _ (fun d i hd => Chip.wf_flushSteps d i hd) (by rwa [h1])

@[simp] theorem Chip.wf_drainEnd (c : Chip) (u n : Nat) (hc : Memory.wf c.mem = true) :
    Memory.wf (c.drainEnd u n).mem = true := by
  unfold Chip.drainEnd
  repeat' split
  all_goals simp [hc]

@[simp] theorem Chip.wf_settleDrain (c : Chip) (u n : Nat) (hc : Memory.wf c.mem = true) :
    Memory.wf (c.settleDrain u n).mem = true := by
  unfold Chip.settleDrain
  repeat' split
  all_goals simp [hc]

@[simp] theorem Chip.wf_mpDrain (c : Chip) (m : Cmd) (hc : Memory.wf c.mem = true) :
    Memory.wf (c.mpDrain m).mem = true := by
  unfold Chip.mpDrain
  dsimp only
  repeat' split
  all_goals simp [hc]

@[simp] theorem Chip.wf_channelFault (c : Chip) (die index channel : Nat) (units : List (Nat × Nat))
    (hc : Memory.wf c.mem = true) :
    Memory.wf (c.channelFault die index channel units).mem = true := by
  unfold Chip.channelFault
  split
  · exact hc
  · refine Chip.wf_foldl _ _ _ (fun d p hd => ?_) (by simpa using hc)
    split
    · simpa using hd
    · exact Chip.wf_settleDrain _ _ _ (Chip.wf_drainUnitBegin _ _ _ (by simpa using hd))

@[simp] theorem Chip.wf_mpCalExport (c : Chip) (m : Cmd) (hc : Memory.wf c.mem = true) :
    Memory.wf (c.mpCalExport m).mem = true := by
  unfold Chip.mpCalExport
  repeat' split
  all_goals simp [hc]

@[simp] theorem Chip.wf_writePrb (c : Chip) (e : Eaxc) (n : Nat) (p : RxPrb) (hc : Memory.wf c.mem = true) :
    Memory.wf (c.writePrb e n p).mem = true := by simp [Chip.writePrb, hc]

@[simp] theorem Chip.wf_uplane (c : Chip) (port : Nat) (bytes : List Byte) (after : Int)
    (hc : Memory.wf c.mem = true) :
    Memory.wf (c.uplane port bytes after).mem = true := by
  unfold Chip.uplane
  split
  · exact hc
  · split
    · simpa using hc
    · split
      · exact hc
      · split
        · simpa using hc
        · split
          · simpa using hc
          · split
            · exact hc
            · extract_lets a e h
              split
              · simpa using hc
              · split
                · simpa using hc
                · split
                  · simpa using hc
                  · exact Chip.wf_foldl _ _ _ (fun d p hd => Chip.wf_writePrb d _ _ _ hd) hc

@[simp] theorem Chip.wf_sendPrb (c : Chip) (m w addr : Nat) (hc : Memory.wf c.mem = true) :
    Memory.wf (c.sendPrb m w addr).2.mem = true := by
  unfold Chip.sendPrb
  dsimp only
  repeat' split
  all_goals simp [hc]

@[simp] theorem Chip.wf_sendSymbol (fuel : Nat) (c : Chip) (x : CSection) (e : Eaxc) (slot l k left : Nat)
    (hc : Memory.wf c.mem = true) : Memory.wf (Chip.sendSymbol fuel c x e slot l k left).mem = true := by
  induction fuel generalizing c k left with
  | zero => exact hc
  | succ fuel ih =>
    unfold Chip.sendSymbol
    split
    · exact hc
    · extract_lets n r c1 seq radio c2 hdr msg
      have hr : Memory.wf r.2.mem = true := foldl_wf_of (fun r : List Byte × Chip => r.2) _ _ _
        (fun r j h => Chip.wf_sendPrb r.2 _ _ _ h) hc
      clear_value r
      exact ih _ _ _ (by rwa [Chip.sendEther_mem])

@[simp] theorem Chip.wf_dlUplane (c : Chip) (slot l : Nat) (hc : Memory.wf c.mem = true) :
    Memory.wf (c.dlUplane slot l).mem = true := by
  unfold Chip.dlUplane
  split
  · exact hc
  · refine Chip.wf_foldl _ _ _ (fun d x hd => ?_) hc
    dsimp only
    split
    · exact Chip.wf_sendSymbol _ _ _ _ _ _ _ _ hd
    · exact hd

@[simp] theorem Chip.wf_wDaleSide (c : Chip) (v d : Nat) (x : Word) (hc : Memory.wf c.mem = true) :
    Memory.wf (c.wDaleSide v d x).2.mem = true := by simp [Chip.wDaleSide, hc]

@[simp] theorem Chip.wf_regSet (c : Chip) (r : Reg) (xs : List Word) (hc : Memory.wf c.mem = true) :
    Memory.wf (c.regSet r xs).2.mem = true := by
  unfold Chip.regSet
  dsimp only
  repeat' split
  all_goals simp [hc]

@[simp] theorem Chip.wf_regWriteAt (c : Chip) (t addr : Nat) (xs : List Word) (hc : Memory.wf c.mem = true) :
    Memory.wf (c.regWriteAt t addr xs).2.2.mem = true := by
  unfold Chip.regWriteAt
  dsimp only
  repeat' split
  all_goals simp [hc]

@[simp] theorem Chip.wf_regWrites (k : Nat) (c : Chip) (t addr : Nat) (xs : List Word) (done : Nat)
    (hc : Memory.wf c.mem = true) : Memory.wf (Chip.regWrites k c t addr xs done).2.2.mem = true := by
  induction k generalizing c addr xs done with
  | zero => exact hc
  | succ k ih =>
    unfold Chip.regWrites
    dsimp only
    split
    · exact hc
    · split
      · exact ih _ _ _ _ (Chip.wf_regWriteAt _ _ _ _ hc)
      · exact hc

@[simp] theorem Chip.wf_slotWrites (k : Nat) (c : Chip) (t base : Nat) (ws : List Word)
    (hc : Memory.wf c.mem = true) :
    Memory.wf (Chip.slotWrites k c t base ws).mem = true := by
  induction k generalizing c base ws with
  | zero => exact hc
  | succ k ih =>
    unfold Chip.slotWrites
    dsimp only
    split
    · exact hc
    · split
      · exact ih _ _ _ (Chip.wf_regWriteAt _ _ _ _ hc)
      · exact ih _ _ _ hc

@[simp] theorem Chip.wf_regStore (c : Chip) (t addr : Nat) (bs : List Byte) (hc : Memory.wf c.mem = true) :
    Memory.wf (c.regStore t addr bs).mem = true := by simp [Chip.regStore, hc]

@[simp] theorem Chip.wf_hwRegWrite (c : Chip) (m : Cmd) (hc : Memory.wf c.mem = true) :
    Memory.wf (c.hwRegWrite m).mem = true := by
  unfold Chip.hwRegWrite
  repeat' split
  all_goals simp [hc]

@[simp] theorem Chip.wf_registerWrite (c : Chip) (w : Writer) (addr : Nat) (xs : List Word)
    (hc : Memory.wf c.mem = true) :
    Memory.wf (c.registerWrite w addr xs).mem = true := by simp [Chip.registerWrite, hc]

@[simp] theorem Chip.wf_homeStore (c : Chip) (tent home : Nat) (bs : List Byte) (hc : Memory.wf c.mem = true) :
    Memory.wf (c.homeStore tent home bs).mem = true := by
  unfold Chip.homeStore
  repeat' split
  all_goals simp [hc]

@[simp] theorem Chip.wf_homeAmo (c : Chip) (home n fn rb cmp : Nat) (hc : Memory.wf c.mem = true) :
    Memory.wf (c.homeAmo home n fn rb cmp).2.mem = true := by simp [Chip.homeAmo, hc]

@[simp] theorem Chip.wf_accessDone (c : Chip) (h : Hart) (a : Access) (data : List Byte)
    (hc : Memory.wf c.mem = true) :
    Memory.wf (c.accessDone h a data).mem = true := by
  unfold Chip.accessDone
  dsimp only
  repeat' split
  all_goals simp [hc]

@[simp] theorem Chip.wf_accessFailed (c : Chip) (h : Hart) (a : Access) (hc : Memory.wf c.mem = true) :
    Memory.wf (c.accessFailed h a).mem = true := by
  unfold Chip.accessFailed
  repeat' split
  all_goals simp [hc]

@[simp] theorem Chip.wf_performAccess (c : Chip) (h : Hart) (a : Access) (hc : Memory.wf c.mem = true) :
    Memory.wf (c.performAccess h a).mem = true := by
  unfold Chip.performAccess
  repeat' split
  all_goals simp [hc]

@[simp] theorem Chip.wf_memResponse (c : Chip) (h : Hart) (n : Nat) (hc : Memory.wf c.mem = true) :
    Memory.wf (c.memResponse h n).mem = true := by
  unfold Chip.memResponse
  dsimp only
  repeat' split
  all_goals simp [hc]

theorem Chip.wf_sendAccess (c : Chip) (h : Hart) (k : AccessKind) (addr len : Nat) {d : Chip}
    (hd : c.sendAccess h k addr len = some d) (hc : Memory.wf c.mem = true) :
    Memory.wf d.mem = true := by
  unfold Chip.sendAccess at hd
  dsimp only at hd
  split at hd
  next => cases hd
  next tag e he =>
    obtain rfl := Option.some.inj hd
    rw [Chip.setThread_mem, Chip.remoteRequest_mem he]
    exact hc

@[simp] theorem Chip.wf_doServe (c : Chip) (s : Serve) (hc : Memory.wf c.mem = true) :
    Memory.wf (c.doServe s).mem = true := by
  unfold Chip.doServe
  repeat' split
  all_goals simp [hc]

@[simp] theorem Chip.wf_serve (c : Chip) (s : Serve) (hc : Memory.wf c.mem = true) :
    Memory.wf (c.serve s).mem = true := by
  unfold Chip.serve
  dsimp only
  repeat' split
  all_goals simp [hc]

@[simp] theorem Chip.wf_serveAgain (c : Chip) (s : Serve) (hc : Memory.wf c.mem = true) :
    Memory.wf (c.serveAgain s).mem = true := by
  unfold Chip.serveAgain
  dsimp only
  repeat' split
  all_goals simp [hc]

@[simp] theorem Chip.wf_serveRetry (c : Chip) (hc : Memory.wf c.mem = true) :
    Memory.wf c.serveRetry.mem = true := by
  unfold Chip.serveRetry
  extract_lets c1
  have h1 : Memory.wf c1.mem = true := Chip.wf_foldl _ _ _
    (fun d q hd => Chip.wf_foldl _ _ _ (fun e s he => Chip.wf_serveAgain e s he) hd) hc
  exact Chip.wf_foldl _ _ _ (fun e s he => Chip.wf_serveAgain e s he) h1

@[simp] theorem Chip.wf_serveFrame (c : Chip) (f : PassFrame) (hc : Memory.wf c.mem = true) :
    Memory.wf (c.serveFrame f).mem = true := by
  unfold Chip.serveFrame
  dsimp only
  repeat' split
  all_goals simp [hc]

@[simp] theorem Chip.wf_failRemote (c : Chip) (r : Remote) (hc : Memory.wf c.mem = true) :
    Memory.wf (c.failRemote r).mem = true := by
  unfold Chip.failRemote
  repeat' split
  all_goals simp [hc]

@[simp] theorem Chip.wf_answered (c : Chip) (f : PassFrame) (hc : Memory.wf c.mem = true) :
    Memory.wf (c.answered f).mem = true := by
  unfold Chip.answered
  dsimp only
  repeat' split
  all_goals simp [hc]

@[simp] theorem Chip.wf_remoteTimeout (c : Chip) (tag : Nat) (hc : Memory.wf c.mem = true) :
    Memory.wf (c.remoteTimeout tag).mem = true := by
  unfold Chip.remoteTimeout
  repeat' split
  all_goals simp [hc]

@[simp] theorem Chip.wf_sinkFrame (c : Chip) (n : Nat) (f : PassFrame) (hc : Memory.wf c.mem = true) :
    Memory.wf (c.sinkFrame n f).mem = true := by
  unfold Chip.sinkFrame
  dsimp only
  repeat' split
  all_goals simp [hc]

@[simp] theorem Chip.wf_hwMem (c : Chip) (op : Nat) (m : Cmd) (hc : Memory.wf c.mem = true) :
    Memory.wf (c.hwMem op m).mem = true := by
  unfold Chip.hwMem
  extract_lets a len write p
  split
  · simpa using hc
  · split
    · simpa using hc
    · split
      · simp [hc]
      · split
        · split
          · simpa using hc
          · extract_lets
            split
            · simp [hc]
            · simpa using hc
        · split
          next y hy =>
            obtain ⟨n, d⟩ := y
            rw [Chip.remoteRequest_mem hy]
            exact hc
          next => simpa using hc

@[simp] theorem Chip.wf_mpBody (c : Chip) (k : Cairn) (x : MpItem) (hc : Memory.wf c.mem = true) :
    Memory.wf (c.mpBody k x).mem = true := by
  unfold Chip.mpBody
  extract_lets m act
  split
  case h_4 =>
    split
    · rwa [Chip.mpTentCtl_mem _ _ _ _ fun t => Chip.openTent_mem c t]
    · split
      · rwa [Chip.mpTentCtl_mem _ _ _ _ fun t => Chip.quiesceTent_mem c t]
      · rwa [Chip.mpTentCtl_mem _ _ _ _ fun t => Chip.closeTent_mem c t]
  case h_38 => exact hc
  all_goals simp [hc]

@[simp] theorem Chip.wf_mpServe (fuel : Nat) (c : Chip) (k : Cairn) (hc : Memory.wf c.mem = true) :
    Memory.wf (Chip.mpServe fuel c k).mem = true := by
  induction fuel generalizing c with
  | zero => exact hc
  | succ n ih =>
    unfold Chip.mpServe
    split
    · exact hc
    · have hturn := Chip.mpTurn_mem c ((List.range 64).map fun d => (c.servedLast .mp + 1 + d) % 64)
      split
      next d hd =>
        rw [hd] at hturn
        rwa [hturn]
      next d t hd =>
        rw [hd] at hturn
        have hdw : Memory.wf d.mem = true := by rwa [hturn]
        split
        next => exact hdw
        next x rest _ => exact ih _ (Chip.wf_mpBody _ _ _ (by rwa [Chip.mpTaken_mem, Chip.setMpQueue_mem]))

@[simp] theorem Chip.wf_wakeIssue (c : Chip) (which : Nat → Bool) (hc : Memory.wf c.mem = true) :
    Memory.wf (c.wakeIssue which).mem = true := by
  unfold Chip.wakeIssue
  all_goals simp [hc, apply_ite Chip.mem]

@[simp] theorem Chip.wf_quadRetry (c : Chip) (hc : Memory.wf c.mem = true) :
    Memory.wf c.quadRetry.mem = true := by
  unfold Chip.quadRetry
  exact Chip.wf_wakeIssue _ _ (Chip.wf_foldl _ _ _ (fun d k hd => Chip.wf_retryRows d k hd) (Chip.wf_serveRetry c hc))

@[simp] theorem Chip.wf_gateChange (c : Chip) (k : Cairn) (g : Gate) (hc : Memory.wf c.mem = true) :
    Memory.wf (c.gateChange k g).mem = true := by
  unfold Chip.gateChange
  repeat' split
  all_goals simp [hc]

@[simp] theorem Chip.wf_granted1 (c : Chip) (a : Asker) (hc : Memory.wf c.mem = true) :
    Memory.wf (c.granted1 a).mem = true := by
  unfold Chip.granted1
  split
  · extract_lets src c1
    have h1 : Memory.wf c1.mem = true := by rwa [Chip.setDale_mem]
    clear_value c1
    split
    · split <;> simpa using h1
    · exact h1
  · refine Chip.wf_foldl _ _ _ (fun d w hd => ?_) (by simpa using hc)
    split
    · exact Chip.wf_nextStep d _ hd
    · exact hd
  · extract_lets v c1
    have h1 : Memory.wf c1.mem = true := by rwa [Chip.setVeld_mem]
    clear_value c1
    split <;> simpa using h1
  · exact Chip.wf_quadRetry _ hc
  · exact hc
  · exact hc
  · extract_lets on
    split <;> simpa using hc

@[simp] theorem Chip.wf_creditGrant (c : Chip) (hc : Memory.wf c.mem = true) :
    Memory.wf c.creditGrant.mem = true := by
  unfold Chip.creditGrant
  repeat' split
  all_goals simp [hc]

theorem Chip.wf_charged (c : Chip) (h : Hart) (need : List Charge) (fill : Option (List Byte)) (body : Chip → Chip)
    (hc : Memory.wf c.mem = true) (hb : ∀ d, Memory.wf d.mem = true → Memory.wf (body d).mem = true) :
    Memory.wf (c.charged h need fill body).mem = true := by
  unfold Chip.charged
  have hr : (c.admitCharges (.core h.i) ((c.siteTent h.i, .core h.i, 1) :: need) c).1.mem = c.mem :=
    Chip.admitCharges_mem _ _ _ rfl
  dsimp only
  split
  · refine hb _ ?_
    rw [Chip.setCore_mem]
    split
    · rw [Chip.fillLine_mem, hr]
      exact hc
    · rw [hr]
      exact hc
  · rw [Chip.stall_mem, hr]
    exact hc

theorem Chip.wf_issue (c : Chip) (h : Hart) (w : BitVec 32) (release : Bool) (touch : Option Touch)
    (body : Chip → Chip)
    (hc : Memory.wf c.mem = true) (hb : ∀ d, Memory.wf d.mem = true → Memory.wf (body d).mem = true) :
    Memory.wf (c.issue h w release touch body).mem = true := by
  unfold Chip.issue
  dsimp only
  split
  · exact hc
  · split
    · exact Chip.wf_charged _ _ _ _ _ hc fun d hd => by simpa using hd
    · split
      · exact Chip.wf_charged _ _ _ _ _ hc fun d hd => by simpa using hd
      · split
        next d hd =>
          rw [Chip.stall_mem]
          exact Chip.wf_sendAccess _ _ _ _ _ hd hc
        next => exact Chip.wf_charged _ _ _ _ _ hc fun d hd => by simpa using hd
      · split
        · exact hc
        · split
          · exact Chip.wf_charged _ _ _ _ _ hc fun d hd => by simpa using hd
          · split
            · simpa using hc
            · exact Chip.wf_charged _ _ _ _ _ hc hb

@[simp] theorem Chip.wf_access (c : Chip) (h : Hart) (k : AccessKind) (p : Perm) (addr len align : Nat)
    (hc : Memory.wf c.mem = true) :
    Memory.wf (c.access h k p addr len align).mem = true := by
  unfold Chip.access
  extract_lets here away
  have hhere (d : Chip) (hd : Memory.wf d.mem = true) : Memory.wf (here d).mem = true := by
    simp only [here]
    split <;> simp [hd]
  have haway (d : Chip) (hd : Memory.wf d.mem = true) : Memory.wf (away d).mem = true := by
    simp only [away]
    split <;> simp [hd]
  clear_value here away
  split
  · simpa using hc
  · split
    · simpa using hc
    · exact hhere c hc
    · exact hhere c hc
    · exact haway _ (by simpa using hc)
    · split
      next d hd => exact haway d (Chip.wf_sendAccess _ _ _ _ _ hd hc)
      next => simpa using hc

@[simp] theorem Chip.wf_astep (c : Chip) (h : Hart) (rd : Nat) (addr fn : Nat) (hc : Memory.wf c.mem = true) :
    Memory.wf (c.astep h rd addr fn).mem = true := by
  unfold Chip.astep
  dsimp only
  repeat' split
  all_goals simp [hc]

@[simp] theorem Chip.wf_aclose (c : Chip) (h : Hart) (rd a : Nat) (hc : Memory.wf c.mem = true) :
    Memory.wf (c.aclose h rd a).mem = true := by
  unfold Chip.aclose
  split
  · simpa using hc
  · rw [Chip.answerStatus_mem]
    exact Chip.wf_queueCtx _ _ _ _ _ hc (Chip.wf_actxClose _ _ _ hc)

@[simp] theorem Chip.wf_watchRead (c : Chip) (h : Hart) (addr : Nat) (hc : Memory.wf c.mem = true) :
    Memory.wf (c.watchRead h addr).mem = true := by
  unfold Chip.watchRead
  extract_lets a
  split
  · simpa using hc
  · split
    · exact hc
    · simp [hc]
  · split
    next d hd => exact Chip.wf_sendAccess _ _ _ _ _ hd hc
    next => simpa using hc
  · simp [hc]

@[simp] theorem Chip.wf_waitm (c : Chip) (h : Hart) (rd addr : Nat) (old : Word) (timed : Bool)
    (hc : Memory.wf c.mem = true) :
    Memory.wf (c.waitm h rd addr old timed).mem = true := by
  unfold Chip.waitm
  repeat' split
  all_goals simp [hc]

@[simp] theorem Chip.wf_watchWake (c : Chip) (h : Hart) (hc : Memory.wf c.mem = true) :
    Memory.wf (c.watchWake h).mem = true := by
  unfold Chip.watchWake
  repeat' split
  all_goals simp [hc]

@[simp] theorem Chip.wf_watchPoll (c : Chip) (h : Hart) (hc : Memory.wf c.mem = true) :
    Memory.wf (c.watchPoll h).mem = true := by
  unfold Chip.watchPoll
  split
  · split
    · exact hc
    · extract_lets r
      have hr : Memory.wf r.1.mem = true := by rwa [Chip.admitCharges_mem _ _ _ rfl]
      split
      · exact Chip.wf_watchRead _ _ _ hr
      · exact hr
  · exact hc

@[simp] theorem Chip.wf_siteProgrammed (c : Chip) (n ps t k sw soff : Nat) (seeds : List Byte) (i : Nat)
    (hc : Memory.wf c.mem = true) :
    Memory.wf (c.siteProgrammed n ps t k sw soff seeds i).mem = true := by
  unfold Chip.siteProgrammed
  extract_lets c1 e src c2 c3 c4
  have h1 : Memory.wf c1.mem = true := Memory.wf_store _ _ _ hc
  have h4 : c4.mem = c1.mem := (Chip.saveRecord_mem c3 ..).trans ((Chip.setF_mem ..).trans ((Chip.setF_mem ..).trans
    ((Chip.setF_mem c2 ..).trans (Chip.setArr_mem c1 ..))))
  have hw : Memory.wf c4.mem = true := by rwa [h4]
  clear_value c4
  split
  · split
    · simpa using hw
    · exact hw
  · exact hw

@[simp] theorem Chip.wf_programmingDone (c : Chip) (n ps : Nat) (noise : List Int) (hc : Memory.wf c.mem = true) :
    Memory.wf (c.programmingDone n ps noise).mem = true := by
  unfold Chip.programmingDone
  split
  next => exact hc
  next p _ =>
    split
    · exact hc
    · split
      · rw [Chip.wornOut_mem]
        exact Chip.wf_siteProgrammed _ _ _ _ _ _ _ _ _ (by rwa [Chip.programEnd_mem])
      · extract_lets c1
        have h1 : Memory.wf c1.mem = true := by rwa [Chip.saveRecord_mem, Chip.programEnd_mem]
        clear_value c1
        split
        · split <;> simpa using h1
        · exact h1
      · refine Chip.wf_nextStep _ _ ?_
        rwa [Chip.wornOut_mem, Chip.saveRecord_mem, Chip.setF_mem, Chip.setVeld_mem, Chip.setF_mem, Chip.programEnd_mem]
      · exact hc


end Sys2Proof.Machine
end

section
/-!
Memory in canonical form through every command (R22): the statement O6.
-/

namespace Sys2Proof.Machine

section
variable {c : Chip} (hc : Memory.wf c.mem = true)
include hc

theorem Chip.wf_mpReceive (op : Nat) (m : Cmd) (meas : List Int) {body : Chip → Chip}
    (hb : ∀ d, Memory.wf d.mem = true → Memory.wf (body d).mem = true) :
    Memory.wf (c.mpReceive op m meas body).mem = true := by
  unfold Chip.mpReceive
  dsimp only
  split
  · simpa using hc
  · split
    · simpa using hc
    · split
      · split
        next d hd => exact hb _ (by rwa [Chip.mpTaken_mem, Chip.spend_mem hd])
        next => simpa using hc
      · simpa using hc

theorem Chip.wf_hwReceive (op : Nat) (m : Cmd) {body : Chip → Chip}
    (hb : ∀ d, Memory.wf d.mem = true → Memory.wf (body d).mem = true) :
    Memory.wf (c.hwReceive op m body).mem = true := by
  unfold Chip.hwReceive
  split
  · simpa using hc
  · exact hb c hc

theorem Chip.wf_regWrite (w : Writer) (r : Reg) (x : Word) {body : Chip → Nat × Chip}
    (hb : Memory.wf (body c).2.mem = true) : Memory.wf (c.regWrite w r x body).mem = true := by
  unfold Chip.regWrite
  split
  · simpa using hb
  · simpa using hc

end

section
variable {s : State}

/-- The command answers a state whose memory is in canonical form. -/
def KeepsWf (s : State) (o : Outcome) : Prop := Answers s false (fun c => Memory.wf c.mem = true) o

variable (hs : Memory.wf s.chip.mem = true)
include hs

theorem mp_keepsWf {op : Nat} {m : Cmd} {meas : List Int} {body : Chip → Chip}
    (hb : ∀ d, Memory.wf d.mem = true → Memory.wf (body d).mem = true) :
    KeepsWf s (onHost m s fun c => c.mpReceive op m meas body) :=
  onHost_answers nofun hs (Chip.wf_mpReceive hs op m meas hb)

theorem hw_keepsWf {op : Nat} {m : Cmd} {body : Chip → Chip}
    (hb : ∀ d, Memory.wf d.mem = true → Memory.wf (body d).mem = true) :
    KeepsWf s (onHost m s fun c => c.hwReceive op m body) :=
  onHost_answers nofun hs (Chip.wf_hwReceive hs op m hb)

theorem reg_keepsWf {w : Writer} {r : Reg} {x : Word} {body : Chip → Nat × Chip}
    (hb : Memory.wf (body s.chip).2.mem = true) : KeepsWf s (onReg w r x s body) :=
  onReg_answers nofun hs (Chip.wf_regWrite hs w r x hb)

theorem thread_keepsWf {h : Hart} {i : Instr} {body : Chip → Chip} {release : Bool} {touch : Chip → Option Touch}
    (hb : ∀ d, Memory.wf d.mem = true → Memory.wf (body d).mem = true) :
    KeepsWf s (onThread h i s body release touch) :=
  onThread_answers nofun hs fun w => Chip.wf_issue s.chip h w release _ body hs hb

theorem result_keepsWf {h : Hart} {i : Instr} {rd : BitVec 5} {val : Chip → Word} : KeepsWf s (onResult h i rd s val) :=
  thread_keepsWf hs fun d hd => by simpa using hd

theorem branch_keepsWf {h : Hart} {i : Instr} {ra rb : BitVec 5} {off : BitVec 16} {test : Word → Word → Bool} :
    KeepsWf s (onBranch h i ra rb off s test) :=
  thread_keepsWf hs fun d hd => by
    split <;> simpa using hd

theorem vector_keepsWf {h : Hart} {i : Instr} {vd va vb : BitVec 4} {p : BitVec 3}
    {g : VIn → Draws → BitVec 128 × Draws} : KeepsWf s (onVector h i vd va vb p s g) :=
  thread_keepsWf hs fun d hd => by simpa using hd

theorem access_keepsWf {h : Hart} {i : Instr} {k : Chip → AccessKind} {p : Perm} {addr : Chip → Nat} {len align : Nat}
    {release : Bool} : KeepsWf s (onAccess h i s k p addr len align release) :=
  thread_keepsWf hs fun _ hd => Chip.wf_access _ _ _ _ _ _ _ hd

theorem load_keepsWf {h : Hart} {i : Instr} {rd ra : BitVec 5} {imm : BitVec 16} {n : Nat} {sgn : Bool} :
    KeepsWf s (onLoad h i rd ra imm n sgn s) := access_keepsWf hs

theorem store_keepsWf {h : Hart} {i : Instr} {rb ra : BitVec 5} {imm : BitVec 16} {n : Nat} :
    KeepsWf s (onStore h i rb ra imm n s) := access_keepsWf hs

theorem tentAction_keepsWf {a : Ask} {act bit : Nat} {g : Chip → Nat → Nat × Chip}
    (hg : ∀ c t, (g c t).2.mem = c.mem) : KeepsWf s (tentAction a act bit g s) :=
  tentAction_answers nofun hs
    (fun m => Chip.wf_mpReceive hs _ m _ fun d hd => by rwa [Chip.mpTentCtl_mem _ _ _ _ (hg d)])
    fun w t => Chip.wf_regWrite hs _ _ _ (by rwa [hg])

/-- R22: every command but the Cairn's own events. -/
theorem exec_keepsWf (i : Instr) (hk : i.ofCairn = false) : KeepsWf s (exec i s) := by
  cases i
  case intervalClose | cairnInputLoss | cairnInputReturn | sealOpened | selfTest | overloadBegin | overloadEnd |
      activityLinkLost | activityLinkRestored | activityFrame | metrologyPulse => cases hk
  all_goals dsimp only [exec]
  case sysInfo | sysDrainVale | sysDrainVeld | sysResume | tentDales | tentSites | tentWindows | tentBudget |
      wsetLoad | wsetPoint | wsetRelease | imageLoad | calExport | calImport | calRun | guyLoop | guyCoef | guyStd |
      convInject | convTable | drvCh | drvXt | thermalRelease | thmRecord | pwrBudget | passOpen | passClose |
      passExport | passRoute | attest | keyInstall | keyRemove | fwLoad | fwSwitch | cairnIdent | cairnRecords |
      cairnEvents =>
    exact mp_keepsWf hs fun d hd => by simp [hd]
  case sysEcho | jobDale | jobCoder | jobLaunch | radioSections | regRead | regWrite | memRead | memWrite =>
    exact hw_keepsWf hs fun d hd => by simp [hd]
  case unassignedOpcode => exact onHost_answers nofun hs (by simpa using hs)
  case retryRepeat | replayTimeout =>
    refine onChip_answers (Chip.wf_whenUp _ _ ?_ hs)
    split <;> simp [hs]
  case idleAck | retrain => exact onChip_answers (Chip.wf_whenUp _ _ (by simpa using hs) hs)
  case illegalInstruction =>
    refine onUnits_answers nofun ?_
    split
    · exact Chip.wf_issue _ _ _ _ _ _ hs fun d hd => hd
    · exact hs
  case extest =>
    refine onPort_answers hs ?_
    split <;> simpa using hs
  case quiesceDone | releaseComplete | spawnDequeue | astepEnd | memAccessResponse | rangeHoldRelease |
      deglitchRelease | testEnd | daleOwnerChange | siteOwnerChange | waitLimitExpire | leaseRequest |
      creditRequest | rampRefill | creditRelease | channelFault | jobStart | lockWaitExpire | reloadStaged |
      loadStrobe | heaterSettled | columnStrobe | holdCellRefresh | batchStart | batchEnd | jobComplete |
      tagDecode | batchReissue | rotationStep | selectorCal | triggerTick | entryStart | entryOutput |
      injectionRun | calConvStart | adcRotationStep | lineStepExpire | acqFail | programGrain | writeWindowTimeout |
      programmingDone | siteCheck | refreshStart | migration | oldSiteRewritten | shardArrival | shardTimeout |
      bcastWaitExpire | fingerprintVerify | uplaneReceive | dlUplaneSend | ptpMessage | delayMeasurement |
      codeBlockStart | hostReadRequest | sinkFrameReceive | sinkDarkTimeout | sinkWaitExpire | sourceLocked |
      tagFrameSend | stageFault | drainWaitExpire | imageCheckRetry | injectedOutput | calibrationConversionEnd |
      codewordReceive | headerHunt =>
    exact onUnits_answers nofun (by simp [hs])
  case waitmWake | waitmPoll | waitmTimeout | registerWrite | gateFrameChange | tagLossTimeout | loopTick =>
    
    refine onUnits_answers nofun ?_
    split <;> simp [hs]
  case slotTick | freeRunningTick | frameBoundary | creditGrant | hkRound | coolantComparator | cplaneSend |
      syncLocked | syncLossTimeout | syncSourceReturn | ppsEdge | codeBlockEnd | coderComplete | flitReceive |
      linkUp | hostReadResponse | hostReadTimeout | messageSend | watchdogRestart | remoteTimeout | wakeRequest |
      wakeWithdrawn | stageFaultWaitEnd | inputUndervoltage | inputOvervoltage | lanternPowerUp | lanternPowerLoss |
      importWaitExpire | firstFullPass | enterService | storeUpdate | sampleClockCycle | lanternOnBackup =>
    exact onChip_answers (by simp [hs])
  case fwTrialEnd | linkDown | wakeShutdown | sidebandRequest =>
    
    refine onChip_answers ?_
    split <;> simp [hs]
  case threadStop | frameLenWrite | credBudgetWrite | daleRowmapWrite | parkColWrite | daleSideAdd |
      valeBankOwnerWrite | veldImgBaseWrite | actxCreate | coreRseedLoad | guySeedLoad | tableGo | tableHalt |
      trackerClear | hkTrackerClear | injectRequest | convSeqWrite | convTrigWrite | hkSeqWrite | drvChWrite |
      drvPairWrite | toneCtlWrite | testGo | testStop | captureGo | captureStop | tentDaleWrite | tentSiteWrite |
      wsetActiveWrite | fhCfgWrite | fhOffsetWrite | fhEaxcWrite | fhWinWrite | fhSfnSet | decSubmit |
      decHarqCfgWrite | decHarqClr | sysMsgPost | moduleIdWrite | boostEnWrite | passRouteWrite | passExportWrite |
      lantSecWrite =>
    exact reg_keepsWf hs (by simp [hs])
  case guyLoopWrite | guyCoefWrite =>
    
    refine reg_keepsWf hs ?_
    split <;> simp [hs]
  case bypass | idcode | samplePreload | clamp | highz =>
    exact onPort_answers hs (by simp [hs])
  case alu | addi | andi | ori | xori | shi | slti | lih | addpc =>
    exact result_keepsWf hs
  case beq | bne | blt | bge | bltu | bgeu =>
    exact branch_keepsWf hs
  case vi | vb | vf | vred | vperm | vcvt | vnq | vdq | vu8 | vsc | vrand =>
    exact vector_keepsWf hs
  case ld8s | ld8u | ld16s | ld16u | ld32s | ld32u | ld64 =>
    exact load_keepsWf hs
  case st8 | st16 | st32 | st64 =>
    exact store_keepsWf hs
  case spawn | denq | vld | vst =>
    exact access_keepsWf hs
  case amo => exact access_keepsWf hs
  case jalr =>
    refine thread_keepsWf hs fun d hd => ?_
    dsimp only
    split <;> simpa using hd
  case fence | jal | gets | halt | waitm | tickw | astep | aclose | vcmp | vmov =>
    exact thread_keepsWf hs fun d hd => by simp [hd]
  case tentOpen => exact tentAction_keepsWf hs Chip.openTent_mem
  case tentQuiesce => exact tentAction_keepsWf hs Chip.quiesceTent_mem
  case tentClose => exact tentAction_keepsWf hs Chip.closeTent_mem
  case ticketClear => exact ticketClear_answers nofun hs fun _ => Chip.wf_regWrite hs _ _ _ (by simpa using hs)
  case groupCfgWrite => exact groupCfg_answers nofun hs (Chip.wf_regWrite hs _ _ _ (by simpa using hs))

end

/-- Settles O6: every command keeps the form, and so does the Lantern's tick of an empty queue. -/
theorem memoryStaysCanonical : Obligations.MemoryStaysCanonical := by
  unfold Obligations.MemoryStaysCanonical
  intro s t hs ht
  unfold step at ht
  split at ht
  next =>
    obtain rfl := Host.Outcome.next.inj ht
    exact (congrArg Memory.wf (Chip.lantTick_mem s.chip)).trans hs
  next i rest _ =>
    cases hk : i.ofCairn with
    | true =>
      obtain ⟨k, c, hn, _, hm⟩ := exec_cairnAnswers i { s with pending := rest } hk
      obtain rfl := Host.Outcome.next.inj (ht.symm.trans hn)
      exact (congrArg Memory.wf hm).trans hs
    | false =>
      obtain ⟨c, rfl, hc⟩ := (exec_keepsWf (s := { s with pending := rest }) hs i hk).next ht
      exact hc

end Sys2Proof.Machine
end

section
/-!
What a command's body is run on, what a register write is answered, and how fields, registers and bits read after a write:
rules that the statements about single commands share.
-/

namespace Sys2Proof.Machine

/-! ### Commands that run -/

theorem units_run {wf : Bool} {s : State} {f : Chip → Chip} (h : wf = true) :
    onUnits wf s f = .next { s with chip := f s.chip } := by
  simp [onUnits, onChip, h]

/-! ### The reply of a register write -/

/-- What the device has sent so far stays sent. -/
def OutsGrow (c d : Chip) : Prop := ∃ x, d.outs = c.outs ++ x

theorem OutsGrow.of_eq {c d : Chip} (h : d.outs = c.outs) : OutsGrow c d := ⟨[], by simp [h]⟩

theorem OutsGrow.trans {a b c : Chip} (h : OutsGrow a b) (h' : OutsGrow b c) : OutsGrow a c := by
  obtain ⟨x, hx⟩ := h
  obtain ⟨y, hy⟩ := h'
  exact ⟨x ++ y, by rw [hy, hx, List.append_assoc]⟩

theorem Told.mono {a b c : Chip} {w : Writer} {st n : Nat} (h : Told b c w st n) (hx : OutsGrow a b) :
    Told a c w st n := by
  cases w with
  | thread _ => trivial
  | host t tag => exact Sent.mono h hx

theorem Chip.wReply_told_of_grows {c d : Chip} (w : Writer) (n : Nat) (h : OutsGrow c d) :
    Told c (d.wReply w Status.ok n) w Status.ok n := (d.wReply_told w n).mono h

/-- A register write whose register takes it is answered OK. -/
theorem reg_takes {w : Writer} {r : Reg} {x : Word} {body : Chip → Nat × Chip} {s : State} {d : Chip}
    (h : RegAdmits s.chip w r x) (hb : body s.chip = (Status.ok, d)) :
    onReg w r x s body = .next { s with chip := d.wReply w Status.ok r.name.desc.words } := by
  rw [reg_runs h, hb]

/-! ### Fields and the registers they lie in -/

theorem Chip.f_of_get {c d : Chip} {fl : Fld} {idx : List Nat} (h : d.get (fldReg fl idx) = c.get (fldReg fl idx)) :
    d.f fl idx = c.f fl idx := congrArg (fun w : Word => bitsOf w.toNat fl.hi fl.lo) h

theorem Chip.get_put_of_name_ne {c : Chip} {n : RegName} {ix : List Nat} {k : Nat} {n' : RegName}
    {ix' : List Nat} {k' : Nat} (x : Word) (h : n ≠ n') : (c.put ⟨n, ix, k⟩ x).get ⟨n', ix', k'⟩ = c.get ⟨n', ix', k'⟩ :=
  Chip.get_put_other _ _ _ _ fun e => h (congrArg Reg.name e).symm

theorem Chip.f_put_of_name_ne {c : Chip} {n : RegName} {ix : List Nat} {k : Nat} {fl : Fld} (idx : List Nat) (x : Word)
    (h : n ≠ fl.name) : (c.put ⟨n, ix, k⟩ x).f fl idx = c.f fl idx := Chip.f_of_get (Chip.get_put_of_name_ne x h)

theorem Chip.get_setF_of_name_ne {c : Chip} {fl : Fld} {n' : RegName} {ix' : List Nat} {k' : Nat} (idx : List Nat)
    (n : Nat) (h : fl.name ≠ n') : (c.setF fl idx n).get ⟨n', ix', k'⟩ = c.get ⟨n', ix', k'⟩ := Chip.get_put_of_name_ne _ h

theorem Chip.f_setF_of_name_ne {c : Chip} {fl fl' : Fld} (idx idx' : List Nat) (n : Nat) (h : fl.name ≠ fl'.name) :
    (c.setF fl idx n).f fl' idx' = c.f fl' idx' := Chip.f_of_get (Chip.get_setF_of_name_ne _ _ h)

theorem Chip.f_setF_eq {c : Chip} {fl : Fld} {idx : List Nat} {n : Nat} (h : fl.lo ≤ fl.hi) (hw : fl.hi < 64)
    (hn : n < 2 ^ (fl.hi + 1 - fl.lo)) : (c.setF fl idx n).f fl idx = n := by
  rw [Chip.f_setF_same _ _ _ _ h hw, Nat.mod_eq_of_lt hn]

theorem Chip.f_setF_bits {c : Chip} {fl : Fld} {idx : List Nat} {x : Nat} {hi lo : Nat} (hhi : fl.hi = hi)
    (hlo : fl.lo = lo) (h : lo ≤ hi) (hw : hi < 64) : (c.setF fl idx (bitsOf x hi lo)).f fl idx = bitsOf x hi lo := by
  subst hhi hlo
  exact Chip.f_setF_eq h hw (bitsOf_lt ..)

theorem Chip.f_setF_disjoint {c : Chip} {fl fl' : Fld} {idx idx' : List Nat} {n : Nat} (h : fl.lo ≤ fl.hi)
    (hw : fl.hi < 64) (hd : fl.hi < fl'.lo ∨ fl'.hi < fl.lo) : (c.setF fl idx n).f fl' idx' = c.f fl' idx' :=
  Chip.f_setF_other _ _ _ _ _ _ h hw (.inr hd)

theorem Chip.get_event_other (c : Chip) (r q : Reg) (hne : q ≠ r) (hq : q.name ≠ .sysMsgq) :
    (c.event r).get q = c.get q :=
  c.event_of_messages r (P := fun d => d.get q = c.get q) (c.get_put_other r q _ hne) fun d t b hd =>
    (d.message_get t 4 b q hq).trans hd

theorem Chip.get_ev_of_name_ne {c : Chip} {n : RegName} {idx : List Nat} {n' : RegName} {ix' : List Nat} {k' : Nat}
    (h : n ≠ n') (hq : RegName.sysMsgq ≠ n') : (c.ev n idx).get ⟨n', ix', k'⟩ = c.get ⟨n', ix', k'⟩ :=
  c.get_event_other _ _ (fun e => h (congrArg Reg.name e).symm) hq.symm

theorem Chip.f_ev_of_name_ne {c : Chip} {n : RegName} {idx : List Nat} {fl : Fld} {ix : List Nat} (h : n ≠ fl.name)
    (hq : RegName.sysMsgq ≠ fl.name) : (c.ev n idx).f fl ix = c.f fl ix := Chip.f_of_get (Chip.get_ev_of_name_ne h hq)

theorem Chip.get_putWords_of_name_ne {c : Chip} {n : RegName} {idx : List Nat} {n' : RegName} {ix' : List Nat} {k' : Nat}
    (xs : List Word) (h : n ≠ n') : (c.putWords n idx xs).get ⟨n', ix', k'⟩ = c.get ⟨n', ix', k'⟩ := by
  unfold Chip.putWords
  generalize xs.mapIdx (fun w x => (w, x)) = l
  induction l generalizing c with
  | nil => rfl
  | cons p l ih => exact (ih (c := c.put _ _)).trans (Chip.get_put_of_name_ne _ h)

theorem Chip.f_putWords_of_name_ne {c : Chip} {n : RegName} {idx : List Nat} {fl : Fld} {ix : List Nat} (xs : List Word)
    (h : n ≠ fl.name) : (c.putWords n idx xs).f fl ix = c.f fl ix := Chip.f_of_get (Chip.get_putWords_of_name_ne _ h)

/-! ### Bits of a word -/

theorem bitOf_eq_testBit (x i : Nat) : bitOf x i = x.testBit i := by
  rw [bitOf, Nat.testBit_eq_decide_div_mod_eq]
  rfl

theorem bitOf_or (x y i : Nat) : bitOf (x ||| y) i = (bitOf x i || bitOf y i) := by
  simp only [bitOf_eq_testBit, Nat.testBit_or]

theorem bitsOf_or (x y hi lo : Nat) : bitsOf (x ||| y) hi lo = bitsOf x hi lo ||| bitsOf y hi lo := by
  simp only [bitsOf, ← Nat.shiftRight_eq_div_pow, Nat.shiftRight_or_distrib, Nat.or_mod_two_pow]

theorem bitsOf_and (x y hi lo : Nat) : bitsOf (x &&& y) hi lo = bitsOf x hi lo &&& bitsOf y hi lo := by
  simp only [bitsOf, ← Nat.shiftRight_eq_div_pow, Nat.shiftRight_and_distrib, Nat.and_mod_two_pow]

/-- A mask that keeps a field whole. -/
theorem bitsOf_and_ones (x y : Nat) {hi lo : Nat} (h : bitsOf y hi lo = 2 ^ (hi + 1 - lo) - 1) :
    bitsOf (x &&& y) hi lo = bitsOf x hi lo := by
  rw [bitsOf_and, h, Nat.and_two_pow_sub_one_eq_mod]
  exact Nat.mod_eq_of_lt (bitsOf_lt ..)

theorem bitsOf_eq_one {x i : Nat} (h : bitOf x i = true) : bitsOf x i i = 1 := by
  simp only [bitOf, beq_iff_eq] at h
  have hi : i + 1 - i = 1 := by omega
  rw [bitsOf, hi, pow_one, h]

theorem flag_iff {c : Chip} {fl : Fld} {idx : List Nat} : c.flag fl idx = true ↔ c.f fl idx = 1 := beq_iff_eq

end Sys2Proof.Machine
end

section
/-!
Threads (file 10 of spec/): what an instruction that issues does to its thread, and the statements O25, O26, O27 and O29.
-/

namespace Sys2Proof.Machine

/-! ### A thread and its registers -/

theorem Chip.core_setCore (c : Chip) (i j : Nat) (x : Core) : (c.setCore i x).core j = if j = i then x else c.core j :=
  Tab.get_set ..

@[simp] theorem Chip.core_setCore_same (c : Chip) (i : Nat) (x : Core) : (c.setCore i x).core i = x := Tab.get_set_same ..

@[simp] theorem Chip.thread_setThread_same (c : Chip) (h : Hart) (t : Thread) : (c.setThread h t).thread h = t := by
  simp [Chip.setThread, Chip.thread]

@[simp] theorem Chip.thread_mapThread_same (c : Chip) (h : Hart) (f : Thread → Thread) :
    (c.mapThread h f).thread h = f (c.thread h) := Chip.thread_setThread_same ..

@[simp] theorem Thread.setX_state (t : Thread) (n : Nat) (w : Word) : (t.setX n w).state = t.state := by
  unfold Thread.setX
  split <;> rfl

@[simp] theorem Thread.setX_pc (t : Thread) (n : Nat) (w : Word) : (t.setX n w).pc = t.pc := by
  unfold Thread.setX
  split <;> rfl

@[simp] theorem Thread.setX_stopping (t : Thread) (n : Nat) (w : Word) : (t.setX n w).stopping = t.stopping := by
  unfold Thread.setX
  split <;> rfl

/-- x0 reads zero whatever is written. -/
theorem Thread.getX_setX_same (t : Thread) (n : Nat) (w : Word) : (t.setX n w).getX n = if n = 0 then 0 else w := by
  unfold Thread.getX Thread.setX
  split
  · rfl
  · exact Tab.get_set_same ..

@[simp] theorem Thread.getV_setV_same (t : Thread) (n : Nat) (w : BitVec 128) : (t.setV n w).getV n = w :=
  Tab.get_set_same ..

theorem toNat_eq_zero_iff {n : Nat} (r : BitVec n) : r.toNat = 0 ↔ r = 0 :=
  ⟨fun h => BitVec.eq_of_toNat_eq (by simpa using h), fun h => by simp [h]⟩

/-- A thread that retires and is not to stop is READY at the next address. -/
theorem Chip.thread_retireTo {c : Chip} {h : Hart} (hs : (c.thread h).stopping = false) (pc : Nat) :
    (c.retireTo h pc).thread h =
      { c.thread h with state := 1, pc := pc % 2 ^ 48, retired := (c.thread h).retired + 1, wait := .none } := by
  have ht : (c.countInstr h.i).thread h = c.thread h := rfl
  unfold Chip.retireTo
  dsimp only
  rw [ht, hs]
  exact Chip.thread_setThread_same ..

theorem Chip.thread_retire {c : Chip} {h : Hart} (hs : (c.thread h).stopping = false) :
    (c.retire h).thread h = { c.thread h with
      state := 1, pc := ((c.thread h).pc + 4) % 2 ^ 48, retired := (c.thread h).retired + 1, wait := .none } :=
  Chip.thread_retireTo hs _

theorem Chip.thread_freeThread (c : Chip) (h : Hart) : (c.freeThread h).thread h = (c.thread h).freed :=
  Chip.thread_mapThread_same ..

/-! ### Instructions that issue -/

section
variable {s : State} {h : Hart} {i : Instr} {d : Chip}

theorem result_runs {rd : BitVec 5} {val : Chip → Word} (hi : Issues s.chip h i false none d) :
    onResult h i rd s val = .next { s with chip := (d.setXr h rd (val d)).retire h } := thread_runs hi

theorem branch_runs {ra rb : BitVec 5} {off : BitVec 16} {test : Word → Word → Bool} {p : Prop} [Decidable p]
    (hi : Issues s.chip h i false none d) (hp : test (d.x h ra) (d.x h rb) = true ↔ p) :
    onBranch h i ra rb off s test = .next { s with
      chip := d.retireTo h (if p then pcOf ((d.thread h).pc + 4 * off.toInt) else (d.thread h).pc + 4) } := by
  refine (thread_runs hi).trans ?_
  by_cases h : p
  · rw [if_pos (hp.mpr h), if_pos h]
    rfl
  · rw [if_neg (mt hp.mp h), if_neg h]
    rfl

theorem vector_runs {vd va vb : BitVec 4} {p : BitVec 3} {f : VIn → Draws → BitVec 128 × Draws}
    (hi : Issues s.chip h i false none d) :
    onVector h i vd va vb p s f = .next { s with chip := d.vector h vd va vb p f } := thread_runs hi

/-- An access at an aligned address begins. -/
theorem access_runs {k : Chip → AccessKind} {p : Perm} {addr : Chip → Nat} {len align : Nat} {release : Bool}
    (hi : Issues s.chip h i release (some ⟨p, addr s.chip, len⟩) d) (ha : addr s.chip % align = 0) :
    onAccess h i s k p addr len align release =
      .next { s with chip := d.access h (k d) p (addr d) len align } := by
  refine thread_runs (touch := fun c => if addr c % align ≠ 0 then none else some ⟨p, addr c, len⟩) ?_
  simpa [ha] using hi

end

/-- A read of the own store is performed at once. -/
theorem Chip.access_own {c : Chip} {h : Hart} {k : AccessKind} {p : Perm} {a len align : Nat} (hk : k.isStore = false)
    (ha : a % align = 0) (hin : inStore h.i a len = true) :
    c.access h k p a len align = c.performAccess h ⟨k, a, len, a, c.siteTent h.i, none⟩ := by
  simp [Chip.access, ha, Chip.place, hin, hk]

/-- The site stores lie below the register space (R22). -/
theorem inStore_lt_regBase {h : Hart} (hh : h.ok = true) {a len : Nat} (hin : inStore h.i a len = true) (hl : 0 < len) :
    a < regBase := by
  have hi : h.i < 27648 := by
    simp only [Hart.ok, decide_eq_true_eq] at hh
    exact hh.1
  have hst : storeBase h.i ≤ a ∧ a + len ≤ storeBase h.i + 0x8000 := of_decide_eq_true hin
  unfold storeBase at hst
  unfold regBase
  omega

theorem Chip.homeLoad_of_lt {c : Chip} {t a len : Nat} (ha : a < regBase) : c.homeLoad t a len = (c.bytes a len, c) :=
  if_neg (by omega)

/-- A load of the own store: the destination takes the bytes and the thread goes on. -/
theorem Chip.performAccess_load {c : Chip} {h : Hart} {rd n a len tent : Nat} {sgn : Bool} (ha : a < regBase) :
    c.performAccess h ⟨.load rd n sgn, a, len, a, tent, none⟩ =
      (c.setThread h (((c.thread h).answered ⟨.load rd n sgn, a, len, a, tent, none⟩).setX rd
        (loadValue (c.bytes a len) sgn))).retire h := by
  simp only [Chip.performAccess, Chip.homeLoad_of_lt ha, Chip.accessDone]

theorem Chip.performAccess_vload {c : Chip} {h : Hart} {vd a len tent : Nat} (ha : a < regBase) :
    c.performAccess h ⟨.vload vd, a, len, a, tent, none⟩ =
      (c.setThread h (((c.thread h).answered ⟨.vload vd, a, len, a, tent, none⟩).setV vd
        (BitVec.ofNat 128 (leNat (c.bytes a len))))).retire h := by
  simp only [Chip.performAccess, Chip.homeLoad_of_lt ha, Chip.accessDone]

section
variable {s : State} {h : Hart} {i : Instr} {d : Chip} {ra : BitVec 5} {a : Nat}

/-- R308, R314, R324: a load of the own store completes at once. -/
theorem load_own {rd : BitVec 5} {imm : BitVec 16} {n : Nat} {sgn : Bool} (hn : 0 < n)
    (hi : Issues s.chip h i false (some ⟨.r, s.chip.addrOf h ra imm, n⟩) d) (hd : a = d.addrOf h ra imm)
    (hs : a = s.chip.addrOf h ra imm) (ha : a % n = 0) (hin : inStore h.i a n = true) :
    ∃ u, onLoad h i rd ra imm n sgn s = .next u ∧ u.chip.mem = d.mem ∧ ((d.thread h).stopping = false →
      u.chip.x h rd = (if rd = 0 then 0 else loadValue (d.bytes a n) sgn) ∧
      (u.chip.thread h).state = 1 ∧ (u.chip.thread h).pc = ((d.thread h).pc + 4) % 2 ^ 48) := by
  have hlt := inStore_lt_regBase hi.1 hin hn
  refine ⟨_, access_runs hi (hs ▸ ha), ?_⟩
  dsimp only
  rw [← hd, Chip.access_own rfl ha hin, Chip.performAccess_load hlt]
  refine ⟨by simp, fun hstop => ?_⟩
  rw [Chip.x, Chip.thread_retire (by simpa [Thread.answered] using hstop), Chip.thread_setThread_same]
  refine ⟨?_, rfl, by rw [Thread.setX_pc]; rfl⟩
  exact (Thread.getX_setX_same ..).trans (by simp only [toNat_eq_zero_iff])

theorem vload_own {v : BitVec 4} {off : BitVec 17}
    (hi : Issues s.chip h (.vld h v ra off) false (some ⟨.r, s.chip.addrOf h ra off 16, 16⟩) d)
    (hd : a = d.addrOf h ra off 16) (hs : a = s.chip.addrOf h ra off 16) (ha : a % 16 = 0)
    (hin : inStore h.i a 16 = true) :
    ∃ u, execVld h v ra off s = .next u ∧ u.chip.mem = d.mem ∧ ((d.thread h).stopping = false →
      (u.chip.thread h).getV v.toNat = BitVec.ofNat 128 (leNat (d.bytes a 16)) ∧ (u.chip.thread h).state = 1) := by
  have hlt := inStore_lt_regBase hi.1 hin (by omega)
  refine ⟨_, access_runs hi (hs ▸ ha), ?_⟩
  dsimp only
  rw [← hd, Chip.access_own rfl ha hin, Chip.performAccess_vload hlt]
  refine ⟨by simp, fun hstop => ?_⟩
  rw [Chip.thread_retire (by simpa [Thread.answered, Thread.setV] using hstop), Chip.thread_setThread_same]
  exact ⟨Thread.getV_setV_same .., rfl⟩

end

/-! ### Other forms -/

theorem exec_halt {s : State} {h : Hart} {d : Chip} (hi : Issues s.chip h (.halt h) false none d) :
    execHalt h s = .next { s with chip := (d.countInstr h.i).freeThread h } := thread_runs hi

theorem gets_runs {s : State} {h : Hart} {rd ra : BitVec 5} {imm : BitVec 16} {d : Chip}
    (hi : Issues s.chip h (.gets h rd ra imm) false none d) :
    execGets h rd ra imm s = .next { s with chip := d.gets h rd imm.toNat } := thread_runs hi

theorem Chip.gets_of_ne {c : Chip} {h : Hart} {rd : BitVec 5} {n : Nat} (hn : n ≠ 6) :
    c.gets h rd n = (c.setXr h rd (c.selector h n)).retire h := if_neg hn

/-- Settles O25: each form runs its body, which writes rd and retires. -/
theorem integerResultsAreWritten : Obligations.IntegerResultsAreWritten := by
  unfold Obligations.IntegerResultsAreWritten
  dsimp only [exec]
  refine ⟨fun h rd ra rb fn s d hi => result_runs hi, fun h rd ra imm s d hi => result_runs hi,
    fun h rd ra imm s d hi => result_runs hi, fun h rd ra imm s d hi => result_runs hi,
    fun h rd ra imm s d hi => result_runs hi, fun h rd ra imm s d hi => result_runs hi,
    fun h rd ra imm s d hi => result_runs hi, fun h rd ra imm s d hi => result_runs hi,
    fun h rd ra imm s d hi => result_runs hi, fun h rd ra imm s d hi hn => ?_, fun h rd ra s d g hi hg => ?_⟩
  · rw [gets_runs hi, Chip.gets_of_ne fun h6 => hn (BitVec.eq_of_toNat_eq h6)]
  · rw [gets_runs hi, hg]
    rfl

/-- Settles O29: a vector form runs its body. -/
theorem vectorResultsAreWritten : Obligations.VectorResultsAreWritten := by
  unfold Obligations.VectorResultsAreWritten
  dsimp only [exec]
  exact ⟨fun h vd va vb p fn s d hi => vector_runs hi, fun h vd va vb p fn s d hi => vector_runs hi,
    fun h vd va vb p fn s d hi => vector_runs hi, fun h vd va vb p fn s d hi => vector_runs hi,
    fun h vd va vb p fn s d hi => vector_runs hi, fun h vd va vb p fn s d hi => vector_runs hi,
    fun h vd va vb p fn s d hi => vector_runs hi, fun h vd va vb p fn s d hi => vector_runs hi,
    fun h vd va vb p fn s d hi => vector_runs hi, fun h vd va vb p fn s d hi => vector_runs hi,
    fun h vd va vb p fn s d hi => vector_runs hi, fun h vd va vb p fn s d hi => thread_runs hi,
    fun h vd x lane fn s d hi => thread_runs hi⟩

/-- Settles O27: a load of the own store is performed as it begins. -/
theorem loadsReadTheOwnStore : Obligations.LoadsReadTheOwnStore := by
  unfold Obligations.LoadsReadTheOwnStore
  dsimp only [exec]
  exact ⟨fun h rd ra imm s d a hi hd hs ha hin => load_own (by omega) hi hd hs ha hin,
    fun h rd ra imm s d a hi hd hs ha hin => load_own (by omega) hi hd hs ha hin,
    fun h rd ra imm s d a hi hd hs ha hin => load_own (by omega) hi hd hs ha hin,
    fun h rd ra imm s d a hi hd hs ha hin => load_own (by omega) hi hd hs ha hin,
    fun h rd ra imm s d a hi hd hs ha hin => load_own (by omega) hi hd hs ha hin,
    fun h rd ra imm s d a hi hd hs ha hin => load_own (by omega) hi hd hs ha hin,
    fun h rd ra imm s d a hi hd hs ha hin => load_own (by omega) hi hd hs ha hin,
    fun h v ra off s d a hi hd hs ha hin => vload_own hi hd hs ha hin⟩

/-- A thread that is READY on the illegal word 0 while it is to stop: the fault of R324 frees it (R321). -/
def stoppingOnIllegal : Chip :=
  { device := .service, cores := [(0, { threads := [(0, { state := 1, pc := storeBase 0, stopping := true })] })] }

/-- What `ILLEGAL_INSTRUCTION` does to it. -/
def stoppingOnIllegal.after : Chip := stoppingOnIllegal.issue ⟨0, 0⟩ 0 false none id

theorem stoppingOnIllegal.after_free : (after.thread ⟨0, 0⟩).state = 0 := by decide +kernel

/-- Refutes O26: its last clause has no premise on a pending stop, and a thread that is to stop is freed by its fault. -/
theorem not_controlFlowFollowsTheSpec : ¬ Obligations.ControlFlowFollowsTheSpec := by
  unfold Obligations.ControlFlowFollowsTheSpec
  intro hall
  obtain ⟨-, -, -, -, -, -, -, -, -, hill⟩ := hall
  obtain ⟨u, hu, hst, -⟩ := hill ⟨0, 0⟩ 0 { chip := stoppingOnIllegal } (some (List.replicate 64 0)) [] _
    (by decide +kernel) (by decide +kernel) (by decide +kernel) (by decide +kernel) (by decide +kernel)
    (by decide +kernel) (by decide +kernel) (Prod.ext rfl (by decide +kernel))
  have hrun : exec (.illegalInstruction ⟨0, 0⟩ 0) { chip := stoppingOnIllegal } =
    .next { chip := stoppingOnIllegal.after } := rfl
  rw [hrun] at hu
  cases hu
  exact absurd (hst.symm.trans stoppingOnIllegal.after_free) (by decide)

end Sys2Proof.Machine
end

section
/-!
Threads wait and start others (R315, R321, R329 to R331): the statement O30.
-/

namespace Sys2Proof.Machine

/-! ### FENCE -/

theorem Chip.fence_eq (c : Chip) (h : Hart) (fn : Nat) : c.fence h fn =
    (let e := if bitOf fn 3 then c.flushCache h.i else c
     if bitOf fn 1 ∧ (e.thread h).storing false then e.stall h (.fence false)
     else if bitOf fn 2 ∧ (e.thread h).storing true then e.stall h (.fence true)
     else e.retire h) := rfl

theorem fence_runs {s : State} {h : Hart} {rd ra rb : BitVec 5} {fn : BitVec 11} {d : Chip}
    (hi : Issues s.chip h (.fence h rd ra rb fn) false none d) :
    execFence h rd ra rb fn s = .next { s with chip := d.fence h fn.toNat } := thread_runs hi

/-! ### SPAWN -/

theorem Chip.performAccess_spawn {c : Chip} {h : Hart} {rd a len tent : Nat} (ha : a < regBase) :
    c.performAccess h ⟨.spawn rd, a, len, a, tent, none⟩ =
      (c.setThread h ((c.thread h).answered ⟨.spawn rd, a, len, a, tent, none⟩)).spawnRecord h rd (c.bytes a len) := by
  simp only [Chip.performAccess, Chip.homeLoad_of_lt ha, Chip.accessDone]

/-- R329: the record at ra asks for a start at its site, its own where the site is 0xFFFFFFFF. -/
theorem spawn_own {s : State} {h : Hart} {rd ra rb : BitVec 5} {fn : BitVec 11} {d d1 d2 : Chip} {a i : Nat}
    {bs : List Byte} {st : Start}
    (hi : Issues s.chip h (.spawn h rd ra rb fn) true (some ⟨.r, (s.chip.x h ra).toNat, 24⟩) d)
    (hd : a = (d.x h ra).toNat) (hs : a = (s.chip.x h ra).toNat) (ha : a % 8 = 0) (hin : inStore h.i a 24 = true)
    (hbs : bs = d.bytes a 24) (hres : leNat ((bs.drop 4).take 4) = 0)
    (hsite : i = if leNat (bs.take 4) = 0xFFFFFFFF then h.i else leNat (bs.take 4))
    (hst : st = ⟨leNat ((bs.drop 8).take 8), BitVec.ofNat 64 (leNat ((bs.drop 16).take 8)),
      BitVec.ofNat 64 (8 * h.i + h.t)⟩)
    (hd1 : d1 = d.setThread h ((d.thread h).answered ⟨.spawn rd.toNat, a, 24, a, d.siteTent h.i, none⟩))
    (hreq : d1.requestStart (d1.siteTent h.i) i st = (Status.ok, d2)) :
    execSpawn h rd ra rb fn s = .next { s with chip := d2.answerStatus h rd.toNat Status.ok } := by
  refine (access_runs hi (hs ▸ ha)).trans ?_
  rw [← hd, Chip.access_own rfl ha hin, Chip.performAccess_spawn (inStore_lt_regBase hi.1 hin (by omega)), ← hbs, ← hd1]
  subst hsite hst
  simp only [Chip.spawnRecord, hres, List.drop_zero, hreq, ne_eq, not_true_eq_false, if_false]

theorem Chip.freeHart_site {c : Chip} {i : Nat} {h : Hart} (hf : c.freeHart i = some h) : h.i = i := by
  obtain ⟨t, -, rfl⟩ := List.mem_map.mp (List.mem_of_find?_eq_some hf)
  rfl

/-- A started thread begins at its address with its argument in x1 and its starter in x2. -/
theorem Chip.thread_startThread (c : Chip) (h : Hart) (x : Start) :
    ((c.startThread h x).thread h).state = 1 ∧ ((c.startThread h x).thread h).pc = x.pc ∧
      ((c.startThread h x).thread h).getX 1 = x.arg ∧ ((c.startThread h x).thread h).getX 2 = x.src := by
  unfold Chip.startThread
  dsimp only
  rw [Chip.thread_setThread_same]
  exact ⟨by simp, by simp, rfl, Thread.getX_setX_same ..⟩

theorem Chip.core_setThread (c : Chip) (h : Hart) (t : Thread) :
    (c.setThread h t).core h.i = { c.core h.i with threads := Tab.set (c.core h.i).threads h.t t } :=
  Chip.core_setCore_same ..

theorem spawnDequeue_runs {i : Nat} {s : State} {h : Hart} {x : Start} {rest : List Start} (hi : i < 27648)
    (hf : s.chip.freeHart i = some h) (hq : (s.chip.core i).spawnq = x :: rest) :
    execSpawnDequeue i s = .next { s with
      chip := (s.chip.setCore i { s.chip.core i with spawnq := rest }).startThread h x } := by
  simp [execSpawnDequeue, onUnits, onChip, logicalOk, hi, Chip.spawnDequeue, hf, hq]

/-! ### WAITM -/

theorem Chip.x_setX_same (t : Thread) (rd : BitVec 5) (w : Word) :
    (t.setX rd.toNat w).getX rd.toNat = if rd = 0 then 0 else w := by
  rw [Thread.getX_setX_same]
  simp only [toNat_eq_zero_iff]

/-- A watched word of the own store is read at once. -/
theorem Chip.watchRead_own {c : Chip} {h : Hart} {a : Nat} (hin : inStore h.i a 8 = true) :
    c.watchRead h a = c.performAccess h ⟨.watch, a, 8, a, c.siteTent h.i, none⟩ := by
  simp [Chip.watchRead, Chip.place, hin]

/-- The watch goes on while the word is the old one, and ends with the word in rd. -/
theorem Chip.performAccess_watch {c : Chip} {h : Hart} {a tent rd addr : Nat} {old last : Word} {timed : Bool}
    (ha : a < regBase) (hw : (c.thread h).wait = .watch rd addr old last timed) :
    c.performAccess h ⟨.watch, a, 8, a, tent, none⟩ =
      (let t := (c.thread h).answered ⟨.watch, a, 8, a, tent, none⟩
       let x := BitVec.ofNat 64 (c.num a 8)
       if x = old then c.setThread h { t with wait := .watch rd addr old x timed }
       else (c.setThread h (t.setX rd x)).retire h) := by
  have hw' : ((c.thread h).answered ⟨.watch, a, 8, a, tent, none⟩).wait = .watch rd addr old last timed := hw
  simp only [Chip.performAccess, Chip.homeLoad_of_lt ha, Chip.accessDone, hw', Chip.num]
  rfl

/-- A thread whose watched word differs goes on with the word. -/
theorem Chip.watchRead_differs {c : Chip} {h : Hart} {a rd addr : Nat} {old last : Word} {timed : Bool}
    (hin : inStore h.i a 8 = true) (hh : h.ok = true) (hw : (c.thread h).wait = .watch rd addr old last timed)
    (hne : BitVec.ofNat 64 (c.num a 8) ≠ old) (hs : (c.thread h).stopping = false) :
    ((c.watchRead h a).thread h).state = 1 ∧
      ((c.watchRead h a).thread h).getX rd = if rd = 0 then 0 else BitVec.ofNat 64 (c.num a 8) := by
  rw [Chip.watchRead_own hin, Chip.performAccess_watch (inStore_lt_regBase hh hin (by omega)) hw]
  dsimp only
  rw [if_neg hne, Chip.thread_retire (by simpa [Thread.answered] using hs), Chip.thread_setThread_same]
  exact ⟨rfl, Thread.getX_setX_same ..⟩

theorem Chip.watchRead_same {c : Chip} {h : Hart} {a rd addr : Nat} {old last : Word} {timed : Bool}
    (hin : inStore h.i a 8 = true) (hh : h.ok = true) (hw : (c.thread h).wait = .watch rd addr old last timed)
    (heq : BitVec.ofNat 64 (c.num a 8) = old) : ((c.watchRead h a).thread h).state = (c.thread h).state := by
  rw [Chip.watchRead_own hin, Chip.performAccess_watch (inStore_lt_regBase hh hin (by omega)) hw]
  dsimp only
  rw [if_pos heq, Chip.thread_setThread_same]
  rfl

theorem Chip.watchRead_own_mem {c : Chip} {h : Hart} {a rd addr : Nat} {old last : Word} {timed : Bool}
    (hin : inStore h.i a 8 = true) (hh : h.ok = true) (hw : (c.thread h).wait = .watch rd addr old last timed) :
    (c.watchRead h a).mem = c.mem := by
  rw [Chip.watchRead_own hin, Chip.performAccess_watch (inStore_lt_regBase hh hin (by omega)) hw]
  dsimp only
  split <;> simp

theorem waitm_runs {s : State} {h : Hart} {rd ra rb : BitVec 5} {fn : BitVec 11} {d : Chip} {a : Nat}
    (hi : Issues s.chip h (.waitm h rd ra rb fn) false (some ⟨.r, (s.chip.x h ra).toNat, 8⟩) d)
    (hd : a = (d.x h ra).toNat) (hs : a = (s.chip.x h ra).toNat) (ha : a % 8 = 0) :
    execWaitm h rd ra rb fn s = .next { s with chip :=
      (d.mapThread h fun t => { t with
        state := 3, wait := .watch rd.toNat a (d.x h rb) (d.x h rb) (decide (fn ≠ 0)) }).watchRead h a } := by
  refine (thread_runs (d := d) ?_).trans ?_
  · simpa [← hs, ha] using hi
  · rw [← hd, Chip.waitm, if_neg (by simpa using ha)]

theorem waitm_own {s : State} {h : Hart} {rd ra rb : BitVec 5} {fn : BitVec 11} {d : Chip} {a : Nat} {w : Word}
    (hi : Issues s.chip h (.waitm h rd ra rb fn) false (some ⟨.r, (s.chip.x h ra).toNat, 8⟩) d)
    (hd : a = (d.x h ra).toNat) (hs : a = (s.chip.x h ra).toNat) (ha : a % 8 = 0) (hin : inStore h.i a 8 = true)
    (hw : w = BitVec.ofNat 64 (d.num a 8)) (hstop : (d.thread h).stopping = false) :
    ∃ u, execWaitm h rd ra rb fn s = .next u ∧ u.chip.mem = d.mem ∧
      (w = d.x h rb → (u.chip.thread h).state = 3) ∧
      (w ≠ d.x h rb → (u.chip.thread h).state = 1 ∧ u.chip.x h rd = (if rd = 0 then 0 else w)) := by
  refine ⟨_, waitm_runs hi hd hs ha, ?_⟩
  set e := d.mapThread h fun t => { t with
    state := 3, wait := .watch rd.toNat a (d.x h rb) (d.x h rb) (decide (fn ≠ 0)) } with he
  have ht : e.thread h = { d.thread h with
    state := 3, wait := .watch rd.toNat a (d.x h rb) (d.x h rb) (decide (fn ≠ 0)) } := Chip.thread_mapThread_same ..
  have hwait := congrArg Thread.wait ht
  have hnum : e.num a 8 = d.num a 8 := rfl
  refine ⟨(Chip.watchRead_own_mem hin hi.1 hwait).trans rfl, fun heq => ?_, fun hne => ?_⟩
  · rw [Chip.watchRead_same hin hi.1 hwait (by rw [hnum, ← hw, heq]), ht]
  · obtain ⟨hst, hx⟩ := Chip.watchRead_differs hin hi.1 hwait (by rwa [hnum, ← hw]) (by rw [ht]; exact hstop)
    refine ⟨hst, hx.trans ?_⟩
    rw [hnum, ← hw]
    simp only [toNat_eq_zero_iff]

theorem waitmWake_runs {s : State} {h : Hart} {rd a : Nat} {old last : Word} {timed : Bool} (hh : h.ok = true)
    (hp : s.chip.powered = true) (hst : (s.chip.thread h).state = 3)
    (hw : (s.chip.thread h).wait = .watch rd a old last timed) (hin : inStore h.i a 8 = true) :
    execWaitmWake h s = .next { s with chip := s.chip.watchRead h a } := by
  simp [execWaitmWake, onUnits, onChip, hh, hp, Chip.watchWake, hst, hw, hin]

theorem waitmPoll_runs {s : State} {h : Hart} {rd a : Nat} {old last : Word} {timed : Bool} {c1 : Chip}
    (hh : h.ok = true) (hp : s.chip.powered = true) (hst : (s.chip.thread h).state = 3)
    (hw : (s.chip.thread h).wait = .watch rd a old last timed) (hin : inStore h.i a 8 = false)
    (hout : ∀ x, x ∈ (s.chip.thread h).out → x.kind ≠ .watch)
    (hadm : s.chip.admitCharges (.core h.i) (s.chip.touchCharges h (some ⟨.r, a, 8⟩)) s.chip = (c1, true)) :
    execWaitmPoll h s = .next { s with chip := c1.watchRead h a } := by
  have hany : ((s.chip.thread h).out.any fun a => a.kind == .watch) = false := by simpa using hout
  simp [execWaitmPoll, onUnits, onChip, hh, hp, Chip.watchPoll, hst, hw, hin, hany, hadm]

theorem waitmTimeout_runs {s : State} {h : Hart} {rd a : Nat} {old last : Word} (hh : h.ok = true)
    (hp : s.chip.powered = true) (hst : (s.chip.thread h).state = 3)
    (hw : (s.chip.thread h).wait = .watch rd a old last true) :
    execWaitmTimeout h s = .next { s with chip :=
      (s.chip.setThread h ({ s.chip.thread h with
        out := (s.chip.thread h).out.filter fun a => a.kind != AccessKind.watch }.setX rd last)).retire h } := by
  simp [execWaitmTimeout, onUnits, onChip, hh, hp, Chip.watchTimeout, hst, hw]

/-! ### TICKW and the stop of a thread -/

theorem tickw_runs {s : State} {h : Hart} {rd ra rb : BitVec 5} {fn : BitVec 11} {d : Chip}
    (hi : Issues s.chip h (.tickw h rd ra rb fn) false none d) :
    execTickw h rd ra rb fn s = .next { s with
      chip := d.mapThread h fun t => { t with state := 3, wait := .tick rd.toNat (fn == 1) } } := thread_runs hi

theorem Chip.stopThread_of_idle {c : Chip} {h : Hart} (hst : (c.thread h).state ≠ 0) (hw : (c.thread h).wait = .none) :
    c.stopThread h = c.freeThread h := by
  unfold Chip.stopThread
  dsimp only
  split
  next h0 => exact absurd h0 hst
  all_goals simp_all

theorem Chip.wThreadCtl_stop {c : Chip} {n p t i : Nat} (hl : c.logicalOf n p = some i)
    (hst : (c.thread ⟨i, t⟩).state ≠ 0) (hw : (c.thread ⟨i, t⟩).wait = .none) :
    c.wThreadCtl n p t 0x80000000 = (Status.ok, c.freeThread ⟨i, t⟩) := by
  have hbit : bitOf (0x80000000 : Word).toNat 31 = true := by decide
  simp only [Chip.wThreadCtl, hl, hbit, if_true, Chip.stopThread_of_idle hst hw]

/-- Settles O30: each wait and each start is one run of its form. -/
theorem threadsWaitAndSpawn : Obligations.ThreadsWaitAndSpawn := by
  unfold Obligations.ThreadsWaitAndSpawn
  dsimp only [exec]
  refine ⟨?fence, fun h rd ra rb fn s d a d1 d2 bs st i => spawn_own, ?dequeue,
    fun h rd ra rb fn s d a w => waitm_own, ?wake, ?poll, ?timeout, ?tickw, ?stop⟩
  case fence =>
    intro h rd ra rb fn s d e hi he
    rw [fence_runs hi, Chip.fence_eq, ← he]
    dsimp only
    refine ⟨fun ⟨h1, h2⟩ => ?_, fun h1 h2 => ?_⟩
    · rw [if_neg (fun ⟨p, q⟩ => by rw [h1 p] at q; exact Bool.noConfusion q),
        if_neg (fun ⟨p, q⟩ => by rw [h2 p] at q; exact Bool.noConfusion q)]
    · rw [if_pos ⟨h1, h2⟩]
  case dequeue =>
    intro i h x rest s hi hf hq
    obtain rfl := Chip.freeHart_site hf
    obtain ⟨hst, hpc, hx1, hx2⟩ :=
      Chip.thread_startThread (s.chip.setCore h.i { s.chip.core h.i with spawnq := rest }) h x
    refine ⟨_, spawnDequeue_runs hi hf hq, ?_, hst, hpc, hx1, hx2⟩
    dsimp only
    unfold Chip.startThread
    dsimp only
    rw [Chip.core_setThread, Chip.core_setCore_same]
  case wake =>
    intro h rd a old last timed s w hh hp hst hw hin hword hne hstop
    subst hword
    exact ⟨_, waitmWake_runs hh hp hst hw hin, Chip.watchRead_differs hin hh hw hne hstop⟩
  case poll =>
    intro h rd a old last timed s c1 hh hp hst hw hin hout hadm
    exact waitmPoll_runs hh hp hst hw hin hout hadm
  case timeout =>
    intro h rd a old last s hh hp hst hw hstop
    refine ⟨_, waitmTimeout_runs hh hp hst hw, ?_⟩
    dsimp only
    rw [Chip.thread_retire (by simpa using hstop), Chip.thread_setThread_same]
    exact ⟨rfl, Thread.getX_setX_same ..⟩
  case tickw =>
    intro h rd ra rb fn s d hi
    refine ⟨_, tickw_runs hi, ?_⟩
    dsimp only
    rw [Chip.thread_mapThread_same]
    exact ⟨rfl, rfl, rfl⟩
  case stop =>
    intro w n p t s i hadm hl hst hw
    refine ⟨_, reg_takes hadm (Chip.wThreadCtl_stop hl hst hw), ?_, Chip.wReply_told_of_grows _ _ (.of_eq rfl)⟩
    dsimp only
    have hthr : ((s.chip.freeThread ⟨i, t⟩).wReply w Status.ok 1).thread ⟨i, t⟩ =
        (s.chip.freeThread ⟨i, t⟩).thread ⟨i, t⟩ := by unfold Chip.thread Chip.core; simp
    exact (congrArg Thread.state hthr).trans (congrArg Thread.state (Chip.thread_freeThread ..))

end Sys2Proof.Machine
end

section
/-!
Threads and their site's array (R153, R159, R305, R332 to R336): the statement O31.
-/

namespace Sys2Proof.Machine

/-! ### What one row of a step leaves of its site (R153) -/

/-- A step under way keeps its queue, its run and the site's threads, counts no step or change of its context, and does not
take over-ranges back. -/
structure KeepsStep (i a : Nat) (c d : Chip) : Prop where
  steps : (d.core i).steps = (c.core i).steps
  run : (d.core i).run = (c.core i).run
  threads : (d.core i).threads = (c.core i).threads
  count : (d.actx i a).steps = (c.actx i a).steps
  changes : (d.actx i a).disc = (c.actx i a).disc
  risen : min (c.actx i a).ovr 0xFFFFFFFF ≤ (d.actx i a).ovr
  fits : (c.actx i a).ovr ≤ 0xFFFFFFFF → (d.actx i a).ovr ≤ 0xFFFFFFFF

theorem KeepsStep.of_cores {i a : Nat} {c d : Chip} (h : d.cores = c.cores) : KeepsStep i a c d := by
  have hcore : d.core i = c.core i := by simp only [Chip.core, h]
  have hctx : d.actx i a = c.actx i a := by simp only [Chip.actx, hcore]
  exact ⟨by rw [hcore], by rw [hcore], by rw [hcore], by rw [hctx], by rw [hctx], by rw [hctx]; exact Nat.min_le_left ..,
    by rw [hctx]; exact id⟩

theorem KeepsStep.trans {i a : Nat} {c d e : Chip} (h : KeepsStep i a c d) (h' : KeepsStep i a d e) :
    KeepsStep i a c e := by
  refine ⟨h'.steps.trans h.steps, h'.run.trans h.run, h'.threads.trans h.threads, h'.count.trans h.count,
    h'.changes.trans h.changes, ?_, fun hx => h'.fits (h.fits hx)⟩
  have h1 := h.risen
  have h2 := h'.risen
  omega

theorem KeepsStep.foldl {i a : Nat} {α : Type} (f : Chip → α → Chip) (hf : ∀ c x, KeepsStep i a c (f c x)) (l : List α)
    (c : Chip) : KeepsStep i a c (l.foldl f c) := by
  induction l generalizing c with
  | nil => exact .of_cores rfl
  | cons x xs ih => exact (hf c x).trans (ih _)

@[simp] theorem Chip.actx_setActx_same (c : Chip) (i a : Nat) (x : Actx) : (c.setActx i a x).actx i a = x := by
  simp [Chip.setActx, Chip.actx]

theorem Chip.core_setActx (c : Chip) (i a : Nat) (x : Actx) :
    (c.setActx i a x).core i = { c.core i with ctx := Tab.set (c.core i).ctx a x } := Chip.core_setCore_same ..

/-- A row's over-ranges are added to its context. -/
theorem KeepsStep.setActx {i a : Nat} {c d : Chip} (h : KeepsStep i a c d) {x : Actx} (hs : x.steps = (d.actx i a).steps)
    (hd : x.disc = (d.actx i a).disc) {n : Nat} (ho : x.ovr = sat32 ((d.actx i a).ovr + n)) :
    KeepsStep i a c (d.setActx i a x) := by
  refine h.trans ⟨?_, ?_, ?_, ?_, ?_, ?_, ?_⟩
  · rw [Chip.core_setActx]
  · rw [Chip.core_setActx]
  · rw [Chip.core_setActx]
  · rw [Chip.actx_setActx_same, hs]
  · rw [Chip.actx_setActx_same, hd]
  · rw [Chip.actx_setActx_same, ho, sat32]
    omega
  · rw [Chip.actx_setActx_same, ho, sat32]
    omega

theorem Chip.actx_of_cores {c d : Chip} (h : d.cores = c.cores) (i a : Nat) : d.actx i a = c.actx i a := by
  simp only [Chip.actx, Chip.core, h]

@[simp] theorem Chip.setNum_cores (c : Chip) (a n x : Nat) : (c.setNum a n x).cores = c.cores := Chip.store_cores ..

theorem Chip.siteRow_keepsStep (c : Chip) (i a : Nat) (r : StepRec) (ks : List Nat) (clipped : Bool) (row word : Nat)
    (y : SiteAcc) : KeepsStep i a c (c.siteRow i a r ks clipped row word y) := by
  unfold Chip.siteRow
  extract_lets n p x cfg base vals sIn g f seeded rec0 z c1 z' c2 c3 x' c4
  split
  · exact .of_cores (by simp [c1])
  · have h3 : c3.cores = c.cores := by simp [c3, c2]
    refine KeepsStep.trans ?_ (.of_cores (Chip.store_cores ..))
    refine (KeepsStep.of_cores h3).setActx (n := z'.1.ovr) ?_ ?_ ?_ <;> rw [Chip.actx_of_cores h3] <;> rfl

/-! ### The end of a step (R153, R334) -/

@[simp] theorem Chip.queueRepair_cores (c : Chip) (i : Nat) (why : RepairFor) : (c.queueRepair i why).cores = c.cores := by
  simp [Chip.queueRepair, apply_ite Chip.cores]

@[simp] theorem Chip.keepPhases_cores (c : Chip) (n s : Nat) (p : PhaseSt) : (c.keepPhases n s p).cores = c.cores := by
  unfold Chip.keepPhases
  dsimp only
  repeat' split
  all_goals simp

@[simp] theorem Chip.referencePhases_cores (c : Chip) (n s : Nat) (noise : List Int) :
    (c.referencePhases n s noise).1.cores = c.cores := by
  unfold Chip.referencePhases
  dsimp only
  rw [Chip.setArr_cores, Chip.keepPhases_cores]



/-- A context at the end of a step: one step more, and its over-ranges where none was lost. -/
theorem stepEnd_status {before mid n : Nat} (hrisen : min before 0xFFFFFFFF ≤ mid)
    (hfits : before ≤ 0xFFFFFFFF → mid ≤ 0xFFFFFFFF) :
    (decide (n ≠ 0 ∨ before ≠ sat32 (mid + n)) = true → sat32 (mid + n) ≠ before ∨ before = 0xFFFFFFFF) ∧
      (decide (n ≠ 0 ∨ before ≠ sat32 (mid + n)) = false → sat32 (mid + n) = before) := by
  refine ⟨fun h => ?_, fun h => ?_⟩
  · have hor := of_decide_eq_true h
    simp only [sat32] at hor ⊢
    omega
  · have hnor := of_decide_eq_false h
    simp only [sat32] at hnor ⊢
    omega

theorem Chip.stepEnd_ends {c : Chip} {i t a vecs base : Nat} {noise : List Int} {run : StepRun} {rest : List StepItem}
    (hr : (c.core i).run = some run) (hs : (c.core i).steps = .step t a vecs base :: rest) :
    ∃ (c1 : Chip) (st n : Nat), c.stepEnd i noise = c1.endStep i st n ∧
      (∀ j, run.skew = some j → st = Status.scaleSkew ∧ n = j) ∧
      (run.skew = none → n = vecs ∧ (
        st = Status.okClipped ∧ ((c1.actx i a).ovr ≠ (c.actx i a).ovr ∨ (c.actx i a).ovr = 0xFFFFFFFF) ∨
        st = Status.ok ∧ (c1.actx i a).ovr = (c.actx i a).ovr)) ∧
      (c1.actx i a).steps = (c.actx i a).steps + 1 ∧
      (c1.actx i a).disc = sat32 ((c.actx i a).disc + run.changed) ∧
      (c1.core i).steps = (c.core i).steps ∧ (c1.core i).threads = (c.core i).threads := by
  generalize hd : c.stepEnd i noise = d
  unfold Chip.stepEnd at hd
  rw [hr, hs] at hd
  dsimp -zeta only at hd
  extract_lets n p q c1 cfg r rows o c2 ovr before c3 x trackers c4 clip at hd
  have h1 : c1.cores = c.cores := by
    have hq : q.1.cores = c.cores := by
      simp only [q]
      split <;> simp
    simp only [c1]
    split <;> simp [hq]
  have h2 : c2.cores = c.cores := by simp [c2, h1]
  have h3 : KeepsStep i a c c3 := (KeepsStep.of_cores h2).trans (.foldl _ (fun d y => d.siteRow_keepsStep ..) _ _)
  clear_value c3
  have hb : before = (c.actx i a).ovr := congrArg Actx.ovr (Chip.actx_of_cores h2 i a)
  have h4 : c4.actx i a = _ := Chip.actx_setActx_same ..
  have h5 : c4.core i = _ := Chip.core_setActx ..
  have hclip := stepEnd_status (n := ovr) h3.risen h3.fits
  have hovr : (c4.actx i a).ovr = sat32 ((c3.actx i a).ovr + ovr) := congrArg Actx.ovr h4
  rw [← hovr, ← hb] at hclip
  refine ⟨c4, match run.skew with | some _ => Status.scaleSkew | none => if clip then Status.okClipped else Status.ok,
    match run.skew with | some j => j | none => rows, ?_, ?_, ?_, ?_, ?_, ?_, ?_⟩
  · rw [← hd]
    cases run.skew <;> rfl
  · intro j hj
    simp [hj]
  · intro hj
    have hrows : rows = vecs := by simp only [rows, hj, rowsBefore]
    simp only [hj, ← hb]
    refine ⟨hrows, ?_⟩
    cases hc : clip with
    | true => exact .inl ⟨rfl, hclip.1 hc⟩
    | false => exact .inr ⟨rfl, hclip.2 hc⟩
  · rw [h4]
    exact congrArg (· + 1) h3.count
  · rw [h4]
    exact congrArg (fun n => sat32 (n + run.changed)) h3.changes
  · rw [← h3.steps]
    rw [h5]
  · rw [← h3.threads]
    rw [h5]

/-- A thread that retires and is not to stop changes its site's threads alone. -/
theorem Chip.core_retire {c : Chip} {h : Hart} (hs : (c.thread h).stopping = false) :
    (c.retire h).core h.i = { c.core h.i with threads := Tab.set (c.core h.i).threads h.t { c.thread h with
      state := 1, pc := ((c.thread h).pc + 4) % 2 ^ 48, retired := (c.thread h).retired + 1, wait := .none } } := by
  have ht : (c.countInstr h.i).thread h = c.thread h := rfl
  unfold Chip.retire Chip.retireTo
  dsimp only
  rw [ht, hs]
  exact Chip.core_setThread ..

/-- With nothing behind it, the step's thread goes on with the status and the rows in rd. -/
theorem Chip.endStep_last {c : Chip} {i t a vecs base rd st n : Nat}
    (hs : (c.core i).steps = [.step t a vecs base]) (hw : (c.thread ⟨i, t⟩).wait = .step rd)
    (hstop : (c.thread ⟨i, t⟩).stopping = false) :
    ((c.endStep i st n).core i).run = none ∧ ((c.endStep i st n).core i).steps = [] ∧
      ((c.endStep i st n).thread ⟨i, t⟩).state = 1 ∧
      ((c.endStep i st n).thread ⟨i, t⟩).getX rd = if rd = 0 then 0 else BitVec.ofNat 64 (st + n * 2 ^ 16) := by
  set d := c.setCore i { c.core i with steps := [], run := none } with hd
  have hdcore : d.core i = { c.core i with steps := [], run := none } := Chip.core_setCore_same ..
  have hdt : d.thread ⟨i, t⟩ = c.thread ⟨i, t⟩ := by
    simp only [Chip.thread, hdcore]
  set e := d.mapThread ⟨i, t⟩ fun x => x.setX rd (BitVec.ofNat 64 (st + n * 2 ^ 16)) with he
  have het : e.thread ⟨i, t⟩ = (c.thread ⟨i, t⟩).setX rd (BitVec.ofNat 64 (st + n * 2 ^ 16)) := by
    rw [he, Chip.thread_mapThread_same, hdt]
  have hetstop : (e.thread ⟨i, t⟩).stopping = false := by rw [het, Thread.setX_stopping, hstop]
  have hcore := Chip.core_retire hetstop
  have hecore := Chip.core_setThread d ⟨i, t⟩ ((d.thread ⟨i, t⟩).setX rd (BitVec.ofNat 64 (st + n * 2 ^ 16)))
  have hrun : ((e.retire ⟨i, t⟩).core i).run = none :=
    (congrArg Core.run hcore).trans ((congrArg Core.run hecore).trans (congrArg Core.run hdcore))
  have hsteps : ((e.retire ⟨i, t⟩).core i).steps = [] :=
    (congrArg Core.steps hcore).trans ((congrArg Core.steps hecore).trans (congrArg Core.steps hdcore))
  have hend : c.endStep i st n = e.retire ⟨i, t⟩ := by
    simp only [Chip.endStep, hs, ← hd, hdt, hw, ← he, Chip.nextStep, Chip.startStep, hrun, hsteps]
  rw [hend, Chip.thread_retire hetstop, het]
  exact ⟨hrun, hsteps, rfl, Thread.getX_setX_same ..⟩

/-! ### Descriptors, steps and contexts that threads enqueue -/

theorem Chip.performAccess_denq {c : Chip} {h : Hart} {rd a len tent : Nat} {compl : Word} (ha : a < regBase) :
    c.performAccess h ⟨.denq rd compl, a, len, a, tent, none⟩ =
      (c.setThread h ((c.thread h).answered ⟨.denq rd compl, a, len, a, tent, none⟩)).denqRecord h rd compl
        (c.bytes a len) := by
  simp only [Chip.performAccess, Chip.homeLoad_of_lt ha, Chip.accessDone]

theorem denq_own {s : State} {h : Hart} {rd ra rb : BitVec 5} {fn : BitVec 11} {d d1 d2 : Chip} {a : Nat}
    {bs : List Byte}
    (hi : Issues s.chip h (.denq h rd ra rb fn) true (some ⟨.r, (s.chip.x h ra).toNat, 128⟩) d)
    (hd : a = (d.x h ra).toNat) (hs : a = (s.chip.x h ra).toNat) (ha : a % 8 = 0) (hin : inStore h.i a 128 = true)
    (hbs : bs = d.bytes a 128) (hcompl : (d.x h rb).toNat % 32 = 0)
    (hd1 : d1 = d.setThread h ((d.thread h).answered ⟨.denq rd.toNat (d.x h rb), a, 128, a, d.siteTent h.i, none⟩))
    (hq : d1.enqueueDale { tent := d1.siteTent h.i, compl := some (d.x h rb).toNat, desc := wordsOfBytes 16 bs } =
      (Status.ok, d2)) :
    execDenq h rd ra rb fn s = .next { s with chip := d2.answerStatus h rd.toNat Status.ok } := by
  refine (access_runs hi (hs ▸ ha)).trans ?_
  rw [← hd, Chip.access_own rfl ha hin, Chip.performAccess_denq (inStore_lt_regBase hi.1 hin (by omega)), ← hbs, ← hd1]
  simp only [Chip.denqRecord, hcompl, hq, ne_eq, not_true_eq_false, if_false]

theorem astep_runs {s : State} {h : Hart} {rd ra rb : BitVec 5} {fn : BitVec 11} {d : Chip}
    (hi : Issues s.chip h (.astep h rd ra rb fn) true none d) :
    execAstep h rd ra rb fn s = .next { s with chip := d.astep h rd.toNat (d.x h ra).toNat fn.toNat } :=
  thread_runs hi

theorem Chip.astep_taken {c : Chip} {h : Hart} {rd addr fn : Nat} (hl : c.lmapValid h.i = true)
    (hin : inStore h.i addr 16 = true) (ha : addr % 16 = 0)
    (hst : c.stepRefused h.i (fn % 4) (bitsOf fn 6 2 + 1) (addr - storeBase h.i) = none) :
    c.astep h rd addr fn = ((c.setCore h.i { c.core h.i with
      steps := (c.core h.i).steps ++ [.step h.t (fn % 4) (bitsOf fn 6 2 + 1) (addr - storeBase h.i)] }).mapThread h
        fun t => { t with state := 3, wait := .step rd }).nextStep h.i := by
  simp [Chip.astep, hl, hin, ha, hst]

theorem astepEnd_runs {i : Nat} {noise : List Int} {s : State} (hi : i < 27648) :
    execAstepEnd i noise s = .next { s with chip := s.chip.stepEnd i noise } := by
  simp [execAstepEnd, onUnits, onChip, logicalOk, hi]

theorem aclose_runs {s : State} {h : Hart} {rd ra rb : BitVec 5} {fn : BitVec 11} {d : Chip}
    (hi : Issues s.chip h (.aclose h rd ra rb fn) false none d) :
    execAclose h rd ra rb fn s = .next { s with chip := d.aclose h rd.toNat (fn.toNat % 4) } := thread_runs hi

theorem Chip.aclose_of_mapped {c : Chip} {h : Hart} {rd a : Nat} (hl : c.lmapValid h.i = true) :
    c.aclose h rd a = (c.queueCtx h.i (.close a) a fun c => c.actxClose h.i a).answerStatus h rd Status.ok := by
  simp [Chip.aclose, hl]

theorem Chip.wActxCfg_taken {c : Chip} {n p a i : Nat} {x : Word} (hl : c.logicalOf n p = some i)
    (hr : c.actxRefused i (bitsOf (c.actxReg .siteActxTable i a) 14 0) (bitsOf x.toNat 31 0) = false) :
    c.wActxCfg n p a x = (Status.ok,
      (c.put { name := .siteActxCfg, idx := [n, p, a] } (BitVec.ofNat 64 (bitsOf x.toNat 31 0))).queueCtx i
        (.create a (BitVec.ofNat 64 (bitsOf x.toNat 31 0))) a fun c => c.actxCreate i a (bitsOf x.toNat 31 0)) := by
  simp [Chip.wActxCfg, hl, hr]

/-- A core's generator seeded: a seed of zero leaves it (R305). -/
def Chip.seeded (c : Chip) (n p : Nat) (seed : Word) : Chip :=
  if seed = 0 then c else c.setGen (.core n p) { s := seed }

theorem Chip.seeded_outs (c : Chip) (n p : Nat) (seed : Word) : (c.seeded n p seed).outs = c.outs := by
  unfold Chip.seeded
  split <;> rfl

theorem Chip.wReply_gen (c : Chip) (w : Writer) (st k : Nat) (g : GenId) : (c.wReply w st k).gen g = c.gen g := by
  simp [Chip.gen]

theorem Chip.seeded_gen (c : Chip) (n p : Nat) {seed : Word} (h : seed ≠ 0) :
    (c.seeded n p seed).gen (.core n p) = { s := seed } := by
  rw [Chip.seeded, if_neg h]
  exact Tab.get_set_same ..

/-- The seed is made of the word written and of the low half, which lies in a register of its own. -/
theorem Chip.wCoreSeed_eq {c : Chip} {n p : Nat} {x seed : Word}
    (h : seed = BitVec.ofNat 64 (bitsOf x.toNat 31 0 * 2 ^ 32 + c.f Fld.siteCoreRseedLo_seed [n, p])) :
    c.wCoreSeed n p x = (Status.ok,
      (c.put { name := .siteCoreRseedHi, idx := [n, p] } (BitVec.ofNat 64 (bitsOf x.toNat 31 0))).seeded n p seed) := by
  have hlo : (c.put { name := .siteCoreRseedHi, idx := [n, p] } (BitVec.ofNat 64 (bitsOf x.toNat 31 0))).f
      Fld.siteCoreRseedLo_seed [n, p] = c.f Fld.siteCoreRseedLo_seed [n, p] :=
    Chip.f_put_of_name_ne _ _ (by decide)
  unfold Chip.wCoreSeed Chip.seeded
  dsimp only
  rw [hlo, h]

theorem coreRseed_runs {w : Writer} {n p : Nat} {x : Word} {s : State} {seed : Word}
    (hadm : RegAdmits s.chip w { name := .siteCoreRseedHi, idx := [n, p] } x)
    (h : seed = BitVec.ofNat 64 (bitsOf x.toNat 31 0 * 2 ^ 32 + s.chip.f Fld.siteCoreRseedLo_seed [n, p])) :
    ∃ u, execCoreRseedLoad w n p x s = .next u ∧ Told s.chip u.chip w Status.ok 1 ∧
      (seed ≠ 0 → u.chip.gen (.core n p) = { s := seed }) ∧ (seed = 0 → u.chip.gens = s.chip.gens) := by
  refine ⟨_, reg_takes hadm (Chip.wCoreSeed_eq h), ?_⟩
  generalize hd : s.chip.put { name := .siteCoreRseedHi, idx := [n, p] } (BitVec.ofNat 64 (bitsOf x.toNat 31 0)) = d
  have houts : d.outs = s.chip.outs := by rw [← hd]; rfl
  refine ⟨Chip.wReply_told_of_grows _ _ (.of_eq ((d.seeded_outs n p seed).trans houts)), fun hne => ?_, fun hz => ?_⟩
  · exact (Chip.wReply_gen ..).trans (d.seeded_gen n p hne)
  · have hgens : d.gens = s.chip.gens := by rw [← hd]; rfl
    simp [Chip.seeded, hz, hgens]

/-- Settles O31: what each form enqueues, and the end of a step by what its rows keep. -/
theorem threadsEnqueueWork : Obligations.ThreadsEnqueueWork := by
  unfold Obligations.ThreadsEnqueueWork
  dsimp only [exec]
  refine ⟨fun h rd ra rb fn s d a d1 d2 bs => denq_own, ?astep, ?ends, ?goesOn, ?aclose, ?create,
    fun w n p x s seed => coreRseed_runs⟩
  case astep =>
    intro h rd ra rb fn s d a d1 ctx vecs hi ha hctx hvecs hl hin hal hst hd1
    subst hd1 hctx hvecs ha
    rw [astep_runs hi, Chip.astep_taken hl hin hal hst]
  case ends =>
    intro i noise s run t ctx vecs base rest hi hr hs
    obtain ⟨c1, st, n, hend, hskew, hok, hcount, hchg, hsteps, hthr⟩ := Chip.stepEnd_ends (noise := noise) hr hs
    refine ⟨c1, st, n, by rw [astepEnd_runs hi, hend], hskew, hok, hcount, hchg, hsteps, ?_⟩
    simp only [Chip.thread, hthr]
  case goesOn =>
    intro i noise s run t ctx vecs base rd hi hr hs hw hrd hstop hskew
    obtain ⟨c1, st, n, hend, -, hok, -, -, hsteps, hthr⟩ := Chip.stepEnd_ends (noise := noise) hr hs
    obtain ⟨rfl, hst⟩ := hok hskew
    have ht : c1.thread ⟨i, t⟩ = s.chip.thread ⟨i, t⟩ := by simp only [Chip.thread, hthr]
    obtain ⟨hrun, hq, hstate, hx⟩ :=
      Chip.endStep_last (st := st) (n := n) (hsteps.trans hs) (by rw [ht, hw]) (by rw [ht, hstop])
    refine ⟨_, st, astepEnd_runs hi, hst.symm.imp And.left And.left, ?_⟩
    dsimp only
    rw [hend]
    exact ⟨hrun, hq, hstate, by rw [hx, if_neg hrd]⟩
  case aclose =>
    intro h rd ra rb fn s d hi hl
    rw [aclose_runs hi, Chip.aclose_of_mapped hl]
  case create =>
    intro w n p a x s i c1 hadm hl href hc1
    subst hc1
    exact reg_takes hadm (Chip.wActxCfg_taken hl href)
end Sys2Proof.Machine
end

section
/-!
Budget registers, leases and the arbiter's accounts (file 02 of spec/): the statements O32, O33 and O34.
-/

namespace Sys2Proof.Machine

/-! ### Registers of the budget (R34, R49, R59) -/

theorem Chip.wFrameCfg_taken {c : Chip} {x : Word} (h0 : bitsOf x.toNat 5 0 ≠ 0)
    (hdiv : (32 / 2 ^ c.f Fld.fhCfg_numerology) % bitsOf x.toNat 5 0 = 0) :
    c.wFrameCfg x = (Status.ok, c.setF Fld.budFrameCfg_frameLen [] (bitsOf x.toNat 5 0)) := by
  simp [Chip.wFrameCfg, h0, hdiv]

@[simp] theorem Chip.settleShed_regs (c : Chip) (g : Nat) : (c.settleShed g).regs = c.regs := rfl
@[simp] theorem Chip.settleShed_loaded (c : Chip) (g : Nat) : (c.settleShed g).loaded = c.loaded := rfl
@[simp] theorem Chip.settleShed_outs (c : Chip) (g : Nat) : (c.settleShed g).outs = c.outs := rfl
@[simp] theorem Chip.setRamp_regs (c : Chip) (g : Nat) (x : Int) : (c.setRamp g x).regs = c.regs := rfl
@[simp] theorem Chip.setRamp_loaded (c : Chip) (g : Nat) (x : Int) : (c.setRamp g x).loaded = c.loaded := rfl
@[simp] theorem Chip.setRamp_outs (c : Chip) (g : Nat) (x : Int) : (c.setRamp g x).outs = c.outs := rfl

/-- A group's limits are set, its ramp allowance follows, and its units are matched to the limit again. -/
theorem Chip.wGroupCfg_taken {c : Chip} {g : Nat} {x : Word} (hlo : c.floorOf g ≤ bitsOf x.toNat 21 11)
    (hhi : bitsOf x.toNat 21 11 ≤ 1500) : ∃ r : Int, c.wGroupCfg g x = (Status.ok,
      (((c.setF Fld.budGroupCfg_ceiling [g] (bitsOf x.toNat 21 11)).setF Fld.budGroupCfg_ramp [g]
        (bitsOf x.toNat 30 24)).setRamp g r).settleShed g) := by
  have hin : ¬ (bitsOf x.toNat 21 11 < c.floorOf g ∨ 1500 < bitsOf x.toNat 21 11) := by omega
  unfold Chip.wGroupCfg
  dsimp only
  rw [if_neg hin]
  split
  · exact ⟨_, rfl⟩
  · split <;> exact ⟨_, rfl⟩

theorem Chip.mpPwrBudget_taken {c : Chip} {m : Cmd} (hs : m.stray 0x7FF = false) (hlo : 400 ≤ m.p) (hhi : m.p ≤ 1500)
    (hfl : c.floorsAll ≤ m.p) :
    c.mpPwrBudget m = (c.setF Fld.budCredBudget_budget [] m.p).finish 0x0903 m Status.ok := by
  have hp : bitsOf m.p 10 0 = m.p := by
    simp only [bitsOf]
    omega
  unfold Chip.mpPwrBudget
  dsimp only
  rw [hs, hp, Chip.setBudget_of_admitted _ _ hlo hhi hfl]
  rfl

theorem groupCfg_runs {w : Writer} {g : Nat} {x : Word} {s : State} {d : Chip} (hg : g < 58)
    (h : RegAdmits s.chip w { name := .budGroupCfg, idx := [g] } x) (hb : s.chip.wGroupCfg g x = (Status.ok, d)) :
    execGroupCfgWrite w g x s = .next { s with chip := d.wReply w Status.ok 1 } := by
  have hok : groupOk g = true := decide_eq_true hg
  rw [execGroupCfgWrite, if_pos hok, reg_takes h hb]
  rfl

/-- Settles O32: each register takes a value in its range, and nothing else of the budget changes. -/
theorem budgetRegistersAreSet : Obligations.BudgetRegistersAreSet := by
  unfold Obligations.BudgetRegistersAreSet
  refine ⟨?frameLen, ?budget, ?group, ?command⟩
  case frameLen =>
    intro w x s n hadm hn h0 hdiv
    subst hn
    refine ⟨_, reg_takes hadm (Chip.wFrameCfg_taken h0 hdiv), ?_, by simp, Chip.wReply_told_of_grows _ _ (.of_eq (by simp))⟩
    simp (disch := decide) only [Chip.wReply_f, Chip.f_setF_bits]
  case budget =>
    intro w x s n hadm hn hlo hhi hfl
    subst hn
    refine ⟨_, exec_credBudgetWrite w x s _ hadm (Chip.setBudget_of_admitted _ _ hlo hhi hfl), ?_, by simp,
      Chip.wReply_told_of_grows _ _ (.of_eq (by simp))⟩
    simp (disch := decide) only [Chip.wReply_f, Chip.f_setF_bits]
  case group =>
    intro w g x s hg hadm hlo hhi
    obtain ⟨r, hset⟩ := Chip.wGroupCfg_taken hlo hhi
    have hregs : ∀ fl idx, ((((s.chip.setF Fld.budGroupCfg_ceiling [g] (bitsOf x.toNat 21 11)).setF
        Fld.budGroupCfg_ramp [g] (bitsOf x.toNat 30 24)).setRamp g r).settleShed g).f fl idx =
        ((s.chip.setF Fld.budGroupCfg_ceiling [g] (bitsOf x.toNat 21 11)).setF Fld.budGroupCfg_ramp [g]
          (bitsOf x.toNat 30 24)).f fl idx := Chip.f_congr rfl rfl
    refine ⟨_, groupCfg_runs hg hadm hset, ?_, ?_, ?_, Chip.wReply_told_of_grows _ _ (.of_eq (by simp))⟩
    · simp (disch := decide) only [Chip.wReply_f, hregs, Chip.f_setF_disjoint, Chip.f_setF_bits]
    · simp (disch := decide) only [Chip.wReply_f, hregs, Chip.f_setF_bits]
    · simp (disch := decide) only [Chip.floorOf, Chip.wReply_f, hregs, Chip.f_setF_disjoint]
  case command =>
    intro m s c' hm hs hlo hhi hfl
    refine ⟨_, mp_runs hm, ?_⟩
    dsimp only
    rw [Chip.mpPwrBudget_taken hs hlo hhi hfl]
    refine ⟨?_, (Chip.finish_answered ..).mono (OutsGrow.of_eq (by simp))⟩
    rw [Chip.finish_f]
    exact Chip.f_setF_eq (by decide) (by decide) (show m.p < 2 ^ 11 by omega)

/-! ### Leases (R41, R45) -/

theorem Chip.requestLease_some {c : Chip} {g : Gate} {t q : Nat}
    (h : ∀ a, c.allowance t (gateClass g) = some a → c.usedOf t (gateClass g) < a) :
    c.requestLease g t q = some (({ c with bud := { c.bud with
      used := Tab.set c.bud.used (t, gateClass g)
        (c.usedOf t (gateClass g) + max (classUnit (gateClass g)) q) } } : Chip).setLease g t c.bud.frame
          (c.leaseIn g t c.bud.frame + max (classUnit (gateClass g)) q)) := by
  unfold Chip.requestLease
  dsimp only
  cases hall : c.allowance t (gateClass g) with
  | none => rfl
  | some a =>
    simp only [h a hall, decide_true, if_true]
    rfl

theorem Chip.requestLease_none {c : Chip} {g : Gate} {t q a : Nat} (h : c.allowance t (gateClass g) = some a)
    (ha : a ≤ c.usedOf t (gateClass g)) : c.requestLease g t q = none := by
  simp [Chip.requestLease, h, Nat.not_lt.mpr ha]

theorem Chip.leaseIn_setLease (c : Chip) (g : Gate) (t fr n : Nat) : (c.setLease g t fr n).leaseIn g t fr = n := by
  have hnone : ∀ l : List (Nat × Nat), l.filter (fun a => a.1 == fr && a.1 != fr) = [] := fun l =>
    List.filter_eq_nil_iff.mpr fun a _ => by simp
  simp [Chip.setLease, Chip.leaseIn, Tab.get_set_same, List.filter_filter, hnone]

theorem waitLimit_runs {g : Gate} {t : Nat} {s : State} (hg : gateExists g = true) (ht : t < 64) :
    execWaitLimitExpire g t s = .next { s with chip := s.chip.waitLimit g t } := by
  simp [execWaitLimitExpire, onUnits, onChip, tentOk, hg, ht]

theorem Chip.waitLimit_one {c c1 : Chip} {g : Gate} {t : Nat} {w : Waiting}
    (hdue : (c.waitingAt g t).filter (fun w => decide (c.f Fld.budWaitLimit_waitFrames [t] ≠ 0 ∧
      c.f Fld.budWaitLimit_waitFrames [t] + 1 ≤ w.met)) = [w])
    (hend : c.endWaiting (w.job.getD g) t = (c1, true)) : c.waitLimit g t = c1.ev .budEvWait [t] := by
  unfold Chip.waitLimit
  dsimp only
  rw [hdue]
  simp [hend]

/-- Settles O33: a lease below the allowance, none at it, and a grain that waited too long. -/
theorem leasesFollowTheAllowance : Obligations.LeasesFollowTheAllowance := by
  unfold Obligations.LeasesFollowTheAllowance
  refine ⟨?below, ?spent, ?waited⟩
  case below =>
    intro g t q s n hg ht ha hn
    subst hn
    refine ⟨_, exec_leaseRequest g t q s hg ht, ?_⟩
    dsimp only
    rw [Chip.leaseRequest, Chip.requestLease_some ha]
    exact ⟨Tab.get_set_same .., Chip.leaseIn_setLease .., rfl⟩
  case spent =>
    intro g t q s a hg ht ha hle
    rw [exec_leaseRequest g t q s hg ht, Chip.leaseRequest, Chip.requestLease_none ha hle]
    rfl
  case waited =>
    intro g t s w c1 hg ht _ hdue hend
    exact (waitLimit_runs hg ht).trans (by rw [Chip.waitLimit_one hdue hend])

/-! ### The arbiter's accounts (R49 to R57) -/

theorem creditRelease_runs {a : Asker} {s : State} (h : askerExists a = true) :
    execCreditRelease a s = .next { s with chip := s.chip.creditRelease a } := by
  simp [execCreditRelease, onUnits, onChip, h]

theorem rampRefill_runs {g us : Nat} {s : State} (hg : g < 58) :
    execRampRefill g us s = .next { s with chip := s.chip.rampRefill g us } := by
  simp [execRampRefill, onUnits, onChip, groupOk, hg]

theorem Chip.rampOf_setRamp (c : Chip) (g : Nat) (x : Int) : (c.setRamp g x).rampOf g = x := Tab.get_set_same ..

/-- Settles O34: each event of the arbiter, and the release of each kind of unit. -/
theorem arbiterKeepsItsAccounts : Obligations.ArbiterKeepsItsAccounts := by
  unfold Obligations.ArbiterKeepsItsAccounts
  refine ⟨?request, ?grant, ?refill, ?dale, ?reading, ?program, ?quarter, ?decoder, ?encoder, ?booster⟩
  case request =>
    intro a s ha hg hnew
    refine ⟨_, exec_creditRequest a s ha, s.chip.askCredits_requests a hg hnew, ?_⟩
    have hany : s.chip.bud.requests.any (fun r => r.who == a) = false := by simpa using hnew
    simp [Chip.askCredits, hg, hany]
  case grant =>
    intro s r c1 hfirst hc1
    subst hc1
    rw [exec_creditGrant, Chip.creditGrant_of_some _ _ hfirst]
  case refill =>
    intro g us s hg hr
    refine ⟨_, rampRefill_runs hg, ?_⟩
    dsimp only
    rw [Chip.rampRefill, if_neg hr]
    exact ⟨Chip.rampOf_setRamp .., rfl⟩
  case dale =>
    intro k s hk hact hrun
    refine ⟨_, rfl, (creditRelease_runs (by simpa [askerExists] using hk)).trans ?_⟩
    simp [Chip.creditRelease, hact, hrun, askerGroup, askerStep]
  case reading =>
    intro n s hn hpos hbusy
    refine ⟨_, rfl, (creditRelease_runs (by simpa [askerExists] using hn)).trans ?_⟩
    simp only [Chip.creditRelease, hpos, hbusy, true_and, if_true]
    rfl
  case program =>
    intro n p s hn hp hpos hbusy
    refine ⟨_, rfl, (creditRelease_runs (by simp [askerExists, hn, hp])).trans ?_⟩
    simp only [Chip.creditRelease, hpos, hbusy, true_and, if_true]
    rfl
  case quarter =>
    intro q s hq hfl
    refine (creditRelease_runs (by simpa [askerExists] using hq)).trans ?_
    have hfl' : s.chip.floorOf (askerGroup (.quarter q)) < s.chip.granted (askerGroup (.quarter q)) := hfl
    simp only [Chip.creditRelease, hfl', if_true]
    rfl
  case decoder =>
    intro s hbusy
    refine ⟨_, rfl, (creditRelease_runs rfl).trans ?_⟩
    simp only [Chip.creditRelease, hbusy, if_true]
    rfl
  case encoder =>
    intro s hbusy
    refine ⟨_, rfl, (creditRelease_runs rfl).trans ?_⟩
    simp only [Chip.creditRelease, hbusy, if_true]
    rfl
  case booster =>
    intro k s hk hon hshed
    refine (creditRelease_runs (by simpa [askerExists] using hk)).trans ?_
    simp only [Chip.creditRelease, hon, hshed, true_and, if_true]
    rfl

end Sys2Proof.Machine
end

section
/-!
Registers of the Dales, the converters, the drive and the Guylines: the statements O35, O36 and O37.
-/

namespace Sys2Proof.Machine

/-! ### Dales and level images (R101, R106, R114, R172) -/

theorem Chip.wRowmap_taken {c : Chip} {v d : Nat} {x : Word} (hne : bitsOf x.toNat 6 0 ≠ bitsOf x.toNat 14 8)
    (ha : bitsOf x.toNat 6 0 ≤ 65) (hb : bitsOf x.toNat 14 8 ≤ 65) (hrun : (c.dale (12 * v + d)).run = none)
    (htile : (c.dale (12 * v + d)).tile = none) (hstag : (c.dale (12 * v + d)).staging = none) :
    c.wRowmap v d x = (Status.ok, c.put { name := .daleRowmap, idx := [v, d] }
      (BitVec.ofNat 64 (bitsOf x.toNat 14 8 * 2 ^ 8 + bitsOf x.toNat 6 0))) := by
  simp [Chip.wRowmap, hrun, htile, hstag, hne, Nat.not_lt.mpr ha, Nat.not_lt.mpr hb]

theorem Chip.wParkCol_taken {c : Chip} {k : Nat} {x : Word} (hp : bitsOf x.toNat 14 8 ≤ 65)
    (hcal : bitsOf x.toNat 14 8 ≠ c.calCol k) :
    c.wParkCol k x = (Status.ok, c.setDale k { c.dale k with rot := { (c.dale k).rot with
      park := if bitsOf x.toNat 14 8 = c.parkCol k then none else some (bitsOf x.toNat 14 8) } }) := by
  simp [Chip.wParkCol, Nat.not_lt.mpr hp, hcal]

@[simp] theorem Chip.dale_setDale_same (c : Chip) (k : Nat) (d : Dale) : (c.setDale k d).dale k = d := Tab.get_set_same ..

theorem Chip.dale_wReply (c : Chip) (w : Writer) (st n k : Nat) : (c.wReply w st n).dale k = c.dale k := by
  simp [Chip.dale]

/-- A range of level images that meets no other is set. -/
theorem Chip.wVeldImgBase_taken {c : Chip} {n : Nat} {x : Word} (hset : bitOf x.toNat 31 = true)
    (hend : bitsOf x.toNat 22 0 * 65536 + 0x6000000 ≤ 0x4800000000)
    (hfree : ∀ m, m < 36 → m ≠ n → c.flag Fld.veldImgBase_valid [m] = true →
      c.f Fld.veldImgBase_base [m] + 0x600 ≤ bitsOf x.toNat 22 0 ∨
        bitsOf x.toNat 22 0 + 0x600 ≤ c.f Fld.veldImgBase_base [m])
    (hwas : c.flag Fld.veldImgBase_valid [n] = true → bitsOf x.toNat 22 0 = c.f Fld.veldImgBase_base [n]) :
    c.wVeldImgBase n x = (Status.ok, c.put { name := .veldImgBase, idx := [n] } (x &&& 0x807FFFFF)) := by
  have hclash : ((List.range 36).any fun m => m != n && c.flag Fld.veldImgBase_valid [m] &&
      decide (bitsOf x.toNat 22 0 < c.f Fld.veldImgBase_base [m] + 0x600 ∧
        c.f Fld.veldImgBase_base [m] < bitsOf x.toNat 22 0 + 0x600)) = false := by
    simp only [List.any_eq_false, List.mem_range, Bool.and_eq_true, bne_iff_ne, decide_eq_true_eq]
    rintro m hm ⟨⟨hne, hval⟩, hmeet⟩
    have := hfree m hm hne hval
    omega
  unfold Chip.wVeldImgBase
  dsimp only
  rw [hclash, hset, if_neg (by simp only [Bool.false_eq_true, or_false, true_and]; omega),
    if_neg fun h => h.2 (hwas h.1), if_neg (by simp)]

/-- Settles O35: each register of a Dale or of a level image as it is taken. -/
theorem matrixRegistersAreSet : Obligations.MatrixRegistersAreSet := by
  unfold Obligations.MatrixRegistersAreSet
  dsimp only [exec]
  refine ⟨?rowmap, ?park, ?side, ?images⟩
  case rowmap =>
    intro w v d x s a b hadm ha hb hne hla hlb hrun htile hstag
    subst ha hb
    refine ⟨_, reg_takes hadm (Chip.wRowmap_taken hne hla hlb hrun htile hstag), ?_, by simp, by simp⟩
    rw [Chip.wReply_get, Chip.get_put_same]
  case park =>
    intro w v d x s p hadm hp hle hcal
    subst hp
    refine ⟨_, reg_takes hadm (Chip.wParkCol_taken hle hcal), by simp, ?_⟩
    rw [Chip.dale_wReply, Chip.dale_setDale_same]
  case side =>
    intro w v d x s c1 hadm hc1
    subst hc1
    exact reg_runs hadm
  case images =>
    intro w n x s base hadm hbase hset hend hfree hwas
    subst hbase
    refine ⟨_, reg_takes hadm (Chip.wVeldImgBase_taken hset hend hfree hwas), ?_, ?_⟩ <;> rw [Chip.wReply_f, Chip.f]
    · exact (congrArg (fun y : Word => bitsOf y.toNat 22 0) (Chip.get_put_same ..)).trans
        (by rw [BitVec.toNat_and]; exact bitsOf_and_ones _ _ (by decide))
    · refine (congrArg (fun y : Word => bitsOf y.toNat 31 31) (Chip.get_put_same ..)).trans ?_
      rw [BitVec.toNat_and]
      exact (bitsOf_and_ones _ _ (by decide)).trans (bitsOf_eq_one hset)

/-! ### The monitor ADCs (R195 to R209) -/

@[simp] theorem Chip.adc_setAdc_same (c : Chip) (v l : Nat) (a : Adc) : (c.setAdc v l a).adc v l = a := Tab.get_set_same ..

theorem Chip.adc_of_adcs {c d : Chip} (h : d.adcs = c.adcs) (v l : Nat) : d.adc v l = c.adc v l := by
  simp only [Chip.adc, h]

/-- The words of the accumulators of a table that begins. -/
def Chip.clearAccs (c : Chip) (v l : Nat) : Chip :=
  (List.range 64).foldl (fun c e =>
    if (c.get { name := .convAcc, idx := [v, l, e] }).toNat = 0 then c
    else c.put { name := .convAcc, idx := [v, l, e] }
      (BitVec.ofNat 64 ((c.get { name := .convAcc, idx := [v, l, e] }).toNat % 2 ^ 25))) c

theorem Chip.clearAccs_keeps {P : Chip → Prop} {c : Chip} {v l : Nat}
    (hput : ∀ d e x, P d → P (d.put { name := .convAcc, idx := [v, l, e] } x)) (h : P c) : P (c.clearAccs v l) := by
  unfold Chip.clearAccs
  generalize List.range 64 = es
  induction es generalizing c with
  | nil => exact h
  | cons e es ih =>
    refine ih ?_
    dsimp only
    split
    · exact h
    · exact hput _ _ _ h

theorem Chip.goTable_of_idle {c : Chip} {v l : Nat} (h : c.flag Fld.convCtl_active [v, l] = false) :
    c.goTable v l = ((c.clearAccs v l).setAdc v l { (c.clearAccs v l).adc v l with
      next := (c.clearAccs v l).f Fld.convCtl_start [v, l], halting := false, redo := false,
      goes := ((c.clearAccs v l).adc v l).goes + 1 }).setF Fld.convCtl_active [v, l] 1 := by
  simp [Chip.goTable, h, Chip.clearAccs]

theorem Chip.haltTable_of_entry {c : Chip} {v l e : Nat} {q : Word} {b : Bool} (h : c.flag Fld.convCtl_active [v, l] = true)
    (hrun : (c.adc v l).run = .entry e q b) : c.haltTable v l = c.setAdc v l { c.adc v l with halting := true } := by
  simp [Chip.haltTable, h, hrun]

/-- A fold that clears the trackers of the bits set. -/
theorem Chip.get_clearTrackers {r : Nat → Reg} (hr : ∀ a b, r a = r b → a = b) (p : Nat → Bool) (es : List Nat)
    (c : Chip) (e : Nat) :
    (es.foldl (fun c e => if p e then c.clearTracker (r e) else c) c).get (r e) =
      if e ∈ es ∧ p e = true then 0 else c.get (r e) := by
  induction es generalizing c with
  | nil => simp
  | cons k es ih =>
    rw [List.foldl_cons, ih]
    by_cases hk : e = k
    · subst hk
      by_cases hp : p e = true
      · have hz : (c.clearTracker (r e)).get (r e) = 0 := Chip.get_put_same ..
        simp [hp, hz]
      · simp [hp]
    · have hz : (if p k then c.clearTracker (r k) else c).get (r e) = c.get (r e) := by
        split
        · exact Chip.get_put_other _ _ _ _ fun h => hk (hr _ _ h)
        · rfl
      simp [hz, hk]

theorem Chip.inject_queue {c : Chip} {v l : Nat} {i : Inj} (h : c.f Fld.convCtl_injPend [v, l] < 8) :
    c.inject v l i = some ((c.setAdc v l { c.adc v l with queue := (c.adc v l).queue ++ [i] }).showAdc v l) := by
  simp [Chip.inject, Nat.not_le.mpr h]

@[simp] theorem Chip.showAdc_adcs (c : Chip) (v l : Nat) : (c.showAdc v l).adcs = c.adcs := by simp [Chip.showAdc]

theorem Chip.wConvSeq_taken {c : Chip} {v l e : Nat} {x : Word} (h : seqRefused x.toNat = false) :
    ∃ d : Chip, c.wConvSeq v l e x = (Status.ok, d.put { name := .convSeq, idx := [v, l, e] } x) := by
  unfold Chip.wConvSeq
  dsimp only
  rw [h]
  exact ⟨_, rfl⟩

theorem Chip.wConvTrig_taken {c : Chip} {v k : Nat} {x : Word}
    (h : bitOf x.toNat 31 = true → 50 ≤ bitsOf x.toNat 10 0 ∧ bitsOf x.toNat 10 0 ≤ 2000 ∧
      bitsOf x.toNat 26 16 < bitsOf x.toNat 10 0) :
    ∃ d : Chip, c.wConvTrig v k x = (Status.ok, d.put { name := .convTrig, idx := [v, k] }
      (BitVec.ofNat 64 (bitsOf x.toNat 10 0 + bitsOf x.toNat 26 16 * 65536 + bitsOf x.toNat 31 31 * 2 ^ 31))) := by
  unfold Chip.wConvTrig
  dsimp only
  rw [if_neg fun hbad => ?_]
  · exact ⟨_, rfl⟩
  · obtain ⟨hen, hdiv⟩ := hbad
    have := h hen
    omega

/-- The four loads of the housekeeping rounds are shown after the entry is written. -/
theorem Chip.wHkSeq_taken {c : Chip} {e : Nat} {x : Word} (h : hkRefused x.toNat = false)
    (hload : ∀ k, k < 4 → roundLoad (c.hkEntries k e x.toNat) ≤ 1000) :
    ∃ d : Chip, c.wHkSeq e x = (Status.ok,
      ((((d.put { name := .pwrHkSeq, idx := [e] } x).put { name := .pwrHkLoad, idx := [0] }
        (BitVec.ofNat 64 (roundLoad (c.hkEntries 0 e x.toNat)))).put { name := .pwrHkLoad, idx := [1] }
        (BitVec.ofNat 64 (roundLoad (c.hkEntries 1 e x.toNat)))).put { name := .pwrHkLoad, idx := [2] }
        (BitVec.ofNat 64 (roundLoad (c.hkEntries 2 e x.toNat)))).put { name := .pwrHkLoad, idx := [3] }
        (BitVec.ofNat 64 (roundLoad (c.hkEntries 3 e x.toNat)))) := by
  have hany : (((List.range 4).map fun k => roundLoad (c.hkEntries k e x.toNat)).any fun n => decide (1000 < n)) =
      false := by
    simp only [List.any_map, List.any_eq_false, List.mem_range, Function.comp, decide_eq_true_eq]
    exact fun k hk => Nat.not_lt.mpr (hload k hk)
  unfold Chip.wHkSeq
  dsimp only
  rw [h, hany, if_neg (by simp)]
  exact ⟨_, rfl⟩

/-- Settles O36: tables, trackers, injections, entries and triggers. -/
theorem converterRegistersAct : Obligations.ConverterRegistersAct := by
  unfold Obligations.ConverterRegistersAct
  dsimp only [exec]
  refine ⟨?go, ?halt, ?trackers, ?hkTrackers, ?inject, ?seq, ?trig, ?hkSeq⟩
  case go =>
    intro w v l x s y hy hadm hhalt hidle
    have hgo : bitOf y.toNat 31 = true := by
      rw [hy, BitVec.toNat_or, bitOf_or]
      exact Bool.or_eq_true_iff.mpr (.inr (by decide))
    have hstart : bitsOf y.toNat 27 22 = bitsOf x.toNat 27 22 := by
      rw [hy, BitVec.toNat_or, bitsOf_or, show bitsOf (0x80000000 : Word).toNat 27 22 = 0 by decide, Nat.or_zero]
    set d := s.chip.setF Fld.convCtl_start [v, l] (bitsOf y.toNat 27 22) with hd
    have hidle' : d.flag Fld.convCtl_active [v, l] = false := by
      simpa (disch := decide) only [Chip.flag, hd, Chip.f_setF_disjoint] using hidle
    have hf : (d.clearAccs v l).f Fld.convCtl_start [v, l] = bitsOf x.toNat 27 22 := by
      refine Chip.clearAccs_keeps (P := fun e => e.f Fld.convCtl_start [v, l] = bitsOf x.toNat 27 22)
        (fun e k z he => (Chip.f_put_of_name_ne _ _ (by decide)).trans he) ?_
      simp (disch := decide) only [hd, Chip.f_setF_bits, hstart]
    have hset : s.chip.wConvCtl v l y = (Status.ok, d.goTable v l) := by
      simp [Chip.wConvCtl, hgo, hhalt, hd]
    refine ⟨_, reg_takes hadm (by rw [← hy]; exact hset), ?_⟩
    dsimp only
    rw [Chip.goTable_of_idle hidle', Chip.wReply_f, Chip.adc_of_adcs (Chip.wReply_adcs ..),
      Chip.adc_of_adcs (Chip.setF_adcs ..), Chip.adc_setAdc_same]
    exact ⟨Chip.f_setF_eq (by decide) (by decide) (by decide), hf, rfl⟩
  case halt =>
    intro w v l x s e q b hadm hgo hact hrun
    have hgo' : bitOf (x ||| 0x40000000).toNat 31 = false := by
      rw [BitVec.toNat_or, bitOf_or, hgo]
      decide
    have hhalt : bitOf (x ||| 0x40000000).toNat 30 = true := by
      rw [BitVec.toNat_or, bitOf_or]
      exact Bool.or_eq_true_iff.mpr (.inr (by decide))
    set d := s.chip.setF Fld.convCtl_start [v, l] (bitsOf (x ||| 0x40000000).toNat 27 22) with hd
    have hact' : d.flag Fld.convCtl_active [v, l] = true := by
      simpa (disch := decide) only [Chip.flag, hd, Chip.f_setF_disjoint] using hact
    have hrun' : (d.adc v l).run = .entry e q b := hrun
    have hset : s.chip.wConvCtl v l (x ||| 0x40000000) = (Status.ok, d.setAdc v l { d.adc v l with halting := true }) := by
      rw [← Chip.haltTable_of_entry hact' hrun']
      simp only [Chip.wConvCtl, hgo', hhalt, if_true, Bool.false_eq_true, if_false, hd]
    refine ⟨_, reg_takes hadm hset, ?_⟩
    dsimp only
    rw [Chip.adc_of_adcs (Chip.wReply_adcs ..), Chip.adc_setAdc_same]
    exact ⟨rfl, hrun'⟩
  case trackers =>
    intro w v l x s hadm
    refine ⟨_, reg_takes hadm rfl, fun e he => ?_⟩
    rw [Chip.wReply_get, Chip.get_clearTrackers (r := fun e => { name := .convTrk, idx := [v, l, e] })
      (fun a b h => by simpa using h) (fun e => bitOf x.toNat e)]
    simp [he]
  case hkTrackers =>
    intro w k x s hadm
    refine ⟨_, reg_takes hadm rfl, fun e he => ?_⟩
    rw [Chip.wReply_get, Chip.get_clearTrackers (r := fun e => { name := .pwrHkTrk, idx := [64 * k + e] })
      (fun a b h => by simpa using h) (fun e => bitOf x.toNat e)]
    simp [he]
  case inject =>
    intro w v l x s hadm hok hroom
    refine ⟨_, reg_takes hadm (by simp only [Chip.wConvInj, hok, Bool.false_eq_true, if_false, Chip.inject_queue hroom]; rfl), ?_⟩
    dsimp only
    rw [Chip.adc_of_adcs (Chip.wReply_adcs ..), Chip.adc_of_adcs (Chip.showAdc_adcs ..), Chip.adc_setAdc_same]
  case seq =>
    intro w v l e x s hadm hok
    obtain ⟨d, hd⟩ := Chip.wConvSeq_taken (c := s.chip) (v := v) (l := l) (e := e) hok
    exact ⟨_, reg_takes hadm hd, by rw [Chip.wReply_get, Chip.get_put_same]⟩
  case trig =>
    intro w v k x s hadm hok
    obtain ⟨d, hd⟩ := Chip.wConvTrig_taken (c := s.chip) (v := v) (k := k) hok
    exact ⟨_, reg_takes hadm hd, by rw [Chip.wReply_get, Chip.get_put_same]⟩
  case hkSeq =>
    intro w e x s hadm hok hload
    obtain ⟨d, hd⟩ := Chip.wHkSeq_taken hok hload
    refine ⟨_, reg_takes hadm hd, ?_, fun k hk => ?_⟩
    · rw [Chip.wReply_get]
      simp (disch := decide) only [Chip.get_put_of_name_ne, Chip.get_put_same]
    · rw [Chip.wReply_get]
      interval_cases k <;> simp [Chip.get_put]

/-! ### The drive and the Guylines (R228 to R275) -/

/-- A register write of several words is taken where its register takes them. -/
theorem reg_takes_words {w : Writer} {r : Reg} {x : Word} {xs : List Word} {n : Nat} {body : Chip → Nat × Chip}
    {s : State} {d : Chip} (h : RegAdmits s.chip w r x) (hn : xs.length = n) (hb : body s.chip = (Status.ok, d)) :
    onReg w r x s (fun c => if xs.length = n then body c else (Status.badParam, c)) =
      .next { s with chip := d.wReply w Status.ok r.name.desc.words } :=
  reg_takes h (by rw [if_pos hn, hb])

@[simp] theorem Chip.loop_setLoop_same (c : Chip) (v n : Nat) (x : Loop) : (c.setLoop v n x).loop v n = x :=
  Tab.get_set_same ..

theorem Chip.loop_of_loops {c d : Chip} (h : d.loops = c.loops) (v n : Nat) : d.loop v n = c.loop v n := by
  simp only [Chip.loop, h]

@[simp] theorem Chip.showLoad_loops (c : Chip) (v : Nat) : (c.showLoad v).loops = c.loops := by simp [Chip.showLoad]

theorem Chip.loopState_showLoad (c : Chip) (v m n : Nat) : (c.showLoad v).loopState m n = c.loopState m n :=
  Chip.f_setF_of_name_ne _ _ _ (by decide)

theorem Chip.wGuyCoef_taken {c : Chip} {v n k : Nat} {xs : List Word} (hx : coefsWellFormed xs = true)
    (hidle : c.loopState v n = 0) : c.wGuyCoef v n k xs = (Status.ok,
      (c.setGen (.guyline v) (normaliseCoefs (c.gen (.guyline v)) xs).2).putWords .guyCoef [v, n, k]
        (normaliseCoefs (c.gen (.guyline v)) xs).1) := by
  simp [Chip.wGuyCoef, hx, hidle]

/-- The three fields a test's control word sets. -/
def Chip.testFields (c : Chip) (v n : Nat) : Chip :=
  ((c.setF Fld.guyTestCtl_sig [v] (bitsOf n 25 24)).setF Fld.guyTestCtl_point [v] (bitsOf n 23 23)).setF
    Fld.guyTestCtl_loop [v] (bitsOf n 10 0)

theorem Chip.f_testFields_loop (c : Chip) (v n : Nat) :
    (c.testFields v n).f Fld.guyTestCtl_loop [v] = bitsOf n 10 0 := by
  simp (disch := decide) only [Chip.testFields, Chip.f_setF_bits]

theorem Chip.wTestCtl_eq {c : Chip} {v : Nat} {x : Word} (hsig : bitsOf x.toNat 25 24 ≠ 3)
    (hamp : bitOf x.toNat 23 = true → c.f Fld.guyTestAmp_amp [v] * 2 ^ c.f Fld.guyTestAmp_shift [v] ≤ 2 ^ 23)
    (hloop : c.flag Fld.guyTestCtl_active [v] = true → bitsOf x.toNat 10 0 = c.f Fld.guyTestCtl_loop [v]) :
    c.wTestCtl v x =
      (let r := if bitOf x.toNat 31 then (c.testFields v x.toNat).testGo v else (Status.ok, c.testFields v x.toNat)
       if r.1 ≠ Status.ok then (r.1, c)
       else if bitOf x.toNat 30 then (Status.ok, r.2.setF Fld.guyTestCtl_active [v] 0) else r) := by
  unfold Chip.wTestCtl
  dsimp only
  rw [if_neg fun hbad => ?_]
  · rfl
  · obtain hbad | ⟨hpt, hlt⟩ | ⟨hact, hne⟩ := hbad
    · exact hsig hbad
    · exact absurd hlt (Nat.not_lt.mpr (hamp hpt))
    · exact hne (hloop hact)

/-- A test of an idle generator on a loop that runs, without a sweep. -/
theorem Chip.testGo_of_idle {c : Chip} {v : Nat} (hidle : c.flag Fld.guyTestCtl_active [v] = false)
    (hrun : c.loopState v (c.f Fld.guyTestCtl_loop [v]) ≠ 0) (hsig : c.f Fld.guyTestCtl_sig [v] ≠ 2) :
    c.testGo v = (Status.ok, ({ c with tests := Tab.set c.tests v {} } : Chip).setF Fld.guyTestCtl_active [v] 1) := by
  simp [Chip.testGo, hidle, hrun, hsig]

theorem Chip.captureGo_of_idle {c : Chip} {v : Nat} (hidle : c.flag Fld.guyCapState_active [v] = false)
    (hbase : capBaseOk v (c.f Fld.guyCapBase_base [v]) = true) : c.captureGo v =
      (Status.ok, (c.put { name := .guyCapState, idx := [v] } 0).setF Fld.guyCapState_active [v] 1) := by
  simp [Chip.captureGo, hidle, hbase]

theorem Chip.wTestCtl_go {c d : Chip} {v : Nat} {x : Word} (hd : d = c.testFields v x.toNat)
    (hgo : bitOf x.toNat 31 = true) (hstop : bitOf x.toNat 30 = false) (h3 : bitsOf x.toNat 25 24 ≠ 3)
    (h2 : bitsOf x.toNat 25 24 ≠ 2)
    (hamp : bitOf x.toNat 23 = true → c.f Fld.guyTestAmp_amp [v] * 2 ^ c.f Fld.guyTestAmp_shift [v] ≤ 2 ^ 23)
    (hidle : c.flag Fld.guyTestCtl_active [v] = false) (hrun : c.loopState v (bitsOf x.toNat 10 0) ≠ 0) :
    c.wTestCtl v x = (Status.ok, ({ d with tests := Tab.set d.tests v {} } : Chip).setF Fld.guyTestCtl_active [v] 1) := by
  have hloop : d.f Fld.guyTestCtl_loop [v] = bitsOf x.toNat 10 0 := by
    rw [hd, Chip.f_testFields_loop]
  have hsig : d.f Fld.guyTestCtl_sig [v] = bitsOf x.toNat 25 24 := by
    simp (disch := decide) only [hd, Chip.testFields, Chip.f_setF_disjoint, Chip.f_setF_bits]
  have hidle' : d.flag Fld.guyTestCtl_active [v] = false := by
    simpa (disch := decide) only [Chip.flag, hd, Chip.testFields, Chip.f_setF_disjoint] using hidle
  have hrun' : d.loopState v (d.f Fld.guyTestCtl_loop [v]) ≠ 0 := by
    rw [hloop]
    simpa (disch := decide) only [Chip.loopState, hd, Chip.testFields, Chip.f_setF_of_name_ne] using hrun
  rw [Chip.wTestCtl_eq h3 hamp fun h => by rw [hidle] at h; exact Bool.noConfusion h]
  simp [hgo, hstop, ← hd, Chip.testGo_of_idle hidle' hrun' (by rwa [hsig])]

theorem Chip.f_tests (c : Chip) (ts : Tab Nat LoopTest) (fl : Fld) (idx : List Nat) :
    ({ c with tests := ts } : Chip).f fl idx = c.f fl idx := Chip.f_congr (b := c) rfl rfl fl idx

/-- A test that begins is active on its loop, with nothing of an earlier one. -/
theorem Chip.wTestCtl_begins {c : Chip} {v : Nat} {x : Word} (hgo : bitOf x.toNat 31 = true)
    (hstop : bitOf x.toNat 30 = false) (h3 : bitsOf x.toNat 25 24 ≠ 3) (h2 : bitsOf x.toNat 25 24 ≠ 2)
    (hamp : bitOf x.toNat 23 = true → c.f Fld.guyTestAmp_amp [v] * 2 ^ c.f Fld.guyTestAmp_shift [v] ≤ 2 ^ 23)
    (hidle : c.flag Fld.guyTestCtl_active [v] = false) (hrun : c.loopState v (bitsOf x.toNat 10 0) ≠ 0) :
    ∃ e : Chip, c.wTestCtl v x = (Status.ok, e) ∧ e.f Fld.guyTestCtl_active [v] = 1 ∧
      e.f Fld.guyTestCtl_loop [v] = bitsOf x.toNat 10 0 ∧ Tab.get e.tests v {} = {} := by
  generalize hd : c.testFields v x.toNat = d
  have hloop : d.f Fld.guyTestCtl_loop [v] = bitsOf x.toNat 10 0 := by rw [← hd, Chip.f_testFields_loop]
  refine ⟨_, Chip.wTestCtl_go hd.symm hgo hstop h3 h2 hamp hidle hrun,
    Chip.f_setF_eq (by decide) (by decide) (by decide), ?_, Tab.get_set_same ..⟩
  rw [Chip.f_setF_disjoint (by decide) (by decide) (by decide), Chip.f_tests, hloop]

theorem Chip.wTestCtl_stop {c : Chip} {v : Nat} {x : Word} (hgo : bitOf x.toNat 31 = false)
    (hstop : bitOf x.toNat 30 = true) (h3 : bitsOf x.toNat 25 24 ≠ 3) (hpt : bitOf x.toNat 23 = false)
    (hloop : bitsOf x.toNat 10 0 = c.f Fld.guyTestCtl_loop [v]) :
    c.wTestCtl v x = (Status.ok, (c.testFields v x.toNat).setF Fld.guyTestCtl_active [v] 0) := by
  rw [Chip.wTestCtl_eq h3 (fun h => by rw [hpt] at h; exact Bool.noConfusion h) fun _ => hloop]
  simp [hgo, hstop]

theorem Chip.wCapCtl_go {c : Chip} {v : Nat} {x : Word} (hgo : bitOf x.toNat 63 = true)
    (hstop : bitOf x.toNat 62 = false) (hlen : bitsOf x.toNat 60 44 ≤ 65536)
    (hidle : c.flag Fld.guyCapState_active [v] = false) (hbase : capBaseOk v (c.f Fld.guyCapBase_base [v]) = true) :
    ∃ d : Chip, c.wCapCtl v x = (Status.ok, d.setF Fld.guyCapState_active [v] 1) := by
  set d := c.put { name := .guyCapCtl, idx := [v] } (BitVec.ofNat 64 (bitsOf x.toNat 61 0)) with hd
  have hidle' : d.flag Fld.guyCapState_active [v] = false := by
    simpa (disch := decide) only [Chip.flag, hd, Chip.f_put_of_name_ne] using hidle
  have hbase' : capBaseOk v (d.f Fld.guyCapBase_base [v]) = true := by
    simpa (disch := decide) only [hd, Chip.f_put_of_name_ne] using hbase
  refine ⟨d.put { name := .guyCapState, idx := [v] } 0, ?_⟩
  simp [Chip.wCapCtl, hgo, hstop, Nat.not_lt.mpr hlen, ← hd, Chip.captureGo_of_idle hidle' hbase']

theorem Chip.wCapCtl_stop {c : Chip} {v : Nat} {x : Word} (hgo : bitOf x.toNat 63 = false)
    (hstop : bitOf x.toNat 62 = true) (hlen : bitsOf x.toNat 60 44 ≤ 65536) :
    ∃ d : Chip, c.wCapCtl v x = (Status.ok, d.setF Fld.guyCapState_active [v] 0) :=
  ⟨c.put { name := .guyCapCtl, idx := [v] } (BitVec.ofNat 64 (bitsOf x.toNat 61 0)), by
    simp [Chip.wCapCtl, hgo, hstop, Nat.not_lt.mpr hlen]⟩

theorem Chip.wGuyLoop_taken {c : Chip} {v n : Nat} {xs : List Word} (h : c.loopRefused v n xs = false) :
    c.wGuyLoop v n xs = (Status.ok, ((c.putWords .guyLoop [v, n] xs).setLoop v n
      { c.loop v n with fresh := true }).showLoad v) := by
  have hloop : (c.putWords .guyLoop [v, n] xs).loop v n = c.loop v n := Chip.loop_of_loops (Chip.putWords_loops ..) v n
  simp only [Chip.wGuyLoop, h, Bool.false_eq_true, if_false, hloop]

theorem Chip.wToneCtl_eq (c : Chip) (v t : Nat) (x : Word) : ∃ d : Chip, c.wToneCtl v t x = (Status.ok, d) ∧
    d.get { name := .drvToneCtl, idx := [v, t] } =
      BitVec.ofNat 64 (bitsOf x.toNat 31 31 * 2 ^ 31 + bitsOf x.toNat 11 0) ∧
    ((v, t) ∈ d.toneStart ↔ (v, t) ∈ c.toneStart ∨
      (bitOf x.toNat 31 = true ∧ c.flag Fld.drvToneCtl_en [v, t] = false)) := by
  refine ⟨_, rfl, ?_, ?_⟩
  · split <;> exact Chip.get_put_same ..
  · cases hgo : bitOf x.toNat 31 <;> cases hen : c.flag Fld.drvToneCtl_en [v, t] <;> simp

theorem Chip.wSeedHi_eq (c : Chip) (v : Nat) (x : Word) : ∃ d : Chip, c.wSeedHi v x = (Status.ok, d) ∧
    Tab.get d.guySeed v 0 = BitVec.ofNat 64 (c.f Fld.guySeedLo_seed [v] + bitsOf x.toNat 31 0 * 2 ^ 32) := by
  refine ⟨_, rfl, (Tab.get_set_same ..).trans ?_⟩
  rw [Chip.f_put_of_name_ne _ _ (by decide)]

/-- A word written with its go or stop bit set. -/
theorem bitOf_or_set (x y : Word) {i : Nat} (h : bitOf y.toNat i = true) : bitOf (x ||| y).toNat i = true := by
  rw [BitVec.toNat_or, bitOf_or, h, Bool.or_true]

/-- Settles O37: channels, tones, loops, tests and captures. -/
theorem loopRegistersAct : Obligations.LoopRegistersAct := by
  unfold Obligations.LoopRegistersAct
  dsimp only [exec]
  refine ⟨?channel, ?pair, ?tone, ?entry, ?coef, ?seed, ?testGo, ?testStop, ?capGo, ?capStop⟩
  case channel =>
    intro w v n x s hadm hfree
    exact reg_takes hadm (by simp [Chip.wDrvCh, hfree])
  case pair =>
    intro w v x s hadm
    exact ⟨_, reg_takes hadm rfl, by rw [Chip.wReply_get, Chip.get_put_same]⟩
  case tone =>
    intro w v t x s hadm
    obtain ⟨d, hd, hget, hstart⟩ := s.chip.wToneCtl_eq v t x
    exact ⟨_, reg_takes hadm hd, by rw [Chip.wReply_get, hget], by rw [Chip.wReply_toneStart, hstart]⟩
  case entry =>
    intro w v n xs s hadm hlen hok
    refine ⟨_, reg_takes_words hadm hlen (Chip.wGuyLoop_taken hok), ?_⟩
    dsimp only
    rw [Chip.loop_of_loops (Chip.wReply_loops ..), Chip.loop_of_loops (Chip.showLoad_loops ..),
      Chip.loop_setLoop_same]
    exact ⟨rfl, rfl, (Chip.wReply_f ..).trans ((Chip.loopState_showLoad ..).trans
      (Chip.f_putWords_of_name_ne _ (by decide))), by simp⟩
  case coef =>
    intro w v n k xs s r hadm hlen hx hidle hr
    subst hr
    exact reg_takes_words hadm hlen (Chip.wGuyCoef_taken hx hidle)
  case seed =>
    intro w v x s hadm
    obtain ⟨d, hd, hseed⟩ := s.chip.wSeedHi_eq v x
    exact ⟨_, reg_takes hadm hd, by rw [Chip.wReply_guySeed, hseed]⟩
  case testGo =>
    intro w v x s n hadm hn hstop h3 h2 hamp hidle hrun
    subst hn
    obtain ⟨e, he, hact, hloop, htests⟩ :=
      Chip.wTestCtl_begins (bitOf_or_set _ _ (by decide)) hstop h3 h2 hamp hidle hrun
    refine ⟨_, reg_takes hadm he, ?_⟩
    rw [Chip.wReply_f, Chip.wReply_f, Chip.wReply_tests]
    exact ⟨hact, hloop, htests⟩
  case testStop =>
    intro w v x s n hadm hn hgo h3 hpt hloop
    subst hn
    refine ⟨_, reg_takes hadm (Chip.wTestCtl_stop hgo (bitOf_or_set _ _ (by decide)) h3 hpt hloop), ?_⟩
    rw [Chip.wReply_f]
    exact Chip.f_setF_eq (by decide) (by decide) (by decide)
  case capGo =>
    intro w v x s n hadm hn hstop hlen hidle hbase
    subst hn
    obtain ⟨d, hd⟩ := Chip.wCapCtl_go (bitOf_or_set _ _ (by decide)) hstop hlen hidle hbase
    refine ⟨_, reg_takes hadm hd, ?_⟩
    rw [Chip.wReply_f]
    exact Chip.f_setF_eq (by decide) (by decide) (by decide)
  case capStop =>
    intro w v x s n hadm hn hgo hlen
    subst hn
    obtain ⟨d, hd⟩ := Chip.wCapCtl_stop (c := s.chip) (v := v) hgo (bitOf_or_set _ _ (by decide)) hlen
    refine ⟨_, reg_takes hadm hd, ?_⟩
    rw [Chip.wReply_f]
    exact Chip.f_setF_eq (by decide) (by decide) (by decide)

end Sys2Proof.Machine
end

section
/-!
Registers of the radio path, of the decoder, of the messages and of the Passes: the statements O38 and O39.
-/

namespace Sys2Proof.Machine

/-! ### What a grain's charge changes (R41 to R44) -/

/-- A charge that is admitted changes the budget and the activity counts alone. -/
theorem Chip.spend_eq {c d : Chip} {g : Gate} {t q : Nat} {job : Option Gate} (h : c.spend g t q job = some d) :
    ∃ b a, d = { c with bud := b, act := a } := by
  unfold Chip.spend at h
  dsimp only at h
  split at h
  · cases h
  split at h
  next e htake =>
    cases h
    split at htake <;> cases htake
    exact ⟨_, _, rfl⟩
  · obtain ⟨e, he, htake⟩ := Option.bind_eq_some_iff.mp h
    have heb : ∃ b, e = { c with bud := b } := by
      unfold Chip.requestLease at he
      dsimp only at he
      obtain ⟨-, he⟩ := Option.ite_none_right_eq_some.mp he
      cases he
      exact ⟨_, rfl⟩
    obtain ⟨b, rfl⟩ := heb
    split at htake <;> cases htake
    exact ⟨_, _, rfl⟩

/-- One that waits changes the budget, and where it can never be granted the device's flags and messages. -/
theorem Chip.waitGrain_eq (c : Chip) (g : Gate) (t q : Nat) (job : Option Gate) :
    ∃ b r k m, c.waitGrain g t q job = { c with bud := b, regs := r, marks := k, msgs := m } := by
  have hwait : ∀ (e : Chip) cr, ∃ b, e.wait g t q cr job = { e with bud := b } := by
    intro e cr
    unfold Chip.wait
    split <;> exact ⟨_, rfl⟩
  unfold Chip.waitGrain
  split
  next quad _ =>
    have hask : ∃ b r k m, c.askCredits (.quarter quad) = { c with bud := b, regs := r, marks := k, msgs := m } := by
      unfold Chip.askCredits
      split
      · obtain ⟨r, k, m, he⟩ := (c.answerCredits (.quarter quad) Status.creditDenied).ev_eq .budEvDenied []
        exact ⟨_, r, k, m, he⟩
      · split <;> exact ⟨_, _, _, _, rfl⟩
    obtain ⟨b, r, k, m, he⟩ := hask
    rw [he]
    obtain ⟨b', hb⟩ := hwait { c with bud := b, regs := r, marks := k, msgs := m } true
    exact ⟨b', r, k, m, hb⟩
  · obtain ⟨b, hb⟩ := hwait c false
    exact ⟨b, _, _, _, hb⟩

/-- The fold of `Chip.admitAll`: the charges taken so far, and the first that was not. -/
def Chip.spendNext (t : Nat) (own : Gate → Option Gate) (s : Option Chip × Option (Gate × Nat)) (g : Gate × Nat) :
    Option Chip × Option (Gate × Nat) :=
  match s.1, s.2 with
  | some c', none => match c'.spend g.1 t g.2 (own g.1) with
    | some c'' => (some c'', none)
    | none => (some c', some g)
  | x, y => (x, y)

theorem Chip.spendNext_foldl {t : Nat} {own : Gate → Option Gate} (gs : List (Gate × Nat)) {c : Chip}
    {s : Option Chip × Option (Gate × Nat)} (hs : ∀ d, s.1 = some d → ∃ b a, d = { c with bud := b, act := a }) :
    ∀ d, (gs.foldl (Chip.spendNext t own) s).1 = some d → ∃ b a, d = { c with bud := b, act := a } := by
  induction gs generalizing s with
  | nil => exact hs
  | cons g gs ih =>
    refine ih fun d hd => ?_
    unfold Chip.spendNext at hd
    split at hd
    next c' h1 h2 =>
      obtain ⟨b, a, rfl⟩ := hs c' h1
      split at hd
      next c'' hsp =>
        cases hd
        obtain ⟨b', a', rfl⟩ := Chip.spend_eq hsp
        exact ⟨_, _, rfl⟩
      · cases hd
        exact ⟨_, _, rfl⟩
    · exact hs d hd

theorem Chip.admitAll_eq (c : Chip) (t : Nat) (gs : List (Gate × Nat)) (job : Option Gate) :
    ∃ b a r k m, (c.admitAll t gs job).1 = { c with bud := b, act := a, regs := r, marks := k, msgs := m } := by
  unfold Chip.admitAll
  have hfold := Chip.spendNext_foldl (t := t) (own := fun g => if job = some g then none else job) gs (c := c)
    (s := (some c, none)) (fun d hd => by cases hd; exact ⟨_, _, rfl⟩)
  change ∃ b a r k m, (match gs.foldl (Chip.spendNext t fun g => if job = some g then none else job) (some c, none) with
    | (some c', none) => (c', true)
    | (_, some g) => (c.waitGrain g.1 t g.2 (if job = some g.1 then none else job), false)
    | _ => (c, false)).1 = _
  split
  next c' heq =>
    obtain ⟨b, a, hd⟩ := hfold c' (by rw [heq])
    exact ⟨b, a, _, _, _, hd⟩
  next g _ =>
    obtain ⟨b, r, k, m, h⟩ := c.waitGrain_eq g.1 t g.2 (if job = some g.1 then none else job)
    exact ⟨b, _, r, k, m, h⟩
  · exact ⟨_, _, _, _, _, rfl⟩

/-! ### The timing island and the eAxC entries (R379 to R386) -/

theorem Chip.wFhCfg_taken {c : Chip} {x : Word} (h27 : bitsOf x.toNat 27 24 ≠ 0) (h22 : 24 ≤ bitsOf x.toNat 22 16)
    (h22' : bitsOf x.toNat 22 16 ≤ 43) (h5 : bitsOf x.toNat 5 4 ≠ 3) (h2 : bitsOf x.toNat 2 0 ≤ 4)
    (hnum : bitsOf x.toNat 2 0 = c.f Fld.fhCfg_numerology ∨ c.anyEaxc = false) :
    c.wFhCfg x = (Status.ok, if bitsOf x.toNat 5 4 = c.f Fld.fhCfg_tsrc then
      c.put { name := .fhCfg } (x &&& 0x0F7F0737)
      else (c.put { name := .fhCfg } (x &&& 0x0F7F0737)).setSync (if bitsOf x.toNat 5 4 = 0 then 0 else 1)) := by
  unfold Chip.wFhCfg
  dsimp only
  rw [if_neg fun hbad => ?_]
  obtain hbad | hbad | hbad | hbad | hbad | ⟨hne, hany⟩ := hbad
  · exact h27 hbad
  · omega
  · omega
  · exact h5 hbad
  · omega
  · obtain h | h := hnum
    · exact hne h
    · rw [h] at hany
      exact Bool.noConfusion hany

/-- The island's state is the one set, and the event of a change is the only other register word. -/
theorem Chip.f_setSync {c : Chip} {st : Nat} (h : st < 4) : (c.setSync st).f Fld.fhState_state = st := by
  unfold Chip.setSync
  split
  · assumption
  · dsimp only
    rw [Chip.f_ev_of_name_ne (by decide) (by decide)]
    exact Chip.f_setF_eq (by decide) (by decide) h

theorem Chip.get_fhCfg_setSync (c : Chip) (st : Nat) : (c.setSync st).get { name := .fhCfg } = c.get { name := .fhCfg } := by
  unfold Chip.setSync
  split
  · rfl
  · dsimp only
    rw [Chip.get_ev_of_name_ne (by decide) (by decide), Chip.get_setF_of_name_ne _ _ (by decide)]
    split
    · rfl
    · exact Chip.get_setF_of_name_ne _ _ (by decide)

theorem Chip.wFhOffset_taken {c : Chip} {x : Word} (hlo : -10000000 ≤ signedOf 32 (bitsOf x.toNat 31 0))
    (hhi : signedOf 32 (bitsOf x.toNat 31 0) ≤ 10000000) :
    c.wFhOffset x = (Status.ok, c.put { name := .fhOffset } (x &&& 0xFFFFFFFF)) := by
  simp [Chip.wFhOffset, not_lt.mpr hlo, not_lt.mpr hhi]

theorem Chip.wFhWin_taken {c : Chip} {x : Word} (hlt : bitsOf x.toNat 29 20 < bitsOf x.toNat 9 0)
    (h39 : bitsOf x.toNat 39 30 ≠ 0) (h29 : bitsOf x.toNat 29 20 ≠ 0) (h19 : bitsOf x.toNat 19 10 ≠ 0) :
    c.wFhWin x = (Status.ok, ({ c with radio := { c.radio with winOld := some (BitVec.ofNat 64 c.fhWin) } } :
      Chip).put { name := .fhWin } (x &&& 0xFFFFFFFFFF)) := by
  have hbad : ¬ (bitsOf x.toNat 9 0 ≤ bitsOf x.toNat 29 20 ∨ bitsOf x.toNat 39 30 = 0 ∨ bitsOf x.toNat 29 20 = 0 ∨
      bitsOf x.toNat 19 10 = 0 ∨ bitsOf x.toNat 9 0 = 0) := by omega
  simp only [Chip.wFhWin, hbad, if_false]

theorem Chip.wFhEaxc_taken {c : Chip} {k : Nat} {x0 x1 : Word} {e : Eaxc} (he : e = Eaxc.ofWords (x0.toNat, x1.toNat))
    (h0 : bitsOf x0.toNat 26 16 = 0) (h1 : bitsOf x1.toNat 63 48 = 0) (hprb : e.nPrb ≠ 0) (hprb' : e.nPrb ≤ 275)
    (hdl : e.mDl = 0 → e.wDl = 16) (hul : e.mUl = 0 → e.wUl = 16) (hbase : e.base % 64 = 0)
    (hr : c.admits e.tent .r e.base e.bufBytes = true) (hw : c.admits e.tent .w e.base e.bufBytes = true) :
    c.wFhEaxc k x0 x1 = (Status.ok, ({ c with radio := { c.radio with
      eaxcOld := Tab.set c.radio.eaxcOld k (BitVec.ofNat 64 (c.eaxc k).1, BitVec.ofNat 64 (c.eaxc k).2) } } :
        Chip).putWords .fhEaxc [k] [x0, x1]) := by
  have hnone : ∀ m w : Nat, (m = 0 → w = 16) → (m == 0 && w != 16) = false := by
    intro m w h
    by_cases hm : m = 0
    · simp [h hm]
    · simp [hm]
  unfold Chip.wFhEaxc
  dsimp only
  rw [← he, if_neg (by simp only [hnone _ _ hdl, hnone _ _ hul]; simp [h0, h1, hprb, Nat.not_lt.mpr hprb', hbase]),
    if_neg (by simp [hr, hw])]

/-! ### The decoder's registers (R391 to R397) -/

theorem Chip.find_submit {l : List (Nat × Nat)} {t a : Nat} (h : ∀ p, p ∈ l → p.1 ≠ t) :
    (l ++ [(t, a)]).find? (fun p => p.1 == t) = some (t, a) := by
  rw [List.find?_append, List.find?_eq_none.mpr (by simpa using h)]
  simp

theorem Chip.erase_submit {l : List (Nat × Nat)} {t a : Nat} (h : ∀ p, p ∈ l → p.1 ≠ t) :
    (l ++ [(t, a)]).erase (t, a) = l := by
  rw [List.erase_append_right _ fun hm => h _ hm rfl]
  simp

theorem Chip.wDecSubmit_eq {c : Chip} {t : Nat} {x : Word} (ha : bitsOf x.toNat 47 0 % 64 = 0)
    (hm : inMemory (bitsOf x.toNat 47 0) 64 = true) (hadm : c.admits t .r (bitsOf x.toNat 47 0) 64 = true)
    (hnew : ∀ p, p ∈ c.submits → p.1 ≠ t) {d : Chip} {b : Bool}
    (hall : ({ c with submits := c.submits ++ [(t, bitsOf x.toNat 47 0)] } : Chip).admitAll t
      (memAccess (bitsOf x.toNat 47 0) 64) = (d, b)) :
    c.wDecSubmit t x = (Status.ok, if b then
      ({ d with submits := d.submits.erase (t, bitsOf x.toNat 47 0) } : Chip).submitCoder t (bitsOf x.toNat 47 0) else d) := by
  simp only [Chip.wDecSubmit, ha, hm, hadm, Chip.takeSubmit, Chip.find_submit hnew, hall]
  simp

/-- A descriptor that is taken is the last of the coder's. -/
theorem Chip.enqueueCoder_ok {c d : Chip} {j : CoderJob} (h : c.enqueueCoder j = (Status.ok, d)) :
    d = { c with coderJobs := c.coderJobs ++ [{ j with id := c.coderNext }], coderNext := c.coderNext + 1 } := by
  unfold Chip.enqueueCoder at h
  dsimp only at h
  iterate 5
    split at h
    · exact absurd (Prod.mk.inj h).1 (by decide)
  exact (Prod.mk.inj h).2.symm

theorem Chip.submitCoder_ok {c d : Chip} {t a : Nat} {f : Nat → Word}
    (hf : ∀ k, BitVec.ofNat 64 (c.num (a + 8 * k) 8) = f k)
    (h : c.enqueueCoder { id := 0, tent := t, desc := (List.range 8).map f } = (Status.ok, d)) :
    c.submitCoder t a = d := by
  unfold Chip.submitCoder
  dsimp only
  rw [funext hf, h]
  rfl

theorem Tab.get_of_no_key {α : Type} (t : Tab Nat α) (k : Nat) (d : α) (h : ∀ p, p ∈ t → p.1 ≠ k) : Tab.get t k d = d := by
  induction t with
  | nil => rfl
  | cons p t ih =>
    obtain ⟨k', a⟩ := p
    obtain ⟨hp, ht⟩ := List.forall_mem_cons.mp h
    rw [Tab.get, if_neg fun e => hp e.symm, ih ht]

/-- The ranges of a sweep with no busy entry are invalidated at once. -/
theorem Chip.settleSweeps_free {c : Chip} {rs : List (Nat × Nat)} {h : Nat} (hrs : rs ∈ c.sweeps)
    (hfree : ∀ p, p ∈ c.harqs → inRanges rs p.1 = true → p.2.busy = false) (hin : inRanges rs h = true) :
    (c.settleSweeps.harq h).valid = false := by
  have hany : (c.harqs.any fun p => p.2.busy && inRanges rs p.1) = false := by
    rw [List.any_eq_false]
    rintro p hp hb
    obtain ⟨hbusy, hpin⟩ := Bool.and_eq_true_iff.mp hb
    rw [hfree p hp hpin] at hbusy
    exact Bool.noConfusion hbusy
  have hget : c.settleSweeps.harq h = {} := by
    refine Tab.get_of_no_key _ _ _ fun p hp hph => ?_
    obtain ⟨-, hno⟩ := List.mem_filter.mp hp
    have hdue : ((c.sweeps.filter fun rs => !c.harqs.any fun p => p.2.busy && inRanges rs p.1).any
        fun rs => inRanges rs p.1) = true :=
      List.any_eq_true.mpr ⟨rs, List.mem_filter.mpr ⟨hrs, by rw [hany]; rfl⟩, by rw [hph]; exact hin⟩
    rw [hdue] at hno
    exact Bool.noConfusion hno
  rw [hget]

theorem Chip.settleSweeps_busy {c : Chip} {rs : List (Nat × Nat)} {p : Nat × Harq} (hrs : rs ∈ c.sweeps)
    (hp : p ∈ c.harqs) (hin : inRanges rs p.1 = true) (hbusy : p.2.busy = true) : rs ∈ c.settleSweeps.sweeps := by
  refine List.mem_filter.mpr ⟨hrs, ?_⟩
  have hany : (c.harqs.any fun p => p.2.busy && inRanges rs p.1) = true :=
    List.any_eq_true.mpr ⟨p, hp, by rw [hbusy, hin]; rfl⟩
  have hnot : rs ∉ c.sweeps.filter fun rs => !c.harqs.any fun p => p.2.busy && inRanges rs p.1 := fun hmem => by
    have := (List.mem_filter.mp hmem).2
    rw [hany] at this
    exact Bool.noConfusion this
  simpa using hnot

theorem Chip.wHarqCfg_taken {c : Chip} {t first count kib pool : Nat} {x0 x1 : Word} (hf : first = bitsOf x0.toNat 19 0)
    (hc : count = bitsOf x0.toNat 40 20) (hk : kib = bitsOf x0.toNat 55 44) (hp : pool = bitsOf x1.toNat 47 0)
    (hk0 : kib ≠ 0) (hend : first + count ≤ 1048576) (hal : pool % 256 = 0)
    (hclash : ∀ v, v < 64 → v ≠ t → rangesMeet (first, count)
      (c.f Fld.decHarqCfg_first [v], c.f Fld.decHarqCfg_count [v]) = false)
    (hpool : count * kib * 1024 ≠ 0 → inGddr (pool + count * kib * 1024 - 1) = true ∧
      c.admits t .r pool (count * kib * 1024) = true ∧ c.admits t .w pool (count * kib * 1024) = true) :
    ∃ d : Chip, d = { c.putWords .decHarqCfg [t]
        [BitVec.ofNat 64 (kib * 2 ^ 44 + count * 2 ^ 20 + first), BitVec.ofNat 64 pool] with
      sweeps := c.sweeps ++ [[(c.f Fld.decHarqCfg_first [t], c.f Fld.decHarqCfg_count [t]), (first, count)]] } ∧
      c.wHarqCfg t x0 x1 = (Status.ok, d.settleSweeps) := by
  refine ⟨_, rfl, ?_⟩
  have hany : ((List.range 64).any fun u => u != t &&
      rangesMeet (first, count) (c.f Fld.decHarqCfg_first [u], c.f Fld.decHarqCfg_count [u])) = false := by
    rw [List.any_eq_false]
    rintro v hv hb
    obtain ⟨hne, hmeet⟩ := Bool.and_eq_true_iff.mp hb
    rw [hclash v (List.mem_range.mp hv) (by simpa using hne)] at hmeet
    exact Bool.noConfusion hmeet
  unfold Chip.wHarqCfg
  dsimp only
  rw [← hf, ← hc, ← hk, ← hp, hany, if_neg fun hbad => ?_]
  · rfl
  · obtain hbad | hbad | hbad | hbad | ⟨hsize, hbad⟩ := hbad
    · exact hk0 hbad
    · omega
    · exact Bool.noConfusion hbad
    · exact hbad hal
    · obtain ⟨h1, h2, h3⟩ := hpool hsize
      simp [h1, h2, h3] at hbad

theorem Chip.invalidateHarq_regs (c : Chip) (h : Nat) : (c.invalidateHarq h).regs = c.regs := by
  unfold Chip.invalidateHarq
  dsimp only
  split
  · rfl
  · split <;> rfl

/-- An entry that is not busy is invalid; a busy one is to be invalidated. -/
theorem Chip.invalidateHarq_entry (c : Chip) (h : Nat) :
    ((c.harq h).busy = false → ((c.invalidateHarq h).harq h).valid = false) ∧
      ((c.harq h).busy = true → ((c.invalidateHarq h).harq h).clear = true) := by
  have hset : ∀ e, (c.setHarq h e).harq h = e := fun e => Tab.get_set_same ..
  unfold Chip.invalidateHarq
  dsimp only
  refine ⟨fun hb => ?_, fun hb => ?_⟩
  · rw [hb, if_neg Bool.false_ne_true]
    cases hv : (c.harq h).valid with
    | true => rw [if_pos rfl, hset]
    | false => rw [if_neg Bool.false_ne_true, hv]
  · rw [if_pos hb, hset]

theorem Chip.harq_wReply (c : Chip) (w : Writer) (st n h : Nat) : (c.wReply w st n).harq h = c.harq h := by
  simp [Chip.harq]

/-- The first word of a register of two reads as written. -/
theorem Chip.get_putWords_two_first (c : Chip) (n : RegName) (idx : List Nat) (x y : Word) :
    (c.putWords n idx [x, y]).get { name := n, idx := idx } = x := by
  simp [Chip.putWords, Chip.get_put]

theorem Chip.get_putWords_two_second (c : Chip) (n : RegName) (idx : List Nat) (x y : Word) :
    (c.putWords n idx [x, y]).get { name := n, idx := idx, w := 1 } = y := by
  simp [Chip.putWords]

/-- Charges change neither what is submitted nor the jobs. -/
theorem Chip.admitAll_keeps {c d : Chip} {t : Nat} {gs : List (Gate × Nat)} {b : Bool} (h : c.admitAll t gs = (d, b)) :
    d.submits = c.submits ∧ d.coderJobs = c.coderJobs ∧ d.coderNext = c.coderNext ∧ d.mem = c.mem := by
  obtain ⟨_, _, _, _, _, hd⟩ := c.admitAll_eq t gs none
  rw [h] at hd
  subst hd
  exact ⟨rfl, rfl, rfl, rfl⟩

theorem Chip.num_of_mem {c d : Chip} (h : d.mem = c.mem) (a n : Nat) : d.num a n = c.num a n := by
  simp only [Chip.num, Chip.bytes, Chip.byte, h]

/-- A submitted descriptor whose read is admitted leaves the list and joins the jobs. -/
theorem Chip.submit_taken {c c1 c2 : Chip} {t a : Nat} {gs : List (Gate × Nat)} {ws : List Word}
    (hnew : ∀ p, p ∈ c.submits → p.1 ≠ t)
    (hall : ({ c with submits := c.submits ++ [(t, a)] } : Chip).admitAll t gs = (c1, true))
    (hq : ({ c1 with submits := c1.submits.erase (t, a) } : Chip).enqueueCoder { id := 0, tent := t, desc := ws } =
      (Status.ok, c2)) :
    c2.submits = c.submits ∧ c2.coderJobs = c.coderJobs ++ [{ id := c.coderNext, tent := t, desc := ws }] ∧
      c2.mem = c.mem := by
  obtain ⟨hsub, hjobs, hnext, hmem⟩ := Chip.admitAll_keeps hall
  obtain rfl := Chip.enqueueCoder_ok hq
  dsimp only at hsub hjobs hnext hmem ⊢
  rw [hsub, hjobs, hnext, hmem, Chip.erase_submit hnew]
  exact ⟨rfl, rfl, rfl⟩

theorem Chip.num_of_admitAll {c c1 : Chip} {t a : Nat} {gs : List (Gate × Nat)}
    (hall : ({ c with submits := c.submits ++ [(t, a)] } : Chip).admitAll t gs = (c1, true)) (x n : Nat) :
    ({ c1 with submits := c1.submits.erase (t, a) } : Chip).num x n = c.num x n :=
  Chip.num_of_mem (Chip.admitAll_keeps hall).2.2.2 x n

theorem harqCfg_runs {w : Writer} {t first count kib pool : Nat} {x0 x1 : Word} {s : State} {rs : List (Nat × Nat)}
    (hadm : RegAdmits s.chip w { name := .decHarqCfg, idx := [t] } x0) (hf : first = bitsOf x0.toNat 19 0)
    (hc : count = bitsOf x0.toNat 40 20) (hk : kib = bitsOf x0.toNat 55 44) (hp : pool = bitsOf x1.toNat 47 0)
    (hk0 : kib ≠ 0) (hend : first + count ≤ 1048576) (hal : pool % 256 = 0)
    (hclash : ∀ v, v < 64 → v ≠ t → rangesMeet (first, count)
      (s.chip.f Fld.decHarqCfg_first [v], s.chip.f Fld.decHarqCfg_count [v]) = false)
    (hpool : count * kib * 1024 ≠ 0 → inGddr (pool + count * kib * 1024 - 1) = true ∧
      s.chip.admits t .r pool (count * kib * 1024) = true ∧ s.chip.admits t .w pool (count * kib * 1024) = true)
    (hrs : rs = [(s.chip.f Fld.decHarqCfg_first [t], s.chip.f Fld.decHarqCfg_count [t]), (first, count)]) :
    ∃ u, execDecHarqCfgWrite w t x0 x1 s = .next u ∧
      ((∀ p, p ∈ s.chip.harqs → inRanges rs p.1 = true → p.2.busy = false) →
        ∀ h, inRanges rs h = true → (u.chip.harq h).valid = false) ∧
      ((∃ p, p ∈ s.chip.harqs ∧ inRanges rs p.1 = true ∧ p.2.busy = true) → rs ∈ u.chip.sweeps) ∧
      u.chip.get { name := .decHarqCfg, idx := [t] } = BitVec.ofNat 64 (kib * 2 ^ 44 + count * 2 ^ 20 + first) ∧
      u.chip.get { name := .decHarqCfg, idx := [t], w := 1 } = BitVec.ofNat 64 pool ∧ u.chip.mem = s.chip.mem := by
  obtain ⟨d, hd, hset⟩ := Chip.wHarqCfg_taken hf hc hk hp hk0 hend hal hclash hpool
  have hsweep : rs ∈ d.sweeps := by
    rw [hd, hrs]
    exact List.mem_append_right _ (List.mem_singleton.mpr rfl)
  have hharqs : d.harqs = s.chip.harqs := by rw [hd, Chip.putWords_harqs]
  have hget : ∀ r, d.settleSweeps.get r = (s.chip.putWords .decHarqCfg [t]
      [BitVec.ofNat 64 (kib * 2 ^ 44 + count * 2 ^ 20 + first), BitVec.ofNat 64 pool]).get r := by
    intro r
    rw [hd]
    exact Chip.get_congr (b := s.chip.putWords .decHarqCfg [t]
      [BitVec.ofNat 64 (kib * 2 ^ 44 + count * 2 ^ 20 + first), BitVec.ofNat 64 pool]) rfl rfl r
  refine ⟨_, reg_takes hadm hset, fun hfree h hin => ?_, fun ⟨p, hp, hin, hbusy⟩ => ?_, ?_, ?_, ?_⟩
  · rw [Chip.harq_wReply]
    exact Chip.settleSweeps_free hsweep (by rwa [hharqs]) hin
  · rw [Chip.wReply_sweeps]
    exact Chip.settleSweeps_busy hsweep (by rwa [hharqs]) hin hbusy
  · rw [Chip.wReply_get, hget, Chip.get_putWords_two_first]
  · rw [Chip.wReply_get, hget, Chip.get_putWords_two_second]
  · have hmem : d.settleSweeps.mem = d.mem := rfl
    rw [Chip.wReply_mem, hmem, hd, Chip.putWords_mem]

/-- Settles O38: each register of the radio path and of the decoder as it is taken. -/
theorem radioRegistersAct : Obligations.RadioRegistersAct := by
  unfold Obligations.RadioRegistersAct
  dsimp only [exec]
  refine ⟨?cfg, ?offset, ?win, ?eaxc, ?sfn, ?submit, ?submitWaits,
    fun w t x0 x1 s first count kib pool rs => harqCfg_runs, ?harqClr⟩
  case cfg =>
    intro w x s y hadm hy h27 h22 h22' h5 h2 hnum
    subst hy
    refine ⟨_, reg_takes hadm (Chip.wFhCfg_taken h27 h22 h22' h5 h2 hnum), ?_⟩
    rw [Chip.wReply_get, Chip.wReply_f]
    by_cases hsame : bitsOf x.toNat 5 4 = s.chip.f Fld.fhCfg_tsrc
    · rw [if_pos hsame, if_pos hsame]
      exact ⟨Chip.get_put_same .., Chip.f_put_of_name_ne _ _ (by decide)⟩
    · rw [if_neg hsame, if_neg hsame, Chip.get_fhCfg_setSync, Chip.get_put_same]
      exact ⟨rfl, Chip.f_setSync (by split <;> decide)⟩
  case offset =>
    intro w x s v hadm hv hlo hhi
    subst hv
    exact reg_takes hadm (Chip.wFhOffset_taken hlo hhi)
  case win =>
    intro w x s y hadm hy hlt h39 h29 h19
    subst hy
    refine ⟨_, reg_takes hadm (Chip.wFhWin_taken hlt h39 h29 h19), ?_, ?_⟩
    · rw [Chip.wReply_get, Chip.get_put_same]
    · have hn : (BitVec.ofNat 64 s.chip.fhWin).toNat = s.chip.fhWin := by
        rw [BitVec.toNat_ofNat]
        exact Nat.mod_eq_of_lt (BitVec.isLt _)
      dsimp only
      rw [Chip.fhWin, Chip.wReply_radio]
      exact hn
  case eaxc =>
    intro w k x0 x1 s e hadm he h0 h1 hprb hprb' hdl hul hbase hr hw
    refine ⟨_, reg_takes hadm (Chip.wFhEaxc_taken he h0 h1 hprb hprb' hdl hul hbase hr hw), ?_, ?_, ?_⟩
    · rw [Chip.wReply_get, Chip.get_putWords_two_first]
    · rw [Chip.wReply_get, Chip.get_putWords_two_second]
    · dsimp only
      rw [Chip.eaxc, Chip.wReply_radio, Chip.putWords_radio, Tab.get_set_same]
      refine Prod.ext ?_ ?_ <;> dsimp only <;> rw [BitVec.toNat_ofNat] <;> exact Nat.mod_eq_of_lt (BitVec.isLt _)
  case sfn =>
    intro w x s hadm
    refine ⟨_, reg_runs hadm, ?_⟩
    rw [Chip.wReply_regs, Chip.wReply_radio, Chip.wFhSfnSet]
    by_cases h2 : s.chip.f Fld.fhCfg_tsrc = 2
    · rw [if_neg (not_not.mpr h2), if_pos h2]
      exact ⟨rfl, rfl⟩
    · rw [if_pos h2, if_neg h2]
      exact ⟨rfl, rfl⟩
  case submit =>
    intro w t x s a ws c1 c2 hadm ha hal hm hok hnew hall hws hq
    subst ha hws
    obtain ⟨hsub, hjobs, hmem⟩ := Chip.submit_taken hnew hall hq
    have hset := Chip.wDecSubmit_eq hal hm hok hnew hall
    rw [if_pos rfl, Chip.submitCoder_ok (fun k => by rw [Chip.num_of_admitAll hall]) hq] at hset
    exact ⟨_, reg_takes hadm hset, by rw [Chip.wReply_submits, hsub], by rw [Chip.wReply_coderJobs, hjobs],
      by rw [Chip.wReply_mem, hmem]⟩
  case submitWaits =>
    intro w t x s a c1 hadm ha hal hm hok hnew hall
    subst ha
    obtain ⟨hsub, hjobs, -, hmem⟩ := Chip.admitAll_keeps hall
    have hset := Chip.wDecSubmit_eq hal hm hok hnew hall
    rw [if_neg Bool.false_ne_true] at hset
    exact ⟨_, reg_takes hadm hset, by rw [Chip.wReply_submits, hsub], by rw [Chip.wReply_coderJobs, hjobs],
      by rw [Chip.wReply_mem, hmem]⟩
  case harqClr =>
    intro w x s h hadm hh
    subst hh
    obtain ⟨hfree, hbusy⟩ := s.chip.invalidateHarq_entry (bitsOf x.toNat 19 0)
    refine ⟨_, reg_takes hadm rfl, ?_⟩
    rw [Chip.harq_wReply, Chip.wReply_regs, Chip.invalidateHarq_regs]
    exact ⟨hfree, hbusy, rfl⟩

end Sys2Proof.Machine
end

section
/-!
The registers of the messages, of the Passes and of the Lantern's clock: the statement O39.
-/

namespace Sys2Proof.Machine

/-! ### Messages (R433, R434) -/

theorem Chip.wMsgPost_taken {c : Chip} {t : Nat} {x : Word} {p : Post} (hal : bitsOf x.toNat 47 0 % 32 = 0)
    (hrd : c.admits t .r (bitsOf x.toNat 47 0) 32 = true)
    (hp : p = (⟨c.num (bitsOf x.toNat 47 0) 8, c.num (bitsOf x.toNat 47 0 + 8) 4,
      c.num (bitsOf x.toNat 47 0 + 16) 8⟩ : Post))
    (hdone : p.done = 0 ∨ (p.done % 8 = 0 ∧ c.admits t .w p.done 8 = true)) (hlen : 0 < p.len) (hlen' : p.len ≤ 65536)
    (hres : c.num (bitsOf x.toNat 47 0 + 24) 8 = 0) (hbuf : c.admits t .r p.addr p.len = true)
    (hen : bitOf (c.get { name := .sysMsgMask, idx := [t] }).toNat 5 = true) (hroom : (c.msgQ t).q.length < 256) :
    c.wMsgPost t x = (Status.ok, c.pushMsg t
      { kind := 5, body := c.bytes (bitsOf x.toNat 47 0 + 12) 4 ++ leBytes 4 0, post := some p }) := by
  subst hp
  dsimp only at hdone hlen hlen' hbuf
  have hdone' : ¬ (c.num (bitsOf x.toNat 47 0 + 16) 8 ≠ 0 ∧ (c.num (bitsOf x.toNat 47 0 + 16) 8 % 8 ≠ 0 ∨
      ¬ c.admits t .w (c.num (bitsOf x.toNat 47 0 + 16) 8) 8 = true)) := by
    rintro ⟨h0, hbad⟩
    obtain h | ⟨h8, hw⟩ := hdone
    · exact h0 h
    · obtain h | h := hbad
      · exact h h8
      · exact h hw
  have hlen'' : ¬ (c.num (bitsOf x.toNat 47 0 + 8) 4 = 0 ∨ 65536 < c.num (bitsOf x.toNat 47 0 + 8) 4 ∨
      c.num (bitsOf x.toNat 47 0 + 24) 8 ≠ 0) := by omega
  unfold Chip.wMsgPost
  dsimp only
  rw [if_neg (not_not.mpr hal), if_neg (not_not.mpr hrd), if_neg hdone', if_neg hlen'', if_neg (not_not.mpr hbuf),
    if_neg (not_not.mpr hen), if_neg (Nat.not_le.mpr hroom)]

theorem Chip.msgQ_pushMsg {c : Chip} {t : Nat} {m : Msg} (hroom : (c.msgQ t).q.length < 256)
    (hlost : c.f Fld.sysMsgq_lost [t] = 0) : ((c.pushMsg t m).msgQ t).q = (c.msgQ t).q ++ [m] := by
  unfold Chip.pushMsg
  dsimp only
  rw [if_neg (Nat.not_le.mpr hroom), if_neg fun h => h.1 hlost]
  exact congrArg MsgQ.q (Tab.get_set_same ..)

/-! ### The Passes (R440 to R460) -/

theorem Chip.wPassCfg_taken {c : Chip} {x : Word} (hto : bitsOf x.toNat 23 16 ≠ 0)
    (hid : bitsOf x.toNat 15 0 = c.moduleId ∨ c.anyCircuit = false) :
    c.wPassCfg x = (Status.ok, c.put { name := .passCfg } (BitVec.ofNat 64 (bitsOf x.toNat 23 0))) := by
  have hbad : ¬ (bitsOf x.toNat 23 16 = 0 ∨ (bitsOf x.toNat 15 0 ≠ c.moduleId ∧ c.anyCircuit = true)) := by
    rintro (h | ⟨hne, hany⟩)
    · exact hto h
    · obtain h | h := hid
      · exact hne h
      · rw [h] at hany
        exact Bool.noConfusion hany
  simp only [Chip.wPassCfg, hbad, if_false]

/-- What a write of PASS_PORT does to the pair k: one that is not enabled leaves its request and its credits. -/
def Chip.boostOff (en : Nat) (c : Chip) (k : Nat) : Chip :=
  if bitOf en k then c
  else
    let c : Chip := { c with bud := { c.bud with requests := c.bud.requests.filter fun r => r.who != .booster k } }
    if bitOf (c.f Fld.passPort_boostOn) k then
      (c.setF Fld.passPort_boostOn [] (c.f Fld.passPort_boostOn - 2 ^ k)).dropCredits 57 3
    else c

theorem Chip.wPassPort_eq (c : Chip) (x : Word) : c.wPassPort x =
    (let d := (List.range 12).foldl (Chip.boostOff (bitsOf x.toNat 11 0))
      (c.setF Fld.passPort_boostEn [] (bitsOf x.toNat 11 0))
     (Status.ok, if d.device = .service ∨ d.device = .starting then d.askBoosters else d)) := rfl

theorem Chip.boostOff_foldl_all {en : Nat} (ks : List Nat) (c : Chip) (h : ∀ k, k ∈ ks → bitOf en k = true) :
    ks.foldl (Chip.boostOff en) c = c := by
  induction ks generalizing c with
  | nil => rfl
  | cons k ks ih =>
    obtain ⟨hk, hks⟩ := List.forall_mem_cons.mp h
    rw [List.foldl_cons, Chip.boostOff, if_pos hk, ih c hks]

/-- The bits of the pairs on after one is taken off: that bit is clear, and those below it are as before. -/
theorem bitOf_sub_two_pow {x k : Nat} (hk : bitOf x k = true) :
    bitOf (x - 2 ^ k) k = false ∧ ∀ j, j < k → bitOf (x - 2 ^ k) j = bitOf x j := by
  simp only [bitOf_eq_testBit] at hk ⊢
  have hle : 2 ^ k ≤ x := Nat.ge_two_pow_of_testBit hk
  obtain ⟨y, rfl⟩ := Nat.exists_eq_add_of_le hle
  rw [Nat.add_sub_cancel_left]
  refine ⟨?_, fun j hj => (Nat.testBit_two_pow_add_gt hj y).symm⟩
  rw [Nat.testBit_two_pow_add_eq] at hk
  simpa using hk

theorem Chip.f_dropCredits {c : Chip} {fl : Fld} {g n : Nat} {idx : List Nat} (h : fl.name ≠ .budGroupState) :
    (c.dropCredits g n).f fl idx = c.f fl idx := Chip.f_setF_of_name_ne _ _ _ h.symm

theorem Chip.boostOff_none {c : Chip} {k : Nat} (hz : ∀ j, j < k → bitOf (c.f Fld.passPort_boostOn) j = false) :
    ((Chip.boostOff 0 c k).f Fld.passPort_boostEn = c.f Fld.passPort_boostEn) ∧
      ∀ j, j < k + 1 → bitOf ((Chip.boostOff 0 c k).f Fld.passPort_boostOn) j = false := by
  have h0 : bitOf 0 k = false := by simp [bitOf]
  set d : Chip := { c with bud := { c.bud with requests := c.bud.requests.filter fun r => r.who != .booster k } } with hd
  have hf : ∀ fl idx, d.f fl idx = c.f fl idx := Chip.f_congr (a := d) (b := c) rfl rfl
  unfold Chip.boostOff
  rw [h0, if_neg Bool.false_ne_true]
  dsimp only
  rw [← hd]
  split
  next hon =>
    rw [hf] at hon
    have hon' : c.f Fld.passPort_boostOn - 2 ^ k < 2 ^ 12 :=
      Nat.lt_of_le_of_lt (Nat.sub_le ..) (bitsOf_lt _ 27 16)
    obtain ⟨hk, hlow⟩ := bitOf_sub_two_pow hon
    simp (disch := decide) only [Chip.f_dropCredits, Chip.f_setF_disjoint, hf]
    rw [Chip.f_setF_eq (by decide) (by decide) hon']
    refine ⟨trivial, fun j hj => ?_⟩
    obtain hj | rfl := Nat.lt_succ_iff_lt_or_eq.mp hj
    · rw [hlow j hj, hz j hj]
    · exact hk
  next hoff =>
    rw [hf] at hoff
    refine ⟨hf .., fun j hj => ?_⟩
    rw [hf]
    obtain hj | rfl := Nat.lt_succ_iff_lt_or_eq.mp hj
    · exact hz j hj
    · simpa using hoff

theorem Chip.boostOff_foldl_none (n : Nat) (c : Chip) :
    ((List.range n).foldl (Chip.boostOff 0) c).f Fld.passPort_boostEn = c.f Fld.passPort_boostEn ∧
      ∀ j, j < n → bitOf (((List.range n).foldl (Chip.boostOff 0) c).f Fld.passPort_boostOn) j = false := by
  induction n with
  | zero => exact ⟨rfl, fun j hj => absurd hj (Nat.not_lt_zero j)⟩
  | succ n ih =>
    obtain ⟨hen, hlow⟩ := ih
    rw [List.range_succ, List.foldl_append]
    obtain ⟨hen', hlow'⟩ := Chip.boostOff_none hlow
    exact ⟨hen'.trans hen, hlow'⟩

theorem Chip.askBoosters_none {c : Chip} (h : c.f Fld.passPort_boostEn = 0) : c.askBoosters = c := by
  have hz : ∀ k, bitOf 0 k = false := fun k => by simp [bitOf]
  unfold Chip.askBoosters
  generalize List.range 12 = ks
  induction ks with
  | nil => rfl
  | cons k ks ih =>
    rw [List.foldl_cons]
    dsimp only
    rw [h, hz, if_neg (by simp)]
    exact ih

theorem Chip.wPassRoute_taken {c : Chip} {m : Nat} {x : Word} (hok : c.routeRefused x.toNat = false)
    (hnone : c.passes.routes = []) : ∃ d : Chip,
      d.passes.routes = [(m, x &&& 0xB0FFFFFFF0000000)] ∧ d.framesFor m = c.framesFor m ∧ d.regs = c.regs ∧
        c.wPassRoute m x = (Status.ok, d.settleRoutes) :=
  ⟨{ c with passes := { c.passes with routes := [(m, x &&& 0xB0FFFFFFF0000000)] } }, rfl, rfl, rfl, by
    simp [Chip.wPassRoute, hok, hnone, Tab.set]⟩

/-- A route of a module no frame is queued for is in force at once, another waits. -/
theorem Chip.settleRoutes_one {c : Chip} {m : Nat} {x : Word} (h : c.passes.routes = [(m, x)]) :
    (c.framesFor m = false → c.settleRoutes = { c.put { name := .passRoute, idx := [m] } x with
      passes := { c.passes with routes := [] } }) ∧
    (c.framesFor m = true → c.settleRoutes = { c with passes := { c.passes with routes := [(m, x)] } }) := by
  refine ⟨fun hf => ?_, fun hf => ?_⟩
  · simp [Chip.settleRoutes, h, hf]
  · simp [Chip.settleRoutes, h, hf]

theorem Chip.wPassExport_taken {c : Chip} {k : Nat} {x0 x1 : Word} {e : Export}
    (he : e = Export.ofWords x0.toNat x1.toNat) (hlo : 12 ≤ e.size) (hhi : e.size ≤ 28) (hbase : e.base % 2 ^ e.size = 0)
    (hoff : e.off % 2 ^ e.size = 0) (hr : e.valid = true → e.r = true → c.admits e.tent .r e.base (2 ^ e.size) = true)
    (hw : e.valid = true → e.w = true → c.admits e.tent .w e.base (2 ^ e.size) = true)
    (ha : e.valid = true → e.a = true → c.admits e.tent .a e.base (2 ^ e.size) = true) :
    c.wPassExport k x0 x1 = (Status.ok, c.putWords .passExport [k] [x0, x1 &&& 0xFFFFFE000FFFFFFF]) := by
  unfold Chip.wPassExport
  dsimp only
  rw [← he, if_neg (by omega), if_neg ?_]
  rintro ⟨hv, ⟨h, hn⟩ | ⟨h, hn⟩ | ⟨h, hn⟩⟩
  · exact hn (hr hv h)
  · exact hn (hw hv h)
  · exact hn (ha hv h)

/-- The reserved bits of the second word are no field of the entry. -/
theorem Export.ofWords_masked (n : Nat) (x : Word) :
    Export.ofWords n (x &&& 0xFFFFFE000FFFFFFF).toNat = Export.ofWords n x.toNat := by
  have hbit : bitOf (x &&& 0xFFFFFE000FFFFFFF).toNat 41 = bitOf x.toNat 41 := by
    rw [BitVec.toNat_and]
    simp only [bitOf_eq_testBit, Nat.testBit_and]
    rw [show (0xFFFFFE000FFFFFFF : Word).toNat.testBit 41 = true by decide, Bool.and_true]
  unfold Export.ofWords
  rw [hbit, BitVec.toNat_and, bitsOf_and_ones _ _ (by decide), bitsOf_and_ones _ _ (by decide),
    bitsOf_and_ones _ _ (by decide)]

/-! ### The Lantern's clock (R490) -/

theorem bitsOf_lantSec {n : Nat} (h : n < 2 ^ 48) : bitsOf (BitVec.ofNat 64 (2 ^ 63 + n)).toNat 47 0 = n ∧
    bitsOf (BitVec.ofNat 64 (2 ^ 63 + n)).toNat 63 63 = 1 := by
  rw [BitVec.toNat_ofNat]
  simp only [bitsOf]
  omega

/-- Settles O39: each register as it is taken. -/
theorem messageAndPassRegistersAct : Obligations.MessageAndPassRegistersAct := by
  unfold Obligations.MessageAndPassRegistersAct
  dsimp only [exec]
  refine ⟨?post, ?module, ?boostAll, ?boostNone, ?route, ?routeWaits, ?window, ?clock⟩
  case post =>
    intro w t x s a p hadm ha hal hrd hp hdone hlen hlen' hres hbuf hen hroom hlost
    subst ha
    refine ⟨_, reg_takes hadm (Chip.wMsgPost_taken hal hrd hp hdone hlen hlen' hres hbuf hen hroom), ?_⟩
    dsimp only
    rw [Chip.msgQ, Chip.wReply_msgs]
    exact Chip.msgQ_pushMsg hroom hlost
  case module =>
    intro w x s hadm hto hid
    exact reg_takes hadm (Chip.wPassCfg_taken hto hid)
  case boostAll =>
    intro w x s en c1 hadm hen hc1 hall
    subst hen hc1
    refine (reg_takes hadm (Chip.wPassPort_eq ..)).trans ?_
    dsimp only
    rw [Chip.boostOff_foldl_all _ _ fun k hk => hall k (List.mem_range.mp hk)]
    rfl
  case boostNone =>
    intro w x s k hadm hen hk
    refine ⟨_, reg_takes hadm (Chip.wPassPort_eq ..), ?_⟩
    dsimp only
    rw [hen]
    obtain ⟨hf, hoff⟩ := Chip.boostOff_foldl_none 12 (s.chip.setF Fld.passPort_boostEn [] 0)
    generalize (List.range 12).foldl (Chip.boostOff 0) (s.chip.setF Fld.passPort_boostEn [] 0) = d at hf hoff
    rw [Chip.f_setF_eq (by decide) (by decide) (by decide)] at hf
    rw [Chip.askBoosters_none hf, ite_self, Chip.wReply_f, Chip.wReply_f]
    exact ⟨hoff k hk, hf⟩
  case route =>
    intro w m x s hadm hok hnone hfree
    obtain ⟨d, hd, hframes, -, hset⟩ := Chip.wPassRoute_taken hok hnone
    refine ⟨_, reg_takes hadm hset, ?_⟩
    rw [Chip.wReply_get, Chip.wReply_passes, (Chip.settleRoutes_one hd).1 (hframes.trans hfree)]
    exact ⟨Chip.get_put_same .., rfl⟩
  case routeWaits =>
    intro w m x s hadm hok hnone hbusy
    obtain ⟨d, hd, hframes, hregs, hset⟩ := Chip.wPassRoute_taken hok hnone
    refine ⟨_, reg_takes hadm hset, ?_⟩
    rw [Chip.wReply_regs, Chip.wReply_passes, (Chip.settleRoutes_one hd).2 (hframes.trans hbusy)]
    exact ⟨hregs, rfl⟩
  case window =>
    intro w k x0 x1 s e hadm he hlo hhi hbase hoff hr hw ha
    refine ⟨_, reg_takes hadm (Chip.wPassExport_taken he hlo hhi hbase hoff hr hw ha), ?_,
      Chip.wReply_told_of_grows _ _ (.of_eq (by simp))⟩
    change Export.ofWords (Chip.get _ _).toNat (Chip.get _ _).toNat = _
    rw [Chip.wReply_get, Chip.wReply_get, Chip.get_putWords_two_first, Chip.get_putWords_two_second,
      Export.ofWords_masked, he]
  case clock =>
    intro w x s hadm
    obtain ⟨hsec, hvalid⟩ := bitsOf_lantSec (bitsOf_lt x.toNat 47 0)
    refine ⟨_, reg_takes hadm rfl, ?_, ?_, ?_, by simp⟩ <;> rw [Chip.wReply_f]
    · exact (congrArg (fun y : Word => bitsOf y.toNat 47 0) (Chip.get_put_same ..)).trans hsec
    · exact (congrArg (fun y : Word => bitsOf y.toNat 63 63) (Chip.get_put_same ..)).trans hvalid
    · rw [Chip.f_put_of_name_ne _ _ (by decide)]
      exact Chip.f_setF_eq (by decide) (by decide) (by decide)

end Sys2Proof.Machine
end

section
/-!
System, firmware and trust commands (files 13 and 17 of spec/): the statements O16 and O17.
-/

namespace Sys2Proof.Machine

/-! ### The final reply of a command -/

theorem Chip.finish_answered_of_grows {c d : Chip} {op : Nat} {m : Cmd} {st dt : Nat} {ws : List Word}
    (h : OutsGrow c d) : Answered c (d.finish op m st dt ws) op m st dt ws := (d.finish_answered op m st dt ws).mono h

theorem Chip.acceptFinish_answered_of_grows {c d : Chip} {op : Nat} {m : Cmd} {st dt : Nat} {ws : List Word}
    (h : OutsGrow c d) : Answered c (d.acceptFinish op m st dt ws) op m st dt ws :=
  (d.acceptFinish_answered op m st dt ws).mono h

@[simp] theorem Chip.accept_longs (c : Chip) (op : Nat) (m : Cmd) :
    (c.accept op m).longs = c.longs ++ [{ op := op, cmd := m }] := by
  simp [Chip.accept]

/-! ### SYS commands and the watchdog (R415, R419) -/

theorem Chip.mpSysInfo_taken {c : Chip} {m : Cmd} (h : m.param = 0) : c.mpSysInfo m =
    c.finish 0x0101 m Status.ok 0 ([Config.serial, BitVec.ofNat 64 (stateCode c.device + c.f Fld.sysState_mpSlot * 256)] ++
        wordsOfBytes 4 (c.fwHash (c.f Fld.sysState_mpSlot))) := by
  have hs : m.stray 0 = false := by simp [Cmd.stray, Cmd.p, h]
  simp only [Chip.mpSysInfo, hs, Bool.false_eq_true, if_false]

theorem unassigned_runs {op : Nat} {m : Cmd} {s : State} (ht : m.tent < 64) (hop : opcodes.contains (op % 65536) = false) :
    execUnassignedOpcode op m s = .next { s with
      chip := if s.chip.powered then s.chip.finish (op % 65536) m Status.badOpcode else s.chip } := by
  simp only [execUnassignedOpcode, onHost, onUnits, onChip, tentOk, ht, decide_true, if_true, Chip.unassigned, hop,
    Bool.false_eq_true, if_false]

/-- A watchdog restart ends with its event and its message. -/
theorem Chip.watchdog_eq {c : Chip} (hp : c.powered = true) (hr : c.flag Fld.sysBoot_recovery = false) :
    ∃ d : Chip, d.longs = [] ∧ d.tentWaits = [] ∧ c.watchdog = (d.ev .sysEvWdog).message 0 7
      (leBytes 4 ((d.ev .sysEvWdog).f Fld.sysState_restarts) ++ leBytes 4 0) := by
  unfold Chip.watchdog
  rw [hp, hr, if_neg (by simp)]
  exact ⟨_, rfl, rfl, rfl⟩

/-! ### Firmware (R503 to R506) -/

@[simp] theorem Chip.showFw_fws (c : Chip) : c.showFw.fws = c.fws := by simp [Chip.showFw]
@[simp] theorem Chip.showFw_outs (c : Chip) : c.showFw.outs = c.outs := by simp [Chip.showFw]
@[simp] theorem Chip.showFw_boot (c : Chip) : c.showFw.boot = c.boot := by simp [Chip.showFw]
@[simp] theorem Chip.showFw_rollback (c : Chip) : c.showFw.rollback = c.rollback := by simp [Chip.showFw]

theorem bitsOf_zero_of_lt_two {x : Nat} (h : x < 2) : bitsOf x 0 0 = x := by
  simp only [bitsOf]
  omega

/-- An image that is read goes by its parse, its signature and its version. -/
theorem Chip.mpFwLoad_eq {c : Chip} {m : Cmd} (hs : m.stray (2 ^ 48 - 1) = false) (hlen : m.word 1 < 2 ^ 32)
    (hk : m.word 2 < 2) (hslot : m.word 2 ≠ c.f Fld.sysState_mpSlot) (ht : c.boot.trial = none)
    (hadm : c.admits m.tent .r m.p (m.word 1) = true) :
    c.mpFwLoad m = match fwParse (c.bytes m.p (m.word 1)) with
      | none => c.finish 0x0C04 m Status.badParam
      | some (e, b) =>
        if ¬ fwSigned e then c.finish 0x0C04 m Status.signatureFail
        else if b.version < c.rollback then c.finish 0x0C04 m Status.notPermitted
        else ({ c with fws := Tab.set c.fws (m.word 2) { image := some (c.bytes m.p (m.word 1)) } } :
          Chip).showFw.acceptFinish 0x0C04 m Status.ok b.version := by
  unfold Chip.mpFwLoad
  dsimp only
  rw [bitsOf_zero_of_lt_two hk, hs, if_neg (by simp only [Bool.false_eq_true, false_or]; omega),
    if_neg (by simp [hslot, ht, hadm])] <;> rfl

theorem fwImage_acceptFinish {c : Chip} {op k n : Nat} {m : Cmd} {img : List Byte} :
    (({ c with fws := Tab.set c.fws k { image := some img } } : Chip).showFw.acceptFinish op m Status.ok n).fwImage k =
      some img := by
  rw [Chip.fwImage, Chip.acceptFinish_fws, Chip.showFw_fws, Tab.get_set_same]

theorem Chip.mpFwSwitch_of_valid {c : Chip} {m : Cmd} (hs : m.stray 3 = false)
    (hslot : bitsOf m.p 0 0 ≠ c.f Fld.sysState_mpSlot) (hv : (c.fwValid (bitsOf m.p 0 0)).isSome = true)
    (ht : c.boot.trial = none) : c.mpFwSwitch m = ({ c.accept 0x0C05 m with
      boot := { (c.accept 0x0C05 m).boot with switching := some m } } : Chip).settleSwitch := by
  have hv' : (c.fwValid (bitsOf m.p 0 0)).isNone = false := by
    cases h : c.fwValid (bitsOf m.p 0 0) with
    | none => simp [h] at hv
    | some _ => rfl
  unfold Chip.mpFwSwitch
  dsimp only
  rw [hs, if_neg Bool.false_ne_true, if_neg (by simp [hslot, ht, hv'])]

theorem Chip.mpFwSwitch_of_invalid {c : Chip} {m : Cmd} (hs : m.stray 3 = false)
    (hv : c.fwValid (bitsOf m.p 0 0) = none) : c.mpFwSwitch m = c.finish 0x0C05 m Status.notPermitted := by
  unfold Chip.mpFwSwitch
  dsimp only
  rw [hs, if_neg Bool.false_ne_true, if_pos (.inr (.inl (by rw [hv]; rfl)))]

/-- The MP restarts in the other slot once no other command is open; till then it waits. -/
theorem Chip.settleSwitch_waiting {c : Chip} {m : Cmd} (hsw : c.boot.switching = some m)
    (h : (c.longs.any fun x => !(x.op == 0x0C05 && x.cmd == m)) = true) : c.settleSwitch = c := by
  simp only [Chip.settleSwitch, hsw, h, or_true, if_true]

theorem Chip.settleSwitch_now {c : Chip} {m : Cmd} (hsw : c.boot.switching = some m) (ht : c.boot.trial = none)
    (h : (c.longs.any fun x => !(x.op == 0x0C05 && x.cmd == m)) = false) :
    c.settleSwitch.f Fld.sysState_mpSlot = bitsOf m.p 0 0 ∧ c.settleSwitch.f Fld.sysBoot_trial = 1 ∧
      c.settleSwitch.boot.trial = some (m, bitOf m.p 1) := by
  unfold Chip.settleSwitch
  rw [hsw]
  dsimp only
  rw [h, ht, if_neg (by simp)]
  refine ⟨?_, ?_, rfl⟩
  · simp (disch := decide) only [Chip.f_setF_of_name_ne]
    exact Chip.f_setF_eq (by decide) (by decide) (bitsOf_lt m.p 0 0)
  · rw [Chip.f_setF_disjoint (by decide) (by decide) (by decide)]
    exact Chip.f_setF_eq (by decide) (by decide) (by decide)

theorem Chip.settleSwitch_of_trial {c : Chip} (h : c.boot.trial.isSome = true) : c.settleSwitch = c := by
  unfold Chip.settleSwitch
  split
  · rfl
  · rw [if_pos (.inl h)]

theorem fwTrialEnd_runs {s : State} (hp : s.chip.powered = true) :
    execFwTrialEnd s = .next { s with chip := s.chip.settleSwitch.trialEnd } := by
  simp [execFwTrialEnd, onChip, hp]

theorem Chip.trialEnd_ends {c : Chip} {m : Cmd} {b : Bool} (h : c.boot.trial = some (m, b)) :
    c.trialEnd.boot.trial = none ∧ c.rollback ≤ c.trialEnd.rollback := by
  unfold Chip.trialEnd
  rw [h]
  dsimp only
  rw [Chip.answer_boot, Chip.answer_rollback, Chip.showFw_boot, Chip.showFw_rollback]
  refine ⟨rfl, ?_⟩
  rw [Chip.setF_rollback]
  dsimp only
  split
  · exact Nat.le_max_left ..
  · exact Nat.le_refl _

/-- Settles O16: each command's own effect and answer. -/
theorem sysCommandsAnswer : Obligations.SysCommandsAnswer := by
  unfold Obligations.SysCommandsAnswer
  dsimp only [exec]
  refine ⟨?info, ?echo, ?unassigned, ?watchdog, ?load, ?switch, ?trial⟩
  case info =>
    intro m s c' hm hz
    exact ⟨_, mp_runs hm, by dsimp only; rw [Chip.mpSysInfo_taken hz]; exact Chip.finish_answered ..⟩
  case echo =>
    intro m s hm
    exact ⟨_, hw_runs hm, Chip.finish_answered ..⟩
  case unassigned =>
    intro op m s ht hp hop
    refine ⟨_, unassigned_runs ht hop, ?_⟩
    dsimp only
    rw [if_pos hp]
    exact ⟨Chip.finish_answered .., Chip.finish_regs .., Chip.finish_mem ..⟩
  case watchdog =>
    intro s hp hr
    obtain ⟨d, hl, hw, hd⟩ := Chip.watchdog_eq hp hr
    refine ⟨_, rfl, ?_⟩
    dsimp only
    rw [hd]
    simp [hl, hw]
  case load =>
    intro m s c' hm hs hlen hk hslot ht hadm
    refine ⟨_, mp_runs hm, ?_⟩
    dsimp only
    rw [Chip.mpFwLoad_eq hs hlen hk hslot ht hadm]
    cases fwParse (c'.bytes m.p (m.word 1)) with
    | none => exact Chip.finish_answered ..
    | some p =>
      obtain ⟨e, b⟩ := p
      refine ⟨fun hsig hver => ?_, fun hsig => ?_, fun hsig hver => ?_⟩
      · simp only [hsig, not_true_eq_false, if_false, Nat.not_lt.mpr hver]
        exact ⟨fwImage_acceptFinish, Chip.acceptFinish_answered_of_grows (.of_eq (by simp))⟩
      · simp only [hsig, Bool.false_eq_true, not_false_eq_true, if_true]
        exact Chip.finish_answered ..
      · simp only [hsig, not_true_eq_false, if_false, hver, if_true]
        exact Chip.finish_answered ..
  case switch =>
    intro m s c' hm hs hslot ht
    refine ⟨_, mp_runs hm, fun hv hl => ?_, fun hv ⟨x, hx, hne⟩ => ?_, fun hv => ?_⟩
    · dsimp only
      rw [Chip.mpFwSwitch_of_valid hs hslot hv ht]
      refine Chip.settleSwitch_now rfl ((congrArg Boot.trial (Chip.accept_boot ..)).trans ht) ?_
      simp [hl]
    · dsimp only
      rw [Chip.mpFwSwitch_of_valid hs hslot hv ht, Chip.settleSwitch_waiting rfl]
      · refine ⟨rfl, Chip.accept_regs .., (congrArg Boot.trial (Chip.accept_boot ..)).trans ht, ?_⟩
        rintro op n d ⟨-, -, hsw, -⟩
        exact Option.some_ne_none m hsw
      · refine List.any_eq_true.mpr ⟨x, ?_, by simp [hne]⟩
        simp [hx]
    · dsimp only
      rw [Chip.mpFwSwitch_of_invalid hs hv, Chip.finish_boot]
      exact ⟨ht, Chip.finish_answered ..⟩
  case trial =>
    intro s m b hp h
    refine ⟨_, fwTrialEnd_runs hp, ?_⟩
    dsimp only
    rw [Chip.settleSwitch_of_trial (by rw [h]; rfl)]
    exact Chip.trialEnd_ends h

/-! ### Keys and the device's report (R508 to R510) -/

theorem Chip.tent_setTent_same (c : Chip) (t : Nat) (x : Tent) : (c.setTent t x).tent t = x := Tab.get_set_same ..

theorem Chip.tent_setTent_other {c : Chip} {t k : Nat} {x : Tent} (h : k ≠ t) : (c.setTent t x).tent k = c.tent k :=
  Tab.get_set_other _ _ _ _ _ h

theorem Chip.tent_of_tents {c d : Chip} (h : d.tents = c.tents) (t : Nat) : d.tent t = c.tent t := by
  simp only [Chip.tent, h]

@[simp] theorem Chip.showKey_tents (c : Chip) (t k : Nat) : (c.showKey t k).tents = c.tents := by
  unfold Chip.showKey
  dsimp only
  split <;> simp

@[simp] theorem Chip.showKey_outs (c : Chip) (t k : Nat) : (c.showKey t k).outs = c.outs := by
  unfold Chip.showKey
  dsimp only
  split <;> simp

/-- The slot of a key is free: the pair is stored where its keys are good. -/
theorem Chip.mpKeyInstall_eq {c : Chip} {m : Cmd} (hs : m.stray 0x33F = false) (ha : m.word 1 < 2 ^ 48)
    (hfree : Tab.get (c.tent (bitsOf m.p 5 0)).keys (bitsOf m.p 9 8) [] = [])
    (hadm : c.admits m.tent .r (m.word 1) 1984 = true) :
    c.mpKeyInstall m = if Config.keyPairGood (c.bytes (m.word 1) 1984) then
      ((c.setTent (bitsOf m.p 5 0) { c.tent (bitsOf m.p 5 0) with
        keys := Tab.set (c.tent (bitsOf m.p 5 0)).keys (bitsOf m.p 9 8) (c.bytes (m.word 1) 1984) }).showKey
          (bitsOf m.p 5 0) (bitsOf m.p 9 8)).finish 0x0C02 m Status.ok
      else c.finish 0x0C02 m Status.badParam := by
  unfold Chip.mpKeyInstall
  dsimp only
  rw [hs, if_neg (by simp only [Bool.false_eq_true, false_or]; omega), if_neg (by simp [hfree, hadm])]
  cases Config.keyPairGood (c.bytes (m.word 1) 1984) <;> rfl

theorem Chip.mpKeyRemove_eq {c : Chip} {m : Cmd} (hs : m.stray 0x33F = false) :
    c.mpKeyRemove m = ((c.setTent (bitsOf m.p 5 0) { c.tent (bitsOf m.p 5 0) with
      keys := (c.tent (bitsOf m.p 5 0)).keys.filter fun p => p.1 != bitsOf m.p 9 8 }).showKey
        (bitsOf m.p 5 0) (bitsOf m.p 9 8)).finish 0x0C03 m Status.ok := by
  simp only [Chip.mpKeyRemove, hs, Bool.false_eq_true, if_false]

/-- A slot emptied reads empty. -/
theorem Tab.get_filter_ne {α : Type} (t : Tab Nat α) (k : Nat) (d : α) :
    Tab.get (t.filter fun p => p.1 != k) k d = d :=
  Tab.get_of_no_key _ _ _ fun p hp => by simpa using (List.mem_filter.mp hp).2

theorem Chip.mpAttest_eq {c : Chip} {m : Cmd} {body rep : List Byte} (hs : m.stray (2 ^ 48 - 1) = false)
    (hres : bitsOf (m.word 1) 63 38 = 0) (hid : c.flag Fld.sysBoot_idOk = true)
    (ht : m.tent = 0 ∨ bitsOf (m.word 1) 37 32 = m.tent) (hadm : c.admits m.tent .w m.p (bitsOf (m.word 1) 31 0) = true)
    (hbody : body = c.attestBody (bitsOf (m.word 1) 37 32) ((List.range 4).flatMap fun w => leBytes 8 (m.word (w + 2))))
    (hrep : rep = Cbor.putArray [Cbor.putUint 1, Cbor.putBytes body, Cbor.putBytes (Config.signs 0 (ascii "GXAT" ++ body)),
      Cbor.putBytes (Config.signs 1 (ascii "GXAT" ++ body))]) :
    c.mpAttest m = if bitsOf (m.word 1) 31 0 < rep.length then c.finish 0x0C01 m Status.badParam
      else (c.store m.p rep).acceptFinish 0x0C01 m Status.ok rep.length := by
  have hten : ¬ (m.tent ≠ 0 ∧ bitsOf (m.word 1) 37 32 ≠ m.tent) := fun ⟨h0, hne⟩ => ht.elim h0 hne
  unfold Chip.mpAttest
  dsimp only
  rw [← hbody, ← hrep, if_neg (by rw [hs]; simp [hres]), if_neg (by simp [hid, hadm]; tauto)]

/-- Settles O17: the keys and the report. -/
theorem trustCommandsAct : Obligations.TrustCommandsAct := by
  unfold Obligations.TrustCommandsAct
  dsimp only [exec]
  refine ⟨?install, ?remove, ?attest⟩
  case install =>
    intro m s c' hm hs ha hfree hadm
    refine ⟨_, mp_runs hm, ?_⟩
    dsimp only
    rw [Chip.mpKeyInstall_eq hs ha hfree hadm]
    cases hgood : Config.keyPairGood (c'.bytes (m.word 1) 1984) with
    | true =>
      rw [if_pos rfl]
      refine ⟨fun _ => ⟨?_, Chip.finish_answered_of_grows (.of_eq (by simp))⟩, fun h => Bool.noConfusion h,
        fun k hk => ?_, by simp [Chip.showKey_mem]⟩
      · rw [Chip.tent_of_tents (Chip.finish_tents ..), Chip.tent_of_tents (Chip.showKey_tents ..),
          Chip.tent_setTent_same, Tab.get_set_same]
      · rw [Chip.tent_of_tents (Chip.finish_tents ..), Chip.tent_of_tents (Chip.showKey_tents ..),
          Chip.tent_setTent_other hk]
    | false =>
      rw [if_neg Bool.false_ne_true]
      refine ⟨fun h => Bool.noConfusion h, fun _ => ⟨?_, Chip.finish_answered ..⟩, fun k hk => ?_, by simp⟩
      · rw [Chip.tent_of_tents (Chip.finish_tents ..), hfree]
      · exact Chip.tent_of_tents (Chip.finish_tents ..) k
  case remove =>
    intro m s c' hm hs
    refine ⟨_, mp_runs hm, ?_⟩
    dsimp only
    rw [Chip.mpKeyRemove_eq hs]
    refine ⟨?_, fun k hk => ?_, by simp, Chip.finish_answered_of_grows (.of_eq (by simp))⟩
    · rw [Chip.tent_of_tents (Chip.finish_tents ..), Chip.tent_of_tents (Chip.showKey_tents ..),
        Chip.tent_setTent_same, Tab.get_filter_ne]
    · rw [Chip.tent_of_tents (Chip.finish_tents ..), Chip.tent_of_tents (Chip.showKey_tents ..),
        Chip.tent_setTent_other hk]
  case attest =>
    intro m s c' body rep hm hs hres hid ht hadm hbody hrep
    refine ⟨_, mp_runs hm, ?_⟩
    dsimp only
    rw [Chip.mpAttest_eq hs hres hid ht hadm hbody hrep]
    by_cases hlen : bitsOf (m.word 1) 31 0 < rep.length
    · rw [if_pos hlen]
      exact ⟨Chip.finish_regs .., fun h => absurd hlen (Nat.not_lt.mpr h), fun _ =>
        ⟨Chip.finish_mem .., Chip.finish_answered ..⟩⟩
    · rw [if_neg hlen]
      exact ⟨by simp, fun _ => ⟨Chip.acceptFinish_mem .., Chip.acceptFinish_answered_of_grows (.of_eq (by simp))⟩,
        fun h => absurd h hlen⟩

end Sys2Proof.Machine
end

section
/-!
Tents, assignments and the Tent tables (files 2, 4, 10 and 11 of spec/): the statements O18, O19 and O20.
-/

namespace Sys2Proof.Machine

/-! ### Replies to what waited -/

/-- Answering waiting commands changes the replies alone. -/
theorem Chip.answers_eq (op : Nat) (ws : List TentWait) (c : Chip) : ∃ o l g,
    ws.foldl (fun c w => c.answer op w.cmd Status.ok) c = { c with outs := o, link := l, longs := g } := by
  induction ws generalizing c with
  | nil => exact ⟨_, _, _, rfl⟩
  | cons w ws ih =>
    obtain ⟨o, l, g, h⟩ := c.answer_eq op w.cmd Status.ok 0 []
    obtain ⟨o', l', g', h'⟩ := ih (c.answer op w.cmd Status.ok)
    exact ⟨o', l', g', by rw [List.foldl_cons, h', h]⟩

theorem Chip.settleAssign_eq (c : Chip) (op : Nat) (p : Chip → Nat → Bool) : ∃ o l g w,
    c.settleAssign op p = { c with outs := o, link := l, longs := g, tentWaits := w } := by
  obtain ⟨o, l, g, h⟩ := Chip.answers_eq op (c.tentWaits.filter fun w => w.op == op && !w.units.any fun u => p c u)
    { c with tentWaits := c.tentWaits.filter fun w =>
        !(c.tentWaits.filter fun w => w.op == op && !w.units.any fun u => p c u).contains w }
  exact ⟨o, l, g, _, h⟩

@[simp] theorem Chip.settleAssign_f (c : Chip) (op : Nat) (p : Chip → Nat → Bool) (fl : Fld) (idx : List Nat) :
    (c.settleAssign op p).f fl idx = c.f fl idx := by
  obtain ⟨_, _, _, _, h⟩ := c.settleAssign_eq op p
  rw [h]
  rfl

@[simp] theorem Chip.settleAssign_dale (c : Chip) (op : Nat) (p : Chip → Nat → Bool) (k : Nat) :
    (c.settleAssign op p).dale k = c.dale k := by
  obtain ⟨_, _, _, _, h⟩ := c.settleAssign_eq op p
  rw [h]
  rfl

@[simp] theorem Chip.settleAssign_core (c : Chip) (op : Nat) (p : Chip → Nat → Bool) (i : Nat) :
    (c.settleAssign op p).core i = c.core i := by
  obtain ⟨_, _, _, _, h⟩ := c.settleAssign_eq op p
  rw [h]
  rfl

/-! ### Opening, quiescing and closing (R340 to R344) -/

theorem Chip.tentCtl_setF {c : Chip} {t n : Nat} (h : n < 4) : (c.setF Fld.tentCtl_state [t] n).f Fld.tentCtl_state [t] = n :=
  Chip.f_setF_eq (by decide) (by decide) h

theorem Chip.openTent_taken {c : Chip} {t : Nat} (ht : t ≠ 0)
    (h : c.f Fld.tentCtl_state [t] = 0 ∨ c.f Fld.tentCtl_state [t] = 3) :
    c.openTent t = (Status.ok, c.setF Fld.tentCtl_state [t] 1) := by
  rw [Chip.openTent, if_pos ⟨ht, h⟩]

theorem Chip.closeTent_taken {c : Chip} {t : Nat} (h : c.f Fld.tentCtl_state [t] = 3) (h0 : c.slotState t 0 = 0)
    (h1 : c.slotState t 1 = 0) : c.closeTent t = (Status.ok, c.setF Fld.tentCtl_state [t] 0) := by
  rw [Chip.closeTent, if_neg (by simp [h0, h1]), if_pos h]

theorem Chip.quiesceTent_taken {c : Chip} {t : Nat} (ht : t ≠ 0) (h : c.f Fld.tentCtl_state [t] = 1) :
    c.quiesceTent t = (Status.ok, (c.setF Fld.tentCtl_state [t] 2).settleQuiesce t) := by
  rw [Chip.quiesceTent, if_pos ⟨ht, h⟩]

theorem Chip.settleQuiesce_of_busy {c : Chip} {t : Nat} (h : c.tentBusy t = true) : c.settleQuiesce t = c := by
  rw [Chip.settleQuiesce, if_neg (by simp [h])]

/-- The last work of a QUIESCING Tent has ended: it is QUIESCED, and no quiesce of it waits. -/
theorem Chip.settleQuiesce_of_idle {c : Chip} {t : Nat} (hs : c.f Fld.tentCtl_state [t] = 2) (h : c.tentBusy t = false) :
    (c.settleQuiesce t).f Fld.tentCtl_state [t] = 3 ∧
      ∀ w, w ∈ (c.settleQuiesce t).tentWaits → ¬ (w.op = 0x0201 ∧ w.units = [t]) := by
  have heq : ∃ o l g, c.settleQuiesce t = { c.setF Fld.tentCtl_state [t] 3 with
      outs := o, link := l, longs := g
      tentWaits := c.tentWaits.filter fun w => !(w.op == 0x0201 && w.units == [t]) } := by
    rw [Chip.settleQuiesce, if_pos ⟨hs, by simp [h]⟩]
    exact Chip.answers_eq ..
  obtain ⟨o, l, g, heq⟩ := heq
  rw [heq]
  refine ⟨Chip.tentCtl_setF (by decide), fun w hw ⟨hop, hu⟩ => ?_⟩
  simp [hop, hu] at hw

theorem Chip.settleQuiesce_state {c : Chip} {t : Nat} (hs : c.f Fld.tentCtl_state [t] = 2) :
    (c.settleQuiesce t).f Fld.tentCtl_state [t] = if c.tentBusy t then 2 else 3 := by
  split
  next h => rw [Chip.settleQuiesce_of_busy h, hs]
  next h => exact (Chip.settleQuiesce_of_idle hs (by simpa using h)).1

/-- A TENT_CTL command whose action the Tent takes, and that has nothing to wait for. -/
theorem Chip.mpTentCtl_taken {c d : Chip} {m : Cmd} {act : Nat} {f : Chip → Nat → Nat × Chip} (hs : m.stray 0x33F = false)
    (hact : bitsOf m.p 9 8 = act) (hne : act ≠ 2) (hf : f c (bitsOf m.p 5 0) = (Status.ok, d)) :
    c.mpTentCtl m act f = d.acceptFinish 0x0201 m Status.ok := by
  unfold Chip.mpTentCtl
  dsimp only
  rw [hf, if_neg (by simp [hs, hact]), if_neg (by simp), if_neg (by simp [hne])]

theorem Chip.mpTentCtl_waits {c d : Chip} {m : Cmd} {f : Chip → Nat → Nat × Chip} (hs : m.stray 0x33F = false)
    (hact : bitsOf m.p 9 8 = 2) (hf : f c (bitsOf m.p 5 0) = (Status.ok, d))
    (hd : d.f Fld.tentCtl_state [bitsOf m.p 5 0] = 2) :
    c.mpTentCtl m 2 f = { d.accept 0x0201 m with tentWaits := (d.accept 0x0201 m).tentWaits ++
      [{ op := 0x0201, cmd := m, units := [bitsOf m.p 5 0] }] } := by
  unfold Chip.mpTentCtl
  dsimp only
  rw [hf, if_neg (by simp [hs, hact]), if_neg (by simp), if_pos ⟨rfl, hd⟩]

/-- Settles O18: each action by register and by command. -/
theorem tentActionsChangeState : Obligations.TentActionsChangeState := by
  unfold Obligations.TentActionsChangeState
  dsimp only [exec, execTentOpen, execTentQuiesce, execTentClose, execQuiesceDone, tentAction]
  refine ⟨?openReg, ?openCmd, ?quiesceReg, ?quiesceCmd, ?done, ?closeReg, ?closeCmd⟩
  case openReg =>
    rintro w t s x rfl hadm ht hst
    refine ⟨_, reg_takes hadm (Chip.openTent_taken ht hst), ?_, Chip.wReply_told_of_grows w 1 (.of_eq (by simp))⟩
    exact (Chip.wReply_f ..).trans (Chip.tentCtl_setF (by decide))
  case openCmd =>
    intro m s c' hm hs hact ht hst
    refine ⟨_, mp_runs hm, ?_⟩
    dsimp only
    rw [Chip.mpTentCtl_taken hs hact (by decide) (Chip.openTent_taken ht hst)]
    exact ⟨(Chip.acceptFinish_f ..).trans (Chip.tentCtl_setF (by decide)),
      Chip.acceptFinish_answered_of_grows (.of_eq (by simp))⟩
  case quiesceReg =>
    rintro w t s x c1 rfl hadm ht hst rfl
    refine ⟨_, reg_takes hadm (Chip.quiesceTent_taken ht hst), ?_⟩
    exact (Chip.wReply_f ..).trans (Chip.settleQuiesce_state (Chip.tentCtl_setF (by decide)))
  case quiesceCmd =>
    intro m s c' hm hs hact ht hst hbusy
    have hq := Chip.quiesceTent_taken ht hst
    rw [Chip.settleQuiesce_of_busy hbusy] at hq
    refine ⟨_, mp_runs hm, ?_⟩
    dsimp only
    rw [Chip.mpTentCtl_waits hs hact hq (Chip.tentCtl_setF (by decide))]
    exact ⟨(Chip.accept_f ..).trans (Chip.tentCtl_setF (by decide)), by simp⟩
  case done =>
    intro t s ht hst hidle
    exact ⟨_, units_run (by simpa [tentOk] using ht), Chip.settleQuiesce_of_idle hst hidle⟩
  case closeReg =>
    rintro w t s x rfl hadm hst h0 h1
    refine ⟨_, reg_takes hadm (Chip.closeTent_taken hst h0 h1), ?_, Chip.wReply_told_of_grows w 1 (.of_eq (by simp))⟩
    exact (Chip.wReply_f ..).trans (Chip.tentCtl_setF (by decide))
  case closeCmd =>
    intro m s c' hm hs hact hst h0 h1
    refine ⟨_, mp_runs hm, ?_⟩
    dsimp only
    rw [Chip.mpTentCtl_taken hs hact (by decide) (Chip.closeTent_taken hst h0 h1)]
    exact ⟨(Chip.acceptFinish_f ..).trans (Chip.tentCtl_setF (by decide)),
      Chip.acceptFinish_answered_of_grows (.of_eq (by simp))⟩

/-! ### Owners of Dales, sites and banks (R345 to R349) -/

/-- What becomes of a Dale whose pending owner takes it over. -/
theorem Chip.settleDale_free {c : Chip} {k o : Nat} (hn : (c.dale k).newOwner = some o) (ho : o < 64)
    (hfree : c.daleFree k = true) : (c.settleDale k).f Fld.daleCtl_owner [k / 12, k % 12] = o ∧
      ((c.settleDale k).dale k).newOwner = none ∧ ((c.settleDale k).dale k).tile = none ∧
      ((c.settleDale k).dale k).staged = false := by
  unfold Chip.settleDale
  rw [hn]
  dsimp only
  rw [if_neg (by simp [hfree]), Chip.settleAssign_f, Chip.settleAssign_dale]
  refine ⟨?_, ?_⟩
  · simp (disch := decide) only [Chip.f_setF_of_name_ne]
    exact Chip.f_setF_eq (by decide) (by decide) ho
  · simp [Chip.dale, Chip.setDale]

theorem Chip.settleDale_held {c : Chip} {k : Nat} (hfree : c.daleFree k = false) : c.settleDale k = c := by
  unfold Chip.settleDale
  split
  · rfl
  · rw [if_pos (by simp [hfree])]

/-- A Dale's new owner, written and not yet in force. -/
def Chip.nameOwner (c : Chip) (k o : Nat) : Chip :=
  ((c.setF Fld.tentDale_owner [k] o).setDale k { c.dale k with newOwner := some o }).setF Fld.tentDale_pending [k] 1

theorem Chip.nameOwner_newOwner (c : Chip) (k o : Nat) : ((c.nameOwner k o).dale k).newOwner = some o := by
  simp [Chip.nameOwner, Chip.dale, Chip.setDale]

theorem Chip.nameOwner_pending (c : Chip) (k o : Nat) : (c.nameOwner k o).f Fld.tentDale_pending [k] = 1 :=
  Chip.f_setF_eq (by decide) (by decide) (by decide)

theorem Chip.wTentDale_other {c : Chip} {k : Nat} {x : Word} (h : bitsOf x.toNat 5 0 ≠ c.daleOwner k) :
    c.wTentDale k x = (Status.ok, (c.nameOwner k (bitsOf x.toNat 5 0)).settleDale k) := by
  have h' : ¬ bitsOf x.toNat 5 0 = (c.setF Fld.tentDale_owner [k] (bitsOf x.toNat 5 0)).daleOwner k := by
    rwa [Chip.daleOwner, Chip.f_setF_of_name_ne _ _ _ (by decide)]
  unfold Chip.wTentDale
  dsimp only
  rw [if_neg h']
  rfl

theorem Chip.wTentSite_taken {c : Chip} {i : Nat} {x : Word} (hr : bitsOf x.toNat 14 0 ≤ 27647)
    (hfree : c.rankTaken (bitsOf x.toNat 29 24) (bitsOf x.toNat 14 0) i 1 = false) :
    c.wTentSite i x = (Status.ok, c.assignSite i (bitsOf x.toNat 29 24) (bitsOf x.toNat 14 0)) := by
  unfold Chip.wTentSite
  dsimp only
  rw [if_neg (by simp [hfree]; omega)]

theorem Chip.byte_zeroStore (c : Chip) {i a : Nat} (h : storeBase i ≤ a) (h' : a < storeBase i + 0x8000) :
    (c.zeroStore i).byte a = 0 := by
  have hread : ∀ m : List Host.Cell,
      Mem.read (m.filter fun p => !(decide (storeBase i ≤ p.1 ∧ p.1 < storeBase i + 0x8000))) a = 0 := by
    intro m
    induction m with
    | nil => rfl
    | cons p m ih =>
      rw [List.filter_cons]
      split
      next hp =>
        obtain ⟨b, x⟩ := p
        have hne : b ≠ a := by
          rintro rfl
          simp at hp
          omega
        rwa [Mem.read, if_neg hne]
      · exact ih
  exact hread _

@[simp] theorem Chip.saveRecord_f (c : Chip) (n s : Nat) (fl : Fld) (idx : List Nat) :
    (c.saveRecord n s).f fl idx = c.f fl idx :=
  Chip.f_congr (a := c.saveRecord n s) (b := c) rfl rfl fl idx

/-- A site's store and core, emptied for another owner. -/
def Chip.emptySite (c : Chip) (i : Nat) : Chip :=
  (c.zeroStore i).setCore i { c.core i with
    newOwner := none, steps := [], ctx := (c.core i).ctx.map fun p => (p.1, { p.2 with live := false }) }

/-- A site taken over, but for the counts of the two owners. -/
def Chip.giveSite (c : Chip) (i o n s : Nat) : Chip :=
  (((((c.emptySite i).setArr n s { (c.emptySite i).arr n s with epoch := 0 }).setF Fld.siteAstate_epoch [n, s] 0).setF
    Fld.veldLmap_owner [n, i % 768] o).setF Fld.tentSite_pending [i] 0).saveRecord n s

theorem Chip.settleSite_eq {c : Chip} {i o : Nat} (hn : (c.core i).newOwner = some o) (hfree : c.siteFree i = true) :
    ∃ a b, c.settleSite i = (((c.giveSite i o (i / 768) (c.physOf i)).setF Fld.tentSites_count
      [c.siteTent i] a).setF Fld.tentSites_count [o] b).settleAssign 0x0203 Chip.sitePending := by
  unfold Chip.settleSite
  rw [hn]
  dsimp -zeta only
  rw [if_neg (by simp [hfree])]
  exact ⟨_, _, rfl⟩

/-- What becomes of a site whose pending owner takes it over: its store is zeroed. -/
theorem Chip.settleSite_free {c : Chip} {i o : Nat} (hn : (c.core i).newOwner = some o) (hfree : c.siteFree i = true) :
    (c.settleSite i).siteTent i = o % 64 ∧ ((c.settleSite i).core i).newOwner = none ∧ ((c.settleSite i).core i).steps = [] ∧
      (c.settleSite i).mem = (c.zeroStore i).mem := by
  obtain ⟨a, b, heq⟩ := Chip.settleSite_eq hn hfree
  have htent : (c.giveSite i o (i / 768) (c.physOf i)).f Fld.veldLmap_owner [i / 768, i % 768] = o % 64 := by
    simp (disch := decide) only [Chip.giveSite, Chip.f_setF_of_name_ne, Chip.saveRecord_f]
    exact Chip.f_setF_same _ _ _ _ (by decide) (by decide)
  rw [heq, Chip.siteTent, Chip.settleAssign_f, Chip.settleAssign_core, Chip.settleAssign_mem]
  refine ⟨?_, ?_, ?_, ?_⟩
  · simpa (disch := decide) only [Chip.f_setF_of_name_ne] using htent
  · simp [Chip.core, Chip.giveSite, Chip.emptySite, Chip.saveRecord, Chip.setArr, Chip.setCore]
  · simp [Chip.core, Chip.giveSite, Chip.emptySite, Chip.saveRecord, Chip.setArr, Chip.setCore]
  · simp [Chip.giveSite, Chip.emptySite, Chip.saveRecord, Chip.setArr, Chip.setCore]

@[simp] theorem Chip.bank_setBank_same (c : Chip) (v b : Nat) (x : Bank) : (c.setBank v b x).bank v b = x :=
  Tab.get_set_same ..

@[simp] theorem Chip.bank_wReply (c : Chip) (w : Writer) (st n v b : Nat) : (c.wReply w st n).bank v b = c.bank v b := by
  simp [Chip.bank]

theorem Chip.wValeBank_dark {c : Chip} {v b : Nat} {x : Word} (hne : bitsOf x.toNat 29 24 ≠ c.f Fld.valeBank_owner [v, b])
    (hdark : c.f Fld.valeBank_state [v, b] = 0) : c.wValeBank v b x = (Status.ok,
      (c.setF Fld.valeBank_owner [v, b] (bitsOf x.toNat 29 24)).setBank v b { c.bank v b with newOwner := none }) := by
  unfold Chip.wValeBank
  dsimp only
  rw [if_neg hne, if_pos hdark]

theorem Chip.wValeBank_lit {c : Chip} {v b : Nat} {x : Word} (hne : bitsOf x.toNat 29 24 ≠ c.f Fld.valeBank_owner [v, b])
    (hlit : c.f Fld.valeBank_state [v, b] ≠ 0) (hc : (c.bank v b).carries ≠ none) : c.wValeBank v b x = (Status.ok,
      c.setBank v b { c.bank v b with newOwner := some (bitsOf x.toNat 29 24) }) := by
  unfold Chip.wValeBank
  dsimp only
  rw [if_neg hne, if_neg hlit, if_neg (by simpa using hc)]

/-- Settles O19: owners in force at once, or once the unit is free. -/
theorem assignmentsTakeEffect : Obligations.AssignmentsTakeEffect := by
  unfold Obligations.AssignmentsTakeEffect
  dsimp only [exec]
  refine ⟨?dale, ?daleChange, ?site, ?siteChange, ?dark, ?lit⟩
  case dale =>
    intro w k x s hadm hne
    refine ⟨_, _, rfl, reg_takes hadm (Chip.wTentDale_other hne), fun hfree => ?_, fun hfree => ?_⟩
    · simp only [Chip.wReply_f, Chip.dale_wReply]
      exact Chip.settleDale_free (Chip.nameOwner_newOwner ..) (bitsOf_lt ..) hfree
    · simp only [Chip.wReply_f, Chip.dale_wReply]
      rw [Chip.settleDale_held (c := s.chip.nameOwner k _) hfree]
      exact ⟨Chip.nameOwner_pending .., Chip.nameOwner_newOwner ..⟩
  case daleChange =>
    intro k o s hk hn ho hfree
    exact ⟨_, units_run (by simpa using hk), Chip.settleDale_free hn ho hfree⟩
  case site =>
    intro w i x s hadm hr hfree
    exact reg_takes hadm (Chip.wTentSite_taken hr hfree)
  case siteChange =>
    intro i o s hi hn hfree
    obtain ⟨htent, hnone, hsteps, hmem⟩ := Chip.settleSite_free hn hfree
    refine ⟨_, units_run (by simpa using hi), htent, hnone, hsteps, fun a h h' => ?_⟩
    exact (congrArg (Mem.read · a) hmem).trans (s.chip.byte_zeroStore h h')
  case dark =>
    intro w v b x s hadm hne hdark
    refine ⟨_, reg_takes hadm (Chip.wValeBank_dark hne hdark), ?_, by simp⟩
    rw [Chip.wReply_f]
    exact Chip.f_setF_bits rfl rfl (by decide) (by decide)
  case lit =>
    intro w v b x s hadm hne hlit hc
    refine ⟨_, reg_takes hadm (Chip.wValeBank_lit hne hlit hc), by simp, ?_⟩
    rw [Chip.wReply_f]
    rfl

/-! ### The Tent tables (R350, R351) -/

/-- What each step of a fold keeps, the fold keeps. -/
theorem Chip.foldl_keeps {α β : Type} {f : Chip → α → Chip} (read : Chip → β) (l : List α) (c : Chip)
    (h : ∀ c x, x ∈ l → read (f c x) = read c) : read (l.foldl f c) = read c := by
  induction l generalizing c with
  | nil => rfl
  | cons x l ih =>
    rw [List.foldl_cons, ih _ fun c y hy => h c y (List.mem_cons_of_mem _ hy), h c x List.mem_cons_self]

/-- A list written word by word to numbered places reads back. -/
theorem Chip.foldl_mapIdx_reads {α β : Type} {f : Chip → Nat × α → Chip} (read : Chip → Nat → β) (val : α → β)
    {ok : Nat → α → Prop} (hsame : ∀ c k x, ok k x → read (f c (k, x)) k = val x)
    (hother : ∀ c k x j, j ≠ k → read (f c (k, x)) j = read c j) (xs : List α) (c : Chip) {k : Nat}
    (hok : ∀ x, x ∈ xs → ok k x) (hk : k < xs.length) : read ((xs.mapIdx fun k x => (k, x)).foldl f c) k = val xs[k] := by
  induction xs using List.reverseRecOn with
  | nil => exact absurd hk (Nat.not_lt_zero _)
  | append_singleton xs x ih =>
    rw [List.mapIdx_concat, List.foldl_append, List.foldl_cons, List.foldl_nil]
    by_cases hlt : k < xs.length
    · rw [hother _ _ _ _ (by omega), ih (fun y hy => hok y (List.mem_append_left _ hy)) hlt, List.getElem_append_left hlt]
    · have hlast : k = xs.length := by
        rw [List.length_append, List.length_singleton] at hk
        omega
      subst hlast
      rw [hsame _ _ _ (hok x (by simp)), List.getElem_concat_length rfl]

/-- A command whose checks passed has as many words as its opcode takes. -/
theorem Chip.words_length_of_checks {c : Chip} {op n : Nat} {m : Cmd} (h : c.checks op m = none) (hw : opWords op = (n, n)) :
    m.words.length = n := by
  unfold Chip.checks at h
  split at h
  · exact absurd h (by simp)
  · split at h
    · exact absurd h (by simp)
    next hwords =>
      rw [hw] at hwords
      omega

theorem Chip.get_put_of_idx_ne {c : Chip} {n : RegName} {ix ix' : List Nat} (x : Word) (h : ix' ≠ ix) :
    (c.put ⟨n, ix, 0⟩ x).get ⟨n, ix', 0⟩ = c.get ⟨n, ix', 0⟩ :=
  Chip.get_put_other _ _ _ _ fun e => h (congrArg Reg.idx e)

theorem Chip.f_setF_of_idx_ne {c : Chip} {fl fl' : Fld} {ix ix' : List Nat} (n : Nat) (h : ix' ≠ ix) :
    (c.setF fl ix n).f fl' ix' = c.f fl' ix' :=
  Chip.f_of_get (Chip.get_put_other _ _ _ _ fun e => h (congrArg Reg.idx e))

/-- One segment of TENT_WINDOWS. -/
def Chip.writeWin (t : Nat) (c : Chip) (p : Nat × Word) : Chip := (c.wTentWin t p.1 p.2).2

/-- One pitch of TENT_BUDGET: the last class is Tent 0's alone. -/
def Chip.writePitch (t : Nat) (c : Chip) (p : Nat × Word) : Chip :=
  if p.1 = 7 ∧ t ≠ 0 then c else c.setF Fld.budPitch_pitch [t, p.1] p.2.toNat

theorem Chip.mpTentWindows_taken {c : Chip} {m : Cmd} (hs : m.stray 0x3F = false)
    (hgood : ∀ x, x ∈ m.words → segmentBad x.toNat = false) : c.mpTentWindows m =
      ((m.words.mapIdx fun s x => (s, x)).foldl (Chip.writeWin m.p) c).finish 0x0204 m Status.ok := by
  unfold Chip.mpTentWindows
  rw [if_neg (by simpa [hs] using hgood)]
  rfl

theorem Chip.writeWin_same {t k : Nat} {c : Chip} {x : Word} (h : segmentBad x.toNat = false) :
    (Chip.writeWin t c (k, x)).get { name := .tentWin, idx := [t, k] } = x &&& 0xF8FFFFFFFFFF0000 := by
  simp [Chip.writeWin, Chip.wTentWin, h]

theorem Chip.writeWin_other {t k j : Nat} {c : Chip} {x : Word} (h : j ≠ k) :
    (Chip.writeWin t c (k, x)).get { name := .tentWin, idx := [t, j] } = c.get { name := .tentWin, idx := [t, j] } := by
  unfold Chip.writeWin Chip.wTentWin
  split
  · rfl
  · exact Chip.get_put_of_idx_ne _ (by simpa using h)

theorem Chip.mpTentBudget_taken {c : Chip} {m : Cmd} (hs : m.stray 0x3F = false)
    (hgood : ∀ k, k < 8 → (m.words.getD k 0).toNat ≤ 0xFFFFF) (h9 : m.word 9 ≤ 0xFF) : c.mpTentBudget m =
      ((((m.words.take 8).mapIdx fun s x => (s, x)).foldl (Chip.writePitch m.p) c).setF
        Fld.budWaitLimit_waitFrames [m.p] (m.word 9)).finish 0x0205 m Status.ok := by
  have hany : (m.words.take 8).any (fun x => decide (0xFFFFF < x.toNat)) = false := by
    refine List.any_eq_false.mpr fun x hx => ?_
    obtain ⟨k, hk, rfl⟩ := List.getElem_of_mem hx
    rw [List.length_take] at hk
    have hle := hgood k (by omega)
    rw [List.getD_eq_getElem _ _ (by omega)] at hle
    rw [List.getElem_take]
    simpa using hle
  unfold Chip.mpTentBudget
  dsimp only
  rw [if_neg (by simp [hs, hany]; omega)]
  rfl

theorem Chip.writePitch_same {c : Chip} {t k : Nat} {x : Word} (h : ¬ (k = 7 ∧ t ≠ 0)) :
    (Chip.writePitch t c (k, x)).f Fld.budPitch_pitch [t, k] = x.toNat % 2 ^ 20 := by
  rw [Chip.writePitch, if_neg h]
  exact Chip.f_setF_same _ _ _ _ (by decide) (by decide)

theorem Chip.writePitch_other {c : Chip} {t k j : Nat} {x : Word} (h : j ≠ k) :
    (Chip.writePitch t c (k, x)).f Fld.budPitch_pitch [t, j] = c.f Fld.budPitch_pitch [t, j] := by
  unfold Chip.writePitch
  split
  · rfl
  · exact Chip.f_setF_of_idx_ne _ (by simpa using h)

theorem Chip.writePitch_guarded {c : Chip} {t : Nat} {p : Nat × Word} (ht : t ≠ 0) :
    (Chip.writePitch t c p).f Fld.budPitch_pitch [t, 7] = c.f Fld.budPitch_pitch [t, 7] := by
  obtain ⟨k, x⟩ := p
  by_cases hk : k = 7
  · rw [Chip.writePitch, if_pos ⟨hk, ht⟩]
  · exact Chip.writePitch_other (Ne.symm hk)

theorem Chip.writePitch_outs (t : Nat) (c : Chip) (p : Nat × Word) : (Chip.writePitch t c p).outs = c.outs := by
  unfold Chip.writePitch
  split <;> simp

/-- Settles O20: every entry a command names is written. -/
theorem tentTablesAreWritten : Obligations.TentTablesAreWritten := by
  unfold Obligations.TentTablesAreWritten
  dsimp only [exec]
  refine ⟨?dales, ?sites, ?windows, ?budget⟩
  case dales =>
    rintro m s c' ks hm hs h16 rfl
    refine ⟨_, _, rfl, rfl, (mp_runs hm).trans ?_⟩
    rw [Chip.mpTentDales, if_neg (by simp [hs, h16])]
  case sites =>
    rintro m s c' o first n hm hs rfl rfl rfl hfirst hrank hfree
    refine ⟨_, _, rfl, rfl, (mp_runs hm).trans ?_⟩
    have hany : (List.range (bitsOf m.p 30 16 + 1)).any (fun k =>
        c'.rankTaken (bitsOf m.p 37 32) (m.word 1 + k) (bitsOf m.p 14 0) (bitsOf m.p 30 16 + 1)) = false :=
      List.any_eq_false.mpr fun k hk => by simp [hfree k (List.mem_range.mp hk)]
    unfold Chip.mpTentSites
    dsimp only
    rw [if_neg (by rw [hs, hany]; simp; omega)]
  case windows =>
    intro m s c' hm hs hgood
    have hlen : m.words.length = 64 := Chip.words_length_of_checks hm.1.2.2 rfl
    refine ⟨_, mp_runs hm, ?_⟩
    dsimp only
    rw [Chip.mpTentWindows_taken hs hgood]
    refine ⟨Chip.finish_answered_of_grows (.of_eq ?_), fun k hk => ?_⟩
    · refine Chip.foldl_keeps Chip.outs _ _ fun c p _ => ?_
      unfold Chip.writeWin Chip.wTentWin
      split <;> simp
    · have hk' : k < m.words.length := by omega
      have hread := Chip.foldl_mapIdx_reads (fun c j => c.get { name := .tentWin, idx := [m.p, j] }) (· &&& 0xF8FFFFFFFFFF0000)
        (fun c j x hx => Chip.writeWin_same hx) (fun c j x i hi => Chip.writeWin_other hi) m.words c' hgood hk'
      rw [Chip.segment, Chip.finish_get, hread, List.getD_eq_getElem _ _ hk']
  case budget =>
    intro m s c' hm hs hgood h9
    have hlen : m.words.length = 9 := Chip.words_length_of_checks hm.1.2.2 rfl
    have h9' : m.word 9 < 2 ^ 8 := by omega
    refine ⟨_, mp_runs hm, ?_⟩
    dsimp only
    rw [Chip.mpTentBudget_taken hs hgood h9]
    refine ⟨Chip.finish_answered_of_grows (.of_eq ?_), ?_, fun k hk => ?_⟩
    · rw [Chip.setF_outs]
      exact Chip.foldl_keeps Chip.outs _ _ fun c p _ => Chip.writePitch_outs _ _ _
    · rw [Chip.finish_f]
      exact Chip.f_setF_eq (by decide) (by decide) h9'
    · rw [Chip.finish_f, Chip.f_setF_of_name_ne _ _ _ (by decide)]
      split
      next h =>
        obtain ⟨rfl, ht⟩ := h
        exact Chip.foldl_keeps (fun c => c.f Fld.budPitch_pitch [m.p, 7]) _ _ fun c p _ => Chip.writePitch_guarded ht
      next h =>
        have hk' : k < (m.words.take 8).length := by simp [hlen, hk]
        rw [Chip.foldl_mapIdx_reads (fun c j => c.f Fld.budPitch_pitch [m.p, j]) (fun x => x.toNat % 2 ^ 20)
          (ok := fun j _ => ¬ (j = 7 ∧ m.p ≠ 0)) (fun c j x hj => Chip.writePitch_same hj)
          (fun c j x i hi => Chip.writePitch_other hi) _ _ (fun _ _ => h) hk', List.getElem_take,
          List.getD_eq_getElem _ _ (by omega)]
        have hle := hgood k hk
        rw [List.getD_eq_getElem _ _ (by omega)] at hle
        exact Nat.mod_eq_of_lt (by omega)

end Sys2Proof.Machine
end

section
/-!
Weight sets (files 11 and 13 of spec/): the statements O21 and O22.
-/

namespace Sys2Proof.Machine

/-! ### What emptying a slot leaves (R353) -/

@[simp] theorem Chip.saveRecord_tents (c : Chip) (n s : Nat) : (c.saveRecord n s).tents = c.tents := rfl
@[simp] theorem Chip.queueRepair_tents (c : Chip) (i : Nat) (w : RepairFor) : (c.queueRepair i w).tents = c.tents := by
  unfold Chip.queueRepair
  dsimp only
  repeat' split
  all_goals simp
@[simp] theorem Chip.retireSite_tents (c : Chip) (n s : Nat) : (c.retireSite n s).tents = c.tents := by
  simp [Chip.retireSite]
@[simp] theorem Chip.wornOut_tents (c : Chip) (n s : Nat) : (c.wornOut n s).tents = c.tents := by
  unfold Chip.wornOut
  repeat' split
  all_goals simp
@[simp] theorem Chip.abortProg_tents (c : Chip) (n s : Nat) : (c.abortProg n s).tents = c.tents := by
  unfold Chip.abortProg Chip.unwait Chip.dropProg
  repeat' split
  all_goals simp
@[simp] theorem Chip.clearSite_tents (c : Chip) (i : Nat) : (c.clearSite i).tents = c.tents := by
  unfold Chip.clearSite
  dsimp only
  repeat' split
  all_goals simp
@[simp] theorem Chip.loadReply_tents (c : Chip) (t k st : Nat) : (c.loadReply t k st).tents = c.tents := by
  unfold Chip.loadReply
  dsimp only
  split <;> simp
@[simp] theorem Chip.dropFetches_tents (c : Chip) (t k : Nat) : (c.dropFetches t k).tents = c.tents := by
  simp [Chip.dropFetches]

/-- The first word written to a register of several is its word 0. -/
theorem Chip.get_putWords_first (c : Chip) (n : RegName) (idx : List Nat) (x : Word) (xs : List Word) :
    (c.putWords n idx (x :: xs)).get { name := n, idx := idx } = x := by
  rw [Chip.putWords, List.mapIdx_cons, List.foldl_cons]
  rw [Chip.foldl_keeps (fun c => c.get { name := n, idx := idx }) _ _ fun c p hp => ?_]
  · exact Chip.get_put_same ..
  · obtain ⟨j, hj, rfl⟩ := List.mem_mapIdx.mp hp
    exact Chip.get_put_other _ _ _ _ fun e => absurd (congrArg Reg.w e) (by simp)

/-- An emptied slot: its registers say EMPTY, and no Tent's record has changed. -/
theorem Chip.emptySlot_empty (c : Chip) (t k : Nat) : (c.emptySlot t k).slotState t k = 0 ∧ (c.emptySlot t k).tents = c.tents := by
  unfold Chip.emptySlot
  dsimp only
  generalize hd : ((List.foldl Chip.clearSite c (c.slotSites t k)).dropFetches t k).loadReply t k Status.setNotActive = d
  have htents : d.tents = c.tents := by
    rw [← hd]
    simp only [Chip.loadReply_tents, Chip.dropFetches_tents]
    exact Chip.foldl_keeps Chip.tents _ _ fun c i _ => c.clearSite_tents i
  refine ⟨?_, ?_⟩
  · rw [Chip.foldl_keeps (fun c => c.slotState t k) _ _ fun c m _ => Chip.answer_f ..]
    change bitsOf (Chip.get _ { name := .wsetSlot, idx := [t, k] }).toNat 2 0 = 0
    rw [Chip.get_putWords_first]
    simp [bitsOf]
    omega
  · rw [Chip.foldl_keeps Chip.tents _ _ fun c m _ => Chip.answer_tents ..]
    simpa using htents

/-! ### The pointer of a Tent (R352) -/

/-- The other slot is no longer ACTIVE. -/
def Chip.deactivate (c : Chip) (t q : Nat) : Chip :=
  if c.slotState t q = 4 then c.setF Fld.wsetSlot_state [t, q] 3 else c

theorem Chip.slotState_setF (c : Chip) (t q : Nat) {n : Nat} (h : n < 8) :
    (c.setF Fld.wsetSlot_state [t, q] n).slotState t q = n := Chip.f_setF_eq (by decide) (by decide) h

theorem Chip.slotState_setF_other (c : Chip) (t n : Nat) {q k : Nat} (h : k ≠ q) :
    (c.setF Fld.wsetSlot_state [t, q] n).slotState t k = c.slotState t k := Chip.f_setF_of_idx_ne _ (by simpa using h)

theorem Chip.slotState_deactivate (c : Chip) (t q : Nat) : (c.deactivate t q).slotState t q ≠ 4 := by
  unfold Chip.deactivate
  split
  · rw [Chip.slotState_setF _ _ _ (by decide)]
    decide
  next h => exact h

theorem Chip.slotState_deactivate_other (c : Chip) (t : Nat) {q k : Nat} (h : k ≠ q) :
    (c.deactivate t q).slotState t k = c.slotState t k := by
  unfold Chip.deactivate
  split
  · exact Chip.slotState_setF_other _ _ _ h
  · rfl

theorem Chip.slotState_put_active (c : Chip) (t t' k : Nat) (x : Word) :
    (c.put { name := .wsetActive, idx := [t] } x).slotState t' k = c.slotState t' k :=
  Chip.f_put_of_name_ne _ _ (by decide)

/-- The pointer moves to slot k of Tent t. -/
def Chip.pointAt (c : Chip) (t k : Nat) : Chip :=
  (((c.deactivate t (1 - k)).setF Fld.wsetSlot_state [t, k] 4).put { name := .wsetActive, idx := [t] } (BitVec.ofNat 64 k))

theorem Chip.pointAt_points (c : Chip) (t : Nat) {k : Nat} (h : k < 2) : (c.pointAt t k).slotState t k = 4 ∧
    (c.pointAt t k).f Fld.wsetActive_slot [t] = k ∧ (c.pointAt t k).slotState t (1 - k) ≠ 4 := by
  unfold Chip.pointAt
  refine ⟨?_, ?_, ?_⟩
  · rw [Chip.slotState_put_active, Chip.slotState_setF _ _ _ (by decide)]
  · change bitsOf (Chip.get _ { name := .wsetActive, idx := [t] }).toNat 1 0 = k
    rw [Chip.get_put_same]
    simp [bitsOf]
    omega
  · rw [Chip.slotState_put_active, Chip.slotState_setF_other _ _ _ (by omega)]
    exact c.slotState_deactivate t (1 - k)

theorem Chip.pointAt_outs (c : Chip) (t k : Nat) : (c.pointAt t k).outs = c.outs := by
  unfold Chip.pointAt Chip.deactivate
  split <;> simp

theorem Chip.wWsetActive_ready {c : Chip} {t : Nat} {x : Word} {k : Nat} (hx : bitsOf x.toNat 1 0 = k) (hk : k < 2)
    (hready : c.slotState t k = 3) (hpend : c.flag Fld.wsetSlot_releasePend [t, k] = false) :
    c.wWsetActive t x = (Status.ok, c.pointAt t k) := by
  unfold Chip.wWsetActive
  dsimp only
  rw [hx, if_neg (by omega), if_neg (by omega), if_neg (by simp [hready, hpend])]
  rfl

theorem Chip.wWsetActive_none {c : Chip} {t : Nat} {x : Word} (hx : bitsOf x.toNat 1 0 = 3) : c.wWsetActive t x =
    (Status.ok, ((c.deactivate t 0).deactivate t 1).put { name := .wsetActive, idx := [t] } 3) := by
  unfold Chip.wWsetActive
  dsimp only
  rw [hx, if_neg (by decide), if_pos rfl]
  rfl

theorem stray_of_lt {m : Cmd} {n : Nat} (h : m.p < 2 ^ n) : m.stray (2 ^ n - 1) = false := by
  simp [Cmd.stray, Nat.and_two_pow_sub_one_of_lt_two_pow h]

/-! ### Loading and releasing (R345 to R354) -/

/-- The shards that start next change the slot's record alone, and of it their states and tries. -/
theorem Chip.nextShards_eq (c : Chip) (t k : Nat) : ∃ a b, c.nextShards t k =
    c.setSlot t k { c.slotInfo t k with st := a, tries := b } := by
  have hfold : ∀ (js : List Nat) (f : WSlot → Nat → WSlot) (w : WSlot),
      (∀ w j, ∃ a b, f w j = { w with st := a, tries := b }) → ∃ a b, js.foldl f w = { w with st := a, tries := b } := by
    intro js f w hf
    induction js generalizing w with
    | nil => exact ⟨_, _, rfl⟩
    | cons j js ih =>
      obtain ⟨a, b, h⟩ := hf w j
      obtain ⟨a', b', h'⟩ := ih (f w j)
      exact ⟨a', b', by rw [List.foldl_cons, h', h]⟩
  unfold Chip.nextShards
  extract_lets w busy idle w'
  obtain ⟨a, b, h⟩ := hfold (idle.take (16 - busy)) _ w fun w j => ⟨_, _, rfl⟩
  exact ⟨a, b, congrArg _ h⟩

/-- A slot that takes a set is emptied of the one it held. -/
def Chip.vacate (c : Chip) (t k : Nat) : Chip :=
  if c.slotState t k = 3 ∨ c.slotState t k = 4 then c.emptySlot t k else c

theorem Chip.vacate_tent (c : Chip) (t k t' : Nat) : (c.vacate t k).tent t' = c.tent t' := by
  unfold Chip.vacate
  split
  · exact Chip.tent_of_tents (c.emptySlot_empty t k).2 t'
  · rfl

/-- The set of a good manifest takes its slot under epoch e. -/
def Chip.loadSet (c : Chip) (t k e : Nat) (w : WSlot) (xs : List Word) : Chip :=
  ((c.setTent t { c.tent t with epoch := e }).setSlot t k w).putWords .wsetSlot [t, k]
    (BitVec.ofNat 64 (e * 2 ^ 32 + 0xFF0001) :: xs)

/-- The first word a LOADING slot shows: its epoch, no failed shard, LOADING. -/
theorem Chip.get_loadSet (c : Chip) (t k e : Nat) (w : WSlot) (xs : List Word) :
    (c.loadSet t k e w xs).get { name := .wsetSlot, idx := [t, k] } = BitVec.ofNat 64 (e * 2 ^ 32 + 0xFF0001) :=
  Chip.get_putWords_first ..

/-- What starting to load leaves: LOADING under the new epoch, with the set's shards. -/
theorem Chip.loadSet_loads {c : Chip} {m : Cmd} {t k e : Nat} {w : WSlot} {xs : List Word} (he : e < 2 ^ 32) {d : Chip}
    (hd : d = ((c.loadSet t k e w xs).accept 0x0301 m).nextShards t k) : d.slotState t k = 1 ∧ d.slotEpoch t k = e ∧
      (d.tent t).epoch = e ∧ (d.slotInfo t k).shards = w.shards ∧ (d.slotInfo t k).cmd = w.cmd := by
  obtain ⟨a, b, heq⟩ := ((c.loadSet t k e w xs).accept 0x0301 m).nextShards_eq t k
  have hslot : ((c.loadSet t k e w xs).accept 0x0301 m).slotInfo t k = w := by
    simp [Chip.slotInfo, Chip.loadSet, Chip.putWords_slots, Chip.setSlot]
  have hword : d.get { name := .wsetSlot, idx := [t, k] } = BitVec.ofNat 64 (e * 2 ^ 32 + 0xFF0001) := by
    rw [hd, heq, Chip.setSlot_get, Chip.accept_get, Chip.get_loadSet]
  have hnat : (BitVec.ofNat 64 (e * 2 ^ 32 + 0xFF0001)).toNat = e * 2 ^ 32 + 0xFF0001 :=
    (BitVec.toNat_ofNat ..).trans (Nat.mod_eq_of_lt (by omega))
  refine ⟨?_, ?_, ?_, ?_, ?_⟩
  · change bitsOf (Chip.get d { name := .wsetSlot, idx := [t, k] }).toNat 2 0 = 1
    rw [hword, hnat]
    simp [bitsOf]
    omega
  · change bitsOf (Chip.get d { name := .wsetSlot, idx := [t, k] }).toNat 63 32 = e
    rw [hword, hnat]
    simp [bitsOf]
    omega
  · rw [hd, heq]
    simp [Chip.tent, Chip.loadSet, Chip.putWords_tents, Chip.setTent]
  · rw [hd, heq, hslot]
    simp [Chip.slotInfo, Chip.setSlot]
  · rw [hd, heq, hslot]
    simp [Chip.slotInfo, Chip.setSlot]

theorem nextEpoch_lt (e : Nat) : nextEpoch e < 2 ^ 32 := by
  unfold nextEpoch
  split <;> omega

/-- A command whose operands pass goes by what its manifest is found to be. -/
theorem Chip.mpWsetLoad_checked {c : Chip} {m : Cmd} {k role : Nat}
    (hs : m.stray (2 ^ 48 - 1) = false) (hres : bitsOf (m.word 1) 63 35 = 0) (hk : k = bitsOf (m.word 1) 32 32)
    (hr : role = bitsOf (m.word 1) 34 33) (hr3 : role ≠ 3) (h2 : m.word 2 < 2 ^ 48) (h3 : m.word 3 < 2 ^ 48)
    (hpriv : role = 0 ∨ c.flag Fld.tentCtl_priv [m.tent] = true) (htakes : c.slotTakes m.tent k = true)
    (hadm : c.admits m.tent .r m.p (bitsOf (m.word 1) 31 0) = true)
    (htier : m.word 3 = 0 ∨ (c.admits m.tent .r (m.word 2) (m.word 3) = true ∧
      c.admits m.tent .w (m.word 2) (m.word 3) = true))
    (hvales : ∀ v, v < 12 → bitsOf (m.word (v + 4)) 63 48 ≠ 0 →
      c.admits m.tent .r (bitsOf (m.word (v + 4)) 47 0) (bitsOf (m.word (v + 4)) 63 48 * 65536) = true ∧
      c.admits m.tent .w (bitsOf (m.word (v + 4)) 47 0) (bitsOf (m.word (v + 4)) 63 48 * 65536) = true) :
    (∀ e, c.checkManifest m.tent m.p (bitsOf (m.word 1) 31 0) (m.word 2) (m.word 3)
        ((List.range 12).map fun v => m.word (v + 4)) = .error e → c.mpWsetLoad m = c.finish 0x0301 m e) ∧
      ∀ mf hash, c.checkManifest m.tent m.p (bitsOf (m.word 1) 31 0) (m.word 2) (m.word 3)
        ((List.range 12).map fun v => m.word (v + 4)) = .ok (mf, hash) → ∃ w xs, w.shards = mf.shards ∧ w.cmd = some m ∧
          c.mpWsetLoad m = (((c.vacate m.tent k).loadSet m.tent k (nextEpoch ((c.vacate m.tent k).tent m.tent).epoch) w xs).accept
            0x0301 m).nextShards m.tent k := by
  have h63 : ∀ x, x < 2 ^ 48 → bitsOf x 63 48 = 0 ∧ bitsOf x 47 0 = x := by
    intro x hx
    simp only [bitsOf]
    omega
  have hused : ((((List.range 12).map fun v => m.word (v + 4)).filter fun w => bitsOf w 63 48 != 0).all fun w =>
      c.admits m.tent .r (bitsOf w 47 0) (bitsOf w 63 48 * 65536) &&
        c.admits m.tent .w (bitsOf w 47 0) (bitsOf w 63 48 * 65536)) = true := by
    simp only [List.all_filter, List.all_map, List.all_eq_true, List.mem_range, Function.comp_apply, Bool.or_eq_true,
      Bool.and_eq_true, Bool.not_eq_true', bne_eq_false_iff_eq]
    exact fun v hv => (eq_or_ne _ _).imp_right (hvales v hv)
  have hbad : ¬ (m.stray (2 ^ 48 - 1) = true ∨ bitsOf (m.word 1) 63 35 ≠ 0 ∨ role = 3 ∨ bitsOf (m.word 2) 63 48 ≠ 0 ∨
      bitsOf (m.word 3) 63 48 ≠ 0) := by
    rw [hs]
    simp [hres, hr3, h63 _ h2, h63 _ h3]
  have hden : ¬ ((role ≠ 0 ∧ ¬ c.flag Fld.tentCtl_priv [m.tent] = true) ∨ ¬ c.slotTakes m.tent k = true ∨
      ¬ c.admits m.tent .r m.p (bitsOf (m.word 1) 31 0) = true ∨ (m.word 3 ≠ 0 ∧
        ¬ (c.admits m.tent .r (m.word 2) (m.word 3) && c.admits m.tent .w (m.word 2) (m.word 3)) = true) ∨
      ¬ ((((List.range 12).map fun v => m.word (v + 4)).filter fun w => bitsOf w 63 48 != 0).all fun w =>
        c.admits m.tent .r (bitsOf w 47 0) (bitsOf w 63 48 * 65536) &&
          c.admits m.tent .w (bitsOf w 47 0) (bitsOf w 63 48 * 65536)) = true) := by
    rintro (⟨hne, hnot⟩ | hnot | hnot | ⟨hne, hnot⟩ | hnot)
    · exact hnot (hpriv.resolve_left hne)
    · exact hnot htakes
    · exact hnot hadm
    · exact hnot (Bool.and_eq_true_iff.mpr (htier.resolve_left hne))
    · exact hnot hused
  unfold Chip.mpWsetLoad
  dsimp only
  rw [(h63 _ h2).2, (h63 _ h3).2, ← hk, ← hr, if_neg hbad, if_neg hden]
  refine ⟨fun e he => ?_, fun mf hash he => ?_⟩
  · rw [he]
  · rw [he]
    exact ⟨_, _, rfl, rfl, rfl⟩

theorem Chip.mpWsetRelease_taken {c : Chip} {m : Cmd} {w : WSlot} (hp : m.p < 2) (hactive : c.f Fld.wsetActive_slot [m.tent] ≠ m.p)
    (hst : c.slotState m.tent m.p ≠ 0)
    (hw : w = { c.slotInfo m.tent m.p with releases := (c.slotInfo m.tent m.p).releases ++ [m] }) :
    c.mpWsetRelease m = if ((c.accept 0x0303 m).setSlot m.tent m.p w).inUse m.tent m.p then
      ((c.accept 0x0303 m).setSlot m.tent m.p w).setF Fld.wsetSlot_releasePend [m.tent, m.p] 1
      else ((c.accept 0x0303 m).setSlot m.tent m.p w).emptySlot m.tent m.p := by
  have hs : m.stray 1 = false := stray_of_lt (n := 1) hp
  have hslots : (c.accept 0x0303 m).slotInfo m.tent m.p = c.slotInfo m.tent m.p := by simp [Chip.slotInfo]
  unfold Chip.mpWsetRelease
  dsimp only
  rw [hs, if_neg Bool.false_ne_true, if_neg hactive, if_neg hst, hslots, ← hw]

/-- Settles O21: loading, the pointer and releasing. -/
theorem weightSetCommandsAct : Obligations.WeightSetCommandsAct := by
  unfold Obligations.WeightSetCommandsAct
  dsimp only [exec]
  refine ⟨?load, ?point, ?none, ?active, ?release, ?complete⟩
  case load =>
    intro m s c' k role hm hs hres hk hr hr3 h2 h3 hpriv htakes hadm htier hvales
    obtain ⟨herr, hok⟩ := Chip.mpWsetLoad_checked hs hres hk hr hr3 h2 h3 hpriv htakes hadm htier hvales
    refine ⟨_, mp_runs hm, ?_⟩
    cases hcheck : c'.checkManifest m.tent m.p (bitsOf (m.word 1) 31 0) (m.word 2) (m.word 3)
        ((List.range 12).map fun v => m.word (v + 4)) with
    | error e =>
      dsimp only
      rw [herr e hcheck]
      exact Chip.finish_answered ..
    | ok r =>
      obtain ⟨mf, hash⟩ := r
      obtain ⟨w, xs, hshards, hcmd, heq⟩ := hok mf hash hcheck
      dsimp only
      rw [← hshards, ← hcmd, ← Chip.vacate_tent c' m.tent k m.tent]
      exact Chip.loadSet_loads (m := m) (nextEpoch_lt _) heq
  case point =>
    intro m s c' hm hp hready hpend
    have hbits : bitsOf m.param.toNat 1 0 = m.p := by
      simp only [bitsOf, Cmd.p] at hp ⊢
      omega
    have hs : m.stray 3 = false := stray_of_lt (n := 2) (by omega)
    refine ⟨_, mp_runs hm, ?_⟩
    dsimp only
    rw [Chip.mpWsetPoint, hs, if_neg Bool.false_ne_true, Chip.wWsetActive_ready hbits hp hready hpend]
    obtain ⟨hactive, hslot, hother⟩ := c'.pointAt_points m.tent hp
    exact ⟨(Chip.finish_f ..).trans hactive, (Chip.finish_f ..).trans hslot, fun h => hother ((Chip.finish_f ..).symm.trans h),
      Chip.finish_answered_of_grows (.of_eq (Chip.pointAt_outs ..))⟩
  case none =>
    intro w t x s hadm hx
    refine ⟨_, reg_takes hadm (Chip.wWsetActive_none hx), ?_, ?_, ?_⟩
    · rw [Chip.wReply_f]
      change bitsOf (Chip.get _ { name := .wsetActive, idx := [t] }).toNat 1 0 = 3
      rw [Chip.get_put_same]
      rfl
    · rw [Chip.slotState, Chip.wReply_f, ← Chip.slotState, Chip.slotState_put_active, Chip.slotState_deactivate_other _ _ (by decide)]
      exact s.chip.slotState_deactivate t 0
    · rw [Chip.slotState, Chip.wReply_f, ← Chip.slotState, Chip.slotState_put_active]
      exact Chip.slotState_deactivate _ t 1
  case active =>
    intro w t x k s hadm hx hk hready hpend
    refine ⟨_, reg_takes hadm (Chip.wWsetActive_ready hx hk hready hpend), ?_⟩
    simp only [Chip.slotState, Chip.wReply_f]
    exact s.chip.pointAt_points t hk
  case release =>
    intro m s c' hm hp hactive hst
    refine ⟨_, _, _, rfl, rfl, mp_runs hm, fun hfree => ?_, fun hused => ?_⟩
    · rw [Chip.mpWsetRelease_taken hp hactive hst rfl, if_neg (by rw [hfree]; exact Bool.false_ne_true)]
      exact (Chip.emptySlot_empty ..).1
    · rw [Chip.mpWsetRelease_taken hp hactive hst rfl, if_pos hused]
      refine ⟨Chip.f_setF_eq (by decide) (by decide) (by decide), ?_⟩
      rw [Chip.slotState, Chip.f_setF_disjoint (by decide) (by decide) (by decide), Chip.setSlot_f, Chip.accept_f]
      rfl
  case complete =>
    intro t k s ht hk hpend hfree
    refine ⟨_, units_run (by simp [slotOk, ht, hk]), ?_⟩
    rw [Chip.releaseComplete, if_pos ⟨hpend, by simp [hfree]⟩]
    exact (s.chip.emptySlot_empty t k).1

/-! ### Shards, host reads and fingerprints (R355 to R366) -/

@[simp] theorem Chip.out_reads (c : Chip) (x : Out) : (c.out x).reads = c.reads := by
  obtain ⟨o, l, h⟩ := c.out_eq x
  rw [h]

/-- A free tag is found for a host read: fewer than 64 are out. -/
theorem freeTag_fresh {rs : List HostRead} (h : rs.length < 64) :
    ∀ r, r ∈ rs → r.tag ≠ ((List.range 65).find? fun x => !rs.any fun r => r.tag == x).getD 0 := by
  cases hf : (List.range 65).find? fun x => !rs.any fun r => r.tag == x with
  | some x =>
    intro r hr heq
    have hx := List.find?_some hf
    have hany : (rs.any fun r => r.tag == x) = true := List.any_eq_true.mpr ⟨r, hr, by simpa using heq⟩
    rw [hany] at hx
    exact absurd hx (by decide)
  | none =>
    have hall : List.range 65 ⊆ rs.map fun r => r.tag := by
      intro x hx
      have hx' := List.find?_eq_none.mp hf x hx
      obtain ⟨r, hr, he⟩ := List.any_eq_true.mp (by simpa using hx' : (rs.any fun r => r.tag == x) = true)
      exact List.mem_map.mpr ⟨r, hr, by simpa using he⟩
    have hlen := (List.nodup_range.subperm hall).length_le
    rw [List.length_range, List.length_map] at hlen
    omega

theorem Chip.hostReadRequest_taken {c : Chip} {t k j off : Nat} {sh : Shard} (hsh : (c.slotInfo t k).shards[j]? = some sh)
    (hst : c.slotState t k = 1) (hf : (c.slotInfo t k).shardSt j = .fetch) (hhost : sh.host = true) (hoff : off < sh.len)
    (hal : off % 4096 = 0) (hnew : ∀ p, p ∈ Tab.get (c.slotInfo t k).parts j [] → p.1 ≠ off)
    (hreads : ∀ r, r ∈ c.reads → ¬ (r.tent = t ∧ r.slot = k ∧ r.shard = j ∧ r.off = off)) (hlen : c.reads.length < 64) :
    c.hostReadRequest t k j off = ({ c with reads := c.reads ++
      [⟨((List.range 65).find? fun x => !c.reads.any fun r => r.tag == x).getD 0, t, sh.src + off, min 4096 (sh.len - off),
        k, j, off⟩] } : Chip).out (.hostRead t (((List.range 65).find? fun x => !c.reads.any fun r => r.tag == x).getD 0)
          (sh.src + off) (min 4096 (sh.len - off))) := by
  have hhave : ((Tab.get (c.slotInfo t k).parts j []).any fun p => p.1 == off) = false :=
    List.any_eq_false.mpr fun p hp => by simpa using hnew p hp
  have hasked : (c.reads.any fun r => r.tent == t && r.slot == k && r.shard == j && r.off == off) = false :=
    List.any_eq_false.mpr fun r hr => by simpa [and_assoc] using hreads r hr
  unfold Chip.hostReadRequest
  dsimp only
  rw [hsh]
  dsimp only
  rw [hhave, hasked, if_neg (by simp [hst, hf, hhost, hal]; omega)]

theorem Chip.hostReadResponse_taken {c : Chip} {tag : Nat} {data : List Byte} {r : HostRead}
    (hr : c.reads.find? (fun r => r.tag == tag) = some r) (hlen : data.length = r.len) :
    c.hostReadResponse tag true data = ({ c with reads := c.reads.filter fun x => x.tag != tag } : Chip).setSlot r.tent r.slot
      { c.slotInfo r.tent r.slot with
        parts := Tab.set (c.slotInfo r.tent r.slot).parts r.shard
          ((r.off, data) :: Tab.get (c.slotInfo r.tent r.slot).parts r.shard []) } := by
  unfold Chip.hostReadResponse
  rw [hr]
  dsimp only
  rw [if_neg (by simp [hlen])]
  rfl

/-- Settles O22: each event of a shard. -/
theorem shardsArePlaced : Obligations.ShardsArePlaced := by
  unfold Obligations.ShardsArePlaced
  dsimp only [exec]
  refine ⟨?arrival, ?timeout, ?expire, ?request, ?response, ?readTimeout, ?verify⟩
  case arrival =>
    rintro t k j s w sh bs us q c1 c2 c3 c4 ht hk rfl hsh hst hbs hhash hdec hsite hadm rfl rfl rfl
    refine ⟨fun hne => (units_run (by simp [slotOk, ht, hk])).trans ?_, fun i h0 hi => (units_run (by simp [slotOk, ht, hk])).trans ?_⟩
    · have hgone : (sh.target == 0) = false := by simpa using hne
      obtain ⟨n, hn⟩ := Nat.exists_eq_succ_of_ne_zero hne
      unfold Chip.shardArrival
      simp only [hsh, hst, decide_true, hbs, hhash, ne_eq, not_true_eq_false, if_false, hdec, hgone, Bool.false_and,
        Bool.false_eq_true, hadm]
      rw [hn] <;> rfl
    · obtain ⟨i', hi', hvalid⟩ := hsite h0
      obtain rfl := Option.some.inj (hi'.symm.trans hi)
      unfold Chip.shardArrival
      simp only [hsh, hst, decide_true, hbs, hhash, ne_eq, not_true_eq_false, if_false, hdec, hi, hvalid, Bool.not_true,
        Bool.and_false, Bool.false_eq_true, hadm, h0] <;> rfl
  case timeout =>
    intro t k j s ht hk hst hsh
    refine (units_run (by simp [slotOk, ht, hk])).trans ?_
    rw [Chip.shardTimeout, if_pos ⟨hst, hsh⟩]
  case expire =>
    intro t k j s ht hk hst hsh
    refine ⟨_, units_run (by simp [slotOk, ht, hk]), ?_⟩
    rw [Chip.bcastExpire, if_pos ⟨hst, hsh⟩]
    refine ⟨?_, rfl, rfl⟩
    simp [WSlot.shardSt, Chip.slotInfo, Chip.setSlot]
  case request =>
    intro t k j off s sh ht hk hsh hst hf hhost hoff hal hnew hreads hlen
    refine ⟨_, ((List.range 65).find? fun x => !s.chip.reads.any fun r => r.tag == x).getD 0,
      units_run (by simp [slotOk, ht, hk]), ?_⟩
    dsimp only
    rw [Chip.hostReadRequest_taken hsh hst hf hhost hoff hal hnew hreads hlen]
    exact ⟨Chip.out_reads .., freeTag_fresh hlen, Chip.out_sent ..⟩
  case response =>
    intro tag data r s hr hlen
    refine ⟨_, rfl, ?_⟩
    dsimp only
    rw [Chip.hostReadResponse_taken hr hlen]
    refine ⟨fun x hx => ?_, ?_⟩
    · simpa using (List.mem_filter.mp hx).2
    · simp [Chip.slotInfo, Chip.setSlot]
  case readTimeout =>
    intro tag r s hr
    rw [execHostReadTimeout, onChip, Chip.hostReadTimeout, hr]
  case verify =>
    intro t k s tol vs i nz rest c1 c2 ht hk hst hfp htodo hadm hsite hlen
    refine ⟨_, rfl, (units_run (by simp [slotOk, ht, hk])).trans ?_⟩
    unfold Chip.fingerVerify
    have hdone : ((c2.setSlot t k { c2.slotInfo t k with passed := (c2.slotInfo t k).passed ++ [i] }).slotInfo t k).passed.length =
        (s.chip.slotInfo t k).sites.length := by
      rw [← hlen]
      simp [Chip.slotInfo, Chip.setSlot]
    simp only [hfp, hst, decide_true, htodo, List.zip_cons_cons, List.zip_nil_left, List.foldl_cons, List.foldl_nil, hadm,
      not_true_eq_false, if_false, hsite, if_true, hdone]

end Sys2Proof.Machine
end

section
/-!
Jobs, images and the host's accesses (files 4, 10, 12 and 13 of spec/): the statements O23 and O24.
-/

namespace Sys2Proof.Machine

/-! ### Jobs join their queues (R107, R329, R390) -/

theorem eq_pair_of_fst {α β : Type} {p : α × β} {a : α} (h : p.1 = a) : p = (a, p.2) := Prod.ext h rfl

/-- A Dale job that is taken is the last of its Dale's queue. -/
theorem Chip.enqueueDale_ok {c d : Chip} {j : DaleJob} (h : c.enqueueDale j = (Status.ok, d)) :
    d = (c.setDale (Desc.ofWords j.desc).index { c.dale (Desc.ofWords j.desc).index with
      queue := (c.dale (Desc.ofWords j.desc).index).queue ++ [j] }).syncDepth (Desc.ofWords j.desc).index := by
  unfold Chip.enqueueDale at h
  dsimp only at h
  iterate 8
    split at h
    · exact absurd (Prod.mk.inj h).1 (by decide)
  exact (Prod.mk.inj h).2.symm

theorem Chip.syncDepth_dale (c : Chip) (k q : Nat) : (c.syncDepth k).dale q = c.dale q := rfl

theorem Chip.hwJobDale_taken {c : Chip} {m : Cmd} {j : DaleJob} (hal : m.p % 32 = 0) (hc : m.p ≠ 0 ∨ m.msgcpl = true)
    (hj : j = (⟨m.tent, m.tag, m.msgcpl, if m.p = 0 then none else some m.p, m.words⟩ : DaleJob))
    (hok : (c.enqueueDale j).1 = Status.ok) : c.hwJobDale m = (c.enqueueDale j).2.finish 0x0401 m Status.ok := by
  unfold Chip.hwJobDale
  dsimp only
  rw [← hj, hok, if_neg (by rintro (h | ⟨h, h'⟩) <;> simp_all)]

theorem Chip.requestStart_taken {c : Chip} {t i : Nat} {st : Start} (hi : i < 27648) (hpc : st.pc % 4 = 0)
    (hlt : st.pc < 2 ^ 48) (ht : c.siteTent i = t) (hf : c.fetchOk i st.pc = true)
    (hd : (c.veld (i / 768)).drained = false) : c.requestStart t i st = c.spawn i st := by
  rw [Chip.requestStart, if_neg (by omega), if_neg (by simp [ht, hf, hd]; omega)]

theorem Chip.spawn_free {c : Chip} {i : Nat} {st : Start} {h : Hart} (hf : c.freeHart i = some h)
    (hq : (c.core i).spawnq = []) : c.spawn i st = (Status.ok, c.startThread h st) := by
  unfold Chip.spawn
  dsimp only
  rw [hf, hq]

theorem Chip.spawn_queued {c : Chip} {i : Nat} {st : Start} (hf : c.freeHart i = none) (hq : (c.core i).spawnq.length < 8) :
    c.spawn i st = (Status.ok, c.setCore i { c.core i with spawnq := (c.core i).spawnq ++ [st] }) := by
  unfold Chip.spawn
  dsimp only
  rw [hf]
  dsimp only
  rw [if_neg (by omega)]

/-- An image whose sections, addresses and signature pass is loaded, if its header is right. -/
theorem imageLoad_eq {c : Chip} {m : Cmd} {bs : List Byte} {ss rs : List Section} (hp : m.p < 2 ^ 48)
    (h1 : m.word 1 < 2 ^ 32) (h4 : m.word 4 < 4) (hadm : c.admits m.tent .r m.p (m.word 1) = true)
    (hbs : bs = c.bytes m.p (m.word 1)) (hss : sectionsOf (leNat ((bs.drop 6).take 2)) (bs.drop 64) = some ss)
    (hall : ss.all (fun x => c.sectionOk m.tent x) = true)
    (hrs : c.relocateAll m.tent (m.word 2) (m.word 3) ss = some rs)
    (hsig : bitOf (m.word 4) 0 = true → (c.slotInfo m.tent (bitsOf (m.word 4) 1 1)).images.contains (Config.sha3 bs) = true)
    (hmem : (rs.filter fun x => x.typ == 1).all (fun x => inMemory (m.word 2 + x.off) x.pay.length &&
      c.admits m.tent .w (m.word 2 + x.off) x.pay.length) = true) :
    c.mpImageLoad m = if imageHeader bs = true then
      (rs.foldl (fun c x => c.loadSection m.tent (m.word 2) x)
        (c.setTent m.tent { c.tent m.tent with images := (c.tent m.tent).images ++ [Config.sha3 bs] })).acceptFinish
          0x0304 m Status.ok
      else c.finish 0x0304 m Status.badParam := by
  have hres : bitsOf (m.word 4) 63 2 = 0 := by
    simp only [bitsOf]
    omega
  have hmem' : (rs.filter fun x => x.typ == 1).all (fun x => decide (inMemory (m.word 2 + x.off) x.pay.length = true ∧
      c.admits m.tent .w (m.word 2 + x.off) x.pay.length = true)) = true := by
    simpa only [Bool.decide_and, Bool.decide_eq_true] using hmem
  unfold Chip.mpImageLoad
  dsimp only
  rw [stray_of_lt hp, ← hbs, if_neg (by simp [hres]; omega), if_neg (by simp [hadm])]
  cases hh : imageHeader bs with
  | false => rw [if_pos (by simp), if_neg (by simp)]
  | true =>
    rw [if_neg (by simp), if_pos rfl, hss]
    dsimp only
    rw [hall, if_neg (by simp), hrs]
    dsimp only
    rw [hmem', if_neg (by rintro ⟨h, h'⟩; exact h' (hsig h)), if_neg (by simp)]

/-- Settles O23: each command joins its queue. -/
theorem jobCommandsEnqueue : Obligations.JobCommandsEnqueue := by
  unfold Obligations.JobCommandsEnqueue
  dsimp only [exec]
  refine ⟨?dale, ?coder, ?launch, ?image⟩
  case dale =>
    intro m s j k hm hal hc hj hk hok
    have hdesc : j.desc = m.words := by rw [hj]
    refine ⟨_, hw_runs hm, ?_⟩
    dsimp only
    rw [Chip.hwJobDale_taken hal hc hj hok, Chip.enqueueDale_ok (eq_pair_of_fst hok), hdesc, ← hk]
    refine ⟨?_, ?_, ?_, Chip.finish_answered_of_grows (.of_eq rfl)⟩
    · simp [Chip.dale, Chip.syncDepth, Chip.setDale]
    · simp [Chip.dale, Chip.syncDepth, Chip.setDale]
    · simp [Chip.syncDepth]
  case coder =>
    intro m s j hm hp hj hok
    have hs : m.stray 0 = false := by simp [Cmd.stray, Cmd.p, hp]
    refine ⟨_, hw_runs hm, ?_⟩
    dsimp only
    have htaken : s.chip.hwJobCoder m = (s.chip.enqueueCoder j).2.finish 0x0402 m Status.ok := by
      rw [Chip.hwJobCoder, hs, if_neg Bool.false_ne_true, ← hj]
      dsimp only
      rw [hok]
    rw [htaken, Chip.enqueueCoder_ok (eq_pair_of_fst hok)]
    exact ⟨Chip.finish_coderJobs .., Chip.finish_mem .., Chip.finish_answered_of_grows (.of_eq rfl)⟩
  case launch =>
    intro m s st hm hst hi hpc hlt ht hf hd
    have hreq := Chip.requestStart_taken hi hpc hlt ht hf hd
    refine ⟨fun h hh hq => ⟨_, hw_runs hm, ?_⟩, fun hn hq => ⟨_, hw_runs hm, ?_⟩⟩
    · dsimp only
      rw [Chip.hwJobLaunch, ← hst, hreq, Chip.spawn_free hh hq]
      exact ⟨Chip.finish_cores .., Chip.finish_answered_of_grows (.of_eq rfl)⟩
    · dsimp only
      rw [Chip.hwJobLaunch, ← hst, hreq, Chip.spawn_queued hn hq]
      refine ⟨?_, Chip.finish_answered_of_grows (.of_eq rfl)⟩
      simp [Chip.core, Chip.setCore]
  case image =>
    rintro m s c' bs ss rs c2 hm hp h1 h4 hadm hbs hss hall hrs hsig hmem rfl
    exact (mp_runs hm).trans (by rw [imageLoad_eq hp h1 h4 hadm hbs hss hall hrs hsig hmem])

/-! ### The host's accesses (R413, R416 to R418) -/

@[simp] theorem Chip.readWord_regs (c : Chip) (r : Reg) : (c.readWord r).2.regs = c.regs := by
  unfold Chip.readWord
  dsimp only
  repeat' split
  all_goals rfl

/-- REG_WRITE of one register, all its words. -/
theorem Chip.hwRegWrite_one {c c1 : Chip} {m : Cmd} {r : Reg} (hp : regParamBad m.p = false)
    (hlen : m.words.length = regCount m.p) (hr : regAt (bitsOf m.p 47 0) = some r) (hw : r.w = 0)
    (hwords : m.words.length = r.name.desc.words) (hm : c.mayWrite m.tent r (m.words.headD 0) = true)
    (hset : c.regSet r m.words = (Status.ok, c1)) :
    c.hwRegWrite m = c1.finish 0x0E02 m Status.ok m.words.length := by
  have hne : m.words ≠ [] := by
    intro h
    rw [h, regCount] at hlen
    simp at hlen
  have hat : c.regWriteAt m.tent (bitsOf m.p 47 0) m.words = (Status.ok, m.words.length, c1) := by
    rw [Chip.regWriteAt, hr]
    dsimp only
    rw [← hwords, List.take_length, hset, if_neg (by simp [hw]), if_neg (by simpa using hm), if_pos rfl]
  simp [Chip.hwRegWrite, hp, ← hlen, Chip.regWrites, hne, hat]

/-- What lies in memory has an address of 48 bits, below the register space. -/
theorem lt_of_inMemory {a n : Nat} (h : inMemory a n = true) : a + n ≤ 0x820004000000 := by
  simp only [inMemory, memRanges, List.any_cons, List.any_nil, Bool.or_false, Bool.or_eq_true, decide_eq_true_eq] at h
  omega

theorem lt_regBase_of_inMemory {a n : Nat} (h : inMemory a n = true) : a < regBase := by
  have hle := lt_of_inMemory h
  unfold regBase
  omega

/-- An access to memory that waits for nothing is served where its grains are admitted. -/
theorem Chip.hwMem_served {c c1 : Chip} {op : Nat} {m : Cmd} (h0 : 0 < m.word 1) (hn : m.word 1 ≤ 4096)
    (hlen : op = 0x0E04 → m.words.length = 1 + (m.word 1 + 7) / 8) (hin : inMemory m.p (m.word 1) = true)
    (hadm : c.admits m.tent (if op == 0x0E04 then .w else .r) m.p (m.word 1) = true)
    (hfree : ∀ x, x ∈ c.passes.serves →
      Serve.after { who := .cmd op m, addr := m.p, len := m.word 1, tent := m.tent } x = false)
    (hgrains : c.admitAll m.tent (memAccess m.p (m.word 1)) = (c1, true)) :
    c.hwMem op m = c1.doServe { who := .cmd op m, addr := m.p, len := m.word 1, tent := m.tent } := by
  have hlt := lt_of_inMemory hin
  have hany : (c.passes.serves.any
      (Serve.after { who := .cmd op m, addr := m.p, len := m.word 1, tent := m.tent })) = false :=
    List.any_eq_false.mpr fun x hx => by simp [hfree x hx]
  have hgood : ¬ (2 ^ 48 ≤ m.p ∨ m.word 1 = 0 ∨ 4096 < m.word 1 ∨
      ((op == 0x0E04) = true ∧ m.words.length ≠ 1 + (m.word 1 + 7) / 8) ∨
      ¬ (inMemory m.p (m.word 1) = true ∨ inExports m.p (m.word 1) = true)) := by
    rintro (h | h | h | ⟨h, h'⟩ | h)
    · omega
    · omega
    · omega
    · exact h' (hlen (by simpa using h))
    · exact h (.inl hin)
  unfold Chip.hwMem Chip.serve
  dsimp only
  rw [if_neg hgood, hadm, if_neg (by simp), if_pos hin, hany, if_neg Bool.false_ne_true, hgrains]
  rfl

theorem Chip.doServe_read {c : Chip} {m : Cmd} {a n : Nat} (h : a < regBase) :
    c.doServe { who := .cmd 0x0E03 m, addr := a, len := n, tent := m.tent } =
      c.finish 0x0E03 m Status.ok 0 (wordsOfBytes ((n + 7) / 8) (c.bytes a n)) := by
  unfold Chip.doServe Chip.homeLoad
  dsimp only
  rw [if_pos rfl, if_neg (Nat.not_le.mpr h)]

theorem Chip.doServe_write {c : Chip} {m : Cmd} {a n : Nat} (h : a < regBase) :
    c.doServe { who := .cmd 0x0E04 m, addr := a, len := n, tent := m.tent } =
      (c.store a (((m.words.drop 1).flatMap fun w => leBytes 8 w.toNat).take n)).finish 0x0E04 m Status.ok := by
  unfold Chip.doServe Chip.homeStore
  dsimp only
  rw [if_neg (by decide), if_neg (Nat.not_le.mpr h)]

/-- Settles O24: each access of the host. -/
theorem hostAccessesComplete : Obligations.HostAccessesComplete := by
  unfold Obligations.HostAccessesComplete
  refine ⟨?regRead, ?regWrite, ?memRead, ?memWrite, ?registerWrite, ?ticket⟩
  case regRead =>
    intro m s r hm hp hal hr hmay
    refine ⟨_, exec_regRead_one m s r hm hp hal hr hmay, Chip.finish_answered .., ?_, ?_⟩ <;> simp
  case regWrite =>
    dsimp only [exec]
    intro m s r c1 hm hp hlen hr hw hwords hmay hset
    exact ⟨_, (hw_runs hm).trans (by rw [Chip.hwRegWrite_one hp hlen hr hw hwords hmay hset]), rfl⟩
  case memRead =>
    dsimp only [exec]
    rintro m s a n c1 hm rfl rfl h0 hn hin hadm hfree hgrains
    refine ⟨_, hw_runs hm, ?_⟩
    dsimp only
    rw [Chip.hwMem_served (op := 0x0E03) h0 hn (fun h => absurd h (by decide)) hin hadm hfree hgrains, Chip.doServe_read (lt_regBase_of_inMemory hin)]
    exact ⟨Chip.finish_mem .., Chip.finish_regs .., Chip.finish_answered ..⟩
  case memWrite =>
    dsimp only [exec]
    rintro m s a n c1 hm rfl rfl h0 hn hlen hin hadm hfree hgrains
    refine ⟨_, hw_runs hm, ?_⟩
    dsimp only
    rw [Chip.hwMem_served (op := 0x0E04) h0 hn (fun _ => hlen) hin hadm hfree hgrains, Chip.doServe_write (lt_regBase_of_inMemory hin)]
    exact ⟨(Chip.finish_regs ..).trans (Chip.store_regs ..), Chip.finish_mem ..,
      Chip.finish_answered_of_grows (.of_eq (Chip.store_outs ..))⟩
  case registerWrite =>
    intro w a xs s r c1 hw hlo hhi hp hr hw0 hwords hmay hset
    rw [exec_registerWrite w a xs s hw hp hlo hhi]
    have hat : s.chip.regWriteAt (s.chip.writerTent w) a xs = (Status.ok, xs.length, c1) := by
      rw [Chip.regWriteAt, hr]
      dsimp only
      rw [← hwords, List.take_length, hset, if_neg (by simp [hw0]), if_neg (by simpa using hmay), if_pos rfl]
    rw [Chip.registerWrite, hat]
  case ticket =>
    intro w a x s r hr htc hne hadm hset hcount hmark
    have hclear : s.chip.wFlag r x = (Status.ok, s.chip.put r 0) := by
      rw [Chip.wFlag, Chip.ticketClear_of_current _ _ _ (by simpa using hmark) hset hcount, if_neg fun h => hne h.1]
    refine ⟨_, exec_ticketClear w a x s r hr htc hadm, ?_⟩
    rw [hclear]
    exact ⟨(Chip.wReply_get ..).trans (Chip.get_put_same ..), by simp⟩

end Sys2Proof.Machine
end

section
/-!
Maintenance (files 2, 15 and 17 of spec/): the statement O40.
-/

namespace Sys2Proof.Machine

/-! ### Drains (R520 to R522) -/

theorem Chip.drainOf_setDrain (c : Chip) (k n : Nat) (d : Drain) : (c.setDrain k n d).drainOf k n = some d := by
  have hget : ∀ t : Tab (Nat × Nat) Drain,
      Tab.get ((Tab.set t (k, n) d).map fun p => (p.1, some p.2)) (k, n) none = some d := by
    intro t
    induction t with
    | nil => simp [Tab.set, Tab.get]
    | cons p t ih =>
      unfold Tab.set
      split
      · simp [Tab.get]
      next hne => simpa [Tab.get, hne] using ih
  exact hget _

theorem Chip.drainOf_of_drains {c d : Chip} (h : d.drains = c.drains) (k n : Nat) : d.drainOf k n = c.drainOf k n := by
  simp only [Chip.drainOf, h]

theorem Chip.dale_of_dales {c d : Chip} (h : d.dales = c.dales) (k : Nat) : d.dale k = c.dale k := by
  simp only [Chip.dale, h]

/-- What a fold establishes for each place it visits and never undoes holds of them all. -/
theorem Chip.foldl_establishes {α : Type} {f : Chip → α → Chip} (P : Chip → α → Prop) (hdo : ∀ c x, P (f c x) x)
    (hkeep : ∀ c x y, P c y → P (f c x) y) (l : List α) (c : Chip) : ∀ x, x ∈ l → P (l.foldl f c) x := by
  induction l using List.reverseRecOn with
  | nil => exact fun x hx => absurd hx (List.not_mem_nil)
  | append_singleton l y ih =>
    intro x hx
    rw [List.foldl_append, List.foldl_cons, List.foldl_nil]
    rcases List.mem_append.mp hx with hx | hx
    · exact hkeep _ _ _ (ih x hx)
    · obtain rfl := List.mem_singleton.mp hx
      exact hdo _ _

/-- A Dale that takes no more work, or that takes work again. -/
def Chip.markDale (n : Nat) (b : Bool) (c : Chip) (d : Nat) : Chip :=
  c.setDale (12 * n + d) { c.dale (12 * n + d) with drained := b }

theorem Chip.markDale_drained (n : Nat) (b : Bool) (c : Chip) (d : Nat) :
    ((Chip.markDale n b c d).dale (12 * n + d)).drained = b := by
  simp [Chip.markDale]

theorem Chip.markDale_keeps {n : Nat} {b : Bool} {c : Chip} {d i : Nat} (h : (c.dale i).drained = b) :
    ((Chip.markDale n b c d).dale i).drained = b := by
  unfold Chip.markDale Chip.dale Chip.setDale
  rw [Tab.get_set]
  split
  · rfl
  · exact h

theorem Chip.markDale_run (n : Nat) (b : Bool) (c : Chip) (d i : Nat) :
    ((Chip.markDale n b c d).dale i).run = (c.dale i).run := by
  unfold Chip.markDale Chip.dale Chip.setDale
  rw [Tab.get_set]
  split
  next h => rw [h]
  · rfl

theorem Chip.drainUnitBegin_vale (c : Chip) (n : Nat) : c.drainUnitBegin 0 n = (List.range 12).foldl (Chip.markDale n true) c := rfl

theorem Chip.valeRuns_drainBegin (c : Chip) (n : Nat) : (c.drainUnitBegin 0 n).valeRuns n = c.valeRuns n := by
  have hrun : ∀ i, ((c.drainUnitBegin 0 n).dale i).run = (c.dale i).run := fun i =>
    Chip.foldl_keeps (fun c => (c.dale i).run) _ _ fun c d _ => Chip.markDale_run n true c d i
  simp only [Chip.valeRuns, hrun]

theorem Chip.drainBegin_vale_drained (c : Chip) (n : Nat) {d : Nat} (hd : d < 12) :
    ((c.drainUnitBegin 0 n).dale (12 * n + d)).drained = true :=
  Chip.foldl_establishes (fun c d => (c.dale (12 * n + d)).drained = true) (Chip.markDale_drained n true)
    (fun _ _ _ h => Chip.markDale_keeps h) _ c d (List.mem_range.mpr hd)

theorem Chip.drainBegin_vale_drains (c : Chip) (n : Nat) : (c.drainUnitBegin 0 n).drains = c.drains :=
  Chip.foldl_keeps Chip.drains _ _ fun _ _ _ => rfl

theorem Chip.drainBegin_vale_outs (c : Chip) (n : Nat) : (c.drainUnitBegin 0 n).outs = c.outs :=
  Chip.foldl_keeps Chip.outs _ _ fun _ _ _ => rfl

theorem Chip.valeRuns_accept {c : Chip} {op n k j : Nat} {m : Cmd} {d : Drain} {b : Bool} (h : c.valeRuns n = b) :
    (((c.accept op m).setDrain k j d).drainUnitBegin 0 n).valeRuns n = b := by
  rw [Chip.valeRuns_drainBegin, ← h]
  simp [Chip.valeRuns, Chip.dale, Chip.setDrain]

theorem Chip.settleDrain_vale_runs {c : Chip} {n : Nat} (h : c.valeRuns n = true) : c.settleDrain 0 n = c := by
  rw [Chip.settleDrain, if_pos rfl, if_pos h]

theorem Chip.settleDrain_vale_idle {c : Chip} {n : Nat} (h : c.valeRuns n = false) : c.settleDrain 0 n = c.drainEnd 0 n := by
  rw [Chip.settleDrain, if_pos rfl, if_neg (by simp [h])]

theorem Chip.settleDrain_veld (c : Chip) (n : Nat) :
    c.settleDrain 1 n = if c.veldRuns n then c else c.drainEnd 1 n := by
  rw [Chip.settleDrain, if_neg Nat.one_ne_zero]

/-- SYS_DRAIN of a unit with no drain begins one, and ends it at once where nothing runs. -/
theorem Chip.mpDrain_begins {c : Chip} {m : Cmd} {k n : Nat} (hs : m.stray 0xFFFF = false) (hk : bitsOf m.p 7 0 = k)
    (hn : n = bitsOf m.p 15 8) (hu : drainUnit k n = true) (hd : c.drainOf k n = none) :
    c.mpDrain m = (((c.accept 0x0103 m).setDrain k n { cmds := [m] }).drainUnitBegin k n).settleDrain k n := by
  unfold Chip.mpDrain
  dsimp only
  rw [hk, ← hn, if_neg (by simp [hs, hu]), hd]

/-- A drained unit's Dales take work again. -/
theorem Chip.resumeUnit_vale_drained (c : Chip) (n : Nat) {i : Nat} (hi : i < 12) :
    ((c.resumeUnit 0 n).dale (12 * n + i)).drained = false := by
  unfold Chip.resumeUnit
  dsimp only
  rw [if_pos rfl]
  exact Chip.foldl_establishes (f := fun c d => (Chip.markDale n false c d).setDaleState (12 * n + d) 0)
    (fun c d => (c.dale (12 * n + d)).drained = false)
    (fun c d => Chip.markDale_drained n false c d) (fun c d _ h => Chip.markDale_keeps (n := n) (d := d) h) _ _ i
    (List.mem_range.mpr hi)

theorem Chip.drainEnd_open {c : Chip} {k n : Nat} {d : Drain} (hd : c.drainOf k n = some d) (hdone : d.done = false)
    (hres : d.resume = []) : c.drainEnd k n = d.cmds.foldl (fun c x => c.answer 0x0103 x Status.ok)
      ((c.setDrain k n { d with done := true }).drainUnitEnd k n d.fault) := by
  unfold Chip.drainEnd
  rw [hd]
  dsimp only
  rw [hdone, if_neg Bool.false_ne_true, hres]
  rfl

theorem Chip.channelFault_one {c : Chip} {die i ch k n : Nat} (hdie : die < 4) (hp : c.powered = true)
    (hd : c.drainOf k n = none) : c.channelFault die i ch [(k, n)] =
      ((((c.put { name := .sysChanfaultLoc } (BitVec.ofNat 64 (die * 2 ^ 24 + i % 256 * 2 ^ 16 + ch % 65536))).ev
        .sysEvChanfault).setDrain k n { fault := true }).drainUnitBegin k n).settleDrain k n := by
  have hnone : ((c.put { name := .sysChanfaultLoc } (BitVec.ofNat 64 (die * 2 ^ 24 + i % 256 * 2 ^ 16 + ch % 65536))).ev
      .sysEvChanfault).drainOf k n = none := (Chip.drainOf_of_drains (by simp) k n).trans hd
  have hmod : die % 256 = die := by omega
  unfold Chip.channelFault
  dsimp only
  rw [hp, if_neg (by simp), hmod, List.foldl_cons, List.foldl_nil, hnone]

theorem Chip.mpThermalRelease_taken {c : Chip} {m : Cmd} (hs : m.stray 0 = false) (hd : c.device = .hold)
    (ht : 60 * 32768 ≤ c.boot.holdTicks) (hc : c.flag Fld.lantCmp_coolantHot = false) : c.mpThermalRelease m =
      ((List.range 12).foldl Chip.thawVale
        { c with device := .starting, boot := { c.boot with release := true } }).passesResume.finish 0x0901 m Status.ok := by
  have hst : c.releaseStatus = Status.ok := by
    rw [Chip.releaseStatus, if_neg (by simp [hd]), if_neg (by simp [hc]; omega)]
  unfold Chip.mpThermalRelease
  dsimp only
  rw [hs, if_neg Bool.false_ne_true, hst, if_neg (by simp)]

/-- Settles O40: drains, resumes, faults, the end of HOLD and the Lantern's records. -/
theorem maintenanceCommandsAct : Obligations.MaintenanceCommandsAct := by
  unfold Obligations.MaintenanceCommandsAct
  dsimp only [exec]
  refine ⟨?drain, ?drainIdle, ?drainVeld, ?resume, ?expire, ?fault, ?release, ?records⟩
  case drain =>
    intro m s c' n hm hs hk hn hlt hd hruns
    refine ⟨_, mp_runs hm, ?_⟩
    dsimp only
    rw [Chip.mpDrain_begins hs hk hn (by simp [drainUnit, hlt]) hd, Chip.settleDrain_vale_runs (Chip.valeRuns_accept hruns)]
    refine ⟨fun d hd => Chip.drainBegin_vale_drained _ n hd, ?_, ?_⟩
    · exact (Chip.drainOf_of_drains (Chip.drainBegin_vale_drains ..) 0 n).trans (Chip.drainOf_setDrain ..)
    · obtain ⟨a, b, h⟩ := c'.accept_sent 0x0103 m
      exact ⟨a, b, (Chip.drainBegin_vale_outs ..).trans h⟩
  case drainIdle =>
    rintro m s c' n c1 hm hs hk hn hlt hd hruns rfl
    refine (mp_runs hm).trans ?_
    rw [Chip.mpDrain_begins hs hk hn (by simp [drainUnit, hlt]) hd, Chip.settleDrain_vale_idle (Chip.valeRuns_accept hruns)]
  case drainVeld =>
    intro m s c' n c1 hm hs hk hn hlt hd hc1
    refine (mp_runs hm).trans ?_
    rw [hc1, Chip.mpDrain_begins hs hk hn (by simp [drainUnit, hlt]) hd, Chip.settleDrain_veld]
  case resume =>
    intro m s c' k n d hm hs hk hn hu hd hfault hdone
    have htaken : c'.mpResume m = ((c'.accept 0x0104 m).resumeUnit k n).finish 0x0104 m Status.ok := by
      unfold Chip.mpResume
      dsimp only
      rw [← hk, ← hn, if_neg (by simp [hs, hu]), hd]
      dsimp only
      rw [hfault, hdone, if_neg Bool.false_ne_true, if_pos rfl]
    refine ⟨_, mp_runs hm, htaken, fun h0 i hi => ?_⟩
    subst h0
    dsimp only
    rw [htaken, Chip.dale_of_dales (Chip.finish_dales ..)]
    exact Chip.resumeUnit_vale_drained _ n hi
  case expire =>
    rintro k n s d c1 hu hd hdone hres rfl
    exact (units_run hu).trans (by rw [Chip.drainEnd_open hd hdone hres])
  case fault =>
    rintro die i ch k n s c1 c2 hdie hu hp hd rfl rfl
    exact (units_run (by simp [hdie, hu])).trans (by rw [Chip.channelFault_one hdie hp hd])
  case release =>
    rintro m s c' c1 hm hs hd ht hc rfl
    exact (mp_runs hm).trans (by rw [Chip.mpThermalRelease_taken hs hd ht hc])
  case records =>
    intro m s c' hm hs
    refine ⟨_, mp_runs hm, ?_⟩
    dsimp only
    rw [Chip.mpThmRecord, hs, if_neg Bool.false_ne_true]
    exact ⟨Chip.finish_regs .., Chip.finish_answered ..⟩

end Sys2Proof.Machine
end

section
/-!
The commands of the converters, of the drive and of the Guylines (files 6 to 8 of spec/): the statement O41.
-/

namespace Sys2Proof.Machine

/-! ### Tables of the converters (R212, R218) -/

/-- A table entry that is taken changes, beside its register, its ADC's record alone. -/
theorem Chip.wConvSeq_eq {c : Chip} {v l e : Nat} {x : Word} (h : seqRefused x.toNat = false) :
    ∃ a, c.wConvSeq v l e x = (Status.ok, ({ c with adcs := a } : Chip).put { name := .convSeq, idx := [v, l, e] } x) := by
  unfold Chip.wConvSeq
  dsimp only
  rw [h, if_neg Bool.false_ne_true]
  split <;> exact ⟨_, rfl⟩

@[simp] theorem Chip.showAdc_outs (c : Chip) (v l : Nat) : (c.showAdc v l).outs = c.outs := by simp [Chip.showAdc]

/-- One entry of CONV_TABLE. -/
def Chip.writeEntry (v l first : Nat) (c : Chip) (p : Nat × Word) : Chip := (c.wConvSeq v l (first + p.1) p.2).2

theorem Chip.writeEntry_same {v l first k : Nat} {c : Chip} {x : Word} (h : seqRefused x.toNat = false) :
    (Chip.writeEntry v l first c (k, x)).get { name := .convSeq, idx := [v, l, first + k] } = x := by
  obtain ⟨a, ha⟩ := Chip.wConvSeq_eq (c := c) (v := v) (l := l) (e := first + k) h
  rw [Chip.writeEntry, ha, Chip.get_put_same]

theorem Chip.writeEntry_other {v l first k j : Nat} {c : Chip} {x : Word} (h : j ≠ k) :
    (Chip.writeEntry v l first c (k, x)).get { name := .convSeq, idx := [v, l, first + j] } =
      c.get { name := .convSeq, idx := [v, l, first + j] } := by
  cases hx : seqRefused x.toNat with
  | true => simp [Chip.writeEntry, Chip.wConvSeq, hx]
  | false =>
    obtain ⟨a, ha⟩ := Chip.wConvSeq_eq (c := c) (v := v) (l := l) (e := first + k) hx
    rw [Chip.writeEntry, ha, Chip.get_put_of_idx_ne _ (by simpa using h)]
    exact Chip.get_congr rfl rfl _

theorem Chip.writeEntry_outs (v l first : Nat) (c : Chip) (p : Nat × Word) : (Chip.writeEntry v l first c p).outs = c.outs := by
  cases hx : seqRefused p.2.toNat with
  | true => simp [Chip.writeEntry, Chip.wConvSeq, hx]
  | false =>
    obtain ⟨a, ha⟩ := Chip.wConvSeq_eq (c := c) (v := v) (l := l) (e := first + p.1) hx
    rw [Chip.writeEntry, ha, Chip.put_outs]

theorem Chip.mpConvTable_taken {c : Chip} {m : Cmd} {v l first : Nat} (hv : v = bitsOf m.p 3 0) (hl : l = bitsOf m.p 14 8)
    (hf : first = bitsOf m.p 21 16) (hs : m.stray 0x3F3F7F0F = false) (hv12 : v < 12) (hl71 : l < 71)
    (hlen : m.words.length = bitsOf m.p 29 24 + 1) (hle : first + m.words.length ≤ 64)
    (hgood : ∀ x, x ∈ m.words → seqRefused x.toNat = false) : c.mpConvTable m =
      ((m.words.mapIdx fun i x => (i, x)).foldl (Chip.writeEntry v l first) c).finish 0x0702 m Status.ok := by
  have hany : m.words.any (fun x => seqRefused x.toNat) = false :=
    List.any_eq_false.mpr fun x hx => by simp [hgood x hx]
  unfold Chip.mpConvTable
  dsimp only
  rw [← hv, ← hl, ← hf, ← hlen, if_neg (by simp [hs, hany, adcOk, hv12, hl71]; omega)]
  rfl

/-! ### Channels and coefficients of the drive (R230, R236) -/

/-- The coefficient k of the words of DRV_XT. -/
def xtCoef (m : Cmd) (k : Nat) : Nat := bitsOf (m.word (k / 4 + 1)) (k % 4 * 16 + 15) (k % 4 * 16)

/-- One coefficient of DRV_XT. -/
def Chip.writeCoef (v d : Nat) (m : Cmd) (c : Chip) (k : Nat) : Chip := (c.wDrvXt v d k (BitVec.ofNat 64 (xtCoef m k))).2

theorem xtCoef_lt (m : Cmd) (k : Nat) : xtCoef m k < 2 ^ 16 := by
  have h := bitsOf_lt (m.word (k / 4 + 1)) (k % 4 * 16 + 15) (k % 4 * 16)
  rwa [show k % 4 * 16 + 15 + 1 - k % 4 * 16 = 16 by omega] at h

theorem Chip.writeCoef_eq {m : Cmd} {v d k : Nat} {c : Chip} (h12 : xtCoef m 12 = 0) : Chip.writeCoef v d m c k =
    c.put { name := .drvXt, idx := [v, d, k] } (BitVec.ofNat 64 (xtCoef m k)) := by
  have hlt := xtCoef_lt m k
  have hbits : bitsOf (BitVec.ofNat 64 (xtCoef m k)).toNat 15 0 = xtCoef m k := by
    rw [BitVec.toNat_ofNat, Nat.mod_eq_of_lt (by omega)]
    simp only [bitsOf]
    omega
  have hdiag : ¬ (k = 12 ∧ xtCoef m k ≠ 0) := fun ⟨hk, hne⟩ => hne (hk ▸ h12)
  unfold Chip.writeCoef Chip.wDrvXt
  dsimp only
  rw [hbits, if_neg hdiag]

theorem Chip.f_writeCoef_same {m : Cmd} {v d k : Nat} {c : Chip} (h12 : xtCoef m 12 = 0) :
    (Chip.writeCoef v d m c k).f Fld.drvXt_coef [v, d, k] = xtCoef m k := by
  have hlt := xtCoef_lt m k
  rw [Chip.writeCoef_eq h12]
  change bitsOf (Chip.get _ { name := .drvXt, idx := [v, d, k] }).toNat 15 0 = _
  rw [Chip.get_put_same, BitVec.toNat_ofNat, Nat.mod_eq_of_lt (by omega)]
  simp only [bitsOf]
  omega

theorem Chip.f_writeCoef_keeps {m : Cmd} {v d k j : Nat} {c : Chip} (h12 : xtCoef m 12 = 0)
    (h : c.f Fld.drvXt_coef [v, d, j] = xtCoef m j) : (Chip.writeCoef v d m c k).f Fld.drvXt_coef [v, d, j] = xtCoef m j := by
  by_cases hjk : j = k
  · subst hjk
    exact Chip.f_writeCoef_same h12
  · rw [Chip.writeCoef_eq h12, ← h]
    exact Chip.f_of_get (Chip.get_put_of_idx_ne _ (by simpa using hjk))

theorem Chip.mpDrvXt_taken {c : Chip} {m : Cmd} {v d : Nat} (hv : v = bitsOf m.p 3 0) (hd : d = bitsOf m.p 11 8)
    (hs : m.stray 0xF0F = false) (hv12 : v < 12) (hd12 : d < 12) (h12 : xtCoef m 12 = 0) (h50 : xtCoef m 50 = 0) (h51 : xtCoef m 51 = 0) :
    c.mpDrvXt m = ((List.range 50).foldl (Chip.writeCoef v d m) c).finish 0x0802 m Status.ok := by
  have hgood : ¬ (m.stray 0xF0F = true ∨ 11 < v ∨ 11 < d ∨ xtCoef m 12 ≠ 0 ∨ xtCoef m 50 ≠ 0 ∨ xtCoef m 51 ≠ 0) := by
    simp [hs, h12, h50, h51]
    omega
  subst hv hd
  unfold Chip.mpDrvXt
  exact if_neg hgood

theorem Chip.mpDrvCh_taken {c : Chip} {m : Cmd} {v n : Nat} (hv : v = bitsOf m.p 3 0) (hn : n = bitsOf m.p 26 16)
    (hs : m.stray 0x7FF000F = false) (hok : chanOk v n = true) (hfree : c.flag Fld.drvCh_assigned [v, n] = false) :
    c.mpDrvCh m = (c.writeChannel v n (m.words.headD 0).toNat).finish 0x0801 m Status.ok := by
  unfold Chip.mpDrvCh
  dsimp only
  rw [← hv, ← hn, if_neg (by simp [hs, hok]), Chip.wDrvCh, hfree, if_neg Bool.false_ne_true]

/-! ### Loops and their coefficients (R247, R254) -/

theorem Chip.wordsOf_put_other {c : Chip} {n n' : RegName} {idx ix : List Nat} {x : Word} (h : n' ≠ n) :
    (c.put { name := n', idx := ix } x).wordsOf n idx = c.wordsOf n idx := by
  simp only [Chip.wordsOf, Chip.get_put_of_name_ne x h]

/-- The set a GUY_COEF names is made the active one of the loop's entry. -/
def Chip.selectSet (c : Chip) (v n k : Nat) (b : Bool) : Chip :=
  if b then c.put { name := .guyLoop, idx := [v, n] } (setBits (c.get { name := .guyLoop, idx := [v, n] }) 6 6 k) else c

theorem Chip.selectSet_wordsOf (c : Chip) (v n k : Nat) (b : Bool) (idx : List Nat) :
    (c.selectSet v n k b).wordsOf .guyCoef idx = c.wordsOf .guyCoef idx := by
  unfold Chip.selectSet
  split
  · exact Chip.wordsOf_put_other (by decide)
  · rfl

@[simp] theorem Chip.selectSet_outs (c : Chip) (v n k : Nat) (b : Bool) : (c.selectSet v n k b).outs = c.outs := by
  unfold Chip.selectSet
  split <;> simp

@[simp] theorem Chip.selectSet_gens (c : Chip) (v n k : Nat) (b : Bool) : (c.selectSet v n k b).gens = c.gens := by
  unfold Chip.selectSet
  split <;> simp

theorem Chip.selectSet_csel (c : Chip) (v n : Nat) {k : Nat} (hk : k < 2) : ((c.selectSet v n k true).loopWritten v n).csel = k := by
  change bitsOf (Chip.get _ { name := .guyLoop, idx := [v, n] }).toNat 6 6 = k
  rw [Chip.selectSet, if_pos rfl, Chip.get_put_same, bitsOf_setBits_same _ _ _ _ (by decide) (by decide)]
  exact Nat.mod_eq_of_lt hk

theorem Chip.mpGuyCoef_taken {c : Chip} {m : Cmd} {v n k : Nat} (hv : v = bitsOf m.p 3 0) (hn : n = bitsOf m.p 26 16)
    (hk : k = bitsOf m.p 32 32) (hs : m.stray 0x307FF000F = false) (hv11 : v ≤ 11) (hx : coefsWellFormed m.words = true)
    (hidle : c.loopState v n = 0) : c.mpGuyCoef m = (((c.setGen (.guyline v) (normaliseCoefs (c.gen (.guyline v)) m.words).2).putWords
      .guyCoef [v, n, k] (normaliseCoefs (c.gen (.guyline v)) m.words).1).selectSet v n k (bitOf m.p 33)).finish 0x0602 m Status.ok := by
  unfold Chip.mpGuyCoef
  dsimp only
  rw [← hv, ← hn, ← hk, if_neg (by simp [hs]; omega), Chip.wGuyCoef_taken hx hidle, if_neg (by simp)]
  rfl

/-- Settles O41: each command writes what it names. -/
theorem engineCommandsAct : Obligations.EngineCommandsAct := by
  unfold Obligations.EngineCommandsAct
  dsimp only [exec]
  refine ⟨?inject, ?table, ?channel, ?coefs, ?loop, ?set, ?std⟩
  case inject =>
    intro m s c' v l hm hv hl hs hv12 hl71 hgood hroom
    refine ⟨_, mp_runs hm, ?_⟩
    dsimp only
    rw [Chip.mpConvInject, ← hv, ← hl, if_neg (by simp [hs, adcOk, hv12, hl71, hgood]), Chip.inject_queue hroom]
    refine ⟨?_, ?_⟩
    · rw [Chip.adc_of_adcs (Chip.accept_adcs ..), Chip.adc_of_adcs (Chip.showAdc_adcs ..), Chip.adc_setAdc_same]
    · exact Sent.mono (Chip.accept_sent ..) (OutsGrow.of_eq ((Chip.showAdc_outs ..).trans (Chip.setAdc_outs ..)))
  case table =>
    intro m s c' v l first hm hv hl hf hs hv12 hl71 hlen hle hgood
    refine ⟨_, mp_runs hm, ?_⟩
    dsimp only
    rw [Chip.mpConvTable_taken hv hl hf hs hv12 hl71 hlen hle hgood]
    refine ⟨Chip.finish_answered_of_grows (.of_eq ?_), fun k hk => ?_⟩
    · exact Chip.foldl_keeps Chip.outs _ _ fun c p _ => Chip.writeEntry_outs v l first c p
    · rw [Chip.finish_get]
      exact Chip.foldl_mapIdx_reads (fun c j => c.get { name := .convSeq, idx := [v, l, first + j] }) id
        (fun c j x hx => Chip.writeEntry_same hx) (fun c j x i hi => Chip.writeEntry_other hi) m.words c' hgood hk
  case channel =>
    intro m s c' v n hm hv hn hs hok hfree
    exact (mp_runs hm).trans (by rw [Chip.mpDrvCh_taken hv hn hs hok hfree])
  case coefs =>
    intro m s c' v d hm hv hd hs hv12 hd12 h12 h13
    have h50 : xtCoef m 50 = 0 ∧ xtCoef m 51 = 0 := by
      change bitsOf (m.word 13) 47 32 = 0 ∧ bitsOf (m.word 13) 63 48 = 0
      simp only [bitsOf] at h13 ⊢
      omega
    refine ⟨_, mp_runs hm, ?_⟩
    dsimp only
    rw [Chip.mpDrvXt_taken hv hd hs hv12 hd12 h12 h50.1 h50.2]
    refine ⟨Chip.finish_answered_of_grows (.of_eq ?_), fun k hk => ?_⟩
    · exact Chip.foldl_keeps Chip.outs _ _ fun c k _ => by rw [Chip.writeCoef_eq h12, Chip.put_outs]
    · rw [Chip.finish_f]
      exact Chip.foldl_establishes (fun c k => c.f Fld.drvXt_coef [v, d, k] = xtCoef m k) (fun c k => Chip.f_writeCoef_same h12)
        (fun c k j h => Chip.f_writeCoef_keeps h12 h) _ c' k (List.mem_range.mpr hk)
  case loop =>
    intro m s c' v n c1 hm hv hn hs hv11 hok
    refine (mp_runs hm).trans ?_
    rw [Chip.mpGuyLoop, ← hv, ← hn, if_neg (by simp [hs]; omega), hok]
  case set =>
    intro m s c' v n k r hm hv hn hk hs hv11 hx hidle hr
    subst hr
    refine ⟨_, mp_runs hm, ?_⟩
    dsimp only
    rw [Chip.mpGuyCoef_taken hv hn hk hs hv11 hx hidle]
    refine ⟨Chip.finish_answered_of_grows (.of_eq ?_), ?_, ?_, fun hsel => ?_⟩
    · rw [Chip.selectSet_outs, Chip.putWords_outs, Chip.setGen_outs]
    · rw [Chip.gen, Chip.finish_gens, Chip.selectSet_gens, Chip.putWords_gens]
      exact Tab.get_set_same ..
    · simp only [Chip.wordsOf, Chip.finish_get]
      exact Chip.selectSet_wordsOf ..
    · rw [hsel, Chip.loopWritten, Chip.loopWords, Chip.wordsOf]
      simp only [Chip.finish_get]
      exact Chip.selectSet_csel _ v n (by rw [hk]; exact bitsOf_lt m.p 32 32)
  case std =>
    intro m s c' v hm hv hs hv11
    refine (mp_runs hm).trans ?_
    rw [Chip.mpGuyStd, ← hv, if_neg (by simp [hs]; omega)]

end Sys2Proof.Machine
end

section
/-!
The Pass commands (file 14 of spec/): the statement O43.
-/

namespace Sys2Proof.Machine

/-! ### Opening and closing an end (R442, R443) -/

theorem Chip.sink_setSink (c : Chip) (n : Nat) (x : Sink) : (c.setSink n x).sink n = x := Tab.get_set_same ..

theorem Chip.source_setSource (c : Chip) (n : Nat) (x : Source) : (c.setSource n x).source n = x := Tab.get_set_same ..

theorem Chip.sink_of_passes {c d : Chip} (h : d.passes = c.passes) (n : Nat) : d.sink n = c.sink n := by
  simp only [Chip.sink, h]

theorem Chip.source_of_passes {c d : Chip} (h : d.passes = c.passes) (n : Nat) : d.source n = c.source n := by
  simp only [Chip.source, h]

/-- The fields of the word an opened source shows. -/
theorem passTx_word {colour peer : Nat} (hc : colour < 2 ^ 5) (hp : peer < 2 ^ 16) :
    bitsOf (2 ^ 31 + colour * 2 ^ 24 + peer) 31 31 = 1 ∧ bitsOf (2 ^ 31 + colour * 2 ^ 24 + peer) 30 30 = 0 ∧
      bitsOf (2 ^ 31 + colour * 2 ^ 24 + peer) 28 24 = colour ∧ bitsOf (2 ^ 31 + colour * 2 ^ 24 + peer) 15 0 = peer := by
  simp only [bitsOf]
  omega

theorem Chip.mpPassOpen_sink {c : Chip} {m : Cmd} {n : Nat} (hb : bitOf m.p 0 = true) (hn : n = passEnd m.p)
    (hr : passReserved m.p = false) (hst : c.f Fld.passRx_state [n] = 0) (hid : c.moduleId ≠ 0xFFFF) : c.mpPassOpen m =
      ((c.put { name := .passRx, idx := [n] } (BitVec.ofNat 64 (2 ^ 30 + bitsOf m.p 31 16))).setSink n { cmd := some m }).accept
        0x0A01 m := by
  unfold Chip.mpPassOpen
  dsimp only
  rw [← hn, if_pos hb, hr, if_neg Bool.false_ne_true, if_neg (by simp [hst, hid])]

theorem Chip.mpPassOpen_source {c : Chip} {m : Cmd} {n : Nat} (hb : bitOf m.p 0 = false) (hn : n = passEnd m.p)
    (hr : passReserved m.p = false) (hcol : c.colourTaken n (bitsOf m.p 8 4) = false)
    (hopen : c.flag Fld.passTx_open [n] = false) (hid : c.moduleId ≠ 0xFFFF)
    (hdark : c.firstDark n (bitsOf m.p 8 4) = false) : c.mpPassOpen m =
      ((c.put { name := .passTx, idx := [n] } (BitVec.ofNat 64 (2 ^ 31 + bitsOf m.p 8 4 * 2 ^ 24 + bitsOf m.p 31 16))).setSource
        n { cmd := some m }).accept 0x0A01 m := by
  unfold Chip.mpPassOpen
  dsimp only
  rw [← hn, if_neg (by simp [hb]), if_neg (by simp [hr, hcol]), if_neg (by simp [hopen, hid, hdark])]

/-- A closed lane with nothing to send is as after reset. -/
theorem Chip.settleLane_idle {c : Chip} {n : Nat} {x : Source} (hx : x = { c.source n with cmd := none, closing := true })
    (h : c.laneBusy n = false) : (c.setSource n x).settleLane n =
      ((c.setSource n x).put { name := .passTx, idx := [n] } 0).setSource n {} := by
  have hbusy : (c.setSource n x).laneBusy n = false := by
    rw [← h]
    simp only [Chip.laneBusy, Chip.source_setSource, hx]
    rfl
  rw [Chip.settleLane, Chip.source_setSource, hbusy, if_pos ⟨by rw [hx], by simp⟩]

theorem Chip.mpPassClose_sink {c : Chip} {m : Cmd} {n : Nat} (hb : bitOf m.p 0 = true) (hn : n = passEnd m.p)
    (hr : passReserved m.p = false) (hcmd : (c.sink n).cmd = none) : c.mpPassClose m =
      ((c.put { name := .passRx, idx := [n] } 0).setSink n {}).finish 0x0A02 m Status.ok := by
  unfold Chip.mpPassClose
  dsimp only
  rw [← hn, hr, if_neg Bool.false_ne_true, if_pos hb, hcmd]

theorem Chip.mpPassClose_source {c : Chip} {m : Cmd} {n : Nat} (hb : bitOf m.p 0 = false) (hn : n = passEnd m.p)
    (hr : passReserved m.p = false) (hnamed : c.laneNamed n = false) (hbusy : c.laneBusy n = false)
    (hcmd : (c.source n).cmd = none) : c.mpPassClose m =
      (((c.setSource n { c.source n with cmd := none, closing := true }).put { name := .passTx, idx := [n] } 0).setSource
        n {}).finish 0x0A02 m Status.ok := by
  unfold Chip.mpPassClose
  dsimp only
  rw [← hn, hr, if_neg Bool.false_ne_true, if_neg (by simp [hb]), hnamed, if_neg Bool.false_ne_true,
    Chip.settleLane_idle rfl hbusy, hcmd]

/-! ### Routes (R454, R455) -/

/-- Two folds whose steps agree on what an invariant allows agree. -/
theorem Chip.foldl_congr_of {α : Type} {f g : Chip → α → Chip} (Inv : Chip → Prop) (l : List α) {c : Chip} (hc : Inv c)
    (h : ∀ c x, x ∈ l → Inv c → f c x = g c x ∧ Inv (g c x)) : l.foldl f c = l.foldl g c := by
  induction l generalizing c with
  | nil => rfl
  | cons x l ih =>
    obtain ⟨heq, hinv⟩ := h c x List.mem_cons_self hc
    rw [List.foldl_cons, List.foldl_cons, heq]
    exact ih hinv fun c y hy => h c y (List.mem_cons_of_mem _ hy)

/-- The chip with another state of its Passes. -/
def Chip.withPasses (c : Chip) (p : Passes) : Chip := { c with passes := p }

/-- A route entry no frame is queued for is written at once. -/
theorem Chip.wPassRoute_now {c : Chip} {m : Nat} {x : Word} (hok : c.routeRefused x.toNat = false)
    (hnone : c.passes.routes = []) (hf : c.framesFor m = false) :
    (c.wPassRoute m x).2 = c.put { name := .passRoute, idx := [m] } (x &&& 0xB0FFFFFFF0000000) := by
  have hpasses : { c.passes with routes := [] } = c.passes := by rw [← hnone]
  unfold Chip.wPassRoute
  dsimp only
  rw [hok, if_neg Bool.false_ne_true]
  refine ((Chip.settleRoutes_one (m := m) (x := x &&& 0xB0FFFFFFF0000000) (c := { c with
    passes := { c.passes with routes := Tab.set c.passes.routes m (x &&& 0xB0FFFFFFF0000000) } }) ?_).1 hf).trans ?_
  · simp [hnone, Tab.set]
  · exact congrArg (Chip.withPasses (c.put { name := .passRoute, idx := [m] } (x &&& 0xB0FFFFFFF0000000))) hpasses

/-- One entry of PASS_ROUTE, of the routes or of the broadcasts. -/
def Chip.writeRoute (first : Nat) (bc : Bool) (c : Chip) (q : Nat × Word) : Chip :=
  if bc then (c.wPassBcast (first + q.1) q.2).2 else (c.wPassRoute (first + q.1) q.2).2

/-- A route entry in force. -/
def Chip.putRoute (first : Nat) (c : Chip) (q : Nat × Word) : Chip :=
  c.put { name := .passRoute, idx := [first + q.1] } (q.2 &&& 0xB0FFFFFFF0000000)

theorem Chip.writeRoutes_eq {c : Chip} {first : Nat} {xs : List (Nat × Word)}
    (hok : ∀ q, q ∈ xs → c.routeRefused q.2.toNat = false) (hnone : c.passes.routes = []) (hf : ∀ k, c.framesFor k = false) :
    xs.foldl (Chip.writeRoute first false) c = xs.foldl (Chip.putRoute first) c := by
  refine Chip.foldl_congr_of (fun d => d.passes = c.passes ∧ ∀ n, d.flag Fld.passTx_open [n] = c.flag Fld.passTx_open [n]) xs
    ⟨rfl, fun _ => rfl⟩ fun d q hq ⟨hp, hflag⟩ => ⟨?_, hp, fun n => ?_⟩
  · have hrefused : d.routeRefused q.2.toNat = false := by
      rw [← hok q hq]
      simp only [Chip.routeRefused, hflag, Chip.source_of_passes hp]
    have hframes : d.framesFor (first + q.1) = false := by
      rw [← hf (first + q.1)]
      simp only [Chip.framesFor, hp]
    exact Chip.wPassRoute_now hrefused (hp ▸ hnone) hframes
  · rw [← hflag n]
    exact congrArg (· == 1) (Chip.f_put_of_name_ne _ _ (by decide))

theorem Chip.mpPassRoute_taken {c : Chip} {m : Cmd} {first : Nat} (hf : first = bitsOf m.p 15 0)
    (hs : m.stray 0x107FFFFFF = false) (hn : m.words.length = bitsOf m.p 26 16 + 1) (hlen : m.words.length ≤ 2047)
    (hle : first + m.words.length ≤ if bitOf m.p 32 then 256 else 65536)
    (hok : bitOf m.p 32 = false → ∀ x, x ∈ m.words → c.routeRefused x.toNat = false) : c.mpPassRoute m =
      ((m.words.mapIdx fun k x => (k, x)).foldl (Chip.writeRoute first (bitOf m.p 32)) c).finish 0x0A04 m Status.ok := by
  have hany : ¬ (¬ bitOf m.p 32 = true ∧ (m.words.any fun x => c.routeRefused x.toNat) = true) := by
    rintro ⟨hb, h⟩
    obtain ⟨x, hx, hr⟩ := List.any_eq_true.mp h
    rw [hok (by simpa using hb) x hx] at hr
    exact absurd hr (by decide)
  unfold Chip.mpPassRoute
  dsimp only
  rw [← hf, ← hn, if_neg ?_, if_neg hany]
  · rfl
  · rw [hs]
    simp only [Bool.false_eq_true, ne_eq, not_true_eq_false, false_or]
    omega

theorem singleton_add_ne {n i j : Nat} (h : i ≠ j) : [n + i] ≠ [n + j] := by simpa using h

/-- Settles O43: circuits, windows and routes. -/
theorem passCommandsAct : Obligations.PassCommandsAct := by
  unfold Obligations.PassCommandsAct
  dsimp only [exec]
  refine ⟨?openSink, ?openSource, ?closeSink, ?closeSource, ?window, ?broadcast, ?route⟩
  case openSink =>
    intro m s c' n hm hb hn hr hst hid
    refine ⟨_, mp_runs hm, ?_⟩
    dsimp only
    rw [Chip.mpPassOpen_sink hb hn hr hst hid]
    have hpeer := bitsOf_lt m.p 31 16
    refine ⟨?_, ?_, ?_, Sent.mono (Chip.accept_sent ..) (OutsGrow.of_eq rfl)⟩
    · rw [Chip.accept_f]
      change bitsOf (Chip.get (c'.put _ _) { name := .passRx, idx := [n] }).toNat 31 30 = 1
      rw [Chip.get_put_same, BitVec.toNat_ofNat]
      simp only [bitsOf] at hpeer ⊢
      omega
    · rw [Chip.accept_f]
      change bitsOf (Chip.get (c'.put _ _) { name := .passRx, idx := [n] }).toNat 15 0 = _
      rw [Chip.get_put_same, BitVec.toNat_ofNat]
      simp only [bitsOf] at hpeer ⊢
      omega
    · rw [Chip.sink_of_passes (Chip.accept_passes ..), Chip.sink_setSink]
  case openSource =>
    intro m s c' n hm hb hn hr hcol hopen hid hdark
    refine ⟨_, mp_runs hm, ?_⟩
    dsimp only
    rw [Chip.mpPassOpen_source hb hn hr hcol hopen hid hdark]
    have hpeer := bitsOf_lt m.p 31 16
    have hcolour := bitsOf_lt m.p 8 4
    have hword : ∀ fl : Fld, fl.name = .passTx → fl.w = 0 → (((c'.put { name := .passTx, idx := [n] }
        (BitVec.ofNat 64 (2 ^ 31 + bitsOf m.p 8 4 * 2 ^ 24 + bitsOf m.p 31 16))).setSource n { cmd := some m }).accept
          0x0A01 m).f fl [n] = bitsOf (2 ^ 31 + bitsOf m.p 8 4 * 2 ^ 24 + bitsOf m.p 31 16) fl.hi fl.lo := by
      intro fl hfl hw
      rw [Chip.accept_f]
      change bitsOf (Chip.get (c'.put _ _) (fldReg fl [n])).toNat fl.hi fl.lo = _
      rw [fldReg, hfl, hw, Chip.get_put_same, BitVec.toNat_ofNat, Nat.mod_eq_of_lt (by omega)]
    obtain ⟨hopened, hlocked, hcol', hpeer'⟩ := passTx_word hcolour hpeer
    exact ⟨(hword _ rfl rfl).trans hopened, (hword _ rfl rfl).trans hlocked, (hword _ rfl rfl).trans hcol',
      (hword _ rfl rfl).trans hpeer', (Chip.source_of_passes (Chip.accept_passes ..) n).trans (Chip.source_setSource ..),
      Sent.mono (Chip.accept_sent ..) (OutsGrow.of_eq rfl)⟩
  case closeSink =>
    intro m s c' n hm hb hn hr hcmd
    refine ⟨_, mp_runs hm, ?_⟩
    dsimp only
    rw [Chip.mpPassClose_sink hb hn hr hcmd]
    refine ⟨?_, ?_, Chip.finish_answered_of_grows (.of_eq rfl)⟩
    · rw [Chip.finish_get]
      exact Chip.get_put_same ..
    · rw [Chip.sink_of_passes (Chip.finish_passes ..), Chip.sink_setSink]
  case closeSource =>
    intro m s c' n hm hb hn hr hnamed hbusy hcmd
    refine ⟨_, mp_runs hm, ?_⟩
    dsimp only
    rw [Chip.mpPassClose_source hb hn hr hnamed hbusy hcmd]
    refine ⟨?_, ?_, Chip.finish_answered_of_grows (.of_eq rfl)⟩
    · rw [Chip.finish_get]
      exact Chip.get_put_same ..
    · rw [Chip.source_of_passes (Chip.finish_passes ..), Chip.source_setSource]
  case window =>
    intro m s c' e hm hs he hlo hhi hbase hoff hv
    refine ⟨_, mp_runs hm, ?_⟩
    dsimp only
    rw [Chip.mpPassExport, hs, if_neg Bool.false_ne_true,
      Chip.wPassExport_taken he hlo hhi hbase hoff (by simp [hv]) (by simp [hv]) (by simp [hv])]
    refine ⟨?_, Chip.finish_answered_of_grows (.of_eq (by simp))⟩
    change Export.ofWords (Chip.get _ _).toNat (Chip.get _ _).toNat = _
    rw [Chip.finish_get, Chip.finish_get, Chip.get_putWords_two_first, Chip.get_putWords_two_second,
      Export.ofWords_masked, he]
  case broadcast =>
    intro m s c' first hm hf hs hn hlen hb hle
    refine ⟨_, mp_runs hm, ?_⟩
    dsimp only
    rw [Chip.mpPassRoute_taken hf hs hn hlen (by rwa [if_pos hb]) (by simp [hb]), hb]
    refine ⟨Chip.finish_answered_of_grows (.of_eq ?_), fun k hk => ?_⟩
    · exact Chip.foldl_keeps Chip.outs _ _ fun c q _ => rfl
    · rw [Chip.finish_get]
      exact Chip.foldl_mapIdx_reads (f := Chip.writeRoute first true) (fun c j => c.get { name := .passBcast, idx := [first + j] })
        (fun x => BitVec.ofNat 64 (bitsOf x.toNat 31 0)) (ok := fun _ _ => True) (fun c j x _ => Chip.get_put_same ..)
        (fun c j x i hi => Chip.get_put_of_idx_ne _ (singleton_add_ne hi)) m.words c' (fun _ _ => trivial) hk
  case route =>
    intro m s c' first hm hf hs hn hlen hb hle hok hnone hframes
    refine ⟨_, mp_runs hm, ?_⟩
    dsimp only
    rw [Chip.mpPassRoute_taken hf hs hn hlen (by simpa [hb] using hle) (fun _ => hok), hb, Chip.writeRoutes_eq ?_ hnone hframes]
    · refine ⟨Chip.finish_answered_of_grows (.of_eq ?_), fun k hk => ?_⟩
      · exact Chip.foldl_keeps Chip.outs _ _ fun c q _ => rfl
      · rw [Chip.finish_get]
        exact Chip.foldl_mapIdx_reads (f := Chip.putRoute first) (fun c j => c.get { name := .passRoute, idx := [first + j] })
          (· &&& 0xB0FFFFFFF0000000) (ok := fun _ _ => True) (fun c j x _ => Chip.get_put_same ..)
          (fun c j x i hi => Chip.get_put_of_idx_ne _ (singleton_add_ne hi)) m.words c' (fun _ _ => trivial) hk
    · intro q hq
      obtain ⟨k, hk, rfl⟩ := List.mem_mapIdx.mp hq
      exact hok _ (List.getElem_mem hk)

end Sys2Proof.Machine
end

section
/-!
The Cairn, the test port and the sideband (files 13, 16 and 18 of spec/): the statements O46, O52 and O53.
-/

namespace Sys2Proof.Machine

/-! ### Radio sections and the Cairn's commands (R380, R497) -/

theorem zip_map_filter_all {α β : Type} [BEq β] [LawfulBEq β] {l : List α} {f : α → β} {b : β} (h : ∀ x, x ∈ l → f x = b) :
    (l.zip (l.map f)).filter (fun p => p.2 == b) = l.map fun x => (x, b) := by
  induction l with
  | nil => rfl
  | cons x l ih =>
    rw [List.map_cons, List.zip_cons_cons, List.filter_cons, h x List.mem_cons_self, if_pos (by simp), List.map_cons,
      ih fun y hy => h y (List.mem_cons_of_mem _ hy)]

/-- Records that all pass are held. -/
theorem Chip.hwSections_taken {c : Chip} {m : Cmd} {now n : Nat} {rs : List (List Word)} (hn : n = bitsOf m.p 15 0)
    (hs : m.stray 0xFFFF = false) (h0 : 0 < n) (hle : n ≤ 256) (hlen : m.words.length = 4 * n)
    (hrs : rs = (List.range n).map fun k => (m.words.drop (4 * k)).take 4)
    (hok : ∀ r, r ∈ rs → c.sectionStatus m.tent now r = Status.ok) : ∃ xs : List (Nat × List Word),
      xs.map Prod.snd = rs ∧ c.hwSections m now =
        ({ c with radio := { c.radio with recs := c.radio.recs ++ xs } } : Chip).finish 0x0B01 m Status.ok := by
  have htake := zip_map_filter_all hok
  have hlate : (rs.map fun r => c.sectionStatus m.tent now r).filter (fun st => st == Status.late) = [] := by
    refine List.filter_eq_nil_iff.mpr fun st hst => ?_
    obtain ⟨r, hr, rfl⟩ := List.mem_map.mp hst
    rw [hok r hr]
    decide
  have hfind : (rs.map fun r => c.sectionStatus m.tent now r).find? (fun st => st != Status.ok) = none := by
    refine List.find?_eq_none.mpr fun st hst => ?_
    obtain ⟨r, hr, rfl⟩ := List.mem_map.mp hst
    rw [hok r hr]
    decide
  unfold Chip.hwSections
  dsimp only
  rw [← hn, if_neg (by simp [hs, hlen]; omega), ← hrs, htake, hlate, hfind]
  exact ⟨_, by simp [Function.comp_def], rfl⟩

theorem leWords_length (n : Nat) (bs : List Byte) : (leWords n bs).length = n := by simp [leWords]

theorem Chip.mpCairnIdent_taken {c : Chip} {m : Cmd} (hs : m.stray 0 = false) : ∃ ws : List Word, ws.length = 258 ∧
    ws.headD 0 = BitVec.ofNat 64 (leNat (ascii "CAIRN-LR")) ∧ c.mpCairnIdent m = c.finish 0x0D01 m Status.ok 0 ws := by
  refine ⟨_, ?_, ?_, if_neg (by rw [hs]; exact Bool.false_ne_true)⟩
  · simp [leWords_length]
  · rfl

/-- Settles O46: the records held, and the Cairn's answers. -/
theorem radioAndCairnCommandsAct : Obligations.RadioAndCairnCommandsAct := by
  unfold Obligations.RadioAndCairnCommandsAct
  dsimp only [exec]
  refine ⟨?sections, ?ident, ?records, ?events⟩
  case sections =>
    intro m now s n rs hm hn hs h0 hle hlen hrs hok
    obtain ⟨xs, hxs, heq⟩ := Chip.hwSections_taken hn hs h0 hle hlen hrs hok
    refine ⟨_, hw_runs hm, ?_⟩
    dsimp only
    rw [heq]
    refine ⟨Chip.finish_answered_of_grows (.of_eq rfl), ?_, Chip.finish_regs ..⟩
    rw [Chip.finish_radio, List.map_append, hxs]
  case ident =>
    intro m s c' hm hs
    obtain ⟨ws, hlen, hhead, heq⟩ := Chip.mpCairnIdent_taken (c := c') hs
    refine ⟨_, mp_runs hm, ws, ?_, hlen, hhead, rfl⟩
    dsimp only
    rw [heq]
    exact Chip.finish_answered ..
  case records =>
    rintro m s c' first n rs hm hs rfl rfl rfl
    refine ⟨_, mp_runs hm, rfl, ?_⟩
    dsimp only
    rw [Chip.mpCairnRecords, hs, if_neg Bool.false_ne_true]
    exact ⟨Chip.finish_cursors .., Chip.finish_answered_of_grows (.of_eq rfl)⟩
  case events =>
    rintro m s c' first n es hm hs rfl rfl rfl
    refine ⟨_, mp_runs hm, rfl, ?_⟩
    dsimp only
    rw [Chip.mpCairnEvents, hs, if_neg Bool.false_ne_true]
    exact ⟨Chip.finish_cursors .., Chip.finish_answered_of_grows (.of_eq rfl)⟩

/-! ### The test port and the sideband (R536 to R541) -/

theorem port_runs {s : State} {f : Chip → Chip} (h : s.chip.powered = true) :
    onPort s f = .next { s with chip := f s.chip } := by
  simp only [onPort, onChip, h, if_true]

/-- Settles O52: each instruction of the port and the sideband. -/
theorem testPortShifts : Obligations.TestPortShifts := by
  unfold Obligations.TestPortShifts
  dsimp only [exec, execBypass, execIdcode, execSamplePreload, execExtest, execClamp, execHighz]
  refine ⟨?bypass, ?idcode, ?sample, ?extest, ?clamp, ?highz, ?sideband⟩
  case bypass => exact fun tdi s hp => ⟨_, port_runs hp, rfl, rfl⟩
  case idcode => exact fun tdi s hp => ⟨_, port_runs hp, rfl, rfl⟩
  case sample => exact fun tdi pins s hp => ⟨_, port_runs hp, rfl, rfl, rfl⟩
  case extest =>
    intro tdi pins s hp ht
    refine ⟨_, port_runs hp, ?_⟩
    dsimp only
    rw [ht, if_pos rfl]
    exact ⟨rfl, rfl, rfl⟩
  case clamp =>
    intro tdi s hp ht
    refine ⟨_, port_runs hp, ?_⟩
    dsimp only
    rw [ht, if_pos rfl]
    exact ⟨rfl, rfl, rfl⟩
  case highz =>
    intro tdi s hp ht
    refine ⟨_, port_runs hp, ?_⟩
    dsimp only
    rw [ht, if_pos rfl]
    exact ⟨rfl, rfl, rfl⟩
  case sideband =>
    intro op s hoff hbackup
    refine ⟨_, _, rfl, rfl, ?_⟩
    dsimp only
    rw [if_neg (by simp [hoff, hbackup])]
    exact ⟨rfl, rfl⟩

/-! ### The Cairn's events (R482 to R496) -/

theorem lastN_append_singleton {α : Type} {n : Nat} (hn : 0 < n) (l : List α) (x : α) :
    (lastN n (l ++ [x])).getLast? = some x := by
  have hle : (l ++ [x]).length - n ≤ l.length := by
    rw [List.length_append, List.length_singleton]
    omega
  rw [lastN, List.drop_append_of_le_length hle, List.getLast?_append]
  rfl

theorem lastN_of_length_le {α : Type} {n : Nat} {l : List α} (h : l.length ≤ n) : lastN n l = l := by
  rw [lastN, Nat.sub_eq_zero_of_le h, List.drop_zero]

/-- The last entry of the log is the event just entered. -/
theorem Cairn.event_last (k : Cairn) (code before after : Nat) :
    (k.event code before after).evts.getLast? = some ⟨k.nextEvt, k.time, code, before, after⟩ := by
  unfold Cairn.event
  dsimp only
  rw [lastN_append_singleton (by omega)]

theorem Cairn.advance_interval (k : Cairn) (x : CairnNow) : (k.advance x).recs = k.recs ∧
    (k.advance x).nextRec = k.nextRec ∧ (k.advance x).start = k.start := by
  unfold Cairn.advance
  dsimp only
  split <;> exact ⟨rfl, rfl, rfl⟩

/-- A close writes one record more, of the interval from its start, and begins the next. -/
theorem Cairn.close_records {k : Cairn} (h : k.recs.length < 10000) : ∃ r : CairnRec, k.close.recs = k.recs ++ [r] ∧
    r.num = k.nextRec ∧ r.start = k.start ∧ r.length = k.time - k.start := by
  unfold Cairn.close
  dsimp only
  rw [lastN_of_length_le (by rw [List.length_append, List.length_singleton]; omega)]
  exact ⟨_, rfl, rfl, rfl, rfl⟩

/-- With the clock in step a close writes one record and enters no event. -/
theorem Cairn.closeNow_inStep {k : Cairn} (hv : k.valid = true) (hd : k.clockDiff.natAbs ≤ 2 * 32768) :
    k.closeNow = ({ k with disagree := false } : Cairn).close := by
  have hstep : k.steps = false := by
    simp [Cairn.steps]
    omega
  unfold Cairn.closeNow
  dsimp only
  rw [hv, if_neg (by simp), hstep, if_neg Bool.false_ne_true, decide_eq_false (by omega)]
  rfl

theorem Chip.publish_keeps (c : Chip) (k : Cairn) : (c.publish k).actSeq = c.actSeq ∧ (c.publish k).outs = c.outs := by
  unfold Chip.publish
  split
  · exact ⟨Chip.foldl_keeps Chip.actSeq _ _ fun _ _ _ => rfl, Chip.foldl_keeps Chip.outs _ _ fun _ _ _ => rfl⟩
  · exact ⟨rfl, rfl⟩

/-- A frame that follows the last one is kept. -/
theorem Cairn.takeFrame_follows {k : Cairn} {f : ActFrame} (hi : k.input = true) (hv : k.valid = true)
    (hf : k.follows f.seq = true) (hb : k.frame = none ∨ ∃ g, k.frame = some g ∧ g.boot = f.boot) :
    k.takeFrame f true = { k with frame := some { f with time := k.time }, fresh := true } := by
  unfold Cairn.takeFrame
  rw [if_neg (by simp [hi, hf])]
  dsimp only
  rcases hb with hb | ⟨g, hg, hboot⟩
  · simp only [Cairn.setClock, hb, Bool.or_false, Bool.false_eq_true, if_false, hv, if_true]
  · simp only [Cairn.setClock, hg, hboot, bne_self_eq_false, Bool.or_false, Bool.false_eq_true, if_false, hv, if_true]

/-- Settles O53: each event of the Cairn. -/
theorem cairnEventsAct : Obligations.CairnEventsAct := by
  unfold Obligations.CairnEventsAct
  dsimp only [exec]
  refine ⟨?frame, ?close, ?loss, ?back, ?broken, ?wrongSum, ?rightSum, ?overload, ?overloadEnd, ?linkLost, ?linkBack, ?pulse⟩
  case frame =>
    rintro x s k hp rfl hi hv hf hb
    refine ⟨_, if_pos hp, ?_⟩
    dsimp only
    rw [Cairn.takeFrame_follows hi hv hf hb]
    exact ⟨(Chip.publish_keeps ..).1, rfl, rfl, rfl, (s.cairn.advance_keeps x).1⟩
  case close =>
    rintro x s k rfl hi hv hb hd hlen
    obtain ⟨hrecs, hnext, hstart⟩ := s.cairn.advance_interval x
    obtain ⟨r, hr, hnum, hfrom, hlength⟩ :=
      Cairn.close_records (k := { s.cairn.advance x with disagree := false }) (by rw [← hrecs] at hlen; exact hlen)
    refine ⟨_, r, rfl, ?_⟩
    dsimp only
    rw [if_pos ⟨hi, hb⟩, Cairn.closeNow_inStep hv hd, hr, hnum, hfrom, hlength]
    exact ⟨congrArg (· ++ [r]) hrecs, hnext, hstart, congrArg _ hstart, congrArg (· + 1) hnext, rfl, rfl⟩
  case loss =>
    rintro x s k rfl hi hv hd
    refine ⟨_, rfl, ?_⟩
    dsimp only
    rw [Cairn.lose, if_neg (by simp [hi])]
    dsimp only
    rw [Cairn.closeNow_inStep (k := { s.cairn.advance x with partly := true }) hv hd]
    refine ⟨rfl, congrArg (· + 1) (s.cairn.advance_interval x).2.1, congrArg (· + 1) (s.cairn.advance_keeps x).2.2, ?_⟩
    rw [Cairn.event_last]
    rfl
  case back =>
    rintro x s k rfl hi
    refine ⟨_, rfl, ?_⟩
    dsimp only
    rw [Cairn.comeBack, if_neg (by simp [hi])]
    exact ⟨rfl, rfl, rfl, by rw [Cairn.event_last]; rfl⟩
  case broken =>
    rintro x st s k rfl
    refine ⟨_, rfl, ?_⟩
    dsimp only
    exact ⟨rfl, by rw [Cairn.openSeal, Cairn.event_last]; rfl⟩
  case wrongSum =>
    rintro x b sum s k rfl hi hne
    refine ⟨_, rfl, ?_⟩
    dsimp only
    rw [Cairn.selfTest, if_neg (by simp [hi]), if_neg hne]
    exact ⟨rfl, by rw [Cairn.event_last]; rfl⟩
  case rightSum =>
    rintro x s k rfl hi
    refine ⟨_, rfl, ?_⟩
    dsimp only
    rw [Cairn.selfTest, if_neg (by simp [hi]), if_pos rfl, if_pos rfl]
  case overload =>
    rintro x p s k rfl hi ho
    refine ⟨_, rfl, ?_⟩
    dsimp only
    rw [Cairn.overloads, if_neg (by simp [hi, ho])]
    exact ⟨rfl, by rw [Cairn.event_last]; rfl⟩
  case overloadEnd =>
    rintro x p s k rfl hi ho
    refine ⟨_, rfl, ?_⟩
    dsimp only
    rw [Cairn.overloads, if_neg (by simp [hi, ho])]
    exact ⟨rfl, by rw [Cairn.event_last]; rfl⟩
  case linkLost =>
    rintro x s k rfl hi hl
    refine ⟨_, rfl, ?_⟩
    dsimp only
    rw [Cairn.loseLink, if_neg (by simp [hi, hl])]
    exact ⟨rfl, by rw [Cairn.event_last]; rfl⟩
  case linkBack =>
    rintro x s k rfl hi hl hne
    refine ⟨_, rfl, ?_⟩
    dsimp only
    rw [Cairn.findLink, if_neg (by simp [hi, hl, hne])]
    exact ⟨rfl, by rw [Cairn.event_last]; rfl⟩
  case pulse =>
    rintro x s k rfl hi hf hp
    refine ⟨_, if_pos ⟨hi, by simp [hf], hp⟩, rfl, ?_⟩
    exact congrArg (· ++ [.pulse]) (Chip.publish_keeps ..).2

end Sys2Proof.Machine
end

section
/-!
Lanes, sinks and the frames a sink receives (file 14 of spec/): the statements O44 and O45.
-/

namespace Sys2Proof.Machine

/-! ### Lanes (R444, R445) -/

theorem Chip.f_out (c : Chip) (x : Out) (fl : Fld) (idx : List Nat) : (c.out x).f fl idx = c.f fl idx := by
  obtain ⟨o, l, h⟩ := c.out_eq x
  exact Chip.f_congr (by rw [h]) (by rw [h]) fl idx

theorem Chip.out_regs (c : Chip) (x : Out) : (c.out x).regs = c.regs := by
  obtain ⟨o, l, h⟩ := c.out_eq x
  rw [h]

theorem Chip.out_passes (c : Chip) (x : Out) : (c.out x).passes = c.passes := by
  obtain ⟨o, l, h⟩ := c.out_eq x
  rw [h]

theorem Chip.sendOn_locked {c : Chip} {n : Nat} {f : PassFrame} (h : c.flag Fld.passTx_locked [n] = true) :
    c.sendOn n f = c.out (.frame n f) := by
  rw [Chip.sendOn, if_pos h]

theorem Chip.settleLane_open {c : Chip} {n : Nat} (h : (c.source n).closing = false) : c.settleLane n = c := by
  rw [Chip.settleLane, if_neg (by simp [h])]

theorem Chip.settleRoutes_none {c : Chip} (h : c.passes.routes = []) : c.settleRoutes.regs = c.regs ∧
    c.settleRoutes.loaded = c.loaded ∧ c.settleRoutes.outs = c.outs := by
  simp [Chip.settleRoutes, h]

theorem Chip.tagFrame_congr {c d : Chip} {n : Nat} (hid : d.moduleId = c.moduleId)
    (hcol : d.f Fld.passTx_colour [n] = c.f Fld.passTx_colour [n]) : d.tagFrame n = c.tagFrame n := by
  simp only [Chip.tagFrame, hid, hcol]

/-- A lane that has locked sends its tag frame first. -/
theorem Chip.sourceLocked_tags {c : Chip} {n : Nat} (hopen : c.flag Fld.passTx_open [n] = true)
    (hlocked : c.flag Fld.passTx_locked [n] = false) (hlit : c.passesLit = true) (hs : c.source n = {})
    (hr : c.passes.routes = []) : (c.sourceLocked n).f Fld.passTx_locked [n] = 1 ∧
      Sent c (c.sourceLocked n) (.frame n (c.tagFrame n)) := by
  have hone : ((c.setF Fld.passTx_locked [n] 1).setSource n {}).f Fld.passTx_locked [n] = 1 :=
    Chip.f_setF_eq (by decide) (by decide) (by decide)
  have htag : ((c.setF Fld.passTx_locked [n] 1).setSource n {}).tagFrame n = c.tagFrame n :=
    Chip.tagFrame_congr (Chip.f_setF_of_name_ne _ _ _ (by decide)) (Chip.f_setF_disjoint (by decide) (by decide) (by decide))
  have heq : c.sourceLocked n =
      (((c.setF Fld.passTx_locked [n] 1).setSource n {}).out (.frame n (c.tagFrame n))).settleRoutes := by
    unfold Chip.sourceLocked
    dsimp only
    rw [if_pos ⟨hopen, by simp [hlocked], hlit⟩, hs]
    dsimp only
    rw [List.foldl_nil, Chip.sendOn_locked (flag_iff.mpr hone), Chip.settleLane_open]
    · exact congrArg (fun f => (Chip.out _ (.frame n f)).settleRoutes) htag
    · rw [Chip.source_of_passes (Chip.out_passes ..), Chip.source_setSource]
  obtain ⟨hregs, hloaded, houts⟩ := Chip.settleRoutes_none
    (c := ((c.setF Fld.passTx_locked [n] 1).setSource n {}).out (.frame n (c.tagFrame n)))
    (by rw [Chip.out_passes]; exact hr)
  rw [heq]
  refine ⟨?_, ?_⟩
  · rw [Chip.f_congr hregs hloaded, Chip.f_out, hone]
  · obtain ⟨a, b, h⟩ := Chip.out_sent ((c.setF Fld.passTx_locked [n] 1).setSource n {}) (.frame n (c.tagFrame n))
    exact ⟨a, b, houts.trans h⟩

/-! ### Sinks (R446 to R448) -/

@[simp] theorem Chip.setSink_f (c : Chip) (n : Nat) (x : Sink) (fl : Fld) (idx : List Nat) :
    (c.setSink n x).f fl idx = c.f fl idx := Chip.f_congr (a := c.setSink n x) (b := c) rfl rfl fl idx

theorem Chip.sinkUp_waits {c : Chip} {n : Nat} (h : (c.sink n).good < 1024) : c.sinkUp n = c := by
  unfold Chip.sinkUp
  dsimp only
  rw [if_neg (by omega)]

theorem Chip.sinkUp_up {c : Chip} {n : Nat} (h : c.f Fld.passRx_state [n] = 2) : c.sinkUp n = c := by
  unfold Chip.sinkUp
  dsimp only
  rw [if_neg (by omega)]

/-- A sink that was UP goes to WAIT with its event. -/
theorem Chip.sinkDown_up {c : Chip} {n : Nat} (h : c.f Fld.passRx_state [n] = 2) : c.sinkDown n =
    ((c.setSink n { c.sink n with good := 0, tagged := false, bad := 0, hunting := false }).setF Fld.passRx_state [n] 1).ev
      .passEvCircuit := by
  rw [Chip.sinkDown, if_pos h]

theorem Chip.sinkDown_state {c : Chip} {n : Nat} (h : c.f Fld.passRx_state [n] = 2) :
    (c.sinkDown n).f Fld.passRx_state [n] = 1 ∧
      (c.sinkDown n).sink n = { c.sink n with good := 0, tagged := false, bad := 0, hunting := false } := by
  rw [Chip.sinkDown_up h]
  refine ⟨?_, ?_⟩
  · rw [Chip.f_ev_of_name_ne (by decide) (by decide)]
    exact Chip.f_setF_eq (by decide) (by decide) (by decide)
  · rw [Chip.sink_of_passes (Chip.ev_passes ..), Chip.sink_of_passes (Chip.setF_passes ..), Chip.sink_setSink]

/-- A codeword that is lost, counted. -/
def Chip.countLost (c : Chip) (n frames : Nat) : Chip :=
  ((c.count Fld.passRxFec_uncorr [n]).count Fld.passStat_dropped [] frames).setSink n
    { c.sink n with good := 0, tagged := false, bad := (c.sink n).bad + 1 }

theorem Chip.countLost_state (c : Chip) (n frames : Nat) :
    (c.countLost n frames).f Fld.passRx_state [n] = c.f Fld.passRx_state [n] := by
  simp (disch := decide) only [Chip.countLost, Chip.setSink_f, Chip.count, Chip.f_setF_of_name_ne]

theorem Chip.countLost_sink (c : Chip) (n frames : Nat) :
    (c.countLost n frames).sink n = { c.sink n with good := 0, tagged := false, bad := (c.sink n).bad + 1 } :=
  Chip.sink_setSink ..

theorem Chip.codeword_lost {c : Chip} {n fr : Nat} (h : c.f Fld.passRx_state [n] = 1 ∨ c.f Fld.passRx_state [n] = 2) :
    c.codeword n none fr = if 64 ≤ (c.sink n).bad + 1 then (c.countLost n fr).sinkDown n else c.countLost n fr := by
  unfold Chip.codeword
  dsimp only
  rw [if_neg (by omega)]
  rfl

theorem Chip.codeword_good {c : Chip} {n k fr : Nat} (h : c.f Fld.passRx_state [n] = 1) (hk : k ≤ 15) :
    c.codeword n (some k) fr = ((c.count Fld.passRxFec_corrected [n] k).setSink n
      { c.sink n with good := (c.sink n).good + 1, bad := 0 }).sinkUp n := by
  unfold Chip.codeword
  dsimp only
  rw [if_neg (by omega), if_neg (by omega)]

/-- Settles O44: each event of a lane and of a sink. -/
theorem lanesAndSinksAct : Obligations.LanesAndSinksAct := by
  unfold Obligations.LanesAndSinksAct
  dsimp only [exec]
  refine ⟨?locked, ?tag, ?good, ?lost, ?down, ?hunt, ?dark, ?expire, ?remote⟩
  case locked =>
    intro n s hn hopen hlocked hlit hs hr
    exact ⟨_, units_run (by simpa [laneOk] using hn), Chip.sourceLocked_tags hopen hlocked hlit hs hr⟩
  case tag =>
    intro n s hn hopen hlocked
    refine ⟨_, units_run (by simpa [laneOk] using hn), ?_⟩
    rw [Chip.tagSend, if_pos ⟨hopen, hlocked⟩, Chip.sendOn_locked hlocked]
    exact ⟨Chip.out_sent .., Chip.out_regs ..⟩
  case good =>
    intro n k fr s hn hst hk hgood
    refine ⟨_, units_run (by simpa [sinkOk] using hn), ?_⟩
    dsimp only
    rw [Chip.codeword_good hst hk, Chip.sinkUp_waits (by rw [Chip.sink_setSink]; exact Nat.succ_lt_succ hgood), Chip.sink_setSink]
    refine ⟨rfl, rfl, ?_⟩
    rw [Chip.setSink_f, Chip.count, Chip.f_setF_of_name_ne _ _ _ (by decide), hst]
  case lost =>
    intro n fr s hn hst hbad
    refine ⟨_, units_run (by simpa [sinkOk] using hn), ?_⟩
    dsimp only
    rw [Chip.codeword_lost hst, if_neg (by omega), Chip.countLost_sink]
    exact ⟨rfl, rfl, Chip.countLost_state ..⟩
  case down =>
    intro n fr s hn hst hbad
    refine ⟨_, units_run (by simpa [sinkOk] using hn), ?_⟩
    dsimp only
    rw [Chip.codeword_lost (.inr hst), if_pos (by omega)]
    exact (Chip.sinkDown_state ((Chip.countLost_state ..).trans hst)).1
  case hunt =>
    intro n s hn hst
    exact (units_run (by simpa [sinkOk] using hn)).trans (by rw [Chip.headerHunt, if_neg hst])
  case dark =>
    intro n s hn hst
    refine ⟨_, units_run (by simpa [sinkOk] using hn), ?_⟩
    obtain ⟨hst', hsink⟩ := Chip.sinkDown_state (c := s.chip.setSink n { s.chip.sink n with good := 0, tagged := false })
      (n := n) ((Chip.setSink_f ..).trans hst)
    dsimp only
    rw [Chip.sinkDark, hst', hsink]
    exact ⟨rfl, rfl, rfl⟩
  case expire =>
    intro n s m hn hcmd
    exact (units_run (by simpa [sinkOk] using hn)).trans (by rw [Chip.sinkWaitExpire, hcmd])
  case remote =>
    rintro tag s r op m c1 hr hsent htag hwho rfl
    have htaken : s.chip.remoteTimeout tag =
        (({ s.chip with passes := { s.chip.passes with remotes := [] } } : Chip).failCmd op m).ev .passEvRemote := by
      have hdrop : s.chip.dropRemote r = { s.chip with passes := { s.chip.passes with remotes := [] } } := by
        simp [Chip.dropRemote, hr]
      unfold Chip.remoteTimeout
      rw [hr, List.find?_cons_of_pos (by simp [hsent, htag])]
      dsimp only
      rw [hdrop, Chip.failRemote, hwho]
    exact congrArg (fun c => Host.Outcome.next { s with chip := c }) htaken

/-! ### Frames a sink receives (R451 to R459) -/

theorem Tab.set_set {κ α : Type} [DecidableEq κ] (t : Tab κ α) (k : κ) (a b : α) :
    Tab.set (Tab.set t k a) k b = Tab.set t k b := by
  induction t with
  | nil => simp [Tab.set]
  | cons p t ih =>
    obtain ⟨k', x⟩ := p
    by_cases h : k = k'
    · simp [Tab.set, h]
    · simp [Tab.set, h, ih]

theorem Chip.setSink_setSink (c : Chip) (n : Nat) (x y : Sink) : (c.setSink n x).setSink n y = c.setSink n y := by
  simp only [Chip.setSink, Tab.set_set]

/-- A sink that has found a header again. -/
def Chip.found (c : Chip) (n : Nat) : Chip := c.setSink n { c.sink n with hunting := false }

theorem Chip.found_sink (c : Chip) (n : Nat) : (c.found n).sink n = { c.sink n with hunting := false } := Chip.sink_setSink ..

theorem Chip.found_f (c : Chip) (n : Nat) (fl : Fld) (idx : List Nat) : (c.found n).f fl idx = c.f fl idx := Chip.setSink_f ..

/-- A tag frame goes by its peer and its colour. -/
theorem Chip.sinkFrame_tag {c : Chip} {n : Nat} {f : PassFrame} (hk : f.kind = 7) (hst : c.f Fld.passRx_state [n] = 2) :
    c.sinkFrame n f = (c.found n).sinkTag n f := by
  unfold Chip.sinkFrame
  dsimp only
  rw [if_pos ⟨hk, .inr hst⟩]
  rfl

/-- The expected tag of a sink that is UP. -/
theorem Chip.sinkTag_matching {c : Chip} {n : Nat} {f : PassFrame} (hst : c.f Fld.passRx_state [n] = 2)
    (hp : f.source = c.f Fld.passRx_peer [n]) (hcol : bitsOf f.addr.toNat 7 0 = n % 32) :
    c.sinkTag n f = c.setSink n { c.sink n with tagged := true } := by
  rw [Chip.sinkTag, if_pos ⟨hp, hcol⟩, Chip.sinkUp_up ((Chip.setSink_f ..).trans hst)]

/-- Another tag shows itself in PASS_LAST_TAG and takes the sink to WAIT. -/
theorem Chip.sinkTag_misroute {c : Chip} {n : Nat} {f : PassFrame} (hst : c.f Fld.passRx_state [n] = 2)
    (hp : f.source ≠ c.f Fld.passRx_peer [n]) (hcmd : (c.sink n).cmd = none) :
    (c.sinkTag n f).f Fld.passRx_state [n] = 1 ∧ (c.sinkTag n f).get { name := .passLastTag } =
      BitVec.ofNat 64 (n * 2 ^ 48 + bitsOf f.addr.toNat 31 0 * 2 ^ 16 + f.source % 2 ^ 16) := by
  obtain ⟨d, hd⟩ : ∃ d, d = (c.ev .passEvMisroute).put { name := .passLastTag }
      (BitVec.ofNat 64 (n * 2 ^ 48 + bitsOf f.addr.toNat 31 0 * 2 ^ 16 + f.source % 2 ^ 16)) := ⟨_, rfl⟩
  have hdst : d.f Fld.passRx_state [n] = 2 := by
    rw [hd, Chip.f_put_of_name_ne _ _ (by decide), Chip.f_ev_of_name_ne (by decide) (by decide), hst]
  have hdsink : d.sink n = c.sink n := by
    rw [hd]
    exact Chip.sink_of_passes ((Chip.put_passes ..).trans (Chip.ev_passes ..)) n
  obtain ⟨hdown, hsink⟩ := Chip.sinkDown_state hdst
  have heq : c.sinkTag n f = d.sinkDown n := by
    unfold Chip.sinkTag
    dsimp only
    rw [if_neg (fun h => hp h.1), ← hd, hsink, hdsink, hcmd]
  rw [heq]
  refine ⟨hdown, ?_⟩
  rw [Chip.sinkDown_up hdst, Chip.get_ev_of_name_ne (by decide) (by decide), Chip.get_setF_of_name_ne _ _ (by decide), hd]
  exact Chip.get_put_same ..

/-- A frame of a request or an answer, in an UP sink of a module with an identity. -/
theorem Chip.sinkFrame_up {c : Chip} {n : Nat} {f : PassFrame} (hk : f.kind ≤ 5) (hst : c.f Fld.passRx_state [n] = 2)
    (hid : c.moduleId ≠ 0xFFFF) : c.sinkFrame n f = if f.dest ≠ c.moduleId then
      (if f.dest = 0xFFFF then (c.found n).dropFrame else (c.found n).regenerate f)
      else if ¬ f.crcOk then (c.found n).dropFrame
      else if f.kind = 0 ∨ f.kind = 1 ∨ f.kind = 3 then (c.found n).serveFrame f else (c.found n).answered f := by
  have hid' : (c.found n).moduleId = c.moduleId := Chip.found_f ..
  unfold Chip.sinkFrame
  dsimp only
  rw [← Chip.found, hid', if_neg (by omega), if_neg (by simp [hst, hid]), if_neg (by omega)]
  have hkinds : f.kind = 0 ∨ f.kind = 1 ∨ f.kind = 2 ∨ f.kind = 3 ∨ f.kind = 4 ∨ f.kind = 5 := by omega
  rcases hkinds with h | h | h | h | h | h <;> simp [h]

/-- A load or store inside an exported window that lies in memory is served. -/
theorem Chip.serveFrame_granted {c : Chip} {f : PassFrame} {e : Export} (hk : f.kind = 0 ∨ f.kind = 1) (h0 : 0 < frameLen f)
    (hlen : frameLen f ≤ 4096) (he : c.exportFor f.source f.tent (bitsOf f.addr.toNat 27 0) (frameLen f)
      (if f.kind = 0 then .w else .r) = some e)
    (hin : inMemory (e.base + (bitsOf f.addr.toNat 27 0 - e.off)) (frameLen f) = true) : c.serveFrame f =
      c.serve { who := .frame f, addr := e.base + (bitsOf f.addr.toNat 27 0 - e.off), len := frameLen f, tent := e.tent } := by
  have hperm : (if f.kind = 0 then Perm.w else if f.kind = 1 then Perm.r else Perm.a) = if f.kind = 0 then Perm.w else Perm.r := by
    rcases hk with h | h <;> simp [h]
  unfold Chip.serveFrame
  dsimp only
  rw [if_neg (by omega), hperm, he]
  dsimp only
  rw [if_pos (.inl hin)]

/-- The answer to a read of the host carries its data. -/
theorem Chip.answered_read {c : Chip} {f : PassFrame} {r : Remote} {m : Cmd} (hk : f.kind = 2) (hst : f.status = Status.ok)
    (hr : c.passes.remotes = [r]) (hsent : r.sent = true) (htag : r.frame.tag = f.tag) (hkind : r.frame.kind = 1)
    (hsrc : r.frame.dest = f.source) (hwho : r.who = .mem 0x0E03 m) : c.answered f =
      (c.dropRemote r).finish 0x0E03 m Status.ok 0 (wordsOfBytes ((f.payload.length + 7) / 8) f.payload) := by
  unfold Chip.answered
  dsimp only
  rw [hr, hk, List.find?_cons_of_pos (by simp [hsent, htag, hkind, hsrc])]
  dsimp only
  rw [hwho]
  dsimp only
  rw [if_pos ⟨hst, rfl⟩]

/-- Settles O45: each kind of frame. -/
theorem sinkFramesAreServed : Obligations.SinkFramesAreServed := by
  unfold Obligations.SinkFramesAreServed
  dsimp only [exec]
  refine ⟨?tag, ?misroute, ?other, ?request, ?answer⟩
  case tag =>
    rintro n f s c1 hn hk hst hp hcol rfl
    refine (units_run (by simpa [sinkOk] using hn)).trans ?_
    rw [Chip.sinkFrame_tag hk hst, Chip.sinkTag_matching ((Chip.found_f ..).trans hst) (hp.trans (Chip.found_f ..).symm) hcol,
      Chip.found_sink, Chip.found, Chip.setSink_setSink]
  case misroute =>
    intro n f s hn hk hst hp hcmd
    refine ⟨_, units_run (by simpa [sinkOk] using hn), ?_⟩
    rw [Chip.sinkFrame_tag hk hst]
    exact Chip.sinkTag_misroute ((Chip.found_f ..).trans hst) (fun h => hp (h.trans (Chip.found_f ..)))
      ((congrArg Sink.cmd (Chip.found_sink ..)).trans hcmd)
  case other =>
    rintro n f s c1 lane hn hk hst hid hdest hlost hhop hroute rfl
    refine (units_run (by simpa [sinkOk] using hn)).trans ?_
    have hroute' : (s.chip.found n).routeLane f.dest (frameOffset f) = some lane := hroute
    rw [Chip.sinkFrame_up hk hst hid, if_pos hdest, if_neg hlost, Chip.regenerate, hroute']
    dsimp only
    rw [if_neg (by omega)]
    rfl
  case request =>
    rintro n f s c1 e a hn hk hst hid hdest hcrc h0 hlen rfl he rfl hin
    refine (units_run (by simpa [sinkOk] using hn)).trans ?_
    rw [Chip.sinkFrame_up (by omega) hst hid, if_neg (by simp [hdest]), if_neg (by simp [hcrc]), if_pos (by tauto),
      Chip.serveFrame_granted (c := s.chip.found n) hk h0 hlen he hin]
    rfl
  case answer =>
    rintro n f s c1 r op m hn hk hst0 rfl hst hid hdest hcrc hr hsent htag hkind hsrc hwho rfl
    refine (units_run (by simpa [sinkOk] using hn)).trans ?_
    rw [Chip.sinkFrame_up (by omega) hst hid, if_neg (by simp [hdest]), if_neg (by simp [hcrc]), if_neg (by omega),
      Chip.answered_read (c := s.chip.found n) hk hst0 hr hsent htag hkind hsrc hwho]
    rfl

end Sys2Proof.Machine
end

section
/-!
The link to Azral (R400 to R411, file 13 of spec/): the statement O50.
-/

namespace Sys2Proof.Machine

/-! ### What moves on the link -/

theorem Link.next_limits {l l' : Link} {f : Flit} (h : l.next = some (l', f)) :
    l'.limit2 = l.limit2 ∧ l'.limit3 = l.limit3 := by
  unfold Link.next at h
  dsimp only at h
  split at h
  · cases h
  · split at h
    · cases h
      exact ⟨rfl, rfl⟩
    · split at h
      · cases h
        exact ⟨rfl, rfl⟩
      · cases h

/-- Sending what the credits allow leaves the far end's limits. -/
theorem Link.pump_limits (n : Nat) (l : Link) :
    (Link.pump n l).1.limit2 = l.limit2 ∧ (Link.pump n l).1.limit3 = l.limit3 := by
  induction n generalizing l with
  | zero => exact ⟨rfl, rfl⟩
  | succ n ih =>
    rw [Link.pump]
    cases h : l.next with
    | none => exact ⟨rfl, rfl⟩
    | some r =>
      obtain ⟨l', f⟩ := r
      obtain ⟨h2, h3⟩ := Link.next_limits h
      exact ⟨(ih l').1.trans h2, (ih l').2.trans h3⟩

theorem Chip.pump_eq (c : Chip) : ∃ o l, c.pump = { c with outs := o, link := l } ∧
    l.limit2 = c.link.limit2 ∧ l.limit3 = c.link.limit3 := by
  unfold Chip.pump
  split
  · exact ⟨_, _, rfl, Link.pump_limits ..⟩
  · exact ⟨c.outs, c.link, rfl, rfl, rfl⟩

theorem Chip.pump_f (c : Chip) (fl : Fld) (idx : List Nat) : c.pump.f fl idx = c.f fl idx := by
  obtain ⟨o, l, h, -⟩ := c.pump_eq
  exact Chip.f_congr (by rw [h]) (by rw [h]) fl idx

theorem Chip.pump_limit2 (c : Chip) : c.pump.link.limit2 = c.link.limit2 := by
  obtain ⟨o, l, h, h2, -⟩ := c.pump_eq
  rw [h, ← h2]

theorem Chip.pump_limit3 (c : Chip) : c.pump.link.limit3 = c.link.limit3 := by
  obtain ⟨o, l, h, -, h3⟩ := c.pump_eq
  rw [h, ← h3]

@[simp] theorem Chip.setLink_f (c : Chip) (l : Link) (fl : Fld) (idx : List Nat) : (c.setLink l).f fl idx = c.f fl idx :=
  Chip.f_congr (a := c.setLink l) (b := c) rfl rfl fl idx

@[simp] theorem Chip.sendFlit_f (c : Chip) (x : Flit) (fl : Fld) (idx : List Nat) :
    (c.sendFlit x).f fl idx = c.f fl idx := Chip.f_congr (a := c.sendFlit x) (b := c) rfl rfl fl idx

theorem Chip.message_f {c : Chip} {t kind : Nat} {body : List Byte} {fl : Fld} {idx : List Nat} (h : fl.name ≠ .sysMsgq) :
    (c.message t kind body).f fl idx = c.f fl idx := Chip.f_of_get (c.message_get t kind body _ h)

/-! ### The state of the link (R406 to R411) -/

theorem Chip.whenUp_up {c : Chip} {f : Chip → Chip} (hp : c.powered = true) (hst : c.f Fld.azlState_state = 2) :
    c.whenUp f = f c := if_pos ⟨hp, hst⟩

theorem Chip.flit_broken {c : Chip} {bs : List Byte} (hp : c.powered = true) (hst : c.f Fld.azlState_state = 2)
    (hbad : Flit.ofBytes bs = none) : c.flit bs = (c.count Fld.azlStat_crcErr []).sendRetry := by
  rw [Chip.flit, if_neg (by simp [hp, hst]), hbad]

/-- What every whole flit tells of acknowledgement and credits. -/
def Chip.hear (c : Chip) (f : Flit) : Chip :=
  c.setLink { c.link with
    replay := takeAck f.ack c.link.replay, credit2 := unwrap c.link.credit2 f.credLo,
    credit3 := unwrap c.link.credit3 f.credHi }

theorem Chip.flit_data {c : Chip} {bs : List Byte} {f : Flit} (hp : c.powered = true) (hst : c.f Fld.azlState_state = 2)
    (hf : Flit.ofBytes bs = some f) (hk : f.ftype = 1) (hseq : f.seq = (c.link.rxSeq + 1) % 4096) : c.flit bs =
      (((c.hear f).setLink { (c.hear f).link with rxSeq := f.seq, retrying := false }).takePayload f).pump := by
  unfold Chip.flit
  rw [if_neg (by simp [hp, hst]), hf]
  dsimp only
  rw [if_neg (by omega), if_pos hk]
  exact if_pos hseq

theorem Chip.flit_retry {c : Chip} {bs : List Byte} {f : Flit} (hp : c.powered = true) (hst : c.f Fld.azlState_state = 2)
    (hf : Flit.ofBytes bs = some f) (hk : f.ftype = 2) : c.flit bs = (c.hear f).resend.pump := by
  unfold Chip.flit
  rw [if_neg (by simp [hp, hst]), hf]
  exact if_pos hk

/-- Every held flit sent again, where none has been seven times. -/
theorem Chip.resend_held {c : Chip} (h : ∀ x ∈ c.link.replay, x.again < 7) :
    c.resend.outs = c.outs ++ c.link.replay.map (fun x => .flit (c.link.stamp x.flit)) ∧
      c.resend.link.replay = c.link.replay.map (fun x => { x with again := x.again + 1 }) ∧
      c.resend.f Fld.azlState_state = c.f Fld.azlState_state := by
  have hfresh : ¬ (c.link.replay.map fun x => { x with again := x.again + 1 : Held }).any
      (fun x => decide (8 ≤ x.again)) = true := by
    simp only [List.any_map, List.any_eq_true, Function.comp, decide_eq_true_eq, not_exists, not_and]
    intro x hx
    have := h x hx
    omega
  unfold Chip.resend
  dsimp only
  split
  · next h => exact absurd h hfresh
  · refine ⟨rfl, rfl, ?_⟩
    rw [Chip.count, Chip.f_setF_of_name_ne _ _ _ (by decide)]
    exact Chip.f_congr rfl rfl ..

theorem Chip.retrain_state {c : Chip} (hst : c.f Fld.azlState_state = 2) :
    c.retrain.f Fld.azlState_state = 1 ∧ c.retrain.link = c.link := by
  rw [Chip.retrain, if_pos hst]
  refine ⟨?_, by simp⟩
  rw [Chip.f_ev_of_name_ne (by decide) (by decide), Chip.count, Chip.f_setF_disjoint (by decide) (by decide) (by decide)]
  exact Chip.f_setF_eq (by decide) (by decide) (by decide)

theorem Chip.linkDown_state (c : Chip) :
    c.linkDown.f Fld.azlState_state = 0 ∧ c.linkDown.link = { packets := c.link.packets } := by
  rw [Chip.linkDown]
  refine ⟨?_, by simp [Chip.setLink]⟩
  rw [Chip.f_ev_of_name_ne (by decide) (by decide), Chip.setLink_f]
  exact Chip.f_setF_eq (by decide) (by decide) (by decide)

theorem Chip.linkUp_retrained {c : Chip} {bs : List Byte} (hp : c.powered = true) (hst : c.f Fld.azlState_state = 1) :
    (c.linkUp bs).f Fld.azlState_state = 2 ∧ (c.linkUp bs).mem = c.mem := by
  refine ⟨?_, by simp⟩
  unfold Chip.linkUp
  rw [if_neg (by simp [hp]), if_pos hst]
  dsimp only
  rw [Chip.pump_f, Chip.count, Chip.f_setF_of_name_ne _ _ _ (by decide), Chip.setLink_f]
  exact (Chip.f_congr (b := c.setF Fld.azlState_state [] 2) rfl rfl ..).trans
    (Chip.f_setF_eq (by decide) (by decide) (by decide))

/-- The far end's INIT gives its limits. -/
theorem Chip.linkUp_init {c : Chip} {bs : List Byte} {f : Flit} (hp : c.powered = true) (hst : c.f Fld.azlState_state = 0)
    (hf : Flit.ofBytes bs = some f) (hk : f.ftype = 3) (hver : leNat (f.payload.take 2) = 1) :
    (c.linkUp bs).f Fld.azlState_state = 2 ∧
      (c.linkUp bs).link.limit2 = leNat ((f.payload.drop 2).take 2) ∧
      (c.linkUp bs).link.limit3 = leNat ((f.payload.drop 4).take 2) := by
  unfold Chip.linkUp
  rw [if_neg (by simp [hp]), if_neg (by omega), if_pos hst, hf]
  dsimp only
  rw [if_neg (by omega), Chip.pump_f, Chip.pump_limit2, Chip.pump_limit3, Chip.message_link, Chip.message_f (by decide),
    Chip.sendFlit_f]
  exact ⟨Chip.f_setF_eq (by decide) (by decide) (by decide), rfl, rfl⟩

theorem Chip.bootUp_loaded {c : Chip} (h : c.loaded = true) : c.bootUp = c := by
  rw [Chip.bootUp, if_pos (.inr (.inl h))]

/-- The next Tent's first message, which has no data to read. -/
theorem Chip.messageSend_first {c : Chip} {x : Msg} {rest : List Msg} (hp : c.powered = true)
    (hst : c.f Fld.azlState_state = 2) (hq : (c.msgQ ((c.msgLast + 1) % 64)).q = x :: rest) (hx : x.post = none) :
    ∃ d : Chip, d = { c with
        msgs := Tab.set c.msgs ((c.msgLast + 1) % 64) ⟨rest, ((c.msgQ ((c.msgLast + 1) % 64)).seq + 1) % 2 ^ 32⟩
        msgLast := (c.msgLast + 1) % 64 } ∧
      c.messageSend = d.out (.message ((c.msgLast + 1) % 64) x.kind (c.msgQ ((c.msgLast + 1) % 64)).seq x.body) := by
  refine ⟨_, rfl, ?_⟩
  rw [Chip.messageSend, Chip.whenUp_up hp hst]
  show c.sendAny (((c.msgLast + 1 + 0) % 64) :: _) = _
  have hfirst : c.sendFirst ((c.msgLast + 1) % 64) = (Chip.out { c with
      msgs := Tab.set c.msgs ((c.msgLast + 1) % 64) ⟨rest, ((c.msgQ ((c.msgLast + 1) % 64)).seq + 1) % 2 ^ 32⟩
      msgLast := (c.msgLast + 1) % 64 }
      (.message ((c.msgLast + 1) % 64) x.kind (c.msgQ ((c.msgLast + 1) % 64)).seq x.body), true) := by
    unfold Chip.sendFirst
    dsimp only
    rw [hq]
    dsimp only
    rw [hx]
    simp
  rw [Nat.add_zero, Chip.sendAny, hfirst]
  rfl

theorem onChip_next {s : State} {f : Chip → Chip} {d : Chip} (h : f s.chip = d) :
    onChip s f = .next { s with chip := d } := by rw [onChip, h]

/-- Settles O50: each event of the link. -/
theorem linkEventsAct : Obligations.LinkEventsAct := by
  unfold Obligations.LinkEventsAct
  dsimp only [exec]
  refine ⟨?broken, ?data, ?retry, ?again, ?idle, ?timeout, ?retrain, ?down, ?up, ?init, ?send⟩
  case broken =>
    intro bs s hp hst hbad
    exact onChip_next (Chip.flit_broken hp hst hbad)
  case data =>
    rintro bs s f c1 hp hst hf hk hseq rfl
    exact onChip_next (Chip.flit_data hp hst hf hk hseq)
  case retry =>
    rintro bs s f c1 hp hst hf hk rfl
    exact onChip_next (Chip.flit_retry hp hst hf hk)
  case again =>
    intro s hp hst hr
    exact onChip_next ((Chip.whenUp_up hp hst).trans (if_pos hr))
  case idle =>
    intro s hp hst
    exact ⟨_, onChip_next (Chip.whenUp_up hp hst), rfl, rfl⟩
  case timeout =>
    intro s hp hst hne hfresh
    obtain ⟨houts, hreplay, hstate⟩ := Chip.resend_held hfresh
    exact ⟨_, onChip_next
      ((Chip.whenUp_up hp hst).trans (if_neg (by simpa using hne))), houts, hreplay, hstate.trans hst⟩
  case retrain =>
    intro s hp hst
    exact ⟨{ s with chip := s.chip.retrain }, onChip_next (f := (Chip.whenUp · Chip.retrain)) (Chip.whenUp_up hp hst), Chip.retrain_state hst⟩
  case down =>
    intro s hp hst
    exact ⟨_, onChip_next (if_pos ⟨hp, hst⟩), Chip.linkDown_state _⟩
  case up =>
    intro bs s hp hl hst
    exact ⟨_, onChip_next (congrArg (Chip.linkUp · bs) (Chip.bootUp_loaded hl)),
      Chip.linkUp_retrained hp hst⟩
  case init =>
    intro bs s f hp hl hst hf hk hver
    exact ⟨_, onChip_next (congrArg (Chip.linkUp · bs) (Chip.bootUp_loaded hl)),
      Chip.linkUp_init hp hst hf hk hver⟩
  case send =>
    rintro s t x rest hp hst rfl hq hx
    obtain ⟨d, hd, hsend⟩ := Chip.messageSend_first hp hst hq hx
    obtain ⟨o, l, hout⟩ := d.out_eq (.message ((s.chip.msgLast + 1) % 64) x.kind (s.chip.msgQ ((s.chip.msgLast + 1) % 64)).seq x.body)
    refine ⟨_, onChip_next hsend, ?_, ?_, ?_⟩
    · show (Tab.get (Chip.out _ _).msgs _ {}).q = rest
      rw [hout, hd, Tab.get_set_same]
    · show (Chip.out _ _).msgLast = _
      rw [hout, hd]
    · obtain ⟨a, b, h⟩ := Chip.out_sent d (.message ((s.chip.msgLast + 1) % 64) x.kind (s.chip.msgQ ((s.chip.msgLast + 1) % 64)).seq x.body)
      exact ⟨a, b, h.trans (by rw [hd])⟩

end Sys2Proof.Machine
end

section
/-!
The time of the radio path (R380 to R384, files 02 and 12 of spec/): the statement O47.
-/

namespace Sys2Proof.Machine

/-- An entry that a filter drops, written, leaves what the filter keeps. -/
theorem Tab.filterMap_set {κ α β : Type} [DecidableEq κ] {f : κ × α → Option β} {k : κ} (h : ∀ a, f (k, a) = none)
    (t : Tab κ α) (a : α) : (Tab.set t k a).filterMap f = t.filterMap f := by
  induction t with
  | nil => simp [Tab.set, h]
  | cons p t ih =>
    obtain ⟨k', x⟩ := p
    by_cases hk : k = k'
    · subst hk
      simp [Tab.set, h]
    · simp [Tab.set, hk, List.filterMap_cons, ih]

theorem Chip.put_eaxcWritten {c : Chip} {r : Reg} {x : Word} (h : r.name ≠ .fhEaxc) :
    (c.put r x).eaxcWritten = c.eaxcWritten := by
  refine Tab.filterMap_set (fun a => ?_) c.regs x
  dsimp only
  split
  · next hname _ _ => exact absurd hname h
  · rfl

/-! ### Slots and frames (R34, R384) -/

theorem Chip.applyFrameLen_same {c : Chip} {old : Nat} (h : c.radio.numerology = old) :
    c.applyFrameLen old = { c with bud := { c.bud with frameLen := c.f Fld.budFrameCfg_frameLen } } := by
  unfold Chip.applyFrameLen
  dsimp only
  rw [if_neg (by simp [h])]

/-- The chip of a named slot: its number stands in FH_SFN, and what waited for the tick is in force. -/
def Chip.slotNamed (c : Chip) (x : Word) : Chip :=
  let d := (c.put { name := .fhSfn } x).setF Fld.budFrameCfg_tickSource [] 0
  { d with radio := { d.radio with eaxcOld := [], winOld := none } }

theorem Chip.slotNamed_fhSfn (c : Chip) (x : Word) : (c.slotNamed x).get { name := .fhSfn } = x := by
  rw [Chip.slotNamed]
  show (Chip.setF _ _ _ _).get _ = _
  rw [Chip.get_setF_of_name_ne _ _ (by decide), Chip.get_put_same]

theorem Chip.slotNamed_eaxcWritten (c : Chip) (x : Word) : (c.slotNamed x).eaxcWritten = c.eaxcWritten :=
  (Chip.put_eaxcWritten (c := c.put { name := .fhSfn } x) (by decide)).trans (Chip.put_eaxcWritten (by decide))

theorem Chip.slotNamed_radio (c : Chip) (x : Word) :
    (c.slotNamed x).radio = { c.radio with eaxcOld := [], winOld := none } ∧ (c.slotNamed x).mem = c.mem := ⟨rfl, rfl⟩

/-- The time of a slot that GPS time gives, past the frame offset (R381). -/
theorem Chip.frameTime_gps {c : Chip} {t : Nat} (h : c.f Fld.fhCfg_tsrc ≠ 2) :
    c.frameTime t = ((t : Int) - c.sf Fld.fhOffset_offset, 0) := if_neg h

/-- A slot of unchanged numerology opens with its number and nothing of the uplink to clear. -/
theorem Chip.slotOpens_gps {c : Chip} {t : Nat} {e : Int} (hsrc : c.f Fld.fhCfg_tsrc ≠ 2)
    (hn : c.radio.numerology = c.f Fld.fhCfg_numerology) (he : e = (t : Int) - c.sf Fld.fhOffset_offset)
    (hw : c.eaxcWritten = []) : ∃ d : Chip, d.radio = c.radio ∧ d.mem = c.mem ∧
      c.slotOpens t = d.slotNamed (BitVec.ofNat 64 ((e / 10000000 % 1024).toNat * 65536 +
        (e % 10000000 / slotNs (c.f Fld.fhCfg_numerology)).toNat)) := by
  have hset : (if (c.frameTime t).1 % (slotNs (min (c.f Fld.fhCfg_numerology) c.radio.numerology) : Int) = 0
      then c.setNumerology (c.f Fld.fhCfg_numerology) else c).applyFrameLen c.radio.numerology =
      { c with bud := { c.bud with frameLen := c.f Fld.budFrameCfg_frameLen } } := by
    have hsame : c.setNumerology (c.f Fld.fhCfg_numerology) = c := by rw [Chip.setNumerology, ← hn]
    rw [hsame, ite_self, Chip.applyFrameLen_same rfl]
  refine ⟨{ c with bud := { c.bud with frameLen := c.f Fld.budFrameCfg_frameLen } }, rfl, rfl, ?_⟩
  unfold Chip.slotOpens
  dsimp only
  rw [hset, Chip.frameTime_gps hsrc, ← he, ← hn]
  simp only [Int.zero_add]
  obtain ⟨d, hd⟩ : ∃ d : Chip, d = { c with bud := { c.bud with frameLen := c.f Fld.budFrameCfg_frameLen } } := ⟨_, rfl⟩
  have hnone : d.eaxcWritten = [] := by rw [hd, ← hw]; rfl
  rw [← hd]
  show List.foldl _ (d.slotNamed _) (d.slotNamed _).eaxcWritten = _
  rw [Chip.slotNamed_eaxcWritten, hnone]
  rfl

theorem Chip.newFrame_bud (c : Chip) : c.newFrame.bud.frame = c.bud.frame + 1 ∧ c.newFrame.bud.used = [] := by
  rw [Chip.newFrame]
  exact ⟨rfl, rfl⟩

/-! ### PPS edges and the timing island (R380 to R383) -/

theorem Chip.ppsEdge_pps {c : Chip} {t : Nat} (h : c.f Fld.fhCfg_tsrc = 2) : ∃ k, c.ppsEdge t =
    { c with radio := { c.radio with pps := some (t, c.radio.sfnSet.getD k), sfnSet := none } } ∧
      ∀ e m, c.radio.pps = some (e, m) → k = (m + (t - e + 5000000) / 10000000) % 1024 := by
  unfold Chip.ppsEdge
  rw [if_neg (by simp [h])]
  refine ⟨_, rfl, fun e m hpps => ?_⟩
  rw [hpps]

theorem Chip.passSync_passes {c : Chip} {old new : Nat} (h : c.f Fld.fhState_state = old) (hnew : new < 4) :
    (c.passSync old new).f Fld.fhState_state = new ∧ (c.passSync old new).mem = c.mem := by
  rw [Chip.passSync, if_pos h]
  exact ⟨Chip.f_setSync hnew, by simp⟩

/-- Settles O47: each event of the radio time. -/
theorem radioTimeGoesOn : Obligations.RadioTimeGoesOn := by
  unfold Obligations.RadioTimeGoesOn
  dsimp only [exec]
  refine ⟨?slot, ?free, ?start, ?frame, ?counts, ?takes, ?locked, ?lost, ?back⟩
  case slot =>
    rintro t s n e hlock hsrc rfl - hnum he hw
    obtain ⟨d, hradio, hmem, hd⟩ := Chip.slotOpens_gps hsrc hnum he hw
    have hnamed := Chip.slotNamed_radio d (BitVec.ofNat 64 ((e / 10000000 % 1024).toNat * 65536 +
      (e % 10000000 / slotNs (s.chip.f Fld.fhCfg_numerology)).toNat))
    refine ⟨_, Chip.slotNamed_fhSfn d _, ?_, ?_, ?_, hnamed.2.trans hmem, ?_⟩
    · rw [hnamed.1, hradio]
    · rw [hnamed.1]
    · rw [hnamed.1]
    · refine onChip_next ?_
      rw [Chip.slotTick, if_neg (by simp [hlock]), hd]
  case free =>
    intro s hlock
    exact ⟨_, rfl, onChip_next (if_neg (by simp [hlock]))⟩
  case start => exact fun c => ⟨_, rfl, rfl⟩
  case frame => exact fun s => ⟨_, rfl, (Chip.newFrame_bud _).1, (Chip.newFrame_bud _).2, rfl⟩
  case counts =>
    intro t s e m hsrc hpps hset
    obtain ⟨k, heq, hk⟩ := Chip.ppsEdge_pps (t := t) hsrc
    refine ⟨_, onChip_next heq, rfl, rfl, ?_⟩
    show some (t, s.chip.radio.sfnSet.getD k) = _
    rw [hset, Option.getD_none, hk e m hpps]
  case takes =>
    intro t s n hsrc hset
    obtain ⟨k, heq, -⟩ := Chip.ppsEdge_pps (t := t) hsrc
    refine ⟨_, onChip_next heq, rfl, rfl, ?_⟩
    simp [hset]
  case locked => exact fun s hst => ⟨_, rfl, Chip.passSync_passes hst (by decide)⟩
  case lost => exact fun s hst => ⟨_, rfl, Chip.passSync_passes hst (by decide)⟩
  case back => exact fun s hst => ⟨_, rfl, Chip.passSync_passes hst (by decide)⟩

end Sys2Proof.Machine
end

section
/-!
Start-up, shut-down and the Lantern (R500 to R517, files 15 and 17 of spec/): the statement O51.
-/

namespace Sys2Proof.Machine

/-! ### The device turned on and off -/

theorem Chip.powered_iff {c : Chip} : c.powered = true ↔ c.device ≠ .off ∧ c.device ≠ .lantern := by
  unfold Chip.powered
  split <;> simp_all

theorem Chip.powered_congr {c d : Chip} (h : d.device = c.device) : d.powered = c.powered := by
  rw [Chip.powered, Chip.powered, h]

theorem Chip.trip_powered {c : Chip} {cause : Nat} (h : c.powered = true) :
    c.trip cause = (c.lantRecord cause false).powerOff := if_pos h

theorem Chip.trip_dark {c : Chip} {cause : Nat} (h : c.powered = false) : c.trip cause = c := if_neg (by simp [h])

theorem Chip.powerOff_device (c : Chip) : c.powerOff.device = .lantern := rfl

theorem Chip.trip_device {c : Chip} {cause : Nat} (h : c.powered = true) : (c.trip cause).device = .lantern := by
  rw [Chip.trip_powered h, Chip.powerOff_device]

/-- Only a device in LANTERN starts. -/
theorem Chip.tryStart_running {c : Chip} (h : c.device ≠ .lantern) : c.tryStart = c := if_neg fun h' => h h'.1

theorem Chip.tryStart_unasked {c : Chip} (hw : c.boot.wake = false) (ha : c.flag Fld.lantCfg_autoWake = false) :
    c.tryStart = c := by
  rw [Chip.tryStart, if_neg (by simp [hw, ha])]

/-- A stage turned on. -/
def Chip.stageLit (c : Chip) (k : Nat) : Chip := c.put { name := .pwrStage, idx := [k] } (BitVec.ofNat 64 (2 ^ 31))

theorem Chip.stageLit_same (c : Chip) (k : Nat) : (c.stageLit k).get { name := .pwrStage, idx := [k] } = 0x80000000 :=
  Chip.get_put_same ..

theorem Chip.stageLit_keeps {c : Chip} {k j : Nat} (h : c.get { name := .pwrStage, idx := [j] } = 0x80000000) :
    (c.stageLit k).get { name := .pwrStage, idx := [j] } = 0x80000000 := by
  by_cases hk : k = j
  · subst hk
    exact c.stageLit_same k
  · exact (Chip.get_put_other _ _ _ _ (by simpa using Ne.symm hk)).trans h

theorem Chip.stagesLit (n : Nat) (c : Chip) : ((List.range n).foldl Chip.stageLit c).boots = c.boots ∧
    ((List.range n).foldl Chip.stageLit c).boot = c.boot ∧
    ∀ k < n, ((List.range n).foldl Chip.stageLit c).get { name := .pwrStage, idx := [k] } = 0x80000000 :=
  ⟨Chip.foldl_keeps Chip.boots _ _ fun _ _ _ => rfl, Chip.foldl_keeps Chip.boot _ _ fun _ _ _ => rfl, fun _ hk =>
    Chip.foldl_establishes (f := Chip.stageLit) (fun c k => c.get { name := .pwrStage, idx := [k] } = 0x80000000)
      Chip.stageLit_same (fun _ _ _ => Chip.stageLit_keeps) _ _ _ (List.mem_range.mpr hk)⟩

theorem Chip.startUp_state (c : Chip) : c.startUp.device = .starting ∧ c.startUp.boots = c.boots + 1 ∧
    c.startUp.boot.testStop = c.boot.jtagTen ∧ ∀ k < 48, c.startUp.get { name := .pwrStage, idx := [k] } = 0x80000000 := by
  obtain ⟨hboots, hboot, hlit⟩ := Chip.stagesLit 48 c
  obtain ⟨d, hd⟩ : ∃ d, d = (List.range 48).foldl Chip.stageLit c := ⟨_, rfl⟩
  have heq : c.startUp = { d with device := .starting, boots := d.boots + 1, boot := { d.boot with testStop := d.boot.jtagTen } } := by
    rw [hd]
    rfl
  rw [← hd] at hboots hboot hlit
  rw [heq, ← hboots, ← hboot]
  exact ⟨rfl, rfl, rfl, fun k hk => (Chip.get_congr rfl rfl _).trans (hlit k hk)⟩

theorem Chip.pins_device (c : Chip) (wake ten : Bool) : (c.pins wake ten).device = c.device := rfl

theorem Chip.pins_boot (c : Chip) (wake ten : Bool) :
    (c.pins wake ten).boot = { c.boot with wake := wake, jtagTen := ten } := rfl

/-- A device in LANTERN that is asked for starts, where nothing holds it. -/
theorem Chip.wakeRequest_starts {c : Chip} {ten : Bool} (hd : c.device = .lantern) (hclear : (c.pins true ten).cmpClear = true)
    (hf : c.boot.faultWait = false) (hb : c.boot.backup = false) : c.wakeRequest true ten = (c.pins true ten).startUp := by
  rw [Chip.wakeRequest, if_neg (by simp [hd]), Chip.tryStart]
  exact if_pos ⟨hd, .inl rfl, hclear, by simp [Chip.pins_boot, hf], by simp [Chip.pins_boot, hb]⟩

theorem Chip.wakeWithdrawn_shuts {c : Chip} (hp : c.powered = true) : c.wakeWithdrawn.boot.shutting = true := by
  unfold Chip.wakeWithdrawn
  dsimp only
  rw [if_neg (Chip.powered_iff.mp hp).1, if_pos ((Chip.powered_congr (Chip.pins_device ..)).trans hp)]

theorem Chip.stageFault_waits {c : Chip} {k cause : Nat} (hp : c.powered = true) :
    (c.stageFault k cause).device = .lantern ∧ (c.stageFault k cause).boot.faultWait = true := by
  unfold Chip.stageFault
  dsimp only
  rw [if_neg (by simp [hp])]
  exact ⟨Chip.trip_device ((Chip.powered_congr (by simp)).trans hp), rfl⟩

/-! ### The Lantern's supply and comparators (R504 to R508) -/

theorem Chip.inputTrip_fires {c : Chip} {f : Fld} {cause : Nat} (hp : c.powered = true) (hb : c.boot.backup = false) :
    c.inputTrip f true cause = ((c.setF f [] 1).lantRecord cause false).powerOff := by
  unfold Chip.inputTrip
  rw [if_neg (by simp [hb, (Chip.powered_iff.mp hp).1])]
  exact Chip.trip_powered ((Chip.powered_congr (Chip.setF_device ..)).trans hp)

theorem Chip.lanternUp_off {c : Chip} {b : Bool} (h : c.device = .off) : (c.lanternUp b).device = .lantern ∧
    (c.lanternUp b).boot.backup = b ∧ (c.lanternUp b).f Fld.lantSec_valid = 0 := by
  rw [Chip.lanternUp, if_pos h]
  exact ⟨rfl, rfl, Chip.f_setF_eq (by decide) (by decide) (by decide)⟩

/-- The comparators without their supply read clear. -/
def Chip.cmpDark (c : Chip) : Chip :=
  ((c.setF Fld.lantCmp_uv [] 0).setF Fld.lantCmp_ov [] 0).setF Fld.lantCmp_coolantHot [] 0

theorem Chip.cmpDark_f (c : Chip) : c.cmpDark.f Fld.lantCmp_uv = 0 ∧ c.cmpDark.f Fld.lantCmp_ov = 0 ∧
    c.cmpDark.f Fld.lantCmp_coolantHot = 0 := by
  refine ⟨?_, ?_, Chip.f_setF_eq (by decide) (by decide) (by decide)⟩
  · rw [Chip.cmpDark, Chip.f_setF_disjoint (by decide) (by decide) (by decide),
      Chip.f_setF_disjoint (by decide) (by decide) (by decide)]
    exact Chip.f_setF_eq (by decide) (by decide) (by decide)
  · rw [Chip.cmpDark, Chip.f_setF_disjoint (by decide) (by decide) (by decide)]
    exact Chip.f_setF_eq (by decide) (by decide) (by decide)

theorem Chip.onBackup_lantern {c : Chip} (h : c.device = .lantern) : c.onBackup =
    ({ c with boot := { c.boot with backup := true } } : Chip).cmpDark := by
  have hdark : c.powered = false := by simp [Chip.powered, h]
  unfold Chip.onBackup
  dsimp only
  rw [if_neg (by simp [h]), Chip.trip_dark hdark]
  rfl

theorem Chip.coolantComparator_clears {c : Chip} (hp : c.powered = true) (hb : c.boot.backup = false) :
    c.coolantComparator false = c.setF Fld.lantCmp_coolantHot [] 0 := by
  obtain ⟨hoff, hlant⟩ := Chip.powered_iff.mp hp
  unfold Chip.coolantComparator
  rw [if_neg (by simp [hb, hoff])]
  exact Chip.tryStart_running hlant

theorem Chip.coolantComparator_holds {c : Chip} (hd : c.device = .service) (hb : c.boot.backup = false) :
    c.coolantComparator true = (c.setF Fld.lantCmp_coolantHot [] 1).enterHold 2 := by
  unfold Chip.coolantComparator
  rw [if_neg (by simp [hb, hd])]
  rfl

/-! ### SERVICE and the store (R510, R552) -/

/-- The device in SERVICE, its slots restored. -/
def Chip.inService (c : Chip) : Chip :=
  (({ c with device := .service, boot := { c.boot with release := false, restored := true } } : Chip).giveFloors
    fun _ => true).askBoosters

theorem Chip.enterService_enters {c : Chip} {xs : List (Nat × List Int)} (hd : c.device = .starting) (hl : c.loaded = true)
    (hcal : c.calDone = true) : c.enterService xs =
      (if c.boot.restored then (List.range 64).foldl Chip.settleQuiesce c
        else c.bankNow.slots.foldl (fun c p => c.restoreSlot p.1.1 p.1.2 p.2 xs) c).clearHarqs.inService := by
  unfold Chip.enterService
  rw [if_neg (by simp [hd, hl, hcal])]
  rfl

theorem Chip.storeUpdate_stores {c : Chip} (hp : c.powered = true) (hl : c.loaded = true) :
    c.storeUpdate.bankNow = c.snapshot ∧ c.storeUpdate.current = 1 - min c.current 1 ∧ c.storeUpdate.regs = c.regs := by
  unfold Chip.storeUpdate
  dsimp only
  rw [if_neg (by simp [hp, hl])]
  split
  · next h => exact ⟨rfl, by simp [h], rfl⟩
  · next h => exact ⟨rfl, by dsimp only; omega, rfl⟩

/-- Settles O51: each event of start-up, shut-down and the Lantern. -/
theorem powerEventsAct : Obligations.PowerEventsAct := by
  unfold Obligations.PowerEventsAct
  dsimp only [exec]
  refine ⟨?wake, ?withdrawn, ?shutdown, ?fault, ?waited, ?under, ?above, ?up, ?loss, ?backup, ?cool, ?hot, ?round, ?tick,
    ?held, ?first, ?store⟩
  case wake =>
    rintro ten s c1 hd rfl hclear hf hb
    exact ⟨_, onChip_next (Chip.wakeRequest_starts hd hclear hf hb), Chip.startUp_state (s.chip.pins true ten)⟩
  case withdrawn => exact fun s hp => ⟨_, rfl, Chip.wakeWithdrawn_shuts hp⟩
  case shutdown =>
    intro s hp hsh
    refine onChip_next ?_
    rw [if_pos hsh, Chip.trip_powered hp]
  case fault =>
    intro k cause s hk h1 h3 hp
    exact ⟨_, units_run (by simp [hk, h1, h3]), Chip.stageFault_waits hp⟩
  case waited => exact fun s hd hw ha => onChip_next (Chip.tryStart_unasked hw ha)
  case under => exact fun s hp hb => onChip_next (Chip.inputTrip_fires hp hb)
  case above => exact fun s hp hb => onChip_next (Chip.inputTrip_fires hp hb)
  case up => exact fun b s h => ⟨_, rfl, Chip.lanternUp_off h⟩
  case loss => exact fun s => ⟨_, rfl, rfl⟩
  case backup =>
    intro s h
    exact ⟨_, onChip_next (Chip.onBackup_lantern h), h, rfl, Chip.cmpDark_f _⟩
  case cool => exact fun s hp hb => onChip_next (Chip.coolantComparator_clears hp hb)
  case hot => exact fun s hd hb => onChip_next (Chip.coolantComparator_holds hd hb)
  case round =>
    intro ss s hp hl
    refine onChip_next ?_
    rw [Chip.hkEvent, Chip.bootUp_loaded hl]
    exact if_pos ⟨hp, hl⟩
  case tick =>
    rintro ss c c1 rfl
    exact ⟨_, rfl, _, rfl, by rw [Chip.hkTick]⟩
  case held =>
    intro xs s hd hl hres hrel
    refine ⟨_, rfl, onChip_next ?_⟩
    rw [Chip.enterService_enters hd hl (by simp [Chip.calDone, hrel]), if_pos hres]
    rfl
  case first =>
    intro xs s hd hl hcal hres hslots
    refine ⟨_, rfl, onChip_next ?_⟩
    rw [Chip.enterService_enters hd hl hcal, if_neg (by simp [hres]), hslots]
    rfl
  case store => exact fun s hp hl => ⟨_, rfl, Chip.storeUpdate_stores hp hl⟩

end Sys2Proof.Machine
end

section
/-!
The coders' code blocks (R393 to R399, file 12 of spec/): the statement O49.
-/

namespace Sys2Proof.Machine

/-- The waiting descriptor of a Tent whose next block is to start. -/
def Chip.nextCoder (c : Chip) (t : Nat) : Option CoderJob :=
  c.coderJobs.find? fun x => x.tent == t && x.status.isNone && decide (x.started < (CoderDesc.ofWords x.desc).blocks)

/-- What the first block of a descriptor reads and may write. -/
def Chip.coderMem (c : Chip) (t : Nat) (j : CoderJob) (d : CoderDesc) : List (Gate × Nat) :=
  if j.started = 0 then
    memAccess d.inp d.inBytes ++ memAccess d.out d.outBytes ++ memAccess d.report 32 ++ memAccess d.done 32 ++ c.harqReads t d
  else []

/-- A block that starts, on the chip that admitted it. -/
def Chip.blockBegun (c1 : Chip) (j : CoderJob) (fr : Nat) : Chip :=
  let b := if j.started = 0 then c1.coderBegin j else (c1, j)
  b.1.setCoderJob { b.2 with started := j.started + 1, running := b.2.running ++ [(j.started, fr)] }

theorem CoderDesc.charge_of_kind_ne {d : CoderDesc} (h : d.kind ≠ 0) : d.charge = 1 := if_neg h

theorem CoderDesc.charge_decode {d : CoderDesc} (h : d.kind = 0) : d.charge = d.iter := if_pos h

theorem Chip.harqReads_of_kind_ne {c : Chip} {t : Nat} {d : CoderDesc} (h : d.kind ≠ 0) : c.harqReads t d = [] :=
  if_neg fun h' => h h'.1

theorem Chip.harqWrites_of_kind_ne {c : Chip} {j : CoderJob} (h : (CoderDesc.ofWords j.desc).kind ≠ 0) :
    c.harqWrites j = [] := if_neg fun h' => h h'.1

theorem Chip.harqWaits_eq_false {c : Chip} {j : CoderJob}
    (h : (CoderDesc.ofWords j.desc).kind = 0 → j.started = 0 → (c.harq (CoderDesc.ofWords j.desc).hidx).busy = false) :
    c.harqWaits j = false := by
  unfold Chip.harqWaits
  by_cases hk : (CoderDesc.ofWords j.desc).kind = 0 <;> by_cases hs : j.started = 0 <;> simp_all

/-- A block that a coder has place, credits and grains for starts. -/
theorem Chip.codeBlockStart_starts {c c0 c1 : Chip} {t now : Nat} {j : CoderJob} {d : CoderDesc} (hc : c0 = c.takeSubmit t)
    (hd : d = CoderDesc.ofWords j.desc) (hnext : c0.nextCoder t = some j) (hw : c0.harqWaits j = false)
    (hbusy : c0.coderBusy d.kind < coderUnits d.kind) (hserv : c0.device = .service)
    (hdl : c0.deadlineReached d.deadline now = false) (hcred : c0.coderCredit d.kind = none)
    (hadm : c0.admitAll t ((.coder (d.kind == 2), d.charge) :: c0.coderMem t j d) (some (.coder (d.kind == 2))) = (c1, true)) :
    c.codeBlockStart t now = c1.blockBegun j (c0.seenOf (.coder (d.kind == 2))) := by
  subst hd
  unfold Chip.nextCoder at hnext
  unfold Chip.codeBlockStart
  dsimp only
  rw [← hc, hnext]
  dsimp only
  rw [if_neg (by simp [hw, hserv, hbusy]), if_neg (by simp [hdl]), hcred]
  dsimp only
  rw [← Chip.coderMem, hadm]
  exact if_neg (by simp)

theorem Chip.codeBlockStart_late {c c0 : Chip} {t now : Nat} {j : CoderJob} {d : CoderDesc} (hc : c0 = c.takeSubmit t)
    (hd : d = CoderDesc.ofWords j.desc) (hnext : c0.nextCoder t = some j) (hw : c0.harqWaits j = false)
    (hbusy : c0.coderBusy d.kind < coderUnits d.kind) (hserv : c0.device = .service)
    (hdl : c0.deadlineReached d.deadline now = true) : c.codeBlockStart t now =
      (c0.setCoderJob { j with status := some Status.late, flags := j.flags ||| 32 }).ev .decEvLate := by
  subst hd
  unfold Chip.nextCoder at hnext
  unfold Chip.codeBlockStart
  dsimp only
  rw [← hc, hnext]
  dsimp only
  rw [if_neg (by simp [hw, hserv, hbusy]), if_pos hdl]

/-! ### The end of a block and of a descriptor -/

theorem CoderJob.find_replaced {l : List CoderJob} {id : Nat} {j k : CoderJob} (h : l.find? (fun x => x.id == id) = some j)
    (hk : k.id = id) : (l.map fun x => if x.id = k.id then k else x).find? (fun x => x.id == id) = some k := by
  induction l with
  | nil => cases h
  | cons x xs ih =>
    rw [List.map_cons]
    by_cases hx : x.id = id
    · rw [if_pos (hx.trans hk.symm), List.find?_cons_of_pos (by simp [hk])]
    · rw [List.find?_cons_of_neg (by simp [hx])] at h
      rw [if_neg (fun e => hx (e.trans hk)), List.find?_cons_of_neg (by simp [hx]), ih h]

theorem Chip.coderJob_setCoderJob {c : Chip} {id : Nat} {j k : CoderJob} (h : c.coderJob id = some j) (hk : k.id = j.id) :
    (c.setCoderJob k).coderJob id = some k :=
  CoderJob.find_replaced h (hk.trans (by simpa using List.find?_some h))

theorem Chip.coderJob_of_coderJobs {a b : Chip} (h : a.coderJobs = b.coderJobs) (id : Nat) : a.coderJob id = b.coderJob id := by
  rw [Chip.coderJob, Chip.coderJob, h]

theorem Chip.returnIters_keeps (c : Chip) (t frame n : Nat) :
    (c.returnIters t frame n).coderJobs = c.coderJobs ∧ (c.returnIters t frame n).regs = c.regs := by
  unfold Chip.returnIters
  split <;> exact ⟨rfl, rfl⟩

theorem Chip.codeBlockEnd_ends {c : Chip} {id b fr : Nat} {j : CoderJob} (hj : c.coderJob id = some j)
    (hb : j.running.find? (fun p => p.1 == b) = some (b, fr)) : ∃ k, (c.codeBlockEnd id b).coderJob id = some k ∧
      k.ended = j.ended ++ [b] ∧ k.running = j.running.filter (fun q => q.1 != b) ∧ k.started = j.started ∧
      (c.codeBlockEnd id b).regs = c.regs := by
  unfold Chip.codeBlockEnd
  rw [hj]
  dsimp only
  rw [hb]
  dsimp only
  refine ⟨_, Chip.coderJob_setCoderJob (j := j) ?_ rfl, rfl, rfl, rfl, ?_⟩
  · rw [Chip.coderJob_of_coderJobs (Chip.returnIters_keeps ..).1, Chip.coderJob_of_coderJobs (Chip.store_coderJobs ..), hj]
  · exact (Chip.returnIters_keeps ..).2.trans (Chip.store_regs ..)

/-- An encode whose blocks have all ended leaves its report and its completion record. -/
theorem Chip.coderComplete_encode {c c1 : Chip} {id : Nat} {j : CoderJob} {d : CoderDesc} (hj : c.coderJob id = some j)
    (hd : d = CoderDesc.ofWords j.desc) (hk : d.kind = 1) (hr : j.running = []) (he : j.ended.length = d.blocks)
    (hc : c1 = ((c.store d.report (coderReport j d 0xFF j.flags)).complete
      (coderRecord j.tent j.tag (j.status.getD Status.ok) d) (some d.done) j.msgcpl).unwaitJob (.coder false) j.tent) :
    c.coderComplete id = ({ c1 with coderJobs := c1.coderJobs.filter (fun x => x.id != id) } : Chip).settleSweeps := by
  subst hd
  have hadm : (if (j.ended.length == (CoderDesc.ofWords j.desc).blocks) = true ∧ j.status.isNone = true then
      c.admitAll j.tent (c.harqWrites j) (some (.coder ((CoderDesc.ofWords j.desc).kind == 2))) else (c, true)) = (c, true) := by
    rw [Chip.harqWrites_of_kind_ne (by omega)]
    exact ite_self _
  unfold Chip.coderComplete
  rw [hj]
  dsimp only
  rw [hadm, if_neg (by simp [hr, he]), if_neg (by simp), if_pos (.inl (by omega)), if_pos (.inl hk), hk, Nat.or_zero]
  rw [hc]
  rfl

/-- Settles O49: each event of a code block. -/
theorem coderBlocksRun : Obligations.CoderBlocksRun := by
  unfold Obligations.CoderBlocksRun
  dsimp only [exec]
  refine ⟨?other, ?decode, ?late, ?ends, ?complete⟩
  case other =>
    rintro t now s j d mem c0 c1 ht hc hd hk hnext hbusy hserv hdl hcred rfl hadm
    refine ⟨_, rfl, (units_run (by simpa [tentOk] using ht)).trans ?_⟩
    rw [Chip.codeBlockStart_starts (c1 := c1) hc hd hnext
      (Chip.harqWaits_eq_false fun h => absurd h (hd ▸ hk)) hbusy hserv hdl hcred]
    · rfl
    · rw [CoderDesc.charge_of_kind_ne hk, Chip.coderMem, Chip.harqReads_of_kind_ne hk, List.append_nil, hadm]
  case decode =>
    rintro t now s j d mem c0 c1 ht hc hd hk hnext hfree hbusy hserv hdl hcred rfl hadm
    refine ⟨_, rfl, (units_run (by simpa [tentOk] using ht)).trans ?_⟩
    have hgate : (d.kind == 2) = false := by rw [hk]; rfl
    rw [Chip.codeBlockStart_starts (c1 := c1) hc hd hnext
      (Chip.harqWaits_eq_false fun _ h => hd ▸ hfree h) (by rw [hk]; exact hbusy) hserv hdl (by rw [hk]; exact hcred), hgate]
    · rfl
    · rw [hgate, CoderDesc.charge_decode hk]
      exact hadm
  case late =>
    intro t now s j d c0 ht hc hd hnext hw hbusy hserv hdl
    exact (units_run (by simpa [tentOk] using ht)).trans
      (congrArg (fun c => Host.Outcome.next { s with chip := c }) (Chip.codeBlockStart_late hc hd hnext hw hbusy hserv hdl))
  case ends =>
    intro id b s j fr hj hb
    obtain ⟨k, hk⟩ := Chip.codeBlockEnd_ends hj hb
    exact ⟨_, k, rfl, hk⟩
  case complete =>
    intro id s j d c1 hj hd hk hr he hc
    refine ⟨_, onChip_next (Chip.coderComplete_encode hj hd hk hr he hc), ?_⟩
    exact ⟨rfl, rfl, rfl, rfl⟩

end Sys2Proof.Machine
end

section
/-!
Direct channels, the sample clock and the ticks of the loops (files 06 to 08 of spec/): the statement O60.
-/

namespace Sys2Proof.Machine

/-! ### Direct channels (R230, R232) -/

theorem Chip.setChan_eq (c : Chip) (v n : Nat) (x : Chan) : ∃ us, c.setChan v n x =
    { c with chans := Tab.set c.chans (v, n) x, units := us } ∧ (x.out = (c.chan v n).out → us = c.units) := by
  unfold Chip.setChan
  dsimp only
  split
  · next h => exact ⟨_, rfl, fun hout => absurd h (by simp [hout])⟩
  · exact ⟨_, rfl, fun _ => rfl⟩

theorem Chip.chan_setChan (c : Chip) (v n : Nat) (x : Chan) : (c.setChan v n x).chan v n = x := by
  obtain ⟨us, h, -⟩ := c.setChan_eq v n x
  rw [h]
  exact Tab.get_set_same ..

theorem Chip.setChan_regs (c : Chip) (v n : Nat) (x : Chan) : (c.setChan v n x).regs = c.regs := by
  obtain ⟨us, h, -⟩ := c.setChan_eq v n x
  rw [h]

/-- A range hold released after a change of at most one LSB gives the channel back its code. -/
theorem Chip.endRange_still {c : Chip} {v n i0 : Nat} (hr : (c.chan v n).ranging = some i0)
    (hi : i0 ≤ 16384 * rangeLsb (c.chan v n).range) (hcode : c.f Fld.drvCh_code [v, n] = (c.chan v n).out) :
    c.endRange v n = c.setChan v n { c.chan v n with ranging := none } := by
  have hstep : ¬ decide (16383 * rangeLsb (c.chan v n).range + rangeLsb (c.chan v n).range < i0) = true := by
    rw [decide_eq_true_eq]
    omega
  unfold Chip.endRange
  dsimp only
  rw [hr]
  dsimp only
  rw [if_neg hstep, if_pos (Or.inl hcode)]

/-! ### The tick of a loop (R241 to R260) -/

theorem Chip.loopTick_passes {c : Chip} {v n : Nat} (h : c.ticksNow v n = false) : c.loopTick v n = c := by
  unfold Chip.loopTick
  dsimp only
  rw [if_pos (.inl (by simp [h]))]

/-- The loop's turn at this count, noted. -/
def Chip.atTick (c : Chip) (v n : Nat) : Chip := { c with ticked := Tab.set c.ticked v (some (c.gclk, n)) }

/-- The end of a tick: a change of the banks' lock parks what strayed. -/
def Chip.tickDone (c : Chip) (v good : Nat) : Chip :=
  if c.f Fld.guyGood_bankGood [v] = good then c else (List.range 16).foldl (fun c b => c.parkStray v b) c

theorem Chip.takeEntry_starts {c : Chip} {v n : Nat} (hf : (c.loop v n).fresh = true) (hst : c.loopState v n = 0)
    (hk : (c.loopWritten v n).kind ≠ 0) : c.takeEntry v n = c.startLoop v n (c.loopWords v n) := by
  unfold Chip.takeEntry
  dsimp only
  rw [if_neg (by simp [hf]), if_pos hst, if_neg hk]

theorem Chip.takeEntry_same {c : Chip} {v n : Nat} (hf : (c.loop v n).fresh = false) : c.takeEntry v n = c := by
  unfold Chip.takeEntry
  dsimp only
  rw [if_pos (by simp [hf])]

theorem Chip.loopTick_eq {c : Chip} {v n : Nat} (ht : c.ticksNow v n = true)
    (hrun : ¬ (c.loopState v n = 0 ∧ ¬ (c.loop v n).fresh = true)) : c.loopTick v n =
      (if c.loopState v n = 0 ∨ ((c.atTick v n).takeEntry v n).loopState v n = 0 then (c.atTick v n).takeEntry v n
        else ((c.atTick v n).takeEntry v n).computeTick v n).tickDone v (c.f Fld.guyGood_bankGood [v]) := by
  unfold Chip.loopTick
  dsimp only
  rw [if_neg (not_or.mpr ⟨not_not.mpr ht, hrun⟩)]
  rfl

theorem Chip.loopTick_starts {c : Chip} {v n : Nat} (ht : c.ticksNow v n = true) (hst : c.loopState v n = 0)
    (hf : (c.loop v n).fresh = true) (hk : (c.loopWritten v n).kind ≠ 0) : c.loopTick v n =
      ((c.atTick v n).startLoop v n ((c.atTick v n).loopWords v n)).tickDone v (c.f Fld.guyGood_bankGood [v]) := by
  rw [Chip.loopTick_eq ht fun h => h.2 hf, if_pos (Or.inl hst), Chip.takeEntry_starts (c := c.atTick v n) hf hst hk]

theorem Chip.loopTick_computes {c : Chip} {v n : Nat} (ht : c.ticksNow v n = true) (hst : c.loopState v n ≠ 0)
    (hf : (c.loop v n).fresh = false) :
    c.loopTick v n = ((c.atTick v n).computeTick v n).tickDone v (c.f Fld.guyGood_bankGood [v]) := by
  have hst' : (c.atTick v n).loopState v n ≠ 0 := hst
  rw [Chip.loopTick_eq ht fun h => hst h.1, Chip.takeEntry_same (c := c.atTick v n) hf, if_neg (not_or.mpr ⟨hst, hst'⟩)]

/-- A tick without a new output is stale. -/
theorem Chip.computeTick_stale {c c1 : Chip} {v n q : Nat} {m : Int} {e : LoopE}
    (hc : c1 = c.count Fld.guyLstate_ticks [v, n]) (he : e = c.loopE v n) (hk : e.kind ≠ 6)
    (hlat : c1.latest v e.adc e.errEnt = some (q, m))
    (hlast : (c1.loop v n).lastSeq = some (e.errEnt, (c1.adc v e.adc).goes, q)) :
    c.computeTick v n = (c1.staleTick v n).capture v n (c1.sf Fld.guyLstate_err [v, n]) := by
  unfold Chip.computeTick
  dsimp only
  rw [← hc, ← he, if_neg hk, hlat]
  dsimp only
  rw [if_pos ⟨hk, hlast⟩]

theorem Chip.computeTick_fresh {c c1 : Chip} {v n q : Nat} {m : Int} {e : LoopE}
    (hc : c1 = c.count Fld.guyLstate_ticks [v, n]) (he : e = c.loopE v n) (hk : e.kind ≠ 6)
    (hlat : c1.latest v e.adc e.errEnt = some (q, m))
    (hlast : (c1.loop v n).lastSeq ≠ some (e.errEnt, (c1.adc v e.adc).goes, q)) :
    c.computeTick v n = c1.freshTick v n (e.errEnt, (c1.adc v e.adc).goes, q) m := by
  unfold Chip.computeTick
  dsimp only
  rw [← hc, ← he, if_neg hk, hlat]
  dsimp only
  rw [if_neg fun h => hlast h.2]

/-- Settles O60: each event of a channel, of the sample clock and of a loop. -/
theorem loopsAndChannelsTick : Obligations.LoopsAndChannelsTick := by
  unfold Obligations.LoopsAndChannelsTick
  dsimp only [exec]
  refine ⟨?deglitch, ?range, ?cycle, ?none, ?entry, ?stale, ?fresh, ?line, ?acq, ?test⟩
  case deglitch =>
    intro v n s hok hheld hranging
    refine ⟨_, units_run hok, ?_⟩
    dsimp only
    rw [Chip.deglitchRelease, if_pos ⟨hheld, by simp [hranging]⟩, Chip.chan_setChan, Chip.setChan_regs]
    exact ⟨rfl, rfl, rfl⟩
  case range =>
    intro v n s i0 hok hr hi hcode
    refine ⟨_, units_run hok, ?_⟩
    dsimp only
    rw [Chip.endRange_still hr hi hcode]
    exact ⟨Chip.chan_setChan .., Chip.setChan_regs ..⟩
  case cycle => exact fun s => ⟨_, _, rfl, rfl, rfl⟩
  case none =>
    intro v n s hok ht
    refine (units_run hok).trans ?_
    rw [Chip.loopTick_passes ht, ite_self]
  case entry =>
    rintro v n s c0 c1 hok hd ht hst hf hk rfl rfl
    refine (units_run hok).trans ?_
    rw [if_neg (by simp [hd]), Chip.loopTick_starts ht hst hf hk]
    rfl
  case stale =>
    rintro v n s c0 c1 c2 e q m hok hd ht hst hf hc0 hc1 he hk hlat hlast rfl
    refine (units_run hok).trans ?_
    rw [if_neg (by simp [hd]), Chip.loopTick_computes ht hst hf, Chip.atTick, ← hc0,
      Chip.computeTick_stale hc1 he hk hlat hlast]
    rfl
  case fresh =>
    rintro v n s c0 c1 e q m hok hd ht hst hf hc0 hc1 he hk hlat hlast
    refine ⟨_, _, _, _, _, _, _, _, _, rfl, rfl, rfl, rfl, rfl, rfl, rfl, rfl, rfl, (units_run hok).trans ?_⟩
    rw [if_neg (by simp [hd]), Chip.loopTick_computes ht hst hf, Chip.atTick, ← hc0,
      Chip.computeTick_fresh hc1 he hk hlat hlast]
    have he1 : c1.loopE v n = e := by rw [hc1, he]; rfl
    unfold Chip.freshTick
    rw [he1]
    rfl
  case line =>
    intro v b s hv hb hst
    refine (units_run (by simp [hv, hb])).trans ?_
    rw [Chip.lineStepEnd, if_neg (not_not.mpr hst)]
  case acq =>
    intro v n s hok hst ht
    refine (units_run hok).trans ?_
    rw [Chip.acqTimeout, if_pos ⟨hst, ht⟩]
  case test =>
    intro v s hv ha hsig hdone
    refine ⟨_, units_run (by simp [hv]), ?_⟩
    dsimp only
    rw [Chip.testEnd, if_pos ⟨ha, hsig, hdone⟩]
    exact ⟨Chip.f_setF_eq (by decide) (by decide) (by decide), by simp⟩

end Sys2Proof.Machine
end

section
/-!
The monitor converters run (R190 to R208, file 06 of spec/): the statement O59.
-/

namespace Sys2Proof.Machine

/-! ### What a converter runs -/

/-- Each bit of a converter's control word that its state shows. -/
theorem Chip.showAdc_f {c : Chip} {v l : Nat} {fl : Fld} {idx : List Nat} (hbusy : fl.hi < 28 ∨ 28 < fl.lo)
    (hpend : fl.hi < 8 ∨ 11 < fl.lo) (hcal : 0 < fl.lo) : (c.showAdc v l).f fl idx = c.f fl idx := by
  unfold Chip.showAdc
  dsimp only
  rw [Chip.f_setF_disjoint (by decide) (by decide) (.inl hcal), Chip.f_setF_disjoint (by decide) (by decide) hpend.symm,
    Chip.f_setF_disjoint (by decide) (by decide) hbusy.symm]

theorem Chip.showAdc_busy {c : Chip} {v l e : Nat} {w : Word} {b : Bool} (h : (c.adc v l).run = .entry e w b) :
    (c.showAdc v l).f Fld.convCtl_busy [v, l] = 1 := by
  unfold Chip.showAdc
  dsimp only
  rw [Chip.f_setF_disjoint (by decide) (by decide) (by decide), Chip.f_setF_disjoint (by decide) (by decide) (by decide), h]
  exact Chip.f_setF_eq (by decide) (by decide) Nat.one_lt_two

theorem Chip.showAdc_get {c : Chip} {v l : Nat} {n : RegName} {ix : List Nat} {k : Nat} (h : RegName.convCtl ≠ n) :
    (c.showAdc v l).get ⟨n, ix, k⟩ = c.get ⟨n, ix, k⟩ := by
  unfold Chip.showAdc
  dsimp only
  rw [Chip.get_setF_of_name_ne _ _ h, Chip.get_setF_of_name_ne _ _ h, Chip.get_setF_of_name_ne _ _ h]

/-- What a converter takes up, noted in its state. -/
def Adc.running (a : Adc) (now : Nat) (r : AdcRun) : Adc :=
  { a with run := r, moving := false, began := now, freed := if a.run.converts then now else a.freed }

theorem Chip.setRun_eq (c : Chip) (v l : Nat) (r : AdcRun) :
    c.setRun v l r = (c.setAdc v l ((c.adc v l).running c.gclk r)).showAdc v l := rfl

theorem Chip.setRun_adc (c : Chip) (v l : Nat) (r : AdcRun) :
    (c.setRun v l r).adc v l = (c.adc v l).running c.gclk r := by
  rw [Chip.setRun_eq, Chip.adc_of_adcs (Chip.showAdc_adcs ..), Chip.adc_setAdc_same]

theorem Chip.setRun_get {c : Chip} {v l : Nat} {r : AdcRun} {n : RegName} {ix : List Nat} {k : Nat}
    (h : RegName.convCtl ≠ n) : (c.setRun v l r).get ⟨n, ix, k⟩ = c.get ⟨n, ix, k⟩ := by
  rw [Chip.setRun_eq, Chip.showAdc_get h, Chip.setAdc_get]

theorem Chip.startConv_adc (c : Chip) (v l x : Nat) : ∃ n, (c.startConv v l x).adc v l = { c.adc v l with disc := n } :=
  ⟨_, Chip.adc_setAdc_same (c := c) ..⟩

theorem Chip.startConv_f (c : Chip) (v l x : Nat) (fl : Fld) (idx : List Nat) :
    (c.startConv v l x).f fl idx = c.f fl idx :=
  Chip.f_congr (a := c.startConv v l x) (b := c) rfl rfl fl idx

theorem Chip.setRun_gen (c : Chip) (v l : Nat) (r : AdcRun) (i : GenId) : (c.setRun v l r).gen i = c.gen i := by
  simp [Chip.gen, Chip.setRun, Chip.showAdc]

/-- A conversion that begins, as its table, queue or calibration names it. -/
theorem Chip.runs_adc (c : Chip) (v l x : Nat) (r : AdcRun) : ∃ n,
    ((c.setRun v l r).startConv v l x).adc v l = { (c.adc v l).running c.gclk r with disc := n } := by
  obtain ⟨n, hn⟩ := (c.setRun v l r).startConv_adc v l x
  exact ⟨n, by rw [hn, Chip.setRun_adc]⟩

/-! ### Triggers and entries (R198 to R205) -/

theorem Chip.tickAdc_starts {c : Chip} {v k l e : Nat} {w : Word} (hrun : (c.adc v l).run = .trig e)
    (hact : c.flag Fld.convCtl_active [v, l] = true) (hw : w = c.seqWord v l e) (hk : seqTrig w.toNat = k)
    (hv : seqValid w.toNat = true)
    (hstood : (c.adc v l).began + startDiscards w.toNat (c.lastGain v (c.physAdc v l)) ≤ c.gclk) : c.tickAdc v k l =
      ((c.setRun v l (.entry e w ((c.adc v l).avgNew.contains e))).startConv v l w.toNat).discsDone v l := by
  unfold Chip.tickAdc
  dsimp only
  rw [hrun]
  dsimp only
  rw [← hw, if_neg (by simp [hact, hk]), if_neg (by simp [hv]), if_pos (by simpa using hstood)]

theorem Chip.waitOver_idle {c : Chip} {v l : Nat} (h : (c.adc v l).run = .idle) : c.waitOver v l = c := by
  rw [Chip.waitOver, h]

theorem Chip.endTable_inactive (c : Chip) (v l : Nat) : (c.endTable v l).f Fld.convCtl_active [v, l] = 0 :=
  Chip.f_setF_eq (by decide) (by decide) (by decide)

/-- The converter on its way into an entry of its table. -/
def Chip.entryTaken (c : Chip) (v l : Nat) : Chip :=
  (c.setAdc v l { c.adc v l with redo := false }).setF Fld.convCtl_cur [v, l] (c.adc v l).next

theorem Chip.entryTaken_adc (c : Chip) (v l : Nat) : (c.entryTaken v l).adc v l = { c.adc v l with redo := false } := by
  rw [Chip.entryTaken, Chip.adc_of_adcs (Chip.setF_adcs ..), Chip.adc_setAdc_same]

theorem Chip.entryTaken_cur {c : Chip} {v l : Nat} (h : (c.adc v l).next < 64) :
    (c.entryTaken v l).f Fld.convCtl_cur [v, l] = (c.adc v l).next := Chip.f_setF_eq (by decide) (by decide) h

/-- An idle converter with nothing in its queue goes on with its table. -/
theorem Chip.entryStart_idle {c : Chip} {v l : Nat} {x : Word} (hrun : (c.adc v l).run = .idle)
    (hact : c.flag Fld.convCtl_active [v, l] = true) (hq : (c.adc v l).queue = []) (hcal : (c.adc v l).cal = none)
    (hx : x = c.seqWord v l (c.adc v l).next) : c.entryStart v l =
      if ((c.adc v l).halting = true ∧ ¬ (c.adc v l).redo = true) ∨ ¬ seqValid x.toNat = true then c.endTable v l
      else if seqTrig x.toNat ≠ 0 then (c.entryTaken v l).setRun v l (.trig (c.adc v l).next)
      else ((c.entryTaken v l).setRun v l (.entry (c.adc v l).next x ((c.adc v l).avgNew.contains (c.adc v l).next))).startConv
        v l x.toNat := by
  unfold Chip.entryStart
  dsimp only
  rw [Chip.waitOver_idle hrun, if_neg (by simp [hrun, hact, hq, hcal]), ← hx]
  rfl

/-- What a started entry shows. -/
theorem Chip.entryTaken_runs {c : Chip} {v l : Nat} {x : Word} {b : Bool} (h : (c.adc v l).next < 64) :
    (((c.entryTaken v l).setRun v l (.entry (c.adc v l).next x b)).startConv v l x.toNat).f Fld.convCtl_cur [v, l] =
        (c.adc v l).next ∧
      (((c.entryTaken v l).setRun v l (.entry (c.adc v l).next x b)).startConv v l x.toNat).f Fld.convCtl_busy [v, l] = 1 := by
  rw [Chip.startConv_f, Chip.startConv_f, Chip.setRun_eq]
  refine ⟨?_, Chip.showAdc_busy (by rw [Chip.adc_setAdc_same, Adc.running])⟩
  rw [Chip.showAdc_f (by decide) (by decide) (by decide), Chip.setAdc_f, Chip.entryTaken_cur h]

/-! ### Outputs -/

theorem Chip.discsDone_adc (c : Chip) (v l : Nat) : (c.discsDone v l).adc v l = { c.adc v l with disc := 0 } :=
  Chip.adc_setAdc_same ..

theorem Chip.discsDone_get {c : Chip} {v l : Nat} {n : RegName} {ix : List Nat} {k : Nat} (h : RegName.convDisc ≠ n) :
    (c.discsDone v l).get ⟨n, ix, k⟩ = c.get ⟨n, ix, k⟩ := by
  rw [Chip.discsDone, Chip.setAdc_get, Chip.count, Chip.get_setF_of_name_ne _ _ h]

theorem Chip.monitorOutput_eq (c : Chip) (v l t w : Nat) (xs : List Int) :
    ∃ g, (c.monitorOutput v l t w xs).2 = { c with gens := g } := ⟨_, rfl⟩

theorem Chip.track_keeps (c : Chip) (r : Reg) (x : Int) : ∃ y ts, c.track r x = { c.put r y with trkLive := ts } := by
  unfold Chip.track
  dsimp only
  split <;> exact ⟨_, _, rfl⟩

/-- The event of an output with samples out of range. -/
def Chip.noteOvr (c : Chip) (v n : Nat) : Chip := if 0 < n then c.ev .convEvOvr [v] else c

theorem Chip.noteOvr_adcs (c : Chip) (v n : Nat) : (c.noteOvr v n).adcs = c.adcs := by
  unfold Chip.noteOvr
  split <;> simp

theorem Chip.noteOvr_gen (c : Chip) (v n : Nat) (i : GenId) : (c.noteOvr v n).gen i = c.gen i := by
  unfold Chip.noteOvr
  split <;> simp [Chip.gen]

theorem Chip.noteOvr_get {c : Chip} {v n : Nat} {m : RegName} {ix : List Nat} {k : Nat} (h : RegName.convEvOvr ≠ m)
    (hq : RegName.sysMsgq ≠ m) : (c.noteOvr v n).get ⟨m, ix, k⟩ = c.get ⟨m, ix, k⟩ := by
  unfold Chip.noteOvr
  split
  · exact Chip.get_ev_of_name_ne h hq
  · rfl

/-- The accumulator of an entry takes an output, with its tracker. -/
def Chip.entryNoted (c : Chip) (v l e : Nat) (y : Int) (n : Nat) : Chip :=
  ((c.put { name := .convAcc, idx := [v, l, e] } (accWord (c.get { name := .convAcc, idx := [v, l, e] }).toNat y n)).track
    { name := .convTrk, idx := [v, l, e] } y).noteOvr v n

theorem Chip.entryNoted_adcs (c : Chip) (v l e : Nat) (y : Int) (n : Nat) : (c.entryNoted v l e y n).adcs = c.adcs := by
  obtain ⟨x, ts, h⟩ := Chip.track_keeps (c.put { name := .convAcc, idx := [v, l, e] }
    (accWord (c.get { name := .convAcc, idx := [v, l, e] }).toNat y n)) { name := .convTrk, idx := [v, l, e] } y
  rw [Chip.entryNoted, Chip.noteOvr_adcs, h]
  rfl

theorem Chip.entryNoted_gen (c : Chip) (v l e : Nat) (y : Int) (n : Nat) (i : GenId) :
    (c.entryNoted v l e y n).gen i = c.gen i := by
  obtain ⟨x, ts, h⟩ := Chip.track_keeps (c.put { name := .convAcc, idx := [v, l, e] }
    (accWord (c.get { name := .convAcc, idx := [v, l, e] }).toNat y n)) { name := .convTrk, idx := [v, l, e] } y
  rw [Chip.entryNoted, Chip.noteOvr_gen, h]
  rfl

theorem Chip.entryNoted_acc (c : Chip) (v l e : Nat) (y : Int) (n : Nat) :
    (c.entryNoted v l e y n).get { name := .convAcc, idx := [v, l, e] } =
      accWord (c.get { name := .convAcc, idx := [v, l, e] }).toNat y n := by
  obtain ⟨d, hd⟩ : ∃ d, d = c.put { name := .convAcc, idx := [v, l, e] }
    (accWord (c.get { name := .convAcc, idx := [v, l, e] }).toNat y n) := ⟨_, rfl⟩
  obtain ⟨x, ts, h⟩ := Chip.track_keeps d { name := .convTrk, idx := [v, l, e] } y
  rw [Chip.entryNoted, Chip.noteOvr_get (by decide) (by decide), ← hd, h]
  refine (Chip.get_congr (b := d.put { name := .convTrk, idx := [v, l, e] } x) rfl rfl _).trans ?_
  rw [Chip.get_put_of_name_ne _ (by decide), hd, Chip.get_put_same]

/-- The end of an entry's output: the next one, and the table's end where it stops or halts. -/
def Chip.entryEnds (c : Chip) (v l w : Nat) : Chip :=
  let d := (c.setAdc v l { c.adc v l with next := seqNext w % 64 }).setRun v l .idle
  if seqStop w ∨ (c.adc v l).halting then d.endTable v l else d

theorem Chip.entryEnds_goesOn {c : Chip} {v l w : Nat} (hstop : seqStop w = false) (hhalt : (c.adc v l).halting = false) :
    c.entryEnds v l w = (c.setAdc v l { c.adc v l with next := seqNext w % 64 }).setRun v l .idle :=
  if_neg (by simp [hstop, hhalt])

/-- An entry whose output is kept. -/
theorem Chip.entryOutput_kept {c c0 : Chip} {v l e : Nat} {w : Word} {xs : List Int} {o : (Int × Nat) × Chip}
    (hrun : (c.adc v l).run = .entry e w false) (hc : c0 = c.discsDone v l)
    (ho : o = c0.monitorOutput v l (c0.toneOf v l e w.toNat) w.toNat xs) :
    c.entryOutput v l xs = (o.2.entryNoted v l e o.1.1 o.1.2).entryEnds v l w.toNat := by
  have hacc : c0.get { name := .convAcc, idx := [v, l, e] } = o.2.get { name := .convAcc, idx := [v, l, e] } := by
    rw [ho]
    rfl
  unfold Chip.entryOutput
  rw [hrun]
  dsimp only
  rw [if_neg Bool.false_ne_true, ← hc, ← ho]
  unfold Chip.entryEnds Chip.entryNoted Chip.noteOvr
  dsimp only
  rw [hacc]

/-- The state of the converter past a kept output. -/
theorem Chip.entryNoted_adc {c c0 : Chip} {v l e t w : Nat} {xs : List Int} {o : (Int × Nat) × Chip}
    (hc : c0 = c.discsDone v l) (ho : o = c0.monitorOutput v l t w xs) :
    (o.2.entryNoted v l e o.1.1 o.1.2).adc v l = { c.adc v l with disc := 0 } ∧
      o.2.get { name := .convAcc, idx := [v, l, e] } = c.get { name := .convAcc, idx := [v, l, e] } := by
  obtain ⟨g, hg⟩ := c0.monitorOutput_eq v l t w xs
  constructor
  · rw [Chip.adc_of_adcs (Chip.entryNoted_adcs ..), ← Chip.discsDone_adc, ← hc]
    exact Chip.adc_of_adcs (by rw [ho, hg]) v l
  · rw [← Chip.discsDone_get (c := c) (v := v) (l := l) (by decide), ← hc]
    exact Chip.get_congr (by rw [ho, hg]) (by rw [ho, hg]) _

/-! ### Injections and calibration (R206 to R208) -/

theorem Chip.injectionRun_displaces {c : Chip} {v l taken e : Nat} {w : Word} {b : Bool} {i : Inj} {q : List Inj}
    (hq : (c.adc v l).queue = i :: q) (hrun : (c.adc v l).run = .entry e w b) :
    ∃ d : Chip, d.adc v l = { c.adc v l with next := e, redo := true, queue := q } ∧
      c.injectionRun v l taken = (d.setRun v l (.inj i)).startConv v l i.req.toNat := by
  obtain ⟨d, hd⟩ : ∃ d, d = c.abandon v l taken := ⟨_, rfl⟩
  have hadc : d.adc v l = { c.adc v l with next := e, redo := true } := by
    rw [hd, Chip.abandon, hrun]
    dsimp only
    rw [Chip.count, Chip.adc_of_adcs (Chip.setF_adcs ..), Chip.adc_setAdc_same, ← hrun]
  refine ⟨d.setAdc v l { d.adc v l with queue := (d.adc v l).queue.tail }, ?_, ?_⟩
  · rw [Chip.adc_setAdc_same, hadc, hq]
    rfl
  · unfold Chip.injectionRun
    dsimp only
    rw [hq, hrun, hd]

theorem Chip.calConvStart_idle {c : Chip} {v l taken : Nat} {bound : Bool} {x : Word} (hcal : (c.adc v l).cal = some x)
    (hrun : (c.adc v l).run = .idle) (hq : (c.adc v l).queue = []) : c.calConvStart v l taken bound =
      ((c.setAdc v l { c.adc v l with cal := none }).setRun v l (.cal x)).startConv v l x.toNat := by
  have hab : c.abandon v l taken = c := by rw [Chip.abandon, hrun]
  unfold Chip.calConvStart
  dsimp only
  rw [hcal, hrun]
  dsimp only
  rw [if_neg (by simp [hq]), hab, hrun]

theorem Chip.takeHeld_run (c : Chip) (v l : Nat) : ((c.takeHeld v l).adc v l).run = (c.adc v l).run := by
  unfold Chip.takeHeld
  dsimp only
  split
  · rfl
  · next i rest _ =>
    unfold Chip.inject
    split
    · rfl
    · dsimp only [Option.getD_some]
      rw [Chip.adc_of_adcs (Chip.showAdc_adcs ..), Chip.adc_setAdc_same, Chip.adc_setAdc_same]

theorem Chip.showAdc_longs (c : Chip) (v l : Nat) : (c.showAdc v l).longs = c.longs := by simp [Chip.showAdc]

theorem Chip.takeHeld_keeps (c : Chip) (v l : Nat) :
    (c.takeHeld v l).longs = c.longs ∧ (c.takeHeld v l).outs = c.outs := by
  unfold Chip.takeHeld
  dsimp only
  split
  · exact ⟨rfl, rfl⟩
  · unfold Chip.inject
    split
    · exact ⟨rfl, rfl⟩
    · exact ⟨(Chip.showAdc_longs ..), (Chip.showAdc_outs ..)⟩

/-- An injected conversion ends: the converter is free, its accumulator holds the value. -/
theorem Chip.injectedValue_inj {c : Chip} {v l : Nat} {xs : List Int} {i : Inj} (hrun : (c.adc v l).run = .inj i) :
    ∃ d, c.injectedValue v l xs = some (i, d) ∧ (d.adc v l).run = .idle ∧ d.longs = c.longs ∧ d.outs = c.outs := by
  obtain ⟨o, ho⟩ : ∃ o, o = (c.discsDone v l).monitorOutput v l (seqTone i.req.toNat) i.req.toNat xs := ⟨_, rfl⟩
  obtain ⟨g, hg⟩ := (c.discsDone v l).monitorOutput_eq v l (seqTone i.req.toNat) i.req.toNat xs
  obtain ⟨d, hd⟩ : ∃ d, d = ((o.2.put { name := .convInjAcc, idx := [v, l] } (accWord
    (o.2.get { name := .convInjAcc, idx := [v, l] }).toNat o.1.1 o.1.2)).noteOvr v o.1.2) := ⟨_, rfl⟩
  have hdl : d.longs = c.longs ∧ d.outs = c.outs := by
    rw [hd, ho, hg, Chip.noteOvr]
    split
    · simp [Chip.discsDone]
    · exact ⟨rfl, rfl⟩
  refine ⟨(d.setRun v l .idle).takeHeld v l, ?_, ?_, ?_, ?_⟩
  · unfold Chip.injectedValue
    rw [hrun]
    dsimp only
    rw [← ho, hd]
    rfl
  · rw [Chip.takeHeld_run, Chip.setRun_adc, Adc.running]
  · rw [(Chip.takeHeld_keeps ..).1, Chip.setRun_eq, Chip.showAdc_longs, ← hdl.1]
    rfl
  · rw [(Chip.takeHeld_keeps ..).2, Chip.setRun_eq, Chip.showAdc_outs, ← hdl.2]
    rfl

/-- Settles O59: each event of a converter. -/
theorem convertersRun : Obligations.ConvertersRun := by
  unfold Obligations.ConvertersRun
  dsimp only [exec]
  refine ⟨?tick, ?trigger, ?start, ?output, ?inject, ?cal, ?injected⟩
  case tick =>
    rintro v k s x hv h1 h8 rfl
    refine ⟨fun hen hat => ?_, fun h => ?_⟩
    · refine (units_run (by simp [hv, h1, h8])).trans ?_
      unfold Chip.triggerTick
      dsimp only
      rw [if_pos ⟨hen, hat⟩]
    · have hoff : ¬ (s.chip.flag Fld.convTrig_en [v, k] = true ∧
          s.chip.gclk % bitsOf (s.chip.trigWord v k) 10 0 = bitsOf (s.chip.trigWord v k) 26 16) :=
        fun h' => h.elim (fun hoff => Bool.false_ne_true (hoff.symm.trans h'.1)) fun hne => hne h'.2
      refine (units_run (by simp [hv, h1, h8])).trans ?_
      unfold Chip.triggerTick
      dsimp only
      rw [if_neg hoff]
  case trigger => exact fun c v k l e w hrun hact hw hk hv hstood => Chip.tickAdc_starts hrun hact hw hk hv hstood
  case start =>
    intro v l s x hv hl hrun hact hq hcal hnext hx
    refine ⟨_, units_run (by simp [adcOk, hv, hl]), fun hgo hvalid htrig => ?_, fun hgo hvalid htrig => ?_, fun hend => ?_⟩
    · rw [Chip.entryStart_idle hrun hact hq hcal hx, if_neg (by simp [hvalid, Decidable.imp_iff_not_or, hgo]), if_neg (by simp [htrig])]
      obtain ⟨n, hn⟩ := (s.chip.entryTaken v l).runs_adc v l x.toNat
        (.entry (s.chip.adc v l).next x ((s.chip.adc v l).avgNew.contains (s.chip.adc v l).next))
      exact ⟨by rw [hn, Adc.running], Chip.entryTaken_runs hnext⟩
    · rw [Chip.entryStart_idle hrun hact hq hcal hx, if_neg (by simp [hvalid, Decidable.imp_iff_not_or, hgo]), if_pos htrig, Chip.setRun_adc,
        Adc.running]
    · rw [Chip.entryStart_idle hrun hact hq hcal hx, if_pos (by simpa using hend)]
      exact Chip.endTable_inactive ..
  case output =>
    intro v l xs fired s e w c0 o hv hl hrun hstop hhalt hc ho
    obtain ⟨hadc, hacc⟩ := Chip.entryNoted_adc (e := e) hc ho
    refine ⟨_, units_run (by simp [adcOk, hv, hl]), ?_⟩
    dsimp only
    rw [Chip.entryOutput_kept hrun hc ho, Chip.entryEnds_goesOn hstop (by rw [hadc, hhalt]), Chip.setRun_get (by decide),
      Chip.setAdc_get, Chip.entryNoted_acc, hacc, Chip.setRun_adc, Chip.adc_setAdc_same]
    refine ⟨rfl, rfl, rfl, ?_⟩
    rw [Chip.setRun_gen, ← Chip.entryNoted_gen o.2 v l e o.1.1 o.1.2]
    rfl
  case inject =>
    intro v l kept s i q e w b hv hl hq hrun
    obtain ⟨d, hd, heq⟩ := Chip.injectionRun_displaces (taken := kept) hq hrun
    obtain ⟨n, hn⟩ := d.runs_adc v l i.req.toNat (.inj i)
    refine ⟨_, units_run (by simp [adcOk, hv, hl]), ?_⟩
    dsimp only
    rw [heq, hn, hd]
    exact ⟨rfl, rfl, rfl, rfl⟩
  case cal =>
    intro v l kept b s x hv hl hcal hrun hq
    obtain ⟨n, hn⟩ := (s.chip.setAdc v l { s.chip.adc v l with cal := none }).runs_adc v l x.toNat (.cal x)
    refine ⟨_, units_run (by simp [adcOk, hv, hl]), ?_⟩
    dsimp only
    rw [Chip.calConvStart_idle hcal hrun hq, hn, Chip.adc_setAdc_same]
    exact ⟨rfl, rfl⟩
  case injected =>
    intro v l xs fired s x m hv hl hrun hlongs
    obtain ⟨d, heq, hrun', hdl, hdo⟩ := Chip.injectedValue_inj (xs := firedSamples fired xs) hrun
    refine ⟨{ s with chip := d.answer 0x0701 m Status.ok 0 [d.get { name := .convInjAcc, idx := [v, l] }] },
      (units_run (by simp [adcOk, hv, hl])).trans ?_, ?_⟩
    · rw [Chip.injectedOutput, heq]
    · have hget : (d.answer 0x0701 m Status.ok 0 [d.get { name := .convInjAcc, idx := [v, l] }]).get
          { name := .convInjAcc, idx := [v, l] } = d.get { name := .convInjAcc, idx := [v, l] } :=
        Chip.get_congr (Chip.answer_regs ..) (Chip.answer_loaded ..) _
      dsimp only
      rw [hget, Chip.adc_of_adcs (Chip.answer_adcs ..), Chip.answer, if_pos (by rw [hdl, hlongs]; simp)]
      exact ⟨hrun', Chip.finish_answered_of_grows (.of_eq hdo)⟩

end Sys2Proof.Machine
end

section
/-!
Refresh, migration and rewriting of sites (R163 to R180, file 05 of spec/): the statement O58.
-/

namespace Sys2Proof.Machine

theorem Chip.veld_setVeld (c : Chip) (n : Nat) (x : Veld) : (c.setVeld n x).veld n = x := Tab.get_set_same ..

theorem Chip.veld_of_velds {c d : Chip} (h : d.velds = c.velds) (n : Nat) : d.veld n = c.veld n := by
  rw [Chip.veld, Chip.veld, h]

/-! ### The start of a refresh (R170 to R178) -/

/-- The Veld with a refresh under way. -/
def Chip.refreshing (c : Chip) (n : Nat) (o : Refresh) : Chip :=
  (c.setVeld n { c.veld n with op := some o }).setF Fld.veldState_refreshSite [n] o.old

section
variable {c c0 c1 c2 : Chip} {n i ps : Nat} {why : RepairFor} {rest : List (Nat × RepairFor)}
  (hop : (c.veld n).op = none) (hq : (c.veld n).queue = (i, why) :: rest)
  (hv : c.flag Fld.veldImgBase_valid [n] = true) (hdr : (c.veld n).drained = false) (hdev : c.device = .service)
  (hps : ps = c.physOf i) (hc0 : c0 = c.setVeld n { c.veld n with queue := rest }) (hprog : c0.prog n ps = none)
  (hmap : c0.lmapValid i = true) (hmoot : c0.repairMoot n ps why = false) (hu : c0.useImage i = (c1, true))
  (hrep : c1.repairMap n ps why = some c2)
include hop hq hv hdr hdev hps hc0 hprog hmap hmoot hu hrep

/-- A refresh with its image at hand and a free spare writes the spare. -/
theorem Chip.refreshStart_spare {sp : Nat} {fr : List Nat} (hfree : c1.freeSpares n = sp :: fr) : c.refreshStart n =
    (c2.refreshing n { logical := i, why := why, old := ps, spare := some sp, stage := 3 }).beginProg n sp
      { what := .refresh, logical := i } := by
  dsimp only at hc0
  rw [hop] at hc0
  unfold Chip.refreshStart
  dsimp only
  rw [hop, hq]
  dsimp only
  rw [if_neg (by simp [hv, hdr, hdev]), ← hps, ← hc0, hprog, if_neg (by simp), if_neg (by simp [hmap, hmoot]), hu,
    if_neg (by simp)]
  dsimp only
  rw [hfree, hrep]
  rfl

/-- With no spare left it is done in place. -/
theorem Chip.refreshStart_inPlace (hfree : c1.freeSpares n = []) : c.refreshStart n =
    ((c2.refreshing n { logical := i, why := why, old := ps, spare := none, stage := 3 }).ev .veldEvNospare [n]).beginProg
      n ps { what := .inPlace, logical := i } := by
  dsimp only at hc0
  rw [hop] at hc0
  unfold Chip.refreshStart
  dsimp only
  rw [hop, hq]
  dsimp only
  rw [if_neg (by simp [hv, hdr, hdev]), ← hps, ← hc0, hprog, if_neg (by simp), if_neg (by simp [hmap, hmoot]), hu,
    if_neg (by simp)]
  dsimp only
  rw [hfree, hrep]
  rfl
end

/-! ### The move of a logical site (R173, R175) -/

/-- The maps after a logical site has moved from its old site to the spare. -/
def Chip.remapped (c : Chip) (n i old sp owner epoch : Nat) : Chip :=
  let c := ((c.setF Fld.siteAstate_owner [n, sp] owner).setF Fld.siteAstate_epoch [n, sp] epoch).setF
    Fld.siteAstate_state [n, sp] 2
  let c := (c.setF Fld.siteId_logical [n, sp] i).setF Fld.siteId_logical [n, old] 0x7FFF
  let c := (c.setF Fld.veldLmap_phys [n, i % 768] sp).setF Fld.veldLmap_valid [n, i % 768] 1
  c.setF Fld.siteAstate_state [n, old] 3

theorem Chip.remapped_maps {c : Chip} {n i old sp owner epoch : Nat} (hne : sp ≠ old) (hsp : sp < 800) :
    (c.remapped n i old sp owner epoch).f Fld.veldLmap_phys [n, i % 768] = sp ∧
    (c.remapped n i old sp owner epoch).f Fld.veldLmap_valid [n, i % 768] = 1 ∧
    (c.remapped n i old sp owner epoch).f Fld.siteAstate_state [n, sp] = 2 ∧
    (c.remapped n i old sp owner epoch).f Fld.siteAstate_state [n, old] = 3 := by
  unfold Chip.remapped
  dsimp only
  refine ⟨?_, ?_, ?_, Chip.f_setF_eq (by decide) (by decide) (by decide)⟩
  · rw [Chip.f_setF_of_name_ne _ _ _ (by decide), Chip.f_setF_disjoint (by decide) (by decide) (by decide)]
    exact Chip.f_setF_eq (by decide) (by decide) (hsp.trans (by decide))
  · rw [Chip.f_setF_of_name_ne _ _ _ (by decide)]
    exact Chip.f_setF_eq (by decide) (by decide) (by decide)
  · rw [Chip.f_setF_of_idx_ne _ (by simpa using hne)]
    simp (disch := decide) only [Chip.f_setF_of_name_ne]
    exact Chip.f_setF_eq (by decide) (by decide) (by decide)

theorem Chip.core_of_cores {c d : Chip} (h : d.cores = c.cores) (i : Nat) : d.core i = c.core i := by
  rw [Chip.core, Chip.core, h]

theorem Chip.nextStep_idle {c : Chip} {i : Nat} (hrun : (c.core i).run = none) (hsteps : (c.core i).steps = []) :
    c.nextStep i = c := by
  rw [Chip.nextStep, hsteps, List.length_nil, Chip.startStep, hrun, hsteps]

/-- The rewriting of the old site, where it is worth it. -/
def Chip.rewriting (c : Chip) (n : Nat) (o : Refresh) : Chip :=
  if o.why = .site ∨ 100000 ≤ c.f Fld.siteWrites_writes [n, o.old] then c
  else c.setProg n o.old { what := .rewrite, logical := o.logical }

theorem Chip.rewriting_keeps (c : Chip) (n : Nat) (o : Refresh) : (c.rewriting n o).regs = c.regs ∧
    (c.rewriting n o).loaded = c.loaded ∧ (c.rewriting n o).cores = c.cores ∧ (c.rewriting n o).mem = c.mem ∧
    ((c.rewriting n o).veld n).op = (c.veld n).op := by
  unfold Chip.rewriting
  split
  · exact ⟨rfl, rfl, rfl, rfl, rfl⟩
  · exact ⟨rfl, rfl, rfl, rfl, by rw [Chip.setProg, Chip.veld_setVeld]⟩

/-- The registers and the cells of the old site, on the spare. -/
def Chip.carried (c : Chip) (n old sp : Nat) : Chip :=
  let a := c.arr n old
  ((movedRegs n old).foldl (fun c r => c.put (onSite r sp) (c.get r)) c).setArr n sp
    { c.arr n sp with sw := a.sw, epoch := a.epoch, seeds := a.seeds, prints := a.prints, vecs := a.vecs, tol := a.tol }

theorem Chip.carried_mem (c : Chip) (n old sp : Nat) : (c.carried n old sp).mem = c.mem :=
  (Chip.setArr_mem ..).trans
    (Chip.foldl_keeps (f := fun c r => c.put (onSite r sp) (c.get r)) Chip.mem _ _ fun c _ _ => Chip.put_mem c _ _)

theorem Chip.carried_cores (c : Chip) (n old sp : Nat) : (c.carried n old sp).cores = c.cores :=
  (Chip.setArr_cores ..).trans
    (Chip.foldl_keeps (f := fun c r => c.put (onSite r sp) (c.get r)) Chip.cores _ _ fun c _ _ => Chip.put_cores c _ _)

/-- The Veld with the move behind it. -/
def Chip.moved (c : Chip) (n sp : Nat) (o : Refresh) : Chip :=
  let c := c.remapped n o.logical o.old sp (c.f Fld.siteAstate_owner [n, o.old]) (c.f Fld.siteAstate_epoch [n, o.old])
  let c := (c.saveRecord n sp).saveRecord n o.old
  c.setVeld n { c.veld n with op := some { o with stage := 7 } }

theorem Chip.moved_f (c : Chip) (n sp : Nat) (o : Refresh) (fl : Fld) (idx : List Nat) : (c.moved n sp o).f fl idx =
    (c.remapped n o.logical o.old sp (c.f Fld.siteAstate_owner [n, o.old]) (c.f Fld.siteAstate_epoch [n, o.old])).f fl
      idx := by
  unfold Chip.moved
  dsimp only
  rw [Chip.setVeld_f, Chip.saveRecord_f, Chip.saveRecord_f]

theorem Chip.moved_keeps (c : Chip) (n sp : Nat) (o : Refresh) : (c.moved n sp o).cores = c.cores ∧
    (c.moved n sp o).mem = c.mem ∧ ((c.moved n sp o).veld n).op = some { o with stage := 7 } :=
  ⟨rfl, rfl, by rw [Chip.moved, Chip.veld_setVeld]⟩

theorem Chip.migrate_moves {c : Chip} {n sp : Nat} {o : Refresh} (hop : (c.veld n).op = some o) (hsp : o.spare = some sp)
    (hst : o.stage = 5) (hrun : (c.core o.logical).run = none) :
    c.migrate n = (((c.carried n o.old sp).moved n sp o).rewriting n o).nextStep o.logical := by
  unfold Chip.migrate
  dsimp only
  rw [hop]
  dsimp only
  split
  · next h => exact absurd (hsp.symm.trans h) (Option.some_ne_none sp)
  · next x h =>
    obtain rfl : sp = x := Option.some.inj (hsp.symm.trans h)
    rw [if_neg (by simp [hst, hrun])]
    rfl

/-! ### The old site (R176) -/

/-- The Veld with no refresh. -/
def Chip.refreshed (c : Chip) (n : Nat) : Chip :=
  (c.setVeld n { c.veld n with op := none }).setF Fld.veldState_refreshSite [n] 0x3FF

theorem Chip.refreshed_op (c : Chip) (n : Nat) : ((c.refreshed n).veld n).op = none := by
  rw [Chip.refreshed, Chip.veld_of_velds (Chip.setF_velds ..), Chip.veld_setVeld]

theorem Chip.refreshed_site (c : Chip) (n : Nat) : (c.refreshed n).f Fld.veldState_refreshSite [n] = 0x3FF :=
  Chip.f_setF_eq (by decide) (by decide) (by decide)

theorem Chip.refreshed_state (c : Chip) (n s : Nat) :
    (c.refreshed n).f Fld.siteAstate_state [n, s] = c.f Fld.siteAstate_state [n, s] := by
  rw [Chip.refreshed, Chip.f_setF_of_name_ne _ _ _ (by decide), Chip.setVeld_f]

theorem Chip.retireSite_state (c : Chip) (n s : Nat) : (c.retireSite n s).f Fld.siteAstate_state [n, s] = 5 := by
  rw [Chip.retireSite, Chip.saveRecord_f, Chip.f_setF_of_name_ne _ _ _ (by decide)]
  exact Chip.f_setF_eq (by decide) (by decide) (by decide)

/-- An old site as a spare again. -/
def Chip.spared (c : Chip) (n s : Nat) : Chip :=
  let c := c.setF Fld.siteAstate_state [n, s] 0
  (c.setArr n s { c.arr n s with epoch := 0 }).saveRecord n s

theorem Chip.spared_state (c : Chip) (n s : Nat) : (c.spared n s).f Fld.siteAstate_state [n, s] = 0 := by
  unfold Chip.spared
  dsimp only
  rw [Chip.saveRecord_f, Chip.setArr_f]
  exact Chip.f_setF_eq (by decide) (by decide) (by decide)

theorem Chip.oldRewritten_spares {c c1 : Chip} {n : Nat} {noise : List Int} {o : Refresh} {p : Prog}
    (hop : (c.veld n).op = some o) (hst : o.stage = 7) (hp : c.prog n o.old = some p) (hg : progGroups ≤ p.group)
    (hc : c1 = c.programEnd n o.old p noise) (hw : c1.f Fld.siteWrites_writes [n, o.old] < 100000) :
    c.oldRewritten n noise = (c1.spared n o.old).refreshed n := by
  unfold Chip.oldRewritten
  dsimp only
  rw [hop]
  dsimp only
  rw [if_neg (not_not.mpr hst), hp]
  dsimp only
  rw [if_neg (Nat.not_lt.mpr hg), ← hc, if_neg (Nat.not_le.mpr hw)]
  rfl

theorem Chip.oldRewritten_retires {c : Chip} {n : Nat} {noise : List Int} {o : Refresh} (hop : (c.veld n).op = some o)
    (hst : o.stage = 7) (hp : c.prog n o.old = none) :
    c.oldRewritten n noise = (c.retireSite n o.old).refreshed n := by
  unfold Chip.oldRewritten
  dsimp only
  rw [hop]
  dsimp only
  rw [if_neg (not_not.mpr hst), hp]
  rfl

/-- Settles O58: each event of a refresh. -/
theorem sitesAreRefreshed : Obligations.SitesAreRefreshed := by
  unfold Obligations.SitesAreRefreshed
  dsimp only [exec]
  refine ⟨?spare, ?inPlace, ?moves, ?again, ?retired, ?image⟩
  case spare =>
    intro n s i why rest ps sp fr c0 c1 c2 hok hop hq hv hdr hdev hps hc0 hprog hmap hmoot hu hfree hrep
    refine ⟨_, rfl, (units_run hok).trans ?_⟩
    rw [Chip.refreshStart_spare hop hq hv hdr hdev hps hc0 hprog hmap hmoot hu hrep hfree]
    rfl
  case inPlace =>
    intro n s i why rest ps c0 c1 c2 hok hop hq hv hdr hdev hps hc0 hprog hmap hmoot hu hfree hrep
    refine ⟨_, rfl, (units_run hok).trans ?_⟩
    rw [Chip.refreshStart_inPlace hop hq hv hdr hdev hps hc0 hprog hmap hmoot hu hrep hfree]
    rfl
  case moves =>
    intro n s o sp hok hop hspare hst hrun hsteps hne hsp
    obtain ⟨hcores, hmem, hveld⟩ := Chip.moved_keeps (s.chip.carried n o.old sp) n sp o
    obtain ⟨hregs, hload, hcores', hmem', hop'⟩ := Chip.rewriting_keeps ((s.chip.carried n o.old sp).moved n sp o) n o
    have hcore : (((s.chip.carried n o.old sp).moved n sp o).rewriting n o).core o.logical = s.chip.core o.logical :=
      Chip.core_of_cores (hcores'.trans (hcores.trans (Chip.carried_cores ..))) _
    obtain ⟨hphys, hvalid, hnew, hold⟩ := Chip.remapped_maps (c := s.chip.carried n o.old sp) (n := n) (i := o.logical)
      (owner := (s.chip.carried n o.old sp).f Fld.siteAstate_owner [n, o.old])
      (epoch := (s.chip.carried n o.old sp).f Fld.siteAstate_epoch [n, o.old]) hne hsp
    refine ⟨_, units_run hok, ?_⟩
    dsimp only
    rw [Chip.migrate_moves hop hspare hst hrun, Chip.nextStep_idle (by rw [hcore, hrun]) (by rw [hcore, hsteps]), hop', hveld,
      hmem', hmem, Chip.carried_mem]
    simp only [Chip.f_congr hregs hload, Chip.moved_f]
    exact ⟨hphys, hvalid, hnew, hold, trivial, trivial⟩
  case again =>
    intro n noise s o p c1 hok hop hst hp hg hc hw
    refine ⟨_, units_run hok, ?_⟩
    dsimp only
    rw [Chip.oldRewritten_spares hop hst hp hg hc hw, Chip.refreshed_state, Chip.spared_state]
    exact ⟨rfl, Chip.refreshed_op .., Chip.refreshed_site ..⟩
  case retired =>
    intro n noise s o hok hop hst hp
    refine ⟨_, units_run hok, ?_⟩
    dsimp only
    rw [Chip.oldRewritten_retires hop hst hp, Chip.refreshed_state, Chip.retireSite_state]
    exact ⟨rfl, Chip.refreshed_op .., Chip.refreshed_site ..⟩
  case image =>
    intro n s i why hok hq hnone hmiss
    refine (units_run hok).trans ?_
    unfold Chip.imageRetry
    dsimp only
    rw [hq, hnone]
    simp [hmiss]

end Sys2Proof.Machine
end

section
/-!
Sites programmed and checked (R163 to R172, R177, file 05 of spec/): the statement O57.
-/

namespace Sys2Proof.Machine

/-! ### A grain of programming (R166 to R170) -/

section
variable {c : Chip} {n ps : Nat} {reads : List (List Nat)} {p : Prog} (hp : c.prog n ps = some p)
  (hg : p.group < progGroups) (hr : reads ≠ []) (hlen : reads.length ≤ 64) (hv : c.flag Fld.veldImgBase_valid [n] = true)
  (hw : c.f Fld.siteWrites_writes [n, ps] < 100000) (hdev : c.device = .service)
include hp hg hr hlen hv hw hdev

/-- Outside its window a site pauses. -/
theorem Chip.programGrain_pauses (hwin : c.flag Fld.veldCfg_wwinEn [n] = true) (hout : c.inWindow n = false)
    (hnoted : p.noted = false) : c.programGrain n ps reads =
      (c.ev .veldEvWwin [n]).setProg n ps { p with paused := true, noted := true } := by
  unfold Chip.programGrain
  rw [hp]
  dsimp only
  rw [if_neg (by simp [hr, hv, hdev]; omega), if_pos ⟨hwin, by simp [hout]⟩, if_neg (by simp [hnoted])]

variable (hwin : c.flag Fld.veldCfg_wwinEn [n] = true → c.inWindow n = true)
include hwin

/-- Without a credit of its pair it asks for one. -/
theorem Chip.programGrain_asks (hmay : c.mayProgram n ps p = false) : c.programGrain n ps reads =
    ((c.setProg n ps { p with credit := false }).askCredits (.program n ps)).wait p.gate p.tent reads.length true
      (some (progJob n)) := by
  unfold Chip.programGrain
  rw [hp]
  dsimp only
  rw [if_neg (by simp [hr, hv, hdev]; omega), if_neg fun h => h.2 (hwin h.1), if_pos (by simp [hmay])]

theorem Chip.programGrain_iterates {c1 : Chip} {r : ProgStep} (hmay : c.mayProgram n ps p = true)
    (hs : (c.creditMet p.gate (some (progJob n))).spend p.gate p.tent reads.length (some (progJob n)) = some c1)
    (hr' : r = reads.foldl (fun st g => progIterate (c1.image p.logical) (!c1.inWindow n) g st)
      ({ prog := { p with credit := true, paused := false } } : ProgStep)) : c.programGrain n ps reads =
      (if r.prog.outside = true then (c1.setProg n ps r.prog).setF Fld.siteAstate_wwflag [n, ps] 1
        else c1.setProg n ps r.prog).noteStuck n ps p.logical r.good r.stuck := by
  unfold Chip.programGrain
  rw [hp]
  dsimp only
  rw [if_neg (by simp [hr, hv, hdev]; omega), if_neg fun h => h.2 (hwin h.1), if_neg (by simp [hmay])]
  show (match (c.creditMet p.gate (some (progJob n))).spend p.gate p.tent reads.length (some (progJob n)) with
    | none => _
    | some _ => _) = _
  rw [hs, hr']
end

/-! ### The end of programming (R168, R173, R179) -/

section
variable {c : Chip} {n ps : Nat} {noise : List Int} {p : Prog} (hp : c.prog n ps = some p) (hg : progGroups ≤ p.group)
include hp hg

theorem Chip.programmingDone_set {t k sw so : Nat} {sd : List Byte} (hw : p.what = .set t k sw so sd) :
    c.programmingDone n ps noise =
      ((c.programEnd n ps p noise).siteProgrammed n ps t k sw so sd p.logical).wornOut n ps := by
  unfold Chip.programmingDone
  rw [hp]
  dsimp only
  rw [if_neg (Nat.not_lt.mpr hg), hw]

theorem Chip.programmingDone_refresh {c1 : Chip} {o : Refresh} (hw : p.what = .refresh)
    (hc : c1 = (c.programEnd n ps p noise).saveRecord n ps) (ho : (c1.veld n).op = some o) :
    c.programmingDone n ps noise = if 100000 ≤ c1.f Fld.siteWrites_writes [n, ps] then
        (c1.retireSite n ps).requeueOp n o (if o.why = .site then .site else .refresh)
      else c1.setVeld n { c1.veld n with op := some { o with stage := 5 } } := by
  unfold Chip.programmingDone
  rw [hp]
  dsimp only
  rw [if_neg (Nat.not_lt.mpr hg), hw]
  dsimp only
  rw [← hc]
  split
  · next x hx => rw [Option.some.inj (hx.symm.trans ho)]
  · next hx => exact absurd (ho.symm.trans hx) (Option.some_ne_none o)

theorem Chip.programmingDone_inPlace {c1 : Chip} (hw : p.what = .inPlace)
    (hc : c1 = (c.programEnd n ps p noise).setF Fld.siteAstate_state [n, ps] 2) : c.programmingDone n ps noise =
      (((c1.refreshed n).saveRecord n ps).wornOut n ps).nextStep p.logical := by
  unfold Chip.programmingDone
  rw [hp]
  dsimp only
  rw [if_neg (Nat.not_lt.mpr hg), hw]
  dsimp only
  rw [← hc]
  rfl
end

/-! ### The check of a site (R171, R172) -/

theorem Chip.queueRepair_get (c : Chip) (i : Nat) (why : RepairFor) (r : Reg) : (c.queueRepair i why).get r = c.get r := by
  unfold Chip.queueRepair
  dsimp only
  split <;> rfl

theorem Chip.adcFault_get (c : Chip) (n s i a : Nat) (r : Reg) : (c.adcFault n s i a).get r = c.get r := by
  unfold Chip.adcFault
  dsimp only
  split
  · exact Chip.setArr_get ..
  · split
    · rfl
    · rw [Chip.queueRepair_get, Chip.setArr_get]

theorem Chip.noteFaults_get (c : Chip) (i : Nat) (x : CheckSeen) (r : Reg) : (c.noteFaults i x).get r = c.get r := by
  have hrows : (x.rows.foldl (fun c y => c.queueRepair i (.row y)) c).get r = c.get r :=
    Chip.foldl_keeps (Chip.get · r) _ _ fun c y _ => c.queueRepair_get ..
  unfold Chip.noteFaults
  dsimp only
  split
  · rw [Chip.queueRepair_get, hrows]
  · exact hrows

/-- The check of the offsets writes its count and its time only. -/
theorem Chip.siteOffsets_get {c : Chip} {n s i : Nat} {offs : List (Nat × Nat × Int)} {m : RegName} {ix : List Nat} {w : Nat}
    (hcount : RegName.siteCalCount ≠ m) (htime : RegName.siteCalTime ≠ m) :
    (c.siteOffsets n s i offs).get ⟨m, ix, w⟩ = c.get ⟨m, ix, w⟩ := by
  unfold Chip.siteOffsets
  extract_lets x d e
  have he : e.get ⟨m, ix, w⟩ = c.get ⟨m, ix, w⟩ :=
    (Chip.foldl_keeps (Chip.get · ⟨m, ix, w⟩) _ _ fun c a _ => c.adcFault_get ..).trans rfl
  split
  · rw [Chip.get_put_of_name_ne _ htime, Chip.count, Chip.get_setF_of_name_ne _ _ hcount, he]
  · exact he

/-- The cells of a check far from their targets, with their distances. -/
def Chip.deviations (c : Chip) (n s i : Nat) (off : List (Nat × Nat × Nat)) : List ((Nat × Nat) × Nat) :=
  off.filterMap fun x =>
    (c.physTarget n s (c.image i) x.1 x.2.1).map fun (t : Nat) => ((x.1, x.2.1), ((x.2.2 : Int) - t).natAbs)

theorem Chip.deviations_far (c : Chip) (n s i : Nat) (off : List (Nat × Nat × Nat)) :
    ((c.deviations n s i off).filter fun x => decide (80 < x.2)).length = (off.filter fun y =>
      match c.physTarget n s (c.image i) y.1 y.2.1 with
        | some t => decide (80 < ((y.2.2 : Int) - (t : Nat)).natAbs)
        | none => false).length := by
  unfold Chip.deviations
  induction off with
  | nil => rfl
  | cons x xs ih =>
    rw [List.filterMap_cons, List.filter_cons (x := x)]
    cases h : c.physTarget n s (c.image i) x.1 x.2.1 with
    | none => simpa using ih
    | some t =>
      simp only [Option.map_some, List.filter_cons]
      by_cases hd : 80 < ((x.2.2 : Int) - (t : Nat)).natAbs
      · simpa [hd] using ih
      · simpa [hd] using ih

/-- The counts of a check, noted. -/
def Chip.checkCounted (c : Chip) (n s tol stuck : Nat) (a : Arr) : Chip :=
  ((c.setF Fld.siteCheck_outTol [n, s] (min tol 0xFFF)).setF Fld.siteCheck_stuck [n, s] (min stuck 0xFFF)).setArr n s a

/-- The repairs a check asks for. -/
def Chip.checkRepairs (c : Chip) (n s i tol : Nat) (stuck : List (Nat × Nat)) : Chip :=
  let c := if c.f Fld.veldCfg_checkThr [n] < tol ∧ ¬ ((c.veld n).queue.any fun q => q == (i, .refresh)) then
      (c.ev .veldEvRefresh [n]).queueRepair i .refresh else c
  if stuck.isEmpty then c
  else stuck.foldl (fun c x => c.queueRepair i (.stuck x.1 x.2)) (c.ev .siteEvArray [n, s])

theorem Chip.checkDone_eq (c : Chip) (n s i : Nat) (k : CheckRun) : ∃ tol a stuck,
    tol = ((c.deviations n s i k.off).filter fun x => decide (80 < x.2)).length ∧ c.checkDone n s i k =
      (((c.checkCounted n s tol stuck.length a).siteOffsets n s i k.offs).checkRepairs n s i tol stuck) :=
  ⟨_, _, _, rfl, rfl⟩

theorem Chip.checkRepairs_get {c : Chip} {n s i tol : Nat} {stuck : List (Nat × Nat)} {m : RegName} {ix : List Nat} {w : Nat}
    (hr : RegName.veldEvRefresh ≠ m) (ha : RegName.siteEvArray ≠ m) (hq : RegName.sysMsgq ≠ m) :
    (c.checkRepairs n s i tol stuck).get ⟨m, ix, w⟩ = c.get ⟨m, ix, w⟩ := by
  unfold Chip.checkRepairs
  extract_lets d
  have hd : d.get ⟨m, ix, w⟩ = c.get ⟨m, ix, w⟩ := by
    unfold d
    split
    · rw [Chip.queueRepair_get, Chip.get_ev_of_name_ne hr hq]
    · rfl
  split
  · exact hd
  · refine (Chip.foldl_keeps (Chip.get · ⟨m, ix, w⟩) _ _ fun c x _ => c.queueRepair_get ..).trans ?_
    rw [Chip.get_ev_of_name_ne ha hq, hd]

theorem Chip.checkCounted_tol (c : Chip) (n s tol stuck : Nat) (a : Arr) :
    (c.checkCounted n s tol stuck a).f Fld.siteCheck_outTol [n, s] = min tol 0xFFF := by
  rw [Chip.checkCounted, Chip.setArr_f, Chip.f_setF_disjoint (by decide) (by decide) (by decide)]
  exact Chip.f_setF_eq (by decide) (by decide) ((Nat.min_le_right ..).trans_lt (by decide))

theorem Chip.checkCounted_get {c : Chip} {n s tol stuck : Nat} {a : Arr} {m : RegName} {ix : List Nat} {w : Nat}
    (h : RegName.siteCheck ≠ m) : (c.checkCounted n s tol stuck a).get ⟨m, ix, w⟩ = c.get ⟨m, ix, w⟩ := by
  rw [Chip.checkCounted, Chip.setArr_get, Chip.get_setF_of_name_ne _ _ h, Chip.get_setF_of_name_ne _ _ h]

/-- A finished check leaves the count of the cells off their targets and the registers of its Veld. -/
theorem Chip.checkDone_out (c : Chip) (n s i : Nat) (k : CheckRun) : (c.checkDone n s i k).f Fld.siteCheck_outTol [n, s] =
      min ((c.deviations n s i k.off).filter fun x => decide (80 < x.2)).length 0xFFF ∧
    (∀ ix w, (c.checkDone n s i k).get ⟨.veldState, ix, w⟩ = c.get ⟨.veldState, ix, w⟩) := by
  obtain ⟨tol, a, stuck, htol, h⟩ := c.checkDone_eq n s i k
  rw [h, ← htol]
  constructor
  · rw [Chip.f_of_get (Chip.checkRepairs_get (by decide) (by decide) (by decide)),
      Chip.f_of_get (Chip.siteOffsets_get (by decide) (by decide)), Chip.checkCounted_tol]
  · intro ix w
    rw [Chip.checkRepairs_get (by decide) (by decide) (by decide),
      Chip.siteOffsets_get (by decide) (by decide), Chip.checkCounted_get (by decide)]

theorem Chip.nextChecked_congr {c d : Chip} {n x : Nat}
    (h : ∀ y, d.f Fld.siteAstate_state [n, y] = c.f Fld.siteAstate_state [n, y]) :
    d.nextChecked n x = c.nextChecked n x := by simp only [Chip.nextChecked, h]

theorem Chip.nextChecked_lt {c : Chip} {n x : Nat} (h : x < 1024) : c.nextChecked n x < 1024 := by
  unfold Chip.nextChecked
  cases hf : ((List.range 800).map fun k => (x + 1 + k) % 800).find? fun y => c.f Fld.siteAstate_state [n, y] == 2 with
  | none => simpa using h
  | some y =>
    obtain ⟨k, -, rfl⟩ := List.mem_map.mp (List.mem_of_find?_eq_some hf)
    exact (Nat.mod_lt _ (by decide)).trans (by decide)

/-- The check moves on to the next site in use. -/
theorem Chip.nextCheck_moves {c : Chip} {n x : Nat} (hx : c.f Fld.veldState_checkSite [n] = x) :
    (c.nextCheck n).f Fld.veldState_checkSite [n] = (c.nextCheck n).nextChecked n x ∧ ((c.nextCheck n).veld n).check = none ∧
      ∀ fl idx, fl.name ≠ .veldState → (c.nextCheck n).f fl idx = c.f fl idx := by
  have hother : ∀ fl idx, fl.name ≠ .veldState → (c.nextCheck n).f fl idx = c.f fl idx := fun fl idx h => by
    rw [Chip.nextCheck, Chip.f_setF_of_name_ne _ _ _ h.symm, Chip.setVeld_f]
  refine ⟨?_, ?_, hother⟩
  · rw [Chip.nextChecked_congr fun y => hother Fld.siteAstate_state [n, y] (by decide), Chip.nextCheck, hx]
    exact Chip.f_setF_eq (by decide) (by decide) (Chip.nextChecked_lt (hx ▸ bitsOf_lt ..))
  · rw [Chip.nextCheck, Chip.veld_of_velds (Chip.setF_velds ..), Chip.veld_setVeld]

section
variable {c c0 c1 : Chip} {n x i ph : Nat} {off : List (Nat × Nat × Nat)} {seen : CheckSeen}
  (hx : x = c.f Fld.veldState_checkSite [n]) (hi : c.logicalOf n x = some i)
  (hst : c.f Fld.siteAstate_state [n, x] = 2) (hp : c.prog n x = none)
include hx hi hst hp

theorem Chip.siteCheck_waits (hsteps : (c.core i).steps ≠ []) : c.siteCheck n ph off seen = c := by
  unfold Chip.siteCheck
  dsimp only
  rw [← hx, hi]
  split
  · rfl
  · dsimp only
    rw [if_neg (by simp [hst, hp]), if_pos (Or.inr hsteps)]

/-- The phases of a check, on the chip that admitted them. -/
theorem Chip.siteCheck_checks (hen : c.flag Fld.veldCfg_checkEn [n] = true) (hv : c.flag Fld.veldImgBase_valid [n] = true)
    (hdr : (c.veld n).drained = false) (hdev : c.device = .service) (hrun : (c.core i).run = none)
    (hsteps : (c.core i).steps = []) (hu : c.useImage i = (c0, true))
    (hs : c0.spend (.cal (12 + n)) 0 (max 1 ph) = some c1) {c2 : Chip} (hc : c2 = c1.noteFaults i seen) {k : CheckRun}
    (hk : k = { phases := ((c2.veld n).check.getD {}).phases + ph, off := ((c2.veld n).check.getD {}).off ++ off,
                offs := ((c2.veld n).check.getD {}).offs ++ seen.offs }) : c.siteCheck n ph off seen =
      if k.phases < checkPhases then c2.setVeld n { c2.veld n with check := some k } else (c2.checkDone n x i k).nextCheck n := by
  unfold Chip.siteCheck
  dsimp only
  rw [← hx, if_neg (by simp [hen, hv, hdr, hdev]), hi]
  dsimp only
  rw [if_neg (by simp [hst, hp]), if_neg (by simp [hrun, hsteps]), hu, if_neg (by simp)]
  dsimp only
  rw [hs]
  dsimp only
  rw [← hc]
  subst hk
  rfl
end

theorem Chip.useImage_state {c c0 : Chip} {i : Nat} (h : c.useImage i = (c0, true)) (r : Reg) : c0.get r = c.get r := by
  unfold Chip.useImage at h
  dsimp only at h
  split at h
  · rw [← (Prod.mk.inj h).1, Chip.setArr_get]
  · split at h
    · exact Bool.noConfusion (Prod.mk.inj h).2
    · exact Bool.noConfusion (Prod.mk.inj h).2

/-- Settles O57: each event of programming and of a check. -/
theorem sitesAreProgrammedAndChecked : Obligations.SitesAreProgrammedAndChecked := by
  unfold Obligations.SitesAreProgrammedAndChecked
  dsimp only [exec]
  refine ⟨?iterates, ?asks, ?pauses, ?timeout, ?set, ?refresh, ?inPlace, ?check, ?waits⟩
  case iterates =>
    intro n ps reads s p c1 c2 r hok hp hg hr hlen hv hw hdev hwin hmay hs hr' hc2
    refine (units_run hok).trans ?_
    rw [Chip.programGrain_iterates hp hg hr hlen hv hw hdev hwin hmay hs hr', hc2]
  case asks =>
    intro n ps reads s p hok hp hg hr hlen hv hw hdev hwin hmay
    refine (units_run hok).trans ?_
    rw [Chip.programGrain_asks hp hg hr hlen hv hw hdev hwin hmay]
  case pauses =>
    intro n ps reads s p hok hp hg hr hlen hv hw hdev hwin hout hnoted
    refine (units_run hok).trans ?_
    rw [Chip.programGrain_pauses hp hg hr hlen hv hw hdev hwin hout hnoted]
  case timeout =>
    intro n ps s p t k sw so sd hok hp hwhat hpaused
    refine (units_run hok).trans ?_
    rw [Chip.writeWindowTimeout, hp]
    dsimp only
    rw [hwhat, hpaused]
  case set =>
    intro n ps noise s p t k sw so sd hok hp hg hw
    refine (units_run hok).trans ?_
    rw [Chip.programmingDone_set hp hg hw]
  case refresh =>
    intro n ps noise s p o c1 hok hp hg hw hc ho
    refine ⟨fun hlt => (units_run hok).trans ?_, fun hge => (units_run hok).trans ?_⟩
    · rw [Chip.programmingDone_refresh hp hg hw hc ho, if_neg (Nat.not_le.mpr hlt)]
    · rw [Chip.programmingDone_refresh hp hg hw hc ho, if_pos hge]
  case inPlace =>
    intro n ps noise s p c1 hok hp hg hw hc
    refine ⟨_, rfl, (units_run hok).trans ?_⟩
    rw [Chip.programmingDone_inPlace hp hg hw hc]
    rfl
  case check =>
    intro n ph off seen s i c0 c1 c2 x k hok hx hi hen hv hst hp hdr hdev hrun hsteps hu hs hc hk
    have heq := Chip.siteCheck_checks (off := off) hx hi hst hp hen hv hdr hdev hrun hsteps hu hs hc rfl
    rw [← hk] at heq
    refine ⟨fun hlt => (units_run hok).trans ?_, fun hge => ⟨_, units_run hok, ?_⟩⟩
    · rw [heq, if_pos hlt]
    · obtain ⟨b, a, hb⟩ := Chip.spend_eq hs
      have hcheck : c2.f Fld.veldState_checkSite [n] = x := by
        rw [hx, hc, Chip.f_of_get (Chip.noteFaults_get ..), ← Chip.f_of_get (Chip.useImage_state hu _)]
        exact Chip.f_congr (by rw [hb]) (by rw [hb]) ..
      obtain ⟨htol, hstate⟩ := c2.checkDone_out n x i ⟨k.phases + ph, k.off ++ off, k.offs ++ seen.offs⟩
      obtain ⟨hmoves, hnone, hother⟩ := Chip.nextCheck_moves ((Chip.f_of_get (hstate _ _)).trans hcheck)
      dsimp only
      rw [heq, if_neg (Nat.not_lt.mpr hge)]
      exact ⟨hmoves, hnone, (hother _ _ (by decide)).trans (htol.trans (by rw [Chip.deviations_far] <;> rfl))⟩
  case waits =>
    intro n ph off seen s i x hok hx hi hst hp hsteps
    refine (units_run hok).trans ?_
    rw [Chip.siteCheck_waits hx hi hst hp hsteps]

end Sys2Proof.Machine
end

section
/-!
Rotations, selectors, calibrated ADCs and gates that see a new frame (files 02, 06, 08 and 09 of spec/): the statement O56.
-/

namespace Sys2Proof.Machine

theorem onUnits_next {ok : Bool} {s : State} {f : Chip → Chip} {c : Chip} (hok : ok = true) (h : f s.chip = c) :
    onUnits ok s f = .next { s with chip := c } := by rw [← h, units_run hok]

/-! ### Columns (R187 to R190) -/

section
variable {c : Chip} {k : Nat} {m : StepMeas} (hdev : c.device = .service) (hdr : (c.dale k).drained = false)
  (hen : c.flag Fld.calCfg_rotEn [k / 12] = true)
include hdev hdr hen

theorem Chip.rotationStep_measures {c1 : Chip} (hnext : (c.dale k).rot.next = .measure) (hheld : c.rotationHeld k = false)
    (hs : c.spend (.cal (k / 12)) 0 1 = some c1) : c.rotationStep k m =
      (c1.measureStep k m).setValeCal (k / 12) { c1.valeCal (k / 12) with held := false } := by
  unfold Chip.rotationStep
  dsimp only
  rw [if_neg (by simp [hdev, hdr, hen]), hnext]
  dsimp only
  rw [if_neg (by simp [hheld]), hs]

theorem Chip.rotationStep_stages (hnext : (c.dale k).rot.next = .stage) : c.rotationStep k m = c.stageStep k := by
  unfold Chip.rotationStep
  dsimp only
  rw [if_neg (by simp [hdev, hdr, hen]), hnext]

theorem Chip.rotationStep_compares (hnext : (c.dale k).rot.next = .compare) (hat : c.atBoundary k = true) :
    c.rotationStep k m = c.compareStep k m := by
  unfold Chip.rotationStep
  dsimp only
  rw [if_neg (by simp [hdev, hdr, hen]), hnext]
  exact if_pos hat
end

/-- Staged columns, at a boundary of their Dale, exchange their roles. -/
theorem Chip.columnStrobe_exchanges {c : Chip} {k : Nat} (hnext : (c.dale k).rot.next = .strobe)
    (hat : c.atBoundary k = true) (hst : (c.dale k).staging = none) : ((c.columnStrobe k).dale k).rot.next = .compare ∧
      ((c.columnStrobe k).dale k).live = (c.dale k).rot.codes.foldl (fun l x => Tab.set l x.1 x.2) (c.dale k).live ∧
      ((c.columnStrobe k).dale k).tile = (c.dale k).tile ∧ (c.columnStrobe k).mem = c.mem := by
  unfold Chip.columnStrobe
  dsimp only
  rw [if_pos ⟨hnext, hat, by simp [hst]⟩, Chip.dale_of_dales (Chip.count_dales ..), Chip.dale_setDale_same]
  exact ⟨rfl, rfl, rfl, rfl⟩

/-! ### Selectors and calibrated ADCs (R206, R262) -/

/-- A fold whose steps leave the chip leaves it. -/
theorem Chip.foldl_unmoved {α : Type} {f : Chip → α → Chip} {l : List α} {c : Chip} (h : ∀ x ∈ l, f c x = c) :
    l.foldl f c = c := by
  induction l with
  | nil => rfl
  | cons x l ih =>
    rw [List.foldl_cons, h x List.mem_cons_self]
    exact ih fun y hy => h y (List.mem_cons_of_mem _ hy)

/-- A dark bank with no other on the calibration line goes there. -/
theorem Chip.selBegin_begins {c c1 : Chip} {v b : Nat} (hdev : c.device = .service)
    (hdr : (c.dale (12 * v)).drained = false) (hen : c.flag Fld.calCfg_selEn [v] = true)
    (hsel : c.f Fld.calState_selBank [v] = 0x1F) (hdark : c.f Fld.valeBank_state [v, b] = 0)
    (hcar : (c.bank v b).carries = none) (hs : c.spend (.cal v) 0 1 = some c1)
    (hline : ∀ x, x < 16 → x ≠ b → c1.f Fld.valeBank_port [v, x] ≠ 12) : c.selBegin v b =
      (((((c1.setBank v b { c1.bank v b with calRun := true }).setF Fld.calState_selBank [v] b).setF
        Fld.valeBank_port [v, b] 12).colourChange v b ((28 - b) % 16)).syncGood v 0) := by
  unfold Chip.selBegin
  dsimp only
  rw [if_neg (by simp [hdev, hdr, hen, hsel, hdark, hcar]), hs]
  dsimp only
  rw [Chip.foldl_unmoved fun x hx => if_neg fun h => hline x (List.mem_range.mp hx) h.1 h.2.1]

/-- The calibrated ADC at another place, a full turn noted in the direction. -/
def Chip.calAdcAt (c : Chip) (v new : Nat) : Chip :=
  let c := c.setF Fld.convRot_calAdc [v] new
  if new = 0 then c.setF Fld.convRot_dir [v] 0 else if new = 71 then c.setF Fld.convRot_dir [v] 1 else c

theorem Chip.calAdcAt_calAdc {c : Chip} {v new : Nat} (h : new < 128) :
    (c.calAdcAt v new).f Fld.convRot_calAdc [v] = new := by
  have hset : (c.setF Fld.convRot_calAdc [v] new).f Fld.convRot_calAdc [v] = new := Chip.f_setF_eq (by decide) (by decide) h
  unfold Chip.calAdcAt
  dsimp only
  split
  · rw [Chip.f_setF_disjoint (by decide) (by decide) (by decide), hset]
  · split
    · rw [Chip.f_setF_disjoint (by decide) (by decide) (by decide), hset]
    · exact hset

theorem Chip.setValeCal_f (c : Chip) (v : Nat) (x : ValeCal) (fl : Fld) (idx : List Nat) :
    (c.setValeCal v x).f fl idx = c.f fl idx := Chip.f_congr (a := c.setValeCal v x) (b := c) rfl rfl fl idx

theorem Chip.setValeCal_adc (c : Chip) (v : Nat) (x : ValeCal) (n l : Nat) : (c.setValeCal v x).adc n l = c.adc n l := rfl

theorem Chip.valeCal_setValeCal (c : Chip) (v : Nat) (x : ValeCal) : (c.setValeCal v x).valeCal v = x :=
  Tab.get_set_same ..

/-- A converter asked for its calibration conversion. -/
def Chip.calAsked (c : Chip) (v l : Nat) (vc : ValeCal) (busy : Bool) : Chip :=
  ((c.setAdc v l { c.adc v l with moving := busy, cal := some (calRequest 0) }).showAdc v l).setValeCal v vc

theorem Chip.adcStep_up {c c1 : Chip} {v : Nat} (hdev : c.device = .service) (hdr : (c.dale (12 * v)).drained = false)
    (hen : c.flag Fld.calCfg_adcEn [v] = true) (hfault : c.flag Fld.calState_adcFault [v] = false)
    (hnone : (c.valeCal v).adc = none) (hs : c.spend (.cal v) 0 1 = some c1) (hup : c1.flag Fld.convRot_dir [v] = false) :
    ∃ busy, c.adcStep v = (c1.calAdcAt v (c1.f Fld.convRot_calAdc [v] + 1)).calAsked v (c1.f Fld.convRot_calAdc [v])
      { c.valeCal v with adc := some { phys := c1.f Fld.convRot_calAdc [v] + 1, logical := c1.f Fld.convRot_calAdc [v] } }
      busy := by
  unfold Chip.adcStep
  dsimp only
  rw [if_neg (by simp [hdev, hdr, hen, hfault, hnone]), hs]
  dsimp only
  rw [hup]
  exact ⟨_, rfl⟩

theorem Chip.calAsked_shows (c : Chip) (v l : Nat) (vc : ValeCal) (busy : Bool) :
    (c.calAsked v l vc busy).f Fld.convRot_calAdc [v] = c.f Fld.convRot_calAdc [v] ∧
      (c.calAsked v l vc busy).valeCal v = vc ∧ ((c.calAsked v l vc busy).adc v l).cal = some (calRequest 0) := by
  rw [Chip.calAsked, Chip.setValeCal_f, Chip.valeCal_setValeCal, Chip.setValeCal_adc,
    Chip.f_of_get (Chip.showAdc_get (by decide)), Chip.setAdc_f, Chip.adc_of_adcs (Chip.showAdc_adcs ..),
    Chip.adc_setAdc_same]
  exact ⟨rfl, rfl, rfl⟩

/-- A calibration conversion whose results are complete. -/
theorem Chip.calConvEnd_judges {c c0 c1 : Chip} {v l : Nat} {xs : List Int} {req : Word} {x y : AdcCal}
    {sx : List Int × Chip} {o : Int × Gen} (hrun : (c.adc v l).run = .cal req) (hx : (c.valeCal v).adc = some x)
    (hc0 : c0 = c.discsDone v l) (hsx : sx = c0.trimMonitor v x.phys (seqGain req.toNat) (2 ^ seqAvg req.toNat) xs)
    (ho : o = outputValue (sx.2.gen (.monitor v)) (seqAvg req.toNat) sx.1)
    (hc1 : c1 = ((sx.2.setGen (.monitor v) o.2).setRun v l .idle).injectionRun v l 0)
    (hy : (c1.valeCal v).adc = some y) (hlen : y.results.length = 7) :
    c.calConvEnd v l xs = c1.judgeAdc v y.phys (y.results ++ [o.1]) := by
  unfold Chip.calConvEnd
  rw [hrun]
  dsimp only
  rw [hx]
  dsimp only
  rw [← hc0, ← hsx, ← ho, ← hc1, hy]
  dsimp only
  rw [if_neg (by simp [hlen])]

/-! ### Gates (R47) -/

/-- A grain that waits at a gate has met one more boundary. -/
def Chip.metBoundary (c : Chip) (w : Waiting) : Chip :=
  { c with bud := { c.bud with waiting := c.bud.waiting.map fun x => if x = w then { x with met := x.met + 1 } else x } }

/-- A grain that waits at a gate is offered again at its boundary. -/
def Chip.offered (c : Chip) (g : Gate) (w : Waiting) : Chip :=
  if w.credit then c.metBoundary w
  else match c.requestLease g w.tent w.qty with
    | some c' => { c' with bud := { c'.bud with waiting := c'.bud.waiting.filter fun x => x != w } }
    | none => c.metBoundary w

theorem Chip.requestLease_seen {c d : Chip} {g : Gate} {t q : Nat} (h : c.requestLease g t q = some d) :
    d.bud.seen = c.bud.seen := by
  unfold Chip.requestLease at h
  extract_lets cl ok n e at h
  split at h
  · rw [← Option.some.inj h]
    rfl
  · cases h

theorem Chip.offered_seen (c : Chip) (g : Gate) (w : Waiting) : (c.offered g w).bud.seen = c.bud.seen := by
  unfold Chip.offered
  split
  · rfl
  · split
    · next d h => exact (Chip.requestLease_seen h :)
    · rfl

/-- The gate at its boundary, before its grains are offered. -/
def Chip.atFrame (c : Chip) (g : Gate) : Chip :=
  { c with bud := { c.bud with
    seen := Tab.set c.bud.seen g c.bud.frame
    leases := c.bud.leases.map fun p => if p.1.1 = g then (p.1, p.2.filter fun q => q.1 == c.bud.frame) else p } }

theorem Chip.gateBoundary_eq {c : Chip} {g : Gate} (h : c.seenOf g ≠ c.bud.frame) : c.gateBoundary g =
    ((c.atFrame g).bud.waiting.filter fun w => w.gate == g).foldl (fun c w => c.offered g w) (c.atFrame g) := by
  unfold Chip.gateBoundary
  rw [if_neg h]
  rfl

/-- The gate's own frame is the one begun. -/
theorem Chip.gateBoundary_seen {c : Chip} {g : Gate} (h : c.seenOf g ≠ c.bud.frame) :
    Tab.get (c.gateBoundary g).bud.seen g 0 = c.bud.frame := by
  rw [Chip.gateBoundary_eq h, Chip.foldl_keeps (fun c => c.bud.seen) _ _ fun c w _ => c.offered_seen g w]
  exact Tab.get_set_same ..

theorem gateChange_runs {s : State} {g : Gate} {c : Chip} (hg : gateExists g = true) (hp : s.chip.powered = true)
    (h : s.chip.gateChange s.cairn g = c) : execGateFrameChange g s = .next { s with chip := c } :=
  onUnits_next hg ((if_pos hp).trans h)

/-- Settles O56: each event of a rotation, of a calibrated unit and of a gate. -/
theorem rotationsStep : Obligations.RotationsStep := by
  unfold Obligations.RotationsStep
  dsimp only [exec]
  refine ⟨?measure, ?stage, ?compare, ?strobe, ?dark, ?ends, ?adc, ?judge, ?gate⟩
  case measure =>
    rintro v d m s k c1 hok rfl hdev hdr hen hnext hheld hs
    exact ⟨_, rfl, onUnits_next hok (Chip.rotationStep_measures hdev hdr hen hnext hheld hs)⟩
  case stage =>
    rintro v d m s k hok rfl hdev hdr hen hnext
    exact onUnits_next hok (Chip.rotationStep_stages hdev hdr hen hnext)
  case compare =>
    rintro v d m s k hok rfl hdev hdr hen hnext hat
    exact onUnits_next hok (Chip.rotationStep_compares hdev hdr hen hnext hat)
  case strobe =>
    rintro v d s k hok rfl hnext hat hst
    exact ⟨_, units_run hok, Chip.columnStrobe_exchanges hnext hat hst⟩
  case dark =>
    intro v b r1 p1 r2 p2 s c1 hv hb hrun hdev hdr hen hsel hdark hcar hs hline
    refine ⟨_, rfl, onUnits_next (by simp [hv, hb]) ?_⟩
    rw [Chip.selectorCal, if_neg (by simp [hrun]), Chip.selBegin_begins hdev hdr hen hsel hdark hcar hs hline]
  case ends =>
    intro v b r1 p1 r2 p2 s hv hb hrun
    exact onUnits_next (by simp [hv, hb]) (if_pos hrun)
  case adc =>
    intro v s c1 hv hdev hdr hen hfault hnone hs hup hlt
    obtain ⟨busy, heq⟩ := Chip.adcStep_up hdev hdr hen hfault hnone hs hup
    obtain ⟨hat, hvc, hcal⟩ := (c1.calAdcAt v (c1.f Fld.convRot_calAdc [v] + 1)).calAsked_shows v (c1.f Fld.convRot_calAdc [v])
      { s.chip.valeCal v with adc := some { phys := c1.f Fld.convRot_calAdc [v] + 1, logical := c1.f Fld.convRot_calAdc [v] } }
      busy
    refine ⟨_, onUnits_next (by simp [hv]) heq, hat.trans (Chip.calAdcAt_calAdc (by omega)), ?_, hcal⟩
    rw [hvc]
  case judge =>
    intro v l xs s req x c0 sx o c1 y hv hl hrun hx hc0 hsx ho hc1 hy hlen
    exact onUnits_next (by simp [adcOk, hv, hl]) (Chip.calConvEnd_judges hrun hx hc0 hsx ho hc1 hy hlen)
  case gate =>
    intro g s hg hp hseen
    refine ⟨_, rfl, Chip.gateBoundary_seen hseen, ?_, ?_, ?_, ?_, ?_, ?_⟩
    · rintro k rfl
      exact gateChange_runs hg hp (if_neg hseen)
    · rintro i rfl
      exact gateChange_runs hg hp (if_neg hseen)
    · rintro i rfl
      exact gateChange_runs hg hp (if_neg hseen)
    · rintro x rfl
      exact gateChange_runs hg hp (if_neg hseen)
    · rintro p rfl
      exact gateChange_runs hg hp (if_neg hseen)
    · rintro rfl
      exact gateChange_runs hg hp (if_neg hseen)

end Sys2Proof.Machine
end

section
/-!
Messages of the fronthaul ports (R370 to R392, file 12 of spec/): the statement O48.
-/

namespace Sys2Proof.Machine

/-! ### U-plane messages (R389, R390) -/

/-- A U-plane message of a valid eAxC goes by its window. -/
theorem Chip.uplane_taken {c : Chip} {port a h : Nat} {bs body msg : List Byte} {after : Int} {e : Eaxc}
    {prbs : List RxPrb} (hen : c.flag Fld.fhPortMac_en [port] = true) (hb : etherParts bs = some (0xAEFE, body))
    (hm : ecpriParts body = some (0, msg)) (ha : a = beNat (msg.take 2)) (he : e = Eaxc.ofWords (c.eaxc (a % 4096)))
    (hh : h = beNat ((msg.drop 4).take 4)) (hlock : c.locked = true) (hlen : 8 ≤ msg.length) (hv : e.valid = true)
    (hport : e.port = port) (hid : e.idHi = a / 4096) (hver : bitsOf h 31 28 = 1)
    (hrx : rxSections msg.length e (bitsOf h 5 0) (msg.drop 8) = some prbs) : c.uplane port bs after =
      if (bitsOf c.fhWin 39 30 : Int) * 1000 < after then (c.count Fld.fhPortStat_late [port]).ev .fhEvLate
      else prbs.foldl (fun d p => d.writePrb e
        ((c.radio.slots : Int) + c.slotAhead (bitsOf h 23 16) (bitsOf h 15 12) (bitsOf h 11 6)).toNat p) c := by
  unfold Chip.uplane
  rw [if_neg (by simp [hen]), hb]
  dsimp only
  rw [if_neg (by decide), if_neg (by decide), hm]
  dsimp only
  rw [if_neg (by decide), ← ha, ← he, ← hh, if_neg (by simp [hlock, hv, hport, hid, hver]; omega), hrx]

/-! ### C-plane messages and the sections of a slot (R386 to R388) -/

theorem Chip.cplane_sends {c : Chip} {k : Nat} {down : Bool} (h : c.locked = true) : c.cplane k down =
    (let d := (groupSections (c.sectionsOf k down) []).foldl Chip.sendCplane c
     if down then d
     else { d with radio := { d.radio with recs := d.radio.recs.filter fun p => !(p.1 == k && !(CSection.ofWords p.2).down) } }) := by
  rw [Chip.cplane, if_neg (by simp [h])]

theorem Chip.dlUplane_symbol {c : Chip} {k l : Nat} {x : CSection} {e : Eaxc} (hlock : c.locked = true)
    (hx : c.sectionsOf k true = [x]) (he : e = Eaxc.ofWords (c.eaxc (x.eaxc % 4096))) (h1 : x.start ≤ l)
    (h2 : l < x.start + x.num) (hv : e.valid = true) : ∃ rs, c.dlUplane k l =
      (let d := Chip.sendSymbol 1024 c x e k l x.prb0 (if x.prbs = 0 then e.nPrb - x.prb0 else min x.prbs (e.nPrb - x.prb0))
       { d with radio := { d.radio with recs := rs } }) := by
  unfold Chip.dlUplane
  rw [if_neg (by simp [hlock]), hx]
  dsimp only [List.foldl]
  rw [← he, if_pos ⟨h1, h2, hv⟩]
  exact ⟨_, rfl⟩

/-! ### PTP, ESMC and delay measurement (R379, R380, R391) -/

theorem Chip.ptp_sync {c : Chip} {port : Nat} {bs msg : List Byte} {te : Int} (hsrc : c.f Fld.fhCfg_tsrc = 1)
    (hport : c.f Fld.fhCfg_ptpPort = port) (hen : c.flag Fld.fhPortMac_en [port] = true)
    (hb : etherParts bs = some (0x88F7, msg)) (hkind : byteAt msg 0 % 16 = 0) (hver : byteAt msg 1 % 16 = 2)
    (hdom : byteAt msg 4 = c.f Fld.fhCfg_domain) : c.ptp port bs te =
      (c.setF Fld.fhSync_te [] (fieldOf 16 (clampInt (-32768) 32767 te))).delayReq port := by
  unfold Chip.ptp
  rw [if_neg (by simp [hsrc, hport, hen]), hb]
  dsimp only
  rw [if_neg (by decide), if_neg (by decide), if_neg (by simp [hver, hdom]), if_pos (Or.inl hkind), if_pos hkind]

theorem Chip.ptp_esmc {c : Chip} {port : Nat} {bs msg : List Byte} {te : Int} (hsrc : c.f Fld.fhCfg_tsrc = 1)
    (hport : c.f Fld.fhCfg_ptpPort = port) (hen : c.flag Fld.fhPortMac_en [port] = true)
    (hb : etherParts bs = some (0x8809, msg)) : c.ptp port bs te = c.setF Fld.fhSync_ssm [] (byteAt msg 13 % 16) := by
  unfold Chip.ptp
  rw [if_neg (by simp [hsrc, hport, hen]), hb]
  exact if_pos rfl

theorem Chip.delayMeas_request {c : Chip} {port ts comp : Nat} {bs body msg : List Byte}
    (hen : c.flag Fld.fhPortMac_en [port] = true) (hb : etherParts bs = some (0xAEFE, body))
    (hm : ecpriParts body = some (5, msg)) (hlen : 20 ≤ msg.length) (hreq : byteAt msg 1 ≤ 1) :
    c.delayMeas port bs ts comp = c.sendEther port 0 0xAEFE
      (ecpri 5 (msg.take 1 ++ beBytes 1 2 ++ beBytes 10 ts ++ beBytes 8 comp)) := by
  unfold Chip.delayMeas
  rw [if_neg (by simp [hen]), hb]
  dsimp only
  rw [hm]
  dsimp only
  rw [if_neg (by simp; omega)]
  obtain h | h : byteAt msg 1 = 0 ∨ byteAt msg 1 = 1 := by omega
  · rw [h]
    rfl
  · rw [h]
    rfl

/-- Settles O48: each message of a port. -/
theorem fronthaulMessagesAct : Obligations.FronthaulMessagesAct := by
  unfold Obligations.FronthaulMessagesAct
  dsimp only [exec]
  refine ⟨?window, ?late, ?down, ?up, ?symbol, ?sync, ?esmc, ?delay⟩
  case window =>
    rintro port bs after s body msg a e h prbs n hp hen hb hm ha he hh hlock hlen hv hport hid hver hrx hin rfl
    exact onUnits_next (by simp [hp])
      ((Chip.uplane_taken hen hb hm ha he hh hlock hlen hv hport hid hver hrx).trans (if_neg (not_lt.mpr hin)))
  case late =>
    intro port bs after s body msg a e h prbs hp hen hb hm ha he hh hlock hlen hv hport hid hver hrx hlate
    exact onUnits_next (by simp [hp])
      ((Chip.uplane_taken hen hb hm ha he hh hlock hlen hv hport hid hver hrx).trans (if_pos hlate))
  case down => exact fun k s hlock => onChip_next (Chip.cplane_sends hlock)
  case up => exact fun k s hlock => ⟨_, rfl, _, onChip_next (Chip.cplane_sends hlock), rfl, rfl, rfl⟩
  case symbol =>
    rintro k l s x e left hl hlock hx he h1 h2 hv rfl
    obtain ⟨rs, h⟩ := Chip.dlUplane_symbol hlock hx he h1 h2 hv
    exact ⟨_, rfl, _, onUnits_next (by simp [hl]) h, rfl, rfl, rfl⟩
  case sync =>
    intro port bs te s msg hp hsrc hport hen hb hkind hver hdom
    exact ⟨_, rfl, onUnits_next (by simp [hp]) (Chip.ptp_sync hsrc hport hen hb hkind hver hdom)⟩
  case esmc =>
    intro port bs te s msg hp hsrc hport hen hb
    exact ⟨_, onUnits_next (by simp [hp]) (Chip.ptp_esmc hsrc hport hen hb),
      Chip.f_setF_eq (by decide) (by decide) (Nat.mod_lt _ (by decide))⟩
  case delay =>
    intro port bs ts comp s body msg hp hen hb hm hlen hreq
    exact onUnits_next (by simp [hp]) (Chip.delayMeas_request hen hb hm hlen hreq)

end Sys2Proof.Machine
end

section
/-!
A Dale's tile and its strobe (R80 to R92, file 04 of spec/): the statement O54.
-/

namespace Sys2Proof.Machine

/-- A Dale with a staged tile of the index 4,096, which the twelve low bits do not hold. -/
def stagedHigh : Chip :=
  { dales := [(0, { staging := some { bytes := [], wmode := 0, sw := 0, index := 4096 }, staged := true })] }

/-- DALE_TILE shows sixteen bits of the index, so the strobe leaves all of it. -/
theorem stagedHigh_tile : (stagedHigh.loadStrobe 0).f Fld.daleTile_tile [0, 0] = 4096 := by decide +kernel

/-- Refutes O54: its clause on LOAD_STROBE gives DALE_TILE the index modulo 4,096, but the field holds sixteen bits of it. -/
theorem not_daleJobsPrepare : ¬ Obligations.DaleJobsPrepare := by
  unfold Obligations.DaleJobsPrepare
  intro hall
  obtain ⟨-, -, -, -, -, hstrobe, -⟩ := hall
  obtain ⟨u, hu, -, -, -, -, -, htile, -⟩ := hstrobe 0 0 { chip := stagedHigh } 0 _ (by decide) rfl (by decide +kernel)
    (by decide +kernel) rfl rfl rfl
  have hrun : exec (.loadStrobe 0 0) { chip := stagedHigh } = .next { chip := stagedHigh.loadStrobe 0 } := rfl
  rw [hrun] at hu
  cases hu
  exact absurd (stagedHigh_tile.symm.trans htile) (by decide)

end Sys2Proof.Machine
end

section
/-!
Batches, their tags and the end of a job (R110 to R145, file 04 of spec/): the statement O55.
-/

namespace Sys2Proof.Machine

theorem Chip.batchReady_iff {c : Chip} {k : Nat} {r : DaleRun} (h : c.batchReady k r = true) :
    r.phase = .prepare ∧ r.stop = none ∧ r.needTile = false := by
  simp only [Chip.batchReady, Bool.and_eq_true, beq_iff_eq, Bool.not_eq_true', Option.isNone_iff_eq_none] at h
  obtain ⟨⟨⟨⟨⟨⟨⟨⟨⟨⟨⟨⟨_, hphase⟩, hstop⟩, _⟩, _⟩, htile⟩, _⟩, _⟩, _⟩, _⟩, _⟩, _⟩, _⟩ := h
  exact ⟨hphase, hstop, htile⟩

theorem daleOk_number {v d : Nat} (h : daleOk v d = true) : (12 * v + d) / 12 = v ∧ (12 * v + d) % 12 = d := by
  have hd : v < 12 ∧ d < 12 := by simpa [daleOk] using h
  omega

theorem Chip.mapRun_congr {c : Chip} {k : Nat} {r : DaleRun} {f g : DaleRun → DaleRun} (hrun : (c.dale k).run = some r)
    (h : f r = g r) : c.mapRun k f = c.mapRun k g := by
  rw [Chip.mapRun, Chip.mapRun, hrun, Option.map_some, Option.map_some, h]

theorem Chip.mapRun_run {c : Chip} {k : Nat} {r : DaleRun} {f : DaleRun → DaleRun} (hrun : (c.dale k).run = some r) :
    ((c.mapRun k f).dale k).run = some (f r) := by
  rw [Chip.mapRun, Chip.dale_setDale_same, hrun, Option.map_some]

/-! ### The start of a batch (R120 to R127, R134, R143) -/

section
variable {c : Chip} {k now : Nat} {bad : List (Nat × Option Tag)} {r : DaleRun} {ds : Desc} {t : Tile}
  (hrun : (c.dale k).run = some r) (hds : ds = Desc.ofWords r.job.desc) (hready : c.batchReady k r = true)
  (ht : c.wantedTile r.job = some t) (hreload : c.needsReload k r.job t = false)
include hrun hds hready ht hreload

theorem Chip.batchStart_late {c1 : Chip} (hdl : c.deadlineReached ds.deadline now = true)
    (hadm : c.admitAll r.job.tent (memAccess (ds.inScale + 4 * blockOf ds.inKind r.row) 4) (some (.dale k)) = (c1, true)) :
    c.batchStart k now bad = (c1.stopRun k r.row
      (if (c1.skewRow ds r.row 1).isSome then Status.scaleSkew else Status.late)).settleRun k := by
  obtain ⟨hphase, hstop, hneed⟩ := Chip.batchReady_iff hready
  subst hds
  unfold Chip.batchStart
  rw [hrun]
  dsimp only
  rw [if_neg (by simp [hneed]), if_neg (by simp [hready]), ht]
  dsimp only
  rw [if_neg (by simp [hreload]), if_pos hdl, Chip.stopAtBlock]
  dsimp only
  rw [hadm, if_neg (by simp)]

/-- A batch whose grains are admitted issues its symbols behind its lead-in, its tag accepted where one is due. -/
theorem Chip.batchStart_issues {c1 : Chip} {rows changed pre : Nat} {ks : List Nat} {due : Bool}
    (hdl : c.deadlineReached ds.deadline now = false) (hrows : rows = min ds.batch (ds.nVec - r.row)) (h0 : 0 < rows)
    (hks : ks = wantedRanges ds r) (hchanged : changed = (if r.switched then 64
      else (changedReceivers (c.rangesNow k ds.nOut) ks (c.dueSubsts k)).length))
    (hdue : due = (!r.tagged || r.tagFrame != c.seenOf (.dale k)))
    (hpre : pre = (if changed ≠ 0 then 48 else if due = true then 32 else 0))
    (hshed : c.bud.shed.contains (.dale k) = false) (hact : (c.dale k).active = true)
    (hadm : c.admitAll r.job.tent ((.dale k, pre + rows * ds.vecSymbols) :: batchReads ds r.row rows) (some (.dale k)) =
      (c1, true)) (hskew : c1.skewRow ds r.row rows = none)
    (htag : due = true → tagAccepted (jobTag ds r.job.tent (if r.tagged then 1 else 0)) bad = true) :
    c.batchStart k now bad = (if due = true then c1.mapRun k fun r' => { r' with
        tagged := true, tagFrame := c.seenOf (.dale k), tagRow := r.row } else c1).issueBatch k r ds ks rows pre changed := by
  obtain ⟨hphase, hstop, hneed⟩ := Chip.batchReady_iff hready
  subst hds
  unfold Chip.batchStart
  rw [hrun]
  dsimp only
  rw [if_neg (by simp [hneed]), if_neg (by simp [hready]), ht]
  dsimp only
  rw [if_neg (by simp [hreload]), if_neg (by simp [hdl]), ← hks, ← hrows, ← hchanged, ← hdue, ← hpre,
    if_neg (by rw [hshed]; exact Bool.false_ne_true), if_neg (by simp [hact]), hadm, if_neg (by simp)]
  dsimp only
  rw [hskew]
  dsimp only
  rw [if_neg (by omega), if_neg fun h => h.2 (htag h.1)]
  have hrun1 : (c1.dale k).run = some r := by
    obtain ⟨b, a, g, m, q, hc1⟩ := c.admitAll_eq r.job.tent ((.dale k, pre + rows * (Desc.ofWords r.job.desc).vecSymbols) ::
      batchReads (Desc.ofWords r.job.desc) r.row rows) (some (.dale k))
    rw [hadm] at hc1
    dsimp only at hc1
    rw [hc1]
    exact hrun
  rw [Chip.mapRun_congr (g := fun r' : DaleRun => { r' with
    tagged := true, tagFrame := c.seenOf (.dale k), tagRow := r.row }) hrun1 rfl]
end

/-! ### The end of a batch and of a job (R136 to R145) -/

/-- What the end of a batch notes in its run. -/
def DaleRun.accumulated (r : DaleRun) (rows : List AccRow) (trackers : List Tracker) (ovr now : Nat) : DaleRun :=
  { r with phase := .prepare, row := r.row + r.rows, rows := 0, acc := r.acc ++ rows, trackers := trackers
           ovr := sat32 (r.ovr + ovr), ended := (r.row, now) :: r.ended }

/-- A batch that ends is accumulated, and the rows whose side sums are ready are delivered. -/
theorem Chip.batchEnd_accumulates {c c1 c2 : Chip} {k ovr : Nat} {noise : List Int} {r : DaleRun} {ds : Desc} {t : Tile}
    {ks : List Nat} {a : List (List ColAcc × AccRow) × Gen} (hrun : (c.dale k).run = some r) (ht : (c.dale k).tile = some t)
    (hphase : r.phase = .batch) (hds : ds = Desc.ofWords r.job.desc)
    (hadm : c.admitAll r.job.tent (batchWrites ds r.row r.rows) (some (.dale k)) = (c1, true))
    (hks : ks = c1.rangesNow k ds.nOut) (ha : a = c1.accumulateBatch k ds t ks r noise)
    (hovr : ovr = (a.1.map fun x => (x.1.map fun y => y.ovr).sum).sum) (hc2 : c2 = c1.setGen (.requantDale k) a.2) :
    ∃ rows trackers, rows.map AccRow.row = a.1.map (fun x => x.2.row) ∧ c.batchEnd k noise =
      (Chip.deliverReady (r.acc.length + r.rows + 1)
        ((c2.mapRun k fun r' => r'.accumulated rows trackers ovr c2.gclk).setDaleState k 1) k).settleRun k := by
  subst hds
  unfold Chip.batchEnd
  rw [hrun, ht]
  dsimp only
  rw [if_neg (not_not.mpr hphase), hadm, if_neg (by simp)]
  dsimp only
  rw [← hks, ← ha, ← hovr, ← hc2]
  refine ⟨_, _, ?_, rfl⟩
  rw [List.map_map]
  rfl

theorem Chip.jobComplete_finishes {c c1 : Chip} {k : Nat} {r : DaleRun} (hrun : (c.dale k).run = some r)
    (hphase : r.phase = .ended) (hst : runStatus r ≠ Status.budgetWaitLimit)
    (hadm : c.admitAll r.job.tent (memAccess (Desc.ofWords r.job.desc).stat 32 ++ (match r.job.compl with
      | some a => memAccess a 32
      | none => [])) (some (.dale k)) = (c1, true)) : c.jobComplete k = c1.finishRun k := by
  unfold Chip.jobComplete
  rw [hrun]
  dsimp only
  rw [if_neg (not_not.mpr hphase), if_neg hst]
  refine (congrArg (fun m : Chip × Bool => if m.2 then m.1.finishRun k else m.1) (Eq.trans ?_ hadm)).trans (if_pos rfl)
  rfl

/-! ### Tags (R114 to R119, R128) -/

theorem Chip.tagDecode_relocks {c : Chip} {v p : Nat} {tag : Tag} {f : TagFields} (hf : tagFields tag = some f)
    (hv : f.vale = v) (hp : f.port = p) (htag : tag = c.relockTag v f.bank) (hst : c.f Fld.valeBank_state [v, f.bank] = 2) :
    c.tagDecode v p tag = c.setF Fld.valeBank_state [v, f.bank] 3 := by
  unfold Chip.tagDecode
  rw [hf]
  dsimp only
  rw [if_pos ⟨hv, hp⟩, if_pos ⟨hst, htag⟩]

theorem Chip.tagDecode_intrudes {c : Chip} {v p : Nat} {tag : Tag} {f : TagFields} (hp : p < 12)
    (hf : tagFields tag = some f) (hne : f.port ≠ p) (hv : f.vale = v) : c.tagDecode v p tag =
      if c.reportTaken v f.bank
        then (c.intrude (12 * v + p) f.bank true).wrongLine v f.bank f.port ((p + 16 - f.bank) % 16)
        else c.intrude (12 * v + p) f.bank false := by
  have hrep : (decide (p ≤ 12 ∧ f.vale = v) && c.reportTaken v f.bank) = c.reportTaken v f.bank := by
    rw [decide_eq_true ⟨hp.le, hv⟩, Bool.true_and]
  unfold Chip.tagDecode
  rw [hf]
  dsimp only
  rw [if_neg fun h => hne h.2, hrep, if_pos hp]
  split
  · next h => rw [h]
  · next h => rw [Bool.eq_false_iff.mpr h]

/-- A discarded batch is issued again as a grain of its own. -/
theorem Chip.batchReissue_issues {c c1 : Chip} {k n : Nat} {r : DaleRun} (hrun : (c.dale k).run = some r)
    (hi : r.intruded ≠ 0) (hphase : r.phase = .prepare) (hstop : r.stop = none) (hframe : r.tagFrame = c.seenOf (.dale k))
    (hshed : c.bud.shed.contains (.dale k) = false) (hact : (c.dale k).active = true)
    (hn : n = r.intruded * (Desc.ofWords r.job.desc).vecSymbols) (hs : c.spend (.dale k) r.job.tent n = some c1)
    (hd : c1.dales = c.dales) : ((c.batchReissue k).dale k).run = some { r with
        phase := .batch, rows := r.intruded, intruded := 0, prefixed := 0 } ∧
      ((c.batchReissue k).dale k).symbols = (c.dale k).symbols + n ∧
      (c.batchReissue k).f Fld.daleState_state [k / 12, k % 12] = 4 := by
  have hdale : c1.dale k = c.dale k := Chip.dale_of_dales hd k
  obtain ⟨d, hd⟩ : ∃ d, d = (c1.setDale k { c1.dale k with symbols := (c1.dale k).symbols + n }).setF
    Fld.daleSymbols_units [k / 12, k % 12] (((c1.dale k).symbols + n) / 4096) := ⟨_, rfl⟩
  have hdd : d.dale k = { c.dale k with symbols := (c.dale k).symbols + n } := by
    rw [hd, Chip.dale_of_dales (Chip.setF_dales ..), Chip.dale_setDale_same, hdale]
  have heq : c.batchReissue k = (d.mapRun k fun r => { r with
      phase := .batch, rows := r.intruded, intruded := 0, prefixed := 0 }).setDaleState k 4 := by
    unfold Chip.batchReissue
    rw [hrun]
    dsimp only
    rw [if_neg (by simp [hi, hphase, hstop]), if_neg (not_not.mpr hframe), if_neg (by rw [hshed]; exact Bool.false_ne_true),
      if_neg (by simp [hact]), ← hn, hs, hd]
  rw [heq, Chip.setDaleState, Chip.dale_of_dales (Chip.setF_dales ..), Chip.mapRun_run (by rw [hdd]; exact hrun), Chip.mapRun,
    Chip.dale_setDale_same, hdd]
  exact ⟨rfl, rfl, Chip.f_setF_eq (by decide) (by decide) (by decide)⟩

theorem Chip.batchReissue_waits {c : Chip} {k : Nat} {r : DaleRun} (hrun : (c.dale k).run = some r)
    (hi : r.intruded ≠ 0) (hphase : r.phase = .prepare) (hstop : r.stop = none) (hframe : r.tagFrame ≠ c.seenOf (.dale k)) :
    c.batchReissue k = c.mapRun k fun r => { r with intruded := 0, stop := none } := by
  unfold Chip.batchReissue
  rw [hrun]
  dsimp only
  rw [if_neg (by simp [hi, hphase, hstop]), if_pos hframe]

/-- Settles O55: each event of a batch. -/
theorem batchesRun : Obligations.BatchesRun := by
  unfold Obligations.BatchesRun
  dsimp only [exec]
  refine ⟨?start, ?late, ?ends, ?complete, ?relock, ?intrude, ?reissue, ?again, ?loss⟩
  case start =>
    rintro v d now bad s k r ds t rows ks changed due pre c1 hok rfl hrun hds hready ht hreload hdl hrows h0 hks hchanged hdue
      hpre hshed hact hadm hskew htag
    exact onUnits_next hok (Chip.batchStart_issues hrun hds hready ht hreload hdl hrows h0 hks hchanged hdue hpre hshed hact
      hadm hskew htag)
  case late =>
    rintro v d now bad s k r ds t c1 hok rfl hrun hds hready ht hreload hdl hadm
    exact onUnits_next hok (Chip.batchStart_late hrun hds hready ht hreload hdl hadm)
  case ends =>
    rintro v d noise s k r ds t c1 c2 ks a ovr hok rfl hrun ht hphase hds hadm hks ha hovr hc2
    obtain ⟨rows, trackers, hrows, heq⟩ := Chip.batchEnd_accumulates hrun ht hphase hds hadm hks ha hovr hc2
    refine ⟨fun r' => r'.accumulated rows trackers ovr c2.gclk, fun r' => ⟨rfl, rfl, rfl, rfl, rfl, rfl, ?_⟩,
      onUnits_next hok heq⟩
    rw [← hrows]
    exact List.map_append
  case complete =>
    rintro v d s k r c1 hok rfl hrun hphase hst hadm
    exact onUnits_next hok (congrArg (Chip.settleDrain · 0 v) (Chip.jobComplete_finishes hrun hphase hst hadm))
  case relock =>
    intro v p tag s f hv hp hf hfv hfp htag hst
    refine ⟨_, onUnits_next (by simp [hv, hp]) (Chip.tagDecode_relocks hf hfv hfp htag hst), ?_, Chip.setF_mem ..⟩
    exact Chip.f_setF_eq (by decide) (by decide) (by decide)
  case intrude =>
    intro v p tag s f hv hp hf hne hfv
    exact onUnits_next (by simp [hv]; omega) (Chip.tagDecode_intrudes hp hf hne hfv)
  case reissue =>
    rintro v d s k r n c1 hok rfl hrun hi hphase hstop hframe hshed hact hn hs hd
    obtain ⟨hrun', hsym, hst⟩ := Chip.batchReissue_issues hrun hi hphase hstop hframe hshed hact hn hs hd
    obtain ⟨hv, hm⟩ := daleOk_number hok
    rw [hv, hm] at hst
    exact ⟨_, units_run hok, hrun', hsym, hst⟩
  case again =>
    rintro v d s k r hok rfl hrun hi hphase hstop hframe
    exact onUnits_next hok (Chip.batchReissue_waits hrun hi hphase hstop hframe)
  case loss =>
    intro v b s hv hb hw
    exact onUnits_next (by simp [hv, hb]) (if_pos hw)

end Sys2Proof.Machine
end

section
/-!
Trim images, calibration by command and the first full pass (R281 to R296, file 09 of spec/): the statement O42.
-/

namespace Sys2Proof.Machine

/-! ### What an import keeps (R288, R296)

An import moves loops, banks and the runs of Dales where lock-good changes. None of it writes DALE_COLMAP, and of GUY_LOOP it
writes the words of the trims only. -/

/-- The registers that an import leaves: DALE_COLMAP, and GUY_LOOP outside the words of the trims. -/
def ImportKept (r : Reg) : Prop := r.name = .daleColmap ∨ r.name = .guyLoop ∧ r.w ≠ 2 ∧ r.w ≠ 4

/-- A register's word that an import leaves. -/
def Chip.kept (c : Chip) (q : { r : Reg // ImportKept r }) : Word := c.get q.1

section
variable {q : { r : Reg // ImportKept r }}

theorem Chip.kept_congr {c d : Chip} (hr : d.regs = c.regs) (hl : d.loaded = c.loaded) : d.kept q = c.kept q :=
  Chip.get_congr hr hl _

theorem Chip.put_kept {c : Chip} {r : Reg} {x : Word} (h : ¬ ImportKept r) : (c.put r x).kept q = c.kept q :=
  Chip.get_put_other _ _ _ _ fun e => h (e ▸ q.2)

theorem not_importKept_of_name {r : Reg} (h : r.name ≠ .daleColmap ∧ r.name ≠ .guyLoop) : ¬ ImportKept r :=
  fun h' => h'.elim h.1 fun h'' => h.2 h''.1

theorem not_importKept_of_word {r : Reg} (hn : r.name = .guyLoop) (hw : r.w = 2 ∨ r.w = 4) : ¬ ImportKept r :=
  fun h => h.elim (fun h' => RegName.noConfusion (hn.symm.trans h')) fun h' => hw.elim h'.2.1 h'.2.2

theorem Chip.setF_kept {c : Chip} {fl : Fld} {idx : List Nat} {n : Nat} (h : fl.name ≠ .daleColmap ∧ fl.name ≠ .guyLoop) :
    (c.setF fl idx n).kept q = c.kept q := Chip.put_kept (not_importKept_of_name h)

theorem Chip.ev_kept {c : Chip} {n : RegName} {idx : List Nat} (h : n ≠ .daleColmap ∧ n ≠ .guyLoop) :
    (c.ev n idx).kept q = c.kept q :=
  c.get_event_other _ _ (fun e => not_importKept_of_name (r := ⟨n, idx, 0⟩) h (e ▸ q.2))
    (q.2.elim (fun h' => h' ▸ RegName.noConfusion) fun h' => h'.1 ▸ RegName.noConfusion)

@[simp] theorem Chip.setLoop_kept (c : Chip) (v n : Nat) (x : Loop) : (c.setLoop v n x).kept q = c.kept q :=
  Chip.kept_congr (d := c.setLoop v n x) rfl rfl

@[simp] theorem Chip.setBank_kept (c : Chip) (v b : Nat) (x : Bank) : (c.setBank v b x).kept q = c.kept q :=
  Chip.kept_congr (d := c.setBank v b x) rfl rfl

@[simp] theorem Chip.setDale_kept (c : Chip) (k : Nat) (x : Dale) : (c.setDale k x).kept q = c.kept q :=
  Chip.kept_congr (d := c.setDale k x) rfl rfl

@[simp] theorem Chip.setGen_kept (c : Chip) (i : GenId) (g : Gen) : (c.setGen i g).kept q = c.kept q :=
  Chip.kept_congr (d := c.setGen i g) rfl rfl

@[simp] theorem Chip.setChan_kept (c : Chip) (v n : Nat) (x : Chan) : (c.setChan v n x).kept q = c.kept q := by
  obtain ⟨us, h, -⟩ := c.setChan_eq v n x
  exact Chip.kept_congr (by rw [h]) (by rw [h])

/-- A fold of steps that leave such a word leaves it. -/
theorem Chip.foldl_kept {α : Type} {f : Chip → α → Chip} {l : List α} {c : Chip}
    (h : ∀ c x, x ∈ l → (f c x).kept q = c.kept q) : (l.foldl f c).kept q = c.kept q :=
  Chip.foldl_keeps (fun c => c.kept q) l c h

@[simp] theorem Chip.unwaitJob_kept (c : Chip) (g : Gate) (t : Nat) : (c.unwaitJob g t).kept q = c.kept q :=
  Chip.kept_congr (d := c.unwaitJob g t) rfl rfl

/-! #### The drive -/

@[simp] theorem Chip.ringCode_kept (c : Chip) (v p ratio : Nat) (p2 : Option Nat) :
    (c.ringCode v p ratio p2).2.kept q = c.kept q := Chip.setGen_kept ..

@[simp] theorem Chip.driveDac_kept (c : Chip) (v out code : Nat) : (c.driveDac v out code).kept q = c.kept q := by
  unfold Chip.driveDac Chip.driveCode Chip.release
  dsimp only
  rw [Chip.setChan_kept, Chip.setF_kept (by decide)]
  split
  · rfl
  · exact Chip.setF_kept (by decide)

@[simp] theorem Chip.driveBoth_kept (c : Chip) (v n : Nat) (e : LoopE) (p : Nat) (p2 : Option Nat) :
    (c.driveBoth v n e p p2).kept q = c.kept q := by
  have hdrive : ∀ (d : Chip) code, (((d.driveDac v e.out code).setF Fld.guyLstate_p [v, n] p).setF
      Fld.guyLstate_code [v, n] code).kept q = d.kept q := fun d code => by
    rw [Chip.setF_kept (by decide), Chip.setF_kept (by decide), Chip.driveDac_kept]
  unfold Chip.driveBoth Chip.driveCodes
  dsimp only
  split
  · rw [Chip.driveDac_kept, Chip.ringCode_kept, hdrive, Chip.setGen_kept]
  · rw [hdrive, Chip.setGen_kept]

@[simp] theorem Chip.driveLine_kept (c : Chip) (v b : Nat) : (c.driveLine v b).kept q = c.kept q :=
  Chip.driveBoth_kept ..

/-! #### Banks and Dales at a change of lock-good -/

@[simp] theorem Chip.startTagging_kept (c : Chip) (v b : Nat) : (c.startTagging v b).kept q = c.kept q := by
  rw [Chip.startTagging, Chip.setF_kept (by decide), Chip.setF_kept (by decide)]

@[simp] theorem Chip.goDark_kept (c : Chip) (v b : Nat) : (c.goDark v b).kept q = c.kept q := by
  unfold Chip.goDark
  dsimp only
  split
  · rw [Chip.setBank_kept, Chip.setF_kept (by decide), Chip.setF_kept (by decide)]
  · rw [Chip.setBank_kept, Chip.setF_kept (by decide)]

@[simp] theorem Chip.bankEdge_kept (c : Chip) (v b : Nat) (rose : Bool) :
    (c.bankEdge v b rose).kept q = c.kept q := by
  unfold Chip.bankEdge
  split
  · extract_lets line q
    split
    · simp
    · split
      · exact Chip.setF_kept (by decide)
      · rw [Chip.startTagging_kept, Chip.setF_kept (by decide)]
  · extract_lets d e
    have he : e.kept q = c.kept q := by
      unfold e d
      split
      · rw [Chip.setF_kept (by decide), Chip.goDark_kept]
      · exact c.goDark_kept v b
    split
    · exact he
    · rw [Chip.setF_kept (by decide), he]

@[simp] theorem Chip.mapRun_kept (c : Chip) (k : Nat) (f : DaleRun → DaleRun) : (c.mapRun k f).kept q = c.kept q :=
  Chip.setDale_kept ..

@[simp] theorem Chip.stopRun_kept (c : Chip) (k row status : Nat) : (c.stopRun k row status).kept q = c.kept q := by
  unfold Chip.stopRun
  split
  · rfl
  · dsimp only
    rw [Chip.setIdle, Chip.setDaleState, Chip.setF_kept (by decide), Chip.unwaitJob_kept, Chip.mapRun_kept]

@[simp] theorem Chip.daleFall_kept (c : Chip) (k div : Nat) : (c.daleFall k div).kept q = c.kept q := by
  unfold Chip.daleFall
  split
  · rfl
  · split
    · rfl
    · dsimp only
      rw [Chip.ev_kept (by decide), Chip.stopRun_kept, Chip.mapRun_kept]

/-- The lock-good words of a Vale, written. -/
theorem Chip.goodWords_kept (c : Chip) (v b d l col cal : Nat) : (((((c.setF Fld.guyGood_bankGood [v] b).setF
    Fld.guyGood_colGood [v] col).setF Fld.guyGood_daleGood [v] d).setF Fld.guyLoGood_loGood [v] l).setF
      Fld.guyLoGood_calLoGood [v] cal).kept q = c.kept q := by
  rw [Chip.setF_kept (by decide), Chip.setF_kept (by decide), Chip.setF_kept (by decide), Chip.setF_kept (by decide),
    Chip.setF_kept (by decide)]

@[simp] theorem Chip.syncGood_kept (c : Chip) (v div : Nat) : (c.syncGood v div).kept q = c.kept q := by
  unfold Chip.syncGood
  extract_lets oldBank oldDale banks lo col dales c1 c2 c3 c4 c5 c6
  have h5 : c5.kept q = c.kept q := Chip.goodWords_kept ..
  have h6 : c6.kept q = c5.kept q := Chip.foldl_kept fun c b _ => by
    dsimp only
    split
    · exact Chip.setF_kept (by decide)
    · rw [Chip.bankEdge_kept, Chip.setF_kept (by decide)]
  refine (Chip.foldl_kept fun c d _ => ?_).trans (h6.trans h5)
  dsimp only
  split
  · rw [Chip.daleFall_kept, Chip.setF_kept (by decide)]
  · exact Chip.setF_kept (by decide)

/-! #### A loop that takes a line -/

@[simp] theorem Chip.capTrigger_kept (c : Chip) (v n : Nat) : (c.capTrigger v n).kept q = c.kept q := by
  have htrig : ∀ l, ({ c.setF Fld.guyCapState_triggered [v] 1 with capLeft := l } : Chip).kept q = c.kept q :=
    fun l => (Chip.kept_congr (c := c.setF Fld.guyCapState_triggered [v] 1) rfl rfl).trans (Chip.setF_kept (by decide))
  unfold Chip.capTrigger
  dsimp only
  split
  · split
    · rw [Chip.setF_kept (by decide), htrig]
    · exact htrig _
  · rfl

@[simp] theorem Chip.loopFall_kept (c : Chip) (v n cause : Nat) : (c.loopFall v n cause).kept q = c.kept q := by
  unfold Chip.loopFall
  extract_lets lp c1 e c2 c3 c4 c5 c6
  have h3 : c3.kept q = c.kept q := by
    unfold c3 c2 c1
    rw [Chip.capTrigger_kept, Chip.count, Chip.setF_kept (by decide), Chip.setF_kept (by decide), Chip.setLoop_kept]
  split
  · rw [Chip.syncGood_kept]
    unfold c6 c5 c4
    split
    · rw [Chip.setF_kept (by decide), Chip.setF_kept (by decide), Chip.ev_kept (by decide), h3]
    · exact h3
  · exact Chip.setLoop_kept ..

@[simp] theorem Chip.unparkRings_kept (c : Chip) (v b : Nat) : (c.unparkRings v b).kept q = c.kept q :=
  Chip.foldl_kept fun c l _ => by
    dsimp only
    split
    · rfl
    · split
      · rw [Chip.setF_kept (by decide), Chip.setLoop_kept]
      · exact Chip.setLoop_kept ..

@[simp] theorem Chip.loopTo_kept (c : Chip) (v n st cause : Nat) : (c.loopTo v n st cause).kept q = c.kept q := by
  unfold Chip.loopTo
  extract_lets c1 c2
  have h2 : c2.kept q = c.kept q := by
    unfold c2 c1
    rw [Chip.setF_kept (by decide)]
    split
    · split
      · exact Chip.unparkRings_kept ..
      · rfl
    · rfl
  split
  · rw [Chip.loopFall_kept, h2]
  · exact h2

@[simp] theorem Chip.applyRatio_kept (c : Chip) (v b : Nat) : (c.applyRatio v b).kept q = c.kept q := by
  unfold Chip.applyRatio
  split
  · rfl
  · dsimp only
    rw [Chip.setLoop_kept, Chip.put_kept (not_importKept_of_word rfl (.inl rfl)), Chip.setBank_kept]

@[simp] theorem Chip.lineStep_kept (c : Chip) (v b L : Nat) : (c.lineStep v b L).kept q = c.kept q := by
  unfold Chip.lineStep
  extract_lets n c1 ref c2 lp c3 c4
  have h1 : c1.kept q = c.kept q := by
    unfold c1
    rw [Chip.setF_kept (by decide), Chip.applyRatio_kept]
  split
  · exact h1
  · have h3 : c3.kept q = c.kept q := by
      unfold c3 c2
      rw [Chip.setLoop_kept, Chip.loopTo_kept, h1]
    have h4 : c4.kept q = c3.kept q := Chip.foldl_kept fun c l _ => by
      split
      · rw [Chip.setLoop_kept, Chip.setF_kept (by decide)]
      · rfl
    rw [Chip.driveLine_kept, h4, h3]

theorem Chip.importLines_kept (c : Chip) (v : Nat) : (c.importLines v).kept q = c.kept q :=
  Chip.foldl_kept fun c b _ => by
    dsimp only
    split
    · rw [Chip.lineStep_kept, Chip.setLoop_kept]
    · rfl

/-! #### Sections of a trim image -/

theorem name_of_mem_range {k : Nat} {f : Nat → Reg × Nat} {p : Reg × Nat} (h : p ∈ (List.range k).map f)
    (hf : ∀ n, (f n).1.name ≠ .daleColmap ∧ (f n).1.name ≠ .guyLoop) :
    p.1.name ≠ .daleColmap ∧ p.1.name ≠ .guyLoop := by
  obtain ⟨n, -, rfl⟩ := List.mem_map.mp h
  exact hf n

/-- The registers of a section's trims, those that an import leaves not among them. -/
theorem trimRegs_name {ty inst : Nat} {p : Reg × Nat} (h : p ∈ trimRegs ty inst) :
    p.1.name ≠ .daleColmap ∧ p.1.name ≠ .guyLoop := by
  unfold trimRegs at h
  dsimp only at h
  split at h
  case h_8 => exact absurd h List.not_mem_nil
  all_goals exact name_of_mem_range h fun _ => ⟨RegName.noConfusion, RegName.noConfusion⟩

/-- The words of a loop's trims. -/
theorem trimLoops_word {p : Nat × Fld} (h : p ∈ trimLoops) : p.2.name = .guyLoop ∧ (p.2.w = 2 ∨ p.2.w = 4) := by
  unfold trimLoops at h
  simp only [List.mem_append, List.mem_map] at h
  obtain (⟨b, -, rfl⟩ | ⟨d, -, rfl⟩) | ⟨n, -, rfl⟩ := h
  · exact ⟨rfl, .inl rfl⟩
  · exact ⟨rfl, .inr rfl⟩
  · exact ⟨rfl, .inl rfl⟩

theorem Chip.applySec_kept (c : Chip) (s : TrimSec) : (c.applySec s).kept q = c.kept q := by
  unfold Chip.applySec
  split
  · refine Chip.foldl_kept fun c p hp => ?_
    obtain ⟨hn, hw⟩ := trimLoops_word (List.of_mem_zip hp).1
    rw [Chip.setLoop_kept, Chip.setF, Chip.put_kept (not_importKept_of_word hn hw)]
  · exact Chip.foldl_kept fun c n _ => Chip.kept_congr rfl rfl
  · exact Chip.foldl_kept fun c n _ => Chip.kept_congr rfl rfl
  · extract_lets inst rs d
    have hd : d.kept q = c.kept q :=
      Chip.foldl_kept fun c p hp => Chip.put_kept (not_importKept_of_name (trimRegs_name (List.of_mem_zip hp).1))
    split
    · rw [Chip.importLines_kept, hd]
    · exact hd

theorem Chip.mapImported_kept (c : Chip) (k : Nat) : (c.mapImported k).kept q = c.kept q :=
  Chip.setDale_kept ..

theorem Chip.applySecs_kept (c : Chip) (ss : List TrimSec) : (c.applySecs ss).kept q = c.kept q := by
  rw [Chip.applySecs, Chip.foldl_kept fun c s _ => c.mapImported_kept _, Chip.foldl_kept fun c s _ => c.applySec_kept s]

theorem Chip.secRefused_kept (c : Chip) (s : TrimSec) : (c.secRefused s).kept q = c.kept q := by
  unfold Chip.secRefused
  split
  · rfl
  · rfl
  all_goals exact Chip.ev_kept (by decide)

end

/-! ### The image by command (R296, R514) -/

theorem Chip.loopWords_getD {c : Chip} {v n w : Nat} (h : w < 8) :
    (c.loopWords v n).getD w 0 = c.get ⟨.guyLoop, [v, n], w⟩ := by
  have hlen : RegName.guyLoop.desc.words = 8 := rfl
  simp [Chip.loopWords, Chip.wordsOf, hlen, h]

/-- A section fits by the sections's own values and by the words of GUY_LOOP that an import leaves. -/
theorem Chip.secFits_congr {c d : Chip} (h : ∀ q, d.kept q = c.kept q) (s : TrimSec) : d.secFits s = c.secFits s := by
  have hword : ∀ v n w, w < 8 → w ≠ 2 ∧ w ≠ 4 → (d.loopWords v n).getD w 0 = (c.loopWords v n).getD w 0 := fun v n w hw hk => by
    rw [Chip.loopWords_getD hw, Chip.loopWords_getD hw]
    exact h ⟨⟨.guyLoop, [v, n], w⟩, .inr ⟨rfl, hk⟩⟩
  have hkind : ∀ v n, (d.loopWritten v n).kind = (c.loopWritten v n).kind := fun v n => by
    simp only [Chip.loopWritten, LoopE.ofWords, hword v n 0 (by decide) (by decide)]
  have hmin : ∀ v n, (d.loopWritten v n).pMin = (c.loopWritten v n).pMin := fun v n => by
    simp only [Chip.loopWritten, LoopE.ofWords, hword v n 3 (by decide) (by decide)]
  have hmax : ∀ v n, (d.loopWritten v n).pMax = (c.loopWritten v n).pMax := fun v n => by
    simp only [Chip.loopWritten, LoopE.ofWords, hword v n 3 (by decide) (by decide)]
  unfold Chip.secFits
  dsimp only
  simp only [hkind, hmin, hmax]

theorem Chip.accept_kept (c : Chip) (op : Nat) (m : Cmd) (q : { r : Reg // ImportKept r }) :
    (c.accept op m).kept q = c.kept q := Chip.accept_get ..

theorem Chip.mpCalExport_taken {c : Chip} {m : Cmd} (hs : m.stray (2 ^ 48 - 1) = false) (hlen : trimLength ≤ m.word 1)
    (hadm : c.admits m.tent .w m.p trimLength = true) :
    c.mpCalExport m = (c.store m.p c.trimImage).acceptFinish 0x0501 m Status.ok trimLength := by
  rw [Chip.mpCalExport, if_neg (not_or.mpr ⟨by rw [hs]; exact Bool.false_ne_true, Nat.not_lt.mpr hlen⟩), if_neg (by simp [hadm])]

section
variable {c : Chip} {m : Cmd} {bad : List Nat} (hs : m.stray (2 ^ 48 - 1) = false) (hlen : m.word 1 < 2 ^ 48)
  (hadm : c.admits m.tent .r m.p (m.word 1) = true)
include hs hlen hadm

theorem Chip.mpCalImport_unparsed (hp : parseTrims (c.bytes m.p (m.word 1)) = none) :
    c.mpCalImport m bad = c.finish 0x0502 m Status.badParam := by
  unfold Chip.mpCalImport
  dsimp only
  rw [if_neg (not_or.mpr ⟨by rw [hs]; exact Bool.false_ne_true, Nat.not_le.mpr hlen⟩), if_neg (by simp [hadm]), hp]

theorem Chip.mpCalImport_foreign {serial : Nat} {secs : List TrimSec}
    (hp : parseTrims (c.bytes m.p (m.word 1)) = some (serial, secs)) (hne : serial ≠ Config.serial.toNat) :
    c.mpCalImport m bad = c.finish 0x0502 m Status.notPermitted := by
  unfold Chip.mpCalImport
  dsimp only
  rw [if_neg (not_or.mpr ⟨by rw [hs]; exact Bool.false_ne_true, Nat.not_le.mpr hlen⟩), if_neg (by simp [hadm]), hp]
  exact if_pos (.inl hne)

/-- An image of this device whose sections all fit is applied. -/
theorem Chip.mpCalImport_applied {c1 : Chip} {serial : Nat} {secs : List TrimSec}
    (hp : parseTrims (c.bytes m.p (m.word 1)) = some (serial, secs)) (hser : serial = Config.serial.toNat)
    (hdr : c.device = .starting ∨ secs.all c.secDrained = true) (hfit : ∀ x ∈ secs, c.secFits x = true) (hbad : bad = [])
    (hc1 : c1 = (c.accept 0x0502 m).applySecs secs) (hdev : c1.device = c.device) : c.mpCalImport m bad =
      (if c.device = .starting then ({ c1 with boot := { c1.boot with imported := true } } : Chip) else c1).finish 0x0502 m
        Status.ok := by
  have hgood : secs.filter (c.accept 0x0502 m).secFits = secs :=
    List.filter_eq_self.mpr fun x hx => (Chip.secFits_congr (c.accept_kept 0x0502 m) x).trans (hfit x hx)
  have hnone : secs.filter (fun x => !c1.secFits x) = [] := by
    refine List.filter_eq_nil_iff.mpr fun x hx => ?_
    rw [Chip.secFits_congr (c := c) (fun q => by rw [hc1, Chip.applySecs_kept, Chip.accept_kept]) x, hfit x hx]
    exact Bool.false_ne_true
  unfold Chip.mpCalImport
  dsimp only
  rw [if_neg (not_or.mpr ⟨by rw [hs]; exact Bool.false_ne_true, Nat.not_le.mpr hlen⟩), if_neg (by simp [hadm]), hp]
  dsimp only
  rw [if_neg (not_or.mpr ⟨not_not.mpr hser, not_not.mpr hdr⟩), hgood, ← hc1, hnone, hbad, beq_self_eq_true]
  simp only [List.foldl_nil, List.isEmpty_nil, not_true, if_false, if_true, hdev]
  by_cases h : c.device = .starting <;> simp [h]
end

/-! ### Calibrations by command (R291 to R295) -/

section
variable {c : Chip} {m : Cmd} {xs : List Int} (hs : m.stray 0xF0FFF = false) (hd : bitsOf m.p 11 8 ≤ 11)
  (hv : bitsOf m.p 19 16 ≤ 11)
include hs hd hv

/-- A calibration of units that exist. -/
theorem Chip.mpCalRun_runs (hk : bitsOf m.p 7 0 ≤ 2) : c.mpCalRun m xs =
    (let r := if bitsOf m.p 7 0 = 0 then (c.accept 0x0503 m).calKernels (bitsOf m.p 19 16) (bitsOf m.p 11 8) xs
      else if bitsOf m.p 7 0 = 1 then (c.accept 0x0503 m).calSpares (bitsOf m.p 19 16) xs else (c.accept 0x0503 m).calHk xs
     r.2.finish 0x0503 m r.1) := by
  unfold Chip.mpCalRun
  dsimp only
  rw [if_neg]
  rw [hs, not_or, not_or, not_or]
  exact ⟨Bool.false_ne_true, Nat.not_lt.mpr hk, Nat.not_lt.mpr hv, Nat.not_lt.mpr hd⟩
end

/-! ### The first full pass (R287 to R290, R293) -/

theorem bitsFrom_lt (l : List Bool) : bitsFrom l < 2 ^ l.length := by
  induction l using List.reverseRecOn with
  | nil => exact Nat.one_pos
  | append_singleton l b ih =>
    have hsplit : bitsFrom (l ++ [b]) = bitsFrom l + b.toNat * 2 ^ l.length := by simp [bitsFrom, List.mapIdx_append]
    have hb : b.toNat * 2 ^ l.length ≤ 1 * 2 ^ l.length := Nat.mul_le_mul_right _ (Bool.toNat_le b)
    rw [hsplit, List.length_append, List.length_singleton, Nat.pow_succ]
    omega

/-- The mark of a column after the pass. -/
def passMark (steps : List PassDale) (k x : Nat) : Nat :=
  if (steps.getD k {}).cols.any fun y => y.col == x then Status.calDisagree else Status.ok

/-- The pass of one column. -/
def Chip.passColumn (steps : List PassDale) (k : Nat) (c : Chip) (x : Nat) : Chip :=
  let r : Reg := { name := .calColstat, idx := [k / 12, k % 12, x] }
  match (steps.getD k {}).cols.find? fun y => y.col == x with
  | none => c.put r (BitVec.ofNat 64 Status.ok)
  | some y => (List.range y.run).foldl (fun c _ => c.ev .calEvDisagree [k / 12])
      (c.put r (BitVec.ofNat 64 (min y.run 255 * 2 ^ 24 + min y.cells 66 * 2 ^ 16 + Status.calDisagree)))

theorem Chip.passColumns_eq (steps : List PassDale) (c : Chip) (k : Nat) : Chip.passColumns steps c k =
    ((List.range 66).filter fun x => x != c.parkCol k).foldl (Chip.passColumn steps k) c := rfl

/-- The result of a column stands in the eight low bits of its word. -/
theorem bitsOf_disagree (a b : Nat) :
    bitsOf (BitVec.ofNat 64 (a * 2 ^ 24 + b * 2 ^ 16 + Status.calDisagree)).toNat 7 0 = Status.calDisagree := by
  simp only [bitsOf, BitVec.toNat_ofNat, Status.calDisagree]
  omega

/-- Disagreements noted leave every other word. -/
theorem Chip.disagree_get {c : Chip} {v n : Nat} {m : RegName} {ix : List Nat} {w : Nat} (h : RegName.calEvDisagree ≠ m)
    (hq : RegName.sysMsgq ≠ m) :
    ((List.range n).foldl (fun (c : Chip) _ => c.ev .calEvDisagree [v]) c).get ⟨m, ix, w⟩ = c.get ⟨m, ix, w⟩ :=
  Chip.foldl_keeps (Chip.get · ⟨m, ix, w⟩) _ _ fun _ _ _ => Chip.get_ev_of_name_ne h hq

theorem Chip.passColumn_marks (steps : List PassDale) (k : Nat) (c : Chip) (x : Nat) :
    (c.passColumn steps k x).f Fld.calColstat_result [k / 12, k % 12, x] = passMark steps k x := by
  unfold Chip.passColumn passMark
  dsimp only
  cases h : (steps.getD k {}).cols.find? fun y => y.col == x with
  | none =>
    rw [if_neg (by simpa using h)]
    exact (congrArg (fun w : Word => bitsOf w.toNat 7 0) (Chip.get_put_same ..)).trans rfl
  | some y =>
    rw [if_pos (List.any_eq_true.mpr ⟨y, List.mem_of_find?_eq_some h, List.find?_some h⟩)]
    dsimp only
    rw [Chip.f_of_get (Chip.disagree_get (by decide) (by decide))]
    exact (congrArg (fun w : Word => bitsOf w.toNat 7 0) (Chip.get_put_same ..)).trans (bitsOf_disagree ..)

theorem Chip.passColumn_get {steps : List PassDale} {k : Nat} {c : Chip} {x : Nat} {m : RegName} {ix : List Nat} {w : Nat}
    (hne : (⟨m, ix, w⟩ : Reg) ≠ ⟨.calColstat, [k / 12, k % 12, x], 0⟩) (h : RegName.calEvDisagree ≠ m)
    (hq : RegName.sysMsgq ≠ m) : (c.passColumn steps k x).get ⟨m, ix, w⟩ = c.get ⟨m, ix, w⟩ := by
  unfold Chip.passColumn
  dsimp only
  split
  · exact Chip.get_put_other _ _ _ _ hne
  · rw [Chip.disagree_get h hq]
    exact Chip.get_put_other _ _ _ _ hne

theorem Chip.passColumns_get {steps : List PassDale} {k : Nat} {c : Chip} {m : RegName} {ix : List Nat} {w : Nat}
    (hne : ∀ x, (⟨m, ix, w⟩ : Reg) ≠ ⟨.calColstat, [k / 12, k % 12, x], 0⟩) (h : RegName.calEvDisagree ≠ m)
    (hq : RegName.sysMsgq ≠ m) : (Chip.passColumns steps c k).get ⟨m, ix, w⟩ = c.get ⟨m, ix, w⟩ :=
  Chip.foldl_keeps (f := Chip.passColumn steps k) (Chip.get · ⟨m, ix, w⟩) _ _ fun _ x _ => Chip.passColumn_get (hne x) h hq

/-- Every column of a Dale, the parked one aside, shows its last cycle. -/
def PassShown (steps : List PassDale) (c : Chip) (k : Nat) : Prop :=
  ∀ x, x < 66 → x ≠ c.parkCol k → c.f Fld.calColstat_result [k / 12, k % 12, x] = passMark steps k x

theorem Chip.parkCol_congr {c d : Chip} (h : ∀ ix, d.get ⟨.daleColmap, ix, 0⟩ = c.get ⟨.daleColmap, ix, 0⟩) (k : Nat) :
    d.parkCol k = c.parkCol k := Chip.f_of_get (h _)

theorem Chip.passColumns_parkCol (steps : List PassDale) (c : Chip) (k j : Nat) :
    (Chip.passColumns steps c k).parkCol j = c.parkCol j :=
  Chip.parkCol_congr (fun _ => Chip.passColumns_get (fun _ e => RegName.noConfusion (congrArg Reg.name e)) (by decide) (by decide)) j

theorem passColumns_shown (steps : List PassDale) (c : Chip) (k : Nat) : PassShown steps (Chip.passColumns steps c k) k := by
  intro x hx hpark
  rw [Chip.passColumns_parkCol] at hpark
  refine Chip.foldl_establishes (f := Chip.passColumn steps k)
    (fun c x => c.f Fld.calColstat_result [k / 12, k % 12, x] = passMark steps k x) (Chip.passColumn_marks steps k)
    (fun c y x h => ?_) _ c x (List.mem_filter.mpr ⟨List.mem_range.mpr hx, by simpa using hpark⟩)
  by_cases hxy : x = y
  · rw [hxy]
    exact Chip.passColumn_marks ..
  · exact (Chip.f_of_get (Chip.passColumn_get (fun e => hxy (by simpa using congrArg Reg.idx e)) (by decide) (by decide))).trans h

theorem passColumns_keeps {steps : List PassDale} {c : Chip} {j k : Nat} (h : PassShown steps c k) :
    PassShown steps (Chip.passColumns steps c j) k := by
  by_cases hjk : j = k
  · rw [hjk]
    exact passColumns_shown steps c k
  · intro x hx hpark
    rw [Chip.passColumns_parkCol] at hpark
    refine (Chip.f_of_get (Chip.passColumns_get (fun y e => hjk ?_) (by decide) (by decide))).trans (h x hx hpark)
    simp at e
    omega

/-! #### The pass as a whole -/

/-- The failed Dales of a Vale. -/
def failedDales (failed : List Nat) (v : Nat) : Nat := bitsFrom ((List.range 12).map fun d => failed.contains (12 * v + d))

theorem Chip.passFailed_shows {c : Chip} {ran : Nat → Bool} {failed : List Nat} (hran : ∀ k, ran k = true) {v : Nat}
    (hv : v < 12) : (c.passFailed ran failed).f Fld.calState_failed [v] = failedDales failed v := by
  have hset : ∀ (c : Chip) (v : Nat), (c.setF Fld.calState_failed [v] (bitsFrom ((List.range 12).map fun d =>
      if ran (12 * v + d) then failed.contains (12 * v + d) else bitOf (c.f Fld.calState_failed [v]) d))).f
        Fld.calState_failed [v] = failedDales failed v := fun c v => by
    simp only [hran, if_true]
    exact Chip.f_setF_eq (by decide) (by decide) ((bitsFrom_lt _).trans_eq (by simp [Fld.calState_failed]))
  refine Chip.foldl_establishes (f := fun (c : Chip) v => c.setF Fld.calState_failed [v] (bitsFrom ((List.range 12).map fun d =>
      if ran (12 * v + d) then failed.contains (12 * v + d) else bitOf (c.f Fld.calState_failed [v]) d)))
    (fun c v => c.f Fld.calState_failed [v] = failedDales failed v) hset (fun c x y h => ?_) _ c v (List.mem_range.mpr hv)
  by_cases hxy : y = x
  · rw [hxy]
    exact hset c x
  · exact (Chip.f_setF_of_idx_ne _ (by simpa using hxy)).trans h

theorem Chip.passFailed_get {c : Chip} {ran : Nat → Bool} {failed : List Nat} {m : RegName} {ix : List Nat} {w : Nat}
    (h : RegName.calState ≠ m) : (c.passFailed ran failed).get ⟨m, ix, w⟩ = c.get ⟨m, ix, w⟩ :=
  Chip.foldl_keeps (Chip.get · ⟨m, ix, w⟩) _ _ fun _ _ _ => Chip.get_setF_of_name_ne _ _ h

/-- The counts and times of what the pass has calibrated. -/
def Chip.passTimed (c : Chip) (ss : List TrimSec) (steps : List PassDale) (ran : Nat → Bool) : Chip :=
  let c := (steps.zipIdx.filter fun p => p.1.good != 0 && decide (p.2 < 144) && ran p.2).foldl (fun (c : Chip) p =>
    (c.count Fld.calDaleCount_count [p.2 / 12, p.2 % 12] p.1.good).put
      { name := .calDaleTime, idx := [p.2 / 12, p.2 % 12] } c.stamp) c
  let c := (ss.filter fun s => s.1 == 6).foldl (fun (c : Chip) s => (List.range 72).foldl (fun (c : Chip) p =>
    (c.count Fld.calAdcCount_count [s.2.1, p]).put { name := .calAdcTime, idx := [s.2.1, p] } c.stamp) c) c
  if ss.any fun s => s.1 == 10 then { c with hkStamp := c.stamp } else c

theorem Chip.passTimed_get {c : Chip} {ss : List TrimSec} {steps : List PassDale} {ran : Nat → Bool} {m : RegName}
    {ix : List Nat} {w : Nat} (hdc : RegName.calDaleCount ≠ m) (hdt : RegName.calDaleTime ≠ m)
    (hac : RegName.calAdcCount ≠ m) (hat : RegName.calAdcTime ≠ m) :
    (c.passTimed ss steps ran).get ⟨m, ix, w⟩ = c.get ⟨m, ix, w⟩ := by
  unfold Chip.passTimed
  extract_lets d e
  have hd : d.get ⟨m, ix, w⟩ = c.get ⟨m, ix, w⟩ := Chip.foldl_keeps (Chip.get · ⟨m, ix, w⟩) _ _ fun _ _ _ => by
    rw [Chip.get_put_of_name_ne _ hdt, Chip.count, Chip.get_setF_of_name_ne _ _ hdc]
  have he : e.get ⟨m, ix, w⟩ = d.get ⟨m, ix, w⟩ := Chip.foldl_keeps (Chip.get · ⟨m, ix, w⟩) _ _ fun _ _ _ =>
    Chip.foldl_keeps (Chip.get · ⟨m, ix, w⟩) _ _ fun _ _ _ => by
      rw [Chip.get_put_of_name_ne _ hat, Chip.count, Chip.get_setF_of_name_ne _ _ hac]
  split
  · exact (Chip.get_congr rfl rfl _).trans (he.trans hd)
  · exact he.trans hd

/-- The Dales of the sections that were measured. -/
def sectionDales (ss : List TrimSec) : List Nat := (List.range 144).filter fun k => ss.any fun s => secDale s == some k

theorem passColumns_all {ss : List TrimSec} {steps : List PassDale} {c : Chip} {k : Nat} (hk : k ∈ sectionDales ss) :
    PassShown steps ((sectionDales ss).foldl (Chip.passColumns steps) c) k :=
  Chip.foldl_establishes (f := Chip.passColumns steps) (PassShown steps) (passColumns_shown steps)
    (fun _ _ _ h => passColumns_keeps h) _ c k hk

theorem passColumns_all_get {ss : List TrimSec} {steps : List PassDale} {c : Chip} {m : RegName} {ix : List Nat} {w : Nat}
    (hne : RegName.calColstat ≠ m) (h : RegName.calEvDisagree ≠ m) (hq : RegName.sysMsgq ≠ m) :
    ((sectionDales ss).foldl (Chip.passColumns steps) c).get ⟨m, ix, w⟩ = c.get ⟨m, ix, w⟩ :=
  Chip.foldl_keeps (f := Chip.passColumns steps) (Chip.get · ⟨m, ix, w⟩) _ _ fun _ _ _ =>
    Chip.passColumns_get (fun _ e => hne (congrArg Reg.name e).symm) h hq

/-- The chip after the pass. -/
def Chip.passDone (d : Chip) (ss : List TrimSec) (steps : List PassDale) (ran : Nat → Bool) (failed : List Nat) : Chip :=
  ((sectionDales ss).foldl (Chip.passColumns steps) (d.passFailed ran failed)).passTimed ss steps ran

theorem Chip.passDone_failed {d : Chip} {ss : List TrimSec} {steps : List PassDale} {ran : Nat → Bool} {failed : List Nat}
    (hran : ∀ k, ran k = true) {v : Nat} (hv : v < 12) :
    (d.passDone ss steps ran failed).f Fld.calState_failed [v] = failedDales failed v := by
  rw [Chip.passDone, Chip.f_of_get (Chip.passTimed_get (by decide) (by decide) (by decide) (by decide)),
    Chip.f_of_get (passColumns_all_get (by decide) (by decide) (by decide)), Chip.passFailed_shows hran hv]

theorem Chip.passDone_column {d : Chip} {ss : List TrimSec} {steps : List PassDale} {ran : Nat → Bool} {failed : List Nat}
    {k x : Nat} (hk : k ∈ sectionDales ss) (hx : x < 66) (hpark : x ≠ d.parkCol k) :
    (d.passDone ss steps ran failed).f Fld.calColstat_result [k / 12, k % 12, x] = passMark steps k x := by
  rw [Chip.passDone, Chip.f_of_get (Chip.passTimed_get (by decide) (by decide) (by decide) (by decide))]
  refine passColumns_all hk x hx ?_
  rw [Chip.parkCol_congr (fun _ => passColumns_all_get (by decide) (by decide) (by decide)),
    Chip.parkCol_congr (fun _ => Chip.passFailed_get (by decide))]
  exact hpark

/-- The sections taken and refused leave the parked columns. -/
theorem Chip.imported_parkCol (c : Chip) (good bad : List TrimSec) (rest : List Nat) (k : Nat) :
    (rest.foldl (fun c k => c.ev .calEvImplaus [k / 12]) (bad.foldl Chip.secRefused (c.applySecs good))).parkCol k =
      c.parkCol k := by
  refine Chip.parkCol_congr (fun ix => ?_) k
  have h : ∀ q, (rest.foldl (fun c k => c.ev .calEvImplaus [k / 12]) (bad.foldl Chip.secRefused (c.applySecs good))).kept q =
      c.kept q := fun q => by
    rw [Chip.foldl_kept fun _ _ _ => Chip.ev_kept (by decide), Chip.foldl_kept fun c s _ => c.secRefused_kept s,
      Chip.applySecs_kept]
  exact h ⟨⟨.daleColmap, ix, 0⟩, .inl rfl⟩

/-- A first full pass in STARTING. -/
theorem Chip.firstPass_starting {c : Chip} {bs : List Byte} {n : Nat} {failed : List Nat} {steps : List PassDale}
    {ss : List TrimSec} (hss : parseSecs n bs = some ss) (hp : c.passRuns = true) :
    ∃ (good bad : List TrimSec) (rest : List Nat) (ran : Nat → Bool) (d : Chip), (∀ k, ran k = true) ∧
      d = rest.foldl (fun c k => c.ev .calEvImplaus [k / 12]) (bad.foldl Chip.secRefused (c.applySecs good)) ∧
      c.firstPass bs n failed steps =
        { d.passDone ss steps ran failed with boot := { (d.passDone ss steps ran failed).boot with passed := true } } := by
  unfold Chip.firstPass
  rw [hss]
  dsimp only
  rw [if_neg (not_not.mpr (.inl hp)), if_pos hp]
  exact ⟨_, _, _, _, _, fun k => by rw [hp, Bool.true_or], rfl, rfl⟩

/-- Settles O42: each calibration command and the first full pass. -/
theorem calibrationCommandsAct : Obligations.CalibrationCommandsAct := by
  unfold Obligations.CalibrationCommandsAct
  dsimp only [exec]
  refine ⟨?sends, ?takes, ?kernels, ?spares, ?house, ?wait, ?pass⟩
  case sends =>
    intro m s c' hm hs hlen hadm
    exact (mp_runs hm).trans (by rw [Chip.mpCalExport_taken hs hlen hadm])
  case takes =>
    intro m bad s c' hm hs hlen hadm
    refine ⟨_, mp_runs hm, ?_⟩
    cases hp : parseTrims (c'.bytes m.p (m.word 1)) with
    | none =>
      dsimp only
      rw [Chip.mpCalImport_unparsed hs hlen hadm hp]
      exact Chip.finish_answered ..
    | some r =>
      obtain ⟨serial, secs⟩ := r
      refine ⟨fun hne => ?_, fun c1 hser hdr hfit hbad hc1 hdev => ?_⟩
      · dsimp only
        rw [Chip.mpCalImport_foreign hs hlen hadm hp hne]
        exact Chip.finish_answered ..
      · rw [Chip.mpCalImport_applied hs hlen hadm hp hser hdr hfit hbad hc1 hdev]
  case kernels =>
    intro m xs s c' v d r hm hs hd hv hv11 hd11 hk hr hok
    subst hd hv
    refine (mp_runs hm).trans ?_
    rw [Chip.mpCalRun_runs hs hd11 hv11 (by omega)]
    dsimp only
    rw [if_pos hk, ← hr, hok]
  case spares =>
    intro m xs s c' v r hm hs hd11 hv hv11 hk hr hok
    subst hv
    refine (mp_runs hm).trans ?_
    rw [Chip.mpCalRun_runs hs hd11 hv11 (by omega)]
    dsimp only
    rw [if_neg (by omega), if_pos hk, ← hr, hok]
  case house =>
    intro m xs s c' r hm hs hd11 hv11 hk hr hok
    refine (mp_runs hm).trans ?_
    rw [Chip.mpCalRun_runs hs hd11 hv11 (by omega)]
    dsimp only
    rw [if_neg (by omega), if_neg (by omega), ← hr, hok]
  case wait => exact fun s hd hf => onChip_next (if_pos ⟨hd, hf⟩)
  case pass =>
    intro bs n failed steps s ss hss hp
    obtain ⟨good, bad, rest, ran, d, hran, hd, heq⟩ := Chip.firstPass_starting (failed := failed) (steps := steps) hss hp
    refine ⟨_, onChip_next heq, rfl, fun v hv => ?_, fun v e x hv he hx ht hpark => ?_⟩
    · exact (Chip.f_congr (b := d.passDone ss steps ran failed) rfl rfl ..).trans (Chip.passDone_failed hran hv)
    · have hk : (12 * v + e) / 12 = v ∧ (12 * v + e) % 12 = e := by omega
      have hmem : 12 * v + e ∈ sectionDales ss := by
        obtain ⟨t, hts, hdale⟩ := ht
        exact List.mem_filter.mpr ⟨List.mem_range.mpr (by omega), List.any_eq_true.mpr ⟨t, hts, by simp [hdale]⟩⟩
      have hshown := Chip.passDone_column (d := d) (steps := steps) (ran := ran) (failed := failed) hmem hx
        (by rw [hd, Chip.imported_parkCol]; exact hpark)
      rw [hk.1, hk.2] at hshown
      exact (Chip.f_congr (b := d.passDone ss steps ran failed) rfl rfl ..).trans hshown

end Sys2Proof.Machine
end
